-- ==== Sys2Proof/Word.lean ====
section
/-! DEFINITION. The plain types every other file uses: bytes, words, the fixed index sets of the package
(spires, Keeps, bays, ports, modules, channels) and the sparse table type. -/

namespace Sys2Proof

/-- One byte (R3). -/
abbrev Byte := BitVec 8

/-- One 32-bit register or descriptor word (R3, R445). -/
abbrev Word := BitVec 32

/-- Spire 0 to Spire 3 (R10). -/
abbrev Spire := Fin 4

/-- Drive bay 0 to 31 (R6). -/
abbrev Bay := Fin 32

/-- Network port NET0 to NET7 (R21). -/
abbrev Port := Fin 8

/-- Sub-port of a broken-out network port (R218). -/
abbrev Sub := Fin 4

/-- Hold-up module HUM0 or HUM1 (R350). -/
abbrev Hum := Fin 2

/-- Hot-swap channel 0 to 33 (R350). -/
abbrev Chan := Fin 34

/-- The two supervisory dies (R16). -/
inductive KeepId where
  | A
  | B
deriving DecidableEq, Repr

/-- Where a register access or a debug request comes from (R447). -/
inductive Requester where
  | pf0
  | pf1
  | jtag
deriving DecidableEq, Repr

/-- The two ports of a bay (R21). -/
inductive BayPort where
  | A
  | B
deriving DecidableEq, Repr

/-- The two physical functions of the service endpoint (R416). -/
inductive Pf where
  | pf0
  | pf1
deriving DecidableEq, Repr

/-- A sparse table: key and value, keys strictly rising. What an unlisted key stands for is said where the table
is a field of the state. -/
abbrev Tab (α : Type) := List (Nat × α)

end Sys2Proof
end

