-- ==== Sys2Proof/Operand.lean ====
section
/-! DEFINITION. The operands of the commands: what arrives with a step from outside (a capsule, a Floder packet, a
network packet, a measurement) or names what the step is about. The opcode table gives no operands; each type cites the
rule it is taken from (assumption log 1). -/

namespace Sys2Proof

/-- A VXP command capsule as received, field by field, reserved bits included (R117). The opcode is the command's row. -/
structure Capsule where
  /-- byte 1: bits 7:3 RSVD, 2 CRC, 1 EXPECT, 0 INLINE -/
  flags    : Byte
  /-- byte 2: bits 7:3 RSVD, 2:0 CLASS -/
  cls      : Byte
  /-- byte 3: RSVD -/
  rsvd3    : Byte
  tally    : BitVec 32
  cmdTag   : BitVec 32
  hostCrc  : BitVec 32
  key      : BitVec 128
  offset   : BitVec 64
  length   : BitVec 32
  hostRkey : BitVec 32
  hostVa   : BitVec 64
  /-- bytes 56 to 63: RSVD -/
  rsvd56   : BitVec 64
deriving DecidableEq, Repr

/-- A message delivered to the command complex: the queue pair it came on, its bytes (the 64 B capsule and the inline
payload that follows it), the message length and the immediate, if any (R117, R223, R255). On a session with connection
protection the bytes of a packet's message are its nonce, ciphertext and tag, those of a capsule received are the plaintext, and
the length includes the 28 B of nonce and tag (R325). `at_` is 0 as sent: the
device stamps it with the moment of reception in ns since HELD (R122). -/
structure Delivered where
  qp     : Nat
  bytes  : List Byte
  msgLen : Nat
  imm    : Option (BitVec 32)
  at_    : Nat
deriving DecidableEq, Repr

/-- The route by which a Floder packet arrives (R393, R263, R340): an endpoint ring, an authenticated management
session (with its queue pair), a maintenance queue or the JTAG mailbox. -/
inductive Source where
  | ring (r : Fin 256)
  | session (qp : Nat)
  | chain (q : Fin 1024)
  | mailbox
deriving DecidableEq, Repr

/-- A Floder command packet as received, with the bytes of its data area where the opcode reads one (R393, R394). The
opcode is the command's row. -/
structure Packet where
  src     : Source
  tag     : BitVec 16
  /-- byte 4: bits 7:2 RSVD, 1 NO_INT, 0 FENCE -/
  flags   : Byte
  dataLen : BitVec 24
  dataPtr : BitVec 64
  /-- the 48 parameter bytes -/
  params  : List Byte
  /-- the data area of an In command, as read from host memory or from the message -/
  data    : List Byte
  /-- 0 as sent: the device stamps a packet received on a session with that moment, in ns since HELD (R404) -/
  at_     : Nat
deriving DecidableEq, Repr

/-- What asks for a region or block reset: a Floder command, or the fault reaction (R95). -/
inductive ResetBy (α : Type) where
  | floder (p : Packet)
  | fault (a : α)
deriving DecidableEq, Repr

/-- The lookup tables with versioned entries that commands name (R79). -/
inductive TableId where
  | claim
  | keySlot
  | window
  | meter
  | multicast
  | forwarding
deriving DecidableEq, Repr

/-- A single part of R47, or a stripe below full redundancy (R85). -/
inductive Part where
  | spire (s : Spire)
  | keep (k : KeepId)
  | port (p : Port) (sub : Sub)
  | bay (b : Bay)
  | bayPort (b : Bay) (p : BayPort)
  | hum (h : Hum)
  | bank (s : Spire) (bank : Nat)
  | cell (s : Spire) (block : Nat) (cell : Nat)
  | stripe (id : Nat)
deriving DecidableEq, Repr

/-- Why a stripe closes (R156). -/
inductive CloseCause where
  | full
  | sealOp
  | flush
  | vault
  | age
  | exposed
  | deficit
deriving DecidableEq, Repr

/-- A drive label (R172): shelf identity, bay number, adoption generation, and the layout it records (R173, R184). -/
structure Label where
  shelf      : BitVec 128
  bay        : Nat
  generation : Nat
  rows       : Nat
  spareRows  : Nat
  journal    : List Nat
deriving DecidableEq, Repr

/-- What enumeration of a bay finds by Identify, Get Features and Get Log Page (R185, R186, R190). -/
structure DriveInfo where
  label       : Option Label
  /-- size of the namespace in LBAs -/
  lbas        : Nat
  /-- the namespace uses the 4096 + 64 extended LBA format -/
  extended    : Bool
  /-- protection information is enabled -/
  protection  : Bool
  /-- the drive is dual-ported -/
  dual        : Bool
  /-- the namespace is shared and attached to both controllers -/
  shared      : Bool
  /-- every controller reports NVMe 2.0 -/
  nvme20      : Bool
  /-- I/O queue pairs a controller supports, and their depth -/
  queues      : Nat
  depth       : Nat
  /-- largest data transfer of a command in bytes -/
  transfer    : Nat
  /-- Get Log Page: Sanitize Status is supported -/
  sanitizeLog : Bool
  /-- the ANA state is Optimized on port A, on port B -/
  anaA        : Bool
  anaB        : Bool
deriving DecidableEq, Repr

/-- Why a bay fails (R190). -/
inductive BayFailCause where
  | bothPortsDown
  | media (status lba : BitVec 32)
  | escalated
deriving DecidableEq, Repr

/-- A CM REQ: the CM fields the device checks and its private data, which begin with the VXP join block (R221). -/
structure CmReq where
  port        : Port
  sub         : Sub
  ipv6        : Bool
  serviceId   : BitVec 64
  rc          : Bool
  mtu         : Nat
  startPsn    : BitVec 24
  devPsn      : BitVec 24
  prio        : BitVec 3
  priv        : List Byte
deriving DecidableEq, Repr

/-- The request operations of RoCEv2 the responder knows (R219). -/
inductive ReqOp where
  | send
  | sendImm (imm : BitVec 32)
  | rdmaRead
  | atomic
  | sendInvalidate
  | bind
deriving DecidableEq, Repr

/-- A RoCEv2 SEND-type request packet for a device queue pair (R223, R292). `last` marks the last packet of its message;
`message` is the whole message it then completes. -/
structure ReqPacket where
  qp      : Nat
  psn     : BitVec 24
  op      : ReqOp
  first   : Bool
  last    : Bool
  bytes   : Nat
  /-- cost of the frame under R290 -/
  cost    : Nat
  prio    : BitVec 3
  ce      : Bool
  message : Delivered
deriving DecidableEq, Repr

/-- One RDMA WRITE packet that carries a window address (R250): its payload; of the first packet of a message the R_Key, address and
length in its RETH; of the last packet of an RDMA WRITE with Immediate the immediate (R251). -/
structure WritePacket where
  qp     : Nat
  psn    : BitVec 24
  rkey   : BitVec 32
  va     : BitVec 64
  length : BitVec 32
  data   : List Byte
  first  : Bool
  last   : Bool
  cost   : Nat
  prio   : BitVec 3
  ce     : Bool
  imm    : Option (BitVec 32)
deriving DecidableEq, Repr

/-- A cell offered to a Headframe input (R269). -/
structure Cell where
  mc      : Bool
  dest    : Fin 64
  src     : Fin 64
  cls     : Fin 8
  first   : Bool
  last    : Bool
  len     : Nat
  seq     : BitVec 16
  msgTag  : BitVec 16
  addr    : BitVec 48
  /-- the outputs of a group the settle engines allocated: groups 4 to 63 (R279) -/
  group   : List (Fin 64)
  /-- its HCRC fails at the intermediate -/
  midBad  : Bool
  /-- its HCRC fails at these outputs -/
  outBad  : List (Fin 64)
deriving DecidableEq, Repr

/-- One channel's measurements at a hot-swap sample (R367): current in CUR_LSB (signed on a module), voltages in mV, the
presence or seating inputs, the driver's report of full gate enhancement. -/
structure ChanSample where
  current   : Int
  vin       : Nat
  vout      : Nat
  /-- PRSNT_N low (bay), or both short pins low (module) -/
  present   : Bool
  gateFull  : Bool
deriving DecidableEq, Repr

/-- Everything sampled at one hot-swap sample (R72, R140, R367, R489). A channel or sensor not listed reads as its last
sample. -/
structure Sample where
  pwrgood : Bool
  vsnsMv  : Nat
  chans   : List (Nat × ChanSample)
  /-- temperatures in 0.1 degC: 0 to 5 dies by region, 8 to 11 stacks -/
  temps   : List (Nat × Int)
deriving DecidableEq, Repr

/-- An event at a fault source (R376, R378, R380). `cls` is the class a rule gives the event, none for its BASE. -/
structure FaultInfo where
  source  : BitVec 32
  cls     : Option Nat
  master  : BitVec 16
  access  : Byte
  address : BitVec 64
  detail0 : BitVec 32
  detail1 : BitVec 32
  detail2 : BitVec 32
deriving DecidableEq, Repr

/-- A lease that expires or is released unresolved (R383): of a bay command, or of the operation of a block or region. -/
inductive LeaseRef where
  | bayOp (op : Nat)
  | cell (s : Spire) (block cell : Nat)
  | block (s : Spire) (block : Nat)
  | region (s : Spire)
deriving DecidableEq, Repr

/-- A memory request to a function of the endpoint (R423, R445). -/
structure MemReq where
  pf       : Pf
  /-- 0, 2, or 6 for the expansion ROM -/
  bar      : Nat
  offset   : BitVec 26
  write    : Bool
  /-- bytes; 4 or 8 when natural -/
  length   : Nat
  fullBe   : Bool
  data     : BitVec 64
  poisoned : Bool
  /-- the addressed contents are uncorrectable -/
  bad      : Bool
  /-- for a write of SQ_TAIL: the slots it covers -/
  slots    : List (BitVec 16 × Packet)
deriving DecidableEq, Repr

/-- Uncorrectable errors that freeze the endpoint (R424, R433). -/
inductive FreezeCause where
  | dataLinkProtocol
  | receiverOverflow
  | malformedTlp
  | internal
  | surpriseDown
deriving DecidableEq, Repr

/-- What clears a function's right to issue requests (R428). -/
inductive MasterOff where
  | busMaster
  | d3hot
  | memorySpace
deriving DecidableEq, Repr

/-- The resets of the endpoint other than FLR (R95). -/
inductive EpResetKind where
  | conventional
  | hot
  | linkDown
deriving DecidableEq, Repr

/-- A request of the JTAG port (R339). -/
inductive JtagReq where
  | idcode
  | bypass
  | samplePreload
  | counterRead (off : BitVec 26)
  | traceRead
  | faultRecord (source : BitVec 32)
  | regRead (off : BitVec 26)
  | regWrite (off : BitVec 26) (v : BitVec 32)
  | memRead (s : Spire) (hbm : Bool) (addr : Nat)
  | memWrite (s : Spire) (hbm : Bool) (addr : Nat) (v : Byte)
  /-- halt, single step and breakpoint of a Floder microcontroller (R339) -/
  | halt
  | step
  | breakpoint
  | extest
deriving DecidableEq, Repr

/-- A PTP message on a network port (R218, R67). -/
structure PtpMessage where
  port     : Port
  sub      : Sub
  domain   : Byte
  /-- reference time at the instant of the message's time stamp, in ns -/
  refTime  : Nat
deriving DecidableEq, Repr

/-- What a bay read brings back (R192, R214): the grain images, or an error. -/
inductive BayRead where
  | data (images : List (List Byte))
  | error (status : BitVec 32)
deriving DecidableEq, Repr

/-- Why a completion did not bring data to the endpoint (R424, R427). -/
inductive CplStatus where
  | good
  | poisoned
  | errorStatus
deriving DecidableEq, Repr

/-- The target of an ARP request or Neighbor Discovery solicitation (R218). -/
inductive ArpTarget where
  | v4 (a : BitVec 32)
  | v6 (a : BitVec 128)
deriving DecidableEq, Repr

end Sys2Proof
end

