-- ==== Sys2Proof/Syntax.lean ====
section
/-! DEFINITION. The commands of the block: one constructor per row of spec/opcode_table.json, in the table's order. Each
docstring gives the row's mnemonic and rule; the operands are those of the rules (assumption log 1). -/

namespace Sys2Proof

/-- The 251 commands of the VN3280. -/
inductive Instr where
  /-- POWER_ON (R85): Supplies come into range with RESET_N high, the Keeps leave HELD, the straps are sampled and the Keep ROM starts stage B0 of BOOT. -/
  | powerOn (straps : BitVec 3)
  /-- SUPPLY_BELOW_THRESHOLD (R478): A rail stays below its monitor threshold for 1 µs, so bay gates and HUM charging go off, HBM contents are lost and the device enters HELD. -/
  | supplyBelowThreshold
  /-- RESET_N_PULSE (R85): RESET_N rises after being low for 1 µs to 100 ms, starting a warm chip reset where the mode allows it. -/
  | resetNPulse (lowNs : Nat)
  /-- RESET_N_LONG_LOW (R85): RESET_N has been low for more than 100 ms, moving the device to HELD, or to VAULT when dirty data is present. -/
  | resetNLongLow
  /-- INPUT_POWER_LOSS (R140): PWRGOOD_IN is low for 256 ns, or VSNS_12_IN is below V_LOSS_MV at a sample, so ingress freezes within a stroke and the device enters VAULT (V0). -/
  | inputPowerLoss
  /-- INPUT_PRESENT (R141): Input has been seen at 244 consecutive hot-swap samples, which ends a VAULT waiting after its marker by a warm chip reset. -/
  | inputPresent
  /-- BELL_BOUNDARY (R72): At stroke 0 of every bell, staged values are applied, table versions are switched, credit allotments and admission grants are delivered, meter tokens are updated and gate entries advance. -/
  | bellBoundary
  /-- CREDIT_COMPUTE (R146): In stroke 7 the Keeps compute E_avail, LIMIT, OUT, the deficit state and next bell's per-spire credit allotments. -/
  | creditCompute
  /-- KEEP_OUTPUT_COMPARE (R17): At each stroke boundary the Keep outputs are compared, and a miscompare holds outputs and leads to isolation or FENCED. -/
  | keepOutputCompare (stroke : Fin 8) (miscompare : Bool) (output : BitVec 32)
  /-- KEEP_SELFCHECK_MISMATCH (R16): The duplicate decision logic inside a Keep disagrees, which sets that Keep's internal fault flag within one stroke. -/
  | keepSelfcheckMismatch (k : KeepId) (unit : BitVec 32)
  /-- KEEP_ISOLATION (R17): The sound Keep opens the faulty Keep's output isolation switches before the next bell boundary and continues alone in DEGRADED. -/
  | keepIsolation (k : KeepId)
  /-- PEAL_BOUNDARY (R72): At bell 0 of every peal, the servo offset is measured, BELL_SYNC_OUT pulses, the DRBGs reseed and peal-scheduled work begins. -/
  | pealBoundary
  /-- TIME_STEP (R68): A due step lengthens or shortens the current peal, may set the PTP epoch, increments BELL_STEP_COUNT and raises an ADVISORY fault. -/
  | timeStep
  /-- REFERENCE_LOST_TIMEOUT (R67): The reference has been lost for 125 peals in LOCKED, so the servo enters HOLDOVER. -/
  | referenceLostTimeout
  /-- REFERENCE_VALID_AGAIN (R67): The reference becomes valid again in HOLDOVER, so the servo clears BELL_HOLDOVER and enters ACQUIRE. -/
  | referenceValidAgain
  /-- HOLDOVER_LIMIT_EXPIRE (R67): BELL_HOLDOVER_LIMIT peals elapse in HOLDOVER, so the servo drops its frequency correction and enters FREE. -/
  | holdoverLimitExpire
  /-- BELL_SYNC_EDGE (R66): A rising edge arrives on BELL_SYNC_IN and is used, or is discarded and counted when it lies more than 1 µs from the expected time. -/
  | bellSyncEdge
  /-- PAGE_COMMIT (R75): A write of COMMIT to a page commit register requests that the page's staged fields take effect together, which sets COMMIT_PENDING. -/
  | pageCommit (page : Nat) (value : Word)
  /-- PAGE_DISCARD (R75): A write of DISCARD copies the active values back into the staging view, unless a commit is pending. -/
  | pageDiscard (page : Nat) (value : Word)
  /-- STAGED_COMMIT_TAKE_EFFECT (R76): At the bell given by the commit's stroke, all staged fields of the page take effect, COMMIT_PENDING clears and COMMIT_COUNT advances. -/
  | stagedCommitTakeEffect (page : Nat)
  /-- REGISTER_WRITE (R77): A write to a register with no behaviour of its own: a staging view write (ignored with STAGE_BLOCKED set while a commit is pending), a W1C or W1S write, or an ignored active-view write. -/
  | registerWrite (by_ : Requester) (off : Nat) (value : Word)
  /-- BELL_NOW_READ (R447): A read of BELL_NOW_LO returns the live time stamp and latches its HI word for the requester path. -/
  | bellNowRead (by_ : Requester)
  /-- PMON_LO_READ (R443): A read of PMON_CTRk_LO or PMON_SHDk_LO returns the low value bits and latches the HI word for the requester path. -/
  | pmonLoRead (by_ : Requester) (off : Nat)
  /-- TABLE_VERSION_SWITCH (R79): A versioned table update takes effect at stroke 0 of the next bell, and new matches from then on take the new version. -/
  | tableVersionSwitch (t : TableId) (key : Nat)
  /-- TABLE_UPDATE_UNBLOCK (R80): The oldest version of an entry loses its last holder, so a waiting update is applied. -/
  | tableUpdateUnblock (t : TableId) (key : Nat)
  /-- TABLE_UPDATE_TIMEOUT (R80): An update still waiting after 4 peals completes TIMEOUT and leaves the entry unchanged. -/
  | tableUpdateTimeout (t : TableId) (key : Nat)
  /-- BOOT_STAGE_PASS (R88): A BOOT stage passes and the next stage starts, or SURVEY is entered after B5. The
  operand names a spire that boots alone in its region reset (R97), and none the device. -/
  | bootStagePass (sp : Option Spire := none)
  /-- BOOT_STAGE_FAIL (R89): A BOOT stage fails, which records FAIL_CODE, starts the backoff delay, and may mark a part missing or switch image. -/
  | bootStageFail (code : Byte) (part : Option Nat) (sp : Option Spire := none)
  /-- BOOT_BACKOFF_EXPIRE (R89): The backoff delay ends and the failed stage is retried at the next bell boundary. -/
  | bootBackoffExpire (sp : Option Spire := none)
  /-- BAY_WAIT_EXPIRE (R94): BAY_WAIT_PEALS elapses in SURVEY, so bays not yet ready are treated as failed. -/
  | bayWaitExpire
  /-- SURVEY_COMPLETE (R94): Enumeration, journal replay, buffer replay and session restore are done, so the device may go to SERVICE or DEGRADED. -/
  | surveyComplete
  /-- FAULT_REPAIRED (R47): The last unrepaired fault is repaired with every stripe at full redundancy, so DEGRADED returns to SERVICE and exposure ends. -/
  | faultRepaired (part : Part)
  /-- EXPOSED_SETTLE_COMPLETE (R57): The settle of exposed grains completes, putting the strict policy in force and sending NOTICE 0x07. -/
  | exposedSettleComplete
  /-- SPIRE_LOSS (R26): A spire is lost, so its partner takes sessions, ownership, buffer copies and held paths from the next bell, and bays fail over to their other port. -/
  | spireLoss (s : Spire) (cause : BitVec 32)
  /-- REGION_RESET (R97): A Floder REGION_RESET (0x0103), or a SEVERE fault, stops admission on the spire, hands its roles to the partner and reruns B2 to B5 for that spire. -/
  | regionReset (by_ : ResetBy Spire)
  /-- REGION_BOOT_COMPLETE (R97): The reset spire finishes B2 to B5, takes back its ports, and the partner starts re-mirroring into its stack. -/
  | regionBootComplete (s : Spire)
  /-- REMIRROR_COMPLETE (R97): Every dirty grain again has two copies after a region reset or a return of the spire. -/
  | remirrorComplete (s : Spire)
  /-- ROLE_RETURN (R97): At the first peal boundary after re-mirroring, ownership and anchor roles return to the spire. -/
  | roleReturn (s : Spire)
  /-- BLOCK_RESET (R96): A Floder BLOCK_RESET (0x0104), or a SEVERE block fault, resets the block's cells and scheduler, keeping its saved work under a recovery lease. -/
  | blockReset (by_ : ResetBy (BitVec 32))
  /-- BLOCK_RESET_COMPLETE (R96): A block reset ends, its saved work is re-issued, and on a command complex reset unheld commands complete ABORTED_RESET. -/
  | blockResetComplete (source : BitVec 32) (resolved : Bool)
  /-- IDENTIFY (R412): The Floder command writes the 64 B identity data and returns STATUS, KEEP_BOOT_PROGRESS and the lifecycle state. -/
  | identify (p : Packet)
  /-- ECHO (R412): The Floder command returns its parameter bytes 0 to 11 as result words. -/
  | echo (p : Packet)
  /-- MODE_QUERY (R412): The Floder command returns STATUS[3:0], the DRAIN purpose and the OFF_READY flag. -/
  | modeQuery (p : Packet)
  /-- MODE_SET (R85): The Floder command moves SURVEY to SERVICE under its guard, or resumes from DRAIN. -/
  | modeSet (p : Packet)
  /-- WARM_RESET (R410): The Floder command replies OK and then starts a warm chip reset at the next bell boundary. -/
  | warmReset (p : Packet)
  /-- SHUTDOWN (R103): The Floder command enters DRAIN for shutdown and completes at OFF_READY. -/
  | shutdown (p : Packet)
  /-- DRAIN_WAIT_EXPIRE (R103): A capsule waiting at ingress in DRAIN for shutdown passes DRAIN_WAIT_BELLS and completes BUSY_MODE. -/
  | drainWaitExpire (d : Delivered)
  /-- DRAIN_COMPLETE (R103): In-flight work is done and dirty grains are settled, so the device closes the journal, writes the record image and clean-shutdown marker and enters OFF_READY, or, for debug, goes to SURVEY. -/
  | drainComplete
  /-- ACTIVATE (R107): The Floder command schedules a DRAIN for activation at the next peal boundary for the staged and verified image. -/
  | activate (p : Packet)
  /-- ACTIVATION_DRAIN_ENTER (R107): At the peal boundary after ACTIVATE, DRAIN for activation begins and capsules wait at ingress. -/
  | activationDrainEnter
  /-- IMAGE_SWAP (R108): At the first peal boundary at which every Floder operation has reached a saved point, the images are swapped atomically. -/
  | imageSwap
  /-- IMAGE_SWAP_COMPLETE (R107): The swap completes, waiting commands are released in arrival order and the previous mode returns. -/
  | imageSwapComplete
  /-- ACTIVATION_TIMEOUT (R107): No saved point is reached by the 16 ms boundary, so the activation completes TIMEOUT and waiting commands are released. -/
  | activationTimeout
  /-- CREATE (R115): The VXP command makes an OPEN extent of length 0 at its owner, under the checks of R119. -/
  | create (d : Delivered)
  /-- APPEND (R119): The VXP command is checked, takes credit and an offset, and runs the commit path, or receives a staging grant when it is not inline. -/
  | append (d : Delivered)
  /-- SEAL (R115): The VXP command fixes the extent length in acceptance order. -/
  | sealOp (d : Delivered)
  /-- DELETE (R115): The VXP command makes the extent DELETED in acceptance order and lowers the live grains of its stripes. -/
  | delete (d : Delivered)
  /-- READ (R130): The VXP command reads a range from buffer and drives and writes it to host memory, then writes its completion. -/
  | read (d : Delivered)
  /-- STAT (R46): The VXP command reports the extent state and its visible length at admission. -/
  | stat (d : Delivered)
  /-- FLUSH (R102): The VXP command waits until the session's appends held at its admission are settled and journaled. -/
  | flush (d : Delivered)
  /-- FLUSH_COMPLETE (R102): The covered appends are settled and journaled, so the FLUSH completes OK, or DATA_LOST. -/
  | flushComplete (id : Nat)
  /-- CACK (R228): The VXP command releases completion records up to its tally and advances the floor. -/
  | cack (d : Delivered)
  /-- PING (R118): The VXP command echoes its OFFSET in the completion. -/
  | ping (d : Delivered)
  /-- ADMIT_BOUND_EXPIRE (R134): An APPEND waiting for credit or staging space passes ADMIT_BOUND_BELLS and completes BUSY_CREDIT or BUSY_STAGING. -/
  | admitBoundExpire (id : Nat)
  /-- GRAINS_STORED (R28): The HBM controllers of both mirror spires accept all grains of an append. -/
  | grainsStored (id : Nat)
  /-- APPEND_HELD (R44): An append is marked held in acceptance order; its completion record is written and mirrored and its completion leaves within one stroke. -/
  | appendHeld (id : Nat)
  /-- STAGING_SIGNAL (R126): A signalling SEND with Immediate matches its grant, and the staged APPEND rechecks its extent, verifies the CRC and runs the commit path. -/
  | stagingSignal (qp : Nat) (imm : BitVec 32) (msgLen : Nat)
  /-- GRANT_LIFE_EXPIRE (R249): A grant's LIFE_BELLS ends before its signal, so the APPEND completes XFER_EXPIRED and the grant is freed. -/
  | grantLifeExpire (session grantTag : Nat)
  /-- RECORD_LIFE_EXPIRE (R41): A completion record reaches 64 peals of life and is released. -/
  | recordLifeExpire (session tally : Nat)
  /-- ASSAY_DUE (R144): A HUM's assay falls due, and the module is counted at its projected end level. -/
  | assayDue (h : Hum)
  /-- ASSAY_DISCHARGE_START (R144): At the first bell with OUT at or below LIMIT, charging stops and the module discharges for its assay. -/
  | assayDischargeStart (h : Hum)
  /-- ASSAY_END (R145): The module voltage reaches V_ASSAY_END, so E_cap′ is computed, the assay passes or fails, and charging resumes. -/
  | assayEnd (h : Hum)
  /-- STRIPE_CLOSE (R156): A stripe is closed by fill, seal, flush, VAULT, age, exposure or deficit, and its parity is computed and its seams are issued to the bays. -/
  | stripeClose (id : Nat) (cause : CloseCause)
  /-- SETTLE_AGE_EXPIRE (R157): A stripe's oldest grain has been dirty for SETTLE_AGE_PEALS, so the stripe closes. -/
  | settleAgeExpire (id : Nat)
  /-- BAY_WRITE_COMPLETE (R186): An NVMe write, Write Zeroes or Deallocate issued to a bay completes. -/
  | bayWriteComplete (op : Nat) (status : BitVec 32)
  /-- JOURNAL_WRITE_COMPLETE (R183): All three copies of a journal block have been written with FUA. -/
  | journalWriteComplete (seq : Nat)
  /-- GRAIN_CLEAN (R158): A stripe's seams and journal records are complete, so the stripe is published, buffer copies are freed and credit is returned. -/
  | grainClean (stripe : Nat)
  /-- CHECKPOINT_START (R184): The journal ring is half full, so changed map pages are written and followed by a CHECKPOINT record. -/
  | checkpointStart
  /-- VAULT_PHASE_V1 (R160): At bell 1 of VAULT, frames in progress finish, network SerDes power down and queue-pair state freezes. -/
  | vaultPhaseV1
  /-- VAULT_PHASE_V2 (R160): At bell 2 of VAULT, open stripes close short and every dirty grain is settled. -/
  | vaultPhaseV2
  /-- VAULT_SETTLE_COMPLETE (R160): V2 ends; e_settle is measured and may be adopted, and the journal close of V3 starts. The operand says
  nothing (assumption log 1). -/
  | vaultSettleComplete (done : Unit)
  /-- VAULT_JOURNAL_CLOSED (R160): The close record is written on all three journal bays, ending V3 and starting the record image write. -/
  | vaultJournalClosed
  /-- RECORD_IMAGE_WRITTEN (R162): The record image is written three ways, ending V4 and starting the NVMe Flush of V5. -/
  | recordImageWritten
  /-- VAULT_FLUSH_COMPLETE (R160): NVMe Flush completes on every namespace, ending V5 and starting the marker write. The
  operand says nothing (assumption log 1). -/
  | vaultFlushComplete (done : Unit)
  /-- VAULT_MARKER_WRITTEN (R164): The vault marker is written; the device then warm-resets, waits for input, or turns bay gates and HUM outputs off. -/
  | vaultMarkerWritten
  /-- BAY_POWER_GOOD (R190): An ABSENT bay has power good and PERST_N released, so enumeration starts on both ports. -/
  | bayPowerGood (b : Bay)
  /-- BAY_CONTROLLER_READY (R190): An enumerating bay's controller is ready, and it becomes SERVING or FOREIGN according to its label. -/
  | bayControllerReady (b : Bay) (info : DriveInfo)
  /-- BAY_FAIL (R190): A SERVING bay loses both ports, reports media failure or escalates to SEVERE, so it becomes FAILED and rebuild begins. -/
  | bayFail (b : Bay) (cause : BayFailCause)
  /-- BAY_DRIVE_READY_AGAIN (R190): A FAILED bay's drive with a current generation is ready again, so it returns to SERVING. -/
  | bayDriveReadyAgain (b : Bay) (info : DriveInfo)
  /-- BAY_PORT_LINK_CHANGE (R187): A bay port goes up or down, which changes the active port for writes and the port choice for reads. -/
  | bayPortLinkChange (b : Bay) (p : BayPort) (up : Bool)
  /-- ACTIVE_PORT_RETURN (R187): At the first peal boundary with port A up and no lease live, the active port returns to A. -/
  | activePortReturn (b : Bay)
  /-- BAY_READ_COMPLETE (R192): A bay read returns; its grains are CRC-checked, authenticated and arbitrated, or reconstructed by degraded read. -/
  | bayReadComplete (op : Nat) (r : BayRead)
  /-- REBUILD_POSITION_COMPLETE (R193): A rebuilt position's RELOCATE record or its rewrite to the replacement is complete, which makes it visible and lowers UNPLACED. -/
  | rebuildPositionComplete (stripe position : Nat)
  /-- COMPACTION_COMPLETE (R195): A compacted stripe's live grains are in new stripes, runs are repointed and the old stripe is freed. -/
  | compactionComplete (stripe : Nat)
  /-- TOMBSTONE_RECLAIM (R196): The EXTENT removal record of a DELETED extent completes, so the map entry is freed and quota returned. -/
  | tombstoneReclaim (claim : Nat) (key : BitVec 128)
  /-- IO_TIMEOUT (R197): A bay command timer expires, so the cell takes a recovery lease, sends Abort, quarantines the identifier and retries. -/
  | ioTimeout (op : Nat)
  /-- LEASE_CAP_EXPIRE (R383): A recovery lease's cap expires, or the lease is released unresolved, so recovery passes to the next level. -/
  | leaseCapExpire (l : LeaseRef)
  /-- READ_TIMEOUT (R198): A READ's running time reaches READ_TIMEOUT_PEALS, so it completes TIMEOUT with no data. -/
  | readTimeout (id : Nat)
  /-- LATE_COMPLETION (R199): A completion for a quarantined identifier arrives and is discarded and counted. -/
  | lateCompletion (b : Bay) (cid : Nat)
  /-- QUARANTINE_RELEASE (R199): A quarantined command identifier leaves quarantine after four IO_TIMEOUT_BELLS periods. -/
  | quarantineRelease (b : Bay) (cid : Nat)
  /-- SCAN_START (R209): The Floder command starts a STREAM or GRAIN scan of an HBM or bay range on a scan unit. -/
  | scanStart (p : Packet)
  /-- SCAN_ABORT (R210): The Floder command ends a scan, which completes ABORTED_RESET. -/
  | scanAbort (p : Packet)
  /-- SCAN_COMPLETE (R210): A scan reaches the end of its range and completes with its status and results. -/
  | scanComplete (s : Spire) (tag : BitVec 16)
  /-- SCRUB_PASS_START (R212): At a peal boundary a spire lists its scrub items and starts a pass. -/
  | scrubPassStart (s : Spire)
  /-- SCRUB_PEAL_QUOTA (R212): Each peal of a pass starts its quota of scrub items and raises SCRUB_LATE once when the pass overruns. -/
  | scrubPealQuota (s : Spire)
  /-- SCRUB_STRIPE_READ_COMPLETE (R213): A scrubbed stripe's positions are read, so CRC, parity and tags are checked and faults are routed to
  repair. The last operand says nothing (assumption log 1). -/
  | scrubStripeReadComplete (s : Spire) (stripe : Nat) (done : Unit)
  /-- SCRUB_DEFERRED_RETRY (R213): A stripe deferred for an unloaded key is scrubbed again in the bell after the slot is loaded. -/
  | scrubDeferredRetry (s : Spire) (stripe : Nat)
  /-- RELAY_PUBLISH (R215): A repaired stripe's re-lay is published under a new STRIPE_ID and the old stripe is freed. -/
  | relayPublish (s : Spire) (stripe : Nat)
  /-- CM_REQ (R221): A CM REQ is checked and answered with a REP, creating a PENDING path, or with a REJ. -/
  | cmReq (r : CmReq)
  /-- CM_RTU (R225): An RTU arrives and the PENDING path becomes LIVE and carries capsules. -/
  | cmRtu (qp : Nat)
  /-- PENDING_PATH_RELEASE (R225): A CM exchange ends without an RTU, so the PENDING path and its queue pair are released. -/
  | pendingPathRelease (qp : Nat)
  /-- CM_DREQ (R239): A host DREQ releases the path at once and is answered with a DREP. -/
  | cmDreq (qp : Nat)
  /-- REQUEST_PACKET (R223): A RoCEv2 request packet is policed, PSN-checked and delivered, NAKed or RNR-NAKed, and a CNP is sent for a CE mark. -/
  | requestPacket (p : ReqPacket)
  /-- UNSUPPORTED_FRAME (R218): A received frame using an unsupported feature is dropped and counted. -/
  | unsupportedFrame (port : Port) (len : Nat := 64)
  /-- MIRROR_CONTEXT_HELD (R493): The partner holds a receive context beyond a packet's PSN, so the ACK covering it is built and sent. -/
  | mirrorContextHeld (qp : Nat) (psn : BitVec 24)
  /-- ACK_RECEIVE (R234): An ACK for the device's sends arrives, which updates RTT, the congestion window and the pacing rate. -/
  | ackReceive (qp : Nat) (psn : BitVec 24)
  /-- ACK_TIMEOUT (R241): The local ACK timeout expires, so the device retransmits, or faults the queue pair when RETRY_CNT is exhausted. -/
  | ackTimeout (qp : Nat)
  /-- CNP_RECEIVE (R235): A received CNP is counted and, with CNP_REACT, applies one window decrease. -/
  | cnpReceive (qp : Nat)
  /-- HOST_RNR_NAK (R232): The host answers with an RNR NAK and the device retries under RNR_RETRY. -/
  | hostRnrNak (qp : Nat) (psn : BitVec 24)
  /-- NET_LINK_DOWN (R236): A network port goes down, so queued frames are flushed, its queue pairs become HELD and NOTICE 0x04 is queued. -/
  | netLinkDown (port : Port) (sub : Sub)
  /-- NET_LINK_UP (R238): A port comes up again and its HELD paths become LIVE with NOTICE 0x05. -/
  | netLinkUp (port : Port) (sub : Sub)
  /-- PATH_HOLD_EXPIRE (R238): PATH_HOLD_PEALS ends on a HELD path, so its queue pair is released and a READ in flight completes ABORTED_RESET. -/
  | pathHoldExpire (qp : Nat)
  /-- CONSUMER_WORD_RESPONSE (R230): The RDMA READ of the ring consumer word returns, which updates CONSUMED and free space. -/
  | consumerWordResponse (session : Nat) (word : BitVec 64)
  /-- CONSUMER_POLL_TIMER (R230): While free space stays below 64, the consumer word is read again every 64 bells. -/
  | consumerPollTimer (session : Nat)
  /-- RING_ENTRY_WRITE (R231): A built COMPLETION, XFER_READY or NOTICE entry is issued by RDMA WRITE on its chosen path once ring space allows. -/
  | ringEntryWrite (session : Nat)
  /-- NOTIFY_SEND (R233): A path's notification condition is met, so a SEND with Immediate covering its entries is sent. -/
  | notifySend (qp : Nat)
  /-- SESSION_CREATE (R224): The Floder command makes a session from its descriptor. -/
  | sessionCreate (p : Packet)
  /-- SESSION_CLOSE (R224): The Floder command refuses new capsules, withdraws TAG_WAITs, waits for in-flight commands, then sends DREQs and frees records. -/
  | sessionClose (p : Packet)
  /-- SESSION_QUERY (R412): The Floder command returns the floor, path counts, anchor, claim and live records. -/
  | sessionQuery (p : Packet)
  /-- WINDOW_WRITE_PACKET (R250): An RDMA WRITE packet into a staging window is checked for key, session, state and range, and placed or NAKed. -/
  | windowWritePacket (p : WritePacket)
  /-- UNEXP_AGED (R256): An unexpected-list entry reaches UNEXP_LIFE_PEALS and is removed and counted. -/
  | unexpAged (session : Nat)
  /-- IMMEDIATE_SPENT_END (R257): 64 peals after its grant ended, a grant's IMMEDIATE is no longer spent. -/
  | immediateSpentEnd (session grantTag : Nat)
  /-- WINDOW_CREATE (R245): The Floder command creates a staging window that becomes LIVE at the next bell. -/
  | windowCreate (p : Packet)
  /-- WINDOW_REVOKE (R252): The Floder command ends the window's GRANTED grants and makes the window REVOKING. -/
  | windowRevoke (p : Packet)
  /-- REVOKE_DRAIN_COMPLETE (R252): The last earlier access to a REVOKING window drains, so its memory is freed and the revoke completes. -/
  | revokeDrainComplete (w : Nat)
  /-- TAG_WAIT (R258): The Floder command matches the unexpected list or posts a receive context on a management session. -/
  | tagWait (p : Packet)
  /-- TAG_WAIT_TIMEOUT (R258): A posted TAG_WAIT context passes TIMEOUT_BELLS and is withdrawn with TIMEOUT. -/
  | tagWaitTimeout (id : Nat)
  /-- CHAIN_QUEUE_CREATE (R263): The Floder command creates a maintenance queue on a spire. -/
  | chainQueueCreate (p : Packet)
  /-- CHAIN_POST (R263): The Floder command posts Floder packets as elements of a maintenance queue. -/
  | chainPost (p : Packet)
  /-- CHAIN_QUERY (R263): The Floder command returns a queue's counter, state and queued elements. -/
  | chainQuery (p : Packet)
  /-- CHAIN_QUEUE_DESTROY (R263): The Floder command destroys a queue, completing its remaining elements ABORTED_RESET. -/
  | chainQueueDestroy (p : Packet)
  /-- WAIT_ON_COUNT (R260): A WAIT-ON-COUNT element at the head of its queue is evaluated at the head and at each increment of its target counter. -/
  | waitOnCount (p : Packet)
  /-- WAIT_ON_COUNT_TIMEOUT (R260): An unsatisfied WAIT-ON-COUNT passes its timeout and completes TIMEOUT, halting its queue. -/
  | waitOnCountTimeout (q : Fin 1024)
  /-- CHAIN_ELEMENT_COMPLETE (R259): A maintenance queue element completes, which increments the counter or halts the queue in ERROR. -/
  | chainElementComplete (q : Fin 1024) (status : Byte)
  /-- HEADFRAME_SLOT (R271): Each 4 ns slot, inputs inject cells onto planes, intermediates send at their matches and outputs release cells in sequence. -/
  | headframeSlot (slot : Fin 128) (offered : List Cell)
  /-- RESEQ_TIMEOUT (R283): A sequence gap stays open for RESEQ_WAIT_SLOTS, so the message is discarded, a lost notice is sent and HF_CELL_LOST is raised. -/
  | reseqTimeout (output : Fin 64) (mc : Bool) (dest : Fin 64) (from_ : Fin 64) (cls : Fin 8)
  /-- LOST_NOTICE (R283): A lost notice reaches the sending block, which re-dispatches the messages under the recovery lease. -/
  | lostNotice (input : Fin 64) (msgTag : BitVec 16)
  /-- HF_INTERMEDIATE_ERROR (R284): An intermediate's memory reports an error beyond ECC, so it is quarantined and its cells are lost. -/
  | hfIntermediateError (plane : Fin 8) (inter : Fin 64)
  /-- POLICER_MODE_RETURN (R293): At a peal boundary with 960 or fewer bound queue pairs, a port returns to METER mode. -/
  | policerModeReturn (port : Port)
  /-- TRANSMIT_OPPORTUNITY (R299): At a transmit opportunity the port chooses a frame by gates, shapers and class, sends it and debits its buckets. -/
  | transmitOpportunity (port : Port) (sub : Sub)
  /-- GATE_ENTRY_ADVANCE (R301): A gate entry's duration ends and the next entry or the default mask applies. -/
  | gateEntryAdvance (port : Port) (sub : Sub)
  /-- GATE_LIST_SWITCH (R304): A committed gate list takes effect at bell 0 of a peal, dropping stranded frames. -/
  | gateListSwitch (port : Port) (sub : Sub)
  /-- PFC_RECEIVE (R297): A received PFC frame pauses an egress class for its quanta. -/
  | pfcReceive (port : Port) (sub : Sub) (quanta : List (Nat × Nat))
  /-- PFC_REFRESH (R297): Every 64 bells above PFC_XON_KIB the device resends the PFC pause frame. -/
  | pfcRefresh (port : Port)
  /-- METER_PROFILE_SET (R291): The Floder command writes a meter profile as a versioned update. -/
  | meterProfileSet (p : Packet)
  /-- METER_PROFILE_GET (R291): The Floder command returns a meter profile and its version. -/
  | meterProfileGet (p : Packet)
  /-- KEY_LOAD (R315): The Floder command unwraps a key blob into an EMPTY slot and sends masked copies to the spires. -/
  | keyLoad (p : Packet)
  /-- KEY_REVOKE (R316): The Floder command makes a slot REVOKING and sends NOTICE 0x06 to the claim's sessions. -/
  | keyRevoke (p : Packet)
  /-- KEY_ZEROIZE (R316): The last holder of a REVOKING slot finishes, so the key is zeroized everywhere and KEY_REVOKE completes. -/
  | keyZeroize (slot : Nat)
  /-- KEY_QUERY (R328): The Floder command returns a slot's state, usage, generation and claim. -/
  | keyQuery (p : Packet)
  /-- KEY_EPOCH_ADVANCE (R318): The Floder command raises KEY_EPOCH, frees old lease records and makes old-epoch keys decrypt-only. -/
  | keyEpochAdvance (p : Packet)
  /-- CONN_KEY_BIND (R324): The Floder command binds or unbinds a session's connection payload protection key. -/
  | connKeyBind (p : Packet)
  /-- LEASE_GRANT (R320): After LEASE_NEXT + 1 is written to non-volatile storage, the Keeps grant a counter lease to a spire. -/
  | leaseGrant (s : Spire) (slot : Nat) (nvOk : Bool)
  /-- RNG_SOURCE_FAIL (R312): An entropy source fails a health test, is disabled and raises RNG_SOURCE. -/
  | rngSourceFail (k : KeepId) (test : BitVec 32)
  /-- RNG_EXHAUSTED (R312): With both sources disabled for 125 peals, the root raises RNG_EXHAUSTED and the device enters FENCED. -/
  | rngExhausted
  /-- CIPHER_CORE_FAULT (R310): A cipher core faults, is quarantined and the gang re-forms, re-encrypting cut-off grains under their nonce. -/
  | cipherCoreFault (s : Spire) (core : Fin 12)
  /-- PROVISION (R334): The Floder command unwraps and installs the KEK and owner key and makes the device PROVISIONED. -/
  | provision (p : Packet)
  /-- RETIRE (R335): The Floder command drains, zeroizes and erases keys and descriptors, blows the RETIRED fuse and sanitizes the bays. -/
  | retire (p : Packet)
  /-- SANITIZE_COMPLETE (R335): A bay's Sanitize completes or fails, and RETIRE enters OFF_READY when all are done. -/
  | sanitizeComplete (b : Bay) (status : BitVec 32)
  /-- LIFECYCLE_QUERY (R333): The Floder command returns the serial number, identity key and lifecycle state. -/
  | lifecycleQuery (p : Packet)
  /-- DEBUG_CHALLENGE (R340): The Floder command writes a fresh 32 B challenge valid for one use within 10 s. -/
  | debugChallenge (p : Packet)
  /-- DEBUG_SET (R340): The Floder command checks a signed request and sets the debug level at the next bell. -/
  | debugSet (p : Packet)
  /-- DEBUG_LEVEL_APPLY (R341): A new debug level takes effect; OPEN zeroizes slots and starts a debug DRAIN, and leaving OPEN warm-resets. -/
  | debugLevelApply
  /-- JTAG_DEBUG_ACCESS (R339): A JTAG debug-port access is answered, refused or stalled according to the debug level and mode. -/
  | jtagDebugAccess (r : JtagReq)
  /-- IMAGE_STAGE (R412): The Floder command writes a chunk of the inactive SPI image and verifies the whole image on LAST. -/
  | imageStage (p : Packet)
  /-- FLOOR_ADVANCE (R338): The Floder command raises the rollback floor within the SVNs of both images. -/
  | floorAdvance (p : Packet)
  /-- IMAGE_QUERY (R412): The Floder command returns the active and inactive SVNs and the activation state. -/
  | imageQuery (p : Packet)
  /-- PARK (R345): The Floder command places a spire in P2, handing its roles to the partner and gating its engines. -/
  | park (p : Packet)
  /-- UNPARK (R346): The Floder command, or an automatic trigger, restarts a parked spire from retention. -/
  | unpark (by_ : ResetBy Spire)
  /-- UNPARK_RESTART_COMPLETE (R346): A parked spire's cores have restarted, key copies are re-sent and its ports are enabled. -/
  | unparkRestartComplete (s : Spire)
  /-- UNPARK_ROLE_RETURN (R346): At the first peal boundary after restart, the spire's roles return and UNPARK completes. -/
  | unparkRoleReturn (s : Spire)
  /-- STANDBY (R347): The Floder command replies OK in OFF_READY and places the device in P3. -/
  | standby (p : Packet)
  /-- SMBUS_WAKE (R347): An SMBus write-byte with code 0xB1 and data 0x01 ends P3 by a warm chip reset. -/
  | smbusWake (code data : Byte)
  /-- SMBUS_BOOT_PROGRESS_READ (R93): An SMBus block read with command code 0xB0 returns KEEP_BOOT_PROGRESS. -/
  | smbusBootProgressRead (code : Byte)
  /-- P1_ENTRY (R344): A spire idle for P1_IDLE_BELLS is clock-gated into P1. -/
  | p1Entry (s : Spire)
  /-- P1_WAKE (R344): Work for a gated block returns the spire to P0 within 4 bells. -/
  | p1Wake (s : Spire)
  /-- HOT_SWAP_SAMPLE (R367): Every 64 bells each channel records current, voltages, power and energy, and input presence, presence, breaker counts and temperatures are sampled. -/
  | hotSwapSample (m : Sample)
  /-- BAY_PRESENCE_CONFIRMED (R356): PRSNT_N has stayed low for the debounce, so presence is confirmed and the insertion delay starts. -/
  | bayPresenceConfirmed (b : Bay)
  /-- HUM_SEATED (R357): Both short pins have been low for the debounce, so a HUM's start conditions are met. -/
  | humSeated (h : Hum)
  /-- INSERT_DELAY_END (R356): VIN has stayed in window for INSERT_DELAY_PEALS, so the bay's start conditions are met. -/
  | insertDelayEnd (b : Bay)
  /-- RAMP_START (R360): A channel whose start conditions are met and with a ramp free enters RAMP under the inrush limit. -/
  | rampStart (c : Chan)
  /-- RAMP_COMPLETE (R361): The gate is fully on at two consecutive samples, so the channel is ON and PWRGD is asserted. -/
  | rampComplete (c : Chan)
  /-- RAMP_TIMEOUT (R361): A ramp not fully on by RAMP_TIMEOUT_SAMPLES is pulled down and counted as a trip. -/
  | rampTimeout (c : Chan)
  /-- PERST_RELEASE (R362): PERST_N is released at the later of PERST_DELAY_SAMPLES after PWRGD and entry to SURVEY. -/
  | perstRelease (b : Bay)
  /-- FAST_TRIP (R363): The fast comparator sees current above the fast threshold and pulls the gate down within 2 µs, counting a trip. -/
  | fastTrip (c : Chan) (current : Int)
  /-- BREAKER_TRIP (R363): A breaker point's consecutive-sample count exceeds TIME_SAMPLES, so the channel trips. -/
  | breakerTrip (c : Chan) (point : Fin 8)
  /-- RETRY_DUE (R364): RETRY_SPACING_PEALS after a trip, the tripped channel ramps again if its start conditions are met. -/
  | retryDue (c : Chan)
  /-- TRIP_COUNT_CLEAR (R364): A channel ON without a trip for TRIP_CLEAR_PEALS has its TRIP_COUNT cleared. -/
  | tripCountClear (c : Chan)
  /-- BAY_REMOVAL_CONFIRMED (R365): PRSNT_N has stayed high for the debounce, so the removal is confirmed and TRIP_COUNT cleared. -/
  | bayRemovalConfirmed (b : Bay)
  /-- HUM_SEATING_LOSS (R365): A HUM short pin is high for 1 µs, so the gate is pulled down and CHG_EN and DIS_EN drop. -/
  | humSeatingLoss (h : Hum)
  /-- PASS_TRANSISTOR_FAULT (R366): An off gate shows VOUT or current above limit at 4 consecutive samples, raising PASS_SHORT or HUM_PATH_SHORT and moving the channel to SHORTED. -/
  | passTransistorFault (c : Chan)
  /-- HUM_ID_READ (R351): The HUM identity memory is read for the serial number, and a failure raises HS_ID_FAIL and is retried every peal. -/
  | humIdRead (h : Hum) (serial : Option (BitVec 128))
  /-- CHANNEL_SET (R370): The Floder command stages ENABLE for a channel and commits its page. -/
  | channelSet (p : Packet)
  /-- CHANNEL_RELEASE (R370): The Floder command releases a LOCKED_OFF or SHORTED channel and clears its trip count. -/
  | channelRelease (p : Packet)
  /-- THERMAL_CRIT (R490): A die or stack is at its critical temperature for two samples, raising THERM_CRIT and entering FENCED with a settle. -/
  | thermalCrit (sensor : Fin 12) (t0 t1 : BitVec 32)
  /-- FAULT_EVENT (R380): An event at a fault source is recorded, counted in its window and may raise the class, whose reaction applies at the next bell. -/
  | faultEvent (f : FaultInfo)
  /-- FENCED_SETTLE_COMPLETE (R385): The FENCED settle ends and bay gates turn off. -/
  | fencedSettleComplete
  /-- FAULT_READ (R389): The Floder command returns a source's fault record. -/
  | faultRead (p : Packet)
  /-- FAULT_CLEAR (R382): The Floder command returns a record to its base class at the next bell and clears its counts. -/
  | faultClear (p : Packet)
  /-- FAULT_LIST (R389): The Floder command lists sources with CAPTURED set. -/
  | faultList (p : Packet)
  /-- FAULT_INJECT (R389): The Floder command injects an event at a source, counted as real with INJECTED set. -/
  | faultInject (p : Packet)
  /-- CLAIM_SET (R109): The Floder command writes a claim descriptor as a versioned update. -/
  | claimSet (p : Packet)
  /-- CLAIM_GET (R412): The Floder command returns a claim descriptor and its version. -/
  | claimGet (p : Packet)
  /-- CLAIM_STATUS (R412): The Floder command returns a claim's stored grains, drive-loss tolerance and extent count. -/
  | claimStatus (p : Packet)
  /-- CLAIM_REMOVE (R412): The Floder command removes an unused claim as a versioned update. -/
  | claimRemove (p : Packet)
  /-- SHELF_LAYOUT (R173): The Floder command sets ROWS, SPARE_ROWS and the journal bays before any stripe is published. -/
  | shelfLayout (p : Packet)
  /-- BAY_ADOPT (R190): The Floder command formats a FOREIGN bay and labels it with the next generation as a rebuild target. -/
  | bayAdopt (p : Packet)
  /-- BAY_SANITIZE (R412): The Floder command issues Sanitize to a FOREIGN bay. -/
  | baySanitize (p : Packet)
  /-- BAY_QUERY (R412): The Floder command returns a bay's state, port status, generation and rows. -/
  | bayQuery (p : Packet)
  /-- PORT_SET (R412): The Floder command sets a port's breakout, VLAN and addresses. -/
  | portSet (p : Packet)
  /-- PORT_QUERY (R412): The Floder command returns a port's link, breakout, PTP state and counts. -/
  | portQuery (p : Packet)
  /-- COUNTER_SELECT (R437): The Floder command selects a counter's event, taking effect at the next bell. -/
  | counterSelect (p : Packet)
  /-- PMON_SEL_WRITE (R437): A write to PMON_SELk selects an event for that counter at the next bell. -/
  | pmonSelWrite (off : Nat) (value : Word)
  /-- COUNTER_SELECTION_APPLY (R437): At stroke 0 the new selection zeroes the counter, clears OVF and starts counting. -/
  | counterSelectionApply (region block k : Nat)
  /-- COUNTER_READ (R412): The Floder command returns a counter's value and overflow. -/
  | counterRead (p : Packet)
  /-- SNAPSHOT (R439): The Floder command requests a snapshot of every counter. -/
  | snapshot (p : Packet)
  /-- SNAPSHOT_COPY (R439): At stroke 0 of the bell after a request, all counters are copied to shadow registers and a buffer write is queued or skipped. -/
  | snapshotCopy
  /-- SNAPSHOT_BUFFER_WRITTEN (R440): A snapshot record is written to the PF1 buffer and PF1 vector 0 is raised. -/
  | snapshotBufferWritten
  /-- TRACE_READ (R412): The Floder command returns trace buffer entries. -/
  | traceRead (p : Packet)
  /-- SQ_TAIL_DOORBELL (R397): A write to a ring's SQ_TAIL doorbell makes the device fetch and start commands, or puts the ring in ERROR when out of range. -/
  | sqTailDoorbell (r : Fin 256) (value : Word) (slots : List (BitVec 16 × Packet))
  /-- ST_HEAD_DOORBELL (R397): A write to a ring's ST_HEAD doorbell releases status slots, or puts the ring in ERROR when out of range. -/
  | stHeadDoorbell (r : Fin 256) (value : Word)
  /-- FLODER_REPLY_WRITE (R398): A completed command's status reply is written to the status queue or session ring. -/
  | floderReplyWrite (src : Source)
  /-- RING_INT_TIMER (R399): INT_STROKES pass after a counted reply, so the ring's MSI-X vector is raised. -/
  | ringIntTimer (r : Fin 256)
  /-- RING_DMA_FAULT (R400): A DMA fault on a ring's queues or data area puts the ring in ERROR with ERR_CODE 3. -/
  | ringDmaFault (r : Fin 256)
  /-- RING_DRAINED (R401): The last started command of a DRAINING ring completes, so the ring is DISABLED. -/
  | ringDrained (r : Fin 256)
  /-- EP_MEMORY_REQUEST (R423): A PCIe memory request to the endpoint is answered with data, UR or EP, or is executed or discarded according to mode. -/
  | epMemoryRequest (r : MemReq)
  /-- EP_LINK_UP (R415): The endpoint link finishes training to L0. -/
  | epLinkUp (speed width : Fin 16)
  /-- EP_AER_UNCORRECTABLE (R424): An uncorrectable link error or surprise link down freezes the endpoint. -/
  | epAerUncorrectable (cause : FreezeCause) (header : BitVec 32)
  /-- EP_FREEZE_RELEASE (R426): A write of 1 to RELEASE ends the freeze at the next bell, or is ignored with RELEASE_IGNORED set. -/
  | epFreezeRelease (value : Word)
  /-- EP_COMPLETION (R427): A completion for a device read arrives, and is used, or discarded when its tag is quarantined. -/
  | epCompletion (pf : Pf) (tag : BitVec 14) (st : CplStatus)
  /-- EP_COMPLETION_TIMEOUT (R427): A device read times out, faulting its ring or buffer and quarantining its tag. -/
  | epCompletionTimeout (pf : Pf) (tag : BitVec 14)
  /-- EP_TAG_QUARANTINE_END (R427): A quarantined tag leaves quarantine after four completion-timeout periods. -/
  | epTagQuarantineEnd (pf : Pf) (tag : BitVec 14)
  /-- BUS_MASTER_DISABLE (R428): Clearing Bus Master Enable, entering D3hot or clearing Memory Space Enable stops new requests and aborts commands waiting on data. -/
  | busMasterDisable (pf : Pf) (why : MasterOff)
  /-- BUS_MASTER_ENABLE (R428): Setting Bus Master Enable again writes held replies and pending vectors. -/
  | busMasterEnable (pf : Pf)
  /-- FLR (R429): A Function Level Reset stops the function's requests and disables its rings. -/
  | flr (pf : Pf)
  /-- FLR_COMPLETE (R429): All tags have retired, or 100 ms have passed, so the function is reset to its defaults. -/
  | flrComplete (pf : Pf)
  /-- EP_RESET (R95): A conventional reset, hot reset or link down resets endpoint function state and rings. -/
  | epReset (kind : EpResetKind)
  /-- EP_FAILOVER (R430): After Keep A's isolation, Keep B drives the endpoint lanes with the held configuration and reissues outstanding work. -/
  | epFailover
  /-- EP_FAILOVER_COMPLETE (R430): Keep B's link reaches L0, setting ACTIVE_KEEP and raising EP_FAILOVER and vector 258. -/
  | epFailoverComplete
  /-- PTP_MESSAGE_RECEIVE (R218): An IEEE 1588 message arrives on a network port and is time-stamped to ±4 ns, or is dropped when its domain differs from BELL_PTP_DOMAIN; accepted messages keep the reference valid and feed the servo's offset. -/
  | ptpMessageReceive (m : PtpMessage)
  /-- ARP_ND_REQUEST (R218): An ARP request or IPv6 Neighbor Discovery solicitation for a port's own address arrives, and the device answers it as responder. -/
  | arpNdRequest (port : Port) (sub : Sub) (target : ArpTarget)
deriving DecidableEq, Repr

end Sys2Proof
end

