-- ==== Sys2Proof/Decode.lean ====
section
/-! DEFINITION. The words of the opcode table. Every row of spec/opcode_table.json is given without bits, so no word
spells a command. -/

namespace Sys2Proof

/-- The command that a word spells by the table's bits: the table gives no row bits. -/
def decodeTableWord (_nbits _w : Nat) : Option Instr := none

end Sys2Proof
end

