-- ==== Sys2Proof/Config.lean ====
section
/-! DEFINITION. What a part of the shelf fixes and the manual does not: the fused identity of the part (R454) and the
free values of the model. Every one is opaque: no proof can see its value (assumption log 4, 6, 9). -/

namespace Sys2Proof.Config

/-- A free 64-bit value, drawn with the counter `freeTick` of the state: DRBG draws (R246, R340) and values that the
manual calls unpredictable or leaves open. -/
opaque free64 : Nat → BitVec 64

/-- A free 32-bit value. -/
opaque free32 : Nat → BitVec 32

/-- A free byte: a byte of raw stack or SRAM memory whose contents the manual does not give. -/
opaque freeByte : Nat → Nat → Byte

/-- A free truth value: an outcome that the manual leaves to chance or to a part outside the device. -/
opaque freeBool : Nat → Bool

/-- The fused serial number, 16 bytes (R454). -/
opaque serial : BitVec 128

/-- The JTAG IDCODE of the part (R339): its value is not given. -/
opaque idcode : BitVec 32

/-- The fused SCREEN bit of KEEP_REVISION (R454). -/
opaque screen : Bool

/-- The four fused vendor key hashes, SHA-384 (R337). -/
opaque vendorKeyHash : Fin 4 → List Byte

/-- The fused identity private key, a P-384 scalar (R334). -/
opaque identityPrivate : Nat

/-- The device identity public key, an uncompressed P-384 point of 97 B (R333). -/
opaque identityPublic : List Byte

/-- The bytes of the expansion ROM that the manual does not give, part of the active image (R419), by image version and
offset. -/
opaque romByte : Nat → Nat → Byte

/-- The shelf identity written into bay labels (R172). -/
opaque shelfIdentity : BitVec 128

/-- Whether a map slice that holds a number of extent records has no free one at any position of a hash (R114): the size
of the table is not given. -/
opaque mapSliceFull : Nat → Nat → Bool

/-- Where a bay keeps its copy of a map page, counted from LBA 393,216: the manual does not say (R172, R182). The flag says
that it is a run page. -/
opaque pageLba : Bool → Nat → Nat

/-- A byte of the 64 B header of a run page, by page number and place: the manual does not give it (R181). -/
opaque pageHeader : Nat → Nat → Byte

/-- The cells the memory of one Headframe intermediate holds (R272): the size is not given. -/
opaque interCells : Nat

/-- A byte that a spire's mask generator gives after a reseed, by the seed drawn from the root and the place in its output (R311,
R312): the CTR_DRBG's instantiation is not given. -/
opaque maskByte : BitVec 64 → Nat → Byte

end Sys2Proof.Config
end

