-- ==== Sys2Proof/Machine/State.lean ====
section
/-! DEFINITION. The state of the VN3280 as plain data, its reset value, and the reasons a step can stop. INVENTORY.md,
'State', lists every piece with the rule that names it. Tables are sparse: an unlisted key stands for the value its
docstring names. -/

namespace Sys2Proof.Machine

/-- Reasons a step stops with a fault. The manual gives every command an effect, so there is none: no meaning raises a
fault. -/
inductive Fault : Type where
deriving DecidableEq, Repr

/-- Reasons a step is refused. -/
inductive Refusal where
  /-- Raised by an arm of `exec` whose command has no meaning yet; safe: the model stops where the hardware goes on. -/
  | notModelled (mnemonic : String)
deriving DecidableEq, Repr

/-! ### Time -/

/-- The chip time base: bell number of the stamp, point in the bell, bells since HELD, the peal in progress, and the
clock that ages records and path holds, which runs while `ages` is set (R61, R63, R71, R73, R101). -/
structure Clock where
  bell       : Nat
  ns         : Nat
  elapsed    : Nat
  bellInPeal : Nat
  pealLen    : Nat
  peals      : Nat
  aging      : Nat
  ages       : Bool
deriving DecidableEq, Repr

inductive ServoState where
  | free
  | acquire
  | locked
  | holdover
deriving DecidableEq, Repr

/-- A step that is due: the bell of the step boundary, none while it waits for the end of VAULT, the bells added to the
peal that ends there, and the reference time of that boundary when the source is PTP (R68, R70). -/
structure StepDue where
  atBell  : Option Nat
  bells   : Int
  refTime : Option Nat
deriving DecidableEq, Repr

/-- The time-base servo (R62, R66 to R70, R457): `lostSince` since when the reference is lost, `holdSince` since when the
servo is in HOLDOVER, `measured` the bell of the last measurement, `lastSync` the time of the last accepted edge, `fed` the
reference time and the device time of the last accepted PTP message, in ns. -/
structure Servo where
  state     : ServoState
  refValid  : Bool
  offsetNs  : Int
  freqPpb   : Int
  okRun     : Nat
  badRun    : Nat
  lostSince : Option Nat
  holdSince : Nat
  stepDue   : Option StepDue
  epochPtp  : Bool
  stepCount : BitVec 32
  measured  : Option Nat
  lastSync  : Option Nat
  fed       : Option (Nat × Nat)
deriving DecidableEq, Repr

/-! ### Modes -/

/-- The eight operating modes (R84). -/
inductive Mode where
  | held
  | boot
  | survey
  | service
  | degraded
  | drain
  | vault
  | fenced
deriving DecidableEq, Repr

/-- Events that move the mode, gathered within a bell and taken in the order of R87. -/
inductive ModeEvent where
  | supplyBelow
  | fatal
  | powerLoss
  | resetLong
  | warmReset
  | partFault
  | repaired
  | bootDone
  | surveyDone
  | toService
  | resume
  | shutdown
  | activate
  | debugOpen
  | vaultDone
  | endDrain
deriving DecidableEq, Repr

structure ModeState where
  mode      : Mode
  events    : List ModeEvent
  stamp     : Nat
  stampStep : BitVec 16
deriving DecidableEq, Repr

/-- BOOT: the fields of KEEP_BOOT_PROGRESS (R93) and what the retries need (R85, R89 to R91): `partRuns` gives,
for a stage, the part that failed its last attempt and how many in a row it failed; `image` is the image in use, `since` the
bell at which the stage's attempt began, `cold` until SURVEY has replayed the stores after a cold start (R94, R166). -/
structure Boot where
  stage        : Nat
  failStage    : Nat
  image        : Bool
  warm         : Bool
  imageFails   : Nat
  backoffExp   : Nat
  spireMissing : BitVec 4
  keepMissing  : BitVec 2
  failCode     : Byte
  failures     : Nat
  partRuns     : Tab (Nat × Nat)
  backoffDue   : Option Nat
  wantVault    : Bool
  wantFenced   : Bool
  dirtyAtStart : Bool
  cold         : Bool
  since        : Nat
deriving DecidableEq, Repr

/-- SURVEY: which of its steps are done (R94) and since when it waits for bays. -/
structure Survey where
  waitedOut : Bool
  complete  : Bool
  since     : Nat
deriving DecidableEq, Repr

inductive DrainPurpose where
  | none
  | shutdown
  | activation
  | debug
deriving DecidableEq, Repr

/-- A capsule waiting at ingress, with the bell from which it waits and its arrival stamp (R103, R105). -/
structure Waiting where
  msg   : Delivered
  since : Nat
  stamp : Nat
deriving DecidableEq, Repr

structure Drain where
  purpose    : DrainPurpose
  returnMode : Mode
  offReady   : Bool
  startStamp : Nat
  startStep  : BitVec 16
  settled    : Nat
  retire     : Bool
  waiting    : List Waiting
  cmd        : Option Nat
deriving DecidableEq, Repr

inductive VaultPhase where
  | none
  | v0
  | v1
  | v2
  | v3
  | v4
  | v5
  | v6
  | waiting
  | gating
  | done
deriving DecidableEq, Repr

/-- VAULT and the settle of FENCED (R160 to R165, R385, R386): `outAt0` and `outAt2` are the energies that both HUM channels
had integrated at the detection and at the start of V2, in uJ (R152, R163). In phase `gating` the gates go off at the next
bell (R164). -/
structure Vault where
  phase        : VaultPhase
  detectBell   : Nat
  detectStamp  : Nat
  detectStep   : BitVec 16
  dirtyAtV0    : Nat
  settled      : Nat
  energyMj     : Nat
  fencedSettle : Bool
  grainsLeft   : Nat
  outAt0       : Nat
  outAt2       : Nat
deriving DecidableEq, Repr

/-- The vault marker or clean-shutdown marker header (R163, R104). -/
structure Marker where
  flags         : BitVec 16
  seq           : Nat
  stamp         : Nat
  step          : BitVec 16
  grainsSettled : Nat
  journalTail   : Nat
  imageLba      : Nat
  imageBlocks   : Nat
  energyMj      : Nat
deriving DecidableEq, Repr

/-- The board input as last sampled, and the bell of that sample (R72, R140, R141). -/
structure InputPower where
  pwrgood : Bool
  vsnsMv  : Nat
  run     : Nat
  seen    : Bool
  samples : Nat
  sampledAt : Option Nat
deriving DecidableEq, Repr

/-! ### Registers -/

/-- A page commit register (R75) with the bell at which the pending commit takes effect (R76), and the CHANNEL_SET whose
commit it is (R458). -/
structure PageState where
  due     : Option Nat
  blocked : Bool
  count   : BitVec 8
  owner   : Option Nat
deriving DecidableEq, Repr

/-- Register contents by offset, listed where they differ from the reset values of the register tables; offsets of PF1
are raised by 0x400_0000. Latches are keyed by requester and offset (R447); `shown` is what the status registers that are
updated at stroke 0 of every bell show. -/
structure RegFile where
  active  : Tab Word
  staged  : Tab Word
  pages   : Tab PageState
  latches : Tab Word
  shown   : Tab Word
  scratch : Word
deriving DecidableEq, Repr

/-! ### Claims, extents, commands in flight -/

/-- A claim descriptor without its number (R109). -/
structure ClaimDesc where
  payloadProtect : Bool
  mgmt           : Bool
  strict         : Bool
  enable         : Bool
  classMask      : BitVec 5
  k              : Nat
  m              : Nat
  keySlot        : Nat
  quotaBytes     : Nat
  quotaExtents   : Nat
  weight0        : Nat
  weight1        : Nat
  weight2        : Nat
  weight3        : Nat
  meterId        : Nat
  admitBound     : Nat
  xferLife       : Nat
deriving DecidableEq, Repr

/-- A claim table entry: the descriptor in force, none when removed or never set, its version, and the grains its
appends are charged (R79, R113). -/
structure ClaimEntry where
  desc    : Option ClaimDesc
  version : BitVec 8
  charged : Nat
deriving DecidableEq, Repr

/-- A meter profile (R291). -/
structure MeterProfile where
  eshapeEn : Bool
  cir  : Nat
  pir  : Nat
  cbs  : Nat
  pbs  : Nat
  ecir : Nat
  epir : Nat
  ecbs : Nat
  epbs : Nat
deriving DecidableEq, Repr

/-- What a versioned update does to its entry when it takes effect (R79). -/
inductive UpdAction where
  | claimSet (d : ClaimDesc)
  | claimRemove
  | keyUsable
  | keyRevoke
  | windowLive
  | windowRevoke
  | meterSet (p : MeterProfile)
  | fwdMode (cut : Bool)
  | none
deriving DecidableEq, Repr

/-- A versioned update that waits for its bell or for the oldest version to be let go (R79, R80). -/
structure Update where
  table   : TableId
  key     : Nat
  act     : UpdAction
  arrived : Nat
  cmd     : Option Nat
deriving DecidableEq, Repr

inductive ExtState where
  | open_
  | sealed_
  | deleted
deriving DecidableEq, Repr

/-- An extent: `assigned` is the end of the appends assigned an offset, `len` the end of the held prefix (R24, R46);
`st` follows acceptance order, `heldSt` what is held (R115, R116); `grains` counts its stored grains (R113, R121), and
`lastHeld` is the moment its latest append was marked held, in ns since HELD (R44); `root` is RUN_ROOT as the last checkpoint
left it (R180). -/
structure Extent where
  claim     : Nat
  key       : BitVec 128
  st        : ExtState
  heldSt    : Option ExtState
  assigned  : Nat
  len       : Nat
  version   : BitVec 8
  deletedAt : Option Nat
  journaled : Bool
  grains    : Nat
  lastHeld  : Nat
  root      : Nat
deriving DecidableEq, Repr

/-- A COMPLETION entry without its ring control word (R121). `reply` carries the 32 B status reply of a Floder command
on a management queue pair (R404), `grantless` fields are 0 where R121 says so. -/
structure Completion where
  status      : Byte
  extState    : BitVec 2
  settled     : Bool
  anchor      : Nat
  owner       : Nat
  tally       : BitVec 32
  cmdTag      : BitVec 32
  latencyNs   : Nat
  resOffset   : Nat
  resLength   : Nat
  nonceFixed  : BitVec 32
  nonceFirst  : BitVec 64
  grainCount  : Nat
  stamp       : Nat
  step        : BitVec 16
  reply       : List Byte
deriving DecidableEq, Repr

/-- What a capsule asks for (R118). -/
inductive CmdKind where
  | create
  | append
  | sealOp
  | delete
  | read
  | stat
  | flush
  | cack
  | ping
deriving DecidableEq, Repr

/-- Where a tallied command stands (R119, R126, R134, R28, R44). -/
inductive Phase where
  /-- waits at the command scheduler for an admission grant (R133) -/
  | queued
  /-- waits for credit or staging space (R134) -/
  | waitRoom
  /-- holds a grant and waits for its signal (R126) -/
  | granted
  /-- offset assigned, commit path running (R27) -/
  | committing
  /-- grains stored, not yet held (R28) -/
  | stored
  /-- held; completion withheld until settled for a strict claim (R56) -/
  | heldWaitSettle
deriving DecidableEq, Repr

/-- A command in progress: every capsule while it waits at the scheduler, a tallied one until it completes. `cls` is the
class it queues in (4: U), `order` its place in its extent's acceptance order, `waited` whether its grains were stored
while an earlier command of the extent was not yet held (R44), `heldAt` the moment it was held, `stamp` its arrival stamp.
`desc` is the claim descriptor it matched (R74), `staged` the bytes of a staged append once it is signalled (R126), `oneCopy`
that the other copy of its grains was lost in the multicast, and `noPrimary` that it was the primary one (R139). -/
structure Ctx where
  id         : Nat
  kind       : CmdKind
  msg        : Delivered
  qp         : Nat
  session    : Nat
  claim      : Nat
  claimVer   : BitVec 8
  desc       : ClaimDesc
  keySlot    : Nat
  keyVer     : BitVec 8
  arrival    : Spire
  phase      : Phase
  cls        : Nat
  arrived    : Nat
  waitFrom   : Nat
  grains     : Nat
  credit     : Nat
  charged    : Nat
  grantTag   : Option Nat
  offset     : Nat
  nonceFixed : BitVec 32
  nonceFirst : BitVec 64
  order      : Option Nat
  waited     : Bool
  heldAt     : Option Nat
  oneCopy    : Bool
  noPrimary  : Bool
  staged     : Option (List Byte)
  stamp      : Nat
deriving DecidableEq, Repr

/-- One grain of a READ's range (R131): its extent offset and valid bytes, its place on the drives if it is read from
there (stripe, position, grain index), and its plaintext once it has been judged sound. -/
structure ReadPart where
  offset : Nat
  valid  : Nat
  place  : Option (Nat × Nat × Nat)
  plain  : Option (List Byte)
deriving DecidableEq, Repr

/-- A relocation entry (R178, R179). -/
structure Reloc where
  bay      : Nat
  position : Nat
  row      : Nat
deriving DecidableEq, Repr

/-- A stripe record (R178). -/
structure StripeRec where
  id         : Nat
  k          : Nat
  m          : Nat
  lastGrains : Nat
  bayMask    : BitVec 32
  row        : Nat
  rotation   : Nat
  unplaced   : Nat
  claim      : Nat
  live       : Nat
  relocs     : List Reloc
  version    : BitVec 8
deriving DecidableEq, Repr

/-- A READ in flight (R130, R131, R198): the grains of its range, the stripe records it holds (R189), its outstanding bay
operations, the grain images brought back so far by stripe, position and grain index, and its timer: bells run, and since
when it runs (none while a lease pauses it). -/
structure ReadCtx where
  id        : Nat
  msg       : Delivered
  qp        : Nat
  session   : Nat
  claim     : Nat
  claimVer  : BitVec 8
  keySlot   : Nat
  keyVer    : BitVec 8
  extOffset : Nat
  length    : Nat
  arrived   : Nat
  parts     : List ReadPart
  recs      : List StripeRec
  ops       : List Nat
  got       : Tab (List Byte)
  running   : Nat
  runFrom   : Option Nat
deriving DecidableEq, Repr

/-- What the grant's end of a staged append leaves to be returned at the next bell: quota charge and credit (R128). -/
structure Return where
  claim   : Nat
  arrival : Spire
  charge  : Nat
  credit  : Nat
deriving DecidableEq, Repr

/-- A FLUSH waiting (R102): the claim version it matched, the appends' grains it covers with the ranges they lie in (claim,
extent key, offset), the bytes not yet settled at its admission, and whether one of the ranges has been lost. -/
structure FlushCtx where
  id       : Nat
  msg      : Delivered
  qp       : Nat
  session  : Nat
  claim    : Nat
  claimVer : BitVec 8
  ranges   : List (Nat × BitVec 128 × Nat)
  grains   : List Nat
  bytes    : Nat
  arrived  : Nat
  lost     : Bool
deriving DecidableEq, Repr

/-- The command scheduler of one spire: class U tokens in 1/64, admission grants left in the bell, and the round-robin
places and deficits of classes and claims (R133). -/
structure Sched where
  uTokens  : Nat
  grants   : Nat
  clsNext  : Nat
  clsDef   : Tab Nat
  claimNext : Tab Nat
  claimDef : Tab Nat
deriving DecidableEq, Repr

/-! ### Sessions and queue pairs -/

/-- A completion record (R227, R41): the completion, whether it has left, the aging clock at which its life ends. -/
structure Record where
  comp : Completion
  op   : Byte
  ends : Nat
  leftDevice : Bool
deriving DecidableEq, Repr

/-- States of a tally in the window; FREE is not listed (R227). -/
inductive TallyState where
  | inFlight
  | recorded (r : Record)
  | released
deriving DecidableEq, Repr

inductive PathState where
  | pending
  | live
  | held
deriving DecidableEq, Repr

/-- A path of a session (R225, R229, R232, R233, R237). -/
structure Path where
  idx           : Nat
  qp            : Nat
  state         : PathState
  heldAt        : Nat
  rkey          : BitVec 32
  notifyCount   : Nat
  notifyStrokes : Nat
  written       : Nat
  firstWritten  : Option Nat
  noticeWritten : Bool
  lastSeq       : Nat
  notifyUnacked : Bool
deriving DecidableEq, Repr

/-- A NOTICE (R124). -/
structure Notice where
  code  : Byte
  num   : Nat
  arg   : BitVec 64
  stamp : Nat
  step  : BitVec 16
deriving DecidableEq, Repr

/-- An XFER_READY (R123). -/
structure XferReady where
  tally   : BitVec 32
  cmdTag  : BitVec 32
  imm     : BitVec 32
  key     : BitVec 32
  va      : BitVec 64
  length  : Nat
  life    : Nat
  stamp   : Nat
deriving DecidableEq, Repr

inductive Entry where
  | completion (c : Completion)
  | xferReady (x : XferReady)
  | notice (n : Notice)
deriving DecidableEq, Repr

/-- An entry built and not yet issued, with the queue pair that carried its capsule (R231), the tally whose record it
first reports, and whether its capsule came after SESSION_CLOSE had started (R224). LATENCY_NS runs from `from_` until the
entry leaves (R122); `own` marks the completion of a READ that wrote data: it travels on that queue pair only (R30). -/
structure Built where
  entry    : Entry
  qp       : Option Nat
  tally    : Option Nat
  late     : Bool
  from_    : Option Nat
  own      : Bool
deriving DecidableEq, Repr

/-- An entry issued and not yet acknowledged (R230, R237). -/
structure Issued where
  seq   : Nat
  /-- index of the path on which it was first written: PATH of the ring control word (R230) -/
  path  : Nat
  /-- index of the path on which its write is outstanding (R237) -/
  via   : Nat
  entry : Entry
deriving DecidableEq, Repr

/-- A posted receive context: of a grant, or of a TAG_WAIT (R254). -/
inductive CtxKind where
  | grant (tag : Nat)
  | tagWait (cmd : Nat) (deadline : Nat)
deriving DecidableEq, Repr

structure RecvCtx where
  tag  : BitVec 32
  mask : BitVec 32
  kind : CtxKind
deriving DecidableEq, Repr

/-- An entry of the unexpected list (R256). -/
structure Unexp where
  imm     : BitVec 32
  qp      : Nat
  stamp   : Nat
  arrived : Nat
deriving DecidableEq, Repr

/-- A VXP session (R224). -/
structure Session where
  claim        : Nat
  initialFloor : BitVec 32
  cookie       : BitVec 64
  pathHold     : Nat
  maxPaths     : Nat
  floor        : BitVec 32
  tallies      : Tab TallyState
  anchor       : Option Spire
  ringVa       : BitVec 64
  ringEntries  : Nat
  nextSeq      : Nat
  consumed     : Nat
  consumerBusy : Bool
  polledAt     : Option Nat
  built        : List Built
  issued       : List Issued
  noticeNum    : Nat
  noticeLost   : Nat
  grantCounter : Nat
  contexts     : List RecvCtx
  unexpected   : List Unexp
  spent        : List (Nat × Nat)
  paths        : List Path
  connKey      : Option Nat
  closing      : Option Nat
deriving DecidableEq, Repr

/-- What a frame that the device sends holds: for a request packet its operation with its content, for another frame what it
says (R218, R219, R221 to R223, R230, R232, R235, R237, R297). -/
inductive Wire where
  /-- a packet of an RDMA WRITE to host memory, the first of its message with the RETH (R130, R404) -/
  | data (first : Bool) (rkey : BitVec 32) (va : BitVec 64) (bytes : List Byte)
  /-- the 64 B of the ring entry of a sequence number (R230) -/
  | entry (seq : Nat) (rkey : BitVec 32) (va : BitVec 64) (bytes : List Byte)
  /-- a notification (R232) -/
  | notify (imm : BitVec 32)
  /-- an RDMA WRITE of length 0 that takes the place of another under its PSN (R237) -/
  | empty
  /-- the RDMA READ of a ring's consumer word (R230) -/
  | consumerRead (rkey : BitVec 32) (va : BitVec 64)
  | ack (psn : BitVec 24)
  | nakSequence (psn : BitVec 24)
  | nakInvalid (psn : BitVec 24)
  | nakAccess (psn : BitVec 24)
  | nakOperational (psn : BitVec 24)
  | rnrNak (psn : BitVec 24) (timer : Nat)
  | cnp
  /-- a REP or a REJ with its private data (R221) -/
  | rep (qp : Nat) (priv : List Byte)
  | rej (priv : List Byte)
  | dreq (qp : Nat)
  | drep (qp : Nat)
  | arpReply (target : ArpTarget)
  | pfc (prio : BitVec 8) (quanta : Nat)
deriving DecidableEq, Repr

/-- A frame of the device (R290, R298): its queue pair, class, length from DA through FCS, for a request packet its PSN, and what it
holds. -/
structure Frame where
  qp      : Option Nat
  cls     : Nat
  len     : Nat
  psn     : Option (BitVec 24)
  what    : Wire
deriving DecidableEq, Repr

/-- A request packet not yet acknowledged, with its content (R222, R234, R237). -/
structure Unacked where
  psn    : BitVec 24
  bytes  : Nat
  sentAt : Nat
  frame  : Frame
deriving DecidableEq, Repr

/-- What the record image holds of a session (R162): its claim, its anchor, its ring and the sequence number of the next
entry, and its tally window, with the remaining life of each record in bells. -/
structure SessionImage where
  claim       : Nat
  anchor      : Option Spire
  ringVa      : BitVec 64
  ringEntries : Nat
  nextSeq     : Nat
  floor       : BitVec 32
  tallies     : Tab TallyState
deriving DecidableEq, Repr

/-- An RDMA WRITE message into a staging window: its RETH, the payload bytes that have come, and on a session with connection
protection those bytes (R250, R325). -/
structure WriteMsg where
  rkey   : BitVec 32
  va     : BitVec 64
  length : Nat
  seen   : Nat
  got    : List Byte
deriving DecidableEq, Repr

/-- A queue pair (R219 to R223, R234, R235, R293, R325): `rxPsn` the PSN expected next, `mirrorPsn` the one the partner
holds, `ackedPsn` the one acknowledged (R222, R493); tokens in 1/65,536 B; pacing in 1/65,536 B per bell. -/
structure Qp where
  session     : Nat
  port        : Port
  sub         : Sub
  ipv6        : Bool
  home        : Spire
  mtu         : Nat
  prio        : Nat
  rxPsn       : BitVec 24
  mirrorPsn   : BitVec 24
  ackedPsn    : BitVec 24
  nakSent     : Bool
  /-- the RDMA WRITE message of which packets are still to come (R250) -/
  write       : Option WriteMsg
  txPsn       : BitVec 24
  unacked     : List Unacked
  /-- request packets that wait for the window (R234) -/
  waiting     : List Frame
  wnd         : Nat
  srtt        : Option Nat
  lastDecrease : Nat
  pacing      : Option Nat
  retries     : Nat
  rnrRetries  : Nat
  lastCnp     : Option Nat
  cnpCount    : Nat
  meterVer    : BitVec 8
  profile     : MeterProfile
  tcIn        : Int
  tpIn        : Int
  tcOut       : Int
  tpOut       : Int
  protLease   : Option Nat
  protCount   : Nat
deriving DecidableEq, Repr

/-! ### Staging windows and chains -/

inductive WinState where
  | live
  | revoking
deriving DecidableEq, Repr

/-- A staging window that is LIVE or REVOKING, or not yet live (R243 to R246, R252). -/
structure Window where
  session  : Nat
  qp       : Option Nat
  home     : Spire
  sizeMib  : Nat
  gen      : BitVec 18
  state    : WinState
  usable   : Bool
  revokeCmds : List Nat
  ended    : Nat
  endBell  : Nat
  /-- runs freed by ended grants, with the bell: lendable from the next bell (R248) -/
  freed    : List (Nat × Nat × Nat)
deriving DecidableEq, Repr

inductive GrantState where
  | granted
  | signalled
deriving DecidableEq, Repr

/-- A grant (R247, R248). ENDED grants are not listed. -/
structure Grant where
  session : Nat
  tag     : Nat
  window  : Nat
  offset  : Nat
  length  : Nat
  state   : GrantState
  bell    : Nat
  life    : Nat
  ctx     : Nat
  /-- length of the message that signalled it (R255), and the moment it arrived (R122) -/
  sigLen  : Nat
  sigAt   : Nat
  /-- the window version it matched (R79) -/
  winVer  : BitVec 8
deriving DecidableEq, Repr

inductive ChainState where
  | running
  | waiting
  | error
deriving DecidableEq, Repr

/-- A maintenance queue (R259 to R263). `owner` is the claim of the session that made it, none for an endpoint ring (R261);
`waitOn` is the WAIT-ON-COUNT at its head: target, count, deadline. -/
structure ChainQ where
  owner    : Option Nat
  depth    : Nat
  counter  : BitVec 32
  state    : ChainState
  elements : List (BitVec 16 × Packet)
  running  : Option (BitVec 16 × Packet)
  waitOn   : Option (Nat × BitVec 32 × Option Nat)
  finished : Option Byte
deriving DecidableEq, Repr

/-! ### Write buffer, credit -/

/-- A grain of an append from the moment it is stored until its buffer copies are freed (R137, R138, R158, R169):
images of 4,160 B, none for a copy that does not exist. `profVer` is the claim version whose profile it has (R111), `seq` its
place in the order of acceptance, `exposed` that an exposing fault took its other copy, or its second module (R55). -/
structure Grain where
  id       : Nat
  ctx      : Nat
  session  : Nat
  claim    : Nat
  profK    : Nat
  profM    : Nat
  profVer  : BitVec 8
  key      : BitVec 128
  offset   : Nat
  valid    : Nat
  spire    : Spire
  primary  : Option (List Byte)
  mirror   : Option (List Byte)
  held     : Bool
  dirtyAt  : Nat
  seq      : Nat
  exposed  : Bool
  stripe   : Option Nat
deriving DecidableEq, Repr

inductive AssayPhase where
  | idle
  | due
  | discharging (startMv : Nat) (energyUj : Nat)
deriving DecidableEq, Repr

/-- A hold-up module as its Keep sees it (R142 to R145, R368): its serial number once read, its assay, whether integrated
energy and level agree, what they were at the last peal boundary, and whether charging stopped at V_FULL. Seating and
voltage are those of its channel. -/
structure HumState where
  serial    : Option (BitVec 128)
  assay     : AssayPhase
  agrees    : Bool
  pealLevel : Nat
  pealOut   : Nat
  pealIn    : Nat
  full      : Bool
deriving DecidableEq, Repr

/-- The energy assay record of a module, by serial number, in Keep non-volatile storage (R142): the capacity its last passed
assay found, the bells counted toward its overdue limit (R71, R143), and for the case that its last assay failed the bells
since then (R145). -/
structure ECap where
  serial   : BitVec 128
  cap      : Option Nat
  age      : Nat
  failedFor : Option Nat
deriving DecidableEq, Repr

/-- Energy credit (R146 to R152). Per-spire tables default to 0. -/
structure Credit where
  limit    : Nat
  out      : Nat
  deficit  : Bool
  allot    : Tab Nat
  taken    : Tab Nat
  next     : Tab Nat
  eSettleMeas : Nat
  adopt    : Option Nat
deriving DecidableEq, Repr

/-- Exposure (R55 to R57). -/
structure Exposure where
  active        : Bool
  cause         : Nat
  settledOnce   : Bool
deriving DecidableEq, Repr

/-! ### Stripes, bays, journal -/

/-- The data grains of a published stripe in fill order: extent and offset of each (the runs of R181). -/
structure RunGrain where
  claim  : Nat
  key    : BitVec 128
  offset : Nat
  valid  : Nat
  live   : Bool
deriving DecidableEq, Repr

/-- A published stripe with the claim version whose profile it has and the k of that profile (R195); `dead` once it is freed
and only earlier readers still hold its slots (R189). -/
structure Stripe where
  rec_    : StripeRec
  runs    : List RunGrain
  profK   : Nat
  profVer : BitVec 8
  dead    : Bool
deriving DecidableEq, Repr

/-- A stripe being filled or written (R156, R158, R159): `profVer` is the claim version whose profile it has, `oldest` the
bell at which the oldest of its grains became dirty, `writes` the bay operations not yet complete. -/
structure Pending where
  id       : Nat
  spire    : Spire
  claim    : Nat
  k        : Nat
  m        : Nat
  profVer  : BitVec 8
  grains   : List Nat
  oldest   : Nat
  closed   : Option CloseCause
  rec_     : Option StripeRec
  writes   : List Nat
  journal  : Option Nat
  runs     : List RunGrain
deriving DecidableEq, Repr

/-- What a rebuild or a re-lay is for: a position of a stripe, its live grains into new stripes, or the same with its grains of
the repair list corrected (R193, R195, R215). -/
inductive JobKind where
  | rebuild (position : Nat)
  | compact
  | repair
deriving DecidableEq, Repr

/-- A stripe that a re-lay forms: its record, its runs, and its data grain images in fill order. -/
structure NewStripe where
  rec_   : StripeRec
  runs   : List RunGrain
  images : List (List Byte)
deriving DecidableEq, Repr

/-- A rebuild or re-lay in progress on a spire (R193 to R195, R215): the grain images read so far by position and grain index
(empty ones are unreadable), the target of a rebuilt position with whether a relocation entry records it, the stripes formed,
and the journal records it waits for. -/
structure Job where
  id      : Nat
  spire   : Spire
  stripe  : Nat
  kind    : JobKind
  got     : Tab (List Byte)
  target  : Option (Nat × Nat × Bool)
  news    : List NewStripe
  writing : Bool
  journal : List Nat
deriving DecidableEq, Repr

inductive BayState where
  | absent
  | enumerating
  | serving
  | failed
  | foreign
deriving DecidableEq, Repr

/-- A drive bay (R184 to R191): `single` for a single-ported drive, `fit` where its drive meets the controller rules of R185 and
R186, the queue pairs and depth its controllers support, and the I/O queue entries created on each port (R188, R200). -/
structure BayRec where
  state      : BayState
  upA        : Bool
  upB        : Bool
  activeB    : Bool
  powerGood  : Bool
  label      : Option Label
  generation : Nat
  lbas       : Nat
  stale      : Bool
  sanitize   : Option (BitVec 32)
  sanitizing : Option Nat
  single     : Bool
  fit        : Bool
  queues     : Nat
  depth      : Nat
  ioA        : Nat
  ioB        : Nat
deriving DecidableEq, Repr

/-- What a bay operation is for. -/
inductive OpUse where
  /-- grains of a position, for a READ -/
  | read (ctx : Nat) (stripe position first count : Nat)
  /-- a map page, for a READ (R182): the page and the copy -/
  | page (ctx page copy : Nat)
  /-- a seam of a stripe being settled, or its filler -/
  | settle (pend : Nat) (position : Nat)
  /-- the range of a scan -/
  | scan (s : Spire) (tag : BitVec 16)
  /-- a copy of a journal block -/
  | journal (seq : Nat)
  | label (l : Label)
  | marker
  /-- a copy of the record image -/
  | image
  /-- a copy of a map page that a checkpoint rewrites -/
  | mapPage (page : Nat)
  /-- a read of a rebuild or re-lay: position and first grain -/
  | jobRead (job position first : Nat)
  | jobWrite (job : Nat)
  /-- a position of a stripe that scrub reads -/
  | scrubRead (s : Spire) (stripe position : Nat)
  | dealloc
deriving DecidableEq, Repr

/-- The NVMe I/O commands that move or discard blocks (R186). -/
inductive BayCmd where
  | read
  | write
  | zeroes
  | dealloc
deriving DecidableEq, Repr

/-- A bay operation that waits at its bay-port cell or is outstanding (R187, R188, R197, R383): the blocks a write carries,
whether it has been submitted, its command identifier, its timer, and its lease. -/
structure BayOp where
  id       : Nat
  bay      : Nat
  port     : BayPort
  cid      : Nat
  lba      : Nat
  count    : Nat
  cmd      : BayCmd
  use      : OpUse
  blocks   : List (List Byte)
  sent     : Bool
  issued   : Nat
  lease    : Option (BayPort × Nat)
  retries  : Nat
  switched : Bool
deriving DecidableEq, Repr

/-- A quarantined command identifier (R199). -/
structure Quarantine where
  bay   : Nat
  port  : BayPort
  cid   : Nat
  since : Nat
deriving DecidableEq, Repr

/-- A leaf run of a run page (R181). -/
structure LeafRun where
  first  : Nat
  count  : Nat
  seam   : Nat
  grain  : Nat
  stripe : Nat
deriving DecidableEq, Repr

/-- A descriptor of a run page (R181). -/
inductive RunDesc where
  | leaf (r : LeafRun)
  | index (first child : Nat)
deriving DecidableEq, Repr

/-- What a map page holds: descriptors, or 64 stripe records, none where no published stripe has the number (R181). -/
inductive PageBody where
  | run (ds : List RunDesc)
  | stripes (rs : List (Option StripeRec))
deriving DecidableEq, Repr

/-- A map page as its copies on the bays have it, the bays of the copies, and those whose copy a scrub has found wrong (R182,
R213). -/
structure MapPage where
  body : PageBody
  at_  : List Nat
  bad  : List Nat
deriving DecidableEq, Repr

/-- Journal records (R183). -/
inductive JournalRec where
  | open_
  | stripe (r : StripeRec) (runs : List (Nat × BitVec 128 × LeafRun))
  | relocate (stripe : Nat) (r : Reloc)
  | extent (claim : Nat) (key : BitVec 128) (st : Option ExtState) (len : Nat)
  | free (stripe : Nat) (bayMask : BitVec 32) (row : Nat) (relocs : List Reloc)
  | checkpoint (seq : Nat)
  | vault
  | close
deriving DecidableEq, Repr

/-- A journal block: `left` are the bays whose copy has not completed (R183). -/
structure JournalBlock where
  seq      : Nat
  rec_     : JournalRec
  left     : List Nat
  complete : Bool
deriving DecidableEq, Repr

/-- The map journal (R183, R184): `checking` is the sequence number up to which a checkpoint is writing map pages. -/
structure Journal where
  blocks    : List JournalBlock
  nextSeq   : Nat
  checkSeq  : Nat
  isOpen    : Bool
  bays      : List Nat
  ringBlocks : Nat
  checking  : Option Nat
deriving DecidableEq, Repr

structure Layout where
  rows      : Nat
  spareRows : Nat
  set       : Bool
  used      : Bool
deriving DecidableEq, Repr

/-! ### Checks -/

/-- A scan in progress (R209, R210): its Floder tag and command, the CRC parameters and DATA_UNITS it started with (R206), and for
a bay range the grain images its reads have brought. -/
structure Scan where
  spire    : Spire
  tag      : BitVec 16
  cmd      : Nat
  grain    : Bool
  compare  : Bool
  width    : Nat
  poly     : Nat
  init     : Nat
  refin    : Bool
  refout   : Bool
  xorout   : Nat
  inclMeta : Bool
  fromBay  : Bool
  port     : Nat
  bay      : Nat
  start    : Nat
  length   : Nat
  expect   : BitVec 64
  dataUnits : Nat
  got      : List (List Byte)
deriving DecidableEq, Repr

/-- Scrub of one spire (R212, R213): whether a pass runs, the stripes of the pass not yet scrubbed and the map pages left, the
number of items listed, the peal of the pass, the items its quotas still allow, the passes completed, LATE, the stripes that
wait for a key, the repair list (R215), and the stripe being read with what its reads have brought. -/
structure Scrub where
  running   : Bool
  items     : List Nat
  pages     : List Nat
  total     : Nat
  pealNo    : Nat
  quota     : Nat
  passCount : BitVec 16
  late      : Bool
  deferred  : List Nat
  repair    : List Nat
  reading   : Option Nat
  got       : Tab (List Byte)
deriving DecidableEq, Repr

/-! ### Headframe -/

/-- A cell waiting at an intermediate with the outputs it is still owed to and those whose match it has missed (R280,
R281). -/
structure HeldCell where
  plane  : Nat
  inter  : Nat
  cell   : Cell
  outs   : List Nat
  missed : List Nat
deriving DecidableEq, Repr

/-- A cell in an output's reorder buffer (R275): its place in its sequence there, the slot of its arrival, and whether the
output was in cut-through mode for its class then (R277); with the plane it crossed. -/
structure OutCell where
  output : Nat
  plane  : Nat
  cell   : Cell
  pos    : BitVec 16
  at_    : Nat
  cut    : Bool
deriving DecidableEq, Repr

/-- A message its sender still holds: the sequence, its cells, the outputs that have not released it, and whether it is
being sent again under a recovery lease (R283). -/
structure SentMsg where
  key   : Nat
  src   : Nat
  tag   : BitVec 16
  cells : List Cell
  owed  : List Nat
  again : Bool
deriving DecidableEq, Repr

/-- The Headframe (R267 to R288). Sequence keys: see `Machine/Headframe.lean`. `mid` is the sequence whose message an
output is in the middle of, `skip` the place from which an output discards up to the next FIRST, `notices` the lost
notices under way; the last three are what the status registers show (R287). -/
structure Headframe where
  inputs    : List Cell
  inter     : List HeldCell
  reorder   : List OutCell
  nextIn    : Tab (BitVec 16)
  nextOut   : Tab (BitVec 16)
  drrIn     : Tab Nat
  drrInter  : Tab Nat
  /-- the outputs of the groups that the settle engines allocated (R279) -/
  groups    : Tab (List (Fin 64))
  mid       : Tab Nat
  skip      : Tab (BitVec 16)
  sent      : List SentMsg
  notices   : List (Nat × BitVec 16)
  quarantined : List (Nat × Nat)
  sliceDown : BitVec 4
  slotNo    : Nat
  upShown   : BitVec 64
  planeShown : Word
  residueShown : Nat
deriving DecidableEq, Repr

/-! ### Traffic control -/

/-- The egress side of a port or sub-port (R299 to R304): queued frames, the gate entry in force (none: the default mask)
with the bells it has left, the version of the gate list, token buckets by class in 1/65,536 B, classes paused by PFC
until a stamp, and the queue pair served last in each class. -/
structure Egress where
  queue    : List Frame
  entry    : Option Nat
  left     : Nat
  gateVer  : BitVec 8
  peak     : Tab Int
  commit   : Tab Int
  paused   : Tab Nat
  rrNext   : Tab Nat
deriving DecidableEq, Repr

/-- A network port (R218, R236, R293, R297, R412 PORT_SET): breakout, link of each sub-port, addresses by sub-port,
policing mode and the change that waits for the bell boundary, whether PFC pause stands and since which bell, frames
flushed by link loss, and whether a fault of the port block holds it down. -/
structure NetPort where
  breakout  : Nat
  linkUp    : BitVec 4
  vlan      : Tab Nat
  ipv4      : Tab (BitVec 32)
  ipv6      : Tab (BitVec 128)
  mac       : Tab (BitVec 48)
  policer   : Bool
  toPolicer : Bool
  pfcSent   : Bool
  pfcAt     : Nat
  flushes   : Nat
  faulted   : Bool
deriving DecidableEq, Repr

/-! ### Keys and security -/

inductive SlotState where
  | empty
  | loaded
  | revoking
deriving DecidableEq, Repr

/-- A key slot (R315 to R318). The generation is kept in Keep non-volatile storage. -/
structure KeySlot where
  state      : SlotState
  generation : Nat
  claim      : Nat
  conn       : Bool
  decrypt    : Bool
  encrypt    : Bool
  keyId      : BitVec 64
  limit      : BitVec 64
  epoch      : BitVec 32
  key        : List Byte
  version    : BitVec 8
  usable     : Bool
  revokeCmds : List Nat
  notified   : Nat
deriving DecidableEq, Repr

/-- A lease record (R320), in Keep non-volatile storage. -/
structure LeaseRec where
  keyId : BitVec 64
  next  : Nat
  epoch : BitVec 32
deriving DecidableEq, Repr

/-- A lease that a spire holds for a slot: lease number, next counter value, the lease granted after it, and whether the
last grant failed for its non-volatile write (R320, R321). -/
structure SpireLease where
  spire  : Spire
  slot   : Nat
  gen    : Nat
  lease  : Nat
  next   : Nat
  more   : Option Nat
  failed : Bool
deriving DecidableEq, Repr

/-- The mask generator of a spire: the seed of its last reseed from the root, the bytes drawn since, and the bell of that reseed
(R311, R312). -/
structure MaskGen where
  seed  : BitVec 64
  drawn : Nat
  fedAt : Nat
deriving DecidableEq, Repr

/-- The key of a slot as a spire holds it: two shares whose XOR is the key (R311). -/
structure KeyCopy where
  slot : Nat
  a    : List Byte
  b    : List Byte
deriving DecidableEq, Repr

/-- Work that a cipher complex has still to do before it goes on: the grains of a READ, those of a rebuild or re-lay, or a scrubbed
stripe with what its reads brought (R309). -/
inductive CipherWork where
  | read (id : Nat)
  | job (id : Nat)
  | scrub (stripe : Nat) (seams : List (List (List Byte)))
deriving DecidableEq, Repr

/-- Work that waits at a cipher complex: its level, its grains still to be served, and what goes on after them (R309). -/
structure CipherJob where
  level  : Nat
  grains : Nat
  work   : CipherWork
deriving DecidableEq, Repr

/-- The cipher complex of a spire: the work that waits, the level whose turn it is and the deficits of the levels (R309), the core
that served last of those that serve all other work (R12, R308), the mask generator, and the key copies (R311). -/
structure Cipher where
  queue   : List CipherJob
  turn    : Nat
  deficit : Tab Nat
  core    : Nat
  mask    : MaskGen
  copies  : List KeyCopy
deriving DecidableEq, Repr

/-- The randomness chain (R312, R330): the sources that pass their tests, whether the root is instantiated, and the bell of
its last reseed. -/
structure Rng where
  srcA    : Bool
  srcB    : Bool
  rootOk  : Bool
  fedAt   : Nat
deriving DecidableEq, Repr

inductive Lifecycle where
  | blank
  | provisioned
  | retired
deriving DecidableEq, Repr

inductive DebugLevel where
  | closed
  | observe
  | open_
deriving DecidableEq, Repr

/-- A firmware image in SPI flash (R336, R412). -/
structure Image where
  version : BitVec 32
  svn     : BitVec 32
  bytes   : List Byte
  written : Nat
  staged  : Bool
deriving DecidableEq, Repr

/-- A firmware activation (R107): in DRAIN since the boundary at which a peal number began, or swapping since a bell, with
the number of the bell at which the swap took place. -/
inductive ActState where
  | idle
  | scheduled
  | draining (peal : Nat)
  | swapping (bell since : Nat)
deriving DecidableEq, Repr

/-- The lifecycle fuses of both Keeps, debug level, owner keys and firmware images (R332 to R342). `preferred` is the image that a
BOOT starts with: B where it is set (R108). -/
structure Security where
  fuseA      : Lifecycle
  fuseB      : Lifecycle
  debug      : DebugLevel
  nextDebug  : Option DebugLevel
  challenge  : Option (BitVec 256 × Nat)
  authFails  : Nat
  floor      : BitVec 32
  kek        : Option (List Byte)
  ownerKey   : Option (List Byte)
  keyEpoch   : BitVec 32
  imageA     : Image
  imageB     : Image
  preferred  : Bool
  loadedVer  : BitVec 32
  loadedSvn  : BitVec 32
  act        : ActState
  actCmd     : Option Nat
  p3         : Bool
  standbyAsked : Bool
deriving DecidableEq, Repr

/-! ### Regions -/

/-- Where a spire stands (R26, R91, R97, R344 to R346). -/
inductive SpireState where
  | down
  | up
  | resetting
  | missing
  | parked
  | unparking
deriving DecidableEq, Repr

/-- The BOOT stages B2 to B5 that a spire runs for itself alone in its region reset (R97): the stage, 6 once all have passed,
failures in a row, the bell of the next attempt while a delay runs, and since when the attempt runs. -/
structure RegionBoot where
  stage    : Nat
  failures : Nat
  due      : Option Nat
  since    : Nat
deriving DecidableEq, Repr

/-- A spire: where it stands, whether its roles are with the partner, whether it re-mirrors, P1 and idle bells, the bit
mask of its quarantined cipher cores and the gang lead (R308, R329), whether it holds the key copies (R316), whether its
blocks that are being reset (R96), the command that waits for its reset, parking or unparking, whether its roles
wait to return from an unpark (R346), the stages it runs in a region reset (R97), whether its loss waits for the next bell
(R97 step 2), and its quarantined cells outside the cipher complex, by block and cell (R12). -/
structure SpireRec where
  state     : SpireState
  rolesAway : Bool
  remirror  : Bool
  p1        : Bool
  idle      : Nat
  cores     : BitVec 12
  gangLead  : Nat
  keyCopies : Bool
  resets    : List Nat
  resetCmd  : Option Nat
  unparked  : Bool
  boot      : Option RegionBoot
  lost      : Bool
  badCells  : List (Nat × Nat)
deriving DecidableEq, Repr

/-- A Keep (R16, R17, R91). -/
structure KeepRec where
  flag     : Bool
  isolated : Bool
  missing  : Bool
deriving DecidableEq, Repr

structure Keeps where
  a        : KeepRec
  b        : KeepRec
  holdOut  : Bool
deriving DecidableEq, Repr

/-! ### Hot swap -/

inductive ChanState where
  | off
  | wait
  | ramp
  | on
  | tripped
  | lockedOff
  | shorted
deriving DecidableEq, Repr

/-- A hot-swap channel (R350 to R374). `seen` is the presence or seating input at the last sample, `seenFor` and `goneFor`
the samples since it last changed; `insertFrom` the bell from which the insertion delay runs, `ready` the bell at which
the start conditions were met; `rampFor` and `fullFor` samples in RAMP and fully on; `retryAt` the bell of the retry;
`brk` the count of each breaker point; `shortFor` samples with the condition of R366 (without it in SHORTED);
`pwrgdFor` samples since power good, or since the commanded off while `offCmd` is set. Current in CUR_LSB, voltages in
mV, energies in uJ. -/
structure Channel where
  state      : ChanState
  seen       : Bool
  seenFor    : Nat
  goneFor    : Nat
  present    : Bool
  insertFrom : Option Nat
  ready      : Option Nat
  rampFor    : Nat
  fullFor    : Nat
  onSince    : Nat
  offSince   : Nat
  tripCount  : Nat
  lastCause  : Nat
  lastPoint  : Nat
  retryAt    : Option Nat
  brk        : Tab Nat
  shortFor   : Nat
  pwrgd      : Bool
  pwrgdFor   : Nat
  perstRel   : Bool
  iso        : Bool
  chg        : Bool
  dis        : Bool
  current    : Int
  vin        : Nat
  vout       : Nat
  energyOut  : Nat
  energyIn   : Nat
  offCmd     : Bool
deriving DecidableEq, Repr

/-! ### Faults -/

/-- An event as it reaches a record (R378, R382). -/
structure FaultEv where
  info     : FaultInfo
  stamp    : Nat
  step     : BitVec 16
  injected : Bool
deriving DecidableEq, Repr

/-- A fault record (R377), with what the counting needs: the bell its window opened, the bell of its last rise by
counting, the class that takes effect at the next bell, whether a reaction is due then, whether the reset that SEVERE
calls for is due or running, the FAULT_CLEAR that waits, and the events of the bell (R380, R382). -/
structure FaultRec where
  source      : BitVec 32
  overflow    : Bool
  captured    : Bool
  base        : Nat
  cls         : Nat
  recovered   : Bool
  injected    : Bool
  heldOut     : Bool
  ceiling     : Nat
  count       : Nat
  winCount    : Nat
  escalations : Nat
  master      : BitVec 16
  access      : Byte
  firstStamp  : Nat
  address     : BitVec 64
  detail0     : BitVec 32
  detail1     : BitVec 32
  detail2     : BitVec 32
  lastStamp   : Nat
  firstStep   : BitVec 16
  lastStep    : BitVec 16
  winStart    : Nat
  winOpenBell : Nat
  escBell     : Option Nat
  rising      : Option Nat
  react       : Bool
  resetDue    : Bool
  clearing    : Option Nat
  recent      : List FaultEv
deriving DecidableEq, Repr

/-! ### Floder, endpoint, counters -/

inductive RingState where
  | disabled
  | running
  | error
  | draining
deriving DecidableEq, Repr

/-- Slots of a ring that one SQ_TAIL write has covered, from slot `start` on, while they are fetched: whether the read is
issued, and whether it has come back (R397, R427, R428). -/
structure Fetch where
  id      : Nat
  start   : Nat
  slots   : List (BitVec 16 × Packet)
  issued  : Bool
  arrived : Bool
deriving DecidableEq, Repr

/-- An endpoint ring (R396 to R402): `slots` are fetched and not started, `counted` replies since the last signal, the
first of them at `firstAt`. -/
structure Ring where
  state    : RingState
  head     : Nat
  tail     : Nat
  stHead   : Nat
  n        : Nat
  errCode  : Nat
  fetches  : List Fetch
  slots    : List (BitVec 16 × Packet)
  counted  : Nat
  firstAt  : Option Nat
deriving DecidableEq, Repr

/-- A status reply (R395), with the place of its Out data in host memory. -/
structure Reply where
  src    : Source
  ptr    : BitVec 64
  tag    : BitVec 16
  opcode : BitVec 16
  status : Byte
  r0     : BitVec 32
  r1     : BitVec 32
  r2     : BitVec 32
  noInt  : Bool
  head   : Nat
  stamp  : Nat
  step   : BitVec 16
  data   : List Byte
  /-- the arrival of its command on a session, in ns since HELD (R404) -/
  from_  : Nat
deriving DecidableEq, Repr

/-- The data area of a started ring command: not to be read, being read, or read and the command not yet executed
(R428). -/
inductive DataPhase where
  | done
  | reading
  | ready
deriving DecidableEq, Repr

/-- A Floder command started and not yet completed (R400, R406, R407, R428); the reply of an orphan is discarded. -/
structure Cmd where
  id     : Nat
  src    : Source
  tag    : BitVec 16
  opcode : BitVec 16
  noInt  : Bool
  excl   : Bool
  p      : Packet
  data   : DataPhase
  orphan : Bool
deriving DecidableEq, Repr

/-- The Floder side: the rings by number, the messages received on management queue pairs, commands started and not completed,
replies not yet written, and since when a WARM_RESET waits (R396, R403, R410). What the trace buffer records is not given:
its entries are free values when read (R412). -/
structure Floder where
  rings   : Tab Ring
  inbox   : List (BitVec 16 × Packet)
  cmds    : List Cmd
  replies : List Reply
  warmAsked : Option Nat
deriving DecidableEq, Repr

/-- What a read of the endpoint is for: the slots of a ring, or the data area of a started command. -/
inductive ReadFor where
  | fetch (r id : Nat)
  | data (cmd : Nat)
deriving DecidableEq, Repr

/-- A read outstanding: its tag, the bell of issue, and whether its completion is to be discarded (R427, R428). -/
structure EpRead where
  tag   : Nat
  since : Nat
  what  : ReadFor
  drop  : Bool
deriving DecidableEq, Repr

/-- One function of the endpoint (R416, R427 to R429): `flr` since a Function Level Reset is in progress, the tags
outstanding and in quarantine with their bells, the MSI-X table by word and the vectors pending. -/
structure Func where
  busMaster  : Bool
  memSpace   : Bool
  d3hot      : Bool
  flr        : Option Nat
  tags       : List EpRead
  quarantine : List (Nat × Nat)
  pba        : List Nat
  table      : Tab Word
deriving DecidableEq, Repr

/-- The endpoint (R415 to R433): the link, the freeze with its cause, release and bell, which Keep holds it, a failover in
progress since a bell and whether Keep B drives the lanes yet, unexpected completions counted. -/
structure Endpoint where
  link       : Bool
  speed      : Nat
  width      : Nat
  frozen     : Bool
  cause      : Nat
  releaseReq : Bool
  ignored    : Bool
  freezeBell : Nat
  keepB      : Bool
  failing    : Option Nat
  driving    : Bool
  failovers  : Nat
  pf0        : Func
  pf1        : Func
  ctoUs      : Nat
  unexpected : Nat
deriving DecidableEq, Repr

/-- One event counter with its shadow, the selection that waits and the bell it came in, the COUNTER_SELECT commands that
complete with it, and what PMON_SELk.EVENT reads as: the value last written (R5, R434 to R437, R443). -/
structure Counter where
  event  : BitVec 16
  value  : BitVec 48
  ovf    : Bool
  shadow : BitVec 48
  shadowOvf : Bool
  next   : Option (BitVec 16 × Nat)
  cmds   : List Nat
  shown  : BitVec 16
deriving DecidableEq, Repr

/-- Snapshots: the bell of the request that waits, whether it asks for the buffer, its commands, the last sequence number,
the records not yet written, and what PMON_SNAP_STATUS shows (R439 to R441, R444). -/
structure Snapshots where
  asked     : Option Nat
  toBuffer  : Bool
  cmds      : List Nat
  seq       : Nat
  pendingWrites : List (Nat × List Byte)
  skipped   : Nat
  lastSeq   : Nat
deriving DecidableEq, Repr

structure Pmon where
  counters   : Tab Counter
  resetCount : Tab Nat
  snap       : Snapshots
deriving DecidableEq, Repr

/-! ### What leaves the device -/

inductive NvmeFeature where
  | numberOfQueues
  | volatileWriteCache
  | asyncEventConfig
deriving DecidableEq, Repr

inductive NvmeLog where
  | error
  | smart
  | telemetryHost
  | telemetryController
  | ana
  | sanitizeStatus
deriving DecidableEq, Repr

/-- The NVMe admin commands of enumeration, queue management and health (R186). -/
inductive AdminCmd where
  | identify (cns : Byte)
  | getFeature (f : NvmeFeature)
  | setFeature (f : NvmeFeature)
  | createQueues (count depth : Nat)
  | asyncEvent
  | getLog (l : NvmeLog)
deriving DecidableEq, Repr

/-- The device's outputs, one constructor for each kind of thing that leaves it. -/
inductive Out where
  /-- a frame transmitted on a port or sub-port (R299) -/
  | frame (port : Port) (sub : Sub) (f : Frame)
  /-- the 32 B of a Floder status reply, written to a ring's status queue (R395, R398) -/
  | reply (ring : Nat) (addr : BitVec 64) (bytes : List Byte)
  /-- Out data of a Floder command, written to its data area (R394) -/
  | dataOut (addr : BitVec 64) (bytes : List Byte)
  /-- a Floder status reply through the JTAG mailbox (R340) -/
  | mailbox (r : Reply)
  | msix (pf : Pf) (vector : Nat)
  | regData (by_ : Requester) (off : Nat) (v : Word)
  | ur (pf : Pf)
  | poisonedData (by_ : Requester) (off : Nat) (v : Word)
  | romData (off : Nat) (b : List Byte)
  | smbus (v : Option Word)
  | jtag (answer : Option (BitVec 32))
  | jtagData (b : List Byte)
  | jtagError
  | jtagBusy
  /-- a JTAG instruction without a word of its own is loaded (R339) -/
  | jtagLoaded
  /-- an NVMe Write with Force Unit Access (R186) -/
  | bayWrite (bay : Nat) (p : BayPort) (lba : Nat) (blocks : List (List Byte))
  | bayZeroes (bay : Nat) (p : BayPort) (lba count : Nat)
  | bayRead (bay : Nat) (p : BayPort) (lba count : Nat)
  | bayDealloc (bay : Nat) (p : BayPort) (lba count : Nat)
  | bayAbort (bay : Nat) (p : BayPort) (cid : Nat)
  | bayAdmin (bay : Nat) (p : BayPort) (c : AdminCmd)
  | bayFlush (bay : Nat)
  | bayFormat (bay : Nat)
  | bayLabel (bay : Nat) (p : BayPort) (l : Label)
  | baySanitize (bay : Nat) (p : BayPort)
  /-- a copy of the record image: its first LBA and its length in blocks (R162) -/
  | imageWrite (bay : Nat) (p : BayPort) (lba count : Nat)
  | lostNotice (input : Nat) (tag : BitVec 16)
  /-- a cell leaves an output, with the 16 B of its header (R269) -/
  | cellOut (output : Nat) (header : List Byte) (c : Cell)
  /-- a network output ends a frame with an inverted FCS (R278) -/
  | fcsInverted (output : Nat)
  | snapshotRecord (addr : BitVec 64) (bytes : List Byte)
  | bellSync
  | checkInterrupt (s : Spire)
  | faultN (low : Bool)
deriving DecidableEq, Repr

/-! ### The state -/

/-- Keep-level and chip-level state. -/
structure Chip where
  servo     : Servo
  mode      : ModeState
  boot      : Boot
  survey    : Survey
  drain     : Drain
  vault     : Vault
  markerSeq : Nat
  recordImage : Option (Tab SessionImage)
  /-- first LBA and blocks of the record image that is being written or was written last (R163) -/
  imageAt   : Nat × Nat
  input     : InputPower
  frozenIn  : Bool
  syncOut   : Bool
  straps    : BitVec 3
  supplies  : Bool
  unrepaired : List Part
  exposure  : Exposure
  keeps     : Keeps
  spires    : Tab SpireRec
  temps     : Tab Int
  tempsPrev : Tab Int
  rng       : Rng
deriving DecidableEq, Repr

/-- Hosts' side: claims, extents, sessions, queue pairs, commands in flight. -/
structure Hosts where
  claims    : Tab ClaimEntry
  updates   : List Update
  /-- entries that took an update, with the bell at which it took effect (R80) -/
  switched  : List ((TableId × Nat) × Nat)
  /-- versions of the entries of the Headframe's forwarding modes and groups and of the class shapers (R79) -/
  tabVers   : Tab (BitVec 8)
  returning : List Return
  extents   : List Extent
  ctxs      : List Ctx
  reads     : List ReadCtx
  flushes   : List FlushCtx
  scheds    : Tab Sched
  sessions  : Tab Session
  qps       : Tab Qp
  inbox     : List Waiting
  /-- re-sent capsules that wait for the original of their tally, by session (R227, R40) -/
  dups      : List (Nat × Delivered)
  windows   : Tab Window
  winVers   : Tab (BitVec 8)
  grants    : List Grant
  chains    : Tab ChainQ
  meters    : Tab MeterProfile
  meterVers : Tab (BitVec 8)
  ports     : Tab NetPort
  egress    : Tab Egress
deriving DecidableEq, Repr

/-- Storage: write buffer, credit, stripes, bays, journal, checks. `markers` is the block at the marker LBA of each bay
(R163); `pages` the map pages on the bays, by key (R182, `Machine/Layouts.lean`), `pageSeq` the run pages numbered so far, and
`cached` the pages in the context cache of a spire; `moved` the bytes of a bell through the bay ports of a spire, of rebuild and
compaction, of scrub, and of other work (R194, R206). -/
structure Store where
  grains    : List Grain
  credit    : Credit
  hums      : Tab HumState
  ecaps     : List ECap
  layout    : Layout
  pend      : List Pending
  stripes   : List Stripe
  stripeSeq : Tab Nat
  drives    : Tab (List Byte)
  markers   : Tab (List Byte)
  bays      : Tab BayRec
  ops       : List BayOp
  quar      : List Quarantine
  journal   : Journal
  pages     : Tab MapPage
  pageSeq   : Nat
  cached    : List (Nat × Nat)
  rebuilds  : List (Nat × Nat)
  jobs      : List Job
  moved     : Tab Nat
  crcEvent  : Tab (BitVec 16)
  scans     : List Scan
  scrubs    : Tab Scrub
  hbm       : Tab Byte
deriving DecidableEq, Repr

/-- The device: everything the manual gives the chip, and the model's own `out` (what has left the device), `freeTick`
(the counter of the free values) and `nextId` (names for the model's contexts). `winMem` is the memory of the staging
windows, byte `o` of window `w` at address `w * 2 ^ 30 + o`, an unlisted byte reading 0 (R58). -/
structure Dev where
  clk      : Clock
  winMem   : List Host.Cell
  chip     : Chip
  regs     : RegFile
  hosts    : Hosts
  store    : Store
  hf       : Headframe
  keySlots : Tab KeySlot
  leases   : Tab LeaseRec
  spireLeases : List SpireLease
  ciphers  : Tab Cipher
  sec      : Security
  chans    : Tab Channel
  faults   : Tab FaultRec
  /-- recovery leases of cells, blocks and regions, with the bell at which each cap ends (R383) -/
  recov    : List (LeaseRef × Nat)
  fcLast   : BitVec 32
  floder   : Floder
  ep       : Endpoint
  pmon     : Pmon
  out      : List Out
  freeTick : Nat
  nextId   : Nat
deriving DecidableEq, Repr

/-- The machine: the queue of waiting commands, first in first out, and the device. -/
structure State where
  pending : List Instr
  dev     : Dev
deriving DecidableEq, Repr

/-! ### Reset -/

def Cipher.reset : Cipher := ⟨[], 3, [], 0, ⟨0, 0, 0⟩, []⟩

/-- A time base before the Keeps leave HELD (R62, R457). -/
def Clock.reset : Clock :=
  ⟨0, 0, 0, 0, 15625, 0, 0, false⟩

def Servo.reset : Servo :=
  ⟨.free, false, 0, 0, 0, 0, none, 0, none, false, 0, none, none, none⟩

/-- KEEP_BOOT_PROGRESS at its reset value (R93). -/
def Boot.reset : Boot :=
  ⟨0, 15, false, false, 0, 0, 0, 0, 0, 0, [], none, false, false, false, true, 0⟩

def Drain.reset : Drain :=
  ⟨.none, .survey, false, 0, 0, 0, false, [], none⟩

def Vault.reset : Vault :=
  ⟨.none, 0, 0, 0, 0, 0, 0, false, 0, 0, 0⟩

def KeepRec.reset : KeepRec := ⟨false, false, false⟩

def Keeps.reset : Keeps := ⟨.reset, .reset, false⟩

/-- What an unlisted spire stands for: not up, no cipher core quarantined, gang led by core 11 (R308, R329). -/
def SpireRec.reset : SpireRec :=
  ⟨.down, false, false, false, 0, 0, 11, false, [], none, false, none, false, []⟩

/-- Both entropy sources not yet tested (R312). -/
def Rng.reset : Rng := ⟨false, false, false, 0⟩

def Chip.reset : Chip where
  servo := .reset
  mode := ⟨.held, [], 0, 0⟩
  boot := .reset
  survey := ⟨false, false, 0⟩
  drain := .reset
  vault := .reset
  markerSeq := 0
  recordImage := none
  imageAt := (0, 0)
  input := ⟨false, 0, 0, false, 0, none⟩
  frozenIn := true
  syncOut := false
  straps := 0
  supplies := false
  unrepaired := []
  exposure := ⟨false, 0, false⟩
  keeps := .reset
  spires := []
  temps := []
  tempsPrev := []
  rng := .reset

/-- What an unlisted page commit register stands for (R75). -/
def PageState.reset : PageState := ⟨none, false, 0, none⟩

def RegFile.reset : RegFile := ⟨[], [], [], [], [], 0⟩

/-- What an unlisted claim stands for: never written (R79). -/
def ClaimEntry.reset : ClaimEntry := ⟨none, 0, 0⟩

/-- What an unlisted command scheduler stands for: U_BURST tokens, counted in 1/64 (R133). -/
def Sched.reset : Sched := ⟨0x100 * 64, 0, 0, [], [], []⟩

/-- What an unlisted network port stands for: no breakout, no link, METER mode (R293, R412 PORT_SET). -/
def NetPort.reset : NetPort := ⟨0, 0, [], [], [], [], false, false, false, 0, 0, false⟩

/-- What an unlisted port or sub-port egress stands for: nothing queued, no gate entry in force (R301). -/
def Egress.reset : Egress := ⟨[], none, 0, 0, [], [], [], []⟩

def Hosts.reset : Hosts :=
  ⟨[], [], [], [], [], [], [], [], [], [], [], [], [], [], [], [], [], [], [], [], [], []⟩

/-- What an unlisted hold-up module stands for: no serial number read. -/
def HumState.reset : HumState := ⟨none, .idle, true, 0, 0, 0, false⟩

def Credit.reset : Credit := ⟨0, 0, false, [], [], [], 0, none⟩

/-- What an unlisted bay stands for: ABSENT (R190). -/
def BayRec.reset : BayRec :=
  ⟨.absent, false, false, false, false, none, 0, 0, false, none, none, false, false, 0, 0, 0, 0⟩

/-- The journal before SHELF_LAYOUT: bays 0, 11 and 22 (R173). -/
def Journal.reset : Journal := ⟨[], 0, 0, false, [0, 11, 22], 0, none⟩

/-- What an unlisted scrubber stands for. -/
def Scrub.reset : Scrub := ⟨false, [], [], 0, 0, 0, 0, false, [], [], none, []⟩

def Store.reset : Store where
  grains := []
  credit := .reset
  hums := []
  ecaps := []
  layout := ⟨0, 0, false, false⟩
  pend := []
  stripes := []
  stripeSeq := []
  drives := []
  markers := []
  bays := []
  ops := []
  quar := []
  journal := .reset
  pages := []
  pageSeq := 0
  cached := []
  rebuilds := []
  jobs := []
  moved := []
  crcEvent := []
  scans := []
  scrubs := []
  hbm := []

def Headframe.reset : Headframe :=
  ⟨[], [], [], [], [], [], [], [], [], [], [], [], [], 0, 0, 0, 0, 0⟩

/-- What an unlisted key slot stands for: EMPTY (R315). -/
def KeySlot.reset : KeySlot :=
  ⟨.empty, 0, 0, false, false, false, 0, 0, 0, [], 0, false, [], 0⟩

def Image.reset : Image := ⟨0, 0, [], 0, false⟩

/-- A part as manufactured: BLANK, debug CLOSED, floor 0, no owner keys (R332, R338 to R340). -/
def Security.reset : Security :=
  ⟨.blank, .blank, .closed, none, none, 0, 0, none, none, 0, .reset, .reset, false, 0, 0, .idle, none, false, false⟩

/-- What an unlisted hot-swap channel stands for: OFF (R354). -/
def Channel.reset : Channel where
  state := .off
  seen := false
  seenFor := 0
  goneFor := 0
  present := false
  insertFrom := none
  ready := none
  rampFor := 0
  fullFor := 0
  onSince := 0
  offSince := 0
  tripCount := 0
  lastCause := 0
  lastPoint := 0
  retryAt := none
  brk := []
  shortFor := 0
  pwrgd := false
  pwrgdFor := 0
  perstRel := false
  iso := false
  chg := false
  dis := false
  current := 0
  vin := 0
  vout := 0
  energyOut := 0
  energyIn := 0
  offCmd := false

/-- What an unlisted ring stands for: DISABLED (R396). -/
def Ring.reset : Ring := ⟨.disabled, 0, 0, 0, 0, 0, [], [], 0, none⟩

def Floder.reset : Floder := ⟨[], [], [], [], none⟩

def Func.reset : Func := ⟨false, false, false, none, [], [], [], []⟩

/-- The endpoint: link down, Keep A active, completion timeout 50 ms, every vector masked (R415, R427, R429, R433). -/
def Endpoint.reset : Endpoint :=
  ⟨false, 0, 0, false, 0, false, false, 0, false, none, false, 0, .reset, .reset, 50000, 0⟩

/-- What an unlisted counter stands for (R443). -/
def Counter.reset : Counter := ⟨0, 0, false, 0, false, none, [], 0⟩

def Pmon.reset : Pmon := ⟨[], [], ⟨none, false, [], 0, [], 0, 0⟩⟩

/-- The device after reset: in HELD, with supplies out of range (R84, R85, R95 row Cold); a part as
manufactured. -/
def Dev.reset : Dev where
  clk := .reset
  winMem := []
  chip := .reset
  regs := .reset
  hosts := .reset
  store := .reset
  hf := .reset
  keySlots := []
  leases := []
  spireLeases := []
  ciphers := []
  sec := .reset
  chans := []
  faults := []
  recov := []
  fcLast := 0
  floder := .reset
  ep := .reset
  pmon := .reset
  out := []
  freeTick := 0
  nextId := 0

/-- The machine right after reset: no command waits. -/
def State.reset : State := ⟨[], .reset⟩

end Sys2Proof.Machine
end

