-- ==== Sys2Proof/Machine/Tab.lean ====
section
/-! DEFINITION. Operations on sparse tables (key and value, keys rising) and on the memory of the staging windows. -/

namespace Sys2Proof

/-- The entry at a key, if it is listed. -/
def Tab.get {α : Type} : Tab α → Nat → Option α
  | [], _ => none
  | (k, x) :: t, n => if k = n then some x else Tab.get t n

/-- The entry at a key; `d` where it is not listed. -/
def Tab.getD {α : Type} (t : Tab α) (n : Nat) (d : α) : α := (Tab.get t n).getD d

/-- The table with the entry at a key set. -/
def Tab.set {α : Type} : Tab α → Nat → α → Tab α
  | [], n, x => [(n, x)]
  | (k, y) :: t, n, x =>
    if n < k then (n, x) :: (k, y) :: t
    else if n = k then (n, x) :: t
    else (k, y) :: Tab.set t n x

/-- The table with a key no longer listed. -/
def Tab.del {α : Type} (t : Tab α) (n : Nat) : Tab α := t.filter (fun e => e.1 != n)

/-- The table with the entry at a key changed; `d` is what the key stands for when it is not listed. -/
def Tab.modify {α : Type} (t : Tab α) (n : Nat) (d : α) (f : α → α) : Tab α :=
  Tab.set t n (f (Tab.getD t n d))

/-- The table with a listed entry changed; nothing where the key is not listed. -/
def Tab.adjust {α : Type} (t : Tab α) (n : Nat) (f : α → α) : Tab α :=
  t.map (fun e => if e.1 = n then (e.1, f e.2) else e)

/-- Every listed entry changed. -/
def Tab.mapAll {α β : Type} (t : Tab α) (f : Nat → α → β) : Tab β := t.map (fun e => (e.1, f e.1 e.2))

/-- Keys strictly rising, each at least `lo`. -/
def Tab.sortedFrom {α : Type} : Nat → Tab α → Bool
  | _, [] => true
  | lo, (k, _) :: t => decide (lo ≤ k) && Tab.sortedFrom (k + 1) t

namespace Machine

/-! ### The memory of the staging windows -/

/-- The byte at an address; an unlisted byte reads 0 (R58). -/
def memRead : List Host.Cell → Nat → Byte
  | [], _ => 0
  | (k, b) :: m, a => if k = a then b else memRead m a

/-- The memory with one byte written; writing 0 removes the entry, so that the form stays canonical. -/
def memWrite : List Host.Cell → Nat → Byte → List Host.Cell
  | [], a, b => if b = 0 then [] else [(a, b)]
  | (k, c) :: m, a, b =>
    if a < k then (if b = 0 then (k, c) :: m else (a, b) :: (k, c) :: m)
    else if a = k then (if b = 0 then m else (a, b) :: m)
    else (k, c) :: memWrite m a b

/-- The memory with bytes written from an address on. -/
def memWriteBytes : List Host.Cell → Nat → List Byte → List Host.Cell
  | m, _, [] => m
  | m, a, b :: bs => memWriteBytes (memWrite m a b) (a + 1) bs

/-- `n` bytes from an address on. -/
def memReadBytes (m : List Host.Cell) (a : Nat) : Nat → List Byte
  | 0 => []
  | n + 1 => memRead m a :: memReadBytes m (a + 1) n

/-- The memory with a range freed: its bytes read 0 again. -/
def memClear (m : List Host.Cell) (a n : Nat) : List Host.Cell :=
  m.filter (fun c => decide (c.1 < a) || decide (a + n ≤ c.1))

/-- Addresses strictly rising from `lo`, no entry 0. -/
def memSortedFrom : Nat → List Host.Cell → Bool
  | _, [] => true
  | lo, (k, b) :: m => decide (lo ≤ k) && b != 0 && memSortedFrom (k + 1) m

/-- The canonical form of the memory. -/
def Memory.wf (m : List Host.Cell) : Bool := memSortedFrom 0 m

end Machine

end Sys2Proof
end

