-- ==== Sys2Proof/Machine/Bits.lean ====
section
/-! DEFINITION. Bit fields, little-endian bytes (R3), and small list operations. -/

namespace Sys2Proof.Machine

/-- Bits `hi:lo` of a number. -/
def bits (n hi lo : Nat) : Nat := n / 2 ^ lo % 2 ^ (hi + 1 - lo)

/-- Bit `i` of a number. -/
def bit (n i : Nat) : Bool := n / 2 ^ i % 2 == 1

/-- 1 for true. -/
def b2n (b : Bool) : Nat := if b then 1 else 0

/-- The little-endian number of a byte list (R3). -/
def leNat : List Byte → Nat
  | [] => 0
  | b :: bs => b.toNat + 256 * leNat bs

/-- A number as `n` little-endian bytes. -/
def leBytes : Nat → Nat → List Byte
  | 0, _ => []
  | n + 1, x => BitVec.ofNat 8 x :: leBytes n (x / 256)

/-- A number as `n` big-endian bytes. -/
def beBytes (n x : Nat) : List Byte := (leBytes n x).reverse

/-- The big-endian number of a byte list. -/
def beNat (l : List Byte) : Nat := leNat l.reverse

/-- Bytes `a` to `a + n - 1`, missing bytes reading 0. -/
def slice (l : List Byte) (a n : Nat) : List Byte :=
  let x := (l.drop a).take n
  x ++ List.replicate (n - x.length) 0

/-- The little-endian number in bytes `a` to `a + n - 1`. -/
def field (l : List Byte) (a n : Nat) : Nat := leNat ((l.drop a).take n)

/-- A list padded with zero bytes to a length. -/
def padTo (n : Nat) (l : List Byte) : List Byte := l ++ List.replicate (n - l.length) 0

def zeros (n : Nat) : List Byte := List.replicate n 0

/-- Every byte is 0. -/
def allZero (l : List Byte) : Bool := l.all (· == 0)

/-- Add, staying at `m`. -/
def satAdd (m a b : Nat) : Nat := min m (a + b)

/-- `n` rounded up to a multiple: how many units of size `u` cover `n`. -/
def ceilDiv (n u : Nat) : Nat := if u = 0 then 0 else (n + (u - 1)) / u

/-- The first element that meets a test, changed. -/
def updFirst {α : Type} (p : α → Bool) (f : α → α) : List α → List α
  | [] => []
  | x :: xs => if p x then f x :: xs else x :: updFirst p f xs

/-- The list without the first element that meets a test. -/
def dropFirst {α : Type} (p : α → Bool) : List α → List α
  | [] => []
  | x :: xs => if p x then xs else x :: dropFirst p xs

/-- Every element that meets a test, changed. -/
def updAll {α : Type} (p : α → Bool) (f : α → α) (l : List α) : List α :=
  l.map (fun x => if p x then f x else x)

/-- Insert by a key, after equal keys. -/
def insertBy {α : Type} (key : α → Nat) (x : α) : List α → List α
  | [] => [x]
  | y :: ys => if key x < key y then x :: y :: ys else y :: insertBy key x ys

/-- Sort by a key, keeping the order of equal keys. -/
def sortBy {α : Type} (key : α → Nat) (l : List α) : List α :=
  l.foldl (fun acc x => insertBy key x acc) []

def sumMap {α : Type} (f : α → Nat) (l : List α) : Nat := l.foldl (fun a x => a + f x) 0

/-- `serial` comparison: `a` is before `b`, the difference taken modulo `m` (R223, R226). -/
def serialBefore (m a b : Nat) : Bool := let d := (b + m - a % m) % m; decide (0 < d) && decide (d < m / 2)

/-- Floor of the square root. -/
def isqrtGo : Nat → Nat → Nat → Nat
  | 0, _, r => r
  | f + 1, n, r =>
    let b := r + 2 ^ f
    if b * b ≤ n then isqrtGo f n b else isqrtGo f n r

def isqrt (n : Nat) : Nat := isqrtGo 40 n 0

end Sys2Proof.Machine
end

