-- ==== Sys2Proof/Machine/Crypto.lean ====
section
/-! DEFINITION. The published algorithms the manual names: CRC (R204), Reed-Solomon over GF(2^8) (R176), AES-256, GCM and
KWP (R314, R322), SHA-384, HMAC and HKDF (R170, R334), ECDSA and ECDH on P-384 (R334, R336, R340). -/

namespace Sys2Proof.Machine

/-! ### CRC (R204, R205) -/

/-- The reflection of a number over `n` bits. -/
def reflectBits : Nat → Nat → Nat
  | 0, _ => 0
  | n + 1, x => (x % 2) * 2 ^ n + reflectBits n (x / 2)

structure CrcProfile where
  width  : Nat
  poly   : Nat
  init   : Nat
  refin  : Bool
  refout : Bool
  xorout : Nat
deriving DecidableEq, Repr

/-- Profile 0, CRC-32C (R205). -/
def crc32c : CrcProfile := ⟨32, 0x1EDC6F41, 0xFFFFFFFF, true, true, 0xFFFFFFFF⟩

/-- Profile 1, CRC-64 of NVMe end-to-end protection (R205). -/
def crc64 : CrcProfile :=
  ⟨64, 0xAD93D23594C93659, 0xFFFFFFFFFFFFFFFF, true, true, 0xFFFFFFFFFFFFFFFF⟩

/-- Bits n - 1 down to 0 of a byte, through the register. -/
def crcBits (p : CrcProfile) (b : Nat) : Nat → Nat → Nat
  | 0, c => c
  | n + 1, c =>
    let top := (bit c (p.width - 1)).xor (bit b n)
    let s := 2 * c % 2 ^ p.width
    crcBits p b n (if top then s ^^^ p.poly else s)

/-- The CRC of a message under a profile (R204). -/
def crcOf (p : CrcProfile) (m : List Byte) : Nat :=
  let c := m.foldl (fun c b => crcBits p (if p.refin then reflectBits 8 b.toNat else b.toNat) 8 c) p.init
  (if p.refout then reflectBits p.width c else c) ^^^ p.xorout

/-! ### GF(2^8) -/

/-- Product of two bytes in GF(2^8) with a field polynomial of degree 8. -/
def gfMulGo (poly : Nat) : Nat → Nat → Nat → Nat → Nat
  | 0, _, _, acc => acc
  | n + 1, a, b, acc =>
    let a2 := if 128 ≤ a then (2 * a) ^^^ poly else 2 * a
    gfMulGo poly n a2 (b / 2) (if b % 2 = 1 then acc ^^^ a else acc)

def gfMul (poly a b : Nat) : Nat := gfMulGo poly 8 a b 0

def gfPow (poly a : Nat) : Nat → Nat
  | 0 => 1
  | n + 1 => gfMul poly a (gfPow poly a n)

/-- Inverse in GF(2^8); 0 for 0. -/
def gfInv (poly a : Nat) : Nat := gfPow poly a 254

/-! ### Reed-Solomon (R176) -/

/-- Field polynomial of the erasure code. -/
def rsPoly : Nat := 0x11D

/-- Coefficient a(j, i) (R176). -/
def rsCoef (j i : Nat) : Nat := gfInv rsPoly (j ^^^ (8 + i))

/-- acc + c times d, byte by byte. -/
def rsAddMul (c : Nat) (acc d : List Byte) : List Byte :=
  List.zipWith (fun x y => x ^^^ BitVec.ofNat 8 (gfMul rsPoly c y.toNat)) acc d

/-- Parity grain j of data grains D_0, D_1, ... (R176). -/
def rsParity (j : Nat) (ds : List (List Byte)) : List Byte :=
  (ds.zip (List.range ds.length)).foldl (fun acc d => rsAddMul (rsCoef j d.2) acc d.1) (zeros 4160)

/-- A row of the linear system: coefficients of the data positions, and the grain they sum to. -/
structure RsRow where
  coefs : List Nat
  rhs   : List Byte
deriving DecidableEq, Repr

def RsRow.scale (c : Nat) (r : RsRow) : RsRow :=
  ⟨r.coefs.map (gfMul rsPoly c), r.rhs.map (fun x => BitVec.ofNat 8 (gfMul rsPoly c x.toNat))⟩

/-- r + c times p. -/
def RsRow.add (c : Nat) (r p : RsRow) : RsRow :=
  ⟨List.zipWith (fun x y => x ^^^ gfMul rsPoly c y) r.coefs p.coefs, rsAddMul c r.rhs p.rhs⟩

/-- Gauss-Jordan elimination of columns col, col + 1, ...: solved rows by column, rows left. -/
def rsSolve : Nat → Nat → List RsRow → List RsRow → Option (List RsRow)
  | 0, _, done, _ => some done
  | n + 1, col, done, rest =>
    match rest.find? (fun r => r.coefs.getD col 0 != 0) with
    | none => none
    | some p =>
      let q := p.scale (gfInv rsPoly (p.coefs.getD col 0))
      let elim (r : RsRow) : RsRow := r.add (r.coefs.getD col 0) q
      rsSolve n (col + 1) (done.map elim ++ [q]) ((dropFirst (· == p) rest).map elim)

/-- The row a position contributes (R176): data position i holds D_i, parity position k' + j the sum of R176. -/
def rsRow (k p : Nat) (g : List Byte) : RsRow :=
  ⟨(List.range k).map (fun i => if p < k then b2n (i == p) else rsCoef (p - k) i), g⟩

/-- The k' data grains from k' grains at known positions; none when they do not determine them (R176). -/
def rsDecode (k : Nat) (have_ : List (Nat × List Byte)) : Option (List (List Byte)) :=
  (rsSolve k 0 [] (have_.map (fun e => rsRow k e.1 e.2))).map (·.map (·.rhs))

/-! ### AES-256 (FIPS 197) -/

def aesPoly : Nat := 0x11B

def rotl8 (x n : Nat) : Nat := (x * 2 ^ n) % 256 + x / 2 ^ (8 - n)

/-- The S-box, inverse and affine map. -/
def sboxOf (x : Nat) : Nat :=
  let b := gfInv aesPoly x
  b ^^^ rotl8 b 1 ^^^ rotl8 b 2 ^^^ rotl8 b 3 ^^^ rotl8 b 4 ^^^ 0x63

def sboxTable : List Byte := (List.range 256).map (fun x => BitVec.ofNat 8 (sboxOf x))

def sbox (b : Byte) : Byte := sboxTable.getD b.toNat 0

/-- The inverse S-box: the byte whose S-box value is the given one. -/
def invSbox (b : Byte) : Byte := BitVec.ofNat 8 (sboxTable.findIdx (· == b))

def xorBytes (a b : List Byte) : List Byte := List.zipWith (· ^^^ ·) a b

/-- n more words of the key schedule; words latest first, i the number of the next word. -/
def aesExpandGo : Nat → Nat → List (List Byte) → List (List Byte)
  | 0, _, ws => ws
  | n + 1, i, ws =>
    let t := ws.headD []
    let t1 := if i % 8 = 0 then
        xorBytes ((t.drop 1 ++ t.take 1).map sbox) [BitVec.ofNat 8 (2 ^ (i / 8 - 1)), 0, 0, 0]
      else if i % 8 = 4 then t.map sbox else t
    aesExpandGo n (i + 1) (xorBytes (ws.getD 7 []) t1 :: ws)

/-- The fifteen round keys of a 32 B key. -/
def aesRoundKeys (key : List Byte) : List (List Byte) :=
  let k := slice key 0 32
  let ws0 := ((List.range 8).map (fun i => slice k (4 * i) 4)).reverse
  let ws := (aesExpandGo 52 8 ws0).reverse
  (List.range 15).map (fun r => (List.range 4).flatMap (fun i => ws.getD (4 * r + i) []))

def shiftRows (s : List Byte) : List Byte := (List.range 16).map (fun i => s.getD ((i + 4 * (i % 4)) % 16) 0)

def invShiftRows (s : List Byte) : List Byte := (List.range 16).map (fun i => s.getD ((i + 16 - 4 * (i % 4)) % 16) 0)

/-- A column map with coefficients c0 to c3 rotated along the rows. -/
def mixWith (c : List Nat) (s : List Byte) : List Byte :=
  (List.range 16).map (fun i =>
    BitVec.ofNat 8 ((List.range 4).foldl
      (fun acc j => acc ^^^ gfMul aesPoly (c.getD ((j + 4 - i % 4) % 4) 0) (s.getD (i / 4 * 4 + j) 0).toNat) 0))

def mixColumns : List Byte → List Byte := mixWith [2, 3, 1, 1]
def invMixColumns : List Byte → List Byte := mixWith [14, 11, 13, 9]

/-- Encryption of one block under round keys. -/
def aesEncryptWith (rk : List (List Byte)) (b : List Byte) : List Byte :=
  let s0 := xorBytes b (rk.headD [])
  let s1 := ((rk.drop 1).take 13).foldl (fun s k => xorBytes (mixColumns (shiftRows (s.map sbox))) k) s0
  xorBytes (shiftRows (s1.map sbox)) (rk.getD 14 [])

/-- Decryption of one block under round keys. -/
def aesDecryptWith (rk : List (List Byte)) (b : List Byte) : List Byte :=
  let s0 := (invShiftRows (xorBytes b (rk.getD 14 []))).map invSbox
  let s1 := ((rk.drop 1).take 13).reverse.foldl
    (fun s k => (invShiftRows (invMixColumns (xorBytes s k))).map invSbox) s0
  xorBytes s1 (rk.headD [])

/-! ### GCM (SP 800-38D) with a 96-bit nonce -/

def ghashMulGo : Nat → Nat → Nat → Nat → Nat
  | 0, _, _, z => z
  | n + 1, x, v, z =>
    ghashMulGo n x (if v % 2 = 1 then v / 2 ^^^ 0xE1000000000000000000000000000000 else v / 2)
      (if bit x n then z ^^^ v else z)

def ghashMul (x y : Nat) : Nat := ghashMulGo 128 x y 0

/-- The list cut into n pieces of 16 B, the last padded with zeros. -/
def blocks16 : Nat → List Byte → List (List Byte)
  | 0, _ => []
  | n + 1, l => slice l 0 16 :: blocks16 n (l.drop 16)

def blocksOf (l : List Byte) : List (List Byte) := blocks16 (ceilDiv l.length 16) l

def ghash (h : Nat) (bs : List (List Byte)) : Nat := bs.foldl (fun y b => ghashMul (y ^^^ beNat b) h) 0

/-- Counter-mode key stream over a text, counters from c. -/
def gctr (rk : List (List Byte)) (nonce : List Byte) : Nat → List (List Byte) → List Byte
  | _, [] => []
  | c, b :: bs => xorBytes b (aesEncryptWith rk (nonce ++ beBytes 4 c)) ++ gctr rk nonce (c + 1) bs

def gcmTag (rk : List (List Byte)) (nonce aad ct : List Byte) : List Byte :=
  let h := beNat (aesEncryptWith rk (zeros 16))
  let s := ghash h (blocksOf aad ++ blocksOf ct ++ [beBytes 8 (8 * aad.length) ++ beBytes 8 (8 * ct.length)])
  xorBytes (beBytes 16 s) (aesEncryptWith rk (nonce ++ beBytes 4 1))

/-- Ciphertext and tag. -/
def gcmEncrypt (key nonce aad pt : List Byte) : List Byte × List Byte :=
  let rk := aesRoundKeys key
  let ct := (gctr rk nonce 2 (blocksOf pt)).take pt.length
  (ct, gcmTag rk nonce aad ct)

/-- The plaintext where the tag authenticates; no byte otherwise (R323). -/
def gcmDecrypt (key nonce aad ct tag : List Byte) : Option (List Byte) :=
  let rk := aesRoundKeys key
  if gcmTag rk nonce aad ct = tag then some ((gctr rk nonce 2 (blocksOf ct)).take ct.length) else none

/-! ### KWP (SP 800-38F, RFC 5649) -/

/-- The inverse of the wrapping function: s steps from t = s down, integrity block a, registers r. -/
def kwpUnwrapGo (rk : List (List Byte)) (n : Nat) : Nat → Nat → List (List Byte) → Nat × List (List Byte)
  | 0, a, r => (a, r)
  | t + 1, a, r =>
    let i := t % n
    let b := aesDecryptWith rk (beBytes 8 (a ^^^ (t + 1)) ++ r.getD i [])
    kwpUnwrapGo rk n t (beNat (b.take 8)) (r.set i (b.drop 8))

/-- The plaintext of a KWP output under a 32 B key, or none where its integrity check fails. -/
def kwpUnwrap (key c : List Byte) : Option (List Byte) :=
  let rk := aesRoundKeys key
  let n := c.length / 8 - 1
  if c.length % 8 ≠ 0 || c.length < 16 then none
  else
    let (a, p) :=
      if n = 1 then let b := aesDecryptWith rk c; (beNat (b.take 8), b.drop 8)
      else
        let (a, r) := kwpUnwrapGo rk n (6 * n) (beNat (c.take 8))
          ((List.range n).map (fun i => slice c (8 * (i + 1)) 8))
        (a, r.flatten)
    let len := a % 2 ^ 32
    if a / 2 ^ 32 = 0xA65959A6 && decide (8 * (n - 1) < len) && decide (len ≤ 8 * n) && allZero (p.drop len)
    then some (p.take len) else none

/-! ### SHA-384 (FIPS 180-4), HMAC, HKDF -/

/-- The 64-bit words of a number, the topmost of n first. -/
def wordsOf (n x : Nat) : List (BitVec 64) := (List.range n).map (fun i => BitVec.ofNat 64 (x / 2 ^ (64 * (n - 1 - i))))

/-- The constants of the 80 rounds, sixteen to a number. -/
def shaRoundWords : List (BitVec 64) :=
  wordsOf 16 0x428a2f98d728ae227137449123ef65cdb5c0fbcfec4d3b2fe9b5dba58189dbbc3956c25bf348b53859f111f1b605d019923f82a4af194f9bab1c5ed5da6d8118d807aa98a303024212835b0145706fbe243185be4ee4b28c550c7dc3d5ffb4e272be5d74f27b896f80deb1fe3b1696b19bdc06a725c71235c19bf174cf692694 ++
  wordsOf 16 0xe49b69c19ef14ad2efbe4786384f25e30fc19dc68b8cd5b5240ca1cc77ac9c652de92c6f592b02754a7484aa6ea6e4835cb0a9dcbd41fbd476f988da831153b5983e5152ee66dfaba831c66d2db43210b00327c898fb213fbf597fc7beef0ee4c6e00bf33da88fc2d5a79147930aa72506ca6351e003826f142929670a0e6e70 ++
  wordsOf 16 0x27b70a8546d22ffc2e1b21385c26c9264d2c6dfc5ac42aed53380d139d95b3df650a73548baf63de766a0abb3c77b2a881c2c92e47edaee692722c851482353ba2bfe8a14cf10364a81a664bbc423001c24b8b70d0f89791c76c51a30654be30d192e819d6ef5218d69906245565a910f40e35855771202a106aa07032bbd1b8 ++
  wordsOf 16 0x19a4c116b8d2d0c81e376c085141ab532748774cdf8eeb9934b0bcb5e19b48a8391c0cb3c5c95a634ed8aa4ae3418acb5b9cca4f7763e373682e6ff3d6b2b8a3748f82ee5defb2fc78a5636f43172f6084c87814a1f0ab728cc702081a6439ec90befffa23631e28a4506cebde82bde9bef9a3f7b2c67915c67178f2e372532b ++
  wordsOf 16 0xca273eceea26619cd186b8c721c0c207eada7dd6cde0eb1ef57d4f7fee6ed17806f067aa72176fba0a637dc5a2c898a6113f9804bef90dae1b710b35131c471b28db77f523047d8432caab7b40c724933c9ebe0a15c9bebc431d67c49c100d4c4cc5d4becb3e42b6597f299cfc657e2a5fcb6fab3ad6faec6c44198c4a475817

/-- The first four words of the initial hash value, then the last four. -/
def shaStartAE : List (BitVec 64) × List (BitVec 64) :=
  (wordsOf 4 0xcbbb9d5dc1059ed8629a292a367cd5079159015a3070dd17152fecd8f70e5939,
   wordsOf 4 0x67332667ffc00b318eb44a8768581511db0c2e0d64f98fa747b5481dbefa4fa4)

/-- The XOR of a word turned right by two amounts with a third word. -/
def turns (x : BitVec 64) (m n : Nat) (y : BitVec 64) : BitVec 64 := x.rotateRight m ^^^ x.rotateRight n ^^^ y

/-- The message schedule as a window of sixteen words, oldest first: the word that enters as the oldest leaves. -/
def shaSlide (w : List (BitVec 64)) : List (BitVec 64) :=
  let low := w.getD 1 0
  let high := w.getD 14 0
  let next := turns high 19 61 (high >>> 6) + w.getD 9 0 + turns low 1 8 (low >>> 7) + w.headD 0
  w.tail ++ [next]

/-- One compression step. The working words are the last four of two sequences, latest first: what the standard calls a to d are
the last of `p`, e to h the last of `q`. -/
def shaStep (p q : List (BitVec 64)) (kw : BitVec 64) : List (BitVec 64) × List (BitVec 64) :=
  let e := q.headD 0
  let pick := q.getD 2 0 ^^^ (e &&& (q.getD 1 0 ^^^ q.getD 2 0))
  let a := p.headD 0
  let most := (a &&& (p.getD 1 0 ||| p.getD 2 0)) ||| (p.getD 1 0 &&& p.getD 2 0)
  let t := turns e 14 18 (e.rotateRight 41) + pick + q.getD 3 0 + kw
  ((most + turns a 28 34 (a.rotateRight 39) + t) :: p.take 3, (p.getD 3 0 + t) :: q.take 3)

/-- The steps of a block, one for each constant left. -/
def shaSteps : List (BitVec 64) → List (BitVec 64) → List (BitVec 64) × List (BitVec 64) → List (BitVec 64) × List (BitVec 64)
  | [], _, x => x
  | k :: ks, w, x => shaSteps ks (shaSlide w) (shaStep x.1 x.2 (k + w.headD 0))

/-- A message of whole blocks of 128 B, one block after the other. -/
def shaRun : Nat → List Byte → List (BitVec 64) × List (BitVec 64) → List (BitVec 64) × List (BitVec 64)
  | 0, _, x => x
  | n + 1, m, x =>
    let y := shaSteps shaRoundWords (wordsOf 16 (beNat (slice m 0 128))) x
    shaRun n (m.drop 128) (List.zipWith (· + ·) x.1 y.1, List.zipWith (· + ·) x.2 y.2)

/-- SHA-384 of a message, 48 B. -/
def sha384 (m : List Byte) : List Byte :=
  let p := m ++ [0x80] ++ zeros ((239 - m.length % 128) % 128) ++ beBytes 16 (8 * m.length)
  let (a, e) := shaRun (p.length / 128) p shaStartAE
  (a ++ e.take 2).flatMap (fun w => beBytes 8 w.toNat)

def hmac384 (key m : List Byte) : List Byte :=
  let k := padTo 128 (if 128 < key.length then sha384 key else key)
  sha384 (k.map (· ^^^ 0x5C) ++ sha384 (k.map (· ^^^ 0x36) ++ m))

/-- HKDF-SHA-384 (RFC 5869) of up to 48 B. -/
def hkdf384 (salt ikm info : List Byte) (n : Nat) : List Byte :=
  (hmac384 (hmac384 salt ikm) (info ++ [1])).take n

/-! ### P-384 -/

def p384P : Nat :=
  0xfffffffffffffffffffffffffffffffffffffffffffffffffffffffffffffffeffffffff0000000000000000ffffffff
def p384B : Nat :=
  0xb3312fa7e23ee7e4988e056be3f82d19181d9c6efe8141120314088f5013875ac656398d8a2ed19d2a85c8edd3ec2aef
def p384N : Nat :=
  0xffffffffffffffffffffffffffffffffffffffffffffffffc7634d81f4372ddf581a0db248b0a77aecec196accc52973
def p384G : Nat × Nat :=
  (0xaa87ca22be8b05378eb1c71ef320ad746e1d3b628ba79b9859f741e082542a385502f25dbf55296c3a545e3872760ab7,
   0x3617de4a96262c6f5d9e98bf9292dc29f8f41dbd289a147ce9da3113b5f0b8c00a60b1ce1d7e819d7a431d7c90ea0e5f)

/-- a ^ e mod m, over the lowest n bits of e. -/
def powMod (m : Nat) : Nat → Nat → Nat → Nat → Nat
  | 0, _, _, acc => acc
  | n + 1, a, e, acc => powMod m n (a * a % m) (e / 2) (if e % 2 = 1 then acc * a % m else acc)

/-- Inverse modulo a prime of 384 bits. -/
def invMod (m a : Nat) : Nat := powMod m 384 (a % m) (m - 2) (1 % m)

/-- Sum of two points; none is the point at infinity. -/
def ecAdd (x y : Option (Nat × Nat)) : Option (Nat × Nat) :=
  match x, y with
  | none, q => q
  | p, none => p
  | some (x1, y1), some (x2, y2) =>
    if x1 = x2 && (y1 + y2) % p384P = 0 then none
    else
      let l := if x1 = x2 then
          (3 * x1 * x1 + (p384P - 3)) * invMod p384P (2 * y1) % p384P
        else (y2 + p384P - y1) * invMod p384P (x2 + p384P - x1) % p384P
      let x3 := (l * l + 2 * p384P - x1 - x2) % p384P
      some (x3, (l * (x1 + p384P - x3) + p384P - y1) % p384P)

/-- k times a point, over the lowest n bits of k. -/
def ecMulGo : Nat → Nat → Option (Nat × Nat) → Option (Nat × Nat) → Option (Nat × Nat)
  | 0, _, _, acc => acc
  | n + 1, k, p, acc => ecMulGo n (k / 2) (ecAdd p p) (if k % 2 = 1 then ecAdd acc p else acc)

def ecMul (k : Nat) (p : Nat × Nat) : Option (Nat × Nat) := ecMulGo 384 k (some p) none

/-- The point of an uncompressed encoding of 97 B, where it lies on the curve. -/
def ecPoint (b : List Byte) : Option (Nat × Nat) :=
  let x := beNat (slice b 1 48)
  let y := beNat (slice b 49 48)
  if b.length = 97 && b.headD 0 == 0x04 && decide (x < p384P) && decide (y < p384P)
    && (y * y) % p384P == (x * x * x + (p384P - 3) * x + p384B) % p384P then some (x, y) else none

/-- ECDSA P-384 with SHA-384: public key of 97 B, message, signature r then s of 48 B each, big-endian. -/
def ecdsaVerify (pub m sig : List Byte) : Bool :=
  let r := beNat (slice sig 0 48)
  let s := beNat (slice sig 48 48)
  match ecPoint pub with
  | none => false
  | some q =>
    if r = 0 || s = 0 || decide (p384N ≤ r) || decide (p384N ≤ s) then false
    else
      let w := invMod p384N s
      let z := beNat (sha384 m)
      match ecAdd (ecMul (z * w % p384N) p384G) (ecMul (r * w % p384N) q) with
      | none => false
      | some (x, _) => x % p384N == r

/-- The x-coordinate of the ECDH product, 48 B (R334). -/
def ecdhX (priv : Nat) (pub : List Byte) : Option (List Byte) :=
  match ecPoint pub with
  | none => none
  | some q => (ecMul priv q).map (fun p => beBytes 48 p.1)

end Sys2Proof.Machine
end

