-- ==== Sys2Proof/Machine/Regs.lean ====
section
/-! DEFINITION. The bell-staged registers: which exist, their implemented bits and reset values (R402, R444, R449 to
R453 and the register tables of each chapter), and reading the values in force. Offsets are BAR0 offsets; those of PF1
are raised by 0x400_0000. -/

namespace Sys2Proof.Machine

/-- A bell-staged register: bits that can be written, whether they are RWS, and the reset value. -/
structure RegDesc where
  mask   : Word
  sticky : Bool
  reset  : Word
deriving DecidableEq, Repr

/-- The staged registers of the Keep and global region outside the channel pages (R106, R153, R349, R372, R390, R456). -/
def keepRegs : Tab RegDesc :=
  [(0x2004, ⟨0xC3FFFFFF, true, 0x80009896⟩),
   (0x2008, ⟨0xFFFF, true, 0x0EA6⟩),
   (0x3004, ⟨0xFFFFFFFF, true, 0x0002BF20⟩),
   (0x3008, ⟨0x80FFFFFF, true, 0x00C012C0⟩),
   (0x300C, ⟨0xFFFFFFFF, true, 0x33902A30⟩),
   (0x3010, ⟨0xFFFF0000, true, 0x31380000⟩),
   (0x3014, ⟨0xFFFFFFFF, true, 0x00A4CB80⟩),
   (0x3018, ⟨0xFFFFFFFF, true, 0x0003EB20⟩),
   (0x301C, ⟨0xFFFFFFFF, true, 0x2C882AF8⟩),
   (0x5004, ⟨0xFCFFFFFF, true, 0x00001D4C⟩),
   (0x7004, ⟨0x80FFFFFF, true, 0x80000800⟩),
   (0x8004, ⟨0xFFFF000F, true, 0x1D4C0004⟩),
   (0x40004, ⟨0xFFFFFFFF, true, 0x0400007D⟩),
   (0x40008, ⟨0xFFFFFFFF, true, 0x0040007D⟩),
   (0x4000C, ⟨0xFFFFFFFF, true, 0x00041D4C⟩),
   (0x40010, ⟨0xFFFFFFFF, true, 0x00031D4C⟩),
   (0x40014, ⟨0xFFFFFFFF, true, 0x00000040⟩),
   (0x40018, ⟨0xFFFFFFFF, true, 0x00007A12⟩),
   (0x4001C, ⟨0xFFFF001F, true, 0x0002001C⟩),
   (0x400004, ⟨0x3FFFFFFF, false, 0x02110410⟩),
   (0x400008, ⟨0xFFFFFFFF, false, 0x40404040⟩),
   (0x40000C, ⟨0xFFFFFFFF, false, 0x40404040⟩),
   (0x400010, ⟨0x0000FFFF, false, 0x00000400⟩),
   (0x4000004, ⟨0xFFFFFFFF, false, 0⟩),
   (0x4000008, ⟨0xFFFFFFFF, false, 0⟩),
   (0x400000C, ⟨0x8FFFFFFF, false, 0x04000000⟩)]

/-- The staged registers of a hot-swap channel page by page offset; `hum` for channels 32 and 33 (R373). -/
def chanRegs (hum : Bool) : Tab RegDesc :=
  [(0x004, ⟨0xFFFFFF00, true, 0xB7D44000⟩),
   (0x008, ⟨0xFFFFFFFF, true, 0x34BC2C88⟩),
   (0x00C, ⟨0xFFFFFFFF, true, 0x00200262⟩),
   (0x010, ⟨0xFFFFFFFF, true, if hum then 0x7D0001F4 else 0x3A9807D0⟩),
   (0x014, ⟨0xFFFFFFFF, true, if hum then 0x01F40BEC else 0x07D00BEC⟩),
   (0x020, ⟨0xFFFFFFFF, true, if hum then 0x75300004 else 0x23280001⟩),
   (0x024, ⟨0xFFFFFFFF, true, if hum then 0xFFFF0000 else 0x1D4C001E⟩),
   (0x028, ⟨0xFFFFFFFF, true, if hum then 0xFFFF0000 else 0x19640131⟩),
   (0x02C, ⟨0xFFFFFFFF, true, if hum then 0xFFFF0000 else 0x17700BEC⟩),
   (0x030, ⟨0xFFFFFFFF, true, 0xFFFF0000⟩),
   (0x034, ⟨0xFFFFFFFF, true, 0xFFFF0000⟩),
   (0x038, ⟨0xFFFFFFFF, true, 0xFFFF0000⟩),
   (0x03C, ⟨0xFFFFFFFF, true, 0xFFFF0000⟩)]

/-- The staged registers of a spire window by offset within the window (R453). -/
def spireRegs : Tab RegDesc :=
  [(0x010004, ⟨0xFFFFFFFF, false, 0x40201008⟩),
   (0x010008, ⟨0xCFFFFFFF, false, 0xC1000040⟩),
   (0x110004, ⟨0x0000FFFF, false, 0x0000007D⟩),
   (0x210004, ⟨0x00FF00FF, false, 0x00320019⟩),
   (0x310004, ⟨0x007FF07F, false, 0x00400020⟩),
   (0x310008, ⟨0xFFFFFFFF, false, 0x00007A12⟩),
   (0x31000C, ⟨0xFF07FFFF, false, 0x1000F424⟩),
   (0x410004, ⟨0x0000FFFF, false, 0x00001040⟩),
   (0x510004, ⟨0x0000001F, false, 0x0000000C⟩),
   (0x510008, ⟨0x800000FF, true, 0x8000000A⟩),
   (0x51000C, ⟨0xFFFFFFFF, true, 0x04819080⟩),
   (0x510020, ⟨0x0000037F, false, 0⟩),
   (0x510024, ⟨0xFFFFFFFF, false, 0⟩),
   (0x510028, ⟨0xFFFFFFFF, false, 0⟩),
   (0x51002C, ⟨0xFFFFFFFF, false, 0⟩),
   (0x510030, ⟨0xFFFFFFFF, false, 0⟩),
   (0x510034, ⟨0xFFFFFFFF, false, 0⟩),
   (0x510038, ⟨0xFFFFFFFF, false, 0⟩),
   (0x510040, ⟨0x0000037F, false, 0⟩),
   (0x510044, ⟨0xFFFFFFFF, false, 0⟩),
   (0x510048, ⟨0xFFFFFFFF, false, 0⟩),
   (0x51004C, ⟨0xFFFFFFFF, false, 0⟩),
   (0x510050, ⟨0xFFFFFFFF, false, 0⟩),
   (0x510054, ⟨0xFFFFFFFF, false, 0⟩),
   (0x510058, ⟨0xFFFFFFFF, false, 0⟩),
   (0x630004, ⟨0xFF00FFFF, false, 0x50001F40⟩),
   (0x630008, ⟨0xFFFFFFFF, false, 0x00401000⟩),
   (0x63000C, ⟨0xC000FFFF, false, 0x80000800⟩),
   (0x630010, ⟨0xFFFFFF00, false, 0x40EAE200⟩),
   (0x640004, ⟨0x00003FFF, true, 0x00000800⟩),
   (0x640008, ⟨0x0000FFFF, true, 0x00000040⟩)]

/-- Pages A (`b` false) and B of a port or of sub-port k, by page offset (R305, R451). -/
def portReg (sub : Nat) (pageB : Bool) (o : Nat) : Option RegDesc :=
  if pageB then
    if o = 0x004 then some ⟨0xFF, false, 0⟩
    else if 0x100 ≤ o && o < 0x300 && o % 4 == 0 then some ⟨0xFF003FFF, false, 0xFF000000⟩
    else none
  else if o = 0x004 then
    some (if sub = 0 then ⟨0xC7FFFFFF, false, 0x07FF0000⟩ else ⟨0x47FF00FF, false, 0x07FF0000⟩)
  else if o = 0x008 then some ⟨if sub = 0 then 0xFFFF0000 else 0, false, if sub = 0 then 0x08000000 else 0⟩
  else if o = 0x00C then some ⟨if sub = 0 then 0xFFFFFFFF else 0, false, if sub = 0 then 0x0C000800 else 0⟩
  else if 0x010 ≤ o && o < 0x090 && o % 4 == 0 then
    some (if o % 16 < 8 then ⟨0xFFFFFFFF, false, 0x64000000⟩ else ⟨0x00FFFFFF, false, 0x00100000⟩)
  else none

/-- The pages of a ring by page offset (R402). -/
def ringRegs : Tab RegDesc :=
  [(0x004, ⟨0xFFFFFFFF, false, 0⟩), (0x008, ⟨0xFFFFFFFF, false, 0⟩), (0x00C, ⟨0xFFFFFFFF, false, 0⟩),
   (0x010, ⟨0xFFFFFFFF, false, 0⟩), (0x014, ⟨0x8FFFFFFF, false, 0x06010010⟩)]

/-- Base offset of the pages of port n: page A at it, page B at + 0x1000 (R450). -/
def portBase (n : Nat) : Nat := 0x500000 + 0x2000 * n

/-- Base offset of the pages of port n, sub-port k; those of k = 0 are the port's own (R451). -/
def subBase (n k : Nat) : Nat := if k = 0 then portBase n else 0x580000 + 0x8000 * n + 0x2000 * k

/-- An offset with the aliases of sub-port 0 resolved (R451). -/
def canonOff (o : Nat) : Nat :=
  if 0x580000 ≤ o && o < 0x5C0000 && (o - 0x580000) % 0x8000 / 0x2000 == 0 then
    portBase ((o - 0x580000) / 0x8000) + o % 0x2000
  else o

/-- Base offset of a spire window (R453). -/
def spireBase (s : Nat) : Nat := 0x1000000 + s * 0xC00000

/-- The bell-staged register whose active view is at an offset (aliases resolved). -/
def cfgDesc (o : Nat) : Option RegDesc :=
  if 0x10000 ≤ o && o < 0x32000 then Tab.get (chanRegs (decide (0x30000 ≤ o))) (o % 0x1000)
  else if 0x401000 ≤ o && o < 0x402000 then
    if 0x401004 ≤ o && o < 0x401044 && o % 4 == 0 then
      some ⟨0xFFFFFFFF, false, if o < 0x40100C then 0 else 0xFFFFFFFF⟩
    else none
  else if 0x500000 ≤ o && o < 0x510000 then portReg 0 (o % 0x2000 / 0x1000 == 1) (o % 0x1000)
  else if 0x580000 ≤ o && o < 0x5C0000 then portReg ((o - 0x580000) % 0x8000 / 0x2000) (o % 0x2000 / 0x1000 == 1) (o % 0x1000)
  else if 0xC00000 ≤ o && o < 0xD00000 then Tab.get ringRegs (o % 0x1000)
  else if 0x1000000 ≤ o && o < 0x4000000 then Tab.get spireRegs ((o - 0x1000000) % 0xC00000)
  else Tab.get keepRegs o

/-- The pages that hold bell-staged fields, by page offset with aliases resolved (R449 to R453, R444). -/
def stagedPage (p : Nat) : Bool :=
  p % 0x1000 == 0 &&
  ((p == 0x2000 || p == 0x3000 || p == 0x5000 || p == 0x7000 || p == 0x8000 || p == 0x40000
      || p == 0x400000 || p == 0x401000 || p == 0x4000000)
   || (0x10000 ≤ p && p < 0x32000)
   || (0x500000 ≤ p && p < 0x510000)
   || (0x580000 ≤ p && p < 0x5C0000)
   || (0xC00000 ≤ p && p < 0xD00000)
   || (0x1000000 ≤ p && p < 0x4000000 &&
        (let w := (p - 0x1000000) % 0xC00000
         w == 0x010000 || w == 0x110000 || w == 0x210000 || w == 0x310000 || w == 0x410000 || w == 0x510000
           || w == 0x630000 || w == 0x640000)))

/-- Reset value of a staged register. -/
def cfgReset (o : Nat) : Word := ((cfgDesc o).map (·.reset)).getD 0

/-- The value in force of the register at an active offset. -/
def Dev.cfg (v : Dev) (o : Nat) : Word := Tab.getD v.regs.active o (cfgReset o)

/-- The staged value of the register at an active offset: the active value where nothing else is staged (R77). -/
def Dev.stagedCfg (v : Dev) (o : Nat) : Word := Tab.getD v.regs.staged o (v.cfg o)

/-- Bits `hi:lo` of a register in force. -/
def Dev.cfgBits (v : Dev) (o hi lo : Nat) : Nat := bits (v.cfg o).toNat hi lo

/-- Field of a spire's window: sub-block j, offset within the sub-block. -/
def Dev.spireCfg (v : Dev) (s j o hi lo : Nat) : Nat := v.cfgBits (spireBase s + j * 0x100000 + o) hi lo

/-- Field of a hot-swap channel page. -/
def Dev.chanCfg (v : Dev) (c o hi lo : Nat) : Nat := v.cfgBits (0x10000 + 0x1000 * c + o) hi lo

/-- Field of a ring page. -/
def Dev.ringCfg (v : Dev) (r o hi lo : Nat) : Nat := v.cfgBits (0xC00000 + 0x1000 * r + o) hi lo

/-- The device's own write of both views at once (R459). -/
def Dev.ownWrite (v : Dev) (o : Nat) (x : Word) : Dev :=
  { v with regs := { v.regs with active := Tab.set v.regs.active o x
                                 staged := Tab.del v.regs.staged o } }

/-- The staged value written without a check (the caller has looked at COMMIT_PENDING). -/
def Dev.stage (v : Dev) (o : Nat) (x : Word) : Dev :=
  { v with regs := { v.regs with staged := Tab.set v.regs.staged o x } }

def Dev.page (v : Dev) (p : Nat) : PageState := Tab.getD v.regs.pages p .reset

def Dev.setPage (v : Dev) (p : Nat) (x : PageState) : Dev :=
  { v with regs := { v.regs with pages := Tab.set v.regs.pages p x } }

/-- Whether an offset lies on a page. -/
def onPage (p o : Nat) : Bool := decide (p ≤ o) && decide (o < p + 0x1000)

/-- The staged values of a page become the values in force, all in one bell; the count advances (R75 to R77). -/
def Dev.applyPage (v : Dev) (p : Nat) : Dev :=
  let st := v.regs.staged.filter (fun e => onPage p e.1)
  let pg := v.page p
  { v with regs := { v.regs with
      active := st.foldl (fun a e => Tab.set a e.1 e.2) v.regs.active
      staged := v.regs.staged.filter (fun e => !onPage p e.1)
      pages := Tab.set v.regs.pages p { pg with due := none, count := pg.count + 1 } } }

end Sys2Proof.Machine
end

