-- ==== Sys2Proof/Machine/Ops.lean ====
section
/-! DEFINITION. Shared operations: the time base, free values, outputs, counters, interrupt vectors, the mode and the
fault collector's record keeping. -/

namespace Sys2Proof.Machine

/-- Apply a change to the device and leave the queue alone: the form of every meaning. -/
def State.on (s : State) (f : Dev → Dev) : Host.Outcome State Fault Refusal := .next { s with dev := f s.dev }

/-! ### Time (R4, R61, R63) -/

/-- Bells in a peal (R4). -/
def pealBells : Nat := 15625

/-- Bells in a second (R4). -/
def secondBells : Nat := 125 * pealBells

/-- The time stamp now (R63). -/
def Dev.stamp (v : Dev) : Nat := v.clk.bell * 512 + v.clk.ns

/-- Bits 15:0 of BELL_STEP_COUNT (R69). -/
def Dev.step16 (v : Dev) : BitVec 16 := v.chip.servo.stepCount.setWidth 16

/-- The time since the Keeps left HELD, in ns. -/
def Dev.mono (v : Dev) : Nat := v.clk.elapsed * 512 + v.clk.ns

/-- The stroke of the bell, 0 to 7 (R61). -/
def Dev.stroke (v : Dev) : Nat := v.clk.ns / 64

/-- Bells since the Keeps left HELD, the count durations are measured in (R71, R73). -/
def Dev.now (v : Dev) : Nat := v.clk.elapsed

/-- A bell count has been reached, or its boundary is the one that ends this bell (stroke 7 has come): work due at a
bell boundary may be commanded on either side of BELL_BOUNDARY (assumption log 11). -/
def Dev.atBell (v : Dev) (due : Nat) : Bool :=
  decide (due ≤ v.now) || (decide (due ≤ v.now + 1) && decide (448 ≤ v.clk.ns))

/-- Move the point within the bell forward, never back (assumption log 12). -/
def Dev.reachNs (v : Dev) (n : Nat) : Dev := { v with clk := { v.clk with ns := max v.clk.ns (min n 511) } }

/-! ### Free values and fresh names -/

/-- A fresh name for a context of the model. -/
def Dev.fresh (v : Dev) : Nat × Dev := (v.nextId, { v with nextId := v.nextId + 1 })

/-- Draw a free 64-bit value. -/
def Dev.free64 (v : Dev) : BitVec 64 × Dev := (Config.free64 v.freeTick, { v with freeTick := v.freeTick + 1 })

def Dev.free32 (v : Dev) : BitVec 32 × Dev := (Config.free32 v.freeTick, { v with freeTick := v.freeTick + 1 })

/-- Draw free bytes. -/
def Dev.freeBytes (v : Dev) (n : Nat) : List Byte × Dev :=
  ((List.range n).map (Config.freeByte v.freeTick), { v with freeTick := v.freeTick + 1 })

def Dev.freeBool (v : Dev) : Bool × Dev := (Config.freeBool v.freeTick, { v with freeTick := v.freeTick + 1 })

/-! ### Outputs -/

def Dev.emit (v : Dev) (o : Out) : Dev := { v with out := v.out ++ [o] }

def Dev.emitAll (v : Dev) (os : List Out) : Dev := { v with out := v.out ++ os }

/-! ### Spires and Keeps -/

def Dev.spire (v : Dev) (s : Nat) : SpireRec := Tab.getD v.chip.spires s .reset

def Dev.setSpire (v : Dev) (s : Nat) (r : SpireRec) : Dev :=
  { v with chip := { v.chip with spires := Tab.set v.chip.spires s r } }

/-- The mirror partner (R21). -/
def partner (s : Nat) : Nat := (s + 2) % 4

/-- Spire s executes work: in service (R345: a parked spire does not). -/
def Dev.spireUp (v : Dev) (s : Nat) : Bool := (v.spire s).state == .up

/-- Spire s is in P2: parked, or its cores not yet restarted (R345, R346). -/
def Dev.inP2 (v : Dev) (s : Nat) : Bool := (v.spire s).state == .parked || (v.spire s).state == .unparking

/-- Spire s is in service or parked: KEEP_MODE.SPIRE_UP (R455). -/
def Dev.spireShown (v : Dev) (s : Nat) : Bool := v.spireUp s || v.inP2 s

/-- The stack of spire s accepts mirror copies: it runs in P2 too (R345). -/
def Dev.stackUp (v : Dev) (s : Nat) : Bool :=
  (v.spire s).state == .up || (v.spire s).state == .parked || (v.spire s).state == .unparking

/-- The Headframe slice of a spire works: the spire is present, and the slice is not being reset (R268). -/
def Dev.sliceUp (v : Dev) (s : Nat) : Bool := v.stackUp s && !bit v.hf.sliceDown.toNat s

/-- One spire reaches another over the Headframe, through the slices of both (R10, R25, R32). -/
def Dev.reaches (v : Dev) (a b : Nat) : Bool := a == b || (v.sliceUp a && v.sliceUp b)

/-- The spire that now has the roles of s: s itself, or its partner while they are away (R26, R97, R345). -/
def Dev.roleOf (v : Dev) (s : Nat) : Nat :=
  if (v.spire s).rolesAway || !(v.spireUp s) then partner s else s

def Dev.keep (v : Dev) : KeepId → KeepRec
  | .A => v.chip.keeps.a
  | .B => v.chip.keeps.b

def Dev.setKeep (v : Dev) (k : KeepId) (r : KeepRec) : Dev :=
  match k with
  | .A => { v with chip := { v.chip with keeps := { v.chip.keeps with a := r } } }
  | .B => { v with chip := { v.chip with keeps := { v.chip.keeps with b := r } } }

def otherKeep : KeepId → KeepId
  | .A => .B
  | .B => .A

/-- A Keep takes part: neither isolated nor missing. -/
def Dev.keepSound (v : Dev) (k : KeepId) : Bool := !(v.keep k).isolated && !(v.keep k).missing

/-- The region number of a Keep in a SOURCE (R376). -/
def keepRegion : KeepId → Nat
  | .A => 4
  | .B => 5

/-- Bay b: spire of port A and of port B (R21). -/
def baySpire (b : Nat) : BayPort → Nat
  | .A => b % 4
  | .B => (b + 1) % 4

/-! ### Event counters (R434 to R436) -/

/-- The key of counter k of a block in a region. -/
def counterKey (region block k : Nat) : Nat := (region * 0x200 + block) * 8 + k

/-- A counter that has counted n more (R436). -/
def Counter.bump (c : Counter) (n : Nat) : Counter :=
  { c with value := BitVec.ofNat 48 (c.value.toNat + n), ovf := c.ovf || decide (2 ^ 48 ≤ c.value.toNat + n) }

/-- Count an event of block class `cls`, index `idx` in a region: every counter of the block that selects it. A
parked spire's counters hold (R438). -/
def Dev.count (v : Dev) (region cls idx ev n : Nat) : Dev :=
  if region < 4 && v.inP2 region then v
  else
  let lo := counterKey region (cls * 16 + idx) 0
  let e := cls * 1024 + ev
  { v with pmon := { v.pmon with counters := v.pmon.counters.map (fun c =>
      if decide (lo ≤ c.1) && decide (c.1 < lo + 8) && c.2.event.toNat == e then (c.1, c.2.bump n) else c) } }

/-- An element of a built-in chain is satisfied (R262, R435), counted at the Cheja engine of the spire whose work it is. -/
def Dev.chainDone (v : Dev) (s : Nat) : Dev := v.count s 0x08 0 0x008 1

/-- Count at a Keep block: both Keeps compute in lockstep, each sound one counts. -/
def Dev.countKeep (v : Dev) (cls ev n : Nat) : Dev :=
  let v1 := if v.keepSound .A then v.count 4 cls 0 ev n else v
  if v1.keepSound .B then v1.count 5 cls 0 ev n else v1

/-! ### Lifecycle (R332) -/

def Lifecycle.code : Lifecycle → Nat
  | .blank => 0
  | .provisioned => 1
  | .retired => 2

/-- The lifecycle state: the later one of both Keeps' fuses. -/
def Security.lifecycle (x : Security) : Lifecycle := if x.fuseA.code < x.fuseB.code then x.fuseB else x.fuseA

/-! ### MSI-X (R418, R428) -/

def Dev.func (v : Dev) : Pf → Func
  | .pf0 => v.ep.pf0
  | .pf1 => v.ep.pf1

def Dev.setFunc (v : Dev) (p : Pf) (f : Func) : Dev :=
  match p with
  | .pf0 => { v with ep := { v.ep with pf0 := f } }
  | .pf1 => { v with ep := { v.ep with pf1 := f } }

/-- A function may issue requests: Bus Master Enable set, not in D3hot, Memory Space enabled, no FLR (R428, R429). -/
def Func.canIssue (f : Func) : Bool := f.busMaster && f.memSpace && !f.d3hot && f.flr.isNone

/-- A vector is masked: bit 0 of its Vector Control word, set at reset (R429). -/
def Func.masked (f : Func) (n : Nat) : Bool := bit (Tab.getD f.table (4 * n + 3) 1).toNat 0

/-- Raise an MSI-X vector: sent, or held pending while it is masked, the function may not issue, or the endpoint is
frozen (R425, R428). -/
def Dev.raiseVec (v : Dev) (p : Pf) (n : Nat) : Dev :=
  let f := v.func p
  if f.canIssue && !v.ep.frozen && v.ep.link && !f.masked n then v.emit (.msix p n)
  else v.setFunc p { f with pba := if f.pba.contains n then f.pba else f.pba ++ [n] }

/-! ### Modes (R84) -/

def Dev.mode (v : Dev) : Mode := v.chip.mode.mode

def Dev.inMode (v : Dev) (ms : List Mode) : Bool := ms.contains v.mode

/-- SERVICE or DEGRADED: capsules are executed (R84). -/
def Dev.serving (v : Dev) : Bool := v.mode == .service || v.mode == .degraded

/-- STATUS[3:0] (R84, R88). -/
def Dev.status (v : Dev) : Nat :=
  match v.mode with
  | .held => 0x0
  | .boot => 1 + v.chip.boot.stage
  | .survey => 0x8
  | .service => 0x9
  | .degraded => 0xA
  | .drain => 0xB
  | .vault => 0xC
  | .fenced => 0xD

/-- An event that moves the mode is noted for the coming boundary (R87). -/
def Dev.modeEvent (v : Dev) (e : ModeEvent) : Dev :=
  { v with chip := { v.chip with mode := { v.chip.mode with
      events := if v.chip.mode.events.contains e then v.chip.mode.events else v.chip.mode.events ++ [e] } } }

/-- RoCEv2 transport and CM run (R84). -/
def Dev.transportOn (v : Dev) : Bool :=
  (v.mode == .survey || v.mode == .service || v.mode == .degraded || v.mode == .drain) && !v.chip.frozenIn

/-! ### Fault records (R376 to R382) -/

/-- A SOURCE value (R376). -/
def srcOf (type region inst : Nat) : BitVec 32 := BitVec.ofNat 32 (type * 2 ^ 22 + region * 2 ^ 16 + inst % 65536)

def srcType (s : BitVec 32) : Nat := s.toNat / 2 ^ 22
def srcRegion (s : BitVec 32) : Nat := s.toNat / 2 ^ 16 % 16
def srcInst (s : BitVec 32) : Nat := s.toNat % 65536

/-- The owning Keep of a hot-swap channel as a region (R350). -/
def chanRegion (c : Nat) : Nat := if c < 16 || c = 32 then 4 else 5

/-- The counted blocks of a region by block number (R434). -/
def blockOf (region block : Nat) : Bool :=
  if region < 4 then
    [0x10, 0x11, 0x20, 0x30, 0x40, 0x50, 0x51, 0x52, 0x53, 0x60, 0x70, 0x80, 0x90].contains block
  else if region < 6 then [0x100, 0x110].contains block
  else false

/-- BASE and CEILING of a known SOURCE; none when it is unknown (R376, R388 and the tables R217, R284, R371, R432,
R490). -/
def sourceClass (src : BitVec 32) : Option (Nat × Nat) :=
  let t := srcType src
  let r := srcRegion src
  let i := srcInst src
  let sp := decide (r < 4)
  let kp := r == 4 || r == 5
  let chip := r == 7
  let ok (c : Bool) (b m : Nat) : Option (Nat × Nat) := if c then some (b, m) else none
  if bits src.toNat 21 20 ≠ 0 then none
  else if t = 0x001 then ok sp 1 2
  else if t = 0x002 then ok sp 2 3
  else if t = 0x003 then ok sp 1 2
  else if t = 0x004 then ok sp 2 3
  else if t = 0x005 then ok (sp && i == r) 3 3
  else if t = 0x010 then ok (blockOf r (i / 64)) 1 3
  else if t = 0x011 then ok (blockOf r i) 3 3
  else if t = 0x020 then ok (sp && i == 0) 3 3
  else if t = 0x021 then ok (kp && i == 0) 3 3
  else if t = 0x022 then ok (chip && i == 0) 4 4
  else if t = 0x023 then ok (chip && decide (i < 4)) 4 4
  else if t = 0x024 then ok (kp && i == 0) 2 3
  else if t = 0x030 then ok (sp && decide (i < 32) && i / 8 == r) 2 3
  else if t = 0x040 then ok (sp && decide (i < 64) && (i / 2 + i % 2) % 4 == r) 0 2
  else if t = 0x041 then ok (chip && decide (i < 32)) 2 3
  else if t = 0x042 then ok (blockOf r (i / 64)) 0 0
  else if t = 0x050 || t = 0x051 || t = 0x052 then
    ok ((chip && decide (i < 32)) || (sp && i == 0xFFFF)) 1 3
  else if t = 0x053 then ok (chip && decide (i < 4096)) 0 0
  else if t = 0x054 then ok (chip && decide (i < 4096)) 2 2
  else if t = 0x055 then ok (chip && decide (i < 4096)) 0 0
  else if t = 0x056 then ok (sp && i == r) 0 0
  else if t = 0x060 || t = 0x061 then ok sp 1 2
  else if t = 0x062 then ok (sp && decide (i < 512) && i / 64 % 4 == r) 2 2
  else if t = 0x063 then ok (sp && decide (i < 8) && i / 2 == r) 0 0
  else if t = 0x070 then ok (decide (i < 34) && r == chanRegion i) 0 0
  else if t = 0x071 then ok (decide (i < 34) && r == chanRegion i) 2 2
  else if t = 0x072 then ok (decide (i < 34) && r == chanRegion i) 0 0
  else if t = 0x073 then ok (decide (i < 34) && r == chanRegion i) 0 0
  else if t = 0x074 then ok (decide (i < 34) && r == chanRegion i) 3 3
  else if t = 0x075 then ok (decide (i < 34) && r == chanRegion i) 3 3
  else if t = 0x076 then ok (decide (i < 2) && r == 4 + i) 2 2
  else if t = 0x080 then ok (kp && i == 0) 2 2
  else if t = 0x081 then ok (chip && i == 0) 4 4
  else if t = 0x082 then ok (chip && (decide (i < 16384) || i == 0xFFFF)) 2 2
  else if t = 0x083 then ok (kp && i == 0) 0 0
  else if t = 0x090 || t = 0x091 || t = 0x092 then ok (chip && i == 0) 0 0
  else if t = 0x0A0 then ok (chip && (decide (i < 6) || (decide (8 ≤ i) && decide (i < 12)))) 0 0
  else if t = 0x0A1 then ok (chip && (decide (i < 6) || (decide (8 ≤ i) && decide (i < 12)))) 4 4
  else if t = 0x0E0 || t = 0x0E1 || t = 0x0E6 then ok (kp && i == 0) 0 0
  else if t = 0x0E2 then ok (kp && i == 0) 1 1
  else if t = 0x0E7 then ok (kp && i == 0) 2 2
  else if t = 0x0E3 || t = 0x0E4 || t = 0x0E5 || t = 0x0E8 then ok (kp && decide (i < 2)) 0 0
  else none

/-- The record of a known source with no event yet. -/
def newRecord (src : BitVec 32) (base ceiling : Nat) : FaultRec :=
  ⟨src, false, false, base, base, false, false, false, ceiling, 0, 0, 0, 0xFFFF, 0, 0, 0, 0, 0, 0, 0, 0, 0, 0, 0,
   none, none, false, false, none, []⟩

/-- The record of a source: its stored record, or a fresh one where the source is known; none when unknown. -/
def Dev.faultRec (v : Dev) (src : BitVec 32) : Option FaultRec :=
  match Tab.get v.faults src.toNat with
  | some r => some r
  | none => (sourceClass src).map (fun c => newRecord src c.1 c.2)

/-- N of a class in force (R390). -/
def Dev.escN (v : Dev) (c : Nat) : Nat := v.cfgBits (0x40004 + 4 * c) 31 16

/-- W of a class in force, in peals (R390). -/
def Dev.escW (v : Dev) (c : Nat) : Nat := v.cfgBits (0x40004 + 4 * c) 15 0

/-- Counting of an event at bell n (R380, R392); a rise by counting takes effect at the next bell. -/
def FaultRec.counted (r : FaultRec) (n : Nat) (esc w : Nat) (stamp : Nat) : FaultRec :=
  if 4 ≤ r.cls then
    let r0 := if r.winCount = 0 then { r with winStart := stamp, winOpenBell := n } else r
    { r0 with winCount := satAdd 0xFFFF r0.winCount 1 }
  else
    let opened := r.winCount == 0 || decide (r.winOpenBell + max (w * pealBells) 1 ≤ n)
    let r1 := if opened then { r with winStart := stamp, winOpenBell := n, winCount := 0 } else r
    let r2 := { r1 with winCount := satAdd 0xFFFF r1.winCount 1 }
    if esc ≠ 0xFFFF && decide (max esc 1 ≤ r2.winCount) && r2.escBell != some n then
      if r2.cls < r2.ceiling then
        { r2 with rising := some (r2.cls + 1), escalations := satAdd 0xFFFF r2.escalations 1,
                  escBell := some n, winCount := 0 }
      else if r2.cls = 3 then { r2 with heldOut := true, winCount := 0 }
      else { r2 with winCount := 0 }
    else r2

/-- An event applied to a record (R378, R380): the first after a clear fills the capture; an own class above CLASS
sets it at once; a reaction becomes due for the next bell when CLASS is reached or, at SEVERE, again. -/
def FaultRec.event (r : FaultRec) (e : FaultEv) (n : Nat) (esc w : Nat → Nat) : FaultRec :=
  let own := (e.info.cls).getD r.base
  let first := !r.captured
  let r1 := if first then
      { r with captured := true, master := e.info.master, access := e.info.access, firstStamp := e.stamp,
               address := e.info.address, detail0 := e.info.detail0, detail1 := e.info.detail1,
               detail2 := e.info.detail2, firstStep := e.step, injected := e.injected }
    else { r with overflow := true }
  let r2 := { r1 with count := satAdd 0xFFFF r1.count 1, lastStamp := e.stamp, lastStep := e.step, recovered := false }
  let r3 :=
    if r2.cls < own then
      { r2 with cls := own, escalations := satAdd 0xFFFF r2.escalations 1, react := true }
    else if r2.cls = 3 then
      if r2.heldOut || r2.resetDue then r2 else { r2 with react := true }
    else if first && decide (2 ≤ r2.cls) then { r2 with react := true }
    else r2
  r3.counted n (esc r3.cls) (w r3.cls) e.stamp

/-- Fault vector and FC_LAST when a record captures or its class changes (R387, R391). -/
def Dev.noteFault (v : Dev) (old new : FaultRec) : Dev :=
  let v1 := if old.cls != new.cls || (new.captured && !old.captured) then { v with fcLast := new.source } else v
  if old.cls != new.cls then v1.raiseVec .pf0 256 else v1

/-- An event at a fault source is recorded and counted (R378, R380). While a FAULT_CLEAR waits for the next bell, an
event that does not raise the class is counted only in the cleared record (R382). An unknown source has no record. -/
def Dev.faultIn (v : Dev) (f : FaultInfo) (injected : Bool) : Dev :=
  match v.faultRec f.source with
  | none => v
  | some r =>
    let e : FaultEv := ⟨f, v.stamp, v.step16, injected⟩
    let keep (x : FaultRec) : FaultRec := { x with recent := r.recent ++ [e] }
    if r.clearing.isSome && decide (f.cls.getD r.base ≤ r.cls) then
      { v with faults := Tab.set v.faults f.source.toNat (keep r) }
    else
      let r1 := r.event e v.now v.escN v.escW
      ({ v with faults := Tab.set v.faults f.source.toNat (keep r1) }).noteFault r r1

/-- The device's own event at a source, of the source's BASE class. -/
def Dev.fault (v : Dev) (type region inst : Nat) (d0 d1 d2 : Nat) : Dev :=
  v.faultIn ⟨srcOf type region inst, none, 0xFFFF, 0, 0, BitVec.ofNat 32 d0, BitVec.ofNat 32 d1, BitVec.ofNat 32 d2⟩ false

/-- As `fault`, with an address (LBA or byte address) and access type. -/
def Dev.faultAt (v : Dev) (type region inst : Nat) (access addr d0 d1 d2 : Nat) : Dev :=
  v.faultIn ⟨srcOf type region inst, none, 0xFFFF, BitVec.ofNat 8 access, BitVec.ofNat 64 addr, BitVec.ofNat 32 d0,
    BitVec.ofNat 32 d1, BitVec.ofNat 32 d2⟩ false

/-- The region of the Keep that holds the active endpoint (R432). -/
def Dev.epRegion (v : Dev) : Nat := if v.ep.keepB then 5 else 4

/-- A record reset to BASE, its counts cleared (R382). -/
def FaultRec.cleared (r : FaultRec) : FaultRec :=
  { r with cls := r.base, count := 0, winCount := 0, escalations := 0, captured := false, overflow := false,
           injected := false, recovered := false, rising := none, react := false, clearing := none, recent := [],
           escBell := none }

/-- The reset that SEVERE calls for has completed (R379): CLASS returns to BASE; where BASE is SEVERE, RECOVERED. -/
def FaultRec.resetDone (r : FaultRec) : FaultRec :=
  if r.cls = 3 then
    if r.base = 3 then { r with recovered := true, resetDue := false, winCount := 0 }
    else { r with cls := r.base, winCount := 0, resetDue := false }
  else r

/-- FAULT_N is low (R387). -/
def Dev.faultN (v : Dev) : Bool :=
  v.mode == .fenced || v.faults.any (fun e => e.2.captured && (e.2.cls == 4 || (e.2.cls == 3 && !e.2.recovered)))

/-- ALERT_N is low (R387). -/
def Dev.alertN (v : Dev) : Bool :=
  v.faults.any (fun e => e.2.captured && bit (v.cfg 0x4001C).toNat e.2.cls)

/-! ### Recovery leases (R383) -/

/-- A recovery lease taken by a level, with its cap (R383). -/
def Dev.takeRecov (v : Dev) (l : LeaseRef) (due : Nat) : Dev :=
  { v with recov := v.recov.filter (fun e => e.1 != l) ++ [(l, due)] }

def Dev.dropRecov (v : Dev) (l : LeaseRef) : Dev := { v with recov := v.recov.filter (fun e => e.1 != l) }

/-! ### Parts and exposure (R47, R55, R56) -/

/-- The exposure argument bit of a part, if its fault exposes data (R55, R124). -/
def exposureBit : Part → Option Nat
  | .spire s => some (2 ^ s.val)
  | .hum _ => some 16
  | .keep _ => some 32
  | .bank s _ => some (2 ^ s.val)
  | _ => none

end Sys2Proof.Machine
end

