-- ==== Sys2Proof/Machine/Operands.lean ====
section
/-! DEFINITION. Reading the operands: fields of a Floder packet's 48 parameter bytes (R393), of a claim descriptor
(R109) and of the other byte layouts that commands carry, and the table of Floder opcodes (R394, R412). -/

namespace Sys2Proof

/-- Parameter byte n (R393). -/
def Packet.u8 (p : Packet) (n : Nat) : Nat := Machine.field p.params n 1
def Packet.u16 (p : Packet) (n : Nat) : Nat := Machine.field p.params n 2
def Packet.u32 (p : Packet) (n : Nat) : Nat := Machine.field p.params n 4
def Packet.u64 (p : Packet) (n : Nat) : Nat := Machine.field p.params n 8

/-- The first n bytes of the data area of an In command. -/
def Packet.bytes (p : Packet) (n : Nat) : List Byte := Machine.slice p.data 0 n

def Packet.fence (p : Packet) : Bool := Machine.bit p.flags.toNat 0
def Packet.noInt (p : Packet) : Bool := Machine.bit p.flags.toNat 1

/-- A packet read from its 64 B (R393), with no data area yet. -/
def readPacket (src : Source) (b : List Byte) : BitVec 16 × Packet :=
  (BitVec.ofNat 16 (Machine.field b 0 2),
   { src := src, tag := BitVec.ofNat 16 (Machine.field b 2 2), flags := BitVec.ofNat 8 (Machine.field b 4 1),
     dataLen := BitVec.ofNat 24 (Machine.field b 5 3), dataPtr := BitVec.ofNat 64 (Machine.field b 8 8), params := Machine.slice b 16 48, data := [], at_ := 0 })

/-- Flag bits of a capsule (R117). -/
def Capsule.inline (c : Capsule) : Bool := Machine.bit c.flags.toNat 0
def Capsule.expect (c : Capsule) : Bool := Machine.bit c.flags.toNat 1
def Capsule.crc (c : Capsule) : Bool := Machine.bit c.flags.toNat 2
def Capsule.cmdClass (c : Capsule) : Nat := c.cls.toNat % 8

/-- The capsule in the first 64 B of a message, little-endian (R117). -/
def Capsule.read (b : List Byte) : Capsule where
  flags    := BitVec.ofNat 8 (Machine.field b 1 1)
  cls      := BitVec.ofNat 8 (Machine.field b 2 1)
  rsvd3    := BitVec.ofNat 8 (Machine.field b 3 1)
  tally    := BitVec.ofNat 32 (Machine.field b 4 4)
  cmdTag   := BitVec.ofNat 32 (Machine.field b 8 4)
  hostCrc  := BitVec.ofNat 32 (Machine.field b 12 4)
  key      := BitVec.ofNat 128 (Machine.field b 16 16)
  offset   := BitVec.ofNat 64 (Machine.field b 32 8)
  length   := BitVec.ofNat 32 (Machine.field b 40 4)
  hostRkey := BitVec.ofNat 32 (Machine.field b 44 4)
  hostVa   := BitVec.ofNat 64 (Machine.field b 48 8)
  rsvd56   := BitVec.ofNat 64 (Machine.field b 56 8)

/-- The 64 B of a capsule with its opcode (R117). -/
def Capsule.bytes (op : Byte) (c : Capsule) : List Byte :=
  [op, c.flags, c.cls, c.rsvd3] ++ Machine.leBytes 4 c.tally.toNat ++ Machine.leBytes 4 c.cmdTag.toNat
    ++ Machine.leBytes 4 c.hostCrc.toNat ++ Machine.leBytes 16 c.key.toNat ++ Machine.leBytes 8 c.offset.toNat
    ++ Machine.leBytes 4 c.length.toNat ++ Machine.leBytes 4 c.hostRkey.toNat ++ Machine.leBytes 8 c.hostVa.toNat
    ++ Machine.leBytes 8 c.rsvd56.toNat

/-- The capsule, opcode and inline payload of a message (R117). -/
def Delivered.cap (d : Delivered) : Capsule := Capsule.read d.bytes
def Delivered.opcode (d : Delivered) : Byte := BitVec.ofNat 8 (Machine.field d.bytes 0 1)
def Delivered.payload (d : Delivered) : List Byte := d.bytes.drop 64

/-- The fields of the VXP join block in the private data of a REQ (R221). -/
def CmReq.magic (r : CmReq) : BitVec 32 := BitVec.ofNat 32 (Machine.field r.priv 0 4)
def CmReq.version (r : CmReq) : Byte := BitVec.ofNat 8 (Machine.field r.priv 4 1)
def CmReq.notifyCount (r : CmReq) : Byte := BitVec.ofNat 8 (Machine.field r.priv 5 1)
def CmReq.notifyStrokes (r : CmReq) : BitVec 16 := BitVec.ofNat 16 (Machine.field r.priv 6 2)
/-- Bytes 8 to 9: bits 15:13 RSVD, 12:0 SESSION_ID. -/
def CmReq.sessionWord (r : CmReq) : BitVec 16 := BitVec.ofNat 16 (Machine.field r.priv 8 2)
def CmReq.rsvd10 (r : CmReq) : BitVec 16 := BitVec.ofNat 16 (Machine.field r.priv 10 2)
def CmReq.ringRkey (r : CmReq) : BitVec 32 := BitVec.ofNat 32 (Machine.field r.priv 12 4)
def CmReq.cookie (r : CmReq) : BitVec 64 := BitVec.ofNat 64 (Machine.field r.priv 16 8)
def CmReq.ringVa (r : CmReq) : BitVec 64 := BitVec.ofNat 64 (Machine.field r.priv 24 8)
def CmReq.ringEntries (r : CmReq) : BitVec 32 := BitVec.ofNat 32 (Machine.field r.priv 32 4)
def CmReq.rsvd36 (r : CmReq) : BitVec 32 := BitVec.ofNat 32 (Machine.field r.priv 36 4)
/-- The other bytes of the private data are all 0. -/
def CmReq.tailZero (r : CmReq) : Bool := Machine.allZero (r.priv.drop 40)

/-- The same message, whenever it was received. -/
def Delivered.same (a b : Delivered) : Bool := { a with at_ := b.at_ } == b

def Packet.same (a b : Packet) : Bool := { a with at_ := b.at_ } == b

namespace Machine

/-- The kind of a Floder opcode (R412). -/
inductive OpKind where
  | r
  | w
  | x
deriving DecidableEq, Repr

/-- The data area an opcode needs (R394). -/
inductive DataNeed where
  | nothing
  | input (n : Nat)
  | output (n : Nat)
deriving DecidableEq, Repr

/-- Opcodes without a size that depends on parameters (R412, R263, R328, R340, R209). -/
def fixedOps : List (Nat × OpKind × DataNeed) :=
  [(0x0001, .r, .output 64), (0x0002, .r, .nothing), (0x0020, .x, .input 234), (0x0021, .x, .input 96),
   (0x0022, .r, .output 113), (0x0100, .r, .nothing), (0x0101, .x, .nothing), (0x0102, .x, .nothing),
   (0x0103, .x, .nothing), (0x0104, .w, .nothing), (0x0105, .x, .nothing), (0x0106, .x, .nothing),
   (0x0107, .x, .nothing), (0x0108, .x, .nothing), (0x0201, .w, .input 64), (0x0202, .r, .output 64),
   (0x0203, .r, .nothing), (0x0204, .w, .nothing), (0x0301, .w, .input 104), (0x0302, .w, .nothing),
   (0x0303, .r, .nothing), (0x0304, .x, .nothing), (0x0305, .w, .nothing), (0x0401, .w, .nothing),
   (0x0402, .w, .nothing), (0x0403, .w, .nothing), (0x0404, .r, .nothing), (0x0410, .w, .nothing),
   (0x0411, .w, .nothing), (0x0501, .w, .nothing), (0x0502, .r, .nothing), (0x0510, .w, .nothing),
   (0x0511, .w, .nothing), (0x0512, .r, .nothing), (0x0520, .w, .nothing), (0x0521, .w, .nothing),
   (0x0530, .w, .nothing), (0x0532, .w, .nothing), (0x0533, .w, .nothing), (0x0534, .w, .nothing),
   (0x0535, .w, .nothing), (0x0540, .w, .nothing), (0x0541, .r, .output 48), (0x0601, .w, .nothing),
   (0x0602, .r, .nothing), (0x0603, .r, .nothing), (0x0701, .r, .output 64), (0x0702, .w, .nothing),
   (0x0704, .w, .nothing), (0x0801, .w, .input 1), (0x0802, .x, .nothing), (0x0803, .w, .nothing),
   (0x0804, .r, .nothing), (0x0901, .w, .nothing), (0x0902, .w, .nothing), (0x0A01, .x, .output 32)]

/-- Kind and data of an opcode; none when it is not listed. DEBUG_SET reads its signature only where one is sent
(R340). -/
def opInfo (op : Nat) (p : Packet) : Option (OpKind × DataNeed) :=
  if op = 0x0531 then some (.w, .input (64 * p.u8 2))
  else if op = 0x0604 then some (.r, .output (32 * p.u32 4))
  else if op = 0x0703 then some (.r, .output (4 * p.u16 4))
  else if op = 0x0A02 then some (.x, if p.dataLen = 0 then .nothing else .input 96)
  else (fixedOps.find? (fun e => e.1 == op)).map (·.2)

/-- A claim descriptor read from its 64 B, with its claim number, and whether every RSVD bit is 0 (R109). -/
structure ClaimParse where
  id    : Nat
  desc  : ClaimDesc
  rsvd0 : Bool
deriving DecidableEq, Repr

end Machine

end Sys2Proof
end

