-- ==== Sys2Proof/Machine/Cipher.lean ====
section
/-! DEFINITION. The cipher complex of a spire: its cores and its scheduler, the mask generator, and the masked key copies
(R12, R308, R309, R311, R312). -/

namespace Sys2Proof.Machine

def Dev.cipher (v : Dev) (s : Nat) : Cipher := Tab.getD v.ciphers s .reset

def Dev.setCipher (v : Dev) (s : Nat) (c : Cipher) : Dev := { v with ciphers := Tab.set v.ciphers s c }

/-! ### The mask generator (R311, R312) -/

/-- Bytes drawn from a spire's mask generator. -/
def Cipher.draw (c : Cipher) (n : Nat) : List Byte × Cipher :=
  ((List.range n).map (fun i => Config.maskByte c.mask.seed (c.mask.drawn + i)), { c with mask := { c.mask with drawn := c.mask.drawn + n } })

/-- A mask generator is reseeded from the root (R312). -/
def Dev.reseedMask (v : Dev) (s : Nat) : Dev :=
  let (x, v1) := v.free64
  v1.setCipher s { v1.cipher s with mask := ⟨x, 0, v1.now⟩ }

/-! ### Key copies (R311, R316) -/

/-- A key split into two shares with a fresh mask. -/
def Cipher.addCopy (c : Cipher) (slot : Nat) (key : List Byte) : Cipher :=
  let (m, d) := c.draw key.length
  { d with copies := d.copies.filter (fun k => k.slot != slot) ++ [⟨slot, m, xorBytes key m⟩] }

/-- A copy re-shared: both shares take the same fresh mask. -/
def Cipher.reshareOne (c : Cipher) (k : KeyCopy) : Cipher :=
  let (m, d) := c.draw k.a.length
  { d with copies := d.copies ++ [⟨k.slot, xorBytes k.a m, xorBytes k.b m⟩] }

/-- Every copy of a spire is re-shared (R311). -/
def Cipher.reshare (c : Cipher) : Cipher := c.copies.foldl Cipher.reshareOne { c with copies := [] }

/-- The true value of a copy. -/
def KeyCopy.value (k : KeyCopy) : List Byte := xorBytes k.a k.b

/-- The key that the cores of a spire work with: the value of the shares it holds for the slot. A spire that has none yet is sent
the Keeps' copy. -/
def Dev.coreKey (v : Dev) (s slot : Nat) : List Byte :=
  match (v.cipher s).copies.find? (fun k => k.slot == slot) with
  | some k => k.value
  | none => (Tab.getD v.keySlots slot KeySlot.reset).key

/-- Masked copies of a key go to the spires that hold copies (R316). -/
def Dev.sendCopies (v : Dev) (slot : Nat) (key : List Byte) : Dev :=
  [0, 1, 2, 3].foldl (fun x s => if (x.spire s).keyCopies then x.setCipher s ((x.cipher s).addCopy slot key) else x) v

/-- The copies of a slot are zeroized in every spire (R316). -/
def Dev.dropSlotCopies (v : Dev) (slot : Nat) : Dev :=
  { v with ciphers := v.ciphers.map (fun (e : Nat × Cipher) =>
      (e.1, { e.2 with copies := e.2.copies.filter (fun k => k.slot != slot) })) }

/-- The copies of a spire are gone. -/
def Dev.dropCopiesOf (v : Dev) (s : Nat) : Dev := v.setCipher s { v.cipher s with copies := [] }

/-- A spire, or its cipher complex, begins anew: no scheduler state, a mask generator seeded from the root, and with `keys` the
copies of every loaded slot (R95, R311, R312, R316). The work it was given waits on (R96). -/
def Dev.startCipher (v : Dev) (s : Nat) (keys : Bool) (queue : List CipherJob) : Dev :=
  let v1 := (v.setCipher s { Cipher.reset with queue := queue }).reseedMask s
  if keys then
    v1.keySlots.foldl (fun x (e : Nat × KeySlot) =>
      if e.2.state == .empty then x else x.setCipher s ((x.cipher s).addCopy e.1 e.2.key)) v1
  else v1

/-- The mask generators and key copies at a peal boundary (R311, R312). -/
def Dev.cipherPeal (v : Dev) : Dev :=
  [0, 1, 2, 3].foldl (fun x s =>
    if (x.spire s).keyCopies then
      let y := x.reseedMask s
      y.setCipher s (y.cipher s).reshare
    else x) v

/-! ### The scheduler (R12, R308, R309, R331) -/

/-- Deficit round robin over the names that have work, with their weights: the name served and the deficits after it. The
name now served goes on while its deficit lasts; the next one then gains its weight. Names of weight 0 are served, in
turn, only when no other has work. -/
def drr (work : List (Nat × Nat)) (cur : Nat) (deficit : Tab Nat) : Option (Nat × Tab Nat) :=
  let nz := work.filter (fun e => e.2 != 0)
  let after (l : List (Nat × Nat)) : Option (Nat × Nat) := (l.find? (fun e => decide (cur < e.1))).orElse (fun _ => l.head?)
  let kept := deficit.filter (fun e => nz.any (fun w => w.1 == e.1))
  let have_ := Tab.getD kept cur 0
  if nz.any (fun e => e.1 == cur) && have_ != 0 then some (cur, Tab.set kept cur (have_ - 1))
  else match after nz with
    | some (n, w) => some (n, Tab.set kept n (Tab.getD kept n 0 + w - 1))
    | none => (after work).map (fun e => (e.1, kept))


/-- The cores that are not quarantined, and of them the commit gang: the four highest (R308). -/
def healthyCores (quarantined : BitVec 12) : List Nat := (List.range 12).filter (fun c => !quarantined.getLsbD c)
def commitGang (quarantined : BitVec 12) : List Nat := (healthyCores quarantined).drop ((healthyCores quarantined).length - 4)

/-- The cores that serve a level: the gang commit-path encryption, all at once; the others arriving messages; and those, with the
gang's cores in pieces after them, the rest (R308, R309). -/
def levelCores (quarantined : BitVec 12) (level : Nat) : List Nat :=
  let gang := commitGang quarantined
  let rest := (healthyCores quarantined).filter (fun c => !gang.contains c)
  if level = 1 then gang else if level = 2 then rest else rest ++ gang

/-- AES blocks of a grain: its 256 of data, the hash subkey and the mask of the tag (R322; DEDUCED, assumption log 88). -/
def blocksPerGrain : Nat := 258

/-- One grain is served: work other than the gang's goes to the core after the last one, round robin, and every AES block draws 256
bits from the mask generator (R12, R308, R311). -/
def Cipher.serve (c : Cipher) (quarantined : BitVec 12) (level : Nat) : Cipher :=
  let cores := levelCores quarantined level
  let next := ((cores.find? (fun x => decide (c.core < x))).orElse (fun _ => cores.head?)).getD c.core
  { c with core := if level = 1 then c.core else next
           mask := { c.mask with drawn := c.mask.drawn + 32 * blocksPerGrain } }

/-- Weights of levels 3 and 4 on a spire (R309, R329). -/
def Dev.readWeight (v : Dev) (s : Nat) : Nat := v.spireCfg s 4 0x10004 7 0
def Dev.maintWeight (v : Dev) (s : Nat) : Nat := v.spireCfg s 4 0x10004 15 8

/-- The level that is served next, of those that have work, and the complex after the choice: levels 1 and 2 in strict priority,
then deficit round robin in grains (R309, R331). -/
def Cipher.nextLevel (c : Cipher) (wRead wMaint : Nat) (has : Nat → Bool) : Option (Nat × Cipher) :=
  if has 1 then some (1, c)
  else if has 2 then some (2, c)
  else
    match drr ((if has 3 then [(3, wRead)] else []) ++ (if has 4 then [(4, wMaint)] else [])) c.turn c.deficit with
    | some (l, d) => some (l, { c with turn := l, deficit := d })
    | none => none

/-- The complex of a spire works: the spire does, and its block is not being reset (R96). -/
def Dev.cipherUp (v : Dev) (s : Nat) : Bool := !(v.spire s).resets.contains 0x60

/-- Grains of one level served while nothing else waits. -/
def Cipher.serveAll (wRead wMaint : Nat) (quarantined : BitVec 12) (level : Nat) : Nat → Cipher → Cipher
  | 0, c => c
  | n + 1, c =>
    match c.nextLevel wRead wMaint (fun l => l == level) with
    | some (_, d) => Cipher.serveAll wRead wMaint quarantined level n (d.serve quarantined level)
    | none => c

def Dev.serveCipher (v : Dev) (s level n : Nat) : Dev :=
  v.setCipher s (Cipher.serveAll (v.readWeight s) (v.maintWeight s) (v.spire s).cores level n (v.cipher s))

/-- Work is offered to the complex of a spire: it is served at once, or while the complex is being reset it waits (R96, R309). The
flag says that the work goes on now. -/
def Dev.offerCipher (v : Dev) (s level n : Nat) (w : CipherWork) : Bool × Dev :=
  let c := v.cipher s
  if n = 0 then (true, v)
  else if v.cipherUp s then (true, v.serveCipher s level n)
  else if c.queue.any (fun j => j.work == w) then (false, v)
  else (false, v.setCipher s { c with queue := c.queue ++ [⟨level, n, w⟩] })

/-- One grain of the work that waits is served: the first of its level, which then stands behind the others of it, round robin
(R12, R309). Work whose last grain it was is done. -/
def Cipher.step (c : Cipher) (wRead wMaint : Nat) (quarantined : BitVec 12) : Option (Option CipherWork × Cipher) :=
  match c.nextLevel wRead wMaint (fun l => c.queue.any (fun j => j.level == l)) with
  | none => none
  | some (l, d) =>
    match d.queue.find? (fun j => j.level == l) with
    | none => none
    | some j =>
      let rest := dropFirst (fun x => x.work == j.work) d.queue
      let e := { d with queue := if j.grains ≤ 1 then rest else rest ++ [{ j with grains := j.grains - 1 }] }.serve quarantined l
      some (if j.grains ≤ 1 then some j.work else none, e)

/-- The work that waits is served grain by grain: what is done, in order, and the complex after it. -/
def Cipher.drain (wRead wMaint : Nat) (quarantined : BitVec 12) : Nat → Cipher → List CipherWork × Cipher
  | 0, c => ([], c)
  | n + 1, c =>
    match c.step wRead wMaint quarantined with
    | none => ([], c)
    | some (w, d) =>
      let (ws, e) := Cipher.drain wRead wMaint quarantined n d
      ((match w with | some x => [x] | none => []) ++ ws, e)

/-- The complex of a spire takes up the work that waits for it (R96, R309). -/
def Dev.drainCipher (v : Dev) (s : Nat) : List CipherWork × Dev :=
  let c := v.cipher s
  let (ws, d) := Cipher.drain (v.readWeight s) (v.maintWeight s) (v.spire s).cores (sumMap (·.grains) c.queue) c
  (ws, v.setCipher s d)

end Sys2Proof.Machine
end

