-- ==== Sys2Proof/Machine/FloderOps.lean ====
section
/-! DEFINITION. Starting, checking and completing Floder commands (R393 to R408), shared by every command of the opcode
table. -/

namespace Sys2Proof.Machine

/-- Status codes (R413). -/
def stOk : Byte := 0x00
def stDuplicate : Byte := 0x01
def stBusyCredit : Byte := 0x08
def stBusyMode : Byte := 0x09
def stInvalidOpcode : Byte := 0x10
def stInvalidField : Byte := 0x11
def stOffsetMismatch : Byte := 0x12
def stSealed : Byte := 0x13
def stNotFound : Byte := 0x14
def stExists : Byte := 0x15
def stBeyondEnd : Byte := 0x16
def stQuota : Byte := 0x17
def stStaleTally : Byte := 0x18
def stAccessDenied : Byte := 0x20
def stKeyRevoked : Byte := 0x21
def stKeyTired : Byte := 0x22
def stAuthFail : Byte := 0x23
def stDataLost : Byte := 0x30
def stAborted : Byte := 0x38
def stMasterDisable : Byte := 0x39
def stTimeout : Byte := 0x3A
def stInternal : Byte := 0x3F
def stXferExpired : Byte := 0x40
def stPayloadCrc : Byte := 0x41
def stBusyStaging : Byte := 0x42
def stCheckMismatch : Byte := 0x43
def stTallyAhead : Byte := 0x44
def stConnAuthFail : Byte := 0x45

/-! ### Tables of the hosts' side -/

def Dev.session (v : Dev) (n : Nat) : Option Session := Tab.get v.hosts.sessions n
def Dev.qp (v : Dev) (n : Nat) : Option Qp := Tab.get v.hosts.qps n
def Dev.claimEntry (v : Dev) (n : Nat) : ClaimEntry := Tab.getD v.hosts.claims n .reset
def Dev.claimDesc (v : Dev) (n : Nat) : Option ClaimDesc := (v.claimEntry n).desc

def Dev.setSession (v : Dev) (n : Nat) (s : Session) : Dev :=
  { v with hosts := { v.hosts with sessions := Tab.set v.hosts.sessions n s } }

def Dev.adjSession (v : Dev) (n : Nat) (f : Session → Session) : Dev :=
  { v with hosts := { v.hosts with sessions := Tab.adjust v.hosts.sessions n f } }

def Dev.setQp (v : Dev) (n : Nat) (q : Qp) : Dev :=
  { v with hosts := { v.hosts with qps := Tab.set v.hosts.qps n q } }

def Dev.adjQp (v : Dev) (n : Nat) (f : Qp → Qp) : Dev :=
  { v with hosts := { v.hosts with qps := Tab.adjust v.hosts.qps n f } }

/-- The session of a queue pair. -/
def Dev.sessionOf (v : Dev) (qp : Nat) : Option Nat := (v.qp qp).map (·.session)

/-- A session of an authenticated management claim (R403). -/
def Dev.mgmtSession (v : Dev) (n : Nat) : Bool :=
  match v.session n with
  | none => false
  | some s =>
    match v.claimDesc s.claim with
    | none => false
    | some d => d.mgmt && d.payloadProtect && s.connKey.isSome

/-! ### Rings -/

def Dev.ring (v : Dev) (r : Nat) : Ring := Tab.getD v.floder.rings r .reset

def Dev.setRing (v : Dev) (r : Nat) (x : Ring) : Dev :=
  { v with floder := { v.floder with rings := Tab.set v.floder.rings r x } }

/-- Entries of a ring's queues (R396). -/
def Dev.ringEntries (v : Dev) (r : Nat) : Nat := 2 ^ v.ringCfg r 0x14 27 24

/-- Where the reply of a command goes: for an element of a maintenance queue, the ring that posted it (R263). -/
def Cmd.replyTo (c : Cmd) : Source :=
  match c.src with
  | .chain _ => c.p.src
  | s => s

/-- A ring takes no more replies for what has started: the replies that wait and those to come are discarded (R400,
R401). -/
def Dev.orphanRing (v : Dev) (r : Nat) : Dev :=
  let mine (s : Source) : Bool := match s with
    | .ring x => x.val == r
    | _ => false
  { v with floder := { v.floder with
      cmds := v.floder.cmds.map (fun (c : Cmd) => if mine c.replyTo then { c with orphan := true } else c)
      replies := v.floder.replies.filter (fun c => !mine c.src) } }

/-- A ring enters ERROR: its vector is raised at once (R399, R400). -/
def Dev.ringError (v : Dev) (r code : Nat) : Dev :=
  let x := v.ring r
  ((v.orphanRing r).setRing r { x with state := .error, errCode := code, fetches := [], slots := [], counted := 0,
                                       firstAt := none }).raiseVec .pf0 r

/-- Whether two sources keep one order of commands: the same ring, session, maintenance queue or mailbox (R406). -/
def Dev.sameSource (v : Dev) (a b : Source) : Bool :=
  match a, b with
  | .ring x, .ring y => x == y
  | .session x, .session y => (v.sessionOf x).isSome && v.sessionOf x == v.sessionOf y
  | .chain x, .chain y => x == y
  | .mailbox, .mailbox => true
  | _, _ => false

/-- Commands of a source that are started and not yet replied (R397, R406). -/
def Dev.unreplied (v : Dev) (src : Source) : Nat :=
  (v.floder.cmds.filter (fun c => !c.orphan && v.sameSource c.src src)).length
    + (v.floder.replies.filter (fun c => v.sameSource c.src src)).length

/-- Replies written to a ring and not released by ST_HEAD (R397). -/
def Dev.unreleased (v : Dev) (r : Nat) : Nat :=
  let e := v.ringEntries r
  ((v.ring r).n % e + e - (v.ring r).stHead % e) % e

/-- The start limit of a ring (R397). -/
def Dev.mayStart (v : Dev) (r : Nat) : Bool :=
  decide (v.unreplied (.ring (Fin.ofNat 256 r)) + v.unreleased r < v.ringEntries r - 1)

/-- The modes in which Floder commands start at all (R408). -/
def Dev.floderRuns (v : Dev) : Bool := v.mode != .held && v.mode != .boot

/-- An element of a maintenance queue is the command now commanded: as posted, but for its source and the data area, which
is read when the element runs. -/
def sameElement (e : BitVec 16 × Packet) (op : Nat) (p : Packet) : Bool :=
  e.1.toNat == op && { e.2 with src := p.src, data := p.data, at_ := p.at_ } == p

/-- The command is at the head of its source and may start now (R397, R406, R408). -/
def Dev.atHead (v : Dev) (op : Nat) (p : Packet) : Bool :=
  v.floderRuns && !(v.mode == .vault && op / 256 == 0x0A) && (!p.fence || v.unreplied p.src == 0) &&
  match p.src with
  | .ring r =>
    let x := v.ring r.val
    x.state == .running && v.mayStart r.val &&
      (match x.slots with
       | [] => false
       | e :: _ => e.1.toNat == op && e.2 == p)
  | .session qp =>
    (match v.floder.inbox.find? (fun e => v.sameSource e.2.src (.session qp)) with
     | none => false
     | some e => e.1.toNat == op && e.2.same p)
  | .chain q =>
    (match Tab.get v.hosts.chains q.val with
     | none => false
     | some c => c.state == .running && c.running.isNone &&
        (match c.elements with
         | [] => false
         | e :: _ => sameElement e op p))
  | .mailbox => true

/-- The command leaves the head of its source. For an element of a maintenance queue the packet kept with the command
names the ring that posted it. -/
def Dev.takeHead (v : Dev) (op : Nat) (p : Packet) : Dev × Packet :=
  match p.src with
  | .ring r =>
    let x := v.ring r.val
    (v.setRing r.val { x with slots := x.slots.drop 1, head := (x.head + 1) % v.ringEntries r.val }, p)
  | .session qp =>
    let mine (e : BitVec 16 × Packet) : Bool := v.sameSource e.2.src (.session qp)
    ({ v with floder := { v.floder with inbox := dropFirst mine v.floder.inbox } },
      ((v.floder.inbox.find? mine).map (·.2)).getD p)
  | .chain q =>
    match Tab.get v.hosts.chains q.val with
    | none => (v, p)
    | some c =>
      match c.elements with
      | [] => (v, p)
      | e :: rest =>
        ({ v with hosts := { v.hosts with
            chains := Tab.set v.hosts.chains q.val { c with elements := rest, running := some (BitVec.ofNat 16 op, p) } } },
          e.2)
  | .mailbox => (v, p)

/-- A ring whose replies are written: RUNNING (R400, R401); other routes always. -/
def Dev.takesReplies (v : Dev) : Source → Bool
  | .ring r => (v.ring r.val).state == .running
  | .session qp => (v.sessionOf qp).isSome
  | .chain _ => false
  | .mailbox => true

/-- A started command completes with a status and its result words; the reply waits to be written (R395, R398). A
command that is no longer known completes nothing. Out data of a ring command that can no longer be written turns it into
ABORTED_MASTER_DISABLE (R428). -/
def Dev.finish (v : Dev) (id : Nat) (st : Byte) (r0 r1 r2 : Nat) (data : List Byte) : Dev :=
  match v.floder.cmds.find? (fun c => c.id == id) with
  | none => v
  | some c =>
    let dst := c.replyTo
    let head := match dst with
      | .ring r => (v.ring r.val).head
      | _ => 0
    let cut := match dst with
      | .ring _ => !data.isEmpty && !v.ep.pf0.canIssue
      | _ => false
    let reply : Reply :=
      if cut then ⟨dst, c.p.dataPtr, c.tag, c.opcode, stMasterDisable, 0, 0, 0, c.noInt, head, v.stamp, v.step16, [], c.p.at_⟩
      else ⟨dst, c.p.dataPtr, c.tag, c.opcode, st, BitVec.ofNat 32 r0, BitVec.ofNat 32 r1, BitVec.ofNat 32 r2,
        c.noInt, head, v.stamp, v.step16, data, c.p.at_⟩
    let v1 := { v with floder := { v.floder with
      cmds := v.floder.cmds.filter (fun c => c.id != id)
      replies := if v.takesReplies dst && !c.orphan then v.floder.replies ++ [reply] else v.floder.replies } }
    match c.src with
    | .chain q =>
      { v1 with hosts := { v1.hosts with
          chains := Tab.adjust v1.hosts.chains q.val (fun x => { x with finished := some st }) } }
    | _ => v1

/-- Complete with OK. -/
def Dev.finishOk (v : Dev) (id r0 r1 r2 : Nat) : Dev := v.finish id stOk r0 r1 r2 []

/-- Complete with a status that is not OK: every result word is 0 (R395). -/
def Dev.fail (v : Dev) (id : Nat) (st : Byte) : Dev := v.finish id st 0 0 0 []

/-- The routes that permit a command (R403, R405, R340). -/
def Dev.routeOk (v : Dev) (op : Nat) (p : Packet) : Bool :=
  let secret := op == 0x0020 || op == 0x0021 || op == 0x0A01 || op == 0x0A02
  match p.src with
  | .ring _ => true
  | .session qp => !secret && (match v.sessionOf qp with | some n => v.mgmtSession n | none => false)
  | .chain _ => !secret
  | .mailbox => secret

/-- The checks of a started command before its own (R406 steps 1 to 4, R407, R408); none when all pass. -/
def Dev.floderCheck (v : Dev) (op : Nat) (p : Packet) : Option Byte :=
  let info := opInfo op p
  let grp := op / 256
  let reads := match info with | some (.r, _) => true | _ => false
  let excl := match info with | some (.x, _) => true | _ => false
  if v.mode == .fenced && !(reads && (grp == 0x00 || grp == 0x06 || grp == 0x07)) then some stAccessDenied
  else if v.mode == .vault && info.isSome && !reads then some stBusyMode
  else match info with
    | none => some stInvalidOpcode
    | some (_, need) =>
      if !(v.routeOk op p) then some stAccessDenied
      else
        let dl := p.dataLen.toNat
        let isSession := match p.src with | .session _ => true | _ => false
        let lenOk := match need with
          | .nothing => dl == 0
          | .input n => (dl != 0 || n == 0) && decide (n ≤ dl) && decide (dl ≤ 1048576)
            && (!isSession || decide (n ≤ p.data.length))
          | .output n => (dl != 0 || n == 0) && decide (n ≤ dl) && decide (dl ≤ 1048576)
        if bits p.flags.toNat 7 2 ≠ 0 || !lenOk || (dl != 0 && !isSession && p.dataPtr.toNat % 8 != 0)
        then some stInvalidField
        else if excl && v.floder.cmds.any (·.excl) then some stBusyMode
        else none

/-! ### Reads of the endpoint (R427, R428) -/

/-- A function may issue requests now (R425, R428). -/
def Dev.epCanIssue (v : Dev) (pf : Pf) : Bool := (v.func pf).canIssue && v.ep.link && !v.ep.frozen

/-- The lowest number from n on that a list does not hold. -/
def lowestNotIn (l : List Nat) : Nat → Nat → Nat
  | 0, n => n
  | k + 1, n => if l.contains n then lowestNotIn l k (n + 1) else n

/-- PF0 issues a read with a tag that is neither outstanding nor in quarantine, at most 1,024 at once (R415, R427). -/
def Dev.epRead (v : Dev) (what : ReadFor) : Option Dev :=
  let f := v.ep.pf0
  if v.epCanIssue .pf0 && decide (f.tags.length < 1024) then
    let used := f.tags.map (·.tag) ++ f.quarantine.map (·.1)
    let tag := lowestNotIn used used.length 0
    some (v.setFunc .pf0 { f with tags := f.tags ++ [⟨tag, v.now, what, false⟩] })
  else none

/-- A command of a ring whose data area the device must read first (R394, R428). -/
def needsRead (op : Nat) (p : Packet) : Bool :=
  match p.src, opInfo op p with
  | .ring _, some (_, .input _) => p.dataLen != 0
  | _, _ => false

/-- The started command of a ring whose data area has been read, if the command is one. -/
def Dev.readyCmd (v : Dev) (op : Nat) (p : Packet) : Option Cmd :=
  v.floder.cmds.find? (fun c => c.data == .ready && c.src == p.src && sameElement (c.opcode, c.p) op p)

/-- Start a command: take it from its source and give it a name, with the status it already fails with; a ring command
with a data area has been started when its read was issued, and goes on here. None when it cannot start now: then nothing
happens. -/
def Dev.floderStart (v : Dev) (op : Nat) (p : Packet) : Option (Dev × Nat × Option Byte) :=
  let chk := v.floderCheck op p
  let excl := match opInfo op p with | some (.x, _) => chk.isNone | _ => false
  if needsRead op p then
    match v.readyCmd op p with
    | none => none
    | some c =>
      let go (x : Cmd) : Cmd := if x.id = c.id then { x with data := .done, excl := excl } else x
      some ({ v with floder := { v.floder with cmds := v.floder.cmds.map go } }, c.id, chk)
  else if v.atHead op p then
    let (v1, pk) := v.takeHead op p
    let (id, v2) := v1.fresh
    some ({ v2 with floder := { v2.floder with
      cmds := v2.floder.cmds ++ [⟨id, p.src, p.tag, BitVec.ofNat 16 op, p.noInt, excl, pk, .done, false⟩] } }, id, chk)
  else none

/-- A ring command with a data area starts: the read is issued (R397, R428). -/
def Dev.startData (v : Dev) (op : Nat) (p : Packet) : Option Dev :=
  let (id, v1) := v.fresh
  match v1.epRead (.data id) with
  | none => none
  | some v2 =>
    let v3 := (v2.takeHead op p).1
    some { v3 with floder := { v3.floder with
      cmds := v3.floder.cmds ++ [⟨id, p.src, p.tag, BitVec.ofNat 16 op, p.noInt, false, p, .reading, false⟩] } }

/-- The packet at the head of a source. -/
def Dev.headOf (v : Dev) (src : Source) : Option (BitVec 16 × Packet) :=
  match src with
  | .ring r => (v.ring r.val).slots.head?
  | .session _ => v.floder.inbox.find? (fun e => v.sameSource e.2.src src)
  | .chain q => (Tab.get v.hosts.chains q.val).bind (fun c => c.elements.head?)
  | .mailbox => none

/-- Commands with unlisted opcodes at the head of a source complete in their turn (R406 step 2), and those whose data area
is to be read start. An element of a maintenance queue that fails halts its queue, so at most one is taken there. -/
def Dev.skipUnlisted : Nat → Dev → Source → Dev
  | 0, v, _ => v
  | fuel + 1, v, src =>
    match v.headOf src with
    | none => v
    | some (op, p) =>
      if needsRead op.toNat p then
        if v.atHead op.toNat p then
          (match v.startData op.toNat p with
           | none => v
           | some v1 => Dev.skipUnlisted fuel v1 src)
        else v
      else if (opInfo op.toNat p).isSome then v
      else
        match v.floderStart op.toNat { p with src := match src with | .chain q => .chain q | _ => p.src } with
        | none => v
        | some (v1, id, st) => Dev.skipUnlisted fuel (v1.fail id (st.getD stInvalidOpcode)) src

/-- A source goes on as far as it can without a command of its own. -/
def Dev.skipHeads (v : Dev) (src : Source) : Dev :=
  let n := match src with
    | .ring r => (v.ring r.val).slots.length
    | .session _ => v.floder.inbox.length
    | .chain _ => 1
    | .mailbox => 0
  v.skipUnlisted n src

/-- Run a Floder command: checks, then its body, which completes it or leaves it in progress. -/
def Dev.floderRun (v : Dev) (op : Nat) (p : Packet) (body : Nat → Dev → Dev) : Dev :=
  match v.floderStart op p with
  | none => v
  | some (v1, id, some st) => (v1.fail id st).skipHeads p.src
  | some (v1, id, none) => (body id v1).skipHeads p.src

end Sys2Proof.Machine
end

