-- ==== Sys2Proof/Machine/Ports.lean ====
section
/-! DEFINITION. Network ports, gate lists, and the way of a frame of the device from its queue pair to the queue of its egress
class (R218, R222, R230, R234, R236, R290, R298, R301 to R303). -/

namespace Sys2Proof.Machine

/-! ### Ports -/

def Dev.port (v : Dev) (n : Nat) : NetPort := Tab.getD v.hosts.ports n .reset

def Dev.setPort (v : Dev) (n : Nat) (p : NetPort) : Dev :=
  { v with hosts := { v.hosts with ports := Tab.set v.hosts.ports n p } }

/-- The key of the egress side of sub-port k of port n. -/
def egKey (n k : Nat) : Nat := n * 4 + k

def Dev.eg (v : Dev) (n k : Nat) : Egress := Tab.getD v.hosts.egress (egKey n k) .reset

def Dev.setEg (v : Dev) (n k : Nat) (e : Egress) : Dev :=
  { v with hosts := { v.hosts with egress := Tab.set v.hosts.egress (egKey n k) e } }

/-- The spire of a network port (R21). -/
def portSpire (n : Nat) : Nat := n / 2

/-- Line rate in Gb/s of a port or sub-port (R218). -/
def lineRate (breakout : Nat) : Nat := if breakout = 1 then 200 else if breakout = 2 then 100 else 400

/-- Sub-ports a breakout has (R412 PORT_SET). -/
def subCount (breakout : Nat) : Nat := if breakout = 1 then 2 else if breakout = 2 then 4 else 1

def NetPort.subUp (p : NetPort) (k : Nat) : Bool := bit p.linkUp.toNat k

/-- A port or sub-port carries traffic: PCS link, its block not faulted, its spire in service (R236). -/
def Dev.linkUp (v : Dev) (n k : Nat) : Bool := (v.port n).subUp k && !(v.port n).faulted && v.spireUp (portSpire n)

/-- Count an event of a network port block (R434, R435). -/
def Dev.countPort (v : Dev) (n ev x : Nat) : Dev := v.count (portSpire n) 0x01 (n % 2) ev x

/-- A rate as used: above 0x6400_0000 it acts as that (R289). -/
def capRate (r : Nat) : Nat := min r 0x64000000

/-- Cost of a frame of a length from DA through FCS (R290). -/
def frameCost (len : Nat) : Nat := len + 20

/-! ### Gate lists (R301 to R303) -/

/-- Entries of the gate list in force: open mask and duration in bells. -/
def Dev.gateList (v : Dev) (n k : Nat) : List (Nat × Nat) :=
  let b := subBase n k + 0x1000
  let cnt := min (v.cfgBits (b + 0x004) 7 0) 128
  (List.range cnt).map (fun i =>
    let x := (v.cfg (b + 0x100 + 4 * i)).toNat
    (bits x 31 24, min (bits x 13 0) pealBells))

def Dev.gateEn (v : Dev) (n k : Nat) : Bool := v.cfgBits (subBase n k + 0x004) 30 30 == 1
def Dev.gateDefault (v : Dev) (n k : Nat) : Nat := v.cfgBits (subBase n k + 0x004) 23 16

/-- The list laid out over a peal of a length: entry index (none: default), mask, bells (R301). -/
def layGates : List (Nat × Nat) → Nat → Nat → Nat → List (Option Nat × Nat × Nat)
  | [], _, dflt, rest => if rest = 0 then [] else [(none, dflt, rest)]
  | (m, d) :: t, i, dflt, rest =>
    if d = 0 then layGates t (i + 1) dflt rest
    else if rest = 0 then []
    else (some i, m, min d rest) :: layGates t (i + 1) dflt (rest - d)

def Dev.gateSegs (v : Dev) (n k len : Nat) : List (Option Nat × Nat × Nat) :=
  layGates (v.gateList n k) 0 (v.gateDefault n k) len

/-- The segments left from a bell of the peal on. -/
def segsFrom : List (Option Nat × Nat × Nat) → Nat → List (Option Nat × Nat × Nat)
  | [], _ => []
  | (i, m, d) :: t, b => if d ≤ b then segsFrom t (b - d) else (i, m, d - b) :: t

/-- Bells in the run of segments at the front whose mask has the class open (R302). -/
def windowBells (c : Nat) : List (Option Nat × Nat × Nat) → Nat
  | [] => 0
  | (_, m, d) :: t => if bit m c then d + windowBells c t else 0

/-- The longest window of a class in bells (R303). -/
def longestWindow (c : Nat) : List (Option Nat × Nat × Nat) → Nat → Nat
  | [], cur => cur
  | (_, m, d) :: t, cur => if bit m c then longestWindow c t (cur + d) else max cur (longestWindow c t 0)

/-- A frame's transmit time fits a time in ns at a line rate in Gb/s (R290). -/
def fitsTime (len rate ns : Nat) : Bool := decide (frameCost len * 8 ≤ ns * rate)

/-- The gate of class c allows a frame now (R302). -/
def Dev.gateAllows (v : Dev) (n k : Nat) (f : Frame) : Bool :=
  if v.gateEn n k then
    let left := windowBells f.cls (segsFrom (v.gateSegs n k v.clk.pealLen) v.clk.bellInPeal)
    fitsTime f.len (lineRate (v.port n).breakout) (left * 512 - v.clk.ns)
  else true

/-- The longest window of a class admits a frame (R303, R304). -/
def Dev.gateAdmits (v : Dev) (n k : Nat) (f : Frame) : Bool :=
  !(v.gateEn n k) ||
    fitsTime f.len (lineRate (v.port n).breakout) (longestWindow f.cls (v.gateSegs n k pealBells) 0 * 512)

/-! ### Frames (R218, R219, R290, R298) -/

/-- Length of a RoCEv2 frame with n bytes after the BTH: Ethernet with one tag, IP, UDP, BTH, ICRC, FCS. -/
def roceLen (ipv6 : Bool) (n : Nat) : Nat := 18 + (if ipv6 then 40 else 20) + 8 + 12 + n + 8

/-- Length of a CM datagram: DETH and a MAD of 256 B. -/
def cmLen (ipv6 : Bool) : Nat := roceLen ipv6 264

/-- Length of an ARP frame, or of a Neighbor Discovery frame with one option. -/
def arpLen : ArpTarget → Nat
  | .v4 _ => 64
  | .v6 _ => 90

/-- Length of a frame from DA through FCS, as IEEE 802.3, RFC 826, RFC 4861 and the InfiniBand specification have it (PRESUMED, assumption
log 89). -/
def Wire.len (ipv6 : Bool) : Wire → Nat
  | .data first _ _ b => roceLen ipv6 ((if first then 16 else 0) + b.length)
  | .entry _ _ _ b => roceLen ipv6 (16 + b.length)
  | .empty => roceLen ipv6 16
  | .consumerRead _ _ => roceLen ipv6 16
  | .cnp => roceLen ipv6 16
  | .notify _ => roceLen ipv6 4
  | .ack _ => roceLen ipv6 4
  | .nakSequence _ => roceLen ipv6 4
  | .nakInvalid _ => roceLen ipv6 4
  | .nakAccess _ => roceLen ipv6 4
  | .nakOperational _ => roceLen ipv6 4
  | .rnrNak _ _ => roceLen ipv6 4
  | .rep _ _ => cmLen ipv6
  | .rej _ => cmLen ipv6
  | .dreq _ => cmLen ipv6
  | .drep _ => cmLen ipv6
  | .arpReply t => arpLen t
  | .pfc _ _ => 64

/-- Payload of a request packet, as the window counts it (R234). -/
def Wire.payload : Wire → Nat
  | .data _ _ _ b => b.length
  | .entry _ _ _ b => b.length
  | _ => 0

/-- The sequence number of the ring entry that an unacknowledged packet writes. -/
def Unacked.seq (u : Unacked) : Option Nat :=
  match u.frame.what with
  | .entry s _ _ _ => some s
  | _ => none

/-- An unacknowledged packet is a notification. -/
def Unacked.notify (u : Unacked) : Bool :=
  match u.frame.what with
  | .notify _ => true
  | _ => false

/-- A frame is queued at its class, or dropped as oversize for the gates (R303). -/
def Dev.enqueue (v : Dev) (n k : Nat) (f : Frame) : Dev :=
  if v.gateAdmits n k f then
    let e := v.eg n k
    v.setEg n k { e with queue := e.queue ++ [f] }
  else v.countPort n 0x014 1

/-- A frame that answers on a queue pair, with the priority of the queue pair (R298). -/
def Dev.respond (v : Dev) (n : Nat) (w : Wire) : Dev :=
  match v.qp n with
  | none => v
  | some q => v.enqueue q.port.val q.sub.val ⟨some n, q.prio, w.len q.ipv6, none, w⟩

/-- Every other frame takes LOCAL_TC (R298, R305). -/
def Dev.localFrame (v : Dev) (n k : Nat) (ipv6 : Bool) (w : Wire) : Frame :=
  ⟨none, v.cfgBits (subBase n k + 0x004) 26 24, w.len ipv6, none, w⟩

def Dev.sendLocal (v : Dev) (n k : Nat) (ipv6 : Bool) (w : Wire) : Dev := v.enqueue n k (v.localFrame n k ipv6 w)

/-- A frame about a queue pair that is not one of it: CM, CNP (R298). -/
def Dev.sendAbout (v : Dev) (n : Nat) (w : Wire) : Dev :=
  match v.qp n with
  | none => v
  | some q => v.sendLocal q.port.val q.sub.val q.ipv6 w

/-- A frame is received and counted (R435); its spire is not idle (R344). -/
def Dev.received (v : Dev) (n len : Nat) : Dev :=
  let v1 := (v.countPort n 0x001 len).countPort n 0x003 1
  let s := portSpire n
  let x := v1.spire s
  if x.idle = 0 && !x.p1 then v1 else v1.setSpire s { x with idle := 0, p1 := false }

/-- A frame is received on a queue pair: n bytes after its BTH. -/
def Dev.receivedOn (v : Dev) (qp n : Nat) : Dev :=
  match v.qp qp with
  | none => v
  | some q => v.received q.port.val (roceLen q.ipv6 n)

/-! ### Request packets (R222, R230, R234) -/

def Session.pathOf (s : Session) (qp : Nat) : Option Path := s.paths.find? (fun p => p.qp == qp)

def Dev.pathState (v : Dev) (qp : Nat) : Option PathState :=
  match v.sessionOf qp with
  | none => none
  | some n => ((v.session n).bind (·.pathOf qp)).map (·.state)

def Qp.unackedBytes (q : Qp) : Nat := sumMap (·.bytes) q.unacked

/-- A packet with a payload fits the window (R234). -/
def Qp.fitsWnd (q : Qp) (payload : Nat) : Bool := decide (q.unackedBytes + payload ≤ q.wnd)

/-- The frame of a request packet before it has a PSN. -/
def Qp.request (q : Qp) (n : Nat) (w : Wire) : Frame := ⟨some n, q.prio, w.len q.ipv6, none, w⟩

/-- The first packet that waits takes the next PSN, is kept with its content until it is acknowledged, and goes to its class
(R222, R234, R299). -/
def Dev.launch (v : Dev) (n : Nat) (q : Qp) (f : Frame) : Dev :=
  let g := { f with psn := some q.txPsn }
  (v.setQp n { q with waiting := q.waiting.drop 1, txPsn := q.txPsn + 1,
                      unacked := q.unacked ++ [⟨q.txPsn, f.what.payload, v.mono, g⟩] }).enqueue q.port.val q.sub.val g

def Dev.launchN : Nat → Dev → Nat → Dev
  | 0, v, _ => v
  | m + 1, v, n =>
    match v.qp n with
    | none => v
    | some q =>
      match q.waiting with
      | [] => v
      | f :: _ => if q.fitsWnd f.what.payload then Dev.launchN m (v.launch n q f) n else v

/-- The request packets of a queue pair go as far as its window lets them, while its path is LIVE (R234, R237). -/
def Dev.launchQp (v : Dev) (n : Nat) : Dev :=
  match v.qp n with
  | none => v
  | some q => if v.pathState n == some .live then Dev.launchN q.waiting.length v n else v

/-- Request packets of the device join those of their queue pair. -/
def Dev.post (v : Dev) (n : Nat) (ws : List Wire) : Dev :=
  (v.adjQp n (fun q => { q with waiting := q.waiting ++ ws.map (q.request n) })).launchQp n

/-- A request packet would go at once: nothing waits before it and the window has room (R230, R234). -/
def Dev.mayPost (v : Dev) (n : Nat) (w : Wire) : Bool :=
  match v.qp n with
  | none => false
  | some q => q.waiting.isEmpty && q.fitsWnd w.payload && v.linkUp q.port.val q.sub.val && v.pathState n == some .live

/-- An RDMA WRITE to host memory in packets of an MTU (R219, R223). -/
def dataWires (rkey : BitVec 32) (mtu : Nat) : Nat → Bool → BitVec 64 → List Byte → List Wire
  | 0, _, _, _ => []
  | m + 1, first, va, bs =>
    if bs.isEmpty then []
    else .data first rkey va (bs.take mtu) :: dataWires rkey mtu m false (va + BitVec.ofNat 64 mtu) (bs.drop mtu)

/-- Data are written to host memory on a queue pair (R130, R404). -/
def Dev.postData (v : Dev) (n : Nat) (rkey : BitVec 32) (va : BitVec 64) (bs : List Byte) : Dev :=
  match v.qp n with
  | none => v
  | some q => v.post n (dataWires rkey q.mtu bs.length true va bs)

/-- Unacknowledged packets that a test selects are sent again under their PSNs, unless they are queued yet (R223, R238, R303). -/
def Dev.resend (v : Dev) (n : Nat) (p : Unacked → Bool) : Dev :=
  match v.qp n with
  | none => v
  | some q => (q.unacked.filter p).foldl (fun x u =>
      if (x.eg q.port.val q.sub.val).queue.contains u.frame then x else x.enqueue q.port.val q.sub.val u.frame) v

/-- What is queued of a queue pair that is released still leaves, a frame of no queue pair from now on (DEDUCED, assumption log 89: R224
sends what completes before the release, and R239 says nothing of frames in the queue). -/
def Dev.unqueue (v : Dev) (n : Nat) : Dev :=
  match v.qp n with
  | none => v
  | some q =>
    let e := v.eg q.port.val q.sub.val
    if e.queue.any (fun f => f.qp == some n) then
      v.setEg q.port.val q.sub.val { e with queue := e.queue.map (fun f => if f.qp == some n then { f with qp := none } else f) }
    else v

end Sys2Proof.Machine
end

