-- ==== Sys2Proof/Machine/SessionOps.lean ====
section
/-! DEFINITION. Sessions and paths: choosing a path, building entries, notices, the tally window and its records, losing
and releasing paths (R224 to R240). -/

namespace Sys2Proof.Machine

/-! ### Paths -/

def Session.livePaths (s : Session) : List Path := s.paths.filter (fun p => p.state == .live)

/-- The lowest-indexed LIVE path (R230, R231). -/
def Session.lowestLive (s : Session) : Option Path :=
  s.livePaths.foldl (fun acc p => match acc with
    | none => some p
    | some b => if p.idx < b.idx then some p else some b) none

/-- The path on which an entry is written (R231). -/
def Session.choosePath (s : Session) (qp : Option Nat) : Option Path :=
  match qp.bind s.pathOf with
  | some p => if p.state == .live then some p else s.lowestLive
  | none => s.lowestLive

/-- The path on which a built entry is written: the completion of a READ that wrote data waits for its own (R30, R231). -/
def Session.pathFor (s : Session) (b : Built) : Option Path :=
  match s.choosePath b.qp with
  | some p => if b.own && b.qp != some p.qp then none else some p
  | none => none

/-- The lowest path index free (R225). -/
def Session.freeIndex (s : Session) : Option Nat :=
  (List.range 4).find? (fun i => s.paths.all (fun p => p.idx != i))

def Session.adjPath (s : Session) (qp : Nat) (f : Path → Path) : Session :=
  { s with paths := updAll (fun p => p.qp == qp) f s.paths }

/-- The anchor of a session now: its anchor spire, or the partner while the roles are away (R23, R26). -/
def Dev.anchor (v : Dev) (s : Session) : Nat := match s.anchor with
  | none => 0
  | some a => v.roleOf a.val

/-! ### Entries -/

/-- Bytes 0 to 59 of a COMPLETION (R121); a Floder reply takes the place of the result, nonce and grain fields (R404). -/
def Completion.bytes (c : Completion) : List Byte :=
  [0x82, c.status, BitVec.ofNat 8 (64 * c.extState.toNat + 16 * b2n c.settled + 4 * (c.anchor % 4) + c.owner % 4), 0]
    ++ leBytes 4 c.tally.toNat ++ leBytes 4 c.cmdTag.toNat ++ leBytes 4 c.latencyNs
    ++ (if c.reply.isEmpty then leBytes 8 c.resOffset ++ leBytes 8 c.resLength ++ leBytes 4 c.nonceFixed.toNat
          ++ leBytes 8 c.nonceFirst.toNat ++ leBytes 4 c.grainCount
        else padTo 32 c.reply)
    ++ leBytes 8 c.stamp ++ leBytes 2 c.step.toNat ++ zeros 2

/-- Bytes 0 to 59 of an XFER_READY (R123). -/
def XferReady.bytes (x : XferReady) : List Byte :=
  [0x81, 0, 0, 0] ++ leBytes 4 x.tally.toNat ++ leBytes 4 x.cmdTag.toNat ++ leBytes 4 x.imm.toNat
    ++ leBytes 4 x.key.toNat ++ zeros 4 ++ leBytes 8 x.va.toNat ++ leBytes 4 x.length ++ leBytes 4 x.life ++ zeros 8
    ++ leBytes 8 x.stamp ++ zeros 4

/-- Bytes 0 to 59 of a NOTICE (R124). -/
def Notice.bytes (n : Notice) : List Byte :=
  [0x83, n.code, 0, 0] ++ leBytes 4 n.num ++ leBytes 8 n.arg.toNat ++ zeros 32 ++ leBytes 8 n.stamp
    ++ leBytes 2 n.step.toNat ++ zeros 2

def Entry.bytes : Entry → List Byte
  | .completion c => c.bytes
  | .xferReady x => x.bytes
  | .notice n => n.bytes

/-- The ring control word of sequence number q, PATH being the path of its first write (R230). -/
def ringControl (entries q path : Nat) : Nat :=
  (1 - (if entries = 0 then 0 else q / entries % 2)) * 2 ^ 31 + path % 4 * 2 ^ 24 + q % 2 ^ 24

/-- The 64 B of a ring entry (R121, R123, R124, R230). -/
def Session.entryBytes (s : Session) (i : Issued) : List Byte :=
  i.entry.bytes ++ leBytes 4 (ringControl s.ringEntries i.seq i.path)

/-- The RDMA WRITE of a ring entry on a path: slot q mod RING_ENTRIES (R230). -/
def Session.entryWire (s : Session) (p : Path) (i : Issued) : Wire :=
  .entry i.seq p.rkey (s.ringVa + BitVec.ofNat 64 (64 * (i.seq % s.ringEntries))) (s.entryBytes i)

/-- The entry as it leaves: LATENCY_NS is what has passed since the moment it runs from (R122). -/
def Built.leaving (b : Built) (now : Nat) : Entry :=
  match b.entry, b.from_ with
  | .completion c, some t => .completion { c with latencyNs := min 0xFFFFFFFF (now - t) }
  | e, _ => e

def Session.noticesWaiting (s : Session) : Nat :=
  (s.built.filter (fun b => match b.entry with | .notice _ => true | _ => false)).length

/-- An entry about a capsule is built: it waits to be issued (R231). -/
def Dev.build (v : Dev) (sn : Nat) (e : Entry) (qp tally from_ : Option Nat) : Dev :=
  v.adjSession sn (fun s => { s with built := s.built ++ [⟨e, qp, tally, false, from_, false⟩] })

/-- A NOTICE for a session (R124); past 64 waiting it is discarded and counted, its number taken (R231). -/
def Dev.notice (v : Dev) (sn : Nat) (code : Byte) (arg : Nat) : Dev :=
  match v.session sn with
  | none => v
  | some s =>
    let n : Notice := ⟨code, s.noticeNum, BitVec.ofNat 64 arg, v.stamp, v.step16⟩
    if s.noticesWaiting < 64 then
      v.setSession sn { s with noticeNum := (s.noticeNum + 1) % 2 ^ 32, built := s.built ++ [⟨.notice n, none, none, false, none, false⟩] }
    else
      (v.setSession sn { s with noticeNum := (s.noticeNum + 1) % 2 ^ 32, noticeLost := s.noticeLost + 1 }).count
        (v.anchor s) 0x08 0 0x007 1

def Dev.noticeEach (v : Dev) (sns : List Nat) (code : Byte) (arg : Nat) : Dev :=
  sns.foldl (fun x n => x.notice n code arg) v

/-- A NOTICE to every session of every claim (R56). -/
def Dev.noticeAll (v : Dev) (code : Byte) (arg : Nat) : Dev :=
  v.noticeEach (v.hosts.sessions.map (·.1)) code arg

/-- What a completion says about its extent (R121). -/
structure ExtInfo where
  state : Nat
  owner : Nat
deriving DecidableEq, Repr

/-- No extent, or not reported. -/
def noExt : ExtInfo := ⟨3, 0⟩

/-- The anchor of a session by number. -/
def Dev.anchorOf (v : Dev) (sn : Nat) : Nat := match v.session sn with
  | some s => v.anchor s
  | none => 0

/-- A COMPLETION for a capsule (R121). LATENCY_NS is filled in when it leaves (R122). -/
def Dev.completionOf (v : Dev) (sn : Nat) (d : Delivered) (st : Byte) (x : ExtInfo) (settled : Bool)
    (off len : Nat) (nf : BitVec 32) (ni : BitVec 64) (grains : Nat) : Completion :=
  ⟨st, BitVec.ofNat 2 x.state, settled, v.anchorOf sn, if x.state = 3 then 0 else x.owner, d.cap.tally, d.cap.cmdTag, 0,
    off, len, nf, ni, grains, v.stamp, v.step16, []⟩

/-- Answer a capsule that has no tally, or one refused without a record. -/
def Dev.answer (v : Dev) (sn : Nat) (d : Delivered) (st : Byte) (x : ExtInfo) (off len : Nat) : Dev :=
  v.build sn (.completion (v.completionOf sn d st x false off len 0 0 0)) (some d.qp) none (some d.at_)

/-! ### The tally window (R226 to R228) -/

inductive TallyClass where
  | inWindow
  | below
  | ahead
deriving DecidableEq, Repr

/-- The class of a tally against the floor (R226). -/
def tallyClass (t f : BitVec 32) : TallyClass :=
  let d := (t - f).toNat
  if d < 4096 then .inWindow else if 2 ^ 31 ≤ d then .below else .ahead

/-- Which statuses of a tallied command keep a record (R38). -/
def keepsRecord (st : Byte) : Bool :=
  [stOk, stInvalidOpcode, stInvalidField, stOffsetMismatch, stSealed, stNotFound, stExists, stQuota, stAccessDenied,
   stKeyRevoked, stKeyTired].contains st

def Session.setTally (s : Session) (t : BitVec 32) (x : TallyState) : Session :=
  { s with tallies := Tab.set s.tallies t.toNat x }

/-- Answer a re-sent capsule from the record (R38, R40, R121): OK becomes OK_DUPLICATE, a refusal stays; ANCHOR is that of
the moment the entry is built. -/
def Dev.answerRecord (v : Dev) (sn : Nat) (d : Delivered) (r : Record) : Dev :=
  let st := if r.comp.status = stOk then stDuplicate else r.comp.status
  let v1 := match v.session sn with
    | some s => if r.comp.status = stOk then v.count (v.anchor s) 0x02 0 0x005 1 else v
    | none => v
  v1.build sn (.completion { r.comp with status := st, cmdTag := d.cap.cmdTag, anchor := v1.anchorOf sn }) (some d.qp) none
    (some d.at_)

/-- Re-sent capsules that waited for the original: answered from its record, or BUSY_MODE when it left none (R227). -/
def Dev.releaseDups (v : Dev) (sn : Nat) (t : BitVec 32) : Dev :=
  let waiting := v.hosts.dups.filter (fun e => e.1 == sn && e.2.cap.tally == t)
  let v1 := { v with hosts := { v.hosts with dups := v.hosts.dups.filter (fun e => !(e.1 == sn && e.2.cap.tally == t)) } }
  let rec_ := match v.session sn with
    | some s => (match Tab.get s.tallies t.toNat with
      | some (.recorded r) => some r
      | _ => none)
    | none => none
  waiting.foldl (fun x e => match rec_ with
    | some r => x.answerRecord sn e.2 r
    | none => x.answer sn e.2 stBusyMode noExt 0 0) v1

/-- A tallied command completes: its record is written where R38 keeps one, its entry built, and waiting re-sends
answered. Without a record the tally is FREE again. -/
def Dev.completeTallied (v : Dev) (sn : Nat) (op : Byte) (d : Delivered) (c : Completion) : Dev :=
  let t := d.cap.tally
  let v1 := v.adjSession sn (fun s =>
    if keepsRecord c.status then s.setTally t (.recorded ⟨c, op, v.clk.aging + 64 * pealBells, false⟩)
    else { s with tallies := Tab.del s.tallies t.toNat })
  let v2 := v1.build sn (.completion c) (some d.qp) (some t.toNat) (some d.at_)
  v2.releaseDups sn t

/-- Refuse a tallied command with no results (R121). -/
def Dev.refuseTallied (v : Dev) (sn : Nat) (op : Byte) (d : Delivered) (st : Byte) (x : ExtInfo) (off : Nat) : Dev :=
  v.completeTallied sn op d (v.completionOf sn d st x false off 0 0 0 0)

/-- A command ends with no record and no completion: its tally is FREE again (R36, R45). -/
def Dev.dropTally (v : Dev) (sn : Nat) (t : BitVec 32) : Dev :=
  (v.adjSession sn (fun s => { s with tallies := Tab.del s.tallies t.toNat })).releaseDups sn t

/-- The floor moves past RELEASED tallies at it (R227). -/
def advanceFloor : Nat → Session → Session
  | 0, s => s
  | n + 1, s =>
    match Tab.get s.tallies s.floor.toNat with
    | some .released => advanceFloor n { s with tallies := Tab.del s.tallies s.floor.toNat, floor := s.floor + 1 }
    | _ => s

/-! ### In-flight limits (R135) -/

/-- Commands and messages in flight on a queue pair. -/
def Dev.inFlightQp (v : Dev) (q : Nat) : Nat :=
  (v.hosts.inbox.filter (fun w => w.msg.qp == q)).length + (v.hosts.ctxs.filter (fun c => c.qp == q)).length
    + (v.hosts.reads.filter (fun c => c.qp == q)).length + (v.hosts.flushes.filter (fun c => c.qp == q)).length
    + (v.hosts.dups.filter (fun e => e.2.qp == q)).length
    + (v.chip.drain.waiting.filter (fun w => w.msg.qp == q)).length
    + (v.floder.cmds.filter (fun c => c.src == .session q)).length
    + (v.floder.inbox.filter (fun e => e.2.src == .session q)).length
    + (match (v.sessionOf q).bind v.session with
      | some s => (s.built.filter (fun b => b.qp == some q && !b.late && (match b.entry with | .completion _ => true | _ => false))).length
      | none => 0)

def Dev.homeOf (v : Dev) (q : Nat) : Nat := match v.qp q with
  | some x => x.home.val
  | none => 4

/-- Commands and messages in flight on the queue pairs homed on a spire. -/
def Dev.inFlightSpire (v : Dev) (s : Nat) : Nat :=
  sumMap (fun e => if e.2.home.val == s then v.inFlightQp e.1 else 0) v.hosts.qps

/-- In-flight commands of a session, tallied and untallied (R224 SESSION_CLOSE). -/
def Dev.inFlightSession (v : Dev) (n : Nat) : Nat :=
  sumMap (fun e => if e.2.session == n then v.inFlightQp e.1 else 0) v.hosts.qps
    + (v.hosts.ctxs.filter (fun c => c.session == n && (v.qp c.qp).isNone)).length

/-! ### Losing and releasing paths (R236 to R240) -/

/-- Entries written on a path join those its next notification covers (R232). -/
def Path.wrote (p : Path) (now : Nat) (is : List Issued) : Path :=
  match is.getLast? with
  | none => p
  | some l =>
    { p with written := p.written + is.length
             firstWritten := match p.firstWritten with | some x => some x | none => some now
             lastSeq := l.seq
             noticeWritten := p.noticeWritten || is.any (fun i => match i.entry with | .notice _ => true | _ => false) }

/-- Ring writes whose path is no longer LIVE are written again on the lowest-indexed LIVE path, with the same sequence
number and content (R231, R237). -/
def Dev.reissue (v : Dev) (sn : Nat) : Dev :=
  match v.session sn with
  | none => v
  | some s =>
    match s.lowestLive with
    | none => v
    | some p =>
      let live (i : Nat) : Bool := s.livePaths.any (fun x => x.idx == i)
      let again := s.issued.filter (fun i => !live i.via)
      let s1 : Session :=
        { s with issued := s.issued.map (fun (i : Issued) => if live i.via then i else { i with via := p.idx }) }
      (v.setSession sn (s1.adjPath p.qp (fun x => x.wrote v.mono again))).post p.qp (again.map (s.entryWire p))

/-- READs in flight on a queue pair complete ABORTED_RESET with RESULT_LENGTH 0 (R237, R239). -/
def Dev.abortReads (v : Dev) (q : Nat) : Dev :=
  let rs := v.hosts.reads.filter (fun r => r.qp == q)
  let v1 := { v with hosts := { v.hosts with reads := v.hosts.reads.filter (fun r => r.qp != q) } }
  rs.foldl (fun x r => x.answer r.session r.msg stAborted noExt 0 0) v1

/-- A grant ends: no longer listed, its context withdrawn, its IMMEDIATE spent for 64 peals, its bytes lendable from the
next bell (R248, R257). -/
def Dev.endGrant (v0 : Dev) (sn tag : Nat) : Dev :=
  let v := match v0.hosts.grants.find? (fun g => g.session == sn && g.tag == tag) with
    | none => v0
    | some g => { v0 with hosts := { v0.hosts with windows := Tab.adjust v0.hosts.windows g.window (fun w =>
        { w with freed := w.freed.filter (fun (f : Nat × Nat × Nat) => decide (v0.now ≤ f.2.2)) ++ [(g.offset, g.length, v0.now)] }) } }
  let v1 := v.adjSession sn (fun s => { s with
    contexts := s.contexts.filter (fun c => match c.kind with | .grant t => t != tag | _ => true)
    spent := s.spent ++ [(tag, v.now)] })
  { v1 with hosts := { v1.hosts with grants := v1.hosts.grants.filter (fun g => !(g.session == sn && g.tag == tag)) } }

/-! ### Tallied commands in progress -/

/-- The opcode byte of a tallied command (R118). -/
def CmdKind.opcode : CmdKind → Byte
  | .create => 0x01
  | .append => 0x02
  | .sealOp => 0x03
  | .delete => 0x05
  | .read => 0x04
  | .stat => 0x06
  | .flush => 0x07
  | .cack => 0x09
  | .ping => 0x0A

/-- Commands that carry a tally (R37). -/
def CmdKind.tallied : CmdKind → Bool
  | .create | .append | .sealOp | .delete => true
  | .read | .stat | .flush | .cack | .ping => false

/-- Commands that go to the session's anchor, and to the extent's owner (R25, R125). -/
def CmdKind.toAnchor (k : CmdKind) : Bool := k.tallied || k == .cack
def CmdKind.toOwner (k : CmdKind) : Bool := !(k == .flush || k == .cack || k == .ping)

/-- The quota charge of an append is returned (R113). -/
def Dev.uncharge (v : Dev) (claim n : Nat) : Dev :=
  { v with hosts := { v.hosts with claims := Tab.adjust v.hosts.claims claim (fun e => { e with charged := e.charged - n }) } }

/-- A tallied command leaves flight: its charge and credit are returned, at the next bell where it has a grant, and the grant
ends (R113, R128, R149, R248). -/
def Dev.dropCtx (v : Dev) (c : Ctx) : Dev :=
  let v1 := { v with hosts := { v.hosts with ctxs := v.hosts.ctxs.filter (fun x => x.id != c.id) } }
  let v2 :=
    if c.grantTag.isSome && (c.charged != 0 || c.credit != 0) then
      { v1 with hosts := { v1.hosts with returning := v1.hosts.returning ++ [⟨c.claim, c.arrival, c.charged, c.credit⟩] } }
    else if c.charged = 0 then v1
    else v1.uncharge c.claim c.charged
  let v3 := if c.credit = 0 then v2 else v2.countKeep 0x10 0x002 c.credit
  match c.grantTag with
  | some t => v3.endGrant c.session t
  | none => v3

/-- A command completes with a status and no results. -/
def Dev.refuseCtx (v : Dev) (c : Ctx) (st : Byte) : Dev :=
  if c.kind.tallied then (v.dropCtx c).refuseTallied c.session c.kind.opcode c.msg st noExt 0
  else (v.dropCtx c).answer c.session c.msg st noExt 0 0

/-- A command is discarded: no completion, no record (R36, R45, R100). -/
def Dev.discardCtx (v : Dev) (c : Ctx) : Dev :=
  if c.kind.tallied then (v.dropCtx c).dropTally c.session c.msg.cap.tally else v.dropCtx c

/-- What ended grants left to return is returned at a bell (R128). -/
def Dev.takeReturns (v : Dev) : Dev :=
  v.hosts.returning.foldl (fun x (r : Return) => x.uncharge r.claim r.charge)
    { v with hosts := { v.hosts with returning := [] } }

/-- Messages received on a queue pair and not admitted are discarded (R237). -/
def Dev.discardInbox (v0 : Dev) (q : Nat) : Dev :=
  let v := (v0.hosts.ctxs.filter (fun c => c.qp == q && c.phase == .queued)).foldl (fun x c => x.discardCtx c) v0
  { v with
    hosts := { v.hosts with inbox := v.hosts.inbox.filter (fun w => w.msg.qp != q) }
    chip := { v.chip with drain := { v.chip.drain with
      waiting := v.chip.drain.waiting.filter (fun w => w.msg.qp != q) } }
    floder := { v.floder with inbox := v.floder.inbox.filter (fun e => e.2.src != .session q) } }

def Dev.ctx (v : Dev) (id : Nat) : Option Ctx := v.hosts.ctxs.find? (fun c => c.id == id)

def Dev.adjCtx (v : Dev) (id : Nat) (f : Ctx → Ctx) : Dev :=
  { v with hosts := { v.hosts with ctxs := updFirst (fun c => c.id == id) f v.hosts.ctxs } }

/-- Queue pairs bound to a port, its sub-ports together (R293, R306). -/
def Dev.boundQps (v : Dev) (port : Nat) : Nat := (v.hosts.qps.filter (fun e => e.2.port.val == port)).length

/-- A revocation takes effect at the bell R76 gives a commit that arrives now: the next one, or in stroke 7 the one
after (R252). -/
def Dev.revokeWindow (v : Dev) (w : Nat) (cmd : Option Nat) : Dev :=
  let arrived := if v.stroke = 7 then v.now + 1 else v.now
  match Tab.get v.hosts.windows w with
  | none => v
  | some x =>
    if x.state == .live && !v.hosts.updates.any (fun u => u.table == .window && u.key == w && u.act == .windowRevoke) then
      { v with hosts := { v.hosts with updates := v.hosts.updates ++ [⟨.window, w, .windowRevoke, arrived, cmd⟩] } }
    else v

/-- A READ whose completion has not left when its queue pair goes completes ABORTED_RESET, RESULT_LENGTH 0, on another path
(R237, R239). -/
def Built.lostPath (b : Built) (q : Nat) : Built :=
  if b.own && b.qp == some q then
    match b.entry with
    | .completion c => { b with entry := .completion { c with status := stAborted, resOffset := 0, resLength := 0 }, own := false }
    | _ => b
  else b

/-- The queue pair and its path are released and the number freed; windows scoped to it are revoked (R238, R239, R252,
R253). -/
def Dev.releaseQp (v : Dev) (q : Nat) : Dev :=
  match v.qp q with
  | none => v
  | some x =>
    let v1 := ((v.discardInbox q).abortReads q).unqueue q
    let v2 := { v1 with hosts := { v1.hosts with qps := Tab.del v1.hosts.qps q } }
    let v3 := v2.adjSession x.session (fun s =>
      { s with paths := s.paths.filter (fun p => p.qp != q), built := s.built.map (fun b => b.lostPath q) })
    let ws := (v3.hosts.windows.filter (fun e => e.2.qp == some q)).map (·.1)
    ws.foldl (fun y w => y.revokeWindow w none) (v3.reissue x.session)

/-- Ring writes and notifications of a queue pair whose path is HELD: those unacknowledged become RDMA WRITEs of length 0 under their
PSNs, those that wait are not sent; read data stay (R237). -/
def Qp.heldWrites (q : Qp) : Qp :=
  let ring (w : Wire) : Bool := match w with | .entry _ _ _ _ => true | .notify _ => true | .consumerRead _ _ => true | _ => false
  { q with unacked := q.unacked.map (fun (u : Unacked) => if ring u.frame.what then
             { u with bytes := 0, frame := { u.frame with what := .empty, len := Wire.empty.len q.ipv6 } } else u)
           waiting := q.waiting.filter (fun f => !ring f.what) }

/-- A notification that was not acknowledged on a path that is lost is sent again by the next one of the lowest-indexed LIVE path, which
takes its entries over (DEDUCED, assumption log 22). -/
def Session.moveNotify (s : Session) (us : List Unacked) : Session :=
  match s.lowestLive, us.find? (·.notify) with
  | some p, some ⟨_, _, _, ⟨_, _, _, _, .notify imm⟩⟩ =>
    s.adjPath p.qp (fun x => { x with written := x.written + imm.toNat / 2 ^ 24,
                                      lastSeq := if x.written = 0 then imm.toNat % 2 ^ 24 else x.lastSeq, noticeWritten := true })
  | _, _ => s

/-- A path becomes HELD: NOTICE 0x04 is queued, its unacknowledged ring writes and notification go to a LIVE path; PATH_HOLD_PEALS 0
releases it in the same stroke (R236, R237, R242). -/
def Dev.holdPath (v : Dev) (q : Nat) : Dev :=
  match v.qp q with
  | none => v
  | some x =>
    match (v.session x.session).bind (·.pathOf q) with
    | none => v
    | some p =>
      if p.state == .held then v
      else
        let v1 := v.adjSession x.session (fun s => (s.adjPath q (fun p =>
          { p with state := .held, heldAt := v.clk.aging, notifyUnacked := false })).moveNotify x.unacked)
        let v2 := ((v1.adjQp q Qp.heldWrites).discardInbox q).notice x.session 0x04 q
        let hold := match v2.session x.session with | some s => s.pathHold | none => 0
        if hold = 0 then v2.releaseQp q else v2.reissue x.session

/-- A HELD path becomes LIVE again: NOTICE 0x05 (R238). -/
def Dev.restorePath (v : Dev) (q : Nat) : Dev :=
  match v.qp q with
  | none => v
  | some x =>
    match (v.session x.session).bind (·.pathOf q) with
    | none => v
    | some p =>
      if p.state != .held then v
      else
        let v1 := v.adjSession x.session (fun s => s.adjPath q (fun p => { p with state := .live }))
        ((v1.notice x.session 0x05 q).reissue x.session).launchQp q

/-- Queue pairs on a port or sub-port. -/
def Dev.qpsOn (v : Dev) (port sub : Nat) : List Nat :=
  (v.hosts.qps.filter (fun e => e.2.port.val == port && e.2.sub.val == sub)).map (·.1)

/-- A queue pair fault or a DREQ releases the path at once (R239). -/
def Dev.faultQp (v : Dev) (q : Nat) : Dev := v.releaseQp q

end Sys2Proof.Machine
end

