-- ==== Sys2Proof/Machine/Versions.lean ====
section
/-! DEFINITION. Versioned table updates (R79, R80), shared by every table that commands change. -/

namespace Sys2Proof.Machine

/-- A meter profile after a cold start (R291). -/
def coldProfile : MeterProfile :=
  ⟨false, 0x64000000, 0x64000000, 0x100000, 0x100000, 0x64000000, 0x64000000, 0x100000, 0x100000⟩

def Dev.meter (v : Dev) (n : Nat) : MeterProfile := Tab.getD v.hosts.meters n coldProfile

def Dev.keySlot (v : Dev) (n : Nat) : KeySlot := Tab.getD v.keySlots n .reset

def Dev.setKeySlot (v : Dev) (n : Nat) (k : KeySlot) : Dev := { v with keySlots := Tab.set v.keySlots n k }

/-- Tokens clipped to a burst in bytes. -/
def clipTokens (t : Int) (burst : Nat) : Int := min t (burst * 65536)

/-- A queue pair's instance takes a profile: new rates, tokens clipped to the new bursts (R304). -/
def Qp.takeProfile (q : Qp) (p : MeterProfile) (ver : BitVec 8) : Qp :=
  { q with profile := p, meterVer := ver, tcIn := clipTokens q.tcIn p.cbs, tpIn := clipTokens q.tpIn p.pbs,
           tcOut := clipTokens q.tcOut p.ecbs, tpOut := clipTokens q.tpOut p.epbs }

/-- The meter profile of a session's claim. -/
def Dev.meterOf (v : Dev) (sn : Nat) : Nat :=
  match (v.session sn).bind (fun s => v.claimDesc s.claim) with
  | some d => d.meterId
  | none => 0

/-- Every instance follows its claim's profile (R304). -/
def Dev.refreshMeters (v : Dev) : Dev :=
  { v with hosts := { v.hosts with qps := v.hosts.qps.map (fun e =>
      let n := v.meterOf e.2.session
      (e.1, e.2.takeProfile (v.meter n) (Tab.getD v.hosts.meterVers n 0))) } }

/-- Where the version of an entry without a table of its own is kept: forwarding modes by output times 8 plus class, groups,
and class shapers by sub-port times 8 plus class (R277, R279, R302). -/
def fwdVerKey (output cls : Nat) : Nat := output * 8 + cls
def groupVerKey (g : Nat) : Nat := 0x1000 + g
def shaperVerKey (port sub cls : Nat) : Nat := 0x2000 + (port * 4 + sub) * 8 + cls

/-- The version of an entry in force (R79). -/
def Dev.versionOf (v : Dev) (t : TableId) (key : Nat) : BitVec 8 :=
  match t with
  | .claim => (v.claimEntry key).version
  | .keySlot => (v.keySlot key).version
  | .window => Tab.getD v.hosts.winVers key 0
  | .meter => Tab.getD v.hosts.meterVers key 0
  | .multicast => Tab.getD v.hosts.tabVers (groupVerKey key) 0
  | .forwarding => Tab.getD v.hosts.tabVers (fwdVerKey (key / 8) (key % 8)) 0

/-- An entry takes an update: its version advances (R79). -/
def Dev.bumpVer (v : Dev) (key : Nat) : Dev :=
  { v with hosts := { v.hosts with tabVers := Tab.set v.hosts.tabVers key (Tab.getD v.hosts.tabVers key 0 + 1) } }

/-- Whether an output is in cut-through mode for a class (R277, R286). -/
def Dev.cutThrough (v : Dev) (o cls : Nat) : Bool :=
  o != 58 && bit (v.cfg (0x401004 + o / 4 * 4)).toNat (o % 4 * 8 + cls)

/-- Holders of a version other than the one in force: commands, grants and cells that matched it and are not finished (R74,
R79, R80). A queue pair's meter instance takes a new profile at once (R304), so nothing holds an old meter. -/
def Dev.oldHolders (v : Dev) (t : TableId) (key : Nat) : Nat :=
  match t with
  | .claim =>
      (v.hosts.ctxs.filter (fun c => c.claim == key && c.claimVer != v.versionOf .claim key)).length
        + (v.hosts.reads.filter (fun c => c.claim == key && c.claimVer != v.versionOf .claim key)).length
        + (v.hosts.flushes.filter (fun c => c.claim == key && c.claimVer != v.versionOf .claim key)).length
  | .keySlot =>
      (v.hosts.ctxs.filter (fun c => c.keySlot == key && c.keyVer != v.versionOf .keySlot key)).length
        + (v.hosts.reads.filter (fun c => c.keySlot == key && c.keyVer != v.versionOf .keySlot key)).length
  | .window => (v.hosts.grants.filter (fun g => g.window == key && g.winVer != v.versionOf .window key)).length
  | .meter => 0
  | .multicast =>
      let old (c : Cell) : Bool := c.mc && c.dest.val == key && c.group != Tab.getD v.hf.groups key []
      (v.hf.inputs.filter old).length + (v.hf.inter.filter (fun e => old e.cell)).length
  | .forwarding =>
      (v.hf.reorder.filter (fun e => e.output == key / 8 && e.cell.cls.val == key % 8
        && e.cut != v.cutThrough (key / 8) (key % 8))).length

/-- An update arrives for an entry (R79). -/
def Dev.queueUpdate (v : Dev) (t : TableId) (key : Nat) (a : UpdAction) (cmd : Option Nat) : Dev :=
  { v with hosts := { v.hosts with updates := v.hosts.updates ++ [⟨t, key, a, v.now, cmd⟩] } }

/-- The oldest update that waits for an entry. -/
def Dev.firstUpdate (v : Dev) (t : TableId) (key : Nat) : Option Update :=
  v.hosts.updates.find? (fun u => u.table == t && u.key == key)

def Dev.dropUpdate (v : Dev) (t : TableId) (key : Nat) : Dev :=
  { v with hosts := { v.hosts with updates := dropFirst (fun u => u.table == t && u.key == key) v.hosts.updates } }

def Dev.finishOpt (v : Dev) (cmd : Option Nat) (st : Byte) (r0 r1 r2 : Nat) : Dev :=
  match cmd with
  | some id => v.finish id st r0 r1 r2 []
  | none => v

/-- MiB of staging space of a spire's windows in use; a window revoked holds its memory until freed (R243, R252). -/
def Dev.stageUsed (v : Dev) (s : Nat) : Nat :=
  sumMap (fun e => if e.2.home.val == s then e.2.sizeMib else 0) v.hosts.windows

/-- STAGE_LIMIT_MIB; values above 8,192 act as 8,192 (R265). -/
def Dev.stageLimit (v : Dev) (s : Nat) : Nat := min (v.spireCfg s 6 0x40004 13 0) 8192

/-- The mode bit of an output and class in force is set; a key is the output times 8 plus the class (R277, R286). -/
def Dev.setFwdMode (v : Dev) (key : Nat) (cut : Bool) : Dev :=
  let o := 0x401004 + key / 32 * 4
  let m : Word := BitVec.ofNat 32 (2 ^ (key % 32))
  let w := if cut then v.cfg o ||| m else v.cfg o &&& ~~~m
  { v with regs := { v.regs with active := Tab.set v.regs.active o w } }

/-- An update takes effect on its entry and its command completes (R79, R245, R316, R412). -/
def Dev.applyUpdate (v : Dev) (u : Update) : Dev :=
  let e := v.claimEntry u.key
  match u.act with
  | .claimSet d =>
    let n := e.version + 1
    let v1 := { v with hosts := { v.hosts with claims := Tab.set v.hosts.claims u.key { e with desc := some d, version := n } } }
    v1.refreshMeters.finishOpt u.cmd stOk n.toNat 0 0
  | .claimRemove =>
    let v1 := { v with hosts := { v.hosts with
      claims := Tab.set v.hosts.claims u.key { e with desc := none, version := e.version + 1 } } }
    v1.finishOpt u.cmd stOk 0 0 0
  | .keyUsable =>
    let k := v.keySlot u.key
    v.setKeySlot u.key { k with usable := true, version := k.version + 1 }
  | .keyRevoke =>
    let k := v.keySlot u.key
    v.setKeySlot u.key { k with state := .revoking, version := k.version + 1 }
  | .windowLive =>
    let ver := Tab.getD v.hosts.winVers u.key 0
    match Tab.get v.hosts.windows u.key with
    | none => v.finishOpt u.cmd stInvalidField 0 0 0
    | some w =>
      let v1 := { v with hosts := { v.hosts with
        windows := Tab.set v.hosts.windows u.key { w with usable := true }
        winVers := Tab.set v.hosts.winVers u.key (ver + 1) } }
      v1.finishOpt u.cmd stOk u.key (w.gen.toNat * 2 ^ 14 + u.key) (v1.stageLimit w.home.val - v1.stageUsed w.home.val)
  | .windowRevoke =>
    let ver := Tab.getD v.hosts.winVers u.key 0
    match Tab.get v.hosts.windows u.key with
    | none => v
    | some w =>
      let gs := v.hosts.grants.filter (fun g => g.window == u.key && g.state == .granted)
      let v1 := { v with hosts := { v.hosts with
        windows := Tab.set v.hosts.windows u.key
          { w with state := .revoking, ended := gs.length, endBell := v.now,
                   revokeCmds := w.revokeCmds ++ (match u.cmd with | some c => [c] | none => []) }
        winVers := Tab.set v.hosts.winVers u.key (ver + 1) } }
      gs.foldl (fun x g => match x.ctx g.ctx with
        | some c => x.refuseCtx c stXferExpired
        | none => x) v1
  | .meterSet p =>
    let n := Tab.getD v.hosts.meterVers u.key 0 + 1
    let v1 := { v with hosts := { v.hosts with
      meters := Tab.set v.hosts.meters u.key p
      meterVers := Tab.set v.hosts.meterVers u.key n } }
    v1.refreshMeters.finishOpt u.cmd stOk n.toNat 0 0
  | .fwdMode cut => (v.setFwdMode u.key cut).bumpVer u.key
  | .none => v.finishOpt u.cmd stOk 0 0 0

/-! ### Entries that a page commit updates (R79, R80, R286, R304) -/

/-- Forwarding modes that the staged values of their page change, with the new mode. -/
def Dev.modeChanges (v : Dev) : List (Nat × Bool) :=
  (List.range 512).filterMap (fun key =>
    let o := 0x401004 + key / 32 * 4
    let new := bit (v.stagedCfg o).toNat (key % 32)
    if new != bit (v.cfg o).toNat (key % 32) then some (key, new) else none)

/-- A commit of the forwarding modes is taken: an entry with a holder of an older version keeps its mode, and its update waits
(R80); every other one that changes has a new version. -/
def Dev.takeModes (v : Dev) : Dev :=
  let one (x : Dev) (e : Nat × Bool) : Dev :=
    if x.oldHolders .forwarding e.1 = 0 then x.bumpVer e.1
    else
      let o := 0x401004 + e.1 / 32 * 4
      (x.queueUpdate .forwarding e.1 (.fwdMode e.2) none).stage o (x.stagedCfg o ^^^ BitVec.ofNat 32 (2 ^ (e.1 % 32)))
  v.modeChanges.foldl one v

/-- The class shapers that the staged values of a port's or sub-port's page change have a new version. Nothing holds an old one:
queued frames are scheduled under the new values (R79, R304). -/
def Dev.takeShapers (v : Dev) (n k : Nat) : Dev :=
  let differs (c : Nat) : Bool := (List.range 4).any (fun i =>
    let o := subBase n k + 0x010 + 0x10 * c + 4 * i
    v.stagedCfg o != v.cfg o)
  ((List.range 8).filter differs).foldl (fun x c => x.bumpVer (shaperVerKey n k c)) v

/-- The versions of the entries on a page advance as its commit is taken (R79). -/
def Dev.takeVersions (v : Dev) (p : Nat) : Dev :=
  if p = 0x401000 then v.takeModes
  else
    match ((List.range 8).flatMap (fun n => (List.range 4).map (fun k => (n, k)))).find? (fun e => subBase e.1 e.2 == p) with
    | some (n, k) => v.takeShapers n k
    | none => v

/-- The bell at which an update that is switched now takes effect: this one, or in stroke 7 before its boundary the next. -/
def Dev.switchBell (v : Dev) (u : Update) : Nat := if u.arrived + 1 ≤ v.now then v.now else v.now + 1

/-- The entry has already taken an update at a bell (R80). -/
def Dev.switchedAt (v : Dev) (t : TableId) (key bell : Nat) : Bool :=
  v.hosts.switched.any (fun e => e.1 == (t, key) && e.2 == bell)

/-- The oldest update of an entry takes effect when its bell has come, no version older than the one in force has a
holder, and the entry has taken no other update at that bell (R79, R80). -/
def Dev.switchEntry (v : Dev) (t : TableId) (key : Nat) : Dev :=
  match v.firstUpdate t key with
  | none => v
  | some u =>
    let n := v.switchBell u
    if v.atBell (u.arrived + 1) && v.oldHolders t key == 0 && !v.switchedAt t key n then
      let v1 := v.dropUpdate t key
      ({ v1 with hosts := { v1.hosts with switched := v1.hosts.switched ++ [((t, key), n)] } }).applyUpdate u
    else v

/-- At a bell boundary every entry with a due update takes its oldest one, one per entry (R72, R80). -/
def Dev.switchAll (v : Dev) : Dev :=
  let v1 := { v with hosts := { v.hosts with switched := v.hosts.switched.filter (fun e => decide (v.now ≤ e.2)) } }
  let keys := v.hosts.updates.foldl (fun acc u => if acc.contains (u.table, u.key) then acc else acc ++ [(u.table, u.key)]) []
  keys.foldl (fun x k => x.switchEntry k.1 k.2) v1

/-- Updates that have waited 4 peals complete TIMEOUT, the entry unchanged (R80). -/
def Dev.timeoutEntry (v : Dev) (t : TableId) (key : Nat) : Dev :=
  match v.firstUpdate t key with
  | none => v
  | some u =>
    if u.arrived + 4 * pealBells ≤ v.now then (v.dropUpdate t key).finishOpt u.cmd stTimeout 0 0 0 else v

/-- TABLE_VERSION_SWITCH (R79): an update takes effect at stroke 0 of the bell after it arrived. -/
def execTableVersionSwitch (t : TableId) (key : Nat) (s : State) : Host.Outcome State Fault Refusal :=
  s.on fun v => v.switchEntry t key

/-- TABLE_UPDATE_UNBLOCK (R80): an update that waited past its bell is applied once the oldest version has no holder. -/
def execTableUpdateUnblock (t : TableId) (key : Nat) (s : State) : Host.Outcome State Fault Refusal :=
  s.on fun v => match v.firstUpdate t key with
    | none => v
    | some u => if u.arrived + 1 < v.now then v.switchEntry t key else v

/-- TABLE_UPDATE_TIMEOUT (R80): an update still waiting after 4 peals completes TIMEOUT. -/
def execTableUpdateTimeout (t : TableId) (key : Nat) (s : State) : Host.Outcome State Fault Refusal :=
  s.on fun v => v.timeoutEntry t key

end Sys2Proof.Machine
end

