-- ==== Sys2Proof/Machine/Keys.lean ====
section
/-! DEFINITION. Key slots, leases, nonces and the randomness chain (R308 to R331). -/

namespace Sys2Proof.Machine

/-- Counter values in a lease (R320). -/
def leaseSpan : Nat := 2 ^ 40

/-! ### Lease records -/

/-- The index of the lease record of a KEY_ID, with the record. -/
def Dev.leaseOf (v : Dev) (keyId : BitVec 64) : Option (Nat × LeaseRec) := v.leases.find? (fun e => e.2.keyId == keyId)

/-- The lowest free record index of the 16,384 (R320). -/
def freeIndexGo {α : Type} : Nat → Nat → Tab α → Nat
  | 0, n, _ => n
  | _ + 1, n, [] => n
  | f + 1, n, (k, _) :: t => if k = n then freeIndexGo f (n + 1) t else n

/-- The lowest key a table does not list. -/
def Tab.freeKey {α : Type} (t : Tab α) : Nat := freeIndexGo t.length 0 t

/-- The Keeps grant the next lease of a key to be counted against its record, making the record at the first grant
(R320). None when every record is in use, which raises KEY_LEASE_FAIL (R321), or when all leases are granted. -/
def Dev.takeLease (v : Dev) (k : KeySlot) : Option Nat × Dev :=
  match v.leaseOf k.keyId with
  | some (i, r) =>
    if r.next < 2 ^ 24 then
      let r1 := { r with next := r.next + 1, epoch := if r.epoch < k.epoch then k.epoch else r.epoch }
      (some r.next, { v with leases := Tab.set v.leases i r1 })
    else (none, v)
  | none =>
    if v.leases.length < 16384 then
      (some 0, { v with leases := Tab.set v.leases (Tab.freeKey v.leases) ⟨k.keyId, 1, k.epoch⟩ })
    else (none, v.fault 0x082 7 0xFFFF k.keyId.toNat (k.keyId.toNat / 2 ^ 32) 2)

/-! ### Leases of a spire and the nonce of an append (R319 to R321) -/

def SpireLease.is (l : SpireLease) (s slot gen : Nat) : Bool := l.spire.val == s && l.slot == slot && l.gen == gen

def Dev.spireLease (v : Dev) (s slot : Nat) : Option SpireLease :=
  v.spireLeases.find? (fun l => l.is s slot (v.keySlot slot).generation)

/-- The lease a spire holds for a slot is set. -/
def Dev.setLease (v : Dev) (l : SpireLease) : Dev :=
  { v with spireLeases := v.spireLeases.filter (fun x => !x.is l.spire.val l.slot l.gen) ++ [l] }

/-- First value past a lease. -/
def leaseEnd (n : Nat) : Nat := (n + 1) * leaseSpan

/-- A slot's key may still encrypt, leases aside: its blob allows it and its epoch is in force (R318). -/
def Dev.slotEncrypts (v : Dev) (k : KeySlot) : Bool :=
  (k.encrypt || k.conn) && decide (v.sec.keyEpoch.toNat ≤ k.epoch.toNat)

/-- The lease with room for n counter values on a spire: the current one, the one granted after it, or a new one; a
lease too short for the run is abandoned (R320). -/
def Dev.roomyLease (v : Dev) (s : Spire) (slot n : Nat) : Option SpireLease × Dev :=
  let k := v.keySlot slot
  let fresh : Option SpireLease × Dev := match v.takeLease k with
    | (some m, v1) => (some ⟨s, slot, k.generation, m, m * leaseSpan, none, false⟩, v1)
    | (none, v1) => (none, v1)
  match v.spireLease s.val slot with
  | none => fresh
  | some l =>
    if l.next + n ≤ leaseEnd l.lease then (some l, v)
    else match l.more with
      | some m => (some { l with lease := m, next := m * leaseSpan, more := none }, v)
      | none => if l.failed then (none, v) else fresh

/-- An append reserves a run of n counter values on its arrival spire (R320 rule 3): the fixed field and first counter of
its nonces, or none where the reservation fails and the append completes KEY_TIRED (R318, R321). -/
def Dev.reserveNonce (v : Dev) (s : Spire) (slot n : Nat) : Option (BitVec 32 × BitVec 64) × Dev :=
  let k := v.keySlot slot
  if n = 0 then (some (0, 0), v)
  else if !(k.encrypt && v.slotEncrypts k) then (none, v)
  else
    match v.roomyLease s slot n with
    | (none, v1) => (none, v1)
    | (some l, v1) =>
      if k.limit.toNat < l.next + n then (none, v1.setLease l)
      else
        (some (BitVec.ofNat 32 (k.generation % 2 ^ 24 * 256 + s.val * 16 + (v.spire s.val).gangLead),
               BitVec.ofNat 64 l.next),
         v1.setLease { l with next := l.next + n })

/-- The key can encrypt further: bit 16 of KEY_QUERY is clear (R328). -/
def Dev.mayEncrypt (v : Dev) (slot : Nat) : Bool :=
  let k := v.keySlot slot
  let lim := k.limit.toNat
  let held := v.spireLeases.any (fun l => l.slot == slot && l.gen == k.generation &&
    (decide (l.next < min lim (leaseEnd l.lease)) ||
      (match l.more with | some m => decide (m * leaseSpan < lim) | none => false)))
  let later := match v.leaseOf k.keyId with
    | some (_, r) => decide (r.next < 2 ^ 24) && decide (r.next * leaseSpan < lim)
    | none => decide (v.leases.length < 16384) && decide (0 < lim)
  k.state != .empty && v.slotEncrypts k && (held || later)

/-! ### Use of a slot by commands (R317, R318) -/

/-- The slot counts as not loaded for a claim's command; `reading` for READ and STAT (R317). -/
def Dev.keyRevoked (v : Dev) (slot claim : Nat) (reading : Bool) : Bool :=
  let k := v.keySlot slot
  k.state != .loaded || !k.usable || v.mode == .fenced || k.claim != claim || k.conn || (reading && !k.decrypt)

/-- Operations that hold a slot's key: tallied commands and READs that matched it (R316). -/
def Dev.keyHolders (v : Dev) (slot : Nat) : Nat :=
  (v.hosts.ctxs.filter (fun c => c.keySlot == slot && c.kind == .append && c.heldAt.isNone)).length
    + (v.hosts.reads.filter (fun c => c.keySlot == slot)).length

/-- A slot becomes EMPTY: nothing of the key remains, and its KEY_REVOKE commands complete (R316). -/
def Dev.emptySlot (v : Dev) (slot : Nat) : Dev :=
  let k := v.keySlot slot
  let v1 := { (v.dropSlotCopies slot).setKeySlot slot { KeySlot.reset with generation := k.generation, version := k.version } with
    spireLeases := v.spireLeases.filter (fun l => l.slot != slot) }
  let v2 := { v1 with hosts := { v1.hosts with
    updates := v1.hosts.updates.filter (fun u => !(u.table == .keySlot && u.key == slot)) } }
  let waiting := (v.hosts.updates.filter (fun u => u.table == .keySlot && u.key == slot)).filterMap (·.cmd)
  (k.revokeCmds ++ waiting).eraseDups.foldl (fun x c => x.finishOk c k.notified 0 0) v2

/-- Zeroization of every slot at debug OPEN (R316, R341): READs, and appends not yet held, complete KEY_REVOKED. -/
def Dev.zeroizeAll (v : Dev) : Dev :=
  let cs := v.hosts.ctxs.filter (fun c => c.kind == .append && c.heldAt.isNone && c.phase != .queued)
  let v1 := cs.foldl (fun x c => match x.ctx c.id with
    | some y => x.refuseCtx y stKeyRevoked
    | none => x) v
  let rs := v1.hosts.reads
  let v2 := { v1 with hosts := { v1.hosts with reads := [] } }
  let v3 := rs.foldl (fun x r => x.answer r.session r.msg stKeyRevoked noExt 0 0) v2
  (v3.keySlots.map (·.1)).foldl (fun x n => if (x.keySlot n).state == .empty then x else x.emptySlot n) v3

/-! ### Key blobs (R313, R314) -/

/-- The clear header of a blob is well formed, but for its slot (R315 step 2). -/
def blobFormOk (v : Dev) (b : List Byte) : Bool :=
  let f := field b 4 1
  field b 0 2 == 1 && field b 2 2 < 4096 && f < 8 && f != 0 && (!bit f 2 || f == 4)
    && field b 5 3 == 0 && field b 28 4 == 0 && field b 24 4 ≤ v.sec.keyEpoch.toNat

/-- The key in a blob, where it unwraps (R314). -/
def Dev.unwrapBlob (v : Dev) (b : List Byte) : Option (List Byte) :=
  match v.sec.kek with
  | none => none
  | some kek =>
    match kwpUnwrap kek (slice b 32 72) with
    | none => none
    | some p => if p.length = 64 && p.take 32 == slice b 0 32 then some (p.drop 32) else none

/-- KEY_LOAD (R315, R316): the slot is usable from the next bell. -/
def execKeyLoad (p : Packet) (s : State) : Host.Outcome State Fault Refusal :=
  s.on fun v => v.floderRun 0x0301 p fun id v =>
    let n := p.u16 0
    let b := p.bytes 104
    if v.sec.lifecycle != .provisioned || v.sec.debug == .open_ then v.fail id stAccessDenied
    else if 8191 < n || (v.keySlot n).state != .empty || !(blobFormOk v b) then v.fail id stInvalidField
    else match v.unwrapBlob b with
      | none => v.fail id stAuthFail
      | some key =>
        let old := v.keySlot n
        let f := field b 4 1
        let epoch : BitVec 32 := BitVec.ofNat 32 (field b 24 4)
        let keyId : BitVec 64 := BitVec.ofNat 64 (field b 8 8)
        let gen := (old.generation + 1) % 2 ^ 32
        let v1 := (v.sendCopies n key).setKeySlot n
          { state := .loaded, generation := gen, claim := field b 2 2, conn := bit f 2, decrypt := bit f 1,
            encrypt := bit f 0, keyId := keyId, limit := BitVec.ofNat 64 (field b 16 8), epoch := epoch, key := key,
            version := old.version, usable := false, revokeCmds := [], notified := 0 }
        let v2 := match v1.leaseOf keyId with
          | some (i, r) =>
            let r1 := { r with epoch := if r.epoch < epoch then epoch else r.epoch }
            { v1 with leases := Tab.set v1.leases i r1 }
          | none => v1
        let v3 := v2.queueUpdate .keySlot n .keyUsable none
        let next := match v3.leaseOf keyId with | some (_, r) => r.next | none => 0
        v3.finishOk id gen next (b2n (v3.mayEncrypt n))

/-- KEY_REVOKE (R316, R328): NOTICE 0x06 to the claim's sessions; the slot is REVOKING from the next bell, and the
command completes when it is EMPTY. -/
def execKeyRevoke (p : Packet) (s : State) : Host.Outcome State Fault Refusal :=
  s.on fun v => v.floderRun 0x0302 p fun id v =>
    let n := p.u16 0 % 8192
    let k := v.keySlot n
    let pending := v.hosts.updates.any (fun u => u.table == .keySlot && u.key == n && u.act == .keyRevoke)
    if k.state == .empty then v.fail id stInvalidField
    else if k.state == .revoking || pending then
      v.setKeySlot n { k with revokeCmds := k.revokeCmds ++ [id] }
    else
      let sns := (v.hosts.sessions.filter (fun e => e.2.claim == k.claim)).map (·.1)
      let v1 := v.setKeySlot n { k with revokeCmds := k.revokeCmds ++ [id], notified := sns.length }
      (v1.noticeEach sns 0x06 n).queueUpdate .keySlot n .keyRevoke none

/-- KEY_ZEROIZE (R316): a REVOKING slot without a holder is zeroized. -/
def execKeyZeroize (slot : Nat) (s : State) : Host.Outcome State Fault Refusal :=
  s.on fun v => if (v.keySlot slot).state == .revoking && v.keyHolders slot == 0 then v.emptySlot slot else v

/-- Usage bits of a slot as blob byte 4 (R313, R328). -/
def KeySlot.usage (k : KeySlot) : Nat := b2n k.encrypt + 2 * b2n k.decrypt + 4 * b2n k.conn

/-- KEY_QUERY (R328). -/
def execKeyQuery (p : Packet) (s : State) : Host.Outcome State Fault Refusal :=
  s.on fun v => v.floderRun 0x0303 p fun id v =>
    let n := p.u16 0 % 8192
    let k := v.keySlot n
    match k.state with
    | .empty => v.finishOk id 0 k.generation 0
    | st =>
      v.finishOk id ((if st == .loaded then 1 else 2) + 256 * k.usage + 65536 * b2n (!(v.mayEncrypt n))) k.generation
        k.claim

/-- KEY_EPOCH_ADVANCE (R318, R321): records of older epochs are freed, keys of older epochs no longer encrypt. -/
def execKeyEpochAdvance (p : Packet) (s : State) : Host.Outcome State Fault Refusal :=
  s.on fun v => v.floderRun 0x0304 p fun id v =>
    let e := v.sec.keyEpoch + 1
    let kept := v.leases.filter (fun x => decide (e.toNat ≤ x.2.epoch.toNat))
    let v1 := { v with sec := { v.sec with keyEpoch := e }, leases := kept }
    let made := (v.keySlots.filter (fun x => x.2.state == .loaded && v.mayEncrypt x.1 && !(v1.mayEncrypt x.1))).length
    v1.finishOk id e.toNat (v.leases.length - kept.length) made

/-- CONN_KEY_BIND (R324). -/
def execConnKeyBind (p : Packet) (s : State) : Host.Outcome State Fault Refusal :=
  s.on fun v => v.floderRun 0x0305 p fun id v =>
    let sn := p.u16 0 % 8192
    let n := p.u16 2 % 8192
    let unbind := bit (p.u8 4) 0
    let k := v.keySlot n
    match v.session sn with
    | none => v.fail id stInvalidField
    | some x =>
      let protect := match v.claimDesc x.claim with | some d => d.payloadProtect | none => false
      if x.paths.any (fun q => q.state != .pending) then v.fail id stInvalidField
      else if unbind then (v.setSession sn { x with connKey := none }).finishOk id 0 0 0
      else if protect && k.state == .loaded && k.conn && k.claim == x.claim then
        (v.setSession sn { x with connKey := some n }).finishOk id 0 0 0
      else v.fail id stInvalidField

/-- LEASE_GRANT (R320, R321): a spire that holds no lease for a slot, or has used more than half of it, is granted the
next one after the Keeps have written LEASE_NEXT + 1; a failed write raises KEY_LEASE_FAIL and grants nothing. -/
def execLeaseGrant (sp : Spire) (slot : Nat) (nvOk : Bool) (s : State) : Host.Outcome State Fault Refusal :=
  s.on fun v =>
    let k := v.keySlot slot
    let cur := v.spireLease sp.val slot
    let due := match cur with
      | none => true
      | some l => l.more.isNone && (l.failed || decide (leaseSpan < 2 * (l.next - l.lease * leaseSpan)))
    if k.state != .loaded || !(k.encrypt && v.slotEncrypts k) || !(v.spireUp sp.val) || !due then v
    else if nvOk then
      match v.takeLease k with
      | (none, v1) => v1
      | (some m, v1) =>
        (match cur with
         | none => v1.setLease ⟨sp, slot, k.generation, m, m * leaseSpan, none, false⟩
         | some l => v1.setLease { l with more := some m, failed := false })
    else
      let inst := match v.leaseOf k.keyId with | some (i, _) => i | none => 0xFFFF
      let v1 := v.setLease (match cur with
        | none => ⟨sp, slot, k.generation, 0, leaseSpan, none, true⟩
        | some l => { l with failed := true })
      v1.fault 0x082 7 inst k.keyId.toNat (k.keyId.toNat / 2 ^ 32) 1

/-! ### Randomness and cores -/

def Rng.setSource (r : Rng) (k : KeepId) (ok : Bool) : Rng :=
  match k with
  | .A => { r with srcA := ok }
  | .B => { r with srcB := ok }

def Rng.source (r : Rng) : KeepId → Bool
  | .A => r.srcA
  | .B => r.srcB

/-- RNG_SOURCE_FAIL (R312): the source is disabled until the next warm chip reset, RNG_SOURCE is raised, and the root is
reseeded from the other source. -/
def execRngSourceFail (k : KeepId) (test : BitVec 32) (s : State) : Host.Outcome State Fault Refusal :=
  s.on fun v =>
    if v.keepSound k && v.chip.rng.source k then
      let r := v.chip.rng.setSource k false
      let reseeded := r.source (otherKeep k)
      let v1 := { v with chip := { v.chip with rng := { r with fedAt := if reseeded then v.now else r.fedAt } } }
      v1.fault 0x080 (keepRegion k) 0 test.toNat 0 0
    else v

/-- RNG_EXHAUSTED (R312): the root has run for 125 peals without a reseed. -/
def execRngExhausted (s : State) : Host.Outcome State Fault Refusal :=
  s.on fun v =>
    let r := v.chip.rng
    if v.mode != .held && r.rootOk && !r.srcA && !r.srcB && v.atBell (r.fedAt + 125 * pealBells) then
      ({ v with chip := { v.chip with rng := { r with rootOk := false } } }).fault 0x081 7 0 ((v.now - r.fedAt) / pealBells) 0 0
    else v

/-- The highest healthy core. -/
def leadOf (quarantined : BitVec 12) : Nat :=
  (((List.range 12).filter (fun c => !quarantined.getLsbD c)).getLast?).getD 0

/-- CIPHER_CORE_FAULT (R310, R12): the core is quarantined with a CELL_FAULT at DEGRADING and the gang re-forms; grains
cut short are encrypted again under the nonces their appends already have; with fewer than five healthy cores the block
faults. -/
def execCipherCoreFault (sp : Spire) (core : Fin 12) (s : State) : Host.Outcome State Fault Refusal :=
  s.on fun v =>
    let r := v.spire sp.val
    if r.cores.getLsbD core.val then v
    else
      let q := r.cores ||| BitVec.ofNat 12 (2 ^ core.val)
      let healthy := ((List.range 12).filter (fun c => !q.getLsbD c)).length
      let v1 := v.setSpire sp.val { r with cores := q, gangLead := leadOf q }
      let (tag, v2) := v1.free32
      let v3 := v2.faultIn ⟨srcOf 0x010 sp.val (0x60 * 64 + core.val), some 2, 0xFFFF, 0, 0, 0x60,
        BitVec.ofNat 32 core.val, tag⟩ false
      if healthy < 5 then
        let (word, v4) := v3.free32
        v4.fault 0x011 sp.val 0x60 word.toNat 0 0
      else v3

end Sys2Proof.Machine
end

