-- ==== Sys2Proof/Machine/Traffic.lean ====
section
/-! DEFINITION. Policing, shaping and time gates of the network ports (R289 to R307). -/

namespace Sys2Proof.Machine

/-! ### Ingress policing (R292 to R297) -/

/-- Bytes of messages of a port in its ingress buffer, of the priorities a mask selects: those not yet taken by the
command complex (R295, R297; assumption log 14). -/
def Dev.ingressBytes (v : Dev) (n prioMask : Nat) : Nat :=
  sumMap (fun w => match v.qp w.msg.qp with
    | some q => if q.port.val == n && bit prioMask q.prio then w.msg.msgLen else 0
    | none => 0) v.hosts.inbox

inductive PoliceResult where
  | pass
  | drop (event : Nat)
deriving DecidableEq, Repr

/-- A packet of cost B judged on its queue pair's instance (R294, R295, R296). The event is the counter of a drop. -/
def Dev.police (v : Dev) (q : Qp) (cost bytes : Nat) : PoliceResult × Qp :=
  let b : Int := cost * 65536
  let n := q.port.val
  let held := v.ingressBytes n 0xFF
  let fits := decide (held + bytes ≤ 4 * 1024 * 1024)
  if (v.port n).policer then
    if b ≤ q.tcIn && q.profile.cbs != 0 then (.pass, { q with tcIn := q.tcIn - b }) else (.drop 0x013, q)
  else if q.profile.pir = 0 || q.tpIn < b then (.drop 0x010, q)
  else if q.tcIn < b then
    let q1 := { q with tpIn := q.tpIn - b }
    if v.cfgBits (portBase n + 0x008) 31 16 * 1024 ≤ held then (.drop 0x011, q1)
    else if fits then (.pass, q1) else (.drop 0x012, q1)
  else
    let q1 := { q with tpIn := q.tpIn - b, tcIn := q.tcIn - b }
    if fits then (.pass, q1) else (.drop 0x012, q1)

/-- The two lowest set bits of PFC_PRIO (R297). -/
def pfcPrios (m : Nat) : Nat :=
  let l := ((List.range 8).filter (fun i => bit m i)).take 2
  sumMap (fun i => 2 ^ i) l

/-- A PFC frame for the priorities of a port leaves on every link of it that is up (R297, R298). -/
def Dev.sendPfc (v : Dev) (n prios quanta : Nat) : Dev :=
  (((List.range 4).filter (fun k => v.linkUp n k)).foldl (fun x k => x.sendLocal n k false (.pfc (BitVec.ofNat 8 prios) quanta)) v).countPort
    n 0x017 1

/-- PFC after the buffer has changed: pause at PFC_XOFF_KIB, resume at PFC_XON_KIB (R297, R307). -/
def Dev.pfcCheck (v : Dev) (n : Nat) : Dev :=
  let prios := pfcPrios (v.cfgBits (portBase n + 0x004) 15 8)
  let occ := v.ingressBytes n prios
  let xoff := v.cfgBits (portBase n + 0x00C) 31 16 * 1024
  let xon := v.cfgBits (portBase n + 0x00C) 15 0 * 1024
  let p := v.port n
  if prios = 0 then v
  else if !p.pfcSent && decide (xoff ≤ occ) && occ != 0 then
    (v.setPort n { p with pfcSent := true, pfcAt := v.now }).sendPfc n prios 0xFFFF
  else if p.pfcSent && decide (occ ≤ xon) then
    (v.setPort n { p with pfcSent := false }).sendPfc n prios 0
  else v

/-- Both policing modes change at boundaries; buckets carry over as R296 says. -/
def Dev.setPolicer (v : Dev) (n : Nat) (on : Bool) : Dev :=
  let v1 := v.setPort n { v.port n with policer := on, toPolicer := false }
  { v1 with hosts := { v1.hosts with qps := v1.hosts.qps.map (fun e =>
      if e.2.port.val == n then
        (e.1, if on then { e.2 with tcIn := clipTokens e.2.tcIn e.2.profile.cbs }
              else { e.2 with tpIn := e.2.profile.pbs * 65536 })
      else e) } }

/-- POLICE_FORCE of a port (R293). -/
def Dev.policeForce (v : Dev) (n : Nat) : Bool := v.cfgBits (portBase n + 0x004) 31 31 == 1

/-! ### Token refill at stroke 0 (R289) -/

/-- A queue pair's buckets gain one bell's rate and are clipped (R289, R296, R300). -/
def Qp.refill (q : Qp) : Qp :=
  let p := q.profile
  let peakRate : Option Nat :=
    if p.eshapeEn then some (match q.pacing with | some r => min (capRate p.epir) r | none => capRate p.epir)
    else q.pacing
  { q with
    tcIn := clipTokens (q.tcIn + capRate p.cir) p.cbs
    tpIn := clipTokens (q.tpIn + capRate p.pir) p.pbs
    tcOut := clipTokens (q.tcOut + capRate p.ecir) p.ecbs
    tpOut := match peakRate with
      | some r => clipTokens (q.tpOut + r) p.epbs
      | none => (p.epbs * 65536 : Nat) }

/-- Class shaper register of a class (R305): 0 CIR, 1 PIR, 2 CBS, 3 PBS. -/
def Dev.cshape (v : Dev) (n k c i : Nat) : Nat :=
  let x := (v.cfg (subBase n k + 0x010 + 0x10 * c + 4 * i)).toNat
  if i < 2 then capRate x else x

def Dev.shapeEn (v : Dev) (n k c : Nat) : Bool := bit (v.cfgBits (subBase n k + 0x004) 7 0) c

def Dev.peakOf (v : Dev) (n k c : Nat) (e : Egress) : Int := Tab.getD e.peak c (v.cshape n k c 3 * 65536 : Nat)
def Dev.commitOf (v : Dev) (n k c : Nat) (e : Egress) : Int := Tab.getD e.commit c (v.cshape n k c 2 * 65536 : Nat)

/-- The class buckets of a port or sub-port gain one bell's rate; a class without its SHAPE_EN bit keeps none (R299). -/
def Dev.refillClasses (v : Dev) (n k : Nat) (e : Egress) : Egress :=
  let on := (List.range 8).filter (fun c => v.shapeEn n k c)
  { e with
    peak := on.map (fun c => (c, clipTokens (v.peakOf n k c e + v.cshape n k c 1) (v.cshape n k c 3)))
    commit := on.map (fun c => (c, clipTokens (v.commitOf n k c e + v.cshape n k c 0) (v.cshape n k c 2))) }

/-- Largest window of a queue pair (R241, R242). -/
def Dev.maxWnd (v : Dev) (home mtu : Nat) : Nat := max (v.spireCfg home 6 0x3000C 15 0 * 1024) mtu

/-- With CC_EN 0 a queue pair's window is fixed at its largest and nothing paces it but the shapers (R241, R300). -/
def Dev.fixedWnd (v : Dev) (q : Qp) : Qp :=
  if v.spireCfg q.home.val 6 0x3000C 31 31 = 1 then q else { q with wnd := v.maxWnd q.home.val q.mtu, pacing := none }

/-- Meter token update of every queue pair and class (R72). -/
def Dev.refillAll (v : Dev) : Dev :=
  { v with hosts := { v.hosts with
      qps := v.hosts.qps.map (fun e => (e.1, (v.fixedWnd e.2).refill))
      egress := v.hosts.egress.map (fun e => (e.1, v.refillClasses (e.1 / 4) (e.1 % 4) e.2)) } }

/-! ### Time gates (R301 to R304) -/

/-- The gate entry in force at a bell of the peal (R301, R306). -/
def Dev.syncGate (v : Dev) (n k bell : Nat) (e : Egress) : Egress :=
  if v.gateEn n k then
    match segsFrom (v.gateSegs n k v.clk.pealLen) bell with
    | [] => { e with entry := none, left := 0 }
    | (i, _, d) :: _ => { e with entry := i, left := d }
  else { e with entry := none, left := 0 }

/-- The bell of the peal whose stroke 0 is at hand: the next one once stroke 7 has come (assumption log 11). -/
def Dev.nearBell (v : Dev) : Nat :=
  if 448 ≤ v.clk.ns then (if v.clk.bellInPeal + 1 < v.clk.pealLen then v.clk.bellInPeal + 1 else 0) else v.clk.bellInPeal

/-- A peal boundary is at hand. -/
def Dev.atPeal (v : Dev) : Bool := v.nearBell == 0

/-- The peal in progress, or the one whose boundary ends this bell (assumption log 11). -/
def Dev.pealNow (v : Dev) : Nat :=
  if decide (448 ≤ v.clk.ns) && decide (v.clk.pealLen ≤ v.clk.bellInPeal + 1) then v.clk.peals + 1 else v.clk.peals

/-- Frames that fit no window of the list in force are dropped (R304). -/
def Dev.dropStranded (v : Dev) (n k : Nat) : Dev :=
  let e := v.eg n k
  let keep := e.queue.filter (v.gateAdmits n k)
  let lost := e.queue.length - keep.length
  if lost = 0 then v else (v.setEg n k { e with queue := keep }).countPort n 0x015 lost

/-- A committed gate list takes effect at bell 0 of a peal (R304). -/
def Dev.switchGates (v : Dev) (n k : Nat) : Dev :=
  let pg := subBase n k + 0x1000
  match (v.page pg).due with
  | none => v
  | some d =>
    if v.atBell d then
      let v1 := v.applyPage pg
      let v2 := v1.setEg n k { v1.eg n k with gateVer := (v1.eg n k).gateVer + 1 }
      v2.dropStranded n k
    else v

/-! ### Transmission (R299, R300) -/

/-- A queue pair's own shaper lets a frame go (R300). -/
def Dev.qpPasses (v : Dev) (f : Frame) : Bool :=
  match f.qp with
  | none => true
  | some n =>
    match v.qp n with
    | none => true
    | some q =>
      let cc := v.spireCfg q.home.val 6 0x3000C 31 31 == 1
      let shaped := cc || q.profile.eshapeEn
      !shaped || (decide (0 ≤ q.tpOut) &&
        (!q.profile.eshapeEn || decide (0 ≤ q.tcOut) || decide ((q.profile.epbs * 65536 / 2 : Nat) ≤ q.tpOut)))

/-- The place of a frame's queue pair in the round robin; frames of no queue pair come last. -/
def rrKey (f : Frame) : Nat := match f.qp with
  | some q => q
  | none => 65536

/-- The first frame of each queue pair of a class, in queue order. -/
def headsOf (c : Nat) : List Frame → List Nat → List Frame
  | [], _ => []
  | f :: fs, seen =>
    if f.cls == c && !seen.contains (rrKey f) then f :: headsOf c fs (rrKey f :: seen) else headsOf c fs seen

/-- The head frame of a class: queue pairs round-robin, those held by their own shaper skipped (R299). -/
def Dev.headFrame (v : Dev) (e : Egress) (c : Nat) : Option Frame :=
  let cand := (headsOf c e.queue []).filter v.qpPasses
  let last := Tab.getD e.rrNext c 65536
  let least (l : List Frame) : Option Frame := l.foldl (fun a f => match a with
    | none => some f
    | some b => if rrKey f < rrKey b then some f else some b) none
  match least (cand.filter (fun f => decide (last < rrKey f))) with
  | some f => some f
  | none => least cand

/-- The frame the port or sub-port sends at a transmit opportunity (R299). -/
def Dev.chooseFrame (v : Dev) (n k : Nat) : Option Frame :=
  let e := v.eg n k
  let elig := (List.range 8).filterMap (fun c =>
    match v.headFrame e c with
    | none => none
    | some f =>
      if v.gateAllows n k f && decide (Tab.getD e.paused c 0 ≤ v.mono)
          && (!v.shapeEn n k c || decide (0 ≤ v.peakOf n k c e)) then
        some (f, !v.shapeEn n k c || decide (0 ≤ v.commitOf n k c e))
      else none)
  match (elig.filter (·.2)).getLast? with
  | some x => some x.1
  | none => (elig.getLast?).map (·.1)

/-- Send a frame: it leaves the queue, and every bucket of its class and queue pair is debited (R299); a request packet is stamped as it
leaves (R234). -/
def Dev.sendFrame (v : Dev) (n k : Nat) (f : Frame) : Dev :=
  let e := v.eg n k
  let cost : Int := frameCost f.len * 65536
  let e1 := { e with
    queue := dropFirst (· == f) e.queue
    rrNext := Tab.set e.rrNext f.cls (rrKey f)
    peak := if v.shapeEn n k f.cls then Tab.set e.peak f.cls (v.peakOf n k f.cls e - cost) else e.peak
    commit := if v.shapeEn n k f.cls then Tab.set e.commit f.cls (v.commitOf n k f.cls e - cost) else e.commit }
  let v1 := (((v.setEg n k e1).countPort n 0x002 f.len).countPort n 0x004 1).emit
    (.frame (Fin.ofNat 8 n) (Fin.ofNat 4 k) f)
  match f.qp with
  | none => v1
  | some q => v1.adjQp q (fun x =>
      { x with tcOut := x.tcOut - cost, tpOut := x.tpOut - cost,
               unacked := updAll (fun (u : Unacked) => f.psn == some u.psn) (fun u => { u with sentAt := v.mono }) x.unacked })

/-! ### Commands -/

/-- POLICER_MODE_RETURN (R293): at a peal boundary with 960 or fewer queue pairs bound and POLICE_FORCE 0, a port returns
to METER mode. -/
def execPolicerModeReturn (port : Port) (s : State) : Host.Outcome State Fault Refusal :=
  s.on fun v =>
    if v.atPeal && (v.port port.val).policer && decide (v.boundQps port.val ≤ 960) && !(v.policeForce port.val) then
      v.setPolicer port.val false
    else v

/-- TRANSMIT_OPPORTUNITY (R299): the port chooses a frame by gates, shapers and class, sends it and debits its buckets. -/
def execTransmitOpportunity (port : Port) (sub : Sub) (s : State) : Host.Outcome State Fault Refusal :=
  s.on fun v =>
    if v.transportOn && v.linkUp port.val sub.val then
      match v.chooseFrame port.val sub.val with
      | some f => v.sendFrame port.val sub.val f
      | none => v
    else v

/-- GATE_ENTRY_ADVANCE (R301): at stroke 0 the entry whose turn it is, or the default mask, applies. -/
def execGateEntryAdvance (port : Port) (sub : Sub) (s : State) : Host.Outcome State Fault Refusal :=
  s.on fun v => v.setEg port.val sub.val (v.syncGate port.val sub.val v.nearBell (v.eg port.val sub.val))

/-- GATE_LIST_SWITCH (R304): a committed gate list takes effect at bell 0 of a peal; stranded frames are dropped. -/
def execGateListSwitch (port : Port) (sub : Sub) (s : State) : Host.Outcome State Fault Refusal :=
  s.on fun v =>
    if v.atPeal then
      let v1 := v.switchGates port.val sub.val
      v1.setEg port.val sub.val (v1.syncGate port.val sub.val 0 (v1.eg port.val sub.val))
    else v

/-- PFC_RECEIVE (R297): a received PFC frame stops the egress classes it names for their quanta, of 512 bit times each
(assumption log 15); quanta 0 ends a pause. -/
def execPfcReceive (port : Port) (sub : Sub) (quanta : List (Nat × Nat)) (s : State) :
    Host.Outcome State Fault Refusal :=
  s.on fun v =>
    if v.linkUp port.val sub.val && !v.chip.frozenIn then
      let e := v.eg port.val sub.val
      let rate := lineRate (v.port port.val).breakout
      (v.received port.val (Wire.len false (.pfc 0 0))).setEg port.val sub.val { e with
        paused := quanta.foldl (fun t q => Tab.set t (q.1 % 8) (v.mono + ceilDiv (q.2 % 65536 * 512) rate)) e.paused }
    else v

/-- PFC_REFRESH (R297): every 64 bells while the occupancy stays above PFC_XON_KIB the pause is sent again. -/
def execPfcRefresh (port : Port) (s : State) : Host.Outcome State Fault Refusal :=
  s.on fun v =>
    let n := port.val
    let p := v.port n
    let prios := pfcPrios (v.cfgBits (portBase n + 0x004) 15 8)
    if p.pfcSent && v.atBell (p.pfcAt + 64)
        && decide (v.cfgBits (portBase n + 0x00C) 15 0 * 1024 < v.ingressBytes n prios) then
      (v.setPort n { p with pfcAt := v.now }).sendPfc n prios 0xFFFF
    else v

/-- The profile of a METER_PROFILE_SET (R291). -/
def readProfile (p : Packet) : MeterProfile :=
  ⟨p.u8 2 % 2 == 1, p.u32 4, p.u32 8, field p.params 12 3, field p.params 16 3, p.u32 20, p.u32 24,
   field p.params 28 3, field p.params 32 3⟩

/-- The profile breaks no rule of R291. -/
def profileOk (p : Packet) : Bool :=
  let m := readProfile p
  p.u16 0 < 8192 && p.u8 2 < 2 && p.u8 3 == 0 && p.u8 15 == 0 && p.u8 19 == 0 && p.u8 31 == 0 && p.u8 35 == 0
    && allZero (slice p.params 36 12)
    && m.cir ≤ 0x64000000 && m.pir ≤ 0x64000000 && m.ecir ≤ 0x64000000 && m.epir ≤ 0x64000000
    && m.cir ≤ m.pir && m.cbs ≤ m.pbs && m.ecir ≤ m.epir && m.ecbs ≤ m.epbs

/-- METER_PROFILE_SET (R291): a versioned update of a profile. -/
def execMeterProfileSet (p : Packet) (s : State) : Host.Outcome State Fault Refusal :=
  s.on fun v => v.floderRun 0x0540 p fun id v =>
    if profileOk p then v.queueUpdate .meter (p.u16 0) (.meterSet (readProfile p)) (some id)
    else v.fail id stInvalidField

/-- The 48 B of a profile (R291). -/
def profileBytes (n : Nat) (m : MeterProfile) : List Byte :=
  leBytes 2 n ++ leBytes 2 (b2n m.eshapeEn) ++ leBytes 4 m.cir ++ leBytes 4 m.pir ++ leBytes 4 m.cbs ++ leBytes 4 m.pbs
    ++ leBytes 4 m.ecir ++ leBytes 4 m.epir ++ leBytes 4 m.ecbs ++ leBytes 4 m.epbs ++ zeros 12

/-- METER_PROFILE_GET (R291): the profile in force and its version. -/
def execMeterProfileGet (p : Packet) (s : State) : Host.Outcome State Fault Refusal :=
  s.on fun v => v.floderRun 0x0541 p fun id v =>
    let n := p.u16 0 % 8192
    v.finish id stOk (v.versionOf .meter n).toNat 0 0 (profileBytes n (v.meter n))

end Sys2Proof.Machine
end

