-- ==== Sys2Proof/Machine/Transport.lean ====
section
/-! DEFINITION. RoCEv2 transport, connection management, sessions, and the completion ring (R218 to R242, R254 to R257,
R492, R493). -/

namespace Sys2Proof.Machine

/-! ### Connection management (R220, R221, R225, R229) -/

/-- The window a queue pair starts with (R234). -/
def Dev.initWnd (v : Dev) (home mtu : Nat) : Nat :=
  if v.spireCfg home 6 0x3000C 31 31 = 1 then max (v.spireCfg home 6 0x30008 31 16 * 1024) mtu else v.maxWnd home mtu

/-- Queue pairs homed on a spire (R220). -/
def Dev.homedOn (v : Dev) (s : Nat) : Nat := (v.hosts.qps.filter (fun e => e.2.home.val == s)).length

/-- Ring parameters are in range (R229). -/
def ringOk (va : BitVec 64) (entries : BitVec 32) : Bool :=
  [64, 128, 256, 512, 1024, 2048, 4096, 8192, 16384, 32768, 65536].contains entries.toNat && va.toNat % 64 == 0

/-- The join block is well formed (R221). -/
def joinOk (r : CmReq) : Bool :=
  decide (40 ≤ r.priv.length) && r.magic == 0x31505856 && r.version == 1 && r.sessionWord.toNat / 8192 == 0 && r.rsvd10 == 0 && r.rsvd36 == 0
    && r.tailZero

/-- The session a join block names (R221). -/
def joinSession (r : CmReq) : Nat := r.sessionWord.toNat % 8192

/-- Home spire of a path's queue pair. -/
def Dev.pathHome (v : Dev) (p : Path) : Nat := v.homeOf p.qp

/-- The HELD path of a session homed on a spire, which a join there replaces (R225). -/
def Dev.heldOn (v : Dev) (s : Session) (home : Nat) : Option Path :=
  s.paths.find? (fun p => p.state == .held && v.pathHome p == home)

/-- The reject code of a REQ, none when every check passes (R221). -/
def Dev.rejectCode (v : Dev) (r : CmReq) : Option Byte :=
  let home := portSpire r.port.val
  if v.chip.drain.offReady then some 0x07
  else if r.serviceId != 0x5856 || !r.rc || r.mtu < 1024 then some 0x05
  else if !joinOk r then some 0x09
  else match v.session (joinSession r) with
    | none => some 0x01
    | some s =>
      let enabled := match v.claimDesc s.claim with | some d => d.enable | none => false
      let held := if (v.heldOn s home).isSome then 1 else 0
      if s.cookie != r.cookie then some 0x01
      else if !enabled then some 0x08
      else if s.maxPaths ≤ s.paths.length - held then some 0x02
      else if s.paths.any (fun p => p.state != .held && v.pathHome p == home) then some 0x03
      else if 16384 ≤ v.hosts.qps.length - held || 4096 ≤ v.homedOn home - held then some 0x04
      else if !(ringOk r.ringVa r.ringEntries)
          || (!s.paths.isEmpty && (s.ringVa != r.ringVa || s.ringEntries != r.ringEntries.toNat)) then some 0x06
      else none

/-- A queue pair at its connection (R220, R293, R294). -/
def Dev.newQp (v : Dev) (r : CmReq) : Qp :=
  let home : Spire := Fin.ofNat 4 (portSpire r.port.val)
  let mtu := min r.mtu 4096
  let m := v.meterOf (joinSession r)
  let p := v.meter m
  { session := (joinSession r), port := r.port, sub := r.sub, ipv6 := r.ipv6, home := home, mtu := mtu, prio := r.prio.toNat,
    rxPsn := r.startPsn, mirrorPsn := r.startPsn, ackedPsn := r.startPsn, nakSent := false, write := none,
    txPsn := r.devPsn, unacked := [], waiting := [], wnd := v.initWnd home.val mtu, srtt := none, lastDecrease := 0, pacing := none,
    retries := 0, rnrRetries := 0, lastCnp := none, cnpCount := 0, meterVer := v.versionOf .meter m, profile := p,
    tcIn := (p.cbs * 65536 : Nat), tpIn := (p.pbs * 65536 : Nat), tcOut := (p.ecbs * 65536 : Nat),
    tpOut := (p.epbs * 65536 : Nat), protLease := none, protCount := 0 }

/-- The private data of a REP (R221). -/
def repBytes (q home anchor idx : Nat) (floor : BitVec 32) (nextSeq : Nat) : List Byte :=
  leBytes 4 0x31505856 ++ [1, BitVec.ofNat 8 (16 * (home % 4) + 4 * (anchor % 4) + idx % 4)] ++ leBytes 2 q ++ leBytes 4 floor.toNat
    ++ leBytes 4 (nextSeq % 2 ^ 24) ++ zeros 4

/-- The private data of a REJ (R221). -/
def rejBytes (code : Byte) : List Byte := leBytes 4 0x31505856 ++ [code]

/-- A CM datagram is received on a port (R435). -/
def Dev.receivedCm (v : Dev) (n : Nat) (ipv6 : Bool) : Dev := v.received n (cmLen ipv6)

/-- A CM datagram is received about a queue pair. -/
def Dev.receivedAbout (v : Dev) (qp : Nat) : Dev :=
  match v.qp qp with
  | none => v
  | some q => v.receivedCm q.port.val q.ipv6

/-- The bind that makes 1,025 queue pairs on a port asks for POLICER mode at the next boundary (R293). -/
def Dev.bound (v : Dev) (port : Nat) : Dev :=
  if 1024 < v.boundQps port && !(v.port port).policer then v.setPort port { v.port port with toPolicer := true } else v

/-- CM_REQ (R221, R225, R229): REJ of reason 28 at the first check that fails, otherwise a queue pair and a PENDING path, and a
REP. -/
def execCmReq (r : CmReq) (s : State) : Host.Outcome State Fault Refusal :=
  s.on fun v0 =>
    if !(v0.transportOn && v0.linkUp r.port.val r.sub.val) then v0
    else
      let v := v0.receivedCm r.port.val r.ipv6
      match v.rejectCode r with
      | some c => v.sendLocal r.port.val r.sub.val r.ipv6 (.rej (rejBytes c))
      | none =>
        match v.session (joinSession r) with
        | none => v
        | some x =>
          let home : Spire := Fin.ofNat 4 (portSpire r.port.val)
          let held := v.heldOn x home.val
          let v1 := match held with | some p => v.releaseQp p.qp | none => v
          match v1.session (joinSession r) with
          | none => v1
          | some y =>
            let idx := match held with | some p => p.idx | none => (y.freeIndex).getD 0
            let q := Tab.freeKey v1.hosts.qps
            let fresh := x.paths.isEmpty
            let p : Path := ⟨idx, q, .pending, 0, r.ringRkey, r.notifyCount.toNat, r.notifyStrokes.toNat, 0, none, false,
              0, false⟩
            let y1 := { y with
              anchor := some (y.anchor.getD home)
              ringVa := if fresh then r.ringVa else y.ringVa
              ringEntries := if fresh then r.ringEntries.toNat else y.ringEntries
              consumed := if fresh then y.nextSeq else y.consumed
              consumerBusy := !fresh && y.consumerBusy
              paths := y.paths ++ [p] }
            let v2 := ((v1.setSession (joinSession r) y1).setQp q (v1.newQp r)).bound r.port.val
            v2.sendAbout q (.rep q (repBytes q home.val (v2.anchor y1) idx y1.floor y1.nextSeq))

/-- A queue pair of a protected session takes a lease number for its nonces (R325); none when the key cannot encrypt. -/
def Dev.takeProtLease (v : Dev) (q : Nat) : Dev :=
  match (v.sessionOf q).bind v.session with
  | none => v
  | some s =>
    match s.connKey with
    | none => v
    | some slot =>
      let k := v.keySlot slot
      let next := match v.leaseOf k.keyId with | some (_, r) => r.next | none => 0
      if k.state == .loaded && k.conn && v.slotEncrypts k && decide (next * leaseSpan < k.limit.toNat) then
        match v.takeLease k with
        | (n, v1) => v1.adjQp q (fun x => { x with protLease := n, protCount := 0 })
      else v

/-- CM_RTU (R221, R225): the PENDING path becomes LIVE. -/
def execCmRtu (qp : Nat) (s : State) : Host.Outcome State Fault Refusal :=
  s.on fun v =>
    if v.transportOn && v.pathState qp == some .pending then
      match v.sessionOf qp with
      | none => v
      | some sn =>
        let v1 := ((v.receivedAbout qp).adjSession sn (fun x => x.adjPath qp (fun p => { p with state := .live }))).takeProtLease qp
        v1.reissue sn
    else v

/-- PENDING_PATH_RELEASE (R225): the CM exchange ends without an RTU. -/
def execPendingPathRelease (qp : Nat) (s : State) : Host.Outcome State Fault Refusal :=
  s.on fun v => if v.pathState qp == some .pending then v.releaseQp qp else v

/-- CM_DREQ (R239): the path is released at once and the DREQ answered with a DREP. -/
def execCmDreq (qp : Nat) (s : State) : Host.Outcome State Fault Refusal :=
  s.on fun v =>
    match v.qp qp with
    | none => v
    | some q =>
      if v.transportOn then ((v.receivedAbout qp).releaseQp qp).sendLocal q.port.val q.sub.val q.ipv6 (.drep qp) else v

/-- ARP_ND_REQUEST (R218): answered for the port's own addresses. -/
def execArpNdRequest (port : Port) (sub : Sub) (target : ArpTarget) (s : State) : Host.Outcome State Fault Refusal :=
  s.on fun v =>
    let p := v.port port.val
    let own := match target with
      | .v4 a => Tab.get p.ipv4 sub.val == some a
      | .v6 a => Tab.get p.ipv6 sub.val == some a
    if v.transportOn && v.linkUp port.val sub.val then
      let v1 := v.received port.val (arpLen target)
      if own then v1.sendLocal port.val sub.val false (.arpReply target) else v1
    else v

/-- UNSUPPORTED_FRAME (R218, R219): a frame of a length is dropped and counted. -/
def execUnsupportedFrame (port : Port) (s : State) (len : Nat := 64) : Host.Outcome State Fault Refusal :=
  s.on fun v =>
    if (List.range 4).any (fun k => v.linkUp port.val k) && !v.chip.frozenIn then (v.received port.val len).countPort port.val 0x01B 1 else v

/-! ### Messages (R119, R255, R256, R403) -/

/-- The opcodes of R118. -/
def listedOpcode (op : Byte) : Bool := [0x01, 0x02, 0x03, 0x04, 0x05, 0x06, 0x07, 0x09, 0x0A].contains op

/-- Connection payload protection applies to a session: its claim asks for it and a key is bound (R324). -/
def Dev.protected (v : Dev) (s : Session) : Bool :=
  s.connKey.isSome && (match v.claimDesc s.claim with | some d => d.payloadProtect | none => false)

/-- Length of a message for every length rule: of its plaintext on a protected session (R325). -/
def Dev.plainLen (v : Dev) (s : Session) (m : Delivered) : Nat :=
  if v.protected s && m.msgLen != 0 then m.msgLen - 28 else m.msgLen

/-- The in-flight limits of R135 leave no slot for a capsule on a queue pair. -/
def Dev.noSlot (v : Dev) (qp : Nat) : Bool :=
  decide (4096 ≤ v.inFlightQp qp) || decide (524288 ≤ v.inFlightSpire (v.homeOf qp))

/-- Answer a capsule that came after SESSION_CLOSE had started (R224): the close does not wait for it. -/
def Dev.answerLate (v : Dev) (sn : Nat) (d : Delivered) (st : Byte) : Dev :=
  let c := v.completionOf sn d st noExt false 0 0 0 0 0
  v.adjSession sn (fun s => { s with built := s.built ++ [⟨.completion c, some d.qp, none, true, some d.at_, false⟩] })

/-- A capsule that arrives now, stamped, from now on waiting at ingress. -/
def Dev.arrival (v : Dev) (m : Delivered) : Waiting := ⟨{ m with at_ := v.mono }, v.now, v.stamp⟩

/-- A capsule arrives at ingress: executed later, answered at once by close, mode or opcode, or waiting in DRAIN (R84, R103, R119,
R224, R341). That R224 answers "every capsule" of a session that closes goes before the answers of the modes (DEDUCED, assumption log
24). -/
def Dev.arrive (v : Dev) (sn : Nat) (w : Waiting) : Dev :=
  let m := w.msg
  let refuse := v.answer sn m stBusyMode noExt 0 0
  let wait := { v with chip := { v.chip with drain := { v.chip.drain with waiting := v.chip.drain.waiting ++ [w] } } }
  if (match v.session sn with | some s => s.closing.isSome | none => false) then v.answerLate sn m stAccessDenied
  else if v.mode == .drain then
    match v.chip.drain.purpose with
    | .activation => wait
    | .shutdown =>
      if v.cfgBits 0x2004 30 30 = 1 || v.chip.drain.retire || v.noSlot m.qp then refuse else wait
    | _ => refuse
  else if !v.serving then refuse
  else if !(listedOpcode m.opcode) then v.answer sn m stInvalidOpcode noExt 0 0
  else { v with hosts := { v.hosts with inbox := v.hosts.inbox ++ [w] } }

def Dev.capsuleIn (v : Dev) (sn : Nat) (m : Delivered) : Dev := v.arrive sn (v.arrival m)

/-- The first posted context an immediate matches (R255). -/
def Session.matchCtx (s : Session) (i : BitVec 32) : Option RecvCtx :=
  s.contexts.find? (fun c => (i ^^^ c.tag) &&& ~~~c.mask == 0)

/-- An immediate of a grant of session n that is spent (R257). -/
def Session.isSpent (s : Session) (n : Nat) (i : BitVec 32) : Bool :=
  i.toNat / 65536 == n && s.spent.any (fun e => e.1 == i.toNat % 65536)

/-- An immediate reaches the anchor with a message of a length (R255, R256). The flag says whether the message is left
to be a capsule. -/
def Dev.matchImm (v : Dev) (sn qp : Nat) (i : BitVec 32) (len : Nat) : Dev × Bool :=
  match v.session sn with
  | none => (v, false)
  | some s =>
    let a := v.anchor s
    let v0 := if v.homeOf qp = a then v else v.count (v.homeOf qp) 0x02 0 0x007 1
    match s.matchCtx i with
    | some c =>
      let v1 := v0.setSession sn { s with contexts := dropFirst (· == c) s.contexts }
      (match c.kind with
       | .grant tag =>
         let gs := updFirst (fun g => g.session == sn && g.tag == tag)
           (fun g => { g with state := .signalled, sigLen := len, sigAt := v.mono }) v1.hosts.grants
         { v1 with hosts := { v1.hosts with grants := gs } }
       | .tagWait cmd _ => v1.finishOk cmd i.toNat qp v.stamp, false)
    | none =>
      if 64 ≤ len then (v0, true)
      else if s.isSpent sn i then (v0.count a 0x08 0 0x004 1, false)
      else if s.unexpected.length < 512 then
        (v0.setSession sn { s with unexpected := s.unexpected ++ [⟨i, qp, v.stamp, v.now⟩] }, false)
      else
        ((((v0.count a 0x08 0 0x006 1).respond qp
          (.nakOperational (match v.qp qp with | some q => q.rxPsn - 1 | none => 0))).faultQp qp), false)

/-- Connection protection applies to the messages of a session (R324). -/
def Dev.safeSession (v : Dev) (sn : Nat) : Bool := match v.session sn with
  | some s => v.protected s
  | none => false

/-- The plaintext of a protected message from its nonce, ciphertext and tag (R325); none where the tag fails, where bit 31 of the
nonce's fixed field is 1, or where the bound slot no longer holds the key (R326). -/
def Dev.openMessage (v : Dev) (spire sn : Nat) (s : Session) (imm : Option (BitVec 32)) (raw : List Byte) : Option (List Byte) :=
  match s.connKey with
  | none => none
  | some n =>
    let k := v.keySlot n
    if k.state == .loaded && k.conn && k.claim == s.claim && decide (28 ≤ raw.length) && !bit (field raw 0 4) 31 then
      gcmDecrypt (v.coreKey spire n) (raw.take 12) (leBytes 4 sn ++ leBytes 4 (imm.getD 0).toNat)
        ((raw.drop 12).take (raw.length - 28)) (raw.drop (raw.length - 16))
    else none

/-- A Floder message: its first 64 B are the packet, the rest its data area (R403). -/
def Dev.floderIn (v : Dev) (qp : Nat) (b : List Byte) : Dev :=
  let e := readPacket (.session qp) b
  ({ v with floder := { v.floder with inbox := v.floder.inbox ++ [(e.1, { e.2 with data := b.drop 64, at_ := v.mono })] } }).skipHeads
    (.session qp)

/-- A whole message is delivered (R223, R255, R325, R326, R403). A SEND of fewer than 64 bytes without an immediate is no
capsule and has no effect (assumption log 16). -/
def Dev.deliver (v : Dev) (sn : Nat) (p : ReqPacket) : Dev :=
  match v.session sn with
  | none => v
  | some s =>
    let m := p.message
    let home := v.homeOf p.qp
    let imm := match p.op with | .sendImm i => some i | _ => none
    let safe := v.protected s && m.msgLen != 0
    match (if safe then v.openMessage home sn s imm m.bytes else some m.bytes) with
    | none => (v.count home 0x06 0 0x004 1).faultQp p.qp
    | some b =>
      let v0 := if safe then v.serveCipher home 2 (ceilDiv b.length 4096) else v
      let len := v.plainLen s m
      let (v1, capsule) := match imm with
        | some i => v0.matchImm sn p.qp i len
        | none => (v0, decide (64 ≤ len))
      if !capsule then v1
      else if imm = some 0xF0D00000 then v1.floderIn p.qp b
      else v1.capsuleIn sn { m with bytes := b }

/-! ### Request packets (R219, R222, R223, R235, R292) -/

/-- A packet has come in on a queue pair: counted; a CE mark is answered with a CNP (R235). -/
def Dev.packetSeen (v : Dev) (n : Nat) (q : Qp) (cost : Nat) (ce : Bool) : Dev :=
  let v1 := v.received q.port.val (cost - 20)
  let gap := v.spireCfg q.home.val 6 0x30010 31 24
  let due := match q.lastCnp with
    | some t => decide (t + gap ≤ v.now)
    | none => true
  if ce && due then
    ((v1.adjQp n (fun x => { x with lastCnp := some v.now })).sendAbout n .cnp).countPort q.port.val 0x018 1
  else v1

/-- The queue pair can take a request packet now: transport runs, its path is LIVE and its link up (R84, R221, R236). -/
def Dev.qpReady (v : Dev) (n : Nat) : Bool :=
  match v.qp n with
  | none => false
  | some q => v.transportOn && v.pathState n == some .live && v.linkUp q.port.val q.sub.val

inductive PsnClass where
  | inOrder
  | duplicate
  | ahead
deriving DecidableEq, Repr

/-- The PSN check (R223). -/
def Qp.psnClass (q : Qp) (psn : BitVec 24) : PsnClass :=
  if psn = q.rxPsn then .inOrder else if serialBefore (2 ^ 24) psn.toNat q.rxPsn.toNat then .duplicate else .ahead

/-- A duplicate is acknowledged again, up to what the partner holds; a packet out of sequence is answered once with a
sequence-error NAK (R222, R223). -/
def Dev.offPsn (v : Dev) (n : Nat) (q : Qp) (c : PsnClass) : Dev :=
  match c with
  | .duplicate => v.respond n (.ack (q.mirrorPsn - 1))
  | _ => if q.nakSent then v else (v.adjQp n (fun x => { x with nakSent := true })).respond n (.nakSequence q.rxPsn)

/-- A packet passes its PSN check: the next one is expected (R223). -/
def Dev.nextPsn (v : Dev) (n : Nat) : Dev := v.adjQp n (fun x => { x with rxPsn := x.rxPsn + 1, nakSent := false })

/-- Police a packet: none when it is dropped, with the event counted (R292 to R296). -/
def Dev.policed (v : Dev) (n : Nat) (q : Qp) (cost bytes : Nat) : Dev × Bool :=
  match v.police q cost bytes with
  | (.pass, q1) => (v.setQp n q1, true)
  | (.drop ev, q1) => ((v.setQp n q1).countPort q.port.val ev 1, false)

/-- REQUEST_PACKET (R219, R223, R255, R292): a SEND-type packet on a queue pair. -/
def execRequestPacket (p : ReqPacket) (s : State) : Host.Outcome State Fault Refusal :=
  s.on fun v =>
    if !(v.qpReady p.qp) then v
    else match v.qp p.qp with
      | none => v
      | some q =>
        let v1 := v.packetSeen p.qp q p.cost p.ce
        match v1.policed p.qp ((v1.qp p.qp).getD q) p.cost p.bytes with
        | (v2, false) => v2
        | (v2, true) =>
          match q.psnClass p.psn with
          | .duplicate => v2.offPsn p.qp q .duplicate
          | .ahead => v2.offPsn p.qp q .ahead
          | .inOrder =>
            let send := match p.op with | .send => true | .sendImm _ => true | _ => false
            let len := match v.session q.session with | some x => v.plainLen x p.message | none => p.message.msgLen
            let capsule := p.first && (!p.last || decide (64 ≤ len))
            let drainWait := v.mode == .drain && v.chip.drain.purpose == .shutdown
            if !send then (v2.nextPsn p.qp).respond p.qp (.nakInvalid p.psn)
            else if capsule && !drainWait && v2.noSlot p.qp then
              (v2.respond p.qp (.rnrNak p.psn (v.spireCfg q.home.val 6 0x30010 12 8))).countPort q.port.val 0x01A 1
            else
              let v3 := v2.nextPsn p.qp
              (if p.last then v3.deliver q.session p else v3).pfcCheck q.port.val

/-- MIRROR_CONTEXT_HELD (R222, R493): the partner holds a context beyond a PSN, and the ACK leaves. -/
def execMirrorContextHeld (qp : Nat) (psn : BitVec 24) (s : State) : Host.Outcome State Fault Refusal :=
  s.on fun v =>
    match v.qp qp with
    | none => v
    | some q =>
      let beyond := serialBefore (2 ^ 24) psn.toNat q.rxPsn.toNat
      let fresh := !(serialBefore (2 ^ 24) psn.toNat q.mirrorPsn.toNat)
      if v.qpReady qp && beyond && fresh then
        (v.adjQp qp (fun x => { x with mirrorPsn := psn + 1, ackedPsn := psn + 1 })).respond qp (.ack psn)
      else v

/-! ### The device as requester (R234, R235, R241) -/

/-- Packets an ACK of a PSN covers: the leading ones not serially after it. -/
def coveredBy (psn : BitVec 24) (l : List Unacked) : List Unacked :=
  l.takeWhile (fun u => u.psn == psn || serialBefore (2 ^ 24) u.psn.toNat psn.toNat)

/-- The window after a decrease to a fraction (1 - num / den, at least one half), at least one MTU (R234). -/
def lowered (q : Qp) (num den : Nat) : Nat :=
  max q.mtu (max (q.wnd / 2) (q.wnd - (if den = 0 then 0 else q.wnd * num / den)))

/-- The pacing rate wnd / srtt in 1/65,536 B per bell (R234). -/
def paceOf (wnd srtt : Nat) : Option Nat := if srtt = 0 then none else some (wnd * 65536 * 512 / srtt)

/-- The window, smoothed RTT and pacing rate after a sample (R234); divisions round down (assumption log 17). -/
def Dev.congestion (v : Dev) (q : Qp) (rtt acked : Nat) : Qp :=
  let h := q.home.val
  let srtt := match q.srtt with
    | none => rtt
    | some x => (7 * x + rtt) / 8
  let target := v.spireCfg h 6 0x30004 15 0
  let beta := min (v.spireCfg h 6 0x30004 31 24) 100
  let ai := v.spireCfg h 6 0x30008 15 0
  let q1 := { q with srtt := some srtt }
  if v.spireCfg h 6 0x3000C 31 31 = 0 then { q1 with wnd := v.maxWnd h q.mtu, pacing := none }
  else
    let q2 :=
      if rtt ≤ target then
        { q1 with wnd := min (v.maxWnd h q.mtu) (q.wnd + (if q.wnd = 0 then 0 else ai * acked / q.wnd)) }
      else if srtt ≤ v.mono - q.lastDecrease then
        { q1 with wnd := lowered q (beta * (rtt - target)) (100 * rtt), lastDecrease := v.mono }
      else q1
    { q2 with pacing := paceOf q2.wnd srtt }

/-- An ACK covers entries and notifications: they are unacknowledged no longer (R230, R232). -/
def Session.acked (s : Session) (qp : Nat) (us : List Unacked) : Session :=
  let via := match s.pathOf qp with | some p => p.idx | none => 4
  let s1 := { s with issued := s.issued.filter (fun i => !(i.via == via && us.any (fun u => u.seq == some i.seq))) }
  if us.any (·.notify) then s1.adjPath qp (fun p => { p with notifyUnacked := false }) else s1

/-- The packets up to a PSN are acknowledged: the window moves, and packets that waited for it go (R230, R232, R234). -/
def Dev.takeAck (v : Dev) (qp : Nat) (psn : BitVec 24) : Dev :=
  match v.qp qp with
  | none => v
  | some q =>
    let us := coveredBy psn q.unacked
    match us.getLast? with
    | none => v
    | some l =>
      if l.psn == psn then
        let q1 := v.congestion { q with unacked := q.unacked.drop us.length, retries := 0, rnrRetries := 0 }
          (v.mono - l.sentAt) (sumMap (·.bytes) us)
        ((v.setQp qp q1).adjSession q.session (fun x => x.acked qp us)).launchQp qp
      else v

/-- ACK_RECEIVE (R230, R232, R234). -/
def execAckReceive (qp : Nat) (psn : BitVec 24) (s : State) : Host.Outcome State Fault Refusal :=
  s.on fun v => if v.qpReady qp then (v.receivedOn qp 4).takeAck qp psn else v

/-- LOCAL_ACK_TIMEOUT in ns (R241). -/
def Dev.ackTimeoutNs (v : Dev) (h : Nat) : Nat := 4096 * 2 ^ v.spireCfg h 6 0x30010 20 16

/-- ACK_TIMEOUT (R239, R241): the unacknowledged packets are sent again from the oldest on, or the queue pair faults once RETRY_CNT
is exhausted. -/
def execAckTimeout (qp : Nat) (s : State) : Host.Outcome State Fault Refusal :=
  s.on fun v =>
    match v.qp qp with
    | none => v
    | some q =>
      match q.unacked with
      | [] => v
      | u :: _ =>
        if v.qpReady qp && decide (u.sentAt + v.ackTimeoutNs q.home.val ≤ v.mono) then
          if v.spireCfg q.home.val 6 0x30010 23 21 ≤ q.retries then v.faultQp qp
          else
            (v.setQp qp { q with retries := q.retries + 1
                                 unacked := q.unacked.map (fun x => { x with sentAt := v.mono }) }).resend qp (fun _ => true)
        else v

/-- CNP_RECEIVE (R235). -/
def execCnpReceive (qp : Nat) (s : State) : Host.Outcome State Fault Refusal :=
  s.on fun v =>
    match v.qp qp with
    | none => v
    | some q =>
      if v.qpReady qp then
        let v1 := ((v.receivedOn qp 16).countPort q.port.val 0x019 1).setQp qp { q with cnpCount := q.cnpCount + 1 }
        let h := q.home.val
        if v.spireCfg h 6 0x3000C 30 30 = 1 && v.spireCfg h 6 0x3000C 31 31 = 1
            && (q.srtt).getD 0 ≤ v.mono - q.lastDecrease then
          let w := lowered q 1 2
          v1.adjQp qp (fun x => { x with wnd := w, lastDecrease := v.mono, pacing := paceOf w ((q.srtt).getD 0) })
        else v1
      else v

/-- HOST_RNR_NAK (R232, R241): retried RNR_RETRY times, 7 without limit. -/
def execHostRnrNak (qp : Nat) (psn : BitVec 24) (s : State) : Host.Outcome State Fault Refusal :=
  s.on fun v =>
    match v.qp qp with
    | none => v
    | some q =>
      let n := v.spireCfg q.home.val 6 0x30010 15 13
      if v.qpReady qp && q.unacked.any (fun u => u.psn == psn) then
        let w := v.receivedOn qp 4
        if n ≠ 7 && n ≤ q.rnrRetries then w.faultQp qp
        else (w.setQp qp { q with rnrRetries := q.rnrRetries + 1 }).resend qp (fun u => !(serialBefore (2 ^ 24) u.psn.toNat psn.toNat))
      else v

/-! ### Losing and regaining a path (R236 to R239) -/

/-- A port or sub-port goes down: its queued frames are flushed and counted, its queue pairs HELD (R236). -/
def Dev.downPort (v : Dev) (n k : Nat) : Dev :=
  let e := v.eg n k
  let lost := e.queue.length
  let p := v.port n
  let v1 := ((v.setEg n k { e with queue := [] }).setPort n { p with flushes := p.flushes + lost }).countPort n 0x016 lost
  (v1.qpsOn n k).foldl (fun x q => x.holdPath q) v1

/-- The paths of a port or sub-port that is up again (R238). -/
def Dev.upPaths (v : Dev) (n k : Nat) : Dev :=
  if v.transportOn && v.linkUp n k then (v.qpsOn n k).foldl (fun x q => x.restorePath q) v else v

/-- NET_LINK_DOWN (R236): NET_LINK is raised. -/
def execNetLinkDown (port : Port) (sub : Sub) (s : State) : Host.Outcome State Fault Refusal :=
  s.on fun v =>
    let n := port.val
    let p := v.port n
    if p.subUp sub.val && sub.val < subCount p.breakout then
      let lost := (v.eg n sub.val).queue.length
      let v1 := (v.setPort n { p with linkUp := p.linkUp &&& ~~~(BitVec.ofNat 4 (2 ^ sub.val)) }).downPort n sub.val
      let (pcs, v2) := v1.free32
      v2.fault 0x030 (portSpire n) (n * 4 + sub.val) pcs.toNat lost 0
    else v

/-- NET_LINK_UP (R238): HELD paths of the port become LIVE. -/
def execNetLinkUp (port : Port) (sub : Sub) (s : State) : Host.Outcome State Fault Refusal :=
  s.on fun v =>
    let n := port.val
    let p := v.port n
    if sub.val < subCount p.breakout && v.spireUp (portSpire n) && v.mode != .held then
      (v.setPort n { p with linkUp := p.linkUp ||| BitVec.ofNat 4 (2 ^ sub.val) }).upPaths n sub.val
    else v

/-- PATH_HOLD_EXPIRE (R237, R238): a path HELD for PATH_HOLD_PEALS is released. -/
def execPathHoldExpire (qp : Nat) (s : State) : Host.Outcome State Fault Refusal :=
  s.on fun v =>
    match (v.sessionOf qp).bind v.session with
    | none => v
    | some x =>
      match x.pathOf qp with
      | none => v
      | some p =>
        if p.state == .held && decide (p.heldAt + x.pathHold * pealBells ≤ v.clk.aging) then v.releaseQp qp else v

/-! ### The completion ring (R229 to R233) -/

/-- Free ring entries against the last CONSUMED read (R230). -/
def Session.ringFree (s : Session) : Nat := s.ringEntries - (s.nextSeq + 2 ^ 24 - s.consumed % 2 ^ 24) % 2 ^ 24

/-- Read the consumer word on the lowest-indexed LIVE path (R230). -/
def Dev.readConsumer (v : Dev) (sn : Nat) : Dev :=
  match v.session sn with
  | none => v
  | some s =>
    match s.lowestLive with
    | none => v
    | some p => (v.setSession sn { s with consumerBusy := true, polledAt := some v.now }).post p.qp
        [.consumerRead p.rkey (s.ringVa + BitVec.ofNat 64 (64 * s.ringEntries))]

/-- The response to the read of a consumer word acknowledges it, and what was sent before it. -/
def Dev.readAnswered (v : Dev) (s : Session) : Dev :=
  match s.paths.findSome? (fun p => (v.qp p.qp).bind (fun q => (q.unacked.find? (fun u => match u.frame.what with
      | .consumerRead _ _ => true
      | _ => false)).map (fun u => (p.qp, u.psn)))) with
  | some (n, psn) => (v.receivedOn n 12).takeAck n psn
  | none => v

/-- CONSUMER_WORD_RESPONSE (R230). A value beyond the last sequence number written, or with RSVD bits set, is an
unchecked error (R58): the count taken is then a free value. -/
def execConsumerWordResponse (session : Nat) (word : BitVec 64) (s : State) : Host.Outcome State Fault Refusal :=
  s.on fun v =>
    match v.session session with
    | none => v
    | some x =>
      if v.transportOn && x.consumerBusy then
        let c := word.toNat % 2 ^ 24
        let bad := word.toNat / 2 ^ 24 != 0 || decide (x.ringEntries < (x.nextSeq + 2 ^ 24 - c) % 2 ^ 24)
        let (f, v1) := if bad then v.free32 else (0, v)
        (v1.setSession session { x with consumerBusy := false, consumed := if bad then f.toNat % 2 ^ 24 else c }).readAnswered x
      else v

/-- CONSUMER_POLL_TIMER (R230): every 64 bells while free entries stay below 64. -/
def execConsumerPollTimer (session : Nat) (s : State) : Host.Outcome State Fault Refusal :=
  s.on fun v =>
    match v.session session with
    | none => v
    | some x =>
      let due := match x.polledAt with
        | some t => v.atBell (t + 64)
        | none => true
      if v.transportOn && x.ringFree < 64 && due then v.readConsumer session else v

/-- The record of a tally: its completion leaves the device, and its life begins (R41). -/
def Session.recordLeft (s : Session) (t aging : Nat) : Session :=
  { s with tallies := Tab.adjust s.tallies t (fun x => match x with
      | .recorded r => .recorded { r with leftDevice := true, ends := if r.leftDevice then r.ends else aging + 64 * pealBells }
      | y => y) }

/-- SESSION_CLOSE completes once the commands it waits for have completed: DREQ on every live path, records freed, queue
pairs released (R224). -/
def Dev.closeSession (v : Dev) (sn : Nat) : Dev :=
  match v.session sn with
  | none => v
  | some s =>
    match s.closing with
    | none => v
    | some cmd =>
      let own := (v.floder.cmds.filter (fun c => c.id == cmd &&
        (match c.src with | .session q => v.sessionOf q == some sn | _ => false))).length
      if v.inFlightSession sn ≤ own then
        let v1 := s.livePaths.foldl (fun x p => x.sendAbout p.qp (.dreq p.qp)) v
        let v2 := v1.finishOk cmd 0 0 0
        let v3 := s.paths.foldl (fun x p => x.releaseQp p.qp) v2
        { v3 with hosts := { v3.hosts with sessions := Tab.del v3.hosts.sessions sn } }
      else v

/-- RING_ENTRY_WRITE (R122, R230, R231, R234, R492): the first waiting entry that has a path is issued on it, with the next sequence
number, its latency measured now; its RDMA WRITE goes to the queue of its class. -/
def execRingEntryWrite (session : Nat) (s : State) : Host.Outcome State Fault Refusal :=
  s.on fun v =>
    match v.session session with
    | none => v
    | some x =>
      match x.built.find? (fun b => (x.pathFor b).isSome) with
      | none => v
      | some b =>
        match x.pathFor b with
        | none => v
        | some p =>
          let i : Issued := ⟨x.nextSeq, p.idx, p.idx, b.leaving v.mono⟩
          let w := x.entryWire p i
          let slot := x.nextSeq % x.ringEntries
          if v.transportOn && x.ringFree != 0 && !x.issued.any (fun i => i.seq % x.ringEntries == slot) && v.mayPost p.qp w then
            let x1 := { x with built := dropFirst (fun y => y == b) x.built, issued := x.issued ++ [i], nextSeq := (x.nextSeq + 1) % 2 ^ 24 }
            let x2 := x1.adjPath p.qp (fun y => y.wrote v.mono [i])
            let x3 := match b.tally with | some t => x2.recordLeft t v.clk.aging | none => x2
            let v1 := (v.setSession session x3).post p.qp [w]
            let v2 := if x3.ringFree < 64 && 64 ≤ x.ringFree then v1.readConsumer session else v1
            v2.closeSession session
          else v

/-- A path's notification is due (R233). -/
def Path.notifyDue (p : Path) (now : Nat) : Bool :=
  !p.notifyUnacked && p.written != 0 &&
    (decide (max 1 p.notifyCount ≤ p.written) || p.noticeWritten ||
      (match p.firstWritten with | some t => decide (t + 64 * p.notifyStrokes ≤ now) | none => false))

/-- NOTIFY_SEND (R232, R233). -/
def execNotifySend (qp : Nat) (s : State) : Host.Outcome State Fault Refusal :=
  s.on fun v =>
    match v.qp qp with
    | none => v
    | some q =>
      match (v.session q.session).bind (·.pathOf qp) with
      | none => v
      | some p =>
        let imm := BitVec.ofNat 32 (min p.written 255 * 2 ^ 24 + p.lastSeq)
        if v.transportOn && p.notifyDue v.mono && v.mayPost qp (.notify imm) then
          let v1 := v.adjSession q.session (fun x => x.adjPath qp (fun y =>
            { y with notifyUnacked := true, written := 0, firstWritten := none, noticeWritten := false }))
          v1.post qp [.notify imm]
        else v

/-! ### Session commands (R224) -/

/-- SESSION_CREATE (R224). -/
def execSessionCreate (p : Packet) (s : State) : Host.Outcome State Fault Refusal :=
  s.on fun v => v.floderRun 0x0510 p fun id v =>
    let n := p.u16 0
    let c := p.u16 2
    let floor : BitVec 32 := BitVec.ofNat 32 (p.u32 4)
    if n < 8192 && c < 4096 && p.u8 18 ≤ 4 && 1 ≤ p.u8 18 && allZero (slice p.params 19 13)
        && (v.claimDesc c).isSome && (v.session n).isNone then
      (v.setSession n
        { claim := c, initialFloor := floor, cookie := BitVec.ofNat 64 (p.u64 8), pathHold := p.u16 16,
          maxPaths := p.u8 18, floor := floor, tallies := [], anchor := none, ringVa := 0, ringEntries := 0, nextSeq := 0,
          consumed := 0, consumerBusy := false, polledAt := none, built := [], issued := [], noticeNum := 0,
          noticeLost := 0, grantCounter := 0, contexts := [], unexpected := [], spent := [], paths := [],
          connKey := none, closing := none }).finishOk id 0 0 0
    else v.fail id stInvalidField

/-- SESSION_CLOSE (R224): TAG_WAIT contexts are withdrawn, windows revoked (R252); the close waits for commands in
flight. -/
def execSessionClose (p : Packet) (s : State) : Host.Outcome State Fault Refusal :=
  s.on fun v => v.floderRun 0x0511 p fun id v =>
    let n := p.u16 0 % 8192
    match v.session n with
    | none => v.fail id stInvalidField
    | some x =>
      if x.closing.isSome then v.fail id stInvalidField
      else
        let waits := x.contexts.filterMap (fun c => match c.kind with | .tagWait cmd _ => some cmd | _ => none)
        let v1 := v.setSession n { x with
          closing := some id
          contexts := x.contexts.filter (fun c => match c.kind with | .tagWait _ _ => false | _ => true) }
        let v2 := waits.foldl (fun y c => y.fail c stAborted) v1
        let ws := (v2.hosts.windows.filter (fun e => e.2.session == n)).map (·.1)
        (ws.foldl (fun y w => y.revokeWindow w none) v2).closeSession n

/-- Completion records of a session (R227). -/
def Session.liveRecords (s : Session) : Nat :=
  (s.tallies.filter (fun e => match e.2 with | .recorded _ => true | _ => false)).length

/-- SESSION_QUERY (R412). -/
def execSessionQuery (p : Packet) (s : State) : Host.Outcome State Fault Refusal :=
  s.on fun v => v.floderRun 0x0512 p fun id v =>
    match v.session (p.u16 0 % 8192) with
    | none => v.fail id stInvalidField
    | some x =>
      let held := (x.paths.filter (fun q => q.state == .held)).length
      let a := if x.anchor.isSome then v.anchor x + 4 else 0
      v.finishOk id x.floor.toNat (x.livePaths.length + 16 * held + 256 * a + 4096 * x.claim) x.liveRecords

end Sys2Proof.Machine
end

