-- ==== Sys2Proof/Machine/Staging.lean ====
section
/-! DEFINITION. Staging windows, posted contexts and maintenance queues (R243 to R266). -/

namespace Sys2Proof.Machine

/-! ### Addresses (R246) -/

/-- WINDOW_KEY of a window. -/
def Window.key (w : Window) (n : Nat) : Nat := w.gen.toNat * 2 ^ 14 + n

/-- WINDOW_VA of a grant. -/
def stageAddr (window tag offset : Nat) : Nat := window * 2 ^ 50 + tag * 2 ^ 34 + offset

/-- Address of a window byte in the model's window memory. -/
def winAddr (window offset : Nat) : Nat := window * 2 ^ 30 + offset

/-! ### Writes into a window (R250, R251) -/

/-- The message that a packet belongs to, as it stands before the packet: a first packet brings its RETH, a later one goes by that of
the first (R250). -/
def Qp.writeMsg (q : Qp) (p : WritePacket) : WriteMsg :=
  let own : WriteMsg := ⟨p.rkey, p.va, p.length.toNat, 0, []⟩
  if p.first then own else q.write.getD own

/-- Where the bytes of a packet with n bytes of payload go: their offset from the address in the RETH, and their number. Of a protected
message these are bytes of the plaintext: nonce and tag are not placed (R325). -/
def WriteMsg.span (m : WriteMsg) (safe : Bool) (n : Nat) : Nat × Nat :=
  if safe then
    let lo := max m.seen 12 - 12
    (lo, min (m.seen + n) (m.length - 16) - 12 - lo)
  else (m.seen, n)

/-- The message after a packet; kept while packets are still to come. -/
def WriteMsg.after (m : WriteMsg) (safe : Bool) (p : WritePacket) : Option WriteMsg :=
  if p.last then none
  else some { m with seen := m.seen + p.data.length, got := if safe then m.got ++ p.data else [] }

inductive WinCheck where
  | place (addr : Nat)
  | refuse (event : Nat)
deriving DecidableEq, Repr

/-- The checks of one packet with n bytes to place (R250). The event is the Cheja counter of the failure. -/
def Dev.checkWrite (v : Dev) (sn : Nat) (rkey : BitVec 32) (va n : Nat) : WinCheck :=
  let k := rkey.toNat % 2 ^ 14
  match Tab.get v.hosts.windows k with
  | none => .refuse 0x001
  | some w =>
    if !w.usable || w.key k ≠ rkey.toNat then .refuse 0x001
    else if w.session ≠ sn then .refuse 0x001
    else if w.state != .live then .refuse 0x002
    else
      let off := va % 2 ^ 30
      match v.hosts.grants.find? (fun g => g.session == sn && g.window == k && g.tag == va / 2 ^ 34 % 2 ^ 16) with
      | none => .refuse 0x003
      | some g =>
        if va / 2 ^ 50 == k && va / 2 ^ 30 % 16 == 0 && decide (g.offset ≤ off) && decide (off + n ≤ g.offset + g.length) then
          .place (winAddr k off)
        else .refuse 0x003

/-- The bytes of a packet that are placed: of a protected message, decrypted as far as they have come (R325). -/
def Dev.placedBytes (v : Dev) (q : Qp) (m : WriteMsg) (safe : Bool) (p : WritePacket) : List Byte :=
  if safe then
    let all := m.got ++ p.data
    let key := match (v.session q.session).bind (·.connKey) with
      | some n => v.coreKey q.home.val n
      | none => []
    let plain := gctr (aesRoundKeys key) (all.take 12) 2 (blocksOf ((all.drop 12).take (m.length - 28)))
    let at_ := m.span true p.data.length
    slice plain at_.1 at_.2
  else p.data

/-- A protected RDMA WRITE fails authentication: the grant its address names ends, and the APPEND completes
CONN_AUTH_FAIL (R326). -/
def Dev.failGrantAuth (v : Dev) (sn : Nat) (va : BitVec 64) : Dev :=
  match v.hosts.grants.find? (fun g => g.session == sn && g.window == va.toNat / 2 ^ 50
      && g.tag == va.toNat / 2 ^ 34 % 2 ^ 16) with
  | none => v
  | some g =>
    match v.ctx g.ctx with
    | some c => if c.phase == .granted then v.refuseCtx c stConnAuthFail else v
    | none => v

/-- The last packet of a message has been placed: a protected message is authenticated, and an immediate is matched as that of a SEND of
length 0 (R251, R326). -/
def Dev.endWrite (v : Dev) (q : Qp) (m : WriteMsg) (safe : Bool) (p : WritePacket) : Dev :=
  let good := match safe, v.session q.session with
    | true, some x => (v.openMessage q.home.val q.session x p.imm (m.got ++ p.data)).isSome
    | _, _ => true
  if !good then ((v.failGrantAuth q.session m.va).count q.home.val 0x06 0 0x004 1).faultQp p.qp
  else match p.imm with
    | some i => (v.matchImm q.session p.qp i 0).1
    | none => v

/-- WINDOW_WRITE_PACKET (R250, R251, R326): one RDMA WRITE packet with a window address. A packet refused is counted at the
home spire of its queue pair, also where the window is homed elsewhere: the manual does not say which Cheja engine counts it
(assumption log 74). -/
def execWindowWritePacket (p : WritePacket) (s : State) : Host.Outcome State Fault Refusal :=
  s.on fun v =>
    if !(v.qpReady p.qp) then v
    else match v.qp p.qp with
      | none => v
      | some q =>
        let v0 := v.packetSeen p.qp q p.cost p.ce
        match v0.policed p.qp ((v0.qp p.qp).getD q) p.cost p.data.length with
        | (v1, false) => v1
        | (v1, true) =>
          match q.psnClass p.psn with
          | .duplicate => v1.offPsn p.qp q .duplicate
          | .ahead => v1.offPsn p.qp q .ahead
          | .inOrder =>
            let m := q.writeMsg p
            let safe := v.safeSession q.session
            let range := m.span safe p.data.length
            match v1.checkWrite q.session m.rkey (m.va.toNat + range.1) range.2 with
            | .refuse ev =>
              ((v1.adjQp p.qp (fun x => { x with nakSent := true })).respond p.qp (.nakAccess p.psn)).count q.home.val 0x08 0 ev 1
            | .place a =>
              let v2 := if safe then v1.serveCipher q.home.val 2 (ceilDiv p.data.length 4096) else v1
              let v3 := (({ v2 with winMem := memWriteBytes v2.winMem a (v1.placedBytes q m safe p) }).nextPsn p.qp).adjQp p.qp
                (fun x => { x with write := m.after safe p })
              if p.last then v3.endWrite q m safe p else v3

/-! ### Windows (R243 to R246, R252) -/

/-- WINDOW_CREATE parameters are in range (R245 step 1, RSVD bits and size). -/
def windowFieldsOk (p : Packet) : Bool :=
  p.u16 0 < 8192 && p.u8 2 < 2 && p.u8 3 < 4 && p.u16 4 < 16384 && p.u16 6 == 0 && allZero (slice p.params 12 36)
    && decide (1 ≤ p.u32 8) && decide (p.u32 8 ≤ 1024)

/-- Windows homed on a spire (R243). -/
def Dev.windowsOn (v : Dev) (s : Nat) : Nat := (v.hosts.windows.filter (fun e => e.2.home.val == s)).length

/-- WINDOW_CREATE (R245, R246): LIVE at the next bell. -/
def execWindowCreate (p : Packet) (s : State) : Host.Outcome State Fault Refusal :=
  s.on fun v => v.floderRun 0x0520 p fun id v =>
    let sn := p.u16 0
    let qpScope := p.u8 2 == 1
    let home : Spire := if qpScope then Fin.ofNat 4 (v.homeOf (p.u16 4)) else Fin.ofNat 4 (p.u8 3)
    let path := (v.session sn).bind (·.pathOf (p.u16 4))
    let pathOk := match path with | some x => x.state != .pending | none => false
    if !(windowFieldsOk p) || (v.session sn).isNone || (qpScope && !pathOk) || !(v.spireShown home.val) then
      v.fail id stInvalidField
    else if 16384 ≤ v.hosts.windows.length || 4096 ≤ v.windowsOn home.val
        || v.stageLimit home.val < v.stageUsed home.val + p.u32 8 then v.fail id stQuota
    else
      let n := Tab.freeKey v.hosts.windows
      let (g, v1) := v.free64
      let w : Window := ⟨sn, if qpScope then some (p.u16 4) else none, home, p.u32 8, g.setWidth 18, .live, false, [], 0, 0, []⟩
      ({ v1 with hosts := { v1.hosts with windows := Tab.set v1.hosts.windows n w } }).queueUpdate .window n .windowLive
        (some id)

/-- WINDOW_REVOKE (R252): completes when the window is FREE. A second command for a window already REVOKING, or about to be,
joins the first, and one for a FREE window completes INVALID_FIELD: the manual gives neither (assumption log 75). -/
def execWindowRevoke (p : Packet) (s : State) : Host.Outcome State Fault Refusal :=
  s.on fun v => v.floderRun 0x0521 p fun id v =>
    let n := p.u16 0 % 16384
    match Tab.get v.hosts.windows n with
    | none => v.fail id stInvalidField
    | some w =>
      if !w.usable then v.fail id stInvalidField
      else
        let pending := v.hosts.updates.any (fun u => u.table == .window && u.key == n && u.act == .windowRevoke)
        if w.state == .live && !pending then v.revokeWindow n (some id)
        else { v with hosts := { v.hosts with
          windows := Tab.set v.hosts.windows n { w with revokeCmds := w.revokeCmds ++ [id] } } }

/-- A window becomes FREE: its memory is freed and its revoke commands complete (R252). -/
def Dev.freeWindow (v : Dev) (n : Nat) : Dev :=
  match Tab.get v.hosts.windows n with
  | none => v
  | some w =>
    let v1 := { v with
      winMem := memClear v.winMem (winAddr n 0) (2 ^ 30)
      hosts := { v.hosts with
        windows := Tab.del v.hosts.windows n
        updates := v.hosts.updates.filter (fun u => !(u.table == .window && u.key == n)) } }
    let mine (a : UpdAction) : List Nat :=
      (v.hosts.updates.filter (fun u => u.table == .window && u.key == n && u.act == a)).filterMap (·.cmd)
    let v2 := (mine .windowLive).foldl (fun x c => x.fail c stAborted) v1
    (w.revokeCmds ++ mine .windowRevoke).foldl (fun x c => x.finishOk c w.ended 0 0) v2

/-- REVOKE_DRAIN_COMPLETE (R252, R262): at the first boundary after the last earlier access has drained. -/
def execRevokeDrainComplete (n : Nat) (s : State) : Host.Outcome State Fault Refusal :=
  s.on fun v =>
    match Tab.get v.hosts.windows n with
    | none => v
    | some w =>
      if w.state == .revoking && v.atBell (w.endBell + 1) && !v.hosts.grants.any (fun g => g.window == n) then
        (v.freeWindow n).chainDone w.home.val
      else v

/-! ### Contexts and the unexpected list (R254 to R258) -/

/-- UNEXP_AGED (R256): entries whose life has ended are removed and counted. -/
def execUnexpAged (session : Nat) (s : State) : Host.Outcome State Fault Refusal :=
  s.on fun v =>
    match v.session session with
    | none => v
    | some x =>
      let a := v.anchor x
      let life := v.spireCfg a 6 0x40008 15 0 * pealBells
      let kept := x.unexpected.filter (fun u => !(v.atBell (max (u.arrived + 1) (u.arrived + life))))
      let gone := x.unexpected.length - kept.length
      if gone = 0 then v else (v.setSession session { x with unexpected := kept }).count a 0x08 0 0x005 gone

/-- IMMEDIATE_SPENT_END (R257): 64 peals after its grant ended an immediate is no longer spent. -/
def execImmediateSpentEnd (session grantTag : Nat) (s : State) : Host.Outcome State Fault Refusal :=
  s.on fun v => v.adjSession session (fun x =>
    { x with spent := x.spent.filter (fun e => !(e.1 == grantTag && decide (e.2 + 64 * pealBells ≤ v.now))) })

/-- TAG_WAIT (R258, R266). A session that does not exist completes INVALID_FIELD, and the context limit is judged before a
TIMEOUT_BELLS of 0: the manual orders neither (assumption log 76). -/
def execTagWait (p : Packet) (s : State) : Host.Outcome State Fault Refusal :=
  s.on fun v => v.floderRun 0x0535 p fun id v =>
    let sn := p.u16 0
    if 8191 < sn || p.u16 2 != 0 || !(allZero (slice p.params 16 32)) then v.fail id stInvalidField
    else match v.session sn with
      | none => v.fail id stInvalidField
      | some x =>
        let tag : BitVec 32 := BitVec.ofNat 32 (p.u32 4)
        let mask : BitVec 32 := BitVec.ofNat 32 (p.u32 8)
        let hit (u : Unexp) : Bool := (u.imm ^^^ tag) &&& ~~~mask == 0
        if !(v.mgmtSession sn) then v.fail id stAccessDenied
        else if x.closing.isSome then v.fail id stAborted
        else match x.unexpected.find? hit with
          | some u =>
            (v.setSession sn { x with unexpected := dropFirst hit x.unexpected }).finishOk id u.imm.toNat u.qp u.stamp
          | none =>
            if 4096 ≤ x.contexts.length then v.fail id stQuota
            else if p.u32 12 = 0 then v.fail id stTimeout
            else v.setSession sn { x with contexts := x.contexts ++ [⟨tag, mask, .tagWait id (v.now + p.u32 12)⟩] }

/-- TAG_WAIT_TIMEOUT (R258). -/
def execTagWaitTimeout (id : Nat) (s : State) : Host.Outcome State Fault Refusal :=
  s.on fun v =>
    let due (c : RecvCtx) : Bool := match c.kind with
      | .tagWait cmd t => cmd == id && v.atBell t
      | .grant _ => false
    if v.hosts.sessions.any (fun e => e.2.contexts.any due) then
      let ss := v.hosts.sessions.map (fun e => (e.1, { e.2 with contexts := e.2.contexts.filter (fun c => !due c) }))
      ({ v with hosts := { v.hosts with sessions := ss } }).fail id stTimeout
    else v

/-! ### Maintenance queues (R259 to R263) -/

def Dev.chain (v : Dev) (n : Nat) : Option ChainQ := Tab.get v.hosts.chains n

def Dev.setChain (v : Dev) (n : Nat) (c : ChainQ) : Dev :=
  { v with hosts := { v.hosts with chains := Tab.set v.hosts.chains n c } }

/-- The claim a command comes from: that of its session, none for a ring (R261). -/
def Dev.ownerOf (v : Dev) : Source → Option Nat
  | .session q => ((v.sessionOf q).bind v.session).map (·.claim)
  | .chain q => (v.chain q.val).bind (·.owner)
  | _ => none

/-- CHAIN_QUEUE_CREATE (R263): the lowest free queue number of the spire. -/
def execChainQueueCreate (p : Packet) (s : State) : Host.Outcome State Fault Refusal :=
  s.on fun v => v.floderRun 0x0530 p fun id v =>
    let sp := p.u8 0 % 4
    let depth := p.u16 2
    if depth = 0 || 256 < depth then v.fail id stInvalidField
    else match (List.range 256).find? (fun i => (v.chain (sp * 256 + i)).isNone) with
      | none => v.fail id stQuota
      | some i =>
        (v.setChain (sp * 256 + i) (⟨v.ownerOf p.src, depth, 0, .running, [], none, none, none⟩ : ChainQ)).finishOk id (sp * 256 + i) 0 0

/-- A WAIT-ON-COUNT may be posted to a queue: its target exists, belongs to the same claim and is another queue (R261). -/
def Dev.waitTargetOk (v : Dev) (n : Nat) (c : ChainQ) (e : BitVec 16 × Packet) : Bool :=
  if e.1 = 0x0534 then
    let t := e.2.u16 0
    t != n && (match v.chain t with | some x => x.owner == c.owner | none => false)
  else true

/-- CHAIN_POST (R261, R263): as many elements as the queue's depth leaves room for are posted (assumption log 18). -/
def execChainPost (p : Packet) (s : State) : Host.Outcome State Fault Refusal :=
  s.on fun v => v.floderRun 0x0531 p fun id v =>
    let n := p.u16 0
    let k := p.u8 2
    match v.chain n with
    | none => v.fail id stInvalidField
    | some c =>
      let es := (List.range k).map (fun i => readPacket p.src (slice p.data (64 * i) 64))
      if k = 0 || 64 < k || !(es.all (v.waitTargetOk n c)) then v.fail id stInvalidField
      else
        let room := c.depth - c.elements.length - b2n c.running.isSome
        let put := es.take room
        ((v.setChain n { c with elements := c.elements ++ put }).finishOk id put.length 0 0).skipHeads
          (.chain (Fin.ofNat 1024 n))

def ChainState.code : ChainState → Nat
  | .running => 0
  | .waiting => 1
  | .error => 2

/-- CHAIN_QUERY (R263). -/
def execChainQuery (p : Packet) (s : State) : Host.Outcome State Fault Refusal :=
  s.on fun v => v.floderRun 0x0532 p fun id v =>
    match v.chain (p.u16 0) with
    | none => v.fail id stInvalidField
    | some c => v.finishOk id c.counter.toNat c.state.code c.elements.length

/-- The command a queue's running element is. -/
def Dev.chainCmd (v : Dev) (q : Fin 1024) : Option Nat := (v.floder.cmds.find? (fun c => c.src == .chain q)).map (·.id)

/-- An element that never ran completes with a status, its reply to the ring that posted it (R263). -/
def Dev.endElement (v : Dev) (e : BitVec 16 × Packet) (st : Byte) : Dev :=
  let (id, v1) := v.fresh
  ({ v1 with floder := { v1.floder with cmds := v1.floder.cmds ++ [(⟨id, e.2.src, e.2.tag, e.1, e.2.noInt, false, e.2, .done, false⟩ : Cmd)] } }).fail
    id st

/-- CHAIN_QUEUE_DESTROY (R259, R260, R263): elements not executed, and elements waiting on the queue, complete
ABORTED_RESET. -/
def execChainQueueDestroy (p : Packet) (s : State) : Host.Outcome State Fault Refusal :=
  s.on fun v => v.floderRun 0x0533 p fun id v =>
    let n := p.u16 0
    match v.chain n with
    | none => v.fail id stInvalidField
    | some c =>
      let own := if c.state == .waiting then (v.chainCmd (Fin.ofNat 1024 n)).toList else []
      let v1 := c.elements.foldl (fun x e => x.endElement e stAborted) (own.foldl (fun x i => x.fail i stAborted) v)
      let waiters := (v1.hosts.chains.filter (fun e => match e.2.waitOn with | some (t, _, _) => t == n | none => false)).map (·.1)
      let v2 := waiters.foldl (fun x w => match x.chainCmd (Fin.ofNat 1024 w) with
        | some i => x.fail i stAborted
        | none => x) v1
      ({ v2 with hosts := { v2.hosts with chains := Tab.del v2.hosts.chains n } }).finishOk id
        (c.elements.length + own.length) 0 0

/-- A WAIT-ON-COUNT is satisfied by a counter value (R260). -/
def countReached (counter c : BitVec 32) : Bool := c == 0 || decide ((counter - c).toNat < 2 ^ 31)

/-- WAIT_ON_COUNT (R260, R263): valid only as an element of a maintenance queue. -/
def execWaitOnCount (p : Packet) (s : State) : Host.Outcome State Fault Refusal :=
  s.on fun v => v.floderRun 0x0534 p fun id v =>
    match p.src with
    | .chain q =>
      let c : BitVec 32 := BitVec.ofNat 32 (p.u32 4)
      let lim := p.u32 8
      (match v.chain (p.u16 0) with
       | none => v.fail id stAborted
       | some t =>
         if countReached t.counter c then v.finishOk id t.counter.toNat 0 0
         else if lim = 0 then v.fail id stTimeout
         else
           { v with hosts := { v.hosts with chains := Tab.adjust v.hosts.chains q.val (fun x =>
               { x with state := .waiting
                        waitOn := some (p.u16 0, c, if lim = 0xFFFFFFFF then none else some (v.now + lim)) }) } })
    | _ => v.fail id stInvalidField

/-- WAIT_ON_COUNT_TIMEOUT (R260). -/
def execWaitOnCountTimeout (q : Fin 1024) (s : State) : Host.Outcome State Fault Refusal :=
  s.on fun v =>
    match (v.chain q.val).bind (·.waitOn), v.chainCmd q with
    | some (_, _, some d), some id => if v.atBell d then v.fail id stTimeout else v
    | _, _ => v

/-- Elements that wait on a queue's counter and are satisfied by it complete OK (R260). -/
def Dev.wakeWaiters (v : Dev) (n : Nat) (counter : BitVec 32) : Dev :=
  v.hosts.chains.foldl (fun x e => match e.2.waitOn with
    | some (t, c, _) =>
      if t == n && e.2.finished.isNone && countReached counter c then
        (match x.chainCmd (Fin.ofNat 1024 e.1) with
         | some id => x.finishOk id counter.toNat 0 0
         | none => x)
      else x
    | none => x) v

/-- CHAIN_ELEMENT_COMPLETE (R259, R260): OK advances the queue and its counter, any other status halts it in ERROR. -/
def execChainElementComplete (q : Fin 1024) (status : Byte) (s : State) : Host.Outcome State Fault Refusal :=
  s.on fun v =>
    match v.chain q.val with
    | none => v
    | some c =>
      if c.finished == some status then
        if status = stOk then
          let n := c.counter + 1
          ((v.setChain q.val { c with counter := n, running := none, waitOn := none, finished := none, state := .running }).wakeWaiters
            q.val n).skipHeads (.chain q)
        else v.setChain q.val { c with running := none, waitOn := none, finished := none, state := .error }
      else v

end Sys2Proof.Machine
end

