-- ==== Sys2Proof/Machine/Layouts.lean ====
section
/-! DEFINITION. The records and pages of the map as bytes: stripe records (R178), extent records (R180), run pages and stripe
pages (R181, R182), journal blocks (R183), and where each lies on the bays (R172). -/

namespace Sys2Proof.Machine

/-- The extent-key hash: the first 16 bytes of SHA-384 over claim number and key (R170). -/
def extHash (claim : Nat) (key : BitVec 128) : List Byte := (sha384 (leBytes 2 claim ++ leBytes 16 key.toNat)).take 16

/-- The owner spire of an extent (R24, R170); its partner acts while its roles are away (R26). -/
def extOwner (claim : Nat) (key : BitVec 128) : Nat := ((extHash claim key).getD 0 0).toNat % 4

/-! ### Stripe records (R178) -/

/-- A relocation entry: 40 bits (R178). -/
def Reloc.bytes (r : Reloc) : List Byte := leBytes 5 (r.bay * 2 ^ 35 + r.position * 2 ^ 30 + r.row)

def Reloc.read (b : List Byte) : Reloc := ⟨bits (leNat b) 39 35, bits (leNat b) 34 30, bits (leNat b) 29 0⟩

/-- The 64 B of a stripe record (R178). -/
def StripeRec.bytes (r : StripeRec) : List Byte :=
  leBytes 6 r.id ++ leBytes 1 r.k ++ leBytes 1 (r.lastGrains * 16 + r.m) ++ leBytes 4 r.bayMask.toNat ++ leBytes 4 r.row
    ++ leBytes 1 r.rotation ++ leBytes 1 (r.unplaced * 16 + r.relocs.length) ++ leBytes 2 r.claim ++ leBytes 2 r.live ++ zeros 2
    ++ padTo 40 (r.relocs.flatMap Reloc.bytes)

/-- The stripe record that 64 B hold; its version is not among them. -/
def StripeRec.read (b : List Byte) (version : BitVec 8) : StripeRec where
  id := field b 0 6
  k := bits (field b 6 1) 4 0
  m := bits (field b 7 1) 3 0
  lastGrains := bits (field b 7 1) 7 4
  bayMask := BitVec.ofNat 32 (field b 8 4)
  row := bits (field b 12 4) 29 0
  rotation := bits (field b 16 1) 4 0
  unplaced := bits (field b 17 1) 7 4
  claim := bits (field b 18 2) 11 0
  live := field b 20 2
  relocs := (List.range (bits (field b 17 1) 3 0)).map (fun e => Reloc.read (slice b (24 + 5 * e) 5))
  version := version

/-! ### Extent records (R180) -/

/-- STATE of an extent record; 3 is a free one (R180). -/
def ExtState.code : ExtState → Nat
  | .open_ => 0
  | .sealed_ => 1
  | .deleted => 2

/-- The 32 B of an extent record (R180). -/
def Extent.bytes (e : Extent) : List Byte :=
  leBytes 16 e.key.toNat ++ leBytes 6 (e.len + (e.heldSt.getD e.st).code * 2 ^ 46) ++ leBytes 2 e.claim ++ leBytes 1 e.version.toNat
    ++ leBytes 7 e.root

/-! ### Map pages (R181, R182) -/

/-- The key of a run page and of a stripe page among the map pages. -/
def runPage (n : Nat) : Nat := 2 * n + 1
def stripePage (n : Nat) : Nat := 2 * n

/-- The stripe page that holds a stripe's record (R181). -/
def pageOfStripe (id : Nat) : Nat := stripePage (id / 64)

/-- First grain that a descriptor covers. -/
def RunDesc.first : RunDesc → Nat
  | .leaf r => r.first
  | .index f _ => f

/-- The 16 B of a descriptor; what R181 gives no value is 0. -/
def RunDesc.bytes : RunDesc → List Byte
  | .leaf r => leBytes 4 r.first ++ leBytes 2 r.count ++ leBytes 1 r.seam ++ leBytes 1 r.grain ++ leBytes 6 r.stripe ++ zeros 2
  | .index f c => leBytes 4 f ++ zeros 2 ++ [0xFF, 0] ++ leBytes 6 c ++ zeros 2

/-- The 4 KiB of a map page (R181). -/
def PageBody.bytes (key : Nat) : PageBody → List Byte
  | .run ds => padTo 4096 ((List.range 64).map (Config.pageHeader (key / 2)) ++ ds.flatMap RunDesc.bytes)
  | .stripes rs => rs.flatMap (fun r => match r with | some x => x.bytes | none => zeros 64)

/-- The bays of the copies of a page: copy c on bay (p + 11 c) mod 32, or the next higher SERVING bay that holds no other copy
(R182). -/
def copyBays (serving : Nat → Bool) (page : Nat) : List Nat :=
  [0, 1, 2].foldl (fun (a : List Nat) c =>
    match ((List.range 32).map (fun i => (page + 11 * c + i) % 32)).find? (fun b => serving b && !a.contains b) with
    | some b => a ++ [b]
    | none => a) []

/-- The LBA of a copy of a page: in the area of map-page copies (R172). -/
def pageLba (key : Nat) : Nat := 393216 + Config.pageLba (key % 2 == 1) (key / 2) % 3801088

/-- Lists of at most n, in order. -/
def chunks {α : Type} (n : Nat) : Nat → List α → List (List α)
  | 0, _ => []
  | _ + 1, [] => []
  | f + 1, x :: xs => (x :: xs).take n :: chunks n f ((x :: xs).drop n)

/-- The pages above a level of descriptors, by number: `nums` numbers them, from `used` on; the last one is the root. Four levels
at most (R181). -/
def runTree (nums : Nat → Nat) : Nat → Nat → List RunDesc → List (Nat × List RunDesc)
  | 0, _, _ => []
  | f + 1, used, ds =>
    let ps := chunks 252 ds.length ds
    let level := (ps.zip (List.range ps.length)).map (fun (e : List RunDesc × Nat) => (nums (used + e.2), e.1))
    if ps.length ≤ 1 then level
    else level ++ runTree nums f (used + ps.length)
      (level.map (fun (e : Nat × List RunDesc) => RunDesc.index ((e.2.head?.map RunDesc.first).getD 0) e.1))

/-- The numbers of a run page and of those below it. -/
def pagesUnder (t : Tab MapPage) : Nat → Nat → List Nat
  | 0, _ => []
  | f + 1, n => match Tab.get t (runPage n) with
    | some ⟨.run ds, _, _⟩ => n :: ds.flatMap (fun d => match d with
        | .index _ c => pagesUnder t f c
        | .leaf _ => [])
    | _ => []

/-- The numbers of the run pages on the way from a page to a grain. -/
def pagesTo (t : Tab MapPage) (grain : Nat) : Nat → Nat → List Nat
  | 0, _ => []
  | f + 1, n => match Tab.get t (runPage n) with
    | some ⟨.run ds, _, _⟩ =>
      n :: (match (ds.filter (fun d => decide (d.first ≤ grain))).getLast? with
        | some (.index _ c) => pagesTo t grain f c
        | _ => [])
    | _ => []

/-- A grain joins the last leaf run of a list where it goes on both in the extent and in fill order, or starts a new one; `i` is
its place in fill order (R181). -/
def addRun (stripe : Nat) (l : List LeafRun) (i offset : Nat) : List LeafRun :=
  let fresh : LeafRun := ⟨offset / 4096, 1, i / 16, i % 16, stripe⟩
  match l.getLast? with
  | some r =>
    if r.seam * 16 + r.grain + r.count = i ∧ r.first + r.count = offset / 4096 then l.dropLast ++ [{ r with count := r.count + 1 }]
    else l ++ [fresh]
  | none => [fresh]

/-- The leaf runs of an extent in a list of grains in fill order (R181). -/
def leafRuns (stripe : Nat) (runs : List RunGrain) (claim : Nat) (key : BitVec 128) : List LeafRun :=
  (runs.zip (List.range runs.length)).foldl (fun l (e : RunGrain × Nat) =>
    if e.1.live && e.1.claim == claim && e.1.key == key then addRun stripe l e.2 e.1.offset else l) []

/-- The leaf runs that a stripe adds, with their extents (R183). -/
def addedRuns (stripe : Nat) (runs : List RunGrain) : List (Nat × BitVec 128 × LeafRun) :=
  ((runs.map (fun r => (r.claim, r.key))).eraseDups).flatMap (fun (e : Nat × BitVec 128) =>
    (leafRuns stripe runs e.1 e.2).map (fun l => (e.1, e.2, l)))

/-! ### Journal blocks (R172, R183) -/

/-- Record type (R183). -/
def JournalRec.code : JournalRec → Nat
  | .open_ => 0x01
  | .stripe _ _ => 0x02
  | .relocate _ _ => 0x03
  | .extent _ _ _ _ => 0x04
  | .free _ _ _ _ => 0x05
  | .checkpoint _ => 0x06
  | .vault => 0x07
  | .close => 0x08

/-- The body of a record in its block: the manual does not give it (R183). -/
opaque journalBody : JournalRec → List Byte

/-- Blocks of the journal ring (R172). -/
def journalRing : Nat := 262142

/-- The LBA of a journal block (R172). -/
def journalLba (seq : Nat) : Nat := 2 + seq % journalRing

/-- The 4 KiB of a journal block. The manual gives its sequence number, its CRC-64 and the record types, and no place for any of
them: here the number stands first, then the type, and the CRC-64 of all before it last (DESIGN CHOICE, assumption log 80). -/
def JournalBlock.bytes (b : JournalBlock) : List Byte :=
  let head := leBytes 8 b.seq ++ leBytes 8 b.rec_.code ++ slice (journalBody b.rec_) 0 4072
  head ++ leBytes 8 (crcOf crc64 head)

end Sys2Proof.Machine
end

