-- ==== Sys2Proof/Machine/BayIo.lean ====
section
/-! DEFINITION. Bay I/O up to the drive: bays and their ports, the queues of a bay-port cell, the order in which commands are
submitted, and the counts of grains that order rests on (R55, R56, R147, R150, R159, R175, R185 to R188, R194, R200). -/

namespace Sys2Proof.Machine

/-! ### The write buffer counts (R137, R147) -/

/-- Grains held and not yet clean. -/
def Dev.dirtyGrains (v : Dev) : List Grain := v.store.grains.filter (·.held)

def Dev.dirty (v : Dev) : Nat := v.dirtyGrains.length

/-- OUT (R147). -/
def Dev.outGrains (v : Dev) : Nat := v.dirty + sumMap (·.credit) v.hosts.ctxs

/-! ### Exposure (R55, R56) -/

/-- A held grain has lost its copy in a stack to a fault. -/
def Dev.copyLost (v : Dev) (s : Nat) : Bool :=
  v.store.grains.any (fun g => g.held && g.exposed && ((g.spire.val == s && g.primary.isNone) || (partner g.spire.val == s && g.mirror.isNone)))

/-- Bit mask of the unrepaired parts that expose data (R55); a bank does when it lost a copy. -/
def Dev.exposureMask (v : Dev) : Nat := v.chip.unrepaired.foldl (fun a p => match p, exposureBit p with
  | .bank s _, some b => if v.copyLost s.val then a ||| b else a
  | _, some b => a ||| b
  | _, none => a) 0

/-- An exposing fault is unrepaired (R56). -/
def Dev.exposed (v : Dev) : Bool := v.exposureMask != 0

/-- A dirty grain is exposed: an exposing fault that is unrepaired took its other copy, or left all data that was dirty then
to one module (R55). A grain accepted after the fault is not. -/
def Dev.grainExposed (v : Dev) (g : Grain) : Bool := g.held && v.exposed && g.exposed

/-! ### Bays (R175, R185, R187) -/

def Dev.bay (v : Dev) (b : Nat) : BayRec := Tab.getD v.store.bays b .reset

def Dev.setBay (v : Dev) (b : Nat) (x : BayRec) : Dev :=
  { v with store := { v.store with bays := Tab.set v.store.bays b x } }

/-- A port of a bay is up and its spire runs; a single-ported drive has its port A only (R187, R26, R185). -/
def Dev.bayPortUp (v : Dev) (b : Nat) (p : BayPort) : Bool :=
  (match p with | .A => (v.bay b).upA | .B => (v.bay b).upB && !(v.bay b).single) && v.spireUp (baySpire b p)

/-- SERVING bays with a port on a running spire (R175). They are the 'healthy' bays of R174 as well, one whose media source
stands at DEGRADING among them: the manual says of no bay when it is healthy (DESIGN CHOICE, assumption log 70). -/
def Dev.settleBays (v : Dev) : List Nat :=
  (List.range 32).filter (fun b => (v.bay b).state == .serving && (v.spireUp (baySpire b .A) || v.spireUp (baySpire b .B)))

/-- A drive meets the rules of R185 and R186 that adoption cannot mend: a dual-ported drive's namespace is shared, NVMe 2.0,
transfers of 64 KiB with metadata, 8 queue pairs of depth 256, the Sanitize Status log. -/
def driveFits (i : DriveInfo) : Bool :=
  (!i.dual || i.shared) && i.nvme20 && decide (16 * 4160 ≤ i.transfer) && decide (8 ≤ i.queues) && decide (256 ≤ i.depth) && i.sanitizeLog

/-- A drive may be served as it is: its namespace has the 4096 + 64 extended format without protection information besides
(R185). -/
def meets185 (i : DriveInfo) : Bool := i.extended && !i.protection && driveFits i

/-! ### Ports (R187, R32) -/

/-- A recovery lease is live on a port of a bay. -/
def Dev.portLeased (v : Dev) (b : Nat) (p : BayPort) : Bool :=
  v.store.ops.any (fun o => o.bay == b && (match o.lease with | some (q, _) => q == p | none => false))

/-- A bay can be read: SERVING with a port up. -/
def Dev.bayReadable (v : Dev) (b : Nat) : Bool :=
  (v.bay b).state == .serving && (v.bayPortUp b .A || v.bayPortUp b .B)

/-- The active port for writes after a change of port state (R187). -/
def Dev.fixActive (v : Dev) (b : Nat) : Dev :=
  let x := v.bay b
  let aOk := v.bayPortUp b .A && !v.portLeased b .A
  let bOk := v.bayPortUp b .B && !v.portLeased b .B
  if !aOk then v.setBay b { x with activeB := true }
  else if x.activeB && !bOk then v.setBay b { x with activeB := false }
  else v

def Dev.activePort (v : Dev) (b : Nat) : BayPort := if (v.bay b).activeB then .B else .A

/-- Commands submitted on a port and not yet complete. -/
def Dev.outstanding (v : Dev) (b : Nat) (p : BayPort) : Nat :=
  (v.store.ops.filter (fun o => o.bay == b && o.port == p && o.sent)).length

/-- The port a read is issued on: one that is up, without a lease if there is such a one, with the fewer commands
outstanding (R187, R32). -/
def Dev.readPort (v : Dev) (b : Nat) : BayPort :=
  let up (p : BayPort) : Bool := v.bayPortUp b p
  let free (p : BayPort) : Bool := up p && !v.portLeased b p
  let better (ok : BayPort → Bool) : Option BayPort :=
    if ok .A && ok .B then some (if v.outstanding b .B < v.outstanding b .A then .B else .A)
    else if ok .A then some .A
    else if ok .B then some .B
    else none
  ((better free).orElse (fun _ => better up)).getD .A

/-- Bay-link group of a bay port on its spire (R267). -/
def bayGroup (b : Nat) (p : BayPort) : Nat := b / 16 + (match p with | .A => 0 | .B => 2)

/-- Count an event of a bay port's link group. -/
def Dev.countBay (v : Dev) (b : Nat) (p : BayPort) (ev n : Nat) : Dev := v.count (baySpire b p) 0x05 (bayGroup b p) ev n

/-- The lowest command identifier neither in use nor quarantined on a bay (R197, R199). -/
def Dev.freeCid (v : Dev) (b : Nat) : Nat :=
  let used := (v.store.ops.filter (fun o => o.bay == b && o.sent)).map (·.cid)
    ++ (v.store.quar.filter (fun q => q.bay == b)).map (·.cid)
  ((List.range 65536).find? (fun c => !used.contains c)).getD 0

def Dev.op (v : Dev) (id : Nat) : Option BayOp := v.store.ops.find? (fun o => o.id == id)

def Dev.adjOp (v : Dev) (id : Nat) (f : BayOp → BayOp) : Dev :=
  { v with store := { v.store with ops := updFirst (fun o => o.id == id) f v.store.ops } }

/-! ### The order of submission (R56, R150, R159, R187, R188, R194) -/

/-- Whose share of the bay ports a command counts in: 1 rebuild and compaction (R194), 2 scrub (R206), 0 other bay work. -/
def BayOp.share (o : BayOp) : Nat :=
  match o.use with
  | .jobRead _ _ _ => 1
  | .jobWrite _ => 1
  | .scrubRead _ _ _ => 2
  | _ => 0

/-- A command that R187 counts with the writes: Write, Write Zeroes, Deallocate. -/
def BayOp.isWrite (o : BayOp) : Bool := o.cmd != .read

def BayOp.overlaps (o x : BayOp) : Bool := decide (o.lba < x.lba + x.count) && decide (x.lba < o.lba + o.count)

/-- Bytes that a command moves through its port (R194). -/
def BayOp.bytes (o : BayOp) : Nat :=
  match o.cmd with
  | .read => 4160 * o.count
  | .write => 4160 * o.count
  | _ => 0

/-- The excess of a credit deficit covers a closed stripe: those before it, oldest first, do not make up the excess (R150). -/
def Dev.inExcess (v : Dev) (p : Pending) : Bool :=
  let before (q : Pending) : Bool := q.closed.isSome && (decide (q.oldest < p.oldest) || (q.oldest == p.oldest && decide (q.id < p.id)))
  v.store.credit.deficit &&
    decide (sumMap (fun (q : Pending) => if before q then q.grains.length else 0) v.store.pend < v.outGrains - v.store.credit.limit)

/-- The place of a stripe in the order of settle work: exposed grains, those of strict claims first; the excess of a deficit;
stripes closed by FLUSH or SEAL; all others (R56, R159). -/
def Dev.settleLevel (v : Dev) (p : Pending) : Nat :=
  let strict := match v.claimDesc p.claim with | some d => d.strict | none => false
  if v.store.grains.any (fun g => p.grains.contains g.id && v.grainExposed g) then (if strict then 0 else 1)
  else if v.inExcess p then 2
  else match p.closed with
    | some .flush => 3
    | some .sealOp => 3
    | _ => 4

/-- Commands waiting at a bay are submitted by this key, lowest first: reads ahead of writes (R188), settle writes in the order of
R159 and within a level oldest first. The manual does not place the writes of the map beside those of the settle, nor
Deallocate: the model takes the map first and Deallocate after the settle (DESIGN CHOICE, assumption log 81). -/
def Dev.opKey (v : Dev) (o : BayOp) : Nat :=
  let at_ (level t : Nat) : Nat := level * 2 ^ 64 + t
  match o.use with
  | .read _ _ _ _ _ => 0
  | .page _ _ _ => 0
  | .scan _ _ => 0
  | .jobRead _ _ _ => 1
  | .scrubRead _ _ _ => 1
  | .journal _ => at_ 1 0
  | .label _ => at_ 1 0
  | .marker => at_ 1 0
  | .image => at_ 1 0
  | .mapPage _ => at_ 1 0
  | .settle pid _ => (match v.store.pend.find? (fun p => p.id == pid) with
      | some p => at_ (2 + v.settleLevel p) p.oldest
      | none => at_ 7 0)
  | .dealloc => at_ 8 0
  | .jobWrite _ => at_ 9 0

/-- REBUILD_SHARE_PCT or SCRUB_SHARE_PCT of a spire (R201, R206). -/
def Dev.sharePct (v : Dev) (s share : Nat) : Nat :=
  min 100 (if share = 1 then v.spireCfg s 2 0x10004 7 0 else v.spireCfg s 5 0x10008 7 0)

/-- Bytes moved in this bell through the bay ports of a spire: those of a share, and all of them (R194). -/
def Dev.movedBy (v : Dev) (s share : Nat) : Nat := Tab.getD v.store.moved (3 * s + share) 0

def Dev.movedAll (v : Dev) (s : Nat) : Nat := v.movedBy s 0 + v.movedBy s 1 + v.movedBy s 2

/-- Rebuild and compaction, or scrub, may move n bytes more through the ports of a spire in this bell. Other bay work counts as waiting
until it is complete (DEDUCED, assumption log 82), and where some has moved bytes in the bell (R194, R202, R206). -/
def Dev.mayShare (v : Dev) (s share n : Nat) : Bool :=
  let own := v.movedBy s share
  let others := decide (own < v.movedAll s) || v.store.ops.any (fun o => o.share != share && baySpire o.bay o.port == s)
  !others || decide ((own + n) * 100 ≤ v.sharePct s share * (v.movedAll s + n))

/-- A scan of one port never switches (R210). -/
def Dev.mayPort (v : Dev) (o : BayOp) : Bool :=
  match o.use with
  | .scan s tag => (match v.store.scans.find? (fun x => x.spire == s && x.tag == tag) with
      | some x => x.port == 0
      | none => true)
  | _ => true

/-- The port on which a command that waits would be submitted: the active one for a write (R187). -/
def Dev.sendPort (v : Dev) (o : BayOp) : BayPort :=
  if o.isWrite then v.activePort o.bay else if v.mayPort o then v.readPort o.bay else o.port

/-- I/O queue entries of a port of a bay (R188, R200). -/
def Dev.portEntries (v : Dev) (b : Nat) : BayPort → Nat
  | .A => (v.bay b).ioA
  | .B => (v.bay b).ioB

/-- A command that waits may be submitted now: its port is up and has an entry free, no earlier command stands before it, a read
waiting for the overlapping writes to complete and a write for those to the same blocks to be submitted, and rebuild and scrub keep
to their shares (R187, R188, R194, R206). -/
def Dev.mayIssue (v : Dev) (o : BayOp) : Bool :=
  let p := v.sendPort o
  let before (x : BayOp) : Bool := decide (x.id < o.id) && x.bay == o.bay && x.isWrite && x.overlaps o && !(o.isWrite && x.sent)
  v.bayPortUp o.bay p && decide (v.outstanding o.bay p < v.portEntries o.bay p) && !v.store.ops.any before
    && (o.share == 0 || v.mayShare (baySpire o.bay p) o.share o.bytes)

/-- The NVMe command as it leaves (R186). -/
def BayOp.toOut (o : BayOp) : Out :=
  match o.cmd, o.use with
  | .read, _ => .bayRead o.bay o.port o.lba o.count
  | .zeroes, _ => .bayZeroes o.bay o.port o.lba o.count
  | .dealloc, _ => .bayDealloc o.bay o.port o.lba o.count
  | .write, .label l => .bayLabel o.bay o.port l
  | .write, .image => .imageWrite o.bay o.port o.lba o.count
  | .write, _ => .bayWrite o.bay o.port o.lba o.blocks

/-- A command is submitted: it takes an identifier, and its timer starts. A read that passes queued writes is counted (R188,
R197). -/
def Dev.send (v : Dev) (o : BayOp) : Dev :=
  let p := v.sendPort o
  let passed := !o.isWrite && v.store.ops.any (fun x => x.bay == o.bay && x.isWrite && !x.sent)
  let o1 := { o with port := p, cid := v.freeCid o.bay, issued := v.now, sent := true }
  let s := baySpire o.bay p
  let v1 := { v with store := { v.store with
    ops := updFirst (fun x => x.id == o.id) (fun _ => o1) v.store.ops
    moved := Tab.set v.store.moved (3 * s + o.share) (v.movedBy s o.share + o.bytes) } }
  (if passed then v1.countBay o.bay p 0x003 1 else v1).emit o1.toOut

/-- The next command to submit to a bay. -/
def Dev.nextOp (v : Dev) (b : Nat) : Option BayOp :=
  (sortBy v.opKey (v.store.ops.filter (fun o => o.bay == b && !o.sent && v.mayIssue o))).head?

def Dev.pumpN (v : Dev) (b : Nat) : Nat → Dev
  | 0 => v
  | n + 1 => match v.nextOp b with
    | some o => (v.send o).pumpN b n
    | none => v

/-- The commands that wait at a bay are submitted as far as its queues and ports allow. -/
def Dev.pump (v : Dev) (b : Nat) : Dev := v.pumpN b (v.store.ops.filter (fun o => o.bay == b && !o.sent)).length

/-- A command is issued to the cells of a bay: it is submitted at once, or waits. -/
def Dev.issueOp (v : Dev) (b : Nat) (p : BayPort) (lba count : Nat) (cmd : BayCmd) (use : OpUse) (blocks : List (List Byte)) :
    Nat × Dev :=
  let (id, v1) := v.fresh
  let op : BayOp := ⟨id, b, p, 0, lba, count, cmd, use, blocks, false, v.now, none, 0, false⟩
  (id, ({ v1 with store := { v1.store with ops := v1.store.ops ++ [op] } }).pump b)

/-- A read is issued to a bay. -/
def Dev.issueRead (v : Dev) (b : Nat) (p : BayPort) (lba count : Nat) (use : OpUse) : Nat × Dev :=
  v.issueOp b p lba count .read use []

/-- Blocks are written to a bay (R186, R187). -/
def Dev.issueWrite (v : Dev) (b lba : Nat) (blocks : List (List Byte)) (use : OpUse) : Nat × Dev :=
  v.issueOp b (v.activePort b) lba blocks.length .write use blocks

end Sys2Proof.Machine
end

