-- ==== Sys2Proof/Machine/Grains.lean ====
section
/-! DEFINITION. Grains, extents and the map journal: the on-drive form of a grain (R169 to R171, R322), judging one
(R214), the extent map (R115, R180), journal records (R183), and the write buffer's room (R138). -/

namespace Sys2Proof.Machine

/-! ### The extent map (R24, R170, R180) -/

def Dev.ownerNow (v : Dev) (claim : Nat) (key : BitVec 128) : Nat := v.roleOf (extOwner claim key)

def Extent.is (e : Extent) (claim : Nat) (key : BitVec 128) : Bool := e.claim == claim && e.key == key

def Dev.ext (v : Dev) (claim : Nat) (key : BitVec 128) : Option Extent := v.hosts.extents.find? (fun e => e.is claim key)

def Dev.setExt (v : Dev) (e : Extent) : Dev :=
  let es := if v.hosts.extents.any (fun x => x.is e.claim e.key) then updFirst (fun x => x.is e.claim e.key) (fun _ => e) v.hosts.extents
    else v.hosts.extents ++ [e]
  { v with hosts := { v.hosts with extents := es } }

def Dev.adjExt (v : Dev) (claim : Nat) (key : BitVec 128) (f : Extent → Extent) : Dev :=
  { v with hosts := { v.hosts with extents := updFirst (fun x => x.is claim key) f v.hosts.extents } }

/-- EXTENT_STATE and OWNER of a completion about an extent (R121). -/
def Dev.extInfo (v : Dev) (claim : Nat) (key : BitVec 128) : ExtInfo :=
  match v.ext claim key with
  | none => noExt
  | some e => ⟨e.st.code, v.ownerNow claim key⟩

/-! ### Grain images (R169, R322) -/

/-- Bytes 32 to 63 of a data grain's metadata: the additional authenticated data (R169, R170). -/
def grainAad (claim : Nat) (key : BitVec 128) (off valid : Nat) (fixed : BitVec 32) (last : Bool) : List Byte :=
  extHash claim key ++ leBytes 8 off ++ leBytes 8 (fixed.toNat * 2 ^ 32 + 2 ^ 24 + valid * 2 ^ 8 + b2n last)

/-- The nonce of a data grain: the fixed field, then the invocation counter (R319). -/
def dataNonce (fixed : BitVec 32) (counter : Nat) : List Byte := leBytes 4 fixed.toNat ++ leBytes 8 counter

/-- The 4,160 B of a data grain: ciphertext and zeros, tag, counter, CRC-64, authenticated data (R169, R322). -/
def sealGrain (aesKey : List Byte) (fixed : BitVec 32) (counter : Nat) (claim : Nat) (key : BitVec 128) (off : Nat)
    (last : Bool) (plain : List Byte) : List Byte :=
  let aad := grainAad claim key off plain.length fixed last
  let (ct, tag) := gcmEncrypt aesKey (dataNonce fixed counter) aad plain
  let data := padTo 4096 ct
  data ++ tag ++ leBytes 8 counter ++ leBytes 8 (crcOf crc64 data) ++ aad

/-- The data bytes of a grain image. -/
def imgData (img : List Byte) : List Byte := slice img 0 4096
/-- The 64 metadata bytes of a grain image. -/
def imgMeta (img : List Byte) : List Byte := slice img 4096 64
def imgTag (img : List Byte) : List Byte := slice img 4096 16
def imgCounter (img : List Byte) : Nat := field img 4112 8
def imgCrc (img : List Byte) : Nat := field img 4120 8
def imgHash (img : List Byte) : List Byte := slice img 4128 16
def imgOffset (img : List Byte) : Nat := field img 4144 8
def imgWord (img : List Byte) : Nat := field img 4152 8
def imgFixed (img : List Byte) : Nat := imgWord img / 2 ^ 32
def imgValid (img : List Byte) : Nat := bits (imgWord img) 20 8

/-- The image with a corrected CRC-64 (R215). -/
def imgFixCrc (img : List Byte) : List Byte :=
  imgData img ++ slice img 4096 24 ++ leBytes 8 (crcOf crc64 (imgData img)) ++ slice img 4128 32

/-- The CRC-64 of an image matches its metadata (R203). -/
def crcMatches (img : List Byte) : Bool := crcOf crc64 (imgData img) == imgCrc img

/-- The plaintext of an image under a key, where the tag authenticates and the map's expectation holds (R171, R323). -/
def openGrain (aesKey : List Byte) (claim : Nat) (key : BitVec 128) (off : Nat) (img : List Byte) : Option (List Byte) :=
  let n := imgValid img
  if imgHash img == extHash claim key && imgOffset img == off && decide (n ≤ 4096) then
    gcmDecrypt aesKey (leBytes 4 (imgFixed img) ++ leBytes 8 (imgCounter img)) (slice img 4128 32) (slice img 0 n) (imgTag img)
  else none

/-- The rows of R214 for one grain; the last is left to the consistency test. -/
inductive Judgement where
  | sound (plain : List Byte)
  | badCrc (plain : List Byte)
  | wrong
  | keyOrMedia
deriving DecidableEq, Repr

def judge (aesKey : List Byte) (claim : Nat) (key : BitVec 128) (off : Nat) (img : List Byte) : Judgement :=
  match openGrain aesKey claim key off img with
  | some p => if crcMatches img then .sound p else .badCrc p
  | none => if crcMatches img then .keyOrMedia else .wrong

/-! ### The map journal (R183) -/

/-- A copy of a journal block is issued to a bay that is SERVING. -/
def Dev.copyBlock (v : Dev) (b : JournalBlock) (n : Nat) : Dev :=
  if (v.bay n).state == .serving then (v.issueWrite n (journalLba b.seq) [b.bytes] (.journal b.seq)).2 else v

/-- A record is written: the next block of the ring, on the three journal bays. -/
def Dev.journal (v : Dev) (r : JournalRec) : Nat × Dev :=
  let j := v.store.journal
  let b : JournalBlock := ⟨j.nextSeq, r, j.bays, false⟩
  let v1 := { v with store := { v.store with journal :=
    { j with blocks := j.blocks ++ [b], nextSeq := j.nextSeq + 1, ringBlocks := j.ringBlocks + 1 } } }
  (j.nextSeq, j.bays.foldl (fun x n => x.copyBlock b n) v1)

/-- An EXTENT record for an extent as it stands; none where it has been removed (R183, R196). -/
def Dev.journalExt (v : Dev) (claim : Nat) (key : BitVec 128) : Dev :=
  match v.ext claim key with
  | some e => (v.journal (.extent claim key e.heldSt e.len)).2
  | none => (v.journal (.extent claim key none 0)).2

/-- A journal record is complete on all three bays. -/
def Dev.journaled (v : Dev) (seq : Nat) : Bool :=
  decide (seq < v.store.journal.nextSeq) && !v.store.journal.blocks.any (fun b => b.seq == seq && !b.complete)

/-! ### Places (R172, R174, R178) -/

/-- First LBA of a seam slot (R172). -/
def slotLba (row : Nat) : Nat := 4194304 + 16 * row

/-- The n-th lowest set bit of a mask. -/
def nthBit (mask n : Nat) : Nat := (((List.range 32).filter (fun b => bit mask b)).drop n).head?.getD 0

def StripeRec.width (r : StripeRec) : Nat := r.k + r.m

/-- Positions placed when the stripe was formed: one on each bay of BAY_MASK (R174, R178). -/
def StripeRec.placed (r : StripeRec) : Nat := ((List.range 32).filter (fun b => bit r.bayMask.toNat b)).length

/-- Bay and row of a position; none where it is unplaced (R174, R178). -/
def StripeRec.placeOf (r : StripeRec) (p : Nat) : Option (Nat × Nat) :=
  match r.relocs.find? (fun x => x.position == p) with
  | some x => some (x.bay, x.row)
  | none =>
    if p < r.placed then some (nthBit r.bayMask.toNat ((p + r.rotation) % r.placed), r.row) else none

/-- The grain of a data position is filler (R177). -/
def StripeRec.filler (r : StripeRec) (p g : Nat) : Bool := p + 1 == r.k && decide (r.lastGrains < g)

/-- Key of a grain of a drive: bay, row, index in the slot. -/
def driveKey (bay row g : Nat) : Nat := (bay * 2 ^ 30 + row) * 16 + g

/-- The 4,160 B that a drive holds; a block never written, or deallocated, reads as zeros. -/
def Dev.driveGrain (v : Dev) (bay row g : Nat) : List Byte := Tab.getD v.store.drives (driveKey bay row g) (zeros 4160)

def Dev.writeDrive (v : Dev) (bay row g : Nat) (img : List Byte) : Dev :=
  { v with store := { v.store with drives := Tab.set v.store.drives (driveKey bay row g) img } }

/-- Sixteen grains written to a slot. -/
def Dev.writeSlot (v : Dev) (bay row : Nat) (imgs : List (List Byte)) : Dev :=
  (imgs.zip (List.range imgs.length)).foldl (fun x (e : List Byte × Nat) => x.writeDrive bay row e.2 e.1) v

/-! ### Freeing stripes, and removal records (R189, R195, R196) -/

/-- A READ or a scrub still holds a stripe's record (R79, R189, R213). -/
def Dev.stripeRead (v : Dev) (id : Nat) : Bool :=
  v.hosts.reads.any (fun r => r.recs.any (fun x => x.id == id)) || v.store.scrubs.any (fun e => e.2.reading == some id)

/-- What drives hold in a slot is gone. -/
def Dev.clearSlot (v : Dev) (bay row : Nat) : Dev :=
  let lo := driveKey bay row 0
  { v with store := { v.store with drives := v.store.drives.filter (fun e => decide (e.1 < lo) || decide (lo + 16 ≤ e.1)) } }

/-- A slot is deallocated on its drive (R186, R195). -/
def Dev.deallocSlot (v : Dev) (bay row : Nat) : Dev :=
  let v1 := v.clearSlot bay row
  if (v1.bay bay).state == .serving then (v1.issueOp bay (v1.activePort bay) (slotLba row) 16 .dealloc .dealloc []).2 else v1

/-- A freed stripe that no reader holds: its FREE record is written and its slots are deallocated (R183, R189, R195). -/
def Dev.release (v : Dev) (t : Stripe) : Dev :=
  let r := t.rec_
  let v1 := { v with store := { v.store with stripes := v.store.stripes.filter (fun x => !(x.dead && x.rec_.id == r.id)) } }
  let v2 := (v1.journal (.free r.id r.bayMask r.row r.relocs)).2
  ((List.range r.width).filterMap r.placeOf).foldl (fun x (p : Nat × Nat) => x.deallocSlot p.1 p.2) v2

/-- A rebuild or re-lay is given up: its bay operations end. -/
def Dev.dropJob (v : Dev) (id : Nat) : Dev :=
  let mine (o : BayOp) : Bool := match o.use with
    | .jobRead j _ _ => j == id
    | .jobWrite j => j == id
    | _ => false
  { v with store := { v.store with jobs := v.store.jobs.filter (fun j => j.id != id), ops := v.store.ops.filter (fun o => !mine o) } }

/-- Some grain of an extent is in the buffer, or in a stripe whose slots have not been deallocated (R115, R189). -/
def Dev.hasGrains (v : Dev) (claim : Nat) (key : BitVec 128) : Bool :=
  v.store.grains.any (fun g => g.claim == claim && g.key == key)
    || v.store.stripes.any (fun t => t.runs.any (fun (r : RunGrain) => r.claim == claim && r.key == key))

/-- The EXTENT record that removes a DELETED extent is written once none of its grains is left (R196). -/
def Dev.writeRemovals (v : Dev) : Dev :=
  let gone := v.hosts.extents.filter (fun e => e.heldSt == some .deleted && !e.journaled && !v.hasGrains e.claim e.key)
  gone.foldl (fun x e =>
    ((x.journal (.extent e.claim e.key none e.len)).2).adjExt e.claim e.key (fun y => { y with journaled := true })) v

/-- Freed stripes go, while the journal is open, once no reader holds them (R189). -/
def Dev.reap (v : Dev) : Dev :=
  if v.store.journal.isOpen then
    ((v.store.stripes.filter (fun t => t.dead && !v.stripeRead t.rec_.id)).foldl (fun x t => x.release t) v).writeRemovals
  else v

/-- A stripe is freed: no longer read, and below full redundancy it counts no more (R85); what was to be rebuilt of it is not
(R193). -/
def Dev.freeStripe (v : Dev) (id : Nat) : Dev :=
  if v.store.stripes.any (fun t => t.rec_.id == id && !t.dead) then
    let v1 := { v with store := { v.store with
      stripes := updFirst (fun t => t.rec_.id == id) (fun t => { t with dead := true }) v.store.stripes
      rebuilds := v.store.rebuilds.filter (fun e => e.1 != id) } }
    let v2 := ((v1.store.jobs.filter (fun j => j.stripe == id && j.journal.isEmpty)).map (·.id)).foldl (fun x j => x.dropJob j) v1
    let v3 := if v2.chip.unrepaired.contains (Part.stripe id) then
        ({ v2 with chip := { v2.chip with unrepaired := v2.chip.unrepaired.filter (fun p => p != Part.stripe id) } }).modeEvent .repaired
      else v2
    v3.reap
  else v

/-- Stripes without live grains are freed (R195). -/
def Dev.freeEmpty (v : Dev) : Dev :=
  ((v.store.stripes.filter (fun t => !t.dead && t.rec_.live == 0)).foldl (fun x t => x.freeStripe t.rec_.id) v).writeRemovals

/-! ### The write buffer (R137, R138, R147) -/

/-- OUT as a take sees it: with the credit that ended grants return at the next bell (R128, R149). -/
def Dev.outHeld (v : Dev) : Nat := v.outGrains + sumMap (·.credit) v.hosts.returning

/-- Grain slots of a stack outside the part that STAGE_LIMIT_MIB sets aside (R138). -/
def Dev.slotsOf (v : Dev) (s : Nat) : Nat := (16384 - v.stageLimit s) * 256

/-- Slots in use or reserved in a stack: copies of grains, and one for each copy of grains whose credit is taken and
which are not yet stored (R138). -/
def Dev.slotsUsed (v : Dev) (s : Nat) : Nat :=
  (v.store.grains.filter (fun g => (g.spire.val == s && g.primary.isSome) || (partner g.spire.val == s && g.mirror.isSome))).length
    + sumMap (fun (c : Ctx) =>
        if (c.arrival.val == s || partner c.arrival.val == s) && !v.store.grains.any (fun g => g.ctx == c.id) then c.credit
        else 0) v.hosts.ctxs
    + sumMap (fun (r : Return) => if r.arrival.val == s || partner r.arrival.val == s then r.credit else 0) v.hosts.returning

/-- Free slots for appends that arrive on a spire: in both stacks of its mirror pair, or in the one that is up. -/
def Dev.roomFor (v : Dev) (s : Nat) : Nat :=
  let own := v.slotsOf s - v.slotsUsed s
  if v.stackUp (partner s) then min own (v.slotsOf (partner s) - v.slotsUsed (partner s)) else own

/-! ### Gathering grains into stripes (R156, R175) -/

/-- Seams a stripe of k data seams is filled to (R175). -/
def Dev.seamGoal (v : Dev) (k : Nat) : Nat := min k v.settleBays.length

/-- The spire that settles a grain: that of its primary, or the partner while it is down (R161). -/
def Dev.settler (v : Dev) (g : Grain) : Nat := if v.spireUp g.spire.val then g.spire.val else partner g.spire.val

/-- A grain's place in the order of acceptance. -/
def Dev.grainSeq (v : Dev) (id : Nat) : Nat := ((v.store.grains.find? (fun g => g.id == id)).map (·.seq)).getD 0

/-- A held grain joins the open stripe of its settling spire, claim and profile version, or a new one; the grains of a stripe stand
in acceptance order (R156, R174). -/
def Dev.gather (v : Dev) (g : Grain) : Dev :=
  let s := v.settler g
  let fits (p : Pending) : Bool := p.spire.val == s && p.claim == g.claim && p.k == g.profK && p.m == g.profM
    && p.profVer == g.profVer && p.closed.isNone && decide (p.grains.length < 16 * max 1 (v.seamGoal p.k))
  let link (x : Dev) (pid : Nat) : Dev :=
    { x with store := { x.store with grains := updFirst (fun y => y.id == g.id) (fun y => { y with stripe := some pid }) x.store.grains } }
  match v.store.pend.find? fits with
  | some p =>
    let add (y : Pending) : Pending := { y with grains := sortBy v.grainSeq (y.grains ++ [g.id]), oldest := min y.oldest g.dirtyAt }
    link { v with store := { v.store with pend := updFirst (fun y => y.id == p.id) add v.store.pend } } p.id
  | none =>
    let (id, v1) := v.fresh
    let p : Pending := ⟨id, Fin.ofNat 4 s, g.claim, g.profK, g.profM, g.profVer, [g.id], g.dirtyAt, none, none, [], none, []⟩
    link { v1 with store := { v1.store with pend := v1.store.pend ++ [p] } } id

/-- Grains placed anew after their stripe failed, or first placed, in acceptance order. -/
def Dev.gatherAll (v : Dev) (gs : List Grain) : Dev := (sortBy (·.seq) gs).foldl (fun x g => x.gather g) v

end Sys2Proof.Machine
end

