-- ==== Sys2Proof/Machine/Extents.lean ====
section
/-! DEFINITION. The extent service: the checks of a capsule, admission, credit, the commit path and holding of tallied
commands (R27, R28, R36 to R46, R109 to R136, R247 to R249). -/

namespace Sys2Proof.Machine

/-! ### Completing a tallied command -/

/-- The grains of an append of a length (R113). -/
def grainsOf (len : Nat) : Nat := ceilDiv len 4096

/-- What a command's completion says about its extent: FLUSH, CACK and PING name none (R117, R118). -/
def Dev.infoFor (v : Dev) (c : Ctx) : ExtInfo :=
  if c.kind == .flush || c.kind == .cack || c.kind == .ping then noExt else v.extInfo c.claim c.msg.cap.key

/-- A command leaves flight and completes with results; nothing of its charge or credit is returned. -/
def Dev.completeCtx (v : Dev) (c : Ctx) (st : Byte) (settled : Bool) (off len grains : Nat) : Dev :=
  let v1 := v.dropCtx { c with charged := 0, credit := 0 }
  let x := v1.infoFor c
  if c.kind.tallied then
    v1.completeTallied c.session c.kind.opcode c.msg
      (v1.completionOf c.session c.msg st x settled off len c.nonceFixed c.nonceFirst grains)
  else
    v1.build c.session (.completion (v1.completionOf c.session c.msg st x settled off len 0 0 grains)) (some c.qp) none
      (some c.msg.at_)

/-- A command is refused about its extent: credit, charge and grant are returned (R113, R149, R248). -/
def Dev.refuseExt (v : Dev) (c : Ctx) (st : Byte) (off : Nat) : Dev :=
  let x := v.infoFor c
  if c.kind.tallied then (v.dropCtx c).refuseTallied c.session c.kind.opcode c.msg st x off
  else (v.dropCtx c).answer c.session c.msg st x off 0

/-! ### Holding in acceptance order (R44, R45, R116) -/

/-- The commands of an extent in progress. -/
def Dev.extCtxs (v : Dev) (claim : Nat) (key : BitVec 128) : List Ctx :=
  v.hosts.ctxs.filter (fun c => c.claim == claim && c.msg.cap.key == key && c.order.isSome)

def Ctx.place (c : Ctx) : Nat := c.order.getD 0

/-- Some command of the extent with an earlier place is not yet held. -/
def Dev.earlierUnheld (v : Dev) (c : Ctx) : Bool :=
  (v.extCtxs c.claim c.msg.cap.key).any (fun x => decide (x.place < c.place) && x.phase != .heldWaitSettle)

/-- LIVE_GRAINS of the stripes that hold grains of a deleted extent fall (R195). -/
def Dev.lowerLive (v : Dev) (claim : Nat) (key : BitVec 128) : Dev :=
  let f (t : Stripe) : Stripe :=
    let rs := t.runs.map (fun (r : RunGrain) => if r.claim = claim && r.key = key then { r with live := false } else r)
    { t with runs := rs, rec_ := { t.rec_ with live := (rs.filter (·.live)).length } }
  { v with store := { v.store with stripes := v.store.stripes.map (fun t =>
      if t.runs.any (fun (r : RunGrain) => r.live && r.claim == claim && r.key == key) then f t else t) } }

/-- The claim version that a command matched asks for the strict policy, and an exposing fault is unrepaired (R56, R74). -/
def Dev.waitsSettle (v : Dev) (c : Ctx) : Bool := v.exposed && c.desc.strict

/-- A command is marked held: its effect stands, and an append completes, or waits for its settle under the strict
policy (R28, R44, R56, R116). -/
def Dev.markHeld (v : Dev) (c : Ctx) : Dev :=
  let claim := c.claim
  let key := c.msg.cap.key
  match c.kind with
  | .append =>
    let n := c.grains
    let gs := v.store.grains.map (fun (g : Grain) => if g.ctx = c.id then { g with held := true, dirtyAt := v.now } else g)
    let mine := gs.filter (fun g => g.ctx == c.id)
    let v1 := { v with store := { v.store with grains := gs } }
    let v2 := (v1.adjCtx c.id (fun y => { y with credit := 0, charged := 0, phase := .heldWaitSettle, heldAt := some v.mono })).adjExt
      claim key (fun e => { e with len := c.offset + c.msg.cap.length.toNat, lastHeld := v.mono, grains := e.grains + n })
    let v3 := (((v2.count c.arrival.val 0x02 0 0x002 1).count c.arrival.val 0x03 0 0x001 n).chainDone c.arrival.val).gatherAll mine
    let v4 := match c.grantTag with
      | some t => v3.endGrant c.session t
      | none => v3
    if n ≠ 0 && v4.waitsSettle c then v4.adjCtx c.id (fun y => { y with grantTag := none })
    else v4.completeCtx { c with grantTag := none } stOk false c.offset c.msg.cap.length.toNat n
  | .sealOp =>
    let v1 := (v.adjExt claim key (fun e => { e with heldSt := some .sealed_, lastHeld := v.mono })).journalExt claim key
    v1.completeCtx c stOk false 0 (match v1.ext claim key with | some e => e.len | none => 0) 0
  | .delete =>
    let len := match v.ext claim key with | some e => e.len | none => 0
    let v1 := (v.adjExt claim key (fun e =>
      { e with heldSt := some .deleted, lastHeld := v.mono, deletedAt := some v.now })).lowerLive claim key
    ((v1.journalExt claim key).freeEmpty).completeCtx c stOk false 0 len 0
  | _ => v

/-- The moment at which the latest command of an extent was marked held. -/
def Dev.lastHeldOf (v : Dev) (c : Ctx) : Nat :=
  match v.ext c.claim c.msg.cap.key with
  | some e => e.lastHeld
  | none => 0

/-- A command is marked held now: its grains are stored, every earlier one of its extent is held, and where it had to wait
for them a stroke has passed since the latest of them was (R44, R116). -/
def Dev.holdable (v : Dev) (c : Ctx) : Bool :=
  c.phase == .stored && !v.earlierUnheld c && (!c.waited || decide (v.lastHeldOf c + 64 ≤ v.mono))

def Dev.holdIfDue (v : Dev) (id : Nat) : Dev :=
  match v.ctx id with
  | some c => if v.holdable c then v.markHeld c else v
  | none => v

/-- Commands whose stroke has passed by a bell are held (R44). -/
def Dev.holdBell (v : Dev) : Dev := (v.hosts.ctxs.filter (fun c => c.phase == .stored)).foldl (fun x c => x.holdIfDue c.id) v

/-- Commands whose grains are all stored are held one after the other (R44, R155). -/
def Dev.holdStored : Nat → Dev → Dev
  | 0, v => v
  | fuel + 1, v =>
    match v.hosts.ctxs.find? (fun c => c.phase == .stored && !v.earlierUnheld c) with
    | some c => Dev.holdStored fuel (v.markHeld c)
    | none => v

/-- The grains of a command that is not held are discarded (R137). -/
def Dev.dropGrainsOf (v : Dev) (id : Nat) : Dev :=
  { v with store := { v.store with grains := v.store.grains.filter (fun g => g.ctx != id) } }

/-- The commands of an extent from a place on that are not held are discarded; the length returns to the held prefix (R45,
R116). -/
def Dev.abandonFrom (v : Dev) (claim : Nat) (key : BitVec 128) (place : Nat) : Dev :=
  let gone := (v.extCtxs claim key).filter (fun x => decide (place ≤ x.place) && x.phase != .heldWaitSettle)
  let v1 := gone.foldl (fun x y => (x.discardCtx y).dropGrainsOf y.id) v
  v1.adjExt claim key (fun e => { e with assigned := e.len, st := (e.heldSt.getD e.st) })

/-- An append is abandoned, with every later command of its extent that is not held (R45). -/
def Dev.abandon (v : Dev) (c : Ctx) : Dev := v.abandonFrom c.claim c.msg.cap.key c.place

/-- A command that is not held is dropped: with its extent's later ones where it has a place in its order. -/
def Dev.dropUnheld (v : Dev) (id : Nat) : Dev :=
  match v.ctx id with
  | none => v
  | some c =>
    if c.phase == .heldWaitSettle then v
    else if c.order.isSome then v.abandon c
    else v.discardCtx c

/-! ### The commit path (R27, R119, R126, R129, R208) -/

/-- Steps 7 to 9 of R119 for a command of an extent; none when they pass. -/
def Dev.extentCheck (v : Dev) (c : Ctx) : Option Byte :=
  let key := c.msg.cap.key
  let len := c.msg.cap.length.toNat
  let e := v.ext c.claim key
  let st := e.map (·.st)
  let bytes := c.desc.quotaBytes
  let most := c.desc.quotaExtents
  match c.kind with
  | .create =>
    let mine := (v.hosts.extents.filter (fun x => x.claim == c.claim)).length
    let slice := (v.hosts.extents.filter (fun x => extOwner x.claim x.key == extOwner c.claim key)).length
    if st == some .deleted then some stNotFound
    else if e.isSome then some stExists
    else if most ≤ mine || 2 ^ 30 ≤ v.hosts.extents.length
        || (slice != 0 && Config.mapSliceFull slice (leNat (extHash c.claim key))) then some stQuota
    else none
  | .append =>
    let used := (v.claimEntry c.claim).charged - c.charged
    if st == none || st == some .deleted then some stNotFound
    else if st == some .sealed_ then some stSealed
    else if len != 0 && decide (bytes < (used + grainsOf len) * 4096) then some stQuota
    else if 2 ^ 40 < (e.map (·.assigned)).getD 0 + len then some stInvalidField
    else none
  | .sealOp =>
    if st == none || st == some .deleted then some stNotFound
    else if st == some .sealed_ then some stSealed
    else none
  | .delete | .read | .stat => if st == none || st == some .deleted then some stNotFound else none
  | .flush | .cack | .ping => none

/-- A place in the acceptance order. -/
def Dev.nextPlace (v : Dev) : Nat × Dev := v.fresh

/-- The bytes of an append: from its capsule, or from the window after its signal. -/
def Ctx.payload (c : Ctx) : List Byte := slice (c.staged.getD c.msg.payload) 0 c.msg.cap.length.toNat

/-- Stroke 1 of the commit path at the owner: the checks are repeated, the payload CRC and the expected offset compared,
and the offset assigned (R27, R126, R129, R208). -/
def Dev.assign (v : Dev) (c : Ctx) : Dev :=
  let key := c.msg.cap.key
  let len := c.msg.cap.length.toNat
  match v.extentCheck c with
  | some st => v.refuseExt c st 0
  | none =>
    match v.ext c.claim key with
    | none => v.refuseExt c stNotFound 0
    | some e =>
      if c.msg.cap.crc && crcOf crc32c c.payload ≠ c.msg.cap.hostCrc.toNat then v.refuseExt c stPayloadCrc 0
      else if c.msg.cap.expect && c.msg.cap.offset.toNat ≠ e.assigned then v.refuseExt c stOffsetMismatch e.assigned
      else
        let (place, v1) := v.nextPlace
        let v2 := (v1.setExt { e with assigned := e.assigned + len }).adjCtx c.id (fun y =>
          { y with offset := e.assigned, order := some place,
                   waited := decide (c.grains = 0) && v1.earlierUnheld { c with order := some place },
                   phase := if c.grains = 0 then .stored else .committing })
        v2.holdIfDue c.id

/-! ### Credit (R134, R138, R147 to R149) -/

/-- An append takes what its spire's allotment, LIMIT and the room in both stacks allow. -/
def Dev.takeCredit (v : Dev) (c : Ctx) : Dev :=
  let s := c.arrival.val
  let need := c.grains - c.credit
  let allot := Tab.getD v.store.credit.allot s 0
  let n := min (min need allot) (min (v.store.credit.limit - v.outHeld) (v.roomFor s))
  if n = 0 then v
  else
    let k := v.store.credit
    let v1 := { v with store := { v.store with credit :=
      { k with allot := Tab.set k.allot s (allot - n), taken := Tab.set k.taken s (Tab.getD k.taken s 0 + n) } } }
    (v1.adjCtx c.id (fun y => { y with credit := y.credit + n })).countKeep 0x10 0x001 n

/-! ### Grants (R247, R249, R123) -/

/-- Windows that an append can use, in search order (R247 item 1). -/
def Dev.stageWindows (v : Dev) (c : Ctx) : List (Nat × Window) :=
  let ok (w : Window) : Bool := w.usable && w.state == .live && w.session == c.session
  v.hosts.windows.filter (fun e => ok e.2 && e.2.qp == some c.qp)
    ++ v.hosts.windows.filter (fun e => ok e.2 && e.2.qp == none && e.2.home.val == v.homeOf c.qp)

/-- Bytes a grant of a length occupies (R247 item 2). -/
def stageBytes (len : Nat) : Nat := grainsOf len * 4096

/-- Runs of a window that are lent, or were freed in this bell (R248). -/
def Dev.lentRuns (v : Dev) (n : Nat) (w : Window) : List (Nat × Nat) :=
  (v.hosts.grants.filter (fun g => g.window == n)).map (fun (g : Grant) => (g.offset, stageBytes g.length))
    ++ (w.freed.filter (fun (f : Nat × Nat × Nat) => decide (v.now ≤ f.2.2))).map (fun f => (f.1, stageBytes f.2.1))

/-- The lowest free run of a window (R247 item 2). -/
def Dev.freeRun (v : Dev) (n : Nat) (w : Window) (len : Nat) : Option Nat :=
  let lent := v.lentRuns n w
  let size := stageBytes len
  let fits (a : Nat) : Bool := decide (a + size ≤ w.sizeMib * 2 ^ 20)
    && lent.all (fun r => decide (a + size ≤ r.1) || decide (r.1 + r.2 ≤ a))
  (sortBy (fun a => a) (0 :: lent.map (fun r => r.1 + r.2))).find? fits

/-- The next grant tag of a session that is neither spent nor in use (R247 item 3). -/
def Dev.nextTag (v : Dev) (sn : Nat) (s : Session) : Option Nat :=
  let busy (t : Nat) : Bool := s.spent.any (fun e => e.1 == t) || v.hosts.grants.any (fun g => g.session == sn && g.tag == t)
  ((List.range 65536).map (fun i => (s.grantCounter + i) % 65536)).find? (fun t => !busy t)

inductive StageResult where
  | granted
  | wait
  | never
deriving DecidableEq, Repr

/-- A staged append takes its grant: the window, the run, the tag and the context, and XFER_READY is built (R123, R247).
A grant of life 0 ends at once (R136, R249). An append for which its session has no window that could ever hold it completes
BUSY_STAGING at once instead of waiting under R134: the manual does not give the case of no window (assumption log 73). -/
def Dev.stage1 (v : Dev) (c : Ctx) : StageResult × Dev :=
  let len := c.msg.cap.length.toNat
  let ws := v.stageWindows c
  match v.session c.session with
  | none => (.wait, v)
  | some s =>
    if ws.all (fun e => decide (e.2.sizeMib * 2 ^ 20 < len)) then (.never, v)
    else if 4096 ≤ s.contexts.length then (.wait, v)
    else
      match ws.find? (fun e => (v.freeRun e.1 e.2 len).isSome), v.nextTag c.session s with
      | some (n, w), some tag =>
        let off := (v.freeRun n w len).getD 0
        let life := c.desc.xferLife
        let imm : BitVec 32 := BitVec.ofNat 32 (c.session * 65536 + tag)
        let g : Grant := ⟨c.session, tag, n, off, len, .granted, v.now, life, c.id, 0, 0, v.versionOf .window n⟩
        let x : XferReady := ⟨c.msg.cap.tally, c.msg.cap.cmdTag, imm, BitVec.ofNat 32 (w.key n),
          BitVec.ofNat 64 (stageAddr n tag off), len, life, v.stamp⟩
        let v1 := v.setSession c.session
          { s with grantCounter := (tag + 1) % 65536, contexts := s.contexts ++ [⟨imm, 0, .grant tag⟩] }
        let v2 := { v1 with hosts := { v1.hosts with grants := v1.hosts.grants ++ [g] } }
        let v3 := (v2.adjCtx c.id (fun y => { y with phase := .granted, grantTag := some tag })).build c.session (.xferReady x)
          (some c.qp) none none
        (.granted, if life = 0 then v3.refuseCtx { c with grantTag := some tag } stXferExpired else v3)
      | _, _ => (.wait, v)

/-- BUSY_CREDIT or BUSY_STAGING, by what the append lacks now (R134). -/
def Dev.refuseWait (v : Dev) (c : Ctx) : Dev :=
  if c.credit < c.grains then (v.count c.arrival.val 0x02 0 0x003 1).refuseCtx c stBusyCredit
  else (v.count c.arrival.val 0x02 0 0x004 1).refuseCtx c stBusyStaging

/-- An append that waits for room, with its credit: it goes on, waits, or is refused. -/
def Dev.stepRoom (v : Dev) (c : Ctx) : Dev :=
  if c.credit < c.grains then (if c.desc.admitBound = 0 then v.refuseWait c else v)
  else if c.msg.cap.inline then v.assign c
  else
    match v.stage1 c with
    | (.granted, v1) => v1
    | (.never, v1) => v1.refuseWait c
    | (.wait, v1) => if c.desc.admitBound = 0 then v1.refuseWait c else v1

/-- The appends that wait for room on a spire, in admission order: the first that stays short of credit is the credit
head, and none after it takes credit (R148). -/
def Dev.serveRoom (v : Dev) (s : Nat) : Dev :=
  let waiting := v.hosts.ctxs.filter (fun c => c.phase == .waitRoom && c.arrival.val == s)
  (waiting.foldl (fun (a : Dev × Bool) c =>
    if c.credit < c.grains then
      if a.2 then (a.1.stepRoom c, true)
      else
        let v1 := a.1.takeCredit c
        match v1.ctx c.id with
        | none => (v1, false)
        | some c1 =>
          let v2 := v1.stepRoom c1
          (v2, decide (c1.credit < c1.grains) && (v2.ctx c.id).isSome)
    else (a.1.stepRoom c, a.2)) (v, false)).1

/-! ### READ (R130 to R132, R216) -/

/-- The grains of a held extent that overlap a range: those in the buffer, and those of published stripes. -/
def Dev.readParts (v : Dev) (claim : Nat) (key : BitVec 128) (off len : Nat) : List (ReadPart × Option Grain) :=
  let meets (o n : Nat) : Bool := decide (o < off + len) && decide (off < o + n)
  let buf := v.store.grains.filter (fun g => g.held && g.claim == claim && g.key == key && meets g.offset g.valid)
  let fromBuf : List (ReadPart × Option Grain) := buf.map (fun (g : Grain) => (⟨g.offset, g.valid, none, none⟩, some g))
  let fromDisk : List (ReadPart × Option Grain) := v.store.stripes.flatMap (fun (t : Stripe) =>
    if t.dead then [] else
      (t.runs.zip (List.range t.runs.length)).filterMap (fun (r : RunGrain × Nat) =>
        if r.1.live && r.1.claim == claim && r.1.key == key && meets r.1.offset r.1.valid
            && !buf.any (fun g => g.offset == r.1.offset) then
          some (⟨r.1.offset, r.1.valid, some (t.rec_.id, r.2 / 16, r.2 % 16), none⟩, none)
        else none))
  sortBy (fun p => p.1.offset) (fromBuf ++ fromDisk)

/-- The parts leave no hole in a range. -/
def coversRange : List ReadPart → Nat → Nat → Bool
  | [], lo, hi => decide (hi ≤ lo)
  | p :: ps, lo, hi => decide (p.offset ≤ lo) && coversRange ps (max lo (p.offset + p.valid)) hi

/-- The bytes of a range from sound parts. -/
def rangeBytes (ps : List ReadPart) (off len : Nat) : List Byte :=
  ps.flatMap (fun (p : ReadPart) =>
    let lo := max off p.offset
    let hi := min (off + len) (p.offset + p.valid)
    slice (p.plain.getD []) (lo - p.offset) (hi - lo))

/-- A fault of a copy in the write buffer of a stack, with its byte address (R216, R376). The address is not one the
manual gives: a free value. -/
def Dev.bufferFault (v : Dev) (type s : Nat) : Dev :=
  let (a, v1) := v.free64
  v1.faultAt type s 0xFFFF 1 a.toNat 0 0 0

def Dev.adjGrain (v : Dev) (id : Nat) (f : Grain → Grain) : Dev :=
  { v with store := { v.store with grains := updFirst (fun g => g.id == id) f v.store.grains } }

/-- What a grain in the buffer yields: its plaintext, or the status the READ completes with (R216). Where one copy is left, its
CRC-64 matches and its tag fails, the READ completes AUTH_FAIL and KEY_MISMATCH is raised: the manual gives the two-copy
cases only (assumption log 71). -/
def Dev.readBuffered (v : Dev) (slot : Nat) (g : Grain) : Dev × Except Byte (List Byte) :=
  let k := v.coreKey g.spire.val slot
  let see (i : Option (List Byte)) : Option Judgement := i.map (judge k g.claim g.key g.offset)
  let ps := g.spire.val
  let ms := partner g.spire.val
  let keyMiss (x : Dev) : Dev × Except Byte (List Byte) :=
    (x.fault 0x053 7 g.claim g.claim slot 0, .error stAuthFail)
  match see g.primary, see g.mirror with
  | some (.sound p), _ => (v, .ok p)
  | some (.badCrc p), _ =>
    ((v.adjGrain g.id (fun y => { y with primary := y.primary.map imgFixCrc })).bufferFault 0x050 ps, .ok p)
  | some _, some (.sound p) =>
    ((v.adjGrain g.id (fun y => { y with primary := y.mirror })).bufferFault 0x051 ps, .ok p)
  | some _, some (.badCrc p) =>
    let v1 := (v.adjGrain g.id (fun y => { y with mirror := y.mirror.map imgFixCrc, primary := y.mirror.map imgFixCrc }))
    ((v1.bufferFault 0x050 ms).bufferFault 0x051 ps, .ok p)
  | none, some (.sound p) => (v, .ok p)
  | none, some (.badCrc p) =>
    ((v.adjGrain g.id (fun y => { y with mirror := y.mirror.map imgFixCrc })).bufferFault 0x050 ms, .ok p)
  | some a, some b =>
    if a == .keyOrMedia && b == .keyOrMedia && g.primary == g.mirror then keyMiss v else (v, .error stDataLost)
  | some .keyOrMedia, none => keyMiss v
  | none, some .keyOrMedia => keyMiss v
  | _, _ => (v, .error stDataLost)

/-- The first grain of a protected session's device-to-host message: lease number and counter (R325). -/
def Dev.protectData (v : Dev) (q sn : Nat) (data : List Byte) : List Byte × Dev :=
  match v.qp q, v.session sn with
  | some x, some s =>
    (match s.connKey, v.protected s with
     | some slot, true =>
       let nonce := leBytes 4 (0x80000000 + (x.protLease.getD 0) % 2 ^ 24) ++ leBytes 8 x.protCount
       let (ct, tag) := gcmEncrypt (v.coreKey x.home.val slot) nonce (leBytes 4 sn ++ zeros 4) data
       (nonce ++ ct ++ tag, (v.serveCipher x.home.val 3 (ceilDiv data.length 4096)).adjQp q (fun y => { y with protCount := y.protCount + 1 }))
     | _, _ => (data, v))
  | _, _ => (data, v)

/-- A READ ends: data to the host first, then its completion on the same queue pair (R30, R130, R132); its latency runs to
the first data byte (R122). While the path is not LIVE the data waits (R237). -/
def Dev.finishRead (v : Dev) (r : ReadCtx) (st : Byte) : Dev :=
  let v1 := { v with hosts := { v.hosts with reads := v.hosts.reads.filter (fun x => x.id != r.id) } }
  let x := v1.extInfo r.claim r.msg.cap.key
  if st ≠ stOk then v1.answer r.session r.msg st x 0 0
  else if v.pathState r.qp != some .live then v
  else
    let (bytes, v2) := v1.protectData r.qp r.session (rangeBytes r.parts r.extOffset r.length)
    let c := v2.completionOf r.session r.msg stOk x false r.extOffset r.length 0 0 0
    let b : Built := ⟨.completion { c with latencyNs := min 0xFFFFFFFF (v.mono - r.msg.at_) }, some r.qp, none, false, none, true⟩
    ((v2.postData r.qp r.msg.cap.hostRkey r.msg.cap.hostVa bytes).adjSession r.session (fun s =>
      { s with built := s.built ++ [b] })).chainDone (v.homeOf r.qp)

/-- The parts in the buffer are judged and taken, in order; the first that cannot be produced decides. -/
def Dev.takeBuffered (v : Dev) (slot arrival : Nat) : List (ReadPart × Option Grain) → Dev × Except Byte (List ReadPart)
  | [] => (v, .ok [])
  | (p, none) :: t =>
    match v.takeBuffered slot arrival t with
    | (v1, .ok ps) => (v1, .ok (p :: ps))
    | (v1, .error e) => (v1, .error e)
  | (p, some g) :: t =>
    match (v.count arrival 0x03 0 0x003 1).readBuffered slot g with
    | (v1, .error e) => (v1, .error e)
    | (v1, .ok plain) =>
      match v1.takeBuffered slot arrival t with
      | (v2, .ok ps) => (v2, .ok ({ p with plain := some plain } :: ps))
      | (v2, .error e) => (v2, .error e)

end Sys2Proof.Machine
end

