-- ==== Sys2Proof/Machine/Bays.lean ====
section
/-! DEFINITION. Bay I/O: places of stripe positions, ports, bay operations with their timeouts and leases, degraded reads
and the arbitration of read grains (R174, R178, R186 to R199, R214). -/

namespace Sys2Proof.Machine

/-! ### The READ timer (R198) -/

def Dev.readCtx (v : Dev) (id : Nat) : Option ReadCtx := v.hosts.reads.find? (fun r => r.id == id)

def Dev.adjRead (v : Dev) (id : Nat) (f : ReadCtx → ReadCtx) : Dev :=
  { v with hosts := { v.hosts with reads := updFirst (fun r => r.id == id) f v.hosts.reads } }

/-- A lease is live on some operation of a READ. -/
def Dev.readLeased (v : Dev) (r : ReadCtx) : Bool := v.store.ops.any (fun o => r.ops.contains o.id && o.lease.isSome)

/-- The timer of a READ pauses while a lease is live on one of its operations, and runs otherwise. -/
def Dev.fixTimer (v : Dev) (id : Nat) : Dev :=
  match v.readCtx id with
  | none => v
  | some r =>
    match r.runFrom, v.readLeased r with
    | some t, true => v.adjRead id (fun x => { x with running := x.running + (v.now - t), runFrom := none })
    | none, false => v.adjRead id (fun x => { x with runFrom := some v.now })
    | _, _ => v

/-- Running time of a READ in bells. -/
def Dev.readRan (v : Dev) (r : ReadCtx) : Nat := r.running + (match r.runFrom with | some t => v.now - t | none => 0)

/-- An operation leaves: its lease ends with it. -/
def Dev.dropOp (v : Dev) (id : Nat) : Dev :=
  match v.op id with
  | none => v
  | some o =>
    let v1 := ({ v with store := { v.store with ops := v.store.ops.filter (fun x => x.id != id) } }).fixActive o.bay
    let left (c : Nat) : Dev := (v1.adjRead c (fun r => { r with ops := r.ops.filter (fun x => x != id) })).fixTimer c
    match o.use with
    | .read c _ _ _ _ => left c
    | .page c _ _ => left c
    | _ => v1

/-- The operations of a READ that ends are aborted. -/
def Dev.endRead (v : Dev) (r : ReadCtx) (st : Byte) : Dev := (r.ops.foldl (fun x o => x.dropOp o) v).finishRead r st

/-! ### Degraded reads and arbitration (R192, R214) -/

/-- Key of a grain of a stripe in the images a READ has. -/
def gotKey (stripe pos g : Nat) : Nat := (stripe * 64 + pos) * 16 + g

/-- Sublists of a length, in order. -/
def choices {α : Type} : Nat → List α → List (List α)
  | 0, _ => [[]]
  | _ + 1, [] => []
  | n + 1, x :: xs => (choices n xs).map (x :: ·) ++ choices (n + 1) xs

/-- A grain rebuilt from k' grains of its index (R176, R177, R192). -/
def rebuildGrain (rc : StripeRec) (pos : Nat) (have_ : List (Nat × List Byte)) : Option (List Byte) :=
  match rsDecode rc.k have_ with
  | none => none
  | some ds => if pos < rc.k then ds[pos]? else some (rsParity (pos - rc.k) ds)

/-- The parity of an index re-encoded from the readable data positions agrees with every readable parity position; with a
data position unreadable, or no parity position, it counts as consistent (R214). -/
def indexConsistent (rc : StripeRec) (have_ : List (Nat × List Byte)) : Bool :=
  let ds := (List.range rc.k).map (fun i => (have_.find? (fun e => e.1 == i)).map (·.2))
  if ds.any Option.isNone then true
  else have_.all (fun e => decide (e.1 < rc.k) || rsParity (e.1 - rc.k) (ds.map (·.getD [])) == e.2)

inductive PartResult where
  | ok (plain : List Byte)
  | fail (st : Byte)
  | need (ps : List Nat)
deriving DecidableEq, Repr

/-- A check event at a bay: bay, LBA, STRIPE_ID (R217). -/
def Dev.checkFault (v : Dev) (type : Nat) (rc : StripeRec) (pos g : Nat) : Dev :=
  let (b, row) := (rc.placeOf pos).getD (0, 0)
  v.faultAt type 7 b 5 (slotLba row + g) b (slotLba row + g) rc.id

def Dev.scrub (v : Dev) (s : Nat) : Scrub := Tab.getD v.store.scrubs s .reset

def Dev.setScrub (v : Dev) (s : Nat) (x : Scrub) : Dev :=
  { v with store := { v.store with scrubs := Tab.set v.store.scrubs s x } }

/-- Scrub runs on a spire (R212). -/
def Dev.scrubOn (v : Dev) (s : Nat) : Bool := v.spireUp s && v.serving && v.spireCfg s 5 0x10008 31 31 == 1

/-- The stripes of a spire's pass: its published ones (R212). -/
def Dev.scrubItems (v : Dev) (s : Nat) : List Nat :=
  (v.store.stripes.filter (fun t => !t.dead && t.rec_.id / 2 ^ 46 == s)).map (·.rec_.id)

/-- The map pages of a spire's pass, by key: those whose number is s modulo 4 (R212). -/
def Dev.scrubPages (v : Dev) (s : Nat) : List Nat := (v.store.pages.map (·.1)).filter (fun k => k / 2 % 4 == s)

/-- A stripe or page that is freed counts as done; the pass ends when nothing is left (R212). -/
def Dev.endPass (v : Dev) (s : Nat) : Dev :=
  let x := v.scrub s
  let stripes := v.scrubItems s
  let held := v.scrubPages s
  let items := x.items.filter (fun i => stripes.contains i)
  let pages := x.pages.filter (fun k => held.contains k)
  if x.running && items.isEmpty && pages.isEmpty && x.reading.isNone then
    v.setScrub s { x with running := false, items := [], pages := [], passCount := x.passCount + 1, late := false }
  else v.setScrub s { x with items := items, pages := pages }

/-- What a scrub's read of a position brought; empty images are kept of one that failed. -/
def Dev.scrubGot (v : Dev) (s stripe pos count : Nat) (imgs : List (List Byte)) : Dev :=
  let x := v.scrub s
  v.setScrub s { x with got := (List.range count).foldl (fun t i => Tab.set t (gotKey stripe pos i) (imgs.getD i [])) x.got }

/-- A stripe's grain enters its spire's repair list; its fault is raised the first time only (R215). -/
def Dev.needsRepair (v : Dev) (type : Nat) (rc : StripeRec) (pos g : Nat) : Dev :=
  let s := rc.id / 2 ^ 46
  let x := v.scrub s
  let key := gotKey rc.id pos g
  if x.repair.contains key then v
  else (v.setScrub s { x with repair := x.repair ++ [key] }).checkFault type rc pos g

/-- RANGE_LOST: claim, STRIPE_ID, extent grain index (R214, R217). -/
def Dev.rangeLost (v : Dev) (claim : Nat) (key : BitVec 128) (stripe off : Nat) : Dev :=
  let hit (f : FlushCtx) : Bool := f.ranges.contains (claim, key, off)
  ({ v with hosts := { v.hosts with flushes := updAll hit (fun (f : FlushCtx) => { f with lost := true }) v.hosts.flushes } }).fault
    0x054 7 claim claim stripe (off / 4096)

/-- A grain of a READ from k' other positions of its stripe (R192, R214). `unread` picks the positions still to be read,
`attempt` decodes and judges from a choice; `was` says that the grain itself was read and found wrong. -/
def Dev.reconstruct (x : Dev) (rc : StripeRec) (claim : Nat) (key : BitVec 128) (off sp pos g : Nat) (was : Bool) (others : List Nat)
    (unread : List Nat → List Nat) (attempt : List Nat → Option (List Byte)) : Dev × PartResult :=
  let first := others.take rc.k
  if others.length < rc.k then (x.rangeLost claim key rc.id off, .fail stDataLost)
  else if (unread first).length ≠ 0 then (x, .need (unread first))
  else
    let y := x.count sp 0x04 0 0x002 1
    match attempt first with
    | some pl => (if was then y.needsRepair 0x051 rc pos g else y, .ok pl)
    | none =>
      if (unread others).length ≠ 0 then (x, .need (unread others))
      else match (choices rc.k others).findSome? attempt with
        | some pl => (if was then y.needsRepair 0x051 rc pos g else y, .ok pl)
        | none => (y.rangeLost claim key rc.id off, .fail stDataLost)

/-- One grain of a READ that comes from a stripe: judged, reconstructed, or what is still to be read (R192, R214). -/
def Dev.resolvePart (v : Dev) (r : ReadCtx) (p : ReadPart) : Dev × PartResult :=
  match p.plain, p.place with
  | some x, _ => (v, .ok x)
  | none, none => (v, .fail stDataLost)
  | none, some (t, pos, g) =>
    match r.recs.find? (fun x => x.id == t) with
    | none => (v, .fail stDataLost)
    | some rc =>
      let sp := v.homeOf r.qp
      let key := v.coreKey sp r.keySlot
      let img (q : Nat) : Option (List Byte) := if rc.filler q g then some (zeros 4160) else Tab.get r.got (gotKey t q g)
      let readable (q : Nat) : Bool := rc.filler q g || (img q != some [] && !v.store.rebuilds.contains (t, q) && (match rc.placeOf q with
        | some (b, _) => (img q).isSome || v.bayReadable b
        | none => false))
      let others := (List.range rc.width).filter (fun q => q != pos && readable q)
      let have_ (qs : List Nat) : List (Nat × List Byte) := qs.filterMap (fun q => (img q).map (fun i => (q, i)))
      let unread (qs : List Nat) : List Nat := qs.filter (fun q => (img q).isNone)
      let try_ (qs : List Nat) : Option (List Byte) :=
        (rebuildGrain rc pos (have_ qs)).bind (openGrain key r.claim r.msg.cap.key p.offset)
      let reconstruct (x : Dev) (was : Bool) : Dev × PartResult :=
        x.reconstruct rc r.claim r.msg.cap.key p.offset sp pos g was others unread try_
      match img pos with
      | none => if readable pos then (v, .need [pos]) else reconstruct v false
      | some [] => reconstruct v false
      | some i =>
        let v1 := (v.count sp 0x06 0 0x002 1).count sp 0x07 0 0x001 1
        match judge key r.claim r.msg.cap.key p.offset i with
        | .sound pl => (v1, .ok pl)
        | .badCrc pl => ((v1.count sp 0x07 0 0x002 1).needsRepair 0x050 rc pos g, .ok pl)
        | .wrong => reconstruct ((v1.count sp 0x07 0 0x002 1).count sp 0x06 0 0x003 1) true
        | .keyOrMedia =>
          if (unread others).length ≠ 0 then (v, .need (unread others))
          else if indexConsistent rc ((pos, i) :: have_ others) then
            ((v1.count sp 0x06 0 0x003 1).fault 0x053 7 r.claim r.claim r.keySlot t, .fail stAuthFail)
          else reconstruct (v1.count sp 0x06 0 0x003 1) true

/-- The parts of a READ resolved in order: the parts as they stand, the first failure, and what is to be read as stripe,
position and grain. -/
def Dev.resolveParts (v : Dev) (r : ReadCtx) : List ReadPart → Dev × List ReadPart × Option Byte × List (Nat × Nat × Nat)
  | [] => (v, [], none, [])
  | p :: ps =>
    match v.resolvePart r p with
    | (v1, .fail st) => (v1, p :: ps, some st, [])
    | (v1, .ok x) =>
      match v1.resolveParts r ps with
      | (v2, qs, e, n) => (v2, { p with plain := some x } :: qs, e, n)
    | (v1, .need ws) =>
      match v1.resolveParts r ps with
      | (v2, qs, e, n) =>
        let (t, _, g) := p.place.getD (0, 0, 0)
        (v2, p :: qs, e, ws.map (fun w => (t, w, g)) ++ n)

/-- The seams to read and their grain ranges, from the grains needed: one command a seam (R186). -/
def seamReads (l : List (Nat × Nat × Nat)) : List (Nat × Nat × Nat × Nat) :=
  let seams := (l.map (fun e => (e.1, e.2.1))).eraseDups
  seams.map (fun s =>
    let gs := (l.filter (fun e => (e.1, e.2.1) == s)).map (fun e => e.2.2)
    let lo := gs.foldl min 15
    let hi := gs.foldl max 0
    (s.1, s.2, lo, hi + 1 - lo))

/-- A READ goes on after its grains have been authenticated: it reads more, fails, or sends its data (R30, R132, R192). -/
def Dev.resolveRead (v : Dev) (id : Nat) : Dev :=
  match v.readCtx id with
  | none => v
  | some r =>
    if r.ops.length ≠ 0 then v
    else
      match v.resolveParts r r.parts with
      | (v1, _, some st, _) => v1.endRead r st
      | (v1, ps, none, need) =>
        let v2 := v1.adjRead id (fun x => { x with parts := ps })
        match need with
        | [] => v2.endRead { r with parts := ps } stOk
        | _ =>
          (seamReads need).foldl (fun x (e : Nat × Nat × Nat × Nat) =>
            match (r.recs.find? (fun y => y.id == e.1)).bind (·.placeOf e.2.1) with
            | none => x
            | some (b, row) =>
              let (o, y) := x.issueRead b (x.readPort b) (slotLba row + e.2.2.1) e.2.2.2 (.read id e.1 e.2.1 e.2.2.1 e.2.2.2)
              y.adjRead id (fun z => { z with ops := z.ops ++ [o] })) v2

/-- Grains of a READ that the cipher complex has to serve now: those of the buffer before anything is read, then those read. -/
def ReadCtx.toServe (r : ReadCtx) : Nat :=
  (r.parts.filter (fun p => if r.got.isEmpty then p.plain.isSome else p.plain.isNone)).length

/-- A READ goes on after something has been read: its grains are served at level 3 of the cipher complex of its queue pair's
spire (R30, R309). -/
def Dev.progressRead (v : Dev) (id : Nat) : Dev :=
  match v.readCtx id with
  | none => v
  | some r =>
    if r.ops.length ≠ 0 then v
    else
      let (go, v1) := v.offerCipher (v.homeOf r.qp) 3 r.toServe (.read id)
      if go then v1.resolveRead id else v1

/-- The images a bay read brought back, kept with their READ; an unreadable seam is kept as empty images. -/
def Dev.gotImages (v : Dev) (c stripe pos first count : Nat) (imgs : List (List Byte)) : Dev :=
  v.adjRead c (fun r => { r with got := (List.range count).foldl (fun t i =>
    Tab.set t (gotKey stripe pos (first + i)) (imgs.getD i [])) r.got })

/-! ### Map pages (R182) -/

/-- The map pages a READ still needs: those on the way to its grains and those of their stripe records, where the bays have them
and the context cache of the owner spire has not. The manual gives that cache 32 MiB for all it holds and no rule of
replacement: here a page leaves it with its spire only (DESIGN CHOICE, assumption log 83). -/
def Dev.pagesFor (v : Dev) (r : ReadCtx) : List Nat :=
  let key := r.msg.cap.key
  let owner := v.ownerNow r.claim key
  let root := match v.ext r.claim key with | some e => e.root | none => 0
  let placed := r.parts.filter (fun p => p.place.isSome)
  let runs := if root = 0 then [] else (placed.flatMap (fun p => pagesTo v.store.pages (p.offset / 4096) 4 root)).map runPage
  let recs := (placed.filterMap (fun p => p.place.map (fun x => pageOfStripe x.1))).filter (fun k => (Tab.get v.store.pages k).isSome)
  (runs ++ recs).eraseDups.filter (fun k => !v.store.cached.contains (owner, k))

/-- A READ ends without its data: a map page cannot be read from any bay. The manual gives no status for it (DESIGN CHOICE,
assumption log 83). -/
def Dev.pageLost (v : Dev) (r : ReadCtx) : Dev := (v.rangeLost r.claim r.msg.cap.key 0 r.extOffset).endRead r stDataLost

/-- A page is read from the first of its copies, from copy `c` on, whose bay can be read. -/
def Dev.readPage (v : Dev) (r : ReadCtx) (key c : Nat) : Dev :=
  let bays := match Tab.get v.store.pages key with | some p => p.at_ | none => []
  let copies := ((List.range bays.length).map (fun i => (i, bays.getD i 0))).filter (fun e => decide (c ≤ e.1) && v.bayReadable e.2)
  match copies with
  | [] => v.pageLost r
  | (i, b) :: _ =>
    let (o, y) := v.issueRead b (v.readPort b) (pageLba key) 1 (.page r.id key i)
    y.adjRead r.id (fun z => { z with ops := z.ops ++ [o] })

/-- A READ starts or goes on: the map pages it lacks first, one after the other, then its grains (R182, R192). -/
def Dev.startRead (v : Dev) (id : Nat) : Dev :=
  match v.readCtx id with
  | none => v
  | some r => match v.pagesFor r with
    | [] => v.progressRead id
    | k :: _ => v.readPage r k 0

/-- A page read comes back: the owner spire caches the page. Its bytes are taken as those written: the manual has the CRC-64 of a
copy checked by scrub (R213), and does not say that a READ checks it (DESIGN CHOICE, assumption log 83). -/
def Dev.pageRead (v : Dev) (id key : Nat) : Dev :=
  match v.readCtx id with
  | none => v
  | some r =>
    ({ v with store := { v.store with cached := v.store.cached ++ [(v.ownerNow r.claim r.msg.cap.key, key)] } }).startRead id

/-- A page read fails: the next copy is read. -/
def Dev.pageMissed (v : Dev) (id key c : Nat) : Dev :=
  match v.readCtx id with
  | none => v
  | some r => v.readPage r key (c + 1)

end Sys2Proof.Machine
end

