-- ==== Sys2Proof/Machine/Headframe.lean ====
section
/-! DEFINITION. The Headframe at cell and slot level (R267 to R288): ports, the cyclic pattern, injection, the matches at
the intermediates, reorder buffers, residue, lost cells. The blocks that use it are modelled by their own commands; here
a cell enters when a sender offers it and leaves when an output releases it. -/

namespace Sys2Proof.Machine

/-! ### Ports and planes (R267, R268, R271, R284) -/

/-- The spire whose slice a Headframe port lies in (R267). -/
def hfSlice (p : Nat) : Nat :=
  if p < 8 then p / 2
  else if p < 24 then (p - 8) / 4
  else if p < 48 then (p - 24) / 6
  else if p < 56 then (p - 48) / 4 + 2 * (p % 2)
  else if p < 59 then p - 56
  else if p < 63 then p - 59
  else 3

def Dev.planeUp (v : Dev) (p : Nat) : Bool := v.sliceUp (p % 4)

/-- A plane is out of service: its slice is, or all its intermediates are quarantined (R284). -/
def Dev.planeOut (v : Dev) (p : Nat) : Bool :=
  !v.planeUp p || decide ((v.hf.quarantined.filter (fun e => e.1 == p)).length = 64)

/-- The bays on bay-link group g of spire s with their port (R267). -/
def groupBays (s g : Nat) : List (Nat × BayPort) :=
  ((List.range 32).flatMap (fun b => [(b, BayPort.A), (b, BayPort.B)])).filter
    (fun e => baySpire e.1 e.2 == s && bayGroup e.1 e.2 == g)

/-- A port is in service (R267, R268, R282, R345): never a reserved one; a network port with a link, a bay-link group with
a drive port up; of a parked spire only the buffer ports. -/
def Dev.hfPortUp (v : Dev) (p : Nat) : Bool :=
  let s := hfSlice p
  v.sliceUp s && decide (p < 59)
    && (v.spireUp s || (decide (48 ≤ p) && decide (p < 56)))
    && (decide (8 ≤ p) || ((v.port p).linkUp != 0 && !(v.port p).faulted))
    && (decide (p < 8) || decide (24 ≤ p) || (groupBays s ((p - 8) % 4)).any (fun e => v.bayPortUp e.1 e.2))

/-- The port that Keep or endpoint traffic uses while a slice is missing (R268). -/
def Dev.hfPort (v : Dev) (p : Fin 64) : Fin 64 :=
  let keep (k : Fin 64) : Fin 64 := if v.hfPortUp k.val then k else if k = 56 then 57 else 56
  if p = 56 || p = 57 then keep p
  else if p = 58 && !v.hfPortUp 58 then keep (if v.ep.keepB then 57 else 56)
  else p

/-! ### The header (R269) -/

/-- HCRC: polynomial 0x1021, initial value 0xFFFF, no reflection, no final XOR. -/
def crc16 (bs : List Byte) : BitVec 16 :=
  let shift (c : BitVec 16) : BitVec 16 := if c.msb then (c <<< 1) ^^^ 0x1021 else c <<< 1
  bs.foldl (fun c b => (List.range 8).foldl (fun x _ => shift x) (c ^^^ ((b.setWidth 16 : BitVec 16) <<< 8))) 0xFFFF

/-- The 16 B of a cell's header on a plane. -/
def cellHeader (c : Cell) (plane : Nat) : List Byte :=
  let body := [BitVec.ofNat 8 (b2n c.mc * 128 + c.dest.val), BitVec.ofNat 8 c.src.val,
      BitVec.ofNat 8 (c.cls.val * 32 + b2n c.first * 16 + b2n c.last * 8 + plane % 8), BitVec.ofNat 8 (c.len - 1)]
    ++ leBytes 2 c.seq.toNat ++ leBytes 2 c.msgTag.toNat ++ leBytes 6 c.addr.toNat
  body ++ leBytes 2 (crc16 body).toNat

/-- Cells of a grain on cipher ports 0 and 1 of its arrival spire: its valid ciphertext and 64 metadata bytes, 240 B a cell, in two
halves (R269). -/
def grainCells (valid : Nat) : Nat × Nat :=
  let n := ceilDiv (valid + 64) 240
  (ceilDiv n 2, n / 2)

/-! ### Sequences and groups (R275, R279) -/

/-- The outputs of a cell: its port, or the members of its group. -/
def cellOuts (c : Cell) : List Nat :=
  if !c.mc then [c.dest.val]
  else if c.dest.val < 4 then [48 + 2 * c.dest.val, 49 + 2 * c.dest.val]
  else c.group.map (fun (o : Fin 64) => o.val)

/-- The key of a sequence. -/
def seqKeyOf (mc : Bool) (dest src cls : Nat) : Nat := ((b2n mc * 64 + dest) * 64 + src) * 8 + cls

def seqKey (c : Cell) : Nat := seqKeyOf c.mc c.dest.val c.src.val c.cls.val

def seqSrc (k : Nat) : Nat := k / 8 % 64

/-- The key of a sequence at one of its outputs. -/
def outKey (o k : Nat) : Nat := k * 64 + o

def Dev.setHf (v : Dev) (h : Headframe) : Dev := { v with hf := h }

def Headframe.next (h : Headframe) (o k : Nat) : BitVec 16 := Tab.getD h.nextOut (outKey o k) 0

/-- The cell at a place of a sequence in an output's reorder buffer. -/
def Headframe.cellAt (h : Headframe) (o k : Nat) (pos : BitVec 16) : Option OutCell :=
  h.reorder.find? (fun e => e.output == o && seqKey e.cell == k && e.pos == pos)

/-- A message no longer owed to an output; gone when owed to none. -/
def Headframe.settleMsg (h : Headframe) (o k : Nat) (seq : BitVec 16) : Headframe :=
  let hit (m : SentMsg) : Bool := m.key == k && m.cells.any (fun c => c.seq == seq)
  let sent := updAll hit (fun (m : SentMsg) => { m with owed := m.owed.filter (fun x => x != o) }) h.sent
  { h with sent := sent.filter (fun m => !m.owed.isEmpty) }

/-- What a slice holds is lost with it: the cells of its inputs, outputs and planes. Every sequence from or to its ports
goes on with the next cell to be offered. -/
def Headframe.dropSlice (h : Headframe) (s : Nat) : Headframe :=
  let mine (p : Nat) : Bool := hfSlice p == s
  let key (e : Nat) : Bool := mine (e % 64) || mine (seqSrc (e / 64))
  let sent := (h.sent.filter (fun m => !mine m.src)).map (fun (m : SentMsg) => { m with owed := m.owed.filter (fun o => !mine o) })
  { h with
    inputs := h.inputs.filter (fun c => !mine c.src.val)
    inter := h.inter.filter (fun e => e.plane % 4 != s && !mine e.cell.src.val)
    reorder := h.reorder.filter (fun e => !mine e.output && !mine e.cell.src.val)
    nextOut := h.nextOut.map (fun e => if key e.1 then (e.1, Tab.getD h.nextIn (e.1 / 64) 0) else e)
    mid := h.mid.filter (fun e => !mine e.1 && !mine (seqSrc e.2))
    skip := h.skip.filter (fun e => !key e.1)
    notices := h.notices.filter (fun e => !mine e.1)
    sent := sent.filter (fun m => !m.owed.isEmpty) }

/-- A slice goes out of service. -/
def Dev.sliceGoes (v : Dev) (s : Nat) : Dev :=
  v.setHf { v.hf.dropSlice s with sliceDown := v.hf.sliceDown ||| BitVec.ofNat 4 (2 ^ s) }

/-- A slice is back, its quarantined intermediates good again. -/
def Dev.sliceBack (v : Dev) (s : Nat) : Dev :=
  v.setHf { v.hf with sliceDown := v.hf.sliceDown &&& ~~~(BitVec.ofNat 4 (2 ^ s))
                      quarantined := v.hf.quarantined.filter (fun e => e.1 % 4 != s) }

/-! ### Classes (R274, R285, R288) -/

/-- The weight of class n, 3 to 7. -/
def Dev.hfWeight (v : Dev) (n : Nat) : Nat := v.cfgBits 0x400004 (6 * (n - 3) + 5) (6 * (n - 3))

/-- Deficit round robin over classes 3 to 7: the state is the place in the round times 64 plus the cells the class may
still send. A class of weight 0 is taken only when no other has a cell. -/
def drrPick (weight : Nat → Nat) (has : Nat → Bool) (st : Nat) : Option (Nat × Nat) :=
  let i := st / 64 % 5
  let left := st % 64
  let spend (j q : Nat) : Nat × Nat := (j + 3, if q ≤ 1 then (j + 1) % 5 * 64 else j * 64 + (q - 1))
  if 0 < left && has (i + 3) then some (spend i left)
  else
    let start := if left = 0 then i else i + 1
    match ((List.range 5).map (fun n => (start + n) % 5)).find? (fun j => has (j + 3) && decide (0 < weight (j + 3))) with
    | some j => some (spend j (weight (j + 3)))
    | none => ((List.range 5).find? (fun j => has (j + 3))).map (fun j => (j + 3, st))

/-- The class served: 0, 1 and 2 in strict priority, then the round robin; with the round's new state. -/
def pickClass (weight : Nat → Nat) (has : Nat → Bool) (st : Nat) : Option (Nat × Nat) :=
  if has 0 then some (0, st) else if has 1 then some (1, st) else if has 2 then some (2, st)
  else drrPick weight has st

/-! ### Residue (R281) -/

def Headframe.residue (h : Headframe) (n : Nat) : Nat :=
  sumMap (fun (e : HeldCell) => if e.cell.mc && e.cell.cls.val == n then e.missed.length else 0) h.inter

def Headframe.residueAll (h : Headframe) : Nat := sumMap h.residue (List.range 8)

/-- RESIDUE_CAP of a class (R285). -/
def Dev.residueCap (v : Dev) (n : Nat) : Nat := v.cfgBits (0x400008 + n / 4 * 4) (8 * (n % 4) + 7) (8 * (n % 4))

def Dev.atCap (v : Dev) (n : Nat) : Bool :=
  if v.residueCap n = 0 then decide (0 < v.hf.residue n) else decide (v.residueCap n * 16 ≤ v.hf.residue n)

/-! ### Offering a cell (R268, R269, R275) -/

/-- A cell joins its input's queue with the next number of its sequence, and its sender holds its message. -/
def Dev.offerCell (v : Dev) (c0 : Cell) : Dev :=
  let src := v.hfPort c0.src
  let c1 := { c0 with src := src, dest := if c0.mc then c0.dest else v.hfPort c0.dest }
  let k := seqKey c1
  let c := { c1 with seq := Tab.getD v.hf.nextIn k 0 }
  if !v.hfPortUp src.val then v
  else
    let h := v.hf
    let outs := cellOuts c
    let open_ (m : SentMsg) : Bool := m.key == k && !m.cells.any (·.last)
    let sent := if c.first then h.sent ++ [⟨k, src.val, c.msgTag, [c], outs, false⟩]
      else updFirst open_ (fun (m : SentMsg) => { m with cells := m.cells ++ [c] }) h.sent
    v.setHf { h with
      inputs := h.inputs ++ [c]
      nextIn := Tab.set h.nextIn k (c.seq + 1)
      nextOut := outs.foldl (fun t o => Tab.set t (outKey o k) (Tab.getD t (outKey o k) 0)) h.nextOut
      sent := sent }

/-- The group a cell names is an entry of the sender's table: other members than before are an update of it (R79, R279). -/
def Dev.noteGroup (v : Dev) (c : Cell) : Dev :=
  if c.mc && decide (4 ≤ c.dest.val) && Tab.getD v.hf.groups c.dest.val [] != c.group then
    (v.setHf { v.hf with groups := Tab.set v.hf.groups c.dest.val c.group }).bumpVer (groupVerKey c.dest.val)
  else v

/-! ### Stage one: injection (R271, R272) -/

/-- Slots from the one after injection to the match with output o: w of R272. -/
def waitOf (i o t p : Nat) : Nat := (o + 1024 - i - 2 * t - 8 * p - 1) % 64

/-- The wait of a cell on a plane; for a multicast cell the largest over its outputs. -/
def cellWait (c : Cell) (t p : Nat) : Nat := (cellOuts c).foldl (fun m o => max m (waitOf c.src.val o t p)) 0

/-- The intermediate that stage one of plane p connects input i to in slot t. -/
def interOf (i t p : Nat) : Nat := (i + t + 8 * p) % 64

/-- A plane may take the cell in slot t. -/
def Dev.candidate (v : Dev) (c : Cell) (t p : Nat) : Bool :=
  let j := interOf c.src.val t p
  let here := v.hf.inter.filter (fun e => e.plane == p && e.inter == j)
  v.planeUp p && !v.hf.quarantined.contains (p, j)
    && !here.any (fun e => e.cell.cls == c.cls && e.outs.any (fun o => (cellOuts c).contains o))
    && decide (here.length < Config.interCells)

/-- The candidate plane with the least wait, ties to the lower plane. -/
def Dev.bestPlane (v : Dev) (c : Cell) (t : Nat) : Option Nat :=
  ((List.range 8).filter (fun p => v.candidate c t p)).foldl (fun best p =>
    match best with
    | none => some p
    | some q => if cellWait c t p < cellWait c t q then some p else some q) none

/-- A cell that can be injected in slot t. -/
def Dev.canInject (v : Dev) (c : Cell) (t : Nat) : Bool :=
  (v.bestPlane c t).isSome && !(c.mc && v.atCap c.cls.val)

/-- Input i injects at most one cell. A header that fails at the intermediate is discarded there (R283). -/
def Dev.injectFrom (v : Dev) (t a i : Nat) : Dev :=
  let mine := v.hf.inputs.filter (fun c => c.src.val == i && v.canInject c t)
  match pickClass v.hfWeight (fun n => mine.any (fun c => c.cls.val == n)) (Tab.getD v.hf.drrIn i 0) with
  | none => v
  | some (n, st) =>
    match mine.find? (fun c => c.cls.val == n) with
    | none => v
    | some c =>
      match v.bestPlane c t with
      | none => v
      | some p =>
        let h := v.hf
        let j := interOf i t p
        let h1 := { h with inputs := dropFirst (fun x => x == c) h.inputs, drrIn := Tab.set h.drrIn i st }
        if c.midBad then (v.setHf h1).fault 0x060 (p % 4) (p * 64 + j) (p * 64 + j) p (a % 2 ^ 32)
        else v.setHf { h1 with inter := h1.inter ++ [⟨p, j, c, cellOuts c, []⟩] }

/-! ### Stage two: the matches (R271, R274, R280, R282) -/

/-- Cells in an output's reorder buffer. -/
def Headframe.waitingAt (h : Headframe) (o : Nat) : Nat := (h.reorder.filter (fun e => e.output == o)).length

/-- A copy is gone from its intermediate, and the cell with its last copy. -/
def Headframe.dropCopy (h : Headframe) (e : HeldCell) (o : Nat) : Headframe :=
  let cut (x : HeldCell) : HeldCell :=
    { x with outs := x.outs.filter (fun y => y != o), missed := x.missed.filter (fun y => y != o) }
  let upd := updFirst (fun x => x == e) cut h.inter
  { h with inter := upd.filter (fun x => !x.outs.isEmpty) }

/-- A cell reaches an output: a failed header is discarded there, and so is a cell whose place has been given up. -/
def Dev.arriveAt (v : Dev) (a o p : Nat) (c : Cell) : Dev :=
  let k := seqKey c
  if c.outBad.any (fun (x : Fin 64) => x.val == o) then v.fault 0x060 (hfSlice o) o o p (a % 2 ^ 32)
  else if serialBefore 65536 c.seq.toNat (v.hf.next o k).toNat then v
  else v.setHf { v.hf with reorder := v.hf.reorder ++ [⟨o, p, c, c.seq, a, v.cutThrough o c.cls.val⟩] }

/-- The copies at intermediate j of plane p bound for an output miss their match. -/
def Headframe.missAll (h : Headframe) (p j o : Nat) : Headframe :=
  let hit (e : HeldCell) : Bool := e.plane == p && e.inter == j && e.outs.contains o
  let miss (e : HeldCell) : HeldCell := { e with missed := if e.missed.contains o then e.missed else e.missed ++ [o] }
  { h with inter := updAll hit miss h.inter }

/-- The match of intermediate j of plane p in slot t. -/
def Dev.matchAt (v : Dev) (t a p j : Nat) : Dev :=
  let o := (j + t) % 64
  let cs := v.hf.inter.filter (fun e => e.plane == p && e.inter == j && e.outs.contains o)
  if cs.isEmpty || !v.planeUp p then v
  else if !v.hfPortUp o then
    let h := cs.foldl (fun (x : Headframe) e => (x.dropCopy e o).settleMsg o (seqKey e.cell) e.cell.seq) v.hf
    let past := cs.foldl (fun t (e : HeldCell) => Tab.set t (outKey o (seqKey e.cell)) (e.cell.seq + 1)) h.nextOut
    (v.setHf { h with nextOut := past }).count (hfSlice o) 0x09 0 0x002 cs.length
  else if 512 ≤ v.hf.waitingAt o then v.setHf (v.hf.missAll p j o)
  else
    let pair := (p * 64 + j) * 64 + o
    match pickClass v.hfWeight (fun n => cs.any (fun e => e.cell.cls.val == n)) (Tab.getD v.hf.drrInter pair 0) with
    | none => v
    | some (n, st) =>
      match cs.find? (fun e => e.cell.cls.val == n) with
      | none => v
      | some e =>
        let h := (v.hf.dropCopy e o).missAll p j o
        (v.setHf { h with drrInter := Tab.set h.drrInter pair st }).arriveAt a o p e.cell

/-! ### Release (R271, R275, R277, R278) -/

/-- Cells after a lost message are discarded up to the next FIRST (R283). -/
def Headframe.purge (o k : Nat) : Nat → Headframe → Headframe
  | 0, h => h
  | n + 1, h =>
    match Tab.get h.skip (outKey o k), h.cellAt o k (h.next o k) with
    | some pos, some e =>
      if pos != h.next o k then h
      else if e.cell.first then { h with skip := Tab.del h.skip (outKey o k) }
      else Headframe.purge o k n { h with
        reorder := dropFirst (fun x => x == e) h.reorder
        nextOut := Tab.set h.nextOut (outKey o k) (pos + 1)
        skip := Tab.set h.skip (outKey o k) (pos + 1) }
    | _, _ => h

/-- Every cell of a message from a place on is present, FIRST to LAST. -/
def Headframe.whole (h : Headframe) (o k : Nat) : Nat → BitVec 16 → Bool
  | 0, _ => false
  | n + 1, pos =>
    match h.cellAt o k pos with
    | none => false
    | some e => e.cell.last || h.whole o k n (pos + 1)

/-- A cell that its output may release now: the next of its sequence, its message begun in cut-through mode or whole. -/
def Headframe.releasable (h : Headframe) (e : OutCell) : Bool :=
  let k := seqKey e.cell
  e.pos == h.next e.output k && (Tab.get h.skip (outKey e.output k)) != some e.pos
    && (!e.cell.first || e.cut || h.whole e.output k 64 e.pos)

/-- A cell leaves an output. -/
def Dev.releaseCell (v : Dev) (e : OutCell) : Dev :=
  let k := seqKey e.cell
  let o := e.output
  let h := v.hf
  let h1 := { h with
    reorder := dropFirst (fun x => x == e) h.reorder
    nextOut := Tab.set h.nextOut (outKey o k) (e.pos + 1)
    mid := if e.cell.last then Tab.del h.mid o else Tab.set h.mid o k }
  let h2 := if e.cell.last then h1.settleMsg o k e.cell.seq else h1
  let src := e.cell.src.val
  let v1 := ((v.setHf h2).emit (.cellOut o (cellHeader e.cell e.plane) e.cell)).count (hfSlice o) 0x09 0 0x001 1
  if h.sent.any (fun m => m.again && m.src == src) && !h2.sent.any (fun m => m.again && m.src == src) then
    v1.dropRecov (.cell (Fin.ofNat 4 (hfSlice src)) 0x90 src)
  else v1

/-- Output o releases at most one cell. In the middle of a message it is the next of that message; a network output that
lacks it ends the frame, and the rest of the frame is not sent (R278). -/
def Dev.releaseFrom (v : Dev) (o : Nat) : Dev :=
  let keys := ((v.hf.skip.filter (fun e => e.1 % 64 == o)).map (·.1 / 64))
  let h := keys.foldl (fun (x : Headframe) k => Headframe.purge o k 512 x) v.hf
  let v1 := v.setHf h
  if !v1.hfPortUp o then
    let gone := h.reorder.filter (fun e => e.output == o)
    let h1 := gone.foldl (fun (x : Headframe) e => x.settleMsg o (seqKey e.cell) e.cell.seq) h
    let past := gone.foldl (fun t (e : OutCell) => Tab.set t (outKey o (seqKey e.cell)) (e.cell.seq + 1)) h1.nextOut
    (v1.setHf { h1 with reorder := h1.reorder.filter (fun e => e.output != o), nextOut := past, mid := Tab.del h1.mid o }).count
      (hfSlice o) 0x09 0 0x002 gone.length
  else
    match Tab.get h.mid o with
    | some k =>
      (match h.cellAt o k (h.next o k) with
       | some e => v1.releaseCell e
       | none =>
         if o < 8 then
           let h1 := { h with mid := Tab.del h.mid o, skip := Tab.set h.skip (outKey o k) (h.next o k) }
           ((v1.setHf h1).emit (.fcsInverted o)).fault 0x063 (hfSlice o) o o (k % 8) 0
         else v1)
    | none =>
      match h.reorder.find? (fun e => e.output == o && h.releasable e) with
      | some e => v1.releaseCell e
      | none => v1

/-! ### The commands -/

/-- The elements of a list once each, in the order of their first appearance. -/
def distinct : List Nat → List Nat
  | [] => []
  | x :: xs => x :: (distinct xs).filter (fun y => y != x)

/-- HEADFRAME_SLOT (R270, R271): slot `slot` of the bell in progress, each slot once and in order. The matches run before
the injections, since a cell leaves its intermediate at the earliest in the slot after its injection (R272). -/
def execHeadframeSlot (slot : Fin 128) (offered : List Cell) (s : State) : Host.Outcome State Fault Refusal :=
  s.on fun v =>
    let a := v.now * 128 + slot.val
    let t := slot.val % 64
    if v.mode == .held || a < v.hf.slotNo then v
    else
      let v1 := offered.foldl (fun x c => (x.noteGroup c).offerCell c) (v.reachNs (4 * slot.val))
      let places := distinct (v1.hf.inter.map (fun e => e.plane * 64 + e.inter))
      let v2 := places.foldl (fun x e => x.matchAt t a (e / 64) (e % 64)) v1
      let ins := distinct (v2.hf.inputs.map (fun (c : Cell) => c.src.val))
      let v3 := ins.foldl (fun x i => if x.hfPortUp i then x.injectFrom t a i else x) v2
      let outs := distinct (v3.hf.reorder.map (·.output) ++ v3.hf.mid.map (·.1))
      let v4 := outs.foldl (fun x o => x.releaseFrom o) v3
      v4.setHf { v4.hf with slotNo := a + 1 }

/-- The first place from `pos` on that is missing. -/
def Headframe.firstMissing (h : Headframe) (o k : Nat) : Nat → BitVec 16 → BitVec 16
  | 0, pos => pos
  | n + 1, pos => if (h.cellAt o k pos).isSome then h.firstMissing o k n (pos + 1) else pos

/-- The place after the last LAST of the cells from `pos` to `stop`. -/
def Headframe.afterLast (h : Headframe) (o k : Nat) (stop : BitVec 16) : Nat → BitVec 16 → BitVec 16 → BitVec 16
  | 0, _, acc => acc
  | n + 1, pos, acc =>
    if pos == stop then acc
    else
      let acc1 := match h.cellAt o k pos with
        | some e => if e.cell.last then pos + 1 else acc
        | none => acc
      h.afterLast o k stop n (pos + 1) acc1

/-- How far a place lies after another. -/
def distanceFrom (a b : BitVec 16) : Nat := (b - a).toNat

/-- RESEQ_TIMEOUT (R283): a gap whose first later cell arrived RESEQ_WAIT_SLOTS ago. The incomplete message and the cells
after it up to the next FIRST are discarded; whole messages before the gap stay, at places moved up to the cells that
follow. A lost notice goes to the input for each message lost, and HF_CELL_LOST is raised. -/
def execReseqTimeout (output : Fin 64) (mc : Bool) (dest from_ : Fin 64) (cls : Fin 8) (s : State) :
    Host.Outcome State Fault Refusal :=
  s.on fun v =>
    let h := v.hf
    let o := output.val
    let k := seqKeyOf mc dest.val from_.val cls.val
    let next := h.next o k
    let gap := h.firstMissing o k 512 next
    let here (e : OutCell) : Bool := e.output == o && seqKey e.cell == k
    let later := h.reorder.filter (fun e => here e && serialBefore 65536 gap.toNat e.pos.toNat)
    let since := later.foldl (fun m (e : OutCell) => min m e.at_) h.slotNo
    if later.isEmpty || h.slotNo < since + 1 + v.cfgBits 0x400010 15 0 then v
    else
      let start := h.afterLast o k gap 512 next next
      let ordered := sortBy (fun (e : OutCell) => distanceFrom gap e.pos) later
      let first := (ordered.find? (fun e => e.cell.first)).map (·.pos)
      let stop := match first, ordered.getLast? with
        | some p, _ => p
        | none, some e => e.pos + 1
        | none, none => gap
      let lost (pos : BitVec 16) : Bool := decide (distanceFrom start pos < distanceFrom start stop)
      let msgs := h.sent.filter (fun m => m.key == k && m.owed.contains o && m.cells.any (fun c => lost c.seq))
      let up := stop - start
      let kept := (h.reorder.filter (fun e => !(here e && lost e.pos))).map (fun (e : OutCell) =>
        if here e && decide (distanceFrom next e.pos < distanceFrom next start) then { e with pos := e.pos + up } else e)
      let h1 := { h with
        reorder := kept
        nextOut := Tab.set h.nextOut (outKey o k) (next + up)
        skip := if first.isNone then Tab.set h.skip (outKey o k) stop else h.skip
        mid := if Tab.get h.mid o == some k && start == next then Tab.del h.mid o else h.mid
        notices := h.notices ++ msgs.map (fun (m : SentMsg) => (m.src, m.tag)) }
      let v1 := (v.setHf h1).emitAll (msgs.map (fun (m : SentMsg) => .lostNotice m.src m.tag))
      let tag := match msgs with
        | m :: _ => m.tag.toNat
        | [] => 0
      v1.fault 0x061 (hfSlice o) o o from_.val (cls.val * 65536 + tag)

/-- LOST_NOTICE (R283): the sender sends the message again under the recovery lease of its cell. -/
def execLostNotice (input : Fin 64) (msgTag : BitVec 16) (s : State) : Host.Outcome State Fault Refusal :=
  s.on fun v =>
    let i := input.val
    if !v.hf.notices.contains (i, msgTag) then v
    else
      let h := { v.hf with notices := dropFirst (fun e => e == (i, msgTag)) v.hf.notices }
      match h.sent.find? (fun m => m.src == i && m.tag == msgTag) with
      | none => v.setHf h
      | some m =>
        let v1 := (v.setHf { h with sent := dropFirst (fun x => x == m) h.sent }).takeRecov
          (.cell (Fin.ofNat 4 (hfSlice i)) 0x90 i) (v.now + v.cfgBits 0x40014 31 0)
        let v2 := m.cells.foldl (fun x c => x.offerCell { c with midBad := false, outBad := [] }) v1
        let mark (x : SentMsg) : Bool := x.src == i && x.tag == msgTag
        v2.setHf { v2.hf with sent := updAll mark (fun (x : SentMsg) => { x with again := true }) v2.hf.sent }

/-- HF_INTERMEDIATE_ERROR (R284): the intermediate is quarantined, its cells are lost. The failing address is a free
value. -/
def execHfIntermediateError (plane : Fin 8) (inter : Fin 64) (s : State) : Host.Outcome State Fault Refusal :=
  s.on fun v =>
    let p := plane.val
    let j := inter.val
    if !v.planeUp p || v.hf.quarantined.contains (p, j) then v
    else
      let h := v.hf
      let h1 := { h with quarantined := h.quarantined ++ [(p, j)]
                         inter := h.inter.filter (fun e => !(e.plane == p && e.inter == j)) }
      let (addr, v1) := (v.setHf h1).free64
      v1.faultAt 0x062 (p % 4) (p * 64 + j) 0 addr.toNat p j 0

/-! ### The bell (R287, R435) -/

/-- What the status registers show from stroke 0 of a bell, and the bells at a residue cap that are counted. -/
def Dev.hfBell (v : Dev) : Dev :=
  let h := v.hf
  let sum (f : Nat → Bool) (n : Nat) : Nat := sumMap (fun k => if f k then 2 ^ k else 0) (List.range n)
  let planes := sum v.atCap 8 * 2 ^ 24 + sum v.planeOut 8 * 2 ^ 8
    + sum (fun p => h.quarantined.any (fun e => e.1 == p)) 8
  let v1 := v.setHf { h with
    upShown := BitVec.ofNat 64 (sum v.hfPortUp 64)
    planeShown := BitVec.ofNat 32 planes
    residueShown := min 0xFFFF h.residueAll }
  if (List.range 8).any v.atCap then
    [0, 1, 2, 3].foldl (fun x s => if x.sliceUp s then x.count s 0x09 0 0x003 1 else x) v1
  else v1

end Sys2Proof.Machine
end

