-- ==== Sys2Proof/Machine/Capsules.lean ====
section
/-! DEFINITION. The VXP commands: the checks of R119, the command scheduler of R133, what each opcode does, and the
events of an append's life (R27, R28, R36 to R46, R102, R115 to R136, R226 to R228, R249). -/

namespace Sys2Proof.Machine

/-! ### The checks of R119 -/

/-- Step 3 of R119. LENGTH is a field of APPEND and READ, and the rule between it and INLINE one of APPEND. -/
def capsuleOk (k : CmdKind) (c : Capsule) (msgLen : Nat) : Bool :=
  let len := c.length.toNat
  bits c.flags.toNat 7 3 == 0 && bits c.cls.toNat 7 3 == 0 && c.rsvd3 == 0 && c.rsvd56 == 0
    && decide (c.cmdClass ≤ 4)
    && (!(k == .append || k == .read) || decide (len ≤ 16777216))
    && (if k = .append then (if c.inline then decide (len ≤ 4096) else len == 0 || decide (4096 < len))
        else c.flags.toNat % 8 == 0)
    && msgLen == (if c.inline then 64 + len else 64)

inductive TallyStep where
  | fresh
  | wait
  | answered (r : Record)
  | refuse (st : Byte)
deriving DecidableEq, Repr

/-- Step 4 of R119 (R226, R227). -/
def Session.tallyStep (s : Session) (t : BitVec 32) : TallyStep :=
  match tallyClass t s.floor with
  | .below => .refuse stStaleTally
  | .ahead => .refuse stTallyAhead
  | .inWindow =>
    match Tab.get s.tallies t.toNat with
    | some .inFlight => .wait
    | some (.recorded r) => .answered r
    | some .released => .fresh
    | none => .fresh

/-- Step 5 and, but for the reservation of an append's counter values, step 6 of R119 (R109, R317, R324, R325): the claim
descriptor the command matches, or the status it is refused with. -/
def Dev.accessCheck (v : Dev) (s : Session) (k : CmdKind) (d : Delivered) : Except Byte ClaimDesc :=
  match v.claimDesc s.claim with
  | none => .error stAccessDenied
  | some c =>
    let tired := match v.qp d.qp with | some q => v.protected s && q.protLease.isNone | none => false
    if !c.enable || !bit c.classMask.toNat d.cap.cmdClass || (c.payloadProtect && s.connKey.isNone) then .error stAccessDenied
    else if v.keyRevoked c.keySlot s.claim (k == .read || k == .stat) then .error stKeyRevoked
    else if tired then .error stKeyTired
    else .ok c

/-- The grains that a command of a kind with a capsule stores. -/
def kindGrains (k : CmdKind) (c : Capsule) : Nat := if k = .append then grainsOf c.length.toNat else 0

/-- A command as it queues at its arrival spire's scheduler, with what it matched and the first nonce of its run (R74, R320). -/
def Dev.newCtx (v : Dev) (id sn : Nat) (s : Session) (k : CmdKind) (w : Waiting) (desc : ClaimDesc)
    (nonce : BitVec 32 × BitVec 64) : Ctx :=
  let d := w.msg
  { id := id, kind := k, msg := d, qp := d.qp, session := sn, claim := s.claim, claimVer := v.versionOf .claim s.claim,
    desc := desc, keySlot := desc.keySlot, keyVer := v.versionOf .keySlot desc.keySlot,
    arrival := Fin.ofNat 4 (v.homeOf d.qp), phase := .queued, cls := d.cap.cmdClass, arrived := v.now, waitFrom := v.now,
    grains := kindGrains k d.cap, credit := 0, charged := 0, grantTag := none, offset := 0, nonceFixed := nonce.1,
    nonceFirst := nonce.2, order := none, waited := false, heldAt := none, oneCopy := false, noPrimary := false,
    staged := none, stamp := w.stamp }

/-! ### What each opcode does at its admission -/

/-- CREATE: the map entry is made, and held at once (R115, R116). -/
def Dev.admitCreate (v : Dev) (c : Ctx) : Dev :=
  let key := c.msg.cap.key
  let (_, v1) := v.fresh
  let e : Extent := ⟨c.claim, key, .open_, some .open_, 0, 0, 1, none, false, 0, v.mono, 0⟩
  ((v1.setExt e).journalExt c.claim key).completeCtx c stOk false 0 0 0

/-- SEAL or DELETE takes its place in the acceptance order (R43, R116). -/
def Dev.admitChange (v : Dev) (c : Ctx) (st : ExtState) : Dev :=
  let (place, v1) := v.nextPlace
  ((v1.adjExt c.claim c.msg.cap.key (fun e => { e with st := st })).adjCtx c.id (fun y =>
    { y with order := some place, phase := .stored, waited := v1.earlierUnheld { c with order := some place } })).holdIfDue c.id

/-- APPEND: its quota is charged, and it waits for room (R113, R126, R134). -/
def Dev.admitAppend (v : Dev) (c : Ctx) : Dev :=
  let n := c.grains
  let cs := Tab.adjust v.hosts.claims c.claim (fun (e : ClaimEntry) => { e with charged := e.charged + n })
  let ctxs := v.hosts.ctxs.filter (fun (x : Ctx) => x.id != c.id) ++ [{ c with phase := .waitRoom, charged := n, waitFrom := v.now }]
  let v1 := { v with hosts := { v.hosts with claims := if n = 0 then v.hosts.claims else cs, ctxs := ctxs } }
  if n = 0 then
    (match v1.ctx c.id with
     | some y => v1.assign y
     | none => v1)
  else v1.serveRoom c.arrival.val

/-- READ (R130, R131, R136). -/
def Dev.admitRead (v : Dev) (c : Ctx) : Dev :=
  let key := c.msg.cap.key
  let off := c.msg.cap.offset.toNat
  let len := c.msg.cap.length.toNat
  match v.ext c.claim key with
  | none => v.refuseExt c stNotFound 0
  | some e =>
    if len = 0 then v.completeCtx c stOk false off e.len 0
    else if e.len < off + len then v.completeCtx c stBeyondEnd false off e.len 0
    else
      let parts := v.readParts c.claim key off len
      let v1 := v.dropCtx c
      match v1.takeBuffered c.keySlot c.arrival.val parts with
      | (v2, res) =>
        let ps := match res with | .ok l => l | .error _ => []
        let ids := (ps.filterMap (fun p => p.place.map (·.1))).eraseDups
        let recs := (v2.store.stripes.filter (fun t => ids.contains t.rec_.id)).map (·.rec_)
        let (id, v3) := v2.fresh
        let r : ReadCtx :=
          { id := id, msg := c.msg, qp := c.qp, session := c.session, claim := c.claim, claimVer := c.claimVer, keySlot := c.keySlot,
            keyVer := c.keyVer, extOffset := off, length := len, arrived := c.arrived, parts := ps, recs := recs, ops := [],
            got := [], running := 0, runFrom := some v.now }
        let v4 := { v3 with hosts := { v3.hosts with reads := v3.hosts.reads ++ [r] } }
        match res with
        | .error st => v4.finishRead r st
        | .ok l => if coversRange l off (off + len) then v4.startRead id else (v4.rangeLost c.claim key 0 off).finishRead r stDataLost

/-- FLUSH: the session's held grains that are not clean; OK at once where there is none (R102). -/
def Dev.admitFlush (v : Dev) (c : Ctx) : Dev :=
  let gs := v.dirtyGrains.filter (fun g => g.session == c.session)
  let bytes := sumMap (·.valid) gs
  if gs.isEmpty then v.completeCtx c stOk false 0 0 0
  else
    let v1 := v.dropCtx c
    let ranges := gs.map (fun (g : Grain) => (g.claim, g.key, g.offset))
    let f : FlushCtx := ⟨c.id, c.msg, c.qp, c.session, c.claim, c.claimVer, ranges, gs.map (·.id), bytes, c.arrived, false⟩
    { v1 with hosts := { v1.hosts with flushes := v1.hosts.flushes ++ [f] } }

/-- CACK (R228). -/
def Dev.admitCack (v : Dev) (c : Ctx) : Dev :=
  match v.session c.session with
  | none => v.completeCtx c stInvalidField false 0 0 0
  | some s =>
    let t := c.msg.cap.tally
    let dist (x : BitVec 32) : Nat := (x - s.floor).toNat
    let recorded := s.tallies.filterMap (fun (e : Nat × TallyState) => match e.2 with
      | .recorded _ => some (dist (BitVec.ofNat 32 e.1))
      | _ => none)
    let busy := s.tallies.any (fun e => e.2 == .inFlight && decide (dist (BitVec.ofNat 32 e.1) ≤ dist t))
    let done (x : Dev) (f : BitVec 32) : Dev := x.completeCtx c stOk false f.toNat 0 0
    if tallyClass t s.floor == .below then done v s.floor
    else if tallyClass t s.floor == .ahead || !recorded.any (fun r => decide (dist t ≤ r)) || busy then
      v.completeCtx c stInvalidField false 0 0 0
    else
      let kept := s.tallies.filter (fun (e : Nat × TallyState) => decide (dist t < dist (BitVec.ofNat 32 e.1)))
      done (v.setSession c.session { s with floor := t + 1, tallies := kept }) (t + 1)

/-- STAT reports the state and visible length, PING echoes (R46, R118, R121). -/
def Dev.admitStat (v : Dev) (c : Ctx) : Dev :=
  match v.ext c.claim c.msg.cap.key with
  | some e => v.completeCtx c stOk false 0 e.len e.grains
  | none => v.refuseExt c stNotFound 0

/-- A command is admitted: the checks about its extent are judged as it stands now (R43, R46, R115), and it does its
work. -/
def Dev.admitted (v0 : Dev) (c : Ctx) : Dev :=
  let v := v0.count c.arrival.val 0x02 0 0x001 1
  match v.extentCheck c with
  | some st => v.refuseExt c st 0
  | none =>
    match c.kind with
    | .create => v.admitCreate c
    | .append => v.admitAppend c
    | .sealOp => v.admitChange c .sealed_
    | .delete => v.admitChange c .deleted
    | .read => v.admitRead c
    | .stat => v.admitStat c
    | .flush => v.admitFlush c
    | .cack => v.admitCack c
    | .ping => v.completeCtx c stOk false c.msg.cap.offset.toNat 0 0

/-! ### The command scheduler (R133) -/

def Dev.sched (v : Dev) (s : Nat) : Sched := Tab.getD v.hosts.scheds s .reset

def Dev.setSched (v : Dev) (s : Nat) (x : Sched) : Dev :=
  { v with hosts := { v.hosts with scheds := Tab.set v.hosts.scheds s x } }

/-- Commands that wait at the scheduler of a spire, in arrival order. -/
def Dev.queued (v : Dev) (s : Nat) : List Ctx := v.hosts.ctxs.filter (fun c => c.phase == .queued && c.arrival.val == s)

/-- An append that waits in admission holds its place: later commands of its claim and class come after it (R134). -/
def Dev.behindWaiter (v : Dev) (c : Ctx) : Bool :=
  v.hosts.ctxs.any (fun w => w.phase == .waitRoom && w.arrival == c.arrival && w.claim == c.claim && w.cls == c.cls)

/-- Weight of a class, and of a claim in a class (R109, R133). -/
def Dev.classWeight (v : Dev) (s c : Nat) : Nat := v.spireCfg s 0 0x10004 (8 * c + 7) (8 * c)

def Dev.claimWeight (v : Dev) (claim c : Nat) : Nat :=
  match v.claimDesc claim with
  | none => 0
  | some d => if c = 0 then d.weight0 else if c = 1 then d.weight1 else if c = 2 then d.weight2 else d.weight3

/-- Class U commands that find no token move to the class named by U_DEMOTE (R133, R136). -/
def Dev.demote (v : Dev) (s : Nat) : Dev :=
  if 64 ≤ (v.sched s).uTokens && v.spireCfg s 0 0x10008 15 0 != 0 then v
  else
    let us := (v.queued s).filter (fun c => c.cls == 4)
    let down := v.spireCfg s 0 0x10008 31 30
    let move (c : Ctx) : Ctx := if c.phase == .queued && c.arrival.val == s && c.cls == 4 then { c with cls := down } else c
    let v1 := { v with hosts := { v.hosts with ctxs := v.hosts.ctxs.map move } }
    if us.isEmpty then v else v1.count s 0x02 0 0x008 us.length

/-- The command the scheduler admits next, and the scheduler after it (R133). -/
def Dev.pick (v : Dev) (s : Nat) : Option (Ctx × Sched) :=
  let x := v.sched s
  let q := (v.queued s).filter (fun c => !v.behindWaiter c)
  match q.find? (fun c => c.cls == 4) with
  | some c => some (c, { x with uTokens := x.uTokens - 64 })
  | none =>
    let classes := ((List.range 4).filter (fun i => q.any (fun c => c.cls == i))).map (fun i => (i, v.classWeight s i))
    match drr classes x.clsNext x.clsDef with
    | none => none
    | some (i, def_) =>
      let inClass := q.filter (fun c => c.cls == i)
      let claims := (sortBy (fun n => n) ((inClass.map (·.claim)).eraseDups)).map (fun n => (n, v.claimWeight n i))
      let mine := (x.claimDef.filter (fun e => e.1 / 4096 == i)).map (fun e => (e.1 % 4096, e.2))
      let rest := x.claimDef.filter (fun e => e.1 / 4096 != i)
      match drr claims (Tab.getD x.claimNext i 0) mine with
      | none => none
      | some (n, d) =>
        (inClass.find? (fun c => c.claim == n)).map (fun c =>
          (c, { x with clsNext := i, clsDef := def_, claimNext := Tab.set x.claimNext i n,
                       claimDef := d.foldl (fun t e => Tab.set t (i * 4096 + e.1) e.2) rest }))

/-- The scheduler spends its grants (R133). -/
def Dev.spendGrants : Nat → Dev → Nat → Dev
  | 0, v, _ => v
  | fuel + 1, v, s =>
    let v1 := v.demote s
    if (v1.sched s).grants = 0 then v1
    else match v1.pick s with
      | none => v1
      | some (c, x) => Dev.spendGrants fuel ((v1.setSched s { x with grants := x.grants - 1 }).admitted c) s

/-- The scheduler of a spire runs while the device serves and the spire is up. -/
def Dev.runSched (v : Dev) (s : Nat) : Dev :=
  if v.serving && v.spireUp s then v.spendGrants ((v.queued s).length) s else v

/-! ### A capsule is evaluated (R119) -/

/-- The anchor and owner queries of a capsule that arrives elsewhere are counted (R125). -/
def Dev.countForward (v : Dev) (s : Session) (k : CmdKind) (d : Delivered) : Dev :=
  let home := v.homeOf d.qp
  let a := b2n (k.toAnchor && home != v.anchor s)
  let o := b2n (k.toOwner && home != v.ownerNow s.claim d.cap.key)
  if a + o = 0 then v else v.count home 0x02 0 0x007 (a + o)

/-- The spires that a capsule is forwarded to can be reached over the Headframe (R25, R125). -/
def Dev.forwardable (v : Dev) (s : Session) (k : CmdKind) (d : Delivered) : Bool :=
  let home := v.homeOf d.qp
  (!k.toAnchor || v.reaches home (v.anchor s)) && (!k.toOwner || v.reaches home (v.ownerNow s.claim d.cap.key))

/-- A capsule that passed step 4: steps 5 to 9, then the scheduler. An append reserves its counter values at step 6, and they
are never used again, however it completes (R119, R320). -/
def Dev.queueCapsule (v0 : Dev) (sn : Nat) (s : Session) (k : CmdKind) (w : Waiting) : Dev :=
  let d := w.msg
  let (id, v) := v0.fresh
  let refuse (x : Dev) (st : Byte) (i : ExtInfo) : Dev :=
    if k.tallied then x.refuseTallied sn k.opcode d st i 0 else x.answer sn d st i 0 0
  match v.accessCheck s k d with
  | .error st => refuse v st noExt
  | .ok desc =>
    match v.reserveNonce (Fin.ofNat 4 (v.homeOf d.qp)) desc.keySlot (kindGrains k d.cap) with
    | (none, v1) => refuse v1 stKeyTired noExt
    | (some nonce, v1) =>
      let c := v1.newCtx id sn s k w desc nonce
      match v1.extentCheck c with
      | some st => refuse v1 st (v1.infoFor c)
      | none =>
        let v2 := if k.tallied then v1.adjSession sn (fun y => y.setTally d.cap.tally .inFlight) else v1
        let v3 := { v2 with hosts := { v2.hosts with ctxs := v2.hosts.ctxs ++ [c] } }
        (v3.countForward s k d).runSched c.arrival.val

/-- A capsule of an opcode that waits at ingress is the message now commanded. -/
def Waiting.is (w : Waiting) (op : Byte) (d : Delivered) : Bool := w.msg.opcode == op && w.msg.same d

/-- A capsule waiting at ingress is evaluated in the order of R119. A malformed tallied command keeps a record where its
tally is new in the window (R38). One that is to be forwarded waits while a Headframe slice it needs is out of service. -/
def Dev.capsule (v : Dev) (op : Byte) (k : CmdKind) (d0 : Delivered) : Dev :=
  match v.hosts.inbox.find? (fun w => w.is op d0) with
  | none => v
  | some w =>
    let d := w.msg
    let v1 := { v with hosts := { v.hosts with inbox := dropFirst (fun x => x.is op d0) v.hosts.inbox } }
    match v1.sessionOf d.qp with
    | none => v1
    | some sn =>
      match v1.session sn with
      | none => v1
      | some s =>
        let t := s.tallyStep d.cap.tally
        let v2 := match v1.qp d.qp with | some q => v1.pfcCheck q.port.val | none => v1
        if !v2.serving then v2.answer sn d stBusyMode noExt 0 0
        else if !(capsuleOk k d.cap (v2.plainLen s d)) then
          (if k.tallied && t == .fresh then v2.refuseTallied sn op d stInvalidField noExt 0
           else v2.answer sn d stInvalidField noExt 0 0)
        else if !(v.forwardable s k d) then v
        else if k.tallied then
          match t with
          | .refuse st => (if st = stStaleTally then v2.count (v2.anchor s) 0x02 0 0x006 1 else v2).answer sn d st noExt 0 0
          | .answered r => v2.answerRecord sn d r
          | .wait => { v2 with hosts := { v2.hosts with dups := v2.hosts.dups ++ [(sn, d)] } }
          | .fresh => v2.queueCapsule sn s k w
        else v2.queueCapsule sn s k w

/-- CREATE (R115): an OPEN extent of length 0 at its owner. -/
def execCreate (d : Delivered) (s : State) : Host.Outcome State Fault Refusal := s.on fun v => v.capsule 0x01 .create d

/-- APPEND (R119, R126): credit, offset and commit path, or a staging grant. -/
def execAppend (d : Delivered) (s : State) : Host.Outcome State Fault Refusal := s.on fun v => v.capsule 0x02 .append d

/-- SEAL (R115): the length is fixed in acceptance order. -/
def execSeal (d : Delivered) (s : State) : Host.Outcome State Fault Refusal := s.on fun v => v.capsule 0x03 .sealOp d

/-- DELETE (R115, R195): the extent becomes DELETED in acceptance order. -/
def execDelete (d : Delivered) (s : State) : Host.Outcome State Fault Refusal := s.on fun v => v.capsule 0x05 .delete d

/-- READ (R130): from buffer and drives to host memory. -/
def execRead (d : Delivered) (s : State) : Host.Outcome State Fault Refusal := s.on fun v => v.capsule 0x04 .read d

/-- STAT (R46). -/
def execStat (d : Delivered) (s : State) : Host.Outcome State Fault Refusal := s.on fun v => v.capsule 0x06 .stat d

/-- FLUSH (R102). -/
def execFlush (d : Delivered) (s : State) : Host.Outcome State Fault Refusal := s.on fun v => v.capsule 0x07 .flush d

/-- CACK (R228). -/
def execCack (d : Delivered) (s : State) : Host.Outcome State Fault Refusal := s.on fun v => v.capsule 0x09 .cack d

/-- PING (R118). -/
def execPing (d : Delivered) (s : State) : Host.Outcome State Fault Refusal := s.on fun v => v.capsule 0x0A .ping d

/-! ### Events in a command's life -/

/-- FLUSH_COMPLETE (R102): every covered grain is clean and journaled; DATA_LOST where one was lost. -/
def execFlushComplete (id : Nat) (s : State) : Host.Outcome State Fault Refusal :=
  s.on fun v =>
    match v.hosts.flushes.find? (fun f => f.id == id) with
    | none => v
    | some f =>
      if v.store.grains.any (fun g => f.grains.contains g.id) then v
      else
        let v1 := { v with hosts := { v.hosts with flushes := v.hosts.flushes.filter (fun x => x.id != id) } }
        if f.lost then v1.answer f.session f.msg stDataLost noExt 0 0 else v1.answer f.session f.msg stOk noExt 0 f.bytes

/-- ADMIT_BOUND_EXPIRE (R134): BUSY_CREDIT or BUSY_STAGING, by what the append lacks; credit of a partial take is
returned. -/
def execAdmitBoundExpire (id : Nat) (s : State) : Host.Outcome State Fault Refusal :=
  s.on fun v =>
    match v.ctx id with
    | none => v
    | some c => if c.phase == .waitRoom && v.atBell (c.waitFrom + c.desc.admitBound) then v.refuseWait c else v

/-- The grains of an append as the controllers accept them: images under its nonces, primary and mirror, with the profile of
the claim version it matched (R22, R111, R169, R322). -/
def Dev.makeGrains (v : Dev) (c : Ctx) (two : Bool) : List Grain :=
  let key := v.coreKey c.arrival.val c.keySlot
  (List.range c.grains).map (fun j =>
    let plain := (c.payload.drop (4096 * j)).take 4096
    let img := sealGrain key c.nonceFixed (c.nonceFirst.toNat + j) c.claim c.msg.cap.key (c.offset + 4096 * j)
      (j + 1 == c.grains) plain
    { id := v.nextId + j, ctx := c.id, session := c.session, claim := c.claim, profK := c.desc.k, profM := c.desc.m,
      profVer := c.claimVer, key := c.msg.cap.key, offset := c.offset + 4096 * j, valid := plain.length, spire := c.arrival,
      primary := if c.noPrimary then none else some img, mirror := if two || c.noPrimary then some img else none,
      held := false, dirtyAt := 0, seq := c.order.getD 0, exposed := false, stripe := none })

/-- Both copies of an append can be stored: the stacks of its mirror pair work, no bank failed under the multicast, and the
grains reach the partner's buffer ports over the Headframe (R10, R27, R139). -/
def Dev.twoCopies (v : Dev) (c : Ctx) : Bool :=
  v.stackUp (partner c.arrival.val) && !c.oneCopy && !c.noPrimary

/-- GRAINS_STORED (R28, R44, R139): the controllers of both mirror spires have accepted an append's grains, or that of the
surviving copy once DEGRADED is in effect. The commit gang has encrypted them: it serves no other work before (R308, R309), and
waits while its complex is being reset (R96). An append with no earlier one unheld is held at that moment. -/
def execGrainsStored (id : Nat) (s : State) : Host.Outcome State Fault Refusal :=
  s.on fun v =>
    match v.ctx id with
    | none => v
    | some c =>
      let two := v.twoCopies c
      let s := c.arrival.val
      let reach := v.sliceUp s && (!(two || c.noPrimary) || v.reaches s (partner s))
      if c.phase == .committing && v.spireUp s && v.cipherUp s && reach && (two || v.mode != .service) && !v.chip.frozenIn then
        let gs := v.makeGrains c two
        let v0 := v.serveCipher s 1 c.grains
        let v1 := { v0 with nextId := v0.nextId + c.grains, store := { v0.store with grains := v0.store.grains ++ gs } }
        ((v1.adjCtx id (fun y => { y with phase := .stored, waited := v.earlierUnheld c })).count
          s 0x06 0 0x001 c.grains).holdIfDue id
      else v

/-- APPEND_HELD (R28, R44, R116): a command whose grains are stored is marked held in acceptance order, one stroke after the
earlier ones where it had to wait for them; its record is written and its completion built. -/
def execAppendHeld (id : Nat) (s : State) : Host.Outcome State Fault Refusal := s.on fun v => v.holdIfDue id

/-- STAGING_SIGNAL (R126, R248): a grant's signal has matched; the append takes its bytes from the window and goes
through the commit path. A signal of a length other than 0 completes it INVALID_FIELD. What is stored of bytes that the host
changes after its signal is unpredictable (R58): here it is what the window holds when this command runs (assumption log
69). -/
def execStagingSignal (qp : Nat) (imm : BitVec 32) (msgLen : Nat) (s : State) : Host.Outcome State Fault Refusal :=
  s.on fun v =>
    match v.sessionOf qp with
    | none => v
    | some sn =>
      match v.hosts.grants.find? (fun g => g.session == sn && g.tag == imm.toNat % 65536 && g.state == .signalled) with
      | none => v
      | some g =>
        match v.ctx g.ctx with
        | none => v
        | some c =>
          if c.phase != .granted || imm.toNat / 65536 != sn || g.sigLen != msgLen then v
          else if g.sigLen ≠ 0 then v.refuseCtx c stInvalidField
          else
            let bytes := memReadBytes v.winMem (winAddr g.window g.offset) g.length
            let c1 := { c with staged := some bytes, msg := { c.msg with at_ := g.sigAt } }
            (v.adjCtx c.id (fun _ => c1)).assign c1

/-- GRANT_LIFE_EXPIRE (R249): the append completes XFER_EXPIRED. -/
def execGrantLifeExpire (session grantTag : Nat) (s : State) : Host.Outcome State Fault Refusal :=
  s.on fun v =>
    match v.hosts.grants.find? (fun g => g.session == session && g.tag == grantTag) with
    | none => v
    | some g =>
      if g.state == .granted && v.atBell (g.bell + g.life) then
        (match v.ctx g.ctx with
         | some c => v.refuseCtx c stXferExpired
         | none => v.endGrant session grantTag)
      else v

/-- RECORD_LIFE_EXPIRE (R41, R101, R227): a record is released 64 peals after its completion left the device, or after it
was written where it never left. -/
def execRecordLifeExpire (session tally : Nat) (s : State) : Host.Outcome State Fault Refusal :=
  s.on fun v =>
    match (v.session session).bind (fun x => Tab.get x.tallies tally) with
    | some (.recorded r) =>
      if r.ends ≤ v.clk.aging then
        v.adjSession session (fun x => { x with tallies := Tab.set x.tallies tally .released })
      else v
    | _ => v

end Sys2Proof.Machine
end

