-- ==== Sys2Proof/Machine/Settle.lean ====
section
/-! DEFINITION. Settling: laying out, closing and writing stripes, journal blocks, clean grains, and checkpoints (R156 to R159,
R173 to R184, R189, R192). -/

namespace Sys2Proof.Machine

/-! ### Laying out a stripe (R174, R175) -/

/-- Rows in use on a bay: of stripes whose slots are held, of stripes being written, and what rebuild and re-lay have chosen. -/
def Dev.rowsUsed (v : Dev) (b : Nat) : List Nat :=
  let of_ (r : StripeRec) : List Nat := ((List.range r.width).filterMap r.placeOf).filterMap (fun (p : Nat × Nat) =>
    if p.1 = b then some p.2 else none)
  v.store.stripes.flatMap (fun t => of_ t.rec_) ++ v.store.pend.flatMap (fun p => match p.rec_ with
    | some r => of_ r
    | none => []) ++ v.store.jobs.flatMap (fun j => (match j.target with
    | some (c, row, true) => if c = b then [row] else []
    | _ => []) ++ j.news.flatMap (fun n => of_ n.rec_))

/-- The bays with the fewest allocated rows, ties to the lower number (R174). -/
def Dev.leastUsed (v : Dev) (bays : List Nat) (n : Nat) : List Nat :=
  ((sortBy (fun (e : Nat × Nat) => e.2) (bays.map (fun b => (b, (v.rowsUsed b).length)))).take n).map (·.1)

/-- The lowest row of a set that no bay of a list uses. -/
def Dev.freeRow (v : Dev) (bays : List Nat) (lo step hi : Nat) : Option Nat :=
  let used := bays.flatMap v.rowsUsed
  ((List.range (used.length + 1)).map (fun i => lo + step * i)).find? (fun r => decide (r < hi) && !used.contains r)

/-- The record of a new stripe of a spire, or none where no layout is set or no slot is free (R173 to R178). -/
def Dev.newStripe (v : Dev) (s claim m grains : Nat) : Option (StripeRec × Dev) :=
  let k := max 1 (ceilDiv grains 16)
  let w := k + m
  let bays := v.leastUsed v.settleBays (min w v.settleBays.length)
  let seq := Tab.getD v.store.stripeSeq s 0
  let id := s * 2 ^ 46 + seq % 2 ^ 46
  if !v.store.layout.set || bays.length < k then none
  else match v.freeRow bays s 4 (v.store.layout.rows - v.store.layout.spareRows) with
    | none => none
    | some row =>
      let mask : BitVec 32 := BitVec.ofNat 32 (sumMap (fun b => 2 ^ b) bays)
      let r : StripeRec := ⟨id, k, m, grains - 16 * (k - 1) - 1, mask, row, id % bays.length, w - bays.length, claim, grains,
        [], 1⟩
      some (r, { v with store := { v.store with stripeSeq := Tab.set v.store.stripeSeq s (seq + 1) } })

/-- The grain images of a position: data in fill order with filler zeros, parity by R176. -/
def StripeRec.seam (r : StripeRec) (imgs : List (List Byte)) (p : Nat) : List (List Byte) :=
  (List.range 16).map (fun g =>
    if p < r.k then imgs.getD (16 * p + g) (zeros 4160)
    else rsParity (p - r.k) ((List.range r.k).map (fun i => imgs.getD (16 * i + g) (zeros 4160))))

/-- A seam is issued to its slot: one write, and for the filler of a partial last data seam a Write Zeroes (R177, R186). -/
def Dev.issueSeam (v : Dev) (r : StripeRec) (p bay row : Nat) (imgs : List (List Byte)) (use : OpUse) : List Nat × Dev :=
  let n := if p + 1 = r.k then min 16 (r.lastGrains + 1) else 16
  let (a, v1) := v.issueWrite bay (slotLba row) (imgs.take n) use
  if 16 ≤ n then ([a], v1)
  else
    let (z, v2) := v1.issueOp bay (v1.activePort bay) (slotLba row + n) (16 - n) .zeroes use []
    ([a, z], v2)

/-- Every placed position of a stripe is issued to its bay. -/
def Dev.issueStripe (v : Dev) (r : StripeRec) (imgs : List (List Byte)) (use : Nat → OpUse) : List Nat × Dev :=
  (List.range r.width).foldl (fun (a : List Nat × Dev) p => match r.placeOf p with
    | none => a
    | some (b, row) =>
      let (os, x) := a.2.issueSeam r p b row (r.seam imgs p) (use p)
      (a.1 ++ os, x)) ([], v)

/-- LIVE_GRAINS of runs: grains of extents not DELETED (R178). -/
def Dev.liveRuns (v : Dev) (rs : List RunGrain) : List RunGrain :=
  rs.map (fun (r : RunGrain) =>
    let dead := match v.ext r.claim r.key with | some e => e.heldSt == some .deleted | none => true
    { r with live := !dead })

/-- A stripe is published: its record and runs become visible (R189). A stripe below full redundancy is an unrepaired
part (R85). -/
def Dev.publish (v : Dev) (r : StripeRec) (rs : List RunGrain) (profK : Nat) (profVer : BitVec 8) : Dev :=
  let live := v.liveRuns rs
  let t : Stripe := ⟨{ r with live := (live.filter (·.live)).length }, live, profK, profVer, false⟩
  let v1 := { v with store := { v.store with stripes := v.store.stripes ++ [t], layout := { v.store.layout with used := true } } }
  let v2 := if r.unplaced = 0 then v1 else
    ({ v1 with chip := { v1.chip with unrepaired := v1.chip.unrepaired ++ [Part.stripe r.id] } }).modeEvent .partFault
  v2.freeEmpty

/-! ### Closing (R156, R157) -/

/-- A settle runs: in VAULT, or that of FENCED (R160, R385). -/
def Dev.settling (v : Dev) : Bool := v.mode == .vault || (v.mode == .fenced && v.chip.vault.fencedSettle)

/-- The modes in which the settle engines work: not in SURVEY (R84, R98). -/
def Dev.maySettle (v : Dev) : Bool := v.serving || v.mode == .drain || v.settling

/-- Every dirty grain is to be settled: VAULT from V2 on, the settle of FENCED, and DRAIN but for activation (R103, R160,
R341, R385). -/
def Dev.settlesAll (v : Dev) : Bool :=
  (v.mode == .vault && v.chip.vault.phase == .v2) || v.chip.vault.fencedSettle ||
    (v.mode == .drain && (v.chip.drain.purpose == .shutdown || v.chip.drain.purpose == .debug))

/-- The settle age of a spire has passed (R157, value 0: the end of the bell). -/
def Dev.aged (v : Dev) (p : Pending) : Bool :=
  v.atBell (p.oldest + max 1 (v.spireCfg p.spire.val 1 0x10004 15 0 * pealBells))

/-- Grains of stripes closed and not yet clean. -/
def Dev.closedGrains (v : Dev) : Nat := sumMap (fun (p : Pending) => if p.closed.isSome then p.grains.length else 0) v.store.pend

/-- A cause of R156 holds for an open stripe. -/
def Dev.causeHolds (v : Dev) (p : Pending) : CloseCause → Bool
  | .full => v.seamGoal p.k != 0 && decide (16 * v.seamGoal p.k ≤ p.grains.length)
  | .sealOp => v.store.grains.any (fun g => p.grains.contains g.id &&
      (match v.ext g.claim g.key with | some e => e.heldSt == some .sealed_ | none => false))
  | .flush => v.hosts.flushes.any (fun f => f.grains.any (fun g => p.grains.contains g))
  | .vault => v.settlesAll
  | .age => v.aged p
  | .exposed => v.store.grains.any (fun g => p.grains.contains g.id && v.grainExposed g)
  | .deficit => v.store.credit.deficit && decide (v.store.credit.limit + v.closedGrains < v.outGrains)
      && v.store.pend.all (fun q => q.closed.isSome || q.spire != p.spire || decide (p.oldest ≤ q.oldest))

def Dev.setPend (v : Dev) (p : Pending) : Dev :=
  { v with store := { v.store with pend := updFirst (fun x => x.id == p.id) (fun _ => p) v.store.pend } }

/-- An open stripe is closed: its layout is fixed, its parity computed, and its seams are issued to the bays, whose queues take
them in the order of R159 (R156, R175 to R177). Grains beyond what the bays now allow go to another stripe. -/
def Dev.closeStripe (v : Dev) (p : Pending) (cause : CloseCause) : Dev :=
  let room := 16 * v.seamGoal p.k
  let mine := p.grains.filterMap (fun id => v.store.grains.find? (fun g => g.id == id))
  let gs := mine.take room
  let rest := mine.drop room
  if gs.isEmpty then v
  else match v.newStripe p.spire.val p.claim p.m gs.length with
    | none => v
    | some (r, v1) =>
      let imgs := gs.map (fun (g : Grain) => (g.primary.orElse (fun _ => g.mirror)).getD (zeros 4160))
      let runs := gs.map (fun (g : Grain) => (⟨g.claim, g.key, g.offset, g.valid, true⟩ : RunGrain))
      let q : Pending := { p with grains := gs.map (·.id), closed := some cause, rec_ := some r, runs := runs }
      let (ops, v2) := (v1.setPend q).issueStripe r imgs (fun pos => .settle p.id pos)
      ((v2.setPend { q with writes := ops }).count p.spire.val 0x04 0 0x001 1).gatherAll rest

/-- STRIPE_CLOSE (R156). -/
def execStripeClose (id : Nat) (cause : CloseCause) (s : State) : Host.Outcome State Fault Refusal :=
  s.on fun v =>
    match v.store.pend.find? (fun p => p.id == id) with
    | none => v
    | some p => if v.maySettle && p.closed.isNone && v.causeHolds p cause then v.closeStripe p cause else v

/-- SETTLE_AGE_EXPIRE (R157). -/
def execSettleAgeExpire (id : Nat) (s : State) : Host.Outcome State Fault Refusal :=
  s.on fun v =>
    match v.store.pend.find? (fun p => p.id == id) with
    | none => v
    | some p => if v.maySettle && p.closed.isNone && v.aged p then v.closeStripe p .age else v

/-! ### Writes and journal (R158, R183, R186) -/

/-- A stripe whose write failed is given up, and its grains, still dirty, are placed in another (R158). -/
def Dev.failStripe (v : Dev) (pid : Nat) : Dev :=
  let gs := v.store.grains.filter (fun g => g.stripe == some pid)
  let v1 := { v with store := { v.store with
    pend := v.store.pend.filter (fun p => p.id != pid)
    ops := v.store.ops.filter (fun o => match o.use with | .settle q _ => q != pid | _ => true) } }
  v1.gatherAll gs

/-- The STRIPE record is written once every placed seam is (R158, R183). -/
def Dev.writesDone (v : Dev) (pid : Nat) : Dev :=
  match v.store.pend.find? (fun p => p.id == pid) with
  | none => v
  | some p =>
    match p.rec_, p.writes, p.journal with
    | some r, [], none =>
      let (seq, v1) := v.journal (.stripe r (addedRuns r.id p.runs))
      (v1.setPend { p with journal := some seq }).chainDone p.spire.val
    | _, _, _ => v

/-- A write of a settle is complete. -/
def Dev.settleWritten (v : Dev) (pid op : Nat) : Dev :=
  match v.store.pend.find? (fun p => p.id == pid) with
  | none => v
  | some p => (v.setPend { p with writes := p.writes.filter (fun x => x != op) }).writesDone pid

/-- What a completed write leaves on the drive, in a seam slot: its grains, or zeros (R172, R177). -/
def Dev.putBlocks (v : Dev) (o : BayOp) : Dev :=
  let at_ := o.lba - 4194304
  let blocks := match o.cmd with
    | .write => o.blocks
    | .zeroes => List.replicate o.count (zeros 4160)
    | _ => []
  if o.lba < 4194304 then v
  else (blocks.zip (List.range blocks.length)).foldl (fun x (e : List Byte × Nat) =>
    x.writeDrive o.bay (at_ / 16) (at_ % 16 + e.2) e.1) v

/-- A copy of a journal block is complete (R183). -/
def Dev.copyWritten (v : Dev) (seq bay : Nat) : Dev :=
  let j := v.store.journal
  { v with store := { v.store with journal := { j with
      blocks := updFirst (fun b => b.seq == seq) (fun b => { b with left := b.left.filter (fun n => n != bay) }) j.blocks } } }

/-- A copy of a journal block that could not be written is written again, while its bay serves: the block counts only with all
three (DESIGN CHOICE, assumption log 84). -/
def Dev.copyFailed (v : Dev) (seq bay : Nat) : Dev :=
  match v.store.journal.blocks.find? (fun b => b.seq == seq) with
  | some b => if b.left.contains bay then v.copyBlock b bay else v
  | none => v

/-- JOURNAL_WRITE_COMPLETE (R183, R184): all three copies are complete, and so is the block; a CHECKPOINT frees the part of the ring
before it. -/
def execJournalWriteComplete (seq : Nat) (s : State) : Host.Outcome State Fault Refusal :=
  s.on fun v =>
    let j := v.store.journal
    let bs := updFirst (fun (b : JournalBlock) => b.seq == seq) (fun b => { b with complete := true }) j.blocks
    match j.blocks.find? (fun b => b.seq == seq) with
    | none => v
    | some b =>
      if !b.left.isEmpty then v
      else match b.rec_ with
      | .checkpoint upTo =>
        let kept := bs.filter (fun x => !x.complete || decide (upTo ≤ x.seq))
        { v with store := { v.store with journal := { j with blocks := kept, checkSeq := upTo, ringBlocks := kept.length } } }
      | _ => { v with store := { v.store with journal := { j with blocks := bs } } }

/-- Appends under the strict policy complete when their grains are settled and journaled (R56). -/
def Dev.settledWaiters (v : Dev) : Dev :=
  let ws := v.hosts.ctxs.filter (fun c => c.phase == .heldWaitSettle && !v.store.grains.any (fun g => g.ctx == c.id))
  ws.foldl (fun x c => x.completeCtx c stOk true c.offset c.msg.cap.length.toNat c.grains) v

/-- Seams and journal records of a stripe are complete: it is published, its grains' copies are freed together and their
credit returns (R158, R189). -/
def Dev.cleanStripe (v : Dev) (stripe : Nat) : Dev :=
  match v.store.pend.find? (fun p => match p.rec_ with | some r => r.id == stripe | none => false) with
  | none => v
  | some p =>
    match p.rec_, p.writes, p.journal with
    | some r, [], some seq =>
      if v.journaled seq then
        let n := p.grains.length
        let v1 := { v with store := { v.store with
          pend := v.store.pend.filter (fun x => x.id != p.id)
          grains := v.store.grains.filter (fun g => !p.grains.contains g.id) } }
        let v2 := (v1.countKeep 0x10 0x002 n).count p.spire.val 0x03 0 0x002 n |>.chainDone p.spire.val
        let v3 := { v2 with chip := { v2.chip with
          vault := { v2.chip.vault with settled := v2.chip.vault.settled + n }
          drain := { v2.chip.drain with settled := v2.chip.drain.settled + n } } }
        ((v3.publish r p.runs p.k p.profVer).settledWaiters).writeRemovals
      else v
    | _, _, _ => v

/-- GRAIN_CLEAN (R158, R189). -/
def execGrainClean (stripe : Nat) (s : State) : Host.Outcome State Fault Refusal := s.on fun v => v.cleanStripe stripe

/-! ### Checkpoints (R181, R182, R184) -/

/-- A copy of a map page is deallocated on its bay (R186). -/
def Dev.dropPageCopy (v : Dev) (key b : Nat) : Dev :=
  if (v.bay b).state == .serving then (v.issueOp b (v.activePort b) (pageLba key) 1 .dealloc .dealloc []).2 else v

/-- A map page is freed. -/
def Dev.freePage (v : Dev) (key : Nat) : Dev :=
  match Tab.get v.store.pages key with
  | none => v
  | some p =>
    p.at_.foldl (fun x b => x.dropPageCopy key b)
      { v with store := { v.store with pages := Tab.del v.store.pages key, cached := v.store.cached.filter (fun e => e.2 != key) } }

/-- Copies of a map page that a scrub found wrong are written again, while their bays serve (R184, R213). -/
def Dev.mendPage (v : Dev) (key : Nat) (p : MapPage) : Dev :=
  let now := p.bad.filter (fun b => (v.bay b).state == .serving)
  let v1 := if now.isEmpty then v else
    { v with store := { v.store with pages := Tab.set v.store.pages key { p with bad := p.bad.filter (fun b => !now.contains b) } } }
  now.foldl (fun x b => (x.issueWrite b (pageLba key) [p.body.bytes key] (.mapPage key)).2) v1

/-- A map page is written where it has changed: three copies, and the spire that wrote it caches it (R182). -/
def Dev.writePage (v : Dev) (spire key : Nat) (body : PageBody) : Dev :=
  match Tab.get v.store.pages key with
  | some p => if p.body = body then v.mendPage key p else go v p.at_
  | none => go v []
where
  go (v : Dev) (before : List Nat) : Dev :=
    let bays := copyBays (fun b => (v.bay b).state == .serving) (key / 2)
    let v1 := { v with store := { v.store with
      pages := Tab.set v.store.pages key ⟨body, bays, []⟩
      cached := if v.store.cached.contains (spire, key) then v.store.cached else v.store.cached ++ [(spire, key)] } }
    let v2 := (before.filter (fun b => !bays.contains b)).foldl (fun x b => x.dropPageCopy key b) v1
    bays.foldl (fun x b => (x.issueWrite b (pageLba key) [body.bytes key] (.mapPage key)).2) v2

/-- The leaf runs of an extent in ascending order (R181). -/
def Dev.extentRuns (v : Dev) (claim : Nat) (key : BitVec 128) : List LeafRun :=
  sortBy (·.first) (v.store.stripes.flatMap (fun t => if t.dead then [] else leafRuns t.rec_.id t.runs claim key))

/-- The run pages of an extent as they should be, written where they differ; its RUN_ROOT with them (R180, R181). Page numbers are
used again, and new ones are counted (DESIGN CHOICE, assumption log 83). -/
def Dev.writeRuns (v : Dev) (e : Extent) : Dev :=
  let old := if e.root = 0 then [] else pagesUnder v.store.pages 4 e.root
  let runs := v.extentRuns e.claim e.key
  let n := v.store.pageSeq
  let tree := if runs.isEmpty then [] else runTree (fun i => old.getD i (n + 1 + (i - old.length))) 4 0 (runs.map RunDesc.leaf)
  let v1 := { v with store := { v.store with pageSeq := n + (tree.length - old.length) } }
  let v2 := tree.foldl (fun x (p : Nat × List RunDesc) => x.writePage (x.ownerNow e.claim e.key) (runPage p.1) (.run p.2)) v1
  let v3 := (old.drop tree.length).foldl (fun x p => x.freePage (runPage p)) v2
  v3.adjExt e.claim e.key (fun y => { y with root := (tree.getLast?.map (·.1)).getD 0 })

/-- The 64 stripe records of a stripe page (R181). -/
def Dev.stripeRecs (v : Dev) (page : Nat) : List (Option StripeRec) :=
  (List.range 64).map (fun i => (v.store.stripes.find? (fun t => !t.dead && t.rec_.id == page * 64 + i)).map (·.rec_))

/-- A stripe page, written where it differs, or freed where it holds no record. -/
def Dev.writeRecs (v : Dev) (page : Nat) : Dev :=
  let rs := v.stripeRecs page
  if rs.all Option.isNone then v.freePage (stripePage page)
  else v.writePage (v.roleOf (page * 64 / 2 ^ 46)) (stripePage page) (.stripes rs)

/-- Every changed map page is written (R184). -/
def Dev.writePages (v : Dev) : Dev :=
  let held := v.store.pages.filterMap (fun e => if e.1 % 2 = 0 then some (e.1 / 2) else none)
  let now := v.store.stripes.filterMap (fun t => if t.dead then none else some (t.rec_.id / 64))
  (held ++ now).eraseDups.foldl (fun x p => x.writeRecs p) (v.hosts.extents.foldl (fun x e => x.writeRuns e) v)

/-- Bay labels record the set of journal bays, where they do not (R184). -/
def Dev.relabel (v : Dev) : Dev :=
  let js := v.store.journal.bays
  (List.range 32).foldl (fun x b => match (x.bay b).state, (x.bay b).label with
    | .serving, some l => if l.journal = js then x else (x.issueWrite b 0 [[]] (.label { l with journal := js })).2
    | _, _ => x) v

/-- The CHECKPOINT record follows once every page is written (R184). -/
def Dev.checkpointStep (v : Dev) : Dev :=
  match v.store.journal.checking with
  | none => v
  | some n =>
    if v.store.ops.any (fun o => match o.use with | .mapPage _ => true | _ => false) then v
    else (({ v with store := { v.store with journal := { v.store.journal with checking := none } } }).journal (.checkpoint n)).2

/-- CHECKPOINT_START (R184): with the ring half full, every changed map page is written, then a CHECKPOINT record. -/
def execCheckpointStart (s : State) : Host.Outcome State Fault Refusal :=
  s.on fun v =>
    let j := v.store.journal
    let busy := j.checking.isSome || j.blocks.any (fun b => !b.complete && (match b.rec_ with | .checkpoint _ => true | _ => false))
    if journalRing ≤ 2 * j.ringBlocks && !busy then
      ({ v with store := { v.store with journal := { j with checking := some j.nextSeq } } }).writePages.relabel.checkpointStep
    else v

/-! ### What the drives hold of a stripe -/

/-- A position of a published stripe can be read now (R192). -/
def Dev.posReadable (v : Dev) (r : StripeRec) (p : Nat) : Bool :=
  !v.store.rebuilds.contains (r.id, p) && (match r.placeOf p with
    | some (b, _) => v.bayReadable b
    | none => false)

end Sys2Proof.Machine
end

