-- ==== Sys2Proof/Machine/Rebuild.lean ====
section
/-! DEFINITION. Rebuild, compaction, the re-lay of repaired stripes, and reclaim (R179, R191 to R196, R215). -/

namespace Sys2Proof.Machine

/-! ### What is to be rebuilt (R179, R191, R193) -/

/-- A bay's positions are rebuilt: it is FAILED, or its drive was removed (R47, R190, R193). -/
def Dev.bayGone (v : Dev) (b : Nat) : Bool :=
  (v.bay b).state == .failed || ((v.bay b).state == .absent && v.chip.unrepaired.contains (Part.bay (Fin.ofNat 32 b)))

/-- A position needs rebuilding: unplaced, on a bay that is gone, or not yet written to a replacement drive. -/
def Dev.needsRebuild (v : Dev) (r : StripeRec) (p : Nat) : Bool :=
  v.store.rebuilds.contains (r.id, p) || (match r.placeOf p with
    | none => decide (p < r.width)
    | some (b, _) => v.bayGone b)

/-- Where a rebuilt position goes: the replacement's own slot, a spare row, or for an unplaced position a free slot;
none while the stripe waits for a replacement (R193). The flag says that a relocation entry records it. -/
def Dev.rebuildTarget (v : Dev) (r : StripeRec) (p : Nat) : Option (Nat × Nat × Bool) :=
  let l := v.store.layout
  let others := ((List.range r.width).filter (fun q => q != p)).filterMap (fun q => (r.placeOf q).map (·.1))
  let bays := (List.range 32).filter (fun b => (v.bay b).state == .serving && !others.contains b)
  let lowest (b : Nat) (lo hi : Nat) : Option Nat := v.freeRow [b] lo 1 hi
  let best (lo hi : Nat) : Option (Nat × Nat × Bool) :=
    (v.leastUsed (bays.filter (fun b => (lowest b lo hi).isSome)) 1).head?.bind (fun b =>
      (lowest b lo hi).map (fun row => (b, row, true)))
  let same : Option (Nat × Nat × Bool) := match r.placeOf p with
    | some (b, row) => if v.store.rebuilds.contains (r.id, p) && (v.bay b).state == .serving then some (b, row, false) else none
    | none => none
  match same with
  | some x => some x
  | none =>
    match best (l.rows - l.spareRows) l.rows with
    | some x => some x
    | none => if (r.placeOf p).isNone then best 0 (l.rows - l.spareRows) else none

/-- Moving a position to its target needs a ninth relocation entry: eight are in use and none of them is its own (R179). -/
def StripeRec.needsNinth (r : StripeRec) (p : Nat) (moves : Bool) : Bool :=
  moves && decide (8 ≤ r.relocs.length) && !r.relocs.any (fun x => x.position == p)

/-- A bay whose every seam has been relocated has no current generation any more (R191). -/
def Dev.checkStale (v : Dev) (b : Option Nat) : Dev :=
  match b with
  | none => v
  | some n => if v.bayGone n && (v.rowsUsed n).isEmpty then v.setBay n { v.bay n with stale := true } else v

/-- Positions of a stripe that cannot be read (R193). -/
def Dev.unavailable (v : Dev) (r : StripeRec) : Nat := ((List.range r.width).filter (fun p => !v.posReadable r p)).length

/-- The stripe of a number, while it is published. -/
def Dev.stripe (v : Dev) (id : Nat) : Option Stripe := v.store.stripes.find? (fun t => t.rec_.id == id && !t.dead)

/-! ### The grains of a job (R192, R195) -/

def Dev.job (v : Dev) (id : Nat) : Option Job := v.store.jobs.find? (fun j => j.id == id)

def Dev.adjJob (v : Dev) (id : Nat) (f : Job → Job) : Dev :=
  { v with store := { v.store with jobs := updFirst (fun j => j.id == id) f v.store.jobs } }

/-- What a job has of a grain: filler is zeros, an empty image is one that could not be read. -/
def Job.img (j : Job) (r : StripeRec) (p g : Nat) : Option (List Byte) :=
  if r.filler p g then some (zeros 4160) else Tab.get j.got (p * 16 + g)

/-- A grain can still be read, or has been. -/
def Dev.jobUsable (v : Dev) (j : Job) (r : StripeRec) (p g : Nat) : Bool :=
  match j.img r p g with
  | some i => r.filler p g || i != []
  | none => v.posReadable r p

/-- The first k' positions but one from which a grain can be rebuilt (R192). -/
def Dev.jobOthers (v : Dev) (j : Job) (r : StripeRec) (p g : Nat) : List Nat :=
  ((List.range r.width).filter (fun q => q != p && v.jobUsable j r q g)).take r.k

/-- Grains of an index that a job lacks. -/
def Job.lacks (j : Job) (r : StripeRec) (g : Nat) (ps : List Nat) : List (Nat × Nat) :=
  (ps.filter (fun q => (j.img r q g).isNone)).map (fun q => (q, g))

/-- What a job reads for a grain: the grain itself where it is re-laid and can be read, else k' others; none where there are too
few. A grain of the repair list needs both (R195, R215). -/
def Dev.jobReads (v : Dev) (j : Job) (r : StripeRec) (p g : Nat) : Option (List (Nat × Nat)) :=
  let others := v.jobOthers j r p g
  let rest : Option (List (Nat × Nat)) := if others.length < r.k then none else some (j.lacks r g others)
  match j.kind with
  | .rebuild _ => rest
  | .compact => if v.jobUsable j r p g then some (j.lacks r g [p]) else rest
  | .repair =>
    if v.jobUsable j r p g then
      some (j.lacks r g [p] ++ (if (v.scrub (r.id / 2 ^ 46)).repair.contains (gotKey r.id p g) then rest.getD [] else []))
    else rest

/-- The grains a job is to produce: those of its position, or the live ones. -/
def Job.wants (j : Job) (t : Stripe) : List (Nat × Nat) :=
  match j.kind with
  | .rebuild p => (List.range 16).map (fun g => (p, g))
  | _ => ((t.runs.zip (List.range t.runs.length)).filter (fun (e : RunGrain × Nat) => e.1.live)).map
      (fun (e : RunGrain × Nat) => (e.2 / 16, e.2 % 16))

/-- A grain rebuilt from what a job has read. -/
def Dev.jobRebuilt (v : Dev) (j : Job) (r : StripeRec) (p g : Nat) : Option (List Byte) :=
  let have_ := (v.jobOthers j r p g).filterMap (fun q => (j.img r q g).map (fun i => (q, i)))
  if have_.length < r.k then none else rebuildGrain r p have_

/-- The image of a grain in the repair list: its CRC-64 corrected where its tag passes, otherwise rebuilt (R214, R215). -/
def Dev.repairImage (v : Dev) (j : Job) (t : Stripe) (i : Nat) (img : List Byte) : Option (List Byte) :=
  let r := t.rec_
  if (v.scrub (r.id / 2 ^ 46)).repair.contains (gotKey r.id (i / 16) (i % 16)) then
    match t.runs[i]? with
    | none => some img
    | some g =>
      let slot := match v.claimDesc g.claim with | some d => d.keySlot | none => 0
      match judge (v.coreKey (r.id / 2 ^ 46) slot) g.claim g.key g.offset img with
      | .badCrc _ => some (imgFixCrc img)
      | .sound _ => some img
      | _ => v.jobRebuilt j r (i / 16) (i % 16)
  else some img

/-- The image of a grain that a job re-lays, in fill order: as read, corrected where it is repaired, or rebuilt. -/
def Dev.jobImage (v : Dev) (j : Job) (t : Stripe) (i : Nat) : Option (List Byte) :=
  match j.img t.rec_ (i / 16) (i % 16) with
  | some (b :: bs) => if j.kind == .repair then v.repairImage j t i (b :: bs) else some (b :: bs)
  | _ => v.jobRebuilt j t.rec_ (i / 16) (i % 16)

/-! ### The course of a job -/

/-- Some operation of a job is not complete. -/
def Dev.jobBusy (v : Dev) (id : Nat) : Bool :=
  v.store.ops.any (fun o => match o.use with
    | .jobRead j _ _ => j == id
    | .jobWrite j => j == id
    | _ => false)

/-- The live grains of a re-lay go into new stripes of the same claim and profile version, unchanged; none where a slot is lacking
(R195). -/
def Dev.formStripes (v : Dev) (id : Nat) (t : Stripe) : Nat → List (RunGrain × List Byte) → Option Dev
  | 0, _ => some v
  | _ + 1, [] => some v
  | n + 1, l =>
    let size := 16 * max 1 (v.seamGoal t.profK)
    let part := l.take size
    match v.newStripe (t.rec_.id / 2 ^ 46) t.rec_.claim t.rec_.m part.length with
    | none => none
    | some (r, v1) =>
      (v1.adjJob id (fun j => { j with news := j.news ++ [⟨r, part.map (·.1), part.map (·.2)⟩] })).formStripes id t n (l.drop size)

/-- A job that has its grains writes them: a rebuilt position to its target, live grains to new stripes (R193, R195). -/
def Dev.jobWrite (v : Dev) (j : Job) (t : Stripe) : Dev :=
  let r := t.rec_
  match j.kind, j.target with
  | .rebuild p, some (b, row, _) =>
    let imgs := (List.range 16).map (fun g => v.jobRebuilt j r p g)
    if imgs.any Option.isNone then v.dropJob j.id
    else ((v.adjJob j.id (fun x => { x with writing := true })).issueSeam r p b row (imgs.map (·.getD [])) (.jobWrite j.id)).2
  | .rebuild _, none => v.dropJob j.id
  | _, _ =>
    let live := (t.runs.zip (List.range t.runs.length)).filter (fun (e : RunGrain × Nat) => e.1.live)
    let imgs := live.map (fun (e : RunGrain × Nat) => (v.jobImage j t e.2).map (fun i => (e.1, i)))
    if imgs.any Option.isNone then v.dropJob j.id
    else match v.formStripes j.id t live.length (imgs.filterMap (fun x => x)) with
      | none => v.dropJob j.id
      | some v1 =>
        let news := match v1.job j.id with | some x => x.news | none => []
        news.foldl (fun x n => (x.issueStripe n.rec_ n.images (fun _ => .jobWrite j.id)).2) (v1.adjJob j.id (fun x => { x with writing := true }))

/-- The journal records of a job whose writes are complete: RELOCATE of a position that has moved, STRIPE of each new stripe
(R183, R193, R195). -/
def Dev.jobJournal (v : Dev) (j : Job) (r : StripeRec) : Dev :=
  let write (x : Dev) (rec_ : JournalRec) : Dev :=
    let (seq, y) := x.journal rec_
    y.adjJob j.id (fun z => { z with journal := z.journal ++ [seq] })
  match j.kind, j.target with
  | .rebuild p, some (b, row, true) => write v (.relocate r.id ⟨b, p, row⟩)
  | _, _ => j.news.foldl (fun x n => write x (.stripe n.rec_ (addedRuns n.rec_.id n.runs))) v

/-- A job goes on when its operations are complete: it reads more, writes, or has its journal records written; it is given up where
its stripe is gone or grains cannot be produced. -/
def Dev.jobStep (v : Dev) (id : Nat) : Dev :=
  match v.job id with
  | none => v
  | some j =>
    if v.jobBusy id then v
    else match v.stripe j.stripe with
      | none => v.dropJob id
      | some t =>
        let r := t.rec_
        if j.writing then (if j.journal.isEmpty then v.jobJournal j r else v)
        else
          let needs := (j.wants t).map (fun e => v.jobReads j r e.1 e.2)
          if needs.any Option.isNone then v.dropJob id
          else
            let l := (needs.flatMap (·.getD [])).eraseDups
            if l.isEmpty then
              let (go, v1) := v.offerCipher (r.id / 2 ^ 46) 4 (j.wants t).length (.job id)
              if go then v1.jobWrite j t else v1
            else (seamReads (l.map (fun e => (r.id, e.1, e.2)))).foldl (fun x (e : Nat × Nat × Nat × Nat) =>
              match r.placeOf e.2.1 with
              | some (b, row) => (x.issueRead b (x.readPort b) (slotLba row + e.2.2.1) e.2.2.2 (.jobRead id e.2.1 e.2.2.1)).2
              | none => x) v

/-- A job whose grains the cipher complex has served writes them (R309). -/
def Dev.jobServed (v : Dev) (id : Nat) : Dev :=
  match v.job id with
  | none => v
  | some j => match v.stripe j.stripe with
    | none => v.dropJob id
    | some t => if j.writing || v.jobBusy id then v else v.jobWrite j t

/-- What a read of a job brought, or empty images where it failed. -/
def Dev.jobGot (v : Dev) (id pos first count : Nat) (imgs : List (List Byte)) : Dev :=
  (v.adjJob id (fun j => { j with got := (List.range count).foldl (fun t i =>
    Tab.set t (pos * 16 + first + i) (imgs.getD i [])) j.got })).jobStep id

/-- The writes of a job are complete, and so are its journal records (R193, R194, R195). -/
def Dev.jobDone (v : Dev) (j : Job) : Bool :=
  j.writing && !v.jobBusy j.id && j.journal.all v.journaled && (match j.kind, j.target with
    | .rebuild _, some (_, _, moves) => !moves || !j.journal.isEmpty
    | _, _ => !j.journal.isEmpty || j.news.isEmpty)

/-- A rebuilt position becomes visible at its target (R193, R194). -/
def Dev.showRebuilt (v : Dev) (j : Job) (r : StripeRec) (position : Nat) : Dev :=
  match j.target with
  | none => v
  | some (b, row, moves) =>
    let unplaced := (r.placeOf position).isNone
    let r1 : StripeRec := if moves then
        { r with relocs := r.relocs.filter (fun x => x.position != position) ++ [⟨b, position, row⟩], version := r.version + 1,
                 unplaced := r.unplaced - b2n unplaced }
      else r
    let v1 := (v.dropJob j.id).count (r.id / 2 ^ 46) 0x04 0 0x003 1
    let v2 := { v1 with store := { v1.store with
      stripes := updFirst (fun x => x.rec_.id == r.id) (fun x => { x with rec_ := r1 }) v1.store.stripes
      rebuilds := v1.store.rebuilds.filter (fun e => e != (r.id, position)) } }
    if moves then v2.checkStale ((r.placeOf position).map (·.1)) else v2

/-- The effect of a job that is done: its position visible, or its new stripes published, their runs repointed, and the old stripe
freed, with its repairs (R189, R193, R195, R215). -/
def Dev.jobPublish (v : Dev) (j : Job) (t : Stripe) : Dev :=
  match j.kind with
  | .rebuild p => v.showRebuilt j t.rec_ p
  | kind =>
    let v1 := (j.news.foldl (fun x n => x.publish n.rec_ n.runs t.profK t.profVer) (v.dropJob j.id)).freeStripe t.rec_.id
    let s := t.rec_.id / 2 ^ 46
    if kind == .repair then v1.setScrub s { v1.scrub s with repair := (v1.scrub s).repair.filter (fun k => k / 1024 != t.rec_.id) }
    else v1

/-- A job of a stripe takes effect once it is done. -/
def Dev.finishJob (v : Dev) (stripe : Nat) (kind : JobKind) : Dev :=
  match v.store.jobs.find? (fun j => j.stripe == stripe && j.kind == kind && v.jobDone j), v.stripe stripe with
  | some j, some t => v.jobPublish j t
  | _, _ => v

/-- Scrub stops: the stripe it was reading stays an item, its quota with it (R212). -/
def Dev.stopScrub (v : Dev) : Dev :=
  let stop (x : Scrub) : Scrub := if x.reading.isSome then { x with reading := none, got := [], quota := x.quota + 1 } else x
  { v with store := { v.store with
    scrubs := v.store.scrubs.map (fun (e : Nat × Scrub) => (e.1, stop e.2))
    ops := v.store.ops.filter (fun o => o.share != 2) } }

/-- Scrub stops, and rebuild and re-lay: what is done takes effect, the rest is given up, the old stripes staying published (R195,
R212). -/
def Dev.stopJobs (v : Dev) : Dev :=
  v.store.jobs.foldl (fun x j => (x.finishJob j.stripe j.kind).dropJob j.id) v.stopScrub

/-- REBUILD_POSITION_COMPLETE (R193, R194): the RELOCATE record of a rebuilt position, or its rewrite to the replacement, is
complete: the position becomes visible at its target. -/
def execRebuildPositionComplete (stripe position : Nat) (s : State) : Host.Outcome State Fault Refusal :=
  s.on fun v => v.finishJob stripe (.rebuild position)

/-- COMPACTION_COMPLETE (R195): the live grains are in new stripes, and the old one is freed. -/
def execCompactionComplete (stripe : Nat) (s : State) : Host.Outcome State Fault Refusal := s.on fun v => v.finishJob stripe .compact

/-- RELAY_PUBLISH (R215): a stripe of the repair list has been laid anew with its corrected grains and recomputed parity. -/
def execRelayPublish (_sp : Spire) (stripe : Nat) (s : State) : Host.Outcome State Fault Refusal :=
  s.on fun v => v.finishJob stripe .repair

/-- COMPACT_LIVE_PCT of a spire (R201). -/
def Dev.compactPct (v : Dev) (s : Nat) : Nat := min (v.spireCfg s 2 0x10004 23 16) 100

/-- A stripe is to be compacted: too few live grains, or a ninth relocation is needed (R179, R195). -/
def Dev.wantsCompaction (v : Dev) (t : Stripe) : Bool :=
  decide (t.rec_.live * 100 < v.compactPct (t.rec_.id / 2 ^ 46) * t.runs.length)
    || (List.range t.rec_.width).any (fun p => v.needsRebuild t.rec_ p && (match v.rebuildTarget t.rec_ p with
      | some (_, _, moves) => t.rec_.needsNinth p moves
      | none => false))

/-! ### Starting jobs (R193, R194, R195, R215) -/

/-- The job that would rebuild a position. -/
def rebuildJob (id : Nat) (s : Spire) (stripe p : Nat) (target : Nat × Nat × Bool) : Job :=
  ⟨id, s, stripe, .rebuild p, [], some target, [], false, []⟩

/-- The first position of a stripe that can be rebuilt now, with its target: no ninth relocation, and k' positions readable. -/
def Dev.rebuildable (v : Dev) (t : Stripe) : Option (Nat × Nat × Nat × Bool) :=
  let r := t.rec_
  (List.range r.width).findSome? (fun p =>
    if v.needsRebuild r p then
      match v.rebuildTarget r p with
      | some x => if !r.needsNinth p x.2.2 && (List.range 16).all (fun g => (v.jobReads (rebuildJob 0 0 r.id p x) r p g).isSome)
                  then some (p, x) else none
      | none => none
    else none)

/-- The stripes of a spire, or of its partner while it acts for it. -/
def Dev.stripesOf (v : Dev) (s : Nat) : List Stripe := v.store.stripes.filter (fun t => !t.dead && v.roleOf (t.rec_.id / 2 ^ 46) == s)

/-- The next stripe and position to rebuild: the stripe with the most unavailable positions, among equals the oldest
(R193). -/
def Dev.nextRebuild (v : Dev) (s : Nat) : Option (Stripe × Nat × Nat × Nat × Bool) :=
  (sortBy (fun (t : Stripe) => (64 - v.unavailable t.rec_) * 2 ^ 48 + t.rec_.id) (v.stripesOf s)).findSome? (fun t =>
    (v.rebuildable t).map (fun x => (t, x)))

/-- Every live grain of a stripe can be produced. -/
def Dev.relayable (v : Dev) (t : Stripe) (kind : JobKind) : Bool :=
  let j : Job := ⟨0, 0, t.rec_.id, kind, [], none, [], false, []⟩
  (j.wants t).all (fun e => (v.jobReads j t.rec_ e.1 e.2).isSome)

/-- The key slot of a claim is loaded. -/
def Dev.claimKeyLoaded (v : Dev) (claim : Nat) : Bool :=
  match v.claimDesc claim with
  | some d => (v.keySlot d.keySlot).state == .loaded && (v.keySlot d.keySlot).usable
  | none => false

/-- The next job of a spire: a rebuild, else a stripe to repair, else one to compact. The order of the three is the model's, and
that a spire runs one job at a time (DESIGN CHOICE, assumption log 85). -/
def Dev.nextJob (v : Dev) (s : Nat) (id : Nat) : Option Job :=
  let sp : Spire := Fin.ofNat 4 s
  let relay (kind : JobKind) (p : Stripe → Bool) : Option Job :=
    ((v.stripesOf s).find? (fun t => p t && v.relayable t kind)).map (fun t => ⟨id, sp, t.rec_.id, kind, [], none, [], false, []⟩)
  match v.nextRebuild s with
  | some (t, p, x) => some (rebuildJob id sp t.rec_.id p x)
  | none =>
    match relay .repair (fun t => (v.scrub (t.rec_.id / 2 ^ 46)).repair.any (fun k => k / 1024 == t.rec_.id) && v.claimKeyLoaded t.rec_.claim) with
    | some j => some j
    | none => relay .compact v.wantsCompaction

/-- A spire without a job starts the next one, in SERVICE or DEGRADED (R84, R193). -/
def Dev.startJob (v : Dev) (s : Nat) : Dev :=
  if !v.serving || !v.spireUp s || v.store.jobs.any (fun j => j.spire.val == s) then v
  else match v.nextJob s v.nextId with
    | none => v
    | some j =>
      let (_, v1) := v.fresh
      ({ v1 with store := { v1.store with jobs := v1.store.jobs ++ [j] } }).jobStep j.id

/-! ### Scrub reads (R206, R212, R213) -/

/-- A position of a stripe stands on a bay that does not serve: scrub passes the stripe over (R213). -/
def Dev.scrubSkips (v : Dev) (r : StripeRec) : Bool :=
  (List.range r.width).any (fun p => match r.placeOf p with
    | some (b, _) => (v.bay b).state != .serving
    | none => false)

/-- A position of a stripe is read for scrub, without its filler (R213). -/
def Dev.scrubRead (v : Dev) (s : Spire) (r : StripeRec) (p : Nat) : Dev :=
  match r.placeOf p with
  | none => v
  | some (b, row) =>
    let n := if p + 1 = r.k then min 16 (r.lastGrains + 1) else 16
    (v.issueRead b (v.readPort b) (slotLba row) n (.scrubRead s r.id p)).2

/-- The next stripe of a pass is read, as its quota allows. A spire reads one stripe at a time (DESIGN CHOICE, assumption log 53). -/
def Dev.scrubNext : Nat → Dev → Spire → Dev
  | 0, v, _ => v
  | n + 1, v, s =>
    let x := v.scrub s.val
    if !v.scrubOn s.val || x.reading.isSome || x.quota = 0 then v
    else match x.items with
      | [] => v
      | id :: rest => match v.stripe id with
        | none => Dev.scrubNext n (v.setScrub s.val { x with items := rest }) s
        | some t =>
          if v.scrubSkips t.rec_ then Dev.scrubNext n (v.setScrub s.val { x with items := rest, quota := x.quota - 1 }) s
          else (List.range t.rec_.width).foldl (fun y p => y.scrubRead s t.rec_ p)
            (v.setScrub s.val { x with reading := some id, got := [], quota := x.quota - 1 })

/-- Scrub of a spire goes on at a bell. -/
def Dev.scrubBell (v : Dev) (s : Spire) : Dev :=
  if (v.scrub s.val).running || (v.scrub s.val).items != [] then
    (Dev.scrubNext (v.scrub s.val).items.length v s).endPass s.val
  else v

/-- The bay ports at a bell: what each has moved counts anew, waiting commands are submitted, and rebuild and scrub go on (R188, R194,
R206). -/
def Dev.bayBell (v : Dev) : Dev :=
  let v1 := { v with store := { v.store with moved := [] } }
  let bays := ((v1.store.ops.filter (fun o => !o.sent)).map (·.bay)).eraseDups
  ([0, 1, 2, 3] : List Spire).foldl (fun x s => (x.startJob s.val).scrubBell s) (bays.foldl (fun x b => x.pump b) v1)

/-! ### Reclaim (R196) -/

/-- TOMBSTONE_RECLAIM (R196): the removal record is complete: the map entry is freed and the quota returned. -/
def execTombstoneReclaim (claim : Nat) (key : BitVec 128) (s : State) : Host.Outcome State Fault Refusal :=
  s.on fun v =>
    match v.ext claim key with
    | none => v
    | some e =>
      let waits := v.store.journal.blocks.any (fun b => !b.complete && (match b.rec_ with
        | .extent c k none _ => c == claim && k == key
        | _ => false))
      if e.heldSt == some .deleted && e.journaled && !waits && !v.hasGrains claim key then
        let pages := if e.root = 0 then [] else pagesUnder v.store.pages 4 e.root
        let v1 := pages.foldl (fun x p => x.freePage (runPage p)) v
        ({ v1 with hosts := { v1.hosts with extents := v1.hosts.extents.filter (fun x => !x.is claim key) } }).uncharge claim e.grains
      else v

end Sys2Proof.Machine
end

