-- ==== Sys2Proof/Machine/Leases.lean ====
section
/-! DEFINITION. The end of bay operations: completions, timeouts and recovery leases, quarantine, and the timer of a READ (R187,
R192, R197 to R199, R202, R383). -/

namespace Sys2Proof.Machine

/-! ### Reads, timeouts and leases (R192, R197 to R199, R383) -/

/-- A scan mismatch: the bit of the unit that ran the scan, one of the scan units as DATA_UNITS in force at its start left them, and the
check interrupt (R203, R206, R210). Which unit it is, is a free value. -/
def Dev.scanMismatch (v : Dev) (s : Spire) (data : Nat) : Dev :=
  let (f, v1) := v.free32
  let u := data + f.toNat % (16 - data)
  let w := Tab.getD v1.store.crcEvent s.val 0 ||| BitVec.ofNat 16 (2 ^ u)
  ({ v1 with store := { v1.store with crcEvent := Tab.set v1.store.crcEvent s.val w } }).emit (.checkInterrupt s)

/-- Records of a GRAIN scan whose CRC-64 differs, by index (R209). -/
def badRecords (rs : List (List Byte)) : List Nat := (List.range rs.length).filter (fun i => !crcMatches (rs.getD i []))

/-- What a scan cut short has done: records or bytes, mismatches, the first of them. Of a bay scan it is what its reads have brought; how
far a scan of a stack came is a free value, and so are its mismatches, because its reads have no row (R210). -/
def Dev.scanDone (v : Dev) (x : Scan) : (Nat × Nat × Nat) × Dev :=
  if x.fromBay then
    let bad := if x.grain then badRecords x.got else []
    ((if x.grain then x.got.length else x.got.length * (if x.inclMeta then 4160 else 4096), bad.length, bad.headD 0xFFFFFFFF), v)
  else
    let (f, v1) := v.free32
    let (g, v2) := v1.free32
    let (h, v3) := v2.free32
    let all := min f.toNat x.length
    let bad := if x.grain then min g.toNat all else 0
    ((all, bad, if bad = 0 then 0xFFFFFFFF else h.toNat % all), v3)

/-- The completion of a scan that is cut short (R210). -/
def Dev.cutScan (v : Dev) (s : Nat) (tag : BitVec 16) (st : Byte) : Dev :=
  match v.store.scans.find? (fun x => x.spire.val == s && x.tag == tag) with
  | none => v
  | some x =>
    let v1 := { v with store := { v.store with
      scans := v.store.scans.filter (fun y => !(y.spire.val == s && y.tag == tag))
      ops := v.store.ops.filter (fun o => o.use != OpUse.scan x.spire tag) } }
    let ((all, bad, first), v2) := v1.scanDone x
    v2.finish x.cmd st all bad first []

/-- A scan of a bay range reads its next blocks, at most 16 a command (R186, R209). -/
def Dev.scanNext (v : Dev) (s : Spire) (tag : BitVec 16) : Dev :=
  match v.store.scans.find? (fun x => x.spire == s && x.tag == tag) with
  | none => v
  | some x =>
    let n := x.got.length
    if x.fromBay && decide (n < x.length) then
      (v.issueRead x.bay (if baySpire x.bay .A = x.spire.val then .A else .B) (x.start + n) (min 16 (x.length - n)) (.scan s tag)).2
    else v

/-! ### Completions (R158, R183, R192 to R195) -/

/-- A bay operation that ended without an error. -/
def Dev.opWritten (v : Dev) (o : BayOp) : Dev :=
  let v1 := v.putBlocks o
  let v2 := if o.cmd = .write then v1.countBay o.bay o.port 0x002 (o.count * 4096) else v1
  match o.use with
  | .settle pid _ => v2.settleWritten pid o.id
  | .journal seq => v2.copyWritten seq o.bay
  | .label l => v2.setBay o.bay { v2.bay o.bay with label := some l }
  | .marker => { v2 with store := { v2.store with markers := Tab.set v2.store.markers o.bay (o.blocks.headD []) } }
  | .mapPage _ => v2.checkpointStep
  | .jobWrite j => v2.jobStep j
  | _ => v2

/-- A bay operation ends without its effect: its READ reads on without those grains, its stripe is placed anew, its scan ends
TIMEOUT, its rebuild reads others or is given up, its scrub passes the stripe over (R192, R197 items 5 and 6, R210). The manual says nothing of the writes of
journal, pages, labels, markers and record image, nor of Deallocate: a journal copy is written again, the others stay undone
(DESIGN CHOICE, assumption log 84). -/
def Dev.opEnds (v : Dev) (o : BayOp) : Dev :=
  match o.use with
  | .read c t p first n => (v.gotImages c t p first n []).progressRead c
  | .page c key i => v.pageMissed c key i
  | .settle pid _ => v.failStripe pid
  | .scan s tag => v.cutScan s.val tag stTimeout
  | .journal seq => v.copyFailed seq o.bay
  | .mapPage _ => v.checkpointStep
  | .jobRead j p first => v.jobGot j p first o.count []
  | .scrubRead s t p => v.scrubGot s.val t p o.count []
  | .jobWrite j => v.dropJob j
  | _ => v

/-- A bay operation is released unresolved (R197, R383). -/
def Dev.opUnresolved (v : Dev) (o : BayOp) : Dev := (v.dropOp o.id).opEnds o

/-- BAY_WRITE_COMPLETE (R158, R183, R186): what was written is on the drive, or the operation has failed; a place in the queues is
free. -/
def execBayWriteComplete (op : Nat) (status : BitVec 32) (s : State) : Host.Outcome State Fault Refusal :=
  s.on fun v =>
    match v.op op with
    | none => v
    | some o =>
      if !o.isWrite || !o.sent then v
      else
        let v1 := v.dropOp op
        let v2 := if status = 0 then v1.opWritten o
          else (v1.faultAt 0x041 7 o.bay 5 o.lba status.toNat o.lba 0).opEnds o
        v2.pump o.bay

/-- Blocks of a scan have been read: those of a GRAIN scan are checked as they come, and its first mismatch is told at once (R210,
R211). -/
def Dev.scanGot (v : Dev) (s : Spire) (tag : BitVec 16) (got : List (List Byte)) : Dev :=
  match v.store.scans.find? (fun x => x.spire == s && x.tag == tag) with
  | none => v
  | some x =>
    let v1 := { v with store := { v.store with
      scans := updFirst (fun (y : Scan) => y.spire == s && y.tag == tag) (fun y => { y with got := y.got ++ got }) v.store.scans } }
    if !x.grain then v1
    else
      let bad := (badRecords got).length
      let v2 := (v1.count s.val 0x07 0 0x001 got.length).count s.val 0x07 0 0x002 bad
      if bad ≠ 0 && (badRecords x.got).isEmpty then v2.scanMismatch s x.dataUnits else v2

/-- What a read brings goes to what it is for. -/
def Dev.opRead (v : Dev) (o : BayOp) (imgs : List (List Byte)) : Dev :=
  let v1 := v.countBay o.bay o.port 0x001 (o.count * 4096)
  match o.use with
  | .read c t p first n => (v1.gotImages c t p first n imgs).progressRead c
  | .page c key _ => v1.pageRead c key
  | .scan s tag => (v1.scanGot s tag ((List.range o.count).map (fun i => imgs.getD i []))).scanNext s tag
  | .jobRead j p first => v1.jobGot j p first o.count imgs
  | .scrubRead s t p => v1.scrubGot s.val t p o.count imgs
  | _ => v1

/-- The data of a read goes from the spire of its port to the one that asked over the Headframe (R32). -/
def Dev.dataReaches (v : Dev) (o : BayOp) : Bool :=
  let s := baySpire o.bay o.port
  match o.use with
  | .read c _ _ _ _ => (match v.readCtx c with | some r => v.reaches s (v.homeOf r.qp) | none => true)
  | .page c _ _ => (match v.readCtx c with | some r => v.reaches s (v.ownerNow r.claim r.msg.cap.key) | none => true)
  | .scan x _ => v.reaches s x.val
  | .scrubRead x _ _ => v.reaches s x.val
  | .jobRead j _ _ => (match v.job j with | some x => v.reaches s x.spire.val | none => true)
  | _ => true

/-- BAY_READ_COMPLETE (R192, R214): the grains are kept and judged; an error makes them unavailable. Data that no slice carries does not
arrive: the command's timer runs on (R32, R197). -/
def execBayReadComplete (op : Nat) (r : BayRead) (s : State) : Host.Outcome State Fault Refusal :=
  s.on fun v =>
    match v.op op with
    | none => v
    | some o =>
      if o.isWrite || !o.sent || !v.dataReaches o then v
      else
        let v1 := v.dropOp op
        let v2 := match r with
          | .data imgs => v1.opRead o imgs
          | .error st => (v1.faultAt 0x041 7 o.bay 5 o.lba st.toNat o.lba 0).opEnds o
        v2.pump o.bay

/-! ### Timeouts and leases (R197 to R199, R383) -/

/-- Timeout of a bay command and cap of its lease, in the settings of the spire that carries the port (R200). -/
def Dev.ioTimeout (v : Dev) (o : BayOp) : Nat := v.spireCfg (baySpire o.bay o.port) 3 0x10008 31 0
def Dev.leaseCap (v : Dev) (o : BayOp) : Nat := v.spireCfg (baySpire o.bay o.port) 3 0x1000C 15 0
def Dev.sameRetries (v : Dev) (o : BayOp) : Nat := v.spireCfg (baySpire o.bay o.port) 3 0x1000C 18 16

/-- A bay command is sent again on a port, under a new identifier. -/
def Dev.resendOp (v : Dev) (o : BayOp) (p : BayPort) (switched : Bool) : Dev :=
  let o1 := { o with port := p, cid := v.freeCid o.bay, sent := true, issued := v.now, switched := switched,
                     lease := o.lease.map (fun l => (p, l.2)) }
  (v.adjOp o.id (fun _ => o1)).emit o1.toOut

def otherPort : BayPort → BayPort
  | .A => .B
  | .B => .A

/-- A bay operation whose port is gone moves to the other port; a write with no port left waits; a read ends unresolved (R26, R187,
R190). -/
def Dev.moveOp (v : Dev) (o : BayOp) : Dev :=
  let q := otherPort o.port
  if !o.sent then v
  else if v.mayPort o && v.bayPortUp o.bay q then v.resendOp o q o.switched
  else if !o.isWrite || (v.bay o.bay).state != .serving then v.opUnresolved o
  else v.adjOp o.id (fun x => { x with sent := false, issued := v.now })

/-- A command that waits although nothing will submit it: its bay does not serve, or neither of its ports is up (R187). -/
def Dev.stalled (v : Dev) (o : BayOp) : Bool :=
  !o.sent && ((v.bay o.bay).state != .serving || !(v.bayPortUp o.bay .A || v.bayPortUp o.bay .B))

/-- A timeout is taken: the cell holds the lease, aborts a submitted command, quarantines its identifier and counts the timeout on the
port's source (R197 item 1). -/
def Dev.takeTimeout (v : Dev) (o : BayOp) (lease : BayPort × Nat) : Dev :=
  let v1 := v.adjOp o.id (fun x => { x with lease := some lease })
  let v2 := if o.sent then
      ({ v1 with store := { v1.store with quar := v1.store.quar ++ [(⟨o.bay, o.port, o.cid, v.now⟩ : Quarantine)] } }).emit
        (.bayAbort o.bay o.port o.cid)
    else v1
  let inst := o.bay * 2 + (match o.port with | .A => 0 | .B => 1)
  let v3 := (v2.countBay o.bay o.port 0x004 1).faultAt 0x040 (baySpire o.bay o.port) inst 5 o.lba o.cid o.lba 0
  (match o.use with
   | .read c _ _ _ _ => v3.fixTimer c
   | .page c _ _ => v3.fixTimer c
   | _ => v3).fixActive o.bay

/-- IO_TIMEOUT (R197): the cell takes the recovery lease, and retries on the same port, then once on the other; after the last
retry the lease is released unresolved. The timer of a command runs from its submission, and while it stalls from then on. -/
def execIoTimeout (op : Nat) (s : State) : Host.Outcome State Fault Refusal :=
  s.on fun v =>
    match v.op op with
    | none => v
    | some o =>
      if !(o.sent || v.stalled o) || !(v.atBell (o.issued + max 1 (v.ioTimeout o))) then v
      else
        let lease := match o.lease with | some (_, c) => (o.port, c) | none => (o.port, v.now + v.leaseCap o)
        let v4 := v.takeTimeout o lease
        let live := decide (v.now < lease.2)
        let v5 := if live && !o.switched && decide (o.retries < v.sameRetries o) then
            v4.resendOp { o with lease := some lease, retries := o.retries + 1 } o.port false
          else if live && !o.switched && v.mayPort o && v4.bayPortUp o.bay (otherPort o.port) then
            (v4.resendOp { o with lease := some lease } (otherPort o.port) true).fixActive o.bay
          else v4.opUnresolved { o with lease := some lease }
        v5.pump o.bay

/-- Caps of the block and region leases in bells (R383, R390). -/
def Dev.blockCap (v : Dev) : Nat := v.cfgBits 0x40018 31 0
def Dev.regionCap (v : Dev) : Nat := v.cfgBits 0x4001C 31 16 * pealBells

/-- A lease passes to the next level up with that level's cap; a region lease raises REGION_HANDOVER_FAIL (R383). -/
def Dev.passLease (v : Dev) (l : LeaseRef) : Dev :=
  match l with
  | .bayOp op => (match v.op op with | some o => v.opUnresolved o | none => v)
  | .cell s b _ => (v.dropRecov l).takeRecov (.block s b) (v.now + v.blockCap)
  | .block s _ => (v.dropRecov l).takeRecov (.region s) (v.now + v.regionCap)
  | .region s =>
    let (tag, v1) := (v.dropRecov l).free32
    v1.fault 0x023 7 s.val tag.toNat (b2n (v.spireUp (partner s.val))) 0

/-- LEASE_CAP_EXPIRE (R383): a live lease whose cap has come passes up. -/
def execLeaseCapExpire (l : LeaseRef) (s : State) : Host.Outcome State Fault Refusal :=
  s.on fun v =>
    match l with
    | .bayOp op =>
      (match (v.op op).bind (·.lease) with
       | some (_, due) => if v.atBell due then v.passLease l else v
       | none => v)
    | _ =>
      match v.recov.find? (fun e => e.1 == l) with
      | some (_, due) => if v.atBell due then v.passLease l else v
      | none => v

/-- READ_TIMEOUT (R198): the running time of a READ has reached READ_TIMEOUT_PEALS; it completes TIMEOUT with no data. -/
def execReadTimeout (id : Nat) (s : State) : Host.Outcome State Fault Refusal :=
  s.on fun v =>
    match v.readCtx id with
    | none => v
    | some r =>
      let t := max 1 (v.spireCfg (v.homeOf r.qp % 4) 3 0x1000C 31 24 * pealBells)
      let near := b2n (decide (448 ≤ v.clk.ns))
      if r.runFrom.isSome && decide (t ≤ v.readRan r + near) then v.endRead r stTimeout else v

/-- LATE_COMPLETION (R199): discarded and counted; the identifier leaves quarantine. -/
def execLateCompletion (b : Bay) (cid : Nat) (s : State) : Host.Outcome State Fault Refusal :=
  s.on fun v =>
    match v.store.quar.find? (fun q => q.bay == b.val && q.cid == cid) with
    | none => v
    | some q =>
      let v1 := { v with store := { v.store with quar := dropFirst (fun x => x == q) v.store.quar } }
      v1.fault 0x042 (baySpire b.val q.port) ((0x50 + bayGroup b.val q.port) * 64 + b.val / 4 % 4) cid (v.now - q.since) 0

/-- QUARANTINE_RELEASE (R199): after four IO_TIMEOUT_BELLS periods. -/
def execQuarantineRelease (b : Bay) (cid : Nat) (s : State) : Host.Outcome State Fault Refusal :=
  s.on fun v =>
    let due (q : Quarantine) : Bool := q.bay == b.val && q.cid == cid &&
      v.atBell (q.since + 4 * v.spireCfg (baySpire b.val q.port) 3 0x10008 31 0)
    { v with store := { v.store with quar := v.store.quar.filter (fun q => !due q) } }

end Sys2Proof.Machine
end

