-- ==== Sys2Proof/Machine/Parts.lean ====
section
/-! DEFINITION. Parts that fail and are repaired: exposure, lost buffer copies, the loss of a spire and the hand-over to
its partner, and the isolation of a Keep (R17 to R26, R47, R55 to R57, R97, R139, R237, R252). -/

namespace Sys2Proof.Machine

/-! ### Resets that SEVERE calls for (R379) -/

/-- The reset of a unit has completed: the SEVERE records it covers leave their class (R379). -/
def Dev.resetsDone (v : Dev) (covers : BitVec 32 → Bool) : Dev :=
  v.faults.foldl (fun x e =>
    if e.2.cls == 3 && covers e.2.source then
      let n := e.2.resetDone
      ({ x with faults := Tab.set x.faults e.1 n }).noteFault e.2 n
    else x) v

/-! ### Exposure (R55 to R57) -/

/-- Every grain takes a mark, those already so marked unchanged. -/
def Dev.markExposed (v : Dev) (p : Grain → Bool) (b : Bool) : Dev :=
  { v with store := { v.store with grains := updAll p (fun (g : Grain) => { g with exposed := b }) v.store.grains } }

/-- Exposure begins or ends as the unrepaired parts change: a NOTICE to every session (R56, R124). With a module or a Keep newly
gone, all data dirty now is exposed (R55). A further exposing fault leaves the strict policy in force (R57). Appends that
waited for their settle complete when exposure ends. -/
def Dev.fixExposure (v0 : Dev) : Dev :=
  let m := v0.exposureMask
  let x := v0.chip.exposure
  let v := if (m / 16) &&& (x.cause / 16) != m / 16 then v0.markExposed (fun g => g.held) true else v0
  if m != 0 && !x.active then
    ({ v with chip := { v.chip with exposure := ⟨true, m, false⟩ } }).noticeAll 0x01 m
  else if m != 0 && m != x.cause then
    { v with chip := { v.chip with exposure := ⟨true, m, x.settledOnce⟩ } }
  else if m == 0 && x.active then
    let v1 := (({ v with chip := { v.chip with exposure := ⟨false, 0, false⟩ } }).markExposed (fun _ => true) false).noticeAll 0x02 0
    (v1.hosts.ctxs.filter (fun c => c.phase == .heldWaitSettle)).foldl (fun y c =>
      y.completeCtx c stOk false c.offset c.msg.cap.length.toNat c.grains) v1
  else v

/-- A single part is faulty (R47): the device leaves SERVICE for DEGRADED (R85). -/
def Dev.partFails (v : Dev) (p : Part) : Dev :=
  let us := if v.chip.unrepaired.contains p then v.chip.unrepaired else v.chip.unrepaired ++ [p]
  (({ v with chip := { v.chip with unrepaired := us } }).modeEvent .partFault).fixExposure

/-- A part is repaired (R47). -/
def Dev.partRepaired (v : Dev) (p : Part) : Dev :=
  if v.chip.unrepaired.contains p then
    let us := v.chip.unrepaired.filter (fun x => x != p)
    (({ v with chip := { v.chip with unrepaired := us } }).modeEvent .repaired).fixExposure
  else v

/-! ### Buffer copies that are lost (R26, R45, R52, R55) -/

/-- An append that was held and waits for its settle has lost grains. Where nothing of its extent that came after it has
completed, its effect and its record are dropped together, with those of the later ones that wait, and the length returns to
its offset; else both stay and it completes OK, its lost ranges reading DATA_LOST (R36, R38, R39; assumption log 77). -/
def Dev.loseHeld (v : Dev) (c : Ctx) : Dev :=
  let key := c.msg.cap.key
  let later := v.hosts.ctxs.filter (fun x => x.phase == .heldWaitSettle && x.kind == .append && x.claim == c.claim
    && x.msg.cap.key == key && decide (c.place ≤ x.place))
  let n := sumMap (fun (x : Ctx) => x.msg.cap.length.toNat) later
  match v.ext c.claim key with
  | none => v.discardCtx c
  | some e =>
    if e.heldSt == some .open_ && e.len == c.offset + n then
      let v1 := v.abandonFrom c.claim key c.place
      let v2 := later.foldl (fun x y => (x.discardCtx y).dropGrainsOf y.id) v1
      let cut (p : Pending) : Pending :=
        if p.closed.isSome then p else { p with grains := p.grains.filter (fun i => v2.store.grains.any (fun g => g.id == i)) }
      let v3 := { v2 with store := { v2.store with pend := (v2.store.pend.map cut).filter (fun p => !p.grains.isEmpty) } }
      v3.adjExt c.claim key (fun y => { y with len := c.offset, assigned := c.offset,
                                               grains := y.grains - sumMap (fun (x : Ctx) => x.grains) later })
    else v.completeCtx c stOk false c.offset c.msg.cap.length.toNat c.grains

/-- Grains without any copy left are gone. An append not yet held whose grains they were is abandoned (R45); a FLUSH that
covers one ends DATA_LOST (R52, R102). -/
def Dev.sweepGrains (v : Dev) : Dev :=
  let gone := v.store.grains.filter (fun g => g.primary.isNone && g.mirror.isNone)
  if gone.isEmpty then v
  else
    let ids := gone.map (·.id)
    let pend := v.store.pend.map (fun (p : Pending) => if p.closed.isSome then p else
      { p with grains := p.grains.filter (fun i => !ids.contains i) })
    let v1 := { v with
      store := { v.store with grains := v.store.grains.filter (fun g => !(g.primary.isNone && g.mirror.isNone))
                              pend := pend.filter (fun p => !p.grains.isEmpty) } }
    let v2 := gone.foldl (fun x (g : Grain) => if g.held then x.rangeLost g.claim g.key 0 g.offset else x) v1
    let hit (c : Ctx) : Bool := gone.any (fun g => g.ctx == c.id)
    let v3 := (v2.hosts.ctxs.filter (fun c => c.phase == .stored && hit c)).foldl (fun x c =>
      if (x.ctx c.id).isSome then x.abandon c else x) v2
    (v3.hosts.ctxs.filter (fun c => c.phase == .heldWaitSettle && hit c)).foldl (fun x c =>
      if (x.ctx c.id).isSome then x.loseHeld c else x) v3

/-- A grain without the copies it had in stack s; with the other one left it is exposed (R55). -/
def Grain.loseIn (g : Grain) (s : Nat) : Grain :=
  if (g.spire.val = s && g.primary.isSome) || (partner g.spire.val = s && g.mirror.isSome) then
    { g with primary := if g.spire.val = s then none else g.primary
             mirror := if partner g.spire.val = s then none else g.mirror
             exposed := true }
  else g

/-- Copies in a stack are lost. -/
def Dev.loseStack (v : Dev) (s : Nat) : Dev :=
  ({ v with store := { v.store with grains := v.store.grains.map (fun (g : Grain) => g.loseIn s) } }).sweepGrains

/-- A bank fails beyond ECC: whether it held the copy of a grain, or was to take that of an append now in the multicast, is a
free value for each (R47, R55, R139). -/
def Dev.loseBank (v : Dev) (s : Nat) : Dev :=
  let hit (g : Grain) (x : Dev) : Grain × Dev :=
    let (b, y) := x.freeBool
    (if b then g.loseIn s else g, y)
  let (gs, v1) := v.store.grains.foldl (fun (a : List Grain × Dev) g =>
    let (h, y) := hit g a.2
    (a.1 ++ [h], y)) ([], v)
  let cut (c : Ctx) (x : Dev) : Ctx × Dev :=
    if c.phase != .committing || (c.arrival.val ≠ s && partner c.arrival.val ≠ s) then (c, x)
    else
      let (b, y) := x.freeBool
      (if b then (if c.arrival.val = s then { c with noPrimary := true } else { c with oneCopy := true }) else c, y)
  let (cs, v2) := v1.hosts.ctxs.foldl (fun (a : List Ctx × Dev) c =>
    let (d, y) := cut c a.2
    (a.1 ++ [d], y)) ([], v1)
  let both := cs.filter (fun c => c.noPrimary && (c.oneCopy || !v2.stackUp (partner c.arrival.val)))
  let v3 := ({ v2 with store := { v2.store with grains := gs }, hosts := { v2.hosts with ctxs := cs } }).sweepGrains
  both.foldl (fun x c => if (x.ctx c.id).isSome then x.abandon c else x) v3

/-- Every grain of a mirror pair that is up has two copies again, and is exposed no more unless a module is gone (R55, R97
step 5, R139). -/
def Dev.remirror (v : Dev) (s : Nat) : Dev :=
  let hum := decide (v.chip.exposure.cause / 16 ≠ 0)
  let f (g : Grain) : Grain :=
    if (g.spire.val = s || partner g.spire.val = s) && v.stackUp s && v.stackUp (partner s) then
      match g.primary, g.mirror with
      | some i, none => { g with mirror := some i, exposed := g.exposed && hum }
      | none, some i => { g with primary := some i, exposed := g.exposed && hum }
      | _, _ => g
    else g
  { v with store := { v.store with grains := v.store.grains.map f } }

/-- Some grain kept on a stack has one copy only. -/
def Dev.singleCopies (v : Dev) (s : Nat) : Bool :=
  v.store.grains.any (fun g => (g.spire.val == s || partner g.spire.val == s) && (g.primary.isNone || g.mirror.isNone))

/-! ### The loss of a spire (R26, R97, R100, R237, R252) -/

/-- The staged registers of a range return to the values in force; commits that wait are discarded (R460, R461). -/
def Dev.restoreRegs (v : Dev) (lo n : Nat) : Dev :=
  let mine (o : Nat) : Bool := decide (lo ≤ o) && decide (o < lo + n)
  { v with regs := { v.regs with
      staged := v.regs.staged.filter (fun e => !mine e.1)
      pages := v.regs.pages.map (fun (e : Nat × PageState) => if mine e.1 then (e.1, { e.2 with due := none }) else e) } }

/-- The links of a spire's network ports go down with it (R97, R236, R345). -/
def Dev.stopPorts (v : Dev) (s : Nat) : Dev :=
  [2 * s, 2 * s + 1].foldl (fun y n =>
    let up := (y.port n).linkUp
    ((List.range 4).filter (fun k => bit up.toNat k)).foldl (fun z k => z.downPort n k) (y.setPort n { y.port n with linkUp := 0 })) v

/-- A spire stops: its ports go down with it, and its roles pass to the partner at the next bell (R97 steps 1 and 2). -/
def Dev.stopSpire (v : Dev) (s : Nat) (st : SpireState) : Dev :=
  (((v.setSpire s { SpireRec.reset with state := st, rolesAway := (v.spire s).rolesAway, resetCmd := (v.spire s).resetCmd,
                                        lost := true }).setCipher s .reset).restoreRegs
    (spireBase s) 0xC00000).stopPorts s

/-- A role of a spire sits on spire s now. -/
def Dev.sitsOn (v : Dev) (raw s : Nat) : Bool := if (v.spire raw).rolesAway then partner raw == s else raw == s

/-- A command in flight is inside spire s: it arrived there, or it is admitted and its anchor or its owner is there. One
that still waits at the scheduler of another spire is not (R100, R253). -/
def Dev.ctxOn (v : Dev) (c : Ctx) (s : Nat) : Bool :=
  c.arrival.val == s
    || (c.phase != .queued
      && ((match (v.session c.session).bind (·.anchor) with | some a => v.sitsOn a.val s | none => false)
        || (c.kind.toOwner && v.sitsOn (extOwner c.claim c.msg.cap.key) s)))

/-- Untallied work of the queue pairs homed on a spire is discarded, and completions and read data that have not left (R237). -/
def Dev.dropHomed (v : Dev) (s : Nat) : Dev :=
  let homed (q : Nat) : Bool := v.homeOf q == s
  let ops := (v.hosts.reads.filter (fun r => homed r.qp)).flatMap (·.ops)
  let v1 := ops.foldl (fun x o => x.dropOp o) v
  { v1 with hosts := { v1.hosts with
      reads := v1.hosts.reads.filter (fun r => !homed r.qp)
      flushes := v1.hosts.flushes.filter (fun f => !homed f.qp)
      dups := v1.hosts.dups.filter (fun d => !homed d.2.qp)
      qps := v1.hosts.qps.map (fun (e : Nat × Qp) => if homed e.1 then (e.1, { e.2 with waiting := [] }) else e)
      sessions := v1.hosts.sessions.map (fun (e : Nat × Session) => (e.1, { e.2 with built := e.2.built.filter (fun b =>
        match b.entry, b.qp with
        | .completion _, some q => !homed q
        | _, _ => true) })) } }

/-- A command scheduler as it starts to count: class U tokens at U_BURST (R133). -/
def Dev.freshSched (v : Dev) (s : Nat) : Sched := { Sched.reset with uTokens := v.spireCfg s 0 0x10008 27 16 * 64 }

/-- The partner takes the work of a spire that is lost or parked (R26, R97 step 2, R237, R345): commands of the spire that
are not held are abandoned, its paths are held, its stripes are placed anew, its rebuilds are given up, its bays are served by their other port. -/
def Dev.handOver (v : Dev) (s : Nat) : Dev :=
  let v1 := (v.hosts.ctxs.filter (fun c => v.ctxOn c s)).foldl (fun x c => x.dropUnheld c.id) v
  let qs := (v1.hosts.qps.filter (fun e => e.2.home.val == s)).map (·.1)
  let v2 := qs.foldl (fun x q => x.holdPath q) (v1.dropHomed s)
  let v3 := v2.setSpire s { v2.spire s with rolesAway := true }
  let v4 := (v3.store.pend.filter (fun p => p.spire.val == s)).foldl (fun x p => x.failStripe p.id) v3
  let v5 := (v4.store.scans.filter (fun x => x.spire.val == s)).foldl (fun x y => x.cutScan s y.tag stAborted) v4
  let v5 := ((v5.store.jobs.filter (fun j => j.spire.val == s)).map (·.id)).foldl (fun x j => x.dropJob j) v5
  let v6 := { v5 with spireLeases := v5.spireLeases.filter (fun l => l.spire.val != s)
                      hosts := { v5.hosts with scheds := Tab.set v5.hosts.scheds s (v5.freshSched s) } }
  let ops := v6.store.ops.filter (fun o => baySpire o.bay o.port == s)
  let v8 := (List.range 32).foldl (fun x b => x.fixActive b) v6
  ops.foldl (fun x o => match x.op o.id with | some y => x.moveOp y | none => x) v8

/-- A spire is lost: besides the hand-over of its work, what its stack holds is gone, its windows with it, its slice is
out of service, and the spire is a faulty part (R26, R47, R97, R139, R252). -/
def Dev.loseSpire (v : Dev) (s : Nat) : Dev :=
  let down (b : Nat) (x : BayRec) : BayRec :=
    { x with upA := x.upA && baySpire b .A != s, upB := x.upB && baySpire b .B != s }
  let v1 := { v with
    hosts := { v.hosts with
      ctxs := v.hosts.ctxs.map (fun (c : Ctx) => if partner c.arrival.val = s then { c with oneCopy := true } else c) }
    store := { v.store with bays := v.store.bays.map (fun (e : Nat × BayRec) => (e.1, down e.1 e.2))
                            cached := v.store.cached.filter (fun e => e.1 != s) } }
  let v2 := v1.loseStack s
  let ws := (v2.hosts.windows.filter (fun e => e.2.home.val == s)).map (·.1)
  let v3 := (ws.foldl (fun x w => x.freeWindow w) v2).handOver s
  let v3 := (v3.setSpire s { v3.spire s with lost := false }).setScrub s { v3.scrub s with running := false, items := [], pages := [], deferred := [], reading := none, got := [] }
  (v3.sliceGoes s).partFails (.spire (Fin.ofNat 4 s))

/-! ### The isolation of a Keep (R17 to R20) -/

/-- A Keep is isolated: the other continues alone, the channels of the isolated one are unmeasured, its module is not
healthy, and the endpoint passes to Keep B when Keep A is isolated (R17, R19, R20). -/
def Dev.isolateKeep (v : Dev) (k : KeepId) : Dev :=
  let x := v.keep k
  if x.isolated || x.missing then v
  else
    let v1 := v.setKeep k { x with isolated := true }
    let v2 := if k = .A && !v1.ep.keepB then { v1 with ep := { v1.ep with link := false, failing := some v1.now } } else v1
    v2.partFails (.keep k)

end Sys2Proof.Machine
end

