-- ==== Sys2Proof/Machine/Shelf.lean ====
section
/-! DEFINITION. The shelf: bay states, bay ports, journal bays, and the Floder commands of group 0x04xx for layout and bays
(R172, R173, R184, R185, R187, R190, R191, R412). -/

namespace Sys2Proof.Machine

/-! ### Bay states (R190, R191) -/

/-- The modes in which bays are enumerated and served (R84). -/
def Dev.baysRun (v : Dev) : Bool := v.inMode [.survey, .service, .degraded, .drain, .vault]

/-- A journal bay that leaves SERVING is replaced by the next higher SERVING bay that is none; the live part of the ring is
copied to it (R184). Where there is no such bay the set stays, until a bay comes to serve: the manual gives no other rule (DESIGN
CHOICE, assumption log 79). -/
def Dev.replaceJournal (v : Dev) (b : Nat) : Dev :=
  let j := v.store.journal
  if !j.bays.contains b then v
  else
    let next := ((List.range 31).map (fun i => (b + 1 + i) % 32)).find? (fun c => (v.bay c).state == .serving && !j.bays.contains c)
    match next with
    | none => v
    | some c =>
      let swap (l : List Nat) : List Nat := l.map (fun x => if x = b then c else x)
      let blocks := j.blocks.map (fun (x : JournalBlock) => { x with left := swap x.left })
      blocks.foldl (fun x k => x.copyBlock k c)
        { v with store := { v.store with journal := { j with bays := swap j.bays, blocks := blocks } } }

/-- A bay comes to serve: as a journal bay it gets the copies it lacks; a journal bay that does not serve and had no other to replace it
is replaced now (R183, R184; assumption log 79). -/
def Dev.joinJournal (v : Dev) (b : Nat) : Dev :=
  let j := v.store.journal
  if j.bays.contains b then (j.blocks.filter (fun k => k.left.contains b)).foldl (fun x k => x.copyBlock k b) v
  else match j.bays.find? (fun c => (v.bay c).state != .serving) with
    | some c => if j.isOpen then v.replaceJournal c else v
    | none => v

/-- The commands of a bay end: it does not serve any more. -/
def Dev.endBayOps (v : Dev) (b : Nat) : Dev :=
  (v.store.ops.filter (fun o => o.bay == b)).foldl (fun x o => match x.op o.id with | some y => x.opUnresolved y | none => x) v

/-- A bay leaves SERVING, or another state: its queues go, its commands end, and a journal bay is replaced. -/
def Dev.bayLeaves (v : Dev) (b : Nat) (st : BayState) : Dev :=
  let was := (v.bay b).state
  let v1 := v.setBay b { v.bay b with state := st, ioA := 0, ioB := 0 }
  (if was == .serving then v1.replaceJournal b else v1).endBayOps b

/-- A label names this shelf and this bay, with a generation that is current (R190, R191). -/
def Dev.labelCurrent (v : Dev) (b : Nat) (l : Label) : Bool :=
  let x := v.bay b
  l.shelf == Config.shelfIdentity && l.bay == b && !x.stale && (x.generation == 0 || x.generation == l.generation)

/-- The admin commands that enumerate a drive on one port: the Identify data structures, features, and the ANA state of the port (R186,
R190). -/
def enumerateCmds : List AdminCmd :=
  [.identify 0x00, .identify 0x01, .identify 0x02, .identify 0x06, .getFeature .numberOfQueues, .getFeature .volatileWriteCache,
   .getLog .ana]

/-- The ports on which a drive is enumerated, or served. -/
def Dev.bayPorts (v : Dev) (b : Nat) : List BayPort := if (v.bay b).single then [.A] else [.A, .B]

/-- I/O queues are created on each port: IOQ_COUNT pairs of IOQ_DEPTH entries as in force on the spire of the port, or fewer where the
controller supports fewer; events and health logs are asked for (R186, R188, R200). -/
def Dev.createQueues (v : Dev) (b : Nat) : Dev :=
  let x := v.bay b
  let count (p : BayPort) : Nat := min x.queues (v.spireCfg (baySpire b p) 3 0x10004 6 0)
  let depth (p : BayPort) : Nat := min x.depth (v.spireCfg (baySpire b p) 3 0x10004 22 12)
  let v1 := v.setBay b { x with ioA := count .A * depth .A, ioB := if x.single then 0 else count .B * depth .B }
  v1.emitAll ((v.bayPorts b).flatMap (fun p =>
    [AdminCmd.setFeature .numberOfQueues, .setFeature .asyncEventConfig, .createQueues (count p) (depth p), .asyncEvent,
      .getLog .error, .getLog .smart].map (fun c => Out.bayAdmin b p c)))

/-- What enumeration finds of a drive is kept; a port whose ANA state is not Optimized is down (R185, R186). -/
def Dev.noteDrive (v : Dev) (b : Nat) (i : DriveInfo) : Dev :=
  let x := v.bay b
  (v.setBay b { x with label := i.label, lbas := i.lbas, single := !i.dual, fit := driveFits i, queues := i.queues, depth := i.depth,
                       upA := x.upA && i.anaA, upB := x.upB && i.anaB }).fixActive b

/-- A bay becomes SERVING with the drive found: I/O queues are created (R190), and SEVERE records of the bay leave that class (R379);
SURVEY takes the layout from the labels (R173). -/
def Dev.serveBay (v : Dev) (b : Nat) (l : Label) : Dev :=
  let v0 := v.resetsDone (fun src => src == srcOf 0x041 7 b || src == srcOf 0x050 7 b || src == srcOf 0x051 7 b || src == srcOf 0x052 7 b)
  let v1 := ((v0.setBay b { v0.bay b with state := .serving, label := some l, generation := l.generation }).fixActive b).createQueues b
  let v2 := if v1.store.layout.set || l.rows == 0 then v1
    else { v1 with store := { v1.store with
      layout := { v1.store.layout with rows := l.rows, spareRows := l.spareRows, set := true }
      journal := { v1.store.journal with bays := l.journal } } }
  v2.joinJournal b

/-- BAY_POWER_GOOD (R190): power good and PERST_N released: the drive is enumerated on both ports. -/
def execBayPowerGood (b : Bay) (s : State) : Host.Outcome State Fault Refusal :=
  s.on fun v =>
    let c := Tab.getD v.chans b.val .reset
    if v.baysRun && (v.bay b.val).state == .absent && c.pwrgd && c.perstRel then
      (v.setBay b.val { v.bay b.val with state := .enumerating, powerGood := true, single := false }).emitAll
        ([BayPort.A, .B].flatMap (fun p => enumerateCmds.map (fun k => Out.bayAdmin b.val p k)))
    else v

/-- BAY_CONTROLLER_READY (R185, R190); in RETIRED a bay whose last sanitize did not complete is sanitized again (R335). -/
def execBayControllerReady (b : Bay) (info : DriveInfo) (s : State) : Host.Outcome State Fault Refusal :=
  s.on fun v =>
    let n := b.val
    if v.baysRun && (v.bay n).state == .enumerating then
      let v1 := v.noteDrive n info
      let v0 := v1.setBay n { v1.bay n with state := .foreign }
      let again := v.sec.lifecycle == .retired && (v.bay n).sanitize != some 0
      let foreign := if again then
          let (id, x) := v0.fresh
          ((x.setBay n { x.bay n with sanitizing := some id }).emit (.bayAdmin n .A (.getLog .sanitizeStatus))).emit (.baySanitize n (x.activePort n))
        else v0
      match info.label with
      | none => foreign
      | some l => if v.labelCurrent n l && meets185 info then v1.serveBay n l else foreign
    else v

/-- A fault source of a bay stands at SEVERE, or rises to it (R388). -/
def Dev.bayEscalated (v : Dev) (b : Nat) : Bool :=
  v.faults.any (fun e => (e.2.source == srcOf 0x041 7 b || e.2.source == srcOf 0x050 7 b || e.2.source == srcOf 0x051 7 b
    || e.2.source == srcOf 0x052 7 b) && (e.2.cls == 3 || e.2.rising == some 3))

/-- A SERVING bay becomes FAILED and its rebuild begins (R190). -/
def Dev.failBay (v : Dev) (b : Bay) : Dev :=
  if v.baysRun && (v.bay b.val).state == .serving then (v.bayLeaves b.val .failed).partFails (.bay b) else v

/-- BAY_FAIL (R190): a SERVING bay becomes FAILED and its rebuild begins. -/
def execBayFail (b : Bay) (cause : BayFailCause) (s : State) : Host.Outcome State Fault Refusal :=
  s.on fun v =>
    let n := b.val
    let holds := match cause with
      | .bothPortsDown => !(v.bay n).upA && (!(v.bay n).upB || (v.bay n).single)
      | .media _ _ => true
      | .escalated => v.bayEscalated n
    if v.baysRun && (v.bay n).state == .serving && holds then
      let v1 := match cause with
        | .media st lba => v.faultAt 0x041 7 n 5 lba.toNat st.toNat lba.toNat 0
        | _ => v
      v1.failBay b
    else v

/-- BAY_DRIVE_READY_AGAIN (R190): a FAILED bay whose generation is still current serves again. -/
def execBayDriveReadyAgain (b : Bay) (info : DriveInfo) (s : State) : Host.Outcome State Fault Refusal :=
  s.on fun v =>
    let n := b.val
    match info.label with
    | some l =>
      if v.baysRun && (v.bay n).state == .failed && v.labelCurrent n l && meets185 info then (v.noteDrive n info).serveBay n l else v
    | none => v

/-- A port of a bay goes down (R187): its operations move to the other port. -/
def Dev.dropBayPort (v : Dev) (b : Bay) (p : BayPort) : Dev :=
  let n := b.val
  let x := v.bay n
  let v1 := (v.setBay n (match p with | .A => { x with upA := false } | .B => { x with upB := false })).fixActive n
  let mine := v1.store.ops.filter (fun o => o.bay == n && o.port == p)
  let v2 := (mine.foldl (fun y o => match y.op o.id with | some z => y.moveOp z | none => y) v1).pump n
  if x.state == .serving && v.baysRun then v2.partFails (.bayPort b p) else v2

/-- BAY_PORT_LINK_CHANGE (R187, R190): a port goes down or comes up; a bay that keeps one port keeps SERVING (R191). -/
def execBayPortLinkChange (b : Bay) (p : BayPort) (up : Bool) (s : State) : Host.Outcome State Fault Refusal :=
  s.on fun v =>
    let n := b.val
    let x := v.bay n
    if up then
      let v1 := (v.setBay n (match p with | .A => { x with upA := true } | .B => { x with upB := true })).fixActive n
      let v2 := v1.pump n
      if x.state == .serving then v2.partRepaired (.bayPort b p) else v2
    else v.dropBayPort b p

/-- ACTIVE_PORT_RETURN (R187): at a peal boundary port A takes the writes again. -/
def execActivePortReturn (b : Bay) (s : State) : Host.Outcome State Fault Refusal :=
  s.on fun v =>
    let n := b.val
    if v.atPeal && v.bayPortUp n .A && !v.portLeased n .A then v.setBay n { v.bay n with activeB := false } else v

/-! ### Floder commands (R173, R190, R412) -/

/-- SHELF_LAYOUT (R173). -/
def execShelfLayout (p : Packet) (s : State) : Host.Outcome State Fault Refusal :=
  s.on fun v => v.floderRun 0x0401 p fun id v =>
    let rows := p.u32 0
    let spare := p.u32 4
    let js := [p.u8 8, p.u8 9, p.u8 10]
    if v.store.layout.used || 2 ^ 30 < rows || rows < spare + 4 || js.any (fun j => decide (31 < j))
        || p.u8 8 == p.u8 9 || p.u8 8 == p.u8 10 || p.u8 9 == p.u8 10 then v.fail id stInvalidField
    else
      let v1 := { v with store := { v.store with
        layout := { v.store.layout with rows := rows, spareRows := spare, set := true }
        journal := { v.store.journal with bays := js } } }
      let relabel (x : Dev) (b : Nat) : Dev :=
        match (x.bay b).state, (x.bay b).label with
        | .serving, some l =>
          let l1 : Label := { l with rows := rows, spareRows := spare, journal := js }
          (x.issueWrite b 0 [[]] (.label l1)).2
        | _, _ => x
      ((List.range 32).foldl relabel v1).finishOk id 0 0 0

/-- Positions of published stripes on a bay. -/
def Dev.positionsOn (v : Dev) (b : Nat) : List (Nat × Nat) :=
  (v.store.stripes.filter (fun t => !t.dead)).flatMap (fun (t : Stripe) =>
    ((List.range t.rec_.width).filter (fun p => match t.rec_.placeOf p with | some (c, _) => c == b | none => false)).map
      (fun p => (t.rec_.id, p)))

/-- BAY_ADOPT (R173, R185, R190): the drive of a FOREIGN bay is formatted and labelled with the next generation, and serves as
rebuild target. A drive that R185 and R186 shut out, whatever its format, is refused INVALID_FIELD: the manual gives no status for it
(DESIGN CHOICE, assumption log 86). -/
def execBayAdopt (p : Packet) (s : State) : Host.Outcome State Fault Refusal :=
  s.on fun v => v.floderRun 0x0402 p fun id v =>
    let b := p.u8 0 % 32
    let x := v.bay b
    let l := v.store.layout
    if x.state != .foreign || !l.set || x.lbas < slotLba l.rows || !x.fit then v.fail id stInvalidField
    else
      let gen := x.generation + 1
      let lab : Label := ⟨Config.shelfIdentity, b, gen, l.rows, l.spareRows, v.store.journal.bays⟩
      let lo := driveKey b 0 0
      let hi := driveKey (b + 1) 0 0
      let moved := (v.positionsOn b).filter (fun e => !v.store.rebuilds.contains e)
      let v1 := { v with store := { v.store with
        drives := v.store.drives.filter (fun e => decide (e.1 < lo) || decide (hi ≤ e.1))
        rebuilds := v.store.rebuilds ++ moved } }
      let v2 := ((v1.setBay b { x with stale := false }).emit (.bayFormat b)).serveBay b lab
      (v2.issueWrite b 0 [[]] (.label lab)).2.finishOk id gen 0 0

/-- BAY_SANITIZE (R186, R412): it completes with the status of the drive's Sanitize. -/
def execBaySanitize (p : Packet) (s : State) : Host.Outcome State Fault Refusal :=
  s.on fun v => v.floderRun 0x0403 p fun id v =>
    let b := p.u8 0 % 32
    let x := v.bay b
    if x.state != .foreign || x.sanitizing.isSome then v.fail id stInvalidField
    else (v.setBay b { x with sanitizing := some id, sanitize := none }).emit (.baySanitize b (v.activePort b))

def BayState.code : BayState → Nat
  | .absent => 0
  | .enumerating => 1
  | .serving => 2
  | .failed => 3
  | .foreign => 4

/-- BAY_QUERY (R412). -/
def execBayQuery (p : Packet) (s : State) : Host.Outcome State Fault Refusal :=
  s.on fun v => v.floderRun 0x0404 p fun id v =>
    let b := p.u8 0 % 32
    v.finishOk id ((v.bay b).state.code + 256 * b2n (v.bayPortUp b .A) + 512 * b2n (v.bayPortUp b .B)) (v.bay b).generation
      (v.rowsUsed b).eraseDups.length

end Sys2Proof.Machine
end

