-- ==== Sys2Proof/Machine/HotSwap.lean ====
section
/-! DEFINITION. Hot swap: the 34 channels, their sampling, starts, trips and faults, and page commits, of which
CHANNEL_SET is one (R75 to R77, R350 to R375, R458, R485, R486). -/

namespace Sys2Proof.Machine

/-! ### Channels (R350 to R353) -/

def isHum (c : Nat) : Bool := decide (32 ≤ c)

/-- The Keep that owns a channel (R350). -/
def chanKeep (c : Nat) : KeepId := if chanRegion c = 4 then .A else .B

def Dev.chan (v : Dev) (c : Nat) : Channel := Tab.getD v.chans c .reset

def Dev.setChan (v : Dev) (c : Nat) (x : Channel) : Dev := { v with chans := Tab.set v.chans c x }

/-- The owning Keep measures the channel (R353). -/
def Dev.measured (v : Dev) (c : Nat) : Bool := v.keepSound (chanKeep c)

/-- Presence, voltages and currents are sampled from the end of B0 (R471). -/
def Dev.sampling (v : Dev) : Bool := v.mode != .held && !(v.mode == .boot && v.chip.boot.stage == 0)

/-- Full-scale current in CUR_LSB (R367, R486). -/
def Dev.fullScale (v : Dev) (c : Nat) : Nat :=
  80000000 / (max 100 (v.chanCfg c 0x014 31 16)) / (if isHum c then 4 else 1)

/-- A current setting, held to full scale (R486). -/
def Dev.currentCfg (v : Dev) (c o hi lo : Nat) : Nat := min (v.chanCfg c o hi lo) (v.fullScale c)

def Dev.enabled (v : Dev) (c : Nat) : Bool := v.chanCfg c 0x004 31 31 == 1

def Dev.debounce (v : Dev) (c : Nat) : Nat := v.chanCfg c 0x004 15 8

/-- The gate is driven on. -/
def Channel.gateOn (x : Channel) : Bool := x.state == .ramp || x.state == .on

/-- The gate goes off (R352, R362). -/
def Channel.gateOff (x : Channel) (now : Nat) (st : ChanState) : Channel :=
  { x with state := st, pwrgd := false, pwrgdFor := 0, perstRel := false, offCmd := false, rampFor := 0, fullFor := 0,
           brk := [], shortFor := 0, chg := false, dis := false, offSince := if x.gateOn then now else x.offSince }

/-- Power of a channel in uW, signed (R367). -/
def chanPower (c : Nat) (x : Channel) : Int := (x.vout : Int) * x.current * (if isHum c then 4 else 1)

/-- Power good of a bay as its drive sees it. -/
def Dev.syncPower (v : Dev) (c : Nat) : Dev :=
  if isHum c then v else v.setBay c { v.bay c with powerGood := (v.chan c).pwrgd }

def Dev.hum (v : Dev) (h : Nat) : HumState := Tab.getD v.store.hums h .reset

def Dev.setHum (v : Dev) (h : Nat) (x : HumState) : Dev :=
  { v with store := { v.store with hums := Tab.set v.store.hums h x } }

def AssayPhase.running : AssayPhase → Bool
  | .discharging _ _ => true
  | _ => false

/-- An assay in progress on a module ends without a result (R145). -/
def Dev.stopAssay (v : Dev) (c : Nat) : Dev :=
  if isHum c && (v.hum (c - 32)).assay.running then v.setHum (c - 32) { v.hum (c - 32) with assay := .idle } else v

/-- A channel's gate is turned off. -/
def Dev.chanOff (v : Dev) (c : Nat) (st : ChanState) : Dev :=
  ((v.setChan c ((v.chan c).gateOff v.now st)).syncPower c).stopAssay c

/-! ### Modes and gates (R354, R358, R359, R190) -/

/-- Inside the settle of VAULT or FENCED (R359). -/
def Dev.holdsGates (v : Dev) : Bool :=
  (v.mode == .vault && v.chip.vault.phase != .waiting && v.chip.vault.phase != .done) || v.chip.vault.fencedSettle

/-- The mode permits a start (R347, R358, R359). -/
def Dev.mayRamp (v : Dev) (c : Nat) : Bool :=
  if v.sec.p3 || v.mode == .vault || v.mode == .fenced || !v.sampling then false
  else if isHum c then true
  else v.baysRun && !(v.mode == .drain && v.chip.drain.offReady)

/-- The mode turns a gate off with the drive or module seated: not counted; a bay that was not FAILED becomes ABSENT, and
no rebuild begins (R190, R354). -/
def Dev.modeOff (v : Dev) (c : Nat) : Dev :=
  let x := v.chan c
  let v1 := if x.state == .wait || x.state == .ramp || x.state == .on || x.state == .tripped then v.chanOff c .wait else v
  if isHum c then v1
  else
    let st := (v1.bay c).state
    if st == .serving || st == .enumerating || st == .foreign then v1.bayLeaves c .absent else v1

/-- The bay gates go off together: no bay is left to take the journal of another (R184). -/
def Dev.bayGatesOff (v : Dev) : Dev :=
  let off (b : BayRec) : BayRec :=
    if b.state == .serving || b.state == .enumerating || b.state == .foreign then { b with state := .absent, ioA := 0, ioB := 0 } else b
  let v1 := { v with store := { v.store with bays := v.store.bays.map (fun (e : Nat × BayRec) => (e.1, off e.2)) } }
  (List.range 32).foldl (fun x c => (x.endBayOps c).modeOff c) v1
def Dev.humGatesOff (v : Dev) : Dev := [32, 33].foldl (fun x c => x.modeOff c) v

/-- Channels in RAMP return to WAIT, uncounted (R359). -/
def Dev.stopRamps (v : Dev) : Dev :=
  (List.range 34).foldl (fun x c => if (x.chan c).state == .ramp then x.chanOff c .wait else x) v

/-- ENABLE is followed (R354, R359, R362): a bay's reset is asserted first and its gate goes off four samples later. -/
def Dev.obeyEnable (v : Dev) (c : Nat) : Dev :=
  let x := v.chan c
  if v.enabled c then (if x.state == .off then v.setChan c { x with state := .wait } else v)
  else if v.holdsGates then v
  else if x.state == .wait || x.state == .tripped then v.chanOff c .off
  else if x.gateOn && !x.offCmd then
    (if isHum c then v.chanOff c .off else v.setChan c { x with offCmd := true, perstRel := false, pwrgdFor := 0 })
  else v

/-! ### Presence and trips (R355, R363 to R365) -/

/-- Presence or seating is lost: the gate goes off, the start conditions are reset (R354, R365). -/
def Dev.loseSeat (v : Dev) (c : Nat) : Dev :=
  let x := v.chan c
  let v1 := if x.state == .wait || x.gateOn then v.chanOff c .wait else v
  let v2 := v1.setChan c { v1.chan c with present := false, insertFrom := none, ready := none, chg := false, dis := false }
  if isHum c then v2
  else
    let b : Bay := Fin.ofNat 32 c
    let st := (v2.bay c).state
    if st == .serving || st == .failed then (v2.bayLeaves c .absent).partFails (.bay b)
    else if st == .enumerating || st == .foreign then v2.bayLeaves c .absent
    else v2

/-- A trip (R364). Causes: 1 breaker point, 2 fast comparator, 3 RAMP_SHORT, 4 RAMP_TIMEOUT. -/
def Dev.trip (v : Dev) (c cause point : Nat) (current : Int) : Dev :=
  let x := v.chan c
  let n := min 15 (x.tripCount + 1)
  let again := decide (n ≤ v.chanCfg c 0x004 30 28)
  let due := v.now + max 1 (v.chanCfg c 0x004 27 20) * pealBells
  let v1 := v.chanOff c (if again then .tripped else .lockedOff)
  let v2 := v1.setChan c { v1.chan c with tripCount := n, lastCause := cause, lastPoint := if cause = 1 then point else x.lastPoint,
                                          retryAt := if again then some due else none }
  let v3 := v2.fault 0x070 (chanRegion c) c c (cause + 16 * point) (BitVec.ofInt 32 current).toNat
  if again then v3 else v3.fault 0x071 (chanRegion c) c c n 0

/-! ### The sample (R355, R365 to R368) -/

/-- VIN lies within the start window (R356). -/
def Dev.inWindow (v : Dev) (c vin : Nat) : Bool := decide (v.chanCfg c 0x008 15 0 ≤ vin) && decide (vin ≤ v.chanCfg c 0x008 31 16)

/-- The condition of the pass-transistor check (R366). -/
def shortSeen (c : Nat) (x : Channel) : Bool := if isHum c then decide (1000 < 4 * x.current.natAbs) else decide (1000 < x.vout)

/-- What a channel measures, and the energies it integrates (R367). -/
def Channel.measure (x : Channel) (c : Nat) (m : ChanSample) : Channel :=
  let i := if isHum c then m.current else max 0 m.current
  let y := { x with current := i, vin := m.vin, vout := m.vout }
  let e := (chanPower c y).natAbs * 32768 / 1000000000
  if 0 < chanPower c y then { y with energyOut := y.energyOut + e } else { y with energyIn := y.energyIn + (if isHum c then e else 0) }

/-- The counts that run from sample to sample; with INRUSH_LIMIT 0 no ramp is ever fully on (R375). -/
def Dev.counts (v : Dev) (c : Nat) (x : Channel) (full : Bool) : Channel :=
  let window := if !isHum c && x.insertFrom.isSome && !v.inWindow c x.vin then some v.now else x.insertFrom
  let off := x.state == .off || x.state == .wait || x.state == .tripped || x.state == .lockedOff
  let checks := off && decide (x.offSince + pealBells ≤ v.now)
  let short := if x.state == .shorted then (if shortSeen c x then 0 else x.shortFor + 1)
    else if checks && shortSeen c x then x.shortFor + 1 else 0
  let isFull := full && v.chanCfg c 0x010 15 0 != 0
    && (if isHum c then decide (x.current.natAbs < v.currentCfg c 0x010 15 0) else decide (x.vin ≤ x.vout + 250))
  let points := (List.range 8).foldl (fun t k =>
    let lim := v.chanCfg c (0x020 + 4 * k) 31 16
    Tab.set t k (if lim != 0xFFFF && decide (v.currentCfg c (0x020 + 4 * k) 31 16 ≤ x.current.natAbs) then Tab.getD t k 0 + 1 else 0)) x.brk
  { x with insertFrom := window, shortFor := short
           rampFor := if x.state == .ramp then x.rampFor + 1 else 0
           fullFor := if x.state == .ramp && isFull then x.fullFor + 1 else 0
           brk := if x.state == .on then points else [] }

/-- HUMn_CHG_EN (R368). -/
def Dev.charging (v : Dev) (h : Nat) (x : Channel) (inputOk : Bool) : Bool × Bool :=
  let full := v.cfgBits 0x300C 31 16
  let u := v.hum h
  let isFull := if full ≤ x.vout then true else if x.vout + 100 < full then false else u.full
  (x.state == .on && inputOk && !u.assay.running && v.mode != .vault && v.mode != .fenced && decide (x.vout < full) && !isFull
    && v.measured (32 + h), isFull)

/-- Input is present (R141). -/
def Dev.inputPresent (v : Dev) : Bool := decide (244 ≤ v.chip.input.run)

/-- The lowest breaker point of a measured channel that is ON whose count exceeds its time (R363). -/
def Dev.breakerOver (v : Dev) (c : Nat) : Option Nat :=
  let x := v.chan c
  if x.state == .on && v.measured c then
    (List.range 8).find? (fun k => v.chanCfg c (0x020 + 4 * k) 31 16 != 0xFFFF
      && decide (v.chanCfg c (0x020 + 4 * k) 15 0 < Tab.getD x.brk k 0))
  else none

/-- One channel at a sample, in the order of R355 as far as the sample itself decides. A ramp that nobody measures any
more goes off (R353). -/
def Dev.sampleChan (v : Dev) (c : Nat) (m : Option ChanSample) : Dev :=
  let x0 := v.chan c
  let now := match m with | some y => y.present | none => x0.seen
  let x1 := if v.measured c then (match m with | some y => x0.measure c y | none => x0) else x0
  let x2 := { x1 with seen := now, seenFor := if now && x0.seen then x0.seenFor + 1 else 0, goneFor := if !now && !x0.seen then x0.goneFor + 1 else 0,
                      pwrgdFor := x1.pwrgdFor + b2n (x1.pwrgd || x1.offCmd) }
  let v1 := v.setChan c x2
  let v2 := if !now && x0.seen then v1.loseSeat c else v1
  let full := match m with | some y => y.gateFull | none => decide (0 < x0.fullFor)
  let v3 := if v2.measured c then v2.setChan c (v2.counts c (v2.chan c) full)
    else if (v2.chan c).state == .ramp then v2.chanOff c .wait else v2
  let x3 := v3.chan c
  let left := x3.state == .on && !isHum c && v3.measured c && v3.inWindow c x0.vin && !v3.inWindow c x3.vin
  let v4 := if left then v3.fault 0x072 (chanRegion c) c c x3.vin 0 else v3
  let v5 := if x3.offCmd && decide (4 ≤ x3.pwrgdFor) then
      match v4.breakerOver c with
      | some k => v4.trip c 1 k x3.current
      | none => v4.chanOff c .off
    else v4
  let gone := isHum c && !now && !x0.seen && decide (v5.debounce c ≤ x3.goneFor)
  let v6 := if gone then
      (v5.setChan c { v5.chan c with tripCount := 0 }).setHum (c - 32) { v5.hum (c - 32) with serial := none, assay := .idle, agrees := true }
    else v5
  v6.obeyEnable c

/-- Temperature of a sensor; thresholds of THERM_WARN in 0.1 degC (R490). -/
def warnAt (sensor : Nat) : Int := if sensor < 6 then 1050 else 950

/-- A sensor's sample; THERM_WARN is raised at the first sample above its threshold (R490). -/
def Dev.sampleTemp (v : Dev) (n : Nat) (t : Int) : Dev :=
  let old := Tab.getD v.chip.temps n 0
  let v1 := { v with chip := { v.chip with temps := Tab.set v.chip.temps n t, tempsPrev := Tab.set v.chip.tempsPrev n old } }
  if warnAt n < t && !decide (warnAt n < old) then
    v1.fault 0x0A0 7 n (BitVec.ofInt 32 t).toNat (warnAt n).toNat 0
  else v1

/-- A hot-swap sample falls: stroke 0 of every 64th bell since HELD, once (R72, R73). The manual does not say at which of 64
bells the count starts (assumption log 67). -/
def Dev.sampleFalls (v : Dev) : Bool :=
  v.sampling && v.now % 64 == 0 && v.stroke == 0 && v.chip.input.sampledAt != some v.now

/-- Everything that a sample measures: the board input, every channel, charging and the temperatures (R141, R367, R368,
R489). -/
def Dev.takeSample (v : Dev) (m : Sample) : Dev :=
  let i := v.chip.input
  let seen := m.pwrgood && decide (v.cfgBits 0x301C 31 16 ≤ m.vsnsMv)
  let run := if seen then min 244 (i.run + 1) else 0
  let v1 := ({ v with chip := { v.chip with input := ⟨m.pwrgood, m.vsnsMv, run, seen, i.samples + 1, some v.now⟩ } }).countKeep 0x11 0x003 1
  let v2 := (List.range 34).foldl (fun x c => x.sampleChan c (Tab.get m.chans c)) v1
  let v3 := [0, 1].foldl (fun x h =>
    let y := x.chan (32 + h)
    let (chg, full) := x.charging h y (decide (244 ≤ run))
    (x.setChan (32 + h) { y with chg := chg }).setHum h { x.hum h with full := full }) v2
  m.temps.foldl (fun x e => if e.1 < 6 || (8 ≤ e.1 && e.1 < 12) then x.sampleTemp e.1 e.2 else x) v3

/-! ### Starting (R356 to R361) -/

/-- BAY_PRESENCE_CONFIRMED (R356): the insertion delay starts. -/
def execBayPresenceConfirmed (b : Bay) (s : State) : Host.Outcome State Fault Refusal :=
  s.on fun v =>
    let x := v.chan b.val
    if v.sampling && x.seen && !x.present && v.debounce b.val ≤ x.seenFor then
      v.setChan b.val { x with present := true, insertFrom := some v.now }
    else v

/-- INSERT_DELAY_END (R356): the start conditions of a bay are met. -/
def execInsertDelayEnd (b : Bay) (s : State) : Host.Outcome State Fault Refusal :=
  s.on fun v =>
    let x := v.chan b.val
    match x.insertFrom with
    | some t =>
      if x.present && v.measured b.val && v.atBell (t + v.chanCfg b.val 0x00C 31 16 * pealBells) then
        v.setChan b.val { x with insertFrom := none, ready := some v.now }
      else v
    | none => v

/-- HUM_SEATED (R357): the start conditions of a module are met. -/
def execHumSeated (h : Hum) (s : State) : Host.Outcome State Fault Refusal :=
  s.on fun v =>
    let c := 32 + h.val
    let x := v.chan c
    if v.sampling && x.seen && !x.present && v.debounce c ≤ x.seenFor then
      v.setChan c { x with present := true, ready := some v.now }
    else v

/-- Channels of a bank in RAMP. -/
def Dev.ramping (v : Dev) (region : Nat) : Nat :=
  ((List.range 34).filter (fun c => chanRegion c == region && (v.chan c).state == .ramp)).length

/-- A channel may enter RAMP at a sample: start conditions met, retry due, mode and Keep permit it (R353, R354, R356, R358,
R364). -/
def Dev.canRamp (v : Dev) (c : Nat) : Bool :=
  let x := v.chan c
  v.chip.input.sampledAt == some v.now && (x.state == .wait || x.state == .tripped) && x.ready.isSome && v.mayRamp c && v.measured c
    && (match x.retryAt with | some t => v.atBell t | none => true)

/-- A channel's turn in its bank (R360). -/
def Dev.rampTurn (v : Dev) (c : Nat) : Bool :=
  decide (v.ramping (chanRegion c) < max 1 (v.cfgBits 0x8004 3 0)) &&
  (List.range 34).all (fun d => !(chanRegion d == chanRegion c && v.canRamp d &&
    (decide ((v.chan d).ready.getD 0 < (v.chan c).ready.getD 0)
      || ((v.chan d).ready.getD 0 == (v.chan c).ready.getD 0 && decide (d < c)))))

def Dev.startRamp (v : Dev) (c : Nat) : Dev :=
  if v.canRamp c && v.rampTurn c then
    v.setChan c { v.chan c with state := .ramp, rampFor := 0, fullFor := 0, retryAt := none }
  else v

/-- RAMP_START (R360). -/
def execRampStart (c : Chan) (s : State) : Host.Outcome State Fault Refusal :=
  s.on fun v => if (v.chan c.val).state == .wait then v.startRamp c.val else v

/-- RAMP_COMPLETE (R361, R362): fully on at two consecutive samples. -/
def execRampComplete (c : Chan) (s : State) : Host.Outcome State Fault Refusal :=
  s.on fun v =>
    let x := v.chan c.val
    if x.state == .ramp && 2 ≤ x.fullFor then
      (v.setChan c.val { x with state := .on, onSince := v.now, brk := [], pwrgd := !isHum c.val, pwrgdFor := 0 }).syncPower c.val
    else v

/-- RAMP_TIMEOUT (R361, R375). -/
def execRampTimeout (c : Chan) (s : State) : Host.Outcome State Fault Refusal :=
  s.on fun v =>
    let x := v.chan c.val
    if x.state == .ramp && x.fullFor < 2 && max 1 (v.chanCfg c.val 0x00C 15 0) ≤ x.rampFor then v.trip c.val 4 0 x.current else v

/-- PERST_RELEASE (R362). -/
def execPerstRelease (b : Bay) (s : State) : Host.Outcome State Fault Refusal :=
  s.on fun v =>
    let x := v.chan b.val
    if v.baysRun && x.state == .on && x.pwrgd && !x.offCmd && max 3052 (v.chanCfg b.val 0x014 15 0) ≤ x.pwrgdFor then
      v.setChan b.val { x with perstRel := true }
    else v

/-! ### Trips (R361, R363, R364) -/

/-- The fast threshold of a channel (R361, R363). -/
def Dev.fastLimit (v : Dev) (c : Nat) : Nat :=
  let fast := v.currentCfg c 0x010 31 16
  if (v.chan c).state == .ramp then min fast (2 * v.currentCfg c 0x010 15 0) else fast

/-- FAST_TRIP (R361, R363, R375). -/
def execFastTrip (c : Chan) (current : Int) (s : State) : Host.Outcome State Fault Refusal :=
  s.on fun v =>
    let x := v.chan c.val
    let high := decide (v.fastLimit c.val < current.natAbs) || v.chanCfg c.val 0x010 31 16 == 0
    if x.gateOn && v.measured c.val && high then v.trip c.val (if x.state == .ramp then 3 else 2) 0 current else v

/-- BREAKER_TRIP (R363): the count of a point exceeds its time. -/
def execBreakerTrip (c : Chan) (point : Fin 8) (s : State) : Host.Outcome State Fault Refusal :=
  s.on fun v =>
    let x := v.chan c.val
    let o := 0x020 + 4 * point.val
    if x.state == .on && v.measured c.val && v.chanCfg c.val o 31 16 != 0xFFFF
        && decide (v.chanCfg c.val o 15 0 < Tab.getD x.brk point.val 0) then
      v.trip c.val 1 point.val x.current
    else v

/-- RETRY_DUE (R364). -/
def execRetryDue (c : Chan) (s : State) : Host.Outcome State Fault Refusal :=
  s.on fun v => if (v.chan c.val).state == .tripped then v.startRamp c.val else v

/-- TRIP_COUNT_CLEAR (R364). -/
def execTripCountClear (c : Chan) (s : State) : Host.Outcome State Fault Refusal :=
  s.on fun v =>
    let x := v.chan c.val
    if x.state == .on && v.atBell (x.onSince + v.cfgBits 0x8004 31 16 * pealBells) then v.setChan c.val { x with tripCount := 0 }
    else v

/-! ### Removal and failed pass transistors (R365, R366) -/

/-- BAY_REMOVAL_CONFIRMED (R365). -/
def execBayRemovalConfirmed (b : Bay) (s : State) : Host.Outcome State Fault Refusal :=
  s.on fun v =>
    let x := v.chan b.val
    if v.sampling && !x.seen && v.debounce b.val ≤ x.goneFor then v.setChan b.val { x with tripCount := 0 } else v

/-- HUM_SEATING_LOSS (R365). -/
def execHumSeatingLoss (h : Hum) (s : State) : Host.Outcome State Fault Refusal :=
  s.on fun v =>
    let c := 32 + h.val
    if v.sampling then
      let v1 := v.loseSeat c
      v1.setChan c { v1.chan c with seen := false, seenFor := 0, goneFor := 0 }
    else v

/-- PASS_TRANSISTOR_FAULT (R366). -/
def execPassTransistorFault (c : Chan) (s : State) : Host.Outcome State Fault Refusal :=
  s.on fun v =>
    let n := c.val
    let x := v.chan n
    if (x.state == .off || x.state == .wait || x.state == .tripped || x.state == .lockedOff) && v.measured n && 4 ≤ x.shortFor then
      if isHum n then
        ((v.chanOff n .shorted).setChan n { (x.gateOff v.now .shorted) with shortFor := 0 }).fault 0x075 (chanRegion n) n n
          (BitVec.ofInt 32 x.current).toNat 0
      else
        let v1 := (v.setChan n { (x.gateOff v.now .shorted) with shortFor := 0, iso := true }).syncPower n
        let v2 := (v1.setBay n { v1.bay n with upA := false, upB := false }).bayLeaves n .failed
        (v2.fault 0x074 (chanRegion n) n n x.vout 0).partFails (.bay (Fin.ofNat 32 n))
    else v

/-- HUM_ID_READ (R142, R351, R371). -/
def execHumIdRead (h : Hum) (serial : Option (BitVec 128)) (s : State) : Host.Outcome State Fault Refusal :=
  s.on fun v =>
    let c := 32 + h.val
    if (v.chan c).state == .on && v.measured c then
      let v1 := v.setHum h.val { v.hum h.val with serial := serial }
      if serial.isNone then v1.fault 0x073 (chanRegion c) c c 0 0 else v1
    else v

/-- THERMAL_CRIT (R490): two consecutive samples at or above the critical temperature. -/
def execThermalCrit (sensor : Fin 12) (t0 t1 : BitVec 32) (s : State) : Host.Outcome State Fault Refusal :=
  s.on fun v =>
    let n := sensor.val
    let crit : Int := if n < 6 then 1150 else 1050
    if v.sampling && (n < 6 || 8 ≤ n) && crit ≤ t0.toInt && crit ≤ t1.toInt then v.fault 0x0A1 7 n t1.toNat t0.toNat t1.toNat else v

/-! ### Page commits (R75 to R77, R458) -/

/-- The bell at which a commit that arrives now takes effect (R76). -/
def Dev.commitDue (v : Dev) : Nat := if v.stroke = 7 then v.now + 2 else v.now + 1

/-- A commit is requested; ignored while one is pending (R75). -/
def Dev.commit (v : Dev) (p : Nat) (owner : Option Nat) : Dev :=
  let x := v.page p
  if x.due.isSome then v else v.setPage p { x with due := some v.commitDue, owner := owner }

def chanPage (c : Nat) : Nat := 0x10000 + 0x1000 * c

/-- A CHANNEL_SET stages ENABLE and commits the page, once no commit is pending (R370, R458). -/
def Dev.stageEnable (v : Dev) (cmd c en : Nat) : Dev :=
  let o := chanPage c + 0x004
  (v.stage o (BitVec.ofNat 32 ((v.stagedCfg o).toNat % 2 ^ 31 + en * 2 ^ 31))).commit (chanPage c) (some cmd)

def ChanState.code : ChanState → Nat
  | .off => 0
  | .wait => 1
  | .ramp => 2
  | .on => 3
  | .tripped => 4
  | .lockedOff => 5
  | .shorted => 6

/-- The servo in FREE: no correction, no reference tracked; a step whose peal already has its length still comes (R67,
R68). -/
def Servo.toFree (x : Servo) : Servo :=
  { x with state := .free, freqPpb := 0, okRun := 0, badRun := 0, lostSince := none, lastSync := none, fed := none,
           refValid := false,
           stepDue := match x.stepDue with
             | some d => if d.atBell.isSome then some d else none
             | none => none }

/-- The commit of a page takes effect: its values are in force under new versions, a CHANNEL_SET completes, and the next one
goes on. -/
def Dev.takePage (v : Dev) (p : Nat) : Dev :=
  let owner := (v.page p).owner
  let v1 := (v.takeVersions p).applyPage p
  let v2 := v1.setPage p { v1.page p with owner := none }
  let v3 := if 0x10000 ≤ p && p < 0x32000 then v2.obeyEnable ((p - 0x10000) / 0x1000) else v2
  let v4 := if p = 0x5000 && v3.cfgBits 0x5004 31 30 == 0 then
      { v3 with chip := { v3.chip with servo := v3.chip.servo.toFree } }
    else v3
  match owner with
  | none => v4
  | some id =>
    let c := (p - 0x10000) / 0x1000
    let v5 := v4.finishOk id (v4.chan c).state.code (v4.chan c).tripCount 0
    match v5.floder.cmds.find? (fun y => y.opcode == 0x0410 && y.p.u8 0 % 64 == c) with
    | some y => v5.stageEnable y.id c (y.p.u8 1 % 2)
    | none => v5

/-- Commits whose bell has come take effect (R72, R76). -/
def Dev.takeDue (v : Dev) (p : Nat) : Dev :=
  match (v.page p).due with
  | some t => if t ≤ v.now then v.takePage p else v
  | none => v

/-- The channel of a channel command; none where the rule refuses it (R370). -/
def chanParam (p : Packet) (bytes1 : Nat) : Option Nat :=
  if p.u8 0 < 34 && p.u8 1 / bytes1 = 0 then some (p.u8 0) else none

/-- CHANNEL_SET (R370, R458). -/
def execChannelSet (p : Packet) (s : State) : Host.Outcome State Fault Refusal :=
  s.on fun v => v.floderRun 0x0410 p fun id v =>
    match chanParam p 2 with
    | none => v.fail id stInvalidField
    | some c => if (v.page (chanPage c)).due.isSome then v else v.stageEnable id c (p.u8 1 % 2)

/-- CHANNEL_RELEASE (R354, R366, R370, R379, R381). -/
def execChannelRelease (p : Packet) (s : State) : Host.Outcome State Fault Refusal :=
  s.on fun v => v.floderRun 0x0411 p fun id v =>
    match chanParam p 256 with
    | none => v.fail id stInvalidField
    | some c =>
      let x := v.chan c
      if !(x.state == .lockedOff || (x.state == .shorted && 4 ≤ x.shortFor)) then v.fail id stInvalidField
      else
        let next : ChanState := if v.enabled c then .wait else .off
        let v1 := v.setChan c { x with state := next, tripCount := 0, iso := false, shortFor := 0, offSince := v.now }
        let recs := v1.faults.map (fun (e : Nat × FaultRec) =>
          let r := e.2
          if srcType r.source / 16 == 7 && srcType r.source < 0x076 && srcInst r.source == c then
            (e.1, { (if x.state == .shorted then r.resetDone else r) with heldOut := false })
          else e)
        ({ v1 with faults := recs }).finishOk id next.code 0 0

end Sys2Proof.Machine
end

