-- ==== Sys2Proof/Machine/Credit.lean ====
section
/-! DEFINITION. Energy credit: measuring the hold-up modules, their health and assays, and the credit that the Keeps compute
each bell (R142 to R152). -/

namespace Sys2Proof.Machine

/-! ### Modules (R142, R143) -/

/-- The assay record of the module seated in a place (R142, R145). -/
def Dev.ecap (v : Dev) (h : Nat) : Option ECap :=
  match (v.hum h).serial with
  | none => none
  | some n => v.store.ecaps.find? (fun e => e.serial == n)

def Dev.humMv (v : Dev) (h : Nat) : Nat := (v.chan (32 + h)).vout
def Dev.vFull (v : Dev) : Nat := v.cfgBits 0x300C 31 16
def Dev.vCut (v : Dev) : Nat := v.cfgBits 0x300C 15 0
def Dev.vAssayEnd (v : Dev) : Nat := v.cfgBits 0x3010 31 16

/-- The energy of a module of a capacity at a voltage, in mJ, rounded down (R142, R151). -/
def Dev.energyAt (v : Dev) (cap mv : Nat) : Nat :=
  if v.vFull ≤ v.vCut then 0
  else min cap (cap * (mv * mv - v.vCut * v.vCut) / (v.vFull * v.vFull - v.vCut * v.vCut))

/-- E_level (R142); 0 with no E_cap on record. -/
def Dev.eLevel (v : Dev) (h : Nat) : Nat := match v.ecap h with
  | none => 0
  | some e => v.energyAt (e.cap.getD 0) (v.humMv h)

def Dev.assayInterval (v : Dev) : Nat := v.cfgBits 0x3014 31 0

/-- A module's Keep is not isolated, its channel is ON and it is seated (R143). -/
def Dev.humUp (v : Dev) (h : Nat) : Bool := (v.chan (32 + h)).seen && (v.chan (32 + h)).state == .on && v.measured (32 + h)

/-- An assay record stands within the overdue limit, its last assay passed (R71, R143, R151). -/
def Dev.assayGood (v : Dev) (e : ECap) : Bool :=
  e.cap.isSome && e.failedFor.isNone && decide (e.age < 2 * v.assayInterval * pealBells)

/-- A module is healthy (R143, R151). -/
def Dev.healthy (v : Dev) (h : Nat) : Bool :=
  v.humUp h && (v.hum h).agrees && (match v.ecap h with
    | some e => v.assayGood e
    | none => false)

/-- What a module counts for: from the bell its assay falls due, at most its projected end level (R144). -/
def Dev.counted (v : Dev) (h : Nat) : Nat :=
  if (v.hum h).assay == .idle then v.eLevel h
  else min (v.eLevel h) (match v.ecap h with | some e => v.energyAt (e.cap.getD 0) v.vAssayEnd | none => 0)

/-! ### Credit (R146 to R150) -/

/-- E_avail, in mJ (R146). -/
def Dev.eAvail (v : Dev) : Int :=
  let reserve : Int := v.cfgBits 0x3004 31 0
  match v.healthy 0, v.healthy 1 with
  | true, true => (min (v.counted 0) (v.counted 1) : Nat) - reserve
  | true, false => (v.counted 0 * v.cfgBits 0x3008 23 16 / 256 : Nat) - reserve
  | false, true => (v.counted 1 * v.cfgBits 0x3008 23 16 / 256 : Nat) - reserve
  | false, false => 0

/-- LIMIT, in grains (R146, R151). -/
def Dev.limitNow (v : Dev) : Nat :=
  let settle := v.cfgBits 0x3008 15 0
  if v.eAvail ≤ 0 then 0
  else if settle = 0 then 4194304
  else min 4194304 (v.eAvail.toNat * 262144 / settle)

/-- Grains that appends waiting on a spire still need, and grains it took in this bell (R148). -/
def Dev.demand (v : Dev) (s : Nat) : Nat :=
  if v.spireUp s then
    sumMap (fun (c : Ctx) => if c.arrival.val == s && c.phase == .waitRoom then c.grains - c.credit else 0) v.hosts.ctxs
      + Tab.getD v.store.credit.taken s 0
  else 0

/-- The allotments of R148 from the demands and the free credit. -/
def allotments (free : Nat) (d : List Nat) : List Nat :=
  let g := d.map (fun x => min x (free / 4))
  let rest := free - g.foldl (· + ·) 0
  let want := (d.zip g).foldl (fun a e => a + (e.1 - e.2)) 0
  (d.zip g).map (fun e => if want = 0 then e.2 else e.2 + min (e.1 - e.2) (rest * (e.1 - e.2) / want))

/-- CREDIT_COMPUTE (R146 to R150): in stroke 7 the Keeps compute LIMIT, OUT, the deficit and the next allotments. After a
miscompare in this bell they hold their previous outputs (R17). -/
def execCreditCompute (s : State) : Host.Outcome State Fault Refusal :=
  s.on fun v0 =>
    let v := v0.reachNs 448
    if v.mode == .held || v.chip.keeps.holdOut then v
    else
      let limit := v.limitNow
      let out := v.outGrains
      let g := allotments (limit - out) ((List.range 4).map v.demand)
      let next : Tab Nat := (List.range 4).map (fun i => (i, g.getD i 0))
      let v1 := { v with store := { v.store with credit :=
        { v.store.credit with limit := limit, out := out, deficit := decide (limit < out), next := next } } }
      if limit < out then v1.countKeep 0x10 0x003 1 else v1

/-! ### Assays (R144, R145) -/

/-- The assay of a module falls due: at once for a new module, else an interval after its last one (R143, R144, R151). -/
def Dev.assayWanted (v : Dev) (h : Nat) : Bool :=
  let u := v.hum h
  v.humUp h && u.serial.isSome && u.assay == .idle && v.assayInterval != 0 && (match v.ecap h with
    | none => decide (v.vFull ≤ v.humMv h)
    | some e => decide (v.assayInterval * pealBells ≤ e.failedFor.getD e.age))

/-- ASSAY_DUE (R144): the module is counted at its projected end level from now on. -/
def execAssayDue (h : Hum) (s : State) : Host.Outcome State Fault Refusal :=
  s.on fun v => if v.assayWanted h.val then v.setHum h.val { v.hum h.val with assay := .due } else v

/-- ASSAY_DISCHARGE_START (R144, R151, R369): charging stops and the module supplies the bus. -/
def execAssayDischargeStart (h : Hum) (s : State) : Host.Outcome State Fault Refusal :=
  s.on fun v =>
    let n := h.val
    let other := 1 - n
    let x := v.chan (32 + n)
    if (v.hum n).assay == .due && v.inputPresent && v.healthy other && !(v.hum other).assay.running && v.vCut < v.vFull
        && v.vCut < v.vAssayEnd && v.vAssayEnd < v.vFull && v.outGrains ≤ v.limitNow && v.humUp n && v.mode != .vault
        && v.mode != .fenced then
      (v.setHum n { v.hum n with assay := .discharging x.vout x.energyOut }).setChan (32 + n) { x with chg := false, dis := true }
    else v

/-- The capacity an assay finds, in mJ, rounded down; the rule gives none for a discharge that started at or below its
end voltage: then a free value (R144). -/
def Dev.assayCap (v : Dev) (startMv startUj endUj : Nat) : Nat × Dev :=
  let den := startMv * startMv - v.vAssayEnd * v.vAssayEnd
  if den = 0 then (let (f, v1) := v.free32; (f.toNat, v1))
  else ((endUj - startUj) / 1000 * (v.vFull * v.vFull - v.vCut * v.vCut) / den, v)

/-- The assay record of a module is replaced (R142). -/
def Dev.setECap (v : Dev) (e : ECap) : Dev :=
  { v with store := { v.store with ecaps := v.store.ecaps.filter (fun x => x.serial != e.serial) ++ [e] } }

/-- ASSAY_END (R144, R145): E_cap′ is computed; a pass replaces E_cap, a failure leaves the module not healthy and raises
HUM_ASSAY. -/
def execAssayEnd (h : Hum) (s : State) : Host.Outcome State Fault Refusal :=
  s.on fun v =>
    let n := h.val
    let u := v.hum n
    let x := v.chan (32 + n)
    match u.assay, u.serial with
    | .discharging mv uj, some serial =>
      if v.vAssayEnd < x.vout then v
      else
        let (cap, v1) := v.assayCap mv uj x.energyOut
        let old := v.ecap n
        let pass := decide (v.cfgBits 0x3018 31 0 ≤ cap) && (match old with
          | some e => decide (8 * e.cap.getD 0 ≤ 10 * cap)
          | none => true)
        let v2 := v1.setChan (32 + n) { x with dis := false }
        if pass then (v2.setECap ⟨serial, some cap, 0, none⟩).setHum n { u with assay := .idle, agrees := true }
        else
          let kept : ECap := match old with
            | some e => { e with failedFor := some 0 }
            | none => ⟨serial, none, 0, some 0⟩
          ((v2.setECap kept).setHum n { u with assay := .idle }).fault 0x076 (4 + n) n cap (kept.cap.getD 0) 0
    | _, _ => v

/-! ### Module bookkeeping at peals and bells -/

/-- An assay waits because the other module is not healthy: it does not count toward the overdue limit (R144). -/
def Dev.assayWaits (v : Dev) (h : Nat) : Bool := (v.hum h).assay == .due && !v.healthy (1 - h)

/-- The ages of all assay records advance by a bell (R71, R143, R144). -/
def Dev.assayBell (v : Dev) : Dev :=
  let waits (e : ECap) : Bool := [0, 1].any (fun h => v.assayWaits h && (v.hum h).serial == some e.serial)
  { v with store := { v.store with ecaps := v.store.ecaps.map (fun (e : ECap) =>
      if waits e then e else { e with age := e.age + 1, failedFor := e.failedFor.map (· + 1) }) } }

/-- At a peal boundary integrated energy is held against E_level over a peal of discharge (R143). The manual does not say when
a module whose energies disagreed counts as agreeing again: the model takes the next peal of discharge in which they agree, a
passed assay, or another module (DESIGN CHOICE, assumption log 66). -/
def Dev.humPeal (v : Dev) (h : Nat) : Dev :=
  let u := v.hum h
  let x := v.chan (32 + h)
  let level := v.eLevel h
  let out := (x.energyOut - u.pealOut) / 1000
  let fell := u.pealLevel - level
  let discharged := x.state == .on && x.dis && x.energyIn == u.pealIn && decide (0 < out)
  let diff := if out < fell then fell - out else out - fell
  v.setHum h { u with pealLevel := level, pealOut := x.energyOut, pealIn := x.energyIn,
                      agrees := if discharged then decide (10 * diff ≤ out) else u.agrees }

/-- A module that is not healthy is a faulty part; it is repaired when it is healthy (R47, R143). -/
def Dev.fixHums (v : Dev) : Dev :=
  [0, 1].foldl (fun x h =>
    let p : Part := .hum (Fin.ofNat 2 h)
    if x.healthy h then x.partRepaired p
    else if x.serving && !x.chip.unrepaired.contains p then x.partFails p
    else x) v

/-- Allotments are delivered, those not taken lapse (R148); the measured e_settle is adopted (R152, R459). -/
def Dev.creditBell (v : Dev) : Dev :=
  let k := v.store.credit
  let v1 := { v with store := { v.store with credit := { k with allot := k.next, next := [], taken := [], adopt := none } } }
  match k.adopt with
  | none => v1
  | some n =>
    let old := v1.cfgBits 0x3008 15 0
    let w := BitVec.ofNat 32 ((v1.cfg 0x3008).toNat / 65536 * 65536 + min n 65535)
    (v1.ownWrite 0x3008 w).fault 0x091 7 0 old (min n 65535) 0

/-- The energy that both modules have delivered so far, as their channels integrate it, in uJ (R367). -/
def Dev.humOut (v : Dev) : Nat := (v.chan 32).energyOut + (v.chan 33).energyOut

/-- The energy of a settle is measured (R152). -/
def Dev.measureSettle (v : Dev) (grains energyMj : Nat) : Dev :=
  if grains < 262144 then v
  else
    let m := energyMj * 262144 / grains
    let raise := v.cfgBits 0x3008 31 31 == 1 && decide (v.cfgBits 0x3008 15 0 < m)
    { v with store := { v.store with credit :=
        { v.store.credit with eSettleMeas := m, adopt := if raise then some m else v.store.credit.adopt } } }

end Sys2Proof.Machine
end

