-- ==== Sys2Proof/Machine/Counters.lean ====
section
/-! DEFINITION. Performance counters and snapshots (R434 to R444). -/

namespace Sys2Proof.Machine

/-- The events of a block class (R435). -/
def classEvents (cls : Nat) : List Nat :=
  if cls = 0x01 then [1, 2, 3, 4, 0x10, 0x11, 0x12, 0x13, 0x14, 0x15, 0x16, 0x17, 0x18, 0x19, 0x1A, 0x1B]
  else if cls = 0x02 || cls = 0x08 then [1, 2, 3, 4, 5, 6, 7, 8]
  else if cls = 0x03 || cls = 0x04 || cls = 0x07 || cls = 0x09 || cls = 0x10 || cls = 0x11 then [1, 2, 3]
  else if cls = 0x05 || cls = 0x06 then [1, 2, 3, 4]
  else []

/-- An event that may be selected at a block: one of its class, or event 0, which selects nothing (R435). -/
def eventOk (block ev : Nat) : Bool :=
  ev % 1024 == 0 || (ev / 1024 == block / 16 && (classEvents (block / 16)).contains (ev % 1024))

def Dev.counter (v : Dev) (key : Nat) : Counter := Tab.getD v.pmon.counters key .reset

def Dev.setCounter (v : Dev) (key : Nat) (c : Counter) : Dev :=
  { v with pmon := { v.pmon with counters := Tab.set v.pmon.counters key c } }

/-- A selection made now waits for the next bell (R437); PMON_SELk.EVENT reads what was written, also where that acts as event 0
(R5, R435). -/
def Dev.selectCounter (v : Dev) (key : Nat) (ev shown : Nat) (cmd : Option Nat) : Dev :=
  let c := v.counter key
  v.setCounter key { c with next := some (BitVec.ofNat 16 ev, v.now), shown := BitVec.ofNat 16 shown, cmds := c.cmds ++ (match cmd with | some x => [x] | none => []) }

/-! ### Snapshots (R439 to R441) -/

/-- Regions that are read: spires in service or parked, Keeps that are sound (R438, R441). -/
def Dev.regionValid (v : Dev) (r : Nat) : Bool :=
  if r < 4 then v.spireShown r else if r = 4 then v.keepSound .A else r == 5 && v.keepSound .B

/-- Snapshot slots of the counted blocks of a region, as slot and block number (R434). -/
def regionBlocks (r : Nat) : List (Nat × Nat) :=
  if r < 4 then [(0, 0x10), (1, 0x11), (2, 0x20), (3, 0x30), (4, 0x40), (5, 0x50), (6, 0x51), (7, 0x52), (8, 0x53), (9, 0x60),
    (10, 0x70), (11, 0x80), (12, 0x90)]
  else [(0, 0x100), (1, 0x110)]

/-- The 8 B counter entry of a record (R441). -/
def counterEntry (c : Counter) : List Byte :=
  leBytes 8 (c.value.toNat + (c.event.toNat % 1024) * 2 ^ 48 + b2n c.ovf * 2 ^ 62 + 2 ^ 63)

/-- The 64 B of one snapshot slot. -/
def Dev.slotBytes (v : Dev) (r block : Nat) : List Byte :=
  (List.range 8).flatMap (fun k => counterEntry (v.counter (counterKey r block k)))

/-- The 8 KiB record of a snapshot (R441), `ahead` bells after the present one. -/
def Dev.snapRecord (v : Dev) (seq ahead : Nat) : List Byte :=
  let valid := sumMap (fun r => if v.regionValid r then 2 ^ r else 0) (List.range 6)
  let head := leBytes 4 0x50414E53 ++ leBytes 4 seq ++ leBytes 8 ((v.clk.bell + ahead) * 512) ++ leBytes 2 v.step16.toNat
    ++ leBytes 2 valid ++ (List.range 6).map (fun r => BitVec.ofNat 8 (Tab.getD v.pmon.resetCount r 0)) ++ zeros 6
    ++ leBytes 8 (v.clk.elapsed + ahead) ++ zeros 24
  let body := (List.range 6).flatMap (fun r => padTo 1024 (if v.regionValid r then
    (List.range 13).flatMap (fun j => match (regionBlocks r).find? (fun e => e.1 == j) with
      | some (_, b) => v.slotBytes r b
      | none => zeros 64) else []))
  padTo 8192 (head ++ body)

/-- A snapshot is requested; all requests of one bell share it (R439). -/
def Dev.askSnapshot (v : Dev) (buf : Bool) (cmd : Option Nat) : Dev :=
  let s := v.pmon.snap
  { v with pmon := { v.pmon with snap :=
    { s with asked := some (s.asked.getD v.now), toBuffer := s.toBuffer || buf,
             cmds := s.cmds ++ (match cmd with | some x => [x] | none => []) } } }

/-- The buffer of PF1 can be written (R428, R440, R444). -/
def Dev.bufferOn (v : Dev) : Bool :=
  v.cfgBits 0x400000C 31 31 == 1 && v.mode != .vault && v.mode != .fenced && !v.ep.frozen && v.ep.pf1.canIssue

/-- The copy at the bell after the request (R439, R440). -/
def Dev.takeSnapshot (v : Dev) : Dev :=
  let s := v.pmon.snap
  let seq := (s.seq + 1) % 2 ^ 32
  let ahead := b2n (s.asked == some v.now)
  let bell := v.clk.bell + ahead
  let cs := v.pmon.counters.map (fun (e : Nat × Counter) =>
    if v.regionValid (e.1 / 4096) then (e.1, { e.2 with shadow := e.2.value, shadowOvf := e.2.ovf }) else e)
  let queue := s.toBuffer && v.bufferOn && decide (s.pendingWrites.length < 2)
  let skip := s.toBuffer && !queue
  let s1 : Snapshots := { s with
    asked := none, toBuffer := false, cmds := [], seq := seq
    pendingWrites := if queue then s.pendingWrites ++ [(seq, v.snapRecord seq ahead)] else s.pendingWrites
    skipped := if skip then satAdd 0xFFFF s.skipped 1 else s.skipped }
  let v1 := { v with pmon := { v.pmon with counters := cs, snap := s1 } }
  s.cmds.foldl (fun x id => x.finishOk id (bell % 2 ^ 32) (bell / 2 ^ 32 % 2 ^ 23) seq) v1

/-- The snapshot of an earlier bell is due. -/
def Dev.snapDue (v : Dev) : Bool := match v.pmon.snap.asked with
  | some t => v.atBell (t + 1)
  | none => false

/-- A counter takes the selection made in an earlier bell: zeroed, its OVF cleared (R437). -/
def Dev.applySelection (v : Dev) (key : Nat) : Dev :=
  let c := v.counter key
  match c.next with
  | some (ev, t) =>
    if v.atBell (t + 1) then
      c.cmds.foldl (fun x id => x.finishOk id c.event.toNat 0 0)
        (v.setCounter key { c with event := ev, value := 0, ovf := false, next := none, cmds := [] })
    else v
  | none => v

/-- The work of a boundary on counters, in the order of R437: the snapshot first, then the selections. -/
def Dev.counterBell (v : Dev) : Dev :=
  let v1 := if v.snapDue then v.takeSnapshot else v
  (v1.pmon.counters.map (·.1)).foldl (fun x k => x.applySelection k) v1

/-- A reset of a level clears the counters of its blocks and counts in RESET_COUNT (R438). -/
def Dev.resetCounters (v : Dev) (region : Nat) (blocks : List Nat) : Dev :=
  let gone (key : Nat) : Bool := key / 4096 == region && blocks.contains (key % 4096 / 8)
  let cmds := (v.pmon.counters.filter (fun e => gone e.1)).flatMap (·.2.cmds)
  let v1 := { v with pmon := { v.pmon with
    counters := v.pmon.counters.filter (fun e => !gone e.1)
    resetCount := Tab.modify v.pmon.resetCount region 0 (fun n => (n + 1) % 256) } }
  cmds.foldl (fun x id => x.fail id stAborted) v1

/-! ### Commands -/

/-- The counter that a SOURCE and bytes 4 name; none for a SOURCE that is no block's BLOCK_FAULT record (R434). -/
def counterParam (p : Packet) : Option (Nat × Nat) :=
  let src := BitVec.ofNat 32 (p.u32 0)
  if srcType src = 0x011 && (sourceClass src).isSome then some (srcInst src, counterKey (srcRegion src) (srcInst src) (p.u8 4 % 8))
  else none

/-- COUNTER_SELECT (R437): completes at the bell at which the selection takes effect. -/
def execCounterSelect (p : Packet) (s : State) : Host.Outcome State Fault Refusal :=
  s.on fun v => v.floderRun 0x0601 p fun id v =>
    match counterParam p with
    | none => v.fail id stInvalidField
    | some (b, key) => if eventOk b (p.u16 6) then v.selectCounter key (p.u16 6) (p.u16 6) (some id) else v.fail id stInvalidField

/-- The counter register that an offset names: region, block, and offset in the group (R443). -/
def pmonAt (off : Nat) : Option (Nat × Nat × Nat) :=
  if off < 0x100000 || 0x280000 ≤ off then none
  else
    let r := (off - 0x100000) / 0x40000
    let b := (off - 0x100000) % 0x40000 / 0x100
    let o := off % 0x100
    if blockOf r b && o % 4 == 0 && (o < 0x20 || (0x40 ≤ o && o < 0xC0)) then some (r, b, o) else none

/-- A write of a PMON_SEL register: an event the block does not list acts as event 0 (R435, R437, R443). -/
def Dev.writePmon (v : Dev) (off : Nat) (w : Word) : Dev :=
  match pmonAt off with
  | some (r, b, o) =>
    if o < 0x20 then
      let key := counterKey r b (o / 4)
      let ev := w.toNat % 65536
      let v1 := if bit w.toNat 31 then v.setCounter key { v.counter key with ovf := false } else v
      v1.selectCounter key (if eventOk b ev then ev else 0) ev none
    else v
  | none => v

/-- PMON_SEL_WRITE (R437, R443). -/
def execPmonSelWrite (off : Nat) (value : Word) (s : State) : Host.Outcome State Fault Refusal :=
  s.on fun v => if v.mode == .held then v else v.writePmon off value

/-- COUNTER_SELECTION_APPLY (R437). -/
def execCounterSelectionApply (region block k : Nat) (s : State) : Host.Outcome State Fault Refusal :=
  s.on fun v =>
    let v1 := if v.snapDue then v.takeSnapshot else v
    if k < 8 then v1.applySelection (counterKey region block k) else v

/-- COUNTER_READ (R412). -/
def execCounterRead (p : Packet) (s : State) : Host.Outcome State Fault Refusal :=
  s.on fun v => v.floderRun 0x0602 p fun id v =>
    match counterParam p with
    | none => v.fail id stInvalidField
    | some (_, key) =>
      let c := v.counter key
      v.finishOk id (c.value.toNat % 2 ^ 32) (c.value.toNat / 2 ^ 32 + b2n c.ovf * 2 ^ 31) 0

/-- SNAPSHOT (R439). -/
def execSnapshot (p : Packet) (s : State) : Host.Outcome State Fault Refusal :=
  s.on fun v => v.floderRun 0x0603 p fun id v => v.askSnapshot (bit (p.u8 0) 0) (some id)

/-- SNAPSHOT_COPY (R439). -/
def execSnapshotCopy (s : State) : Host.Outcome State Fault Refusal :=
  s.on fun v => if v.snapDue then v.takeSnapshot else v

/-- Host address of the buffer slot of a sequence number: bits 12:0 of the base are ignored (R441, R444). -/
def Dev.slotAddr (v : Dev) (seq : Nat) : BitVec 64 :=
  let base := v.cfgBits 0x4000004 31 0 / 8192 * 8192 + v.cfgBits 0x4000008 31 0 * 2 ^ 32
  BitVec.ofNat 64 (base + 8192 * (seq % 2 ^ (min 12 (v.cfgBits 0x400000C 27 24))))

/-- SNAPSHOT_BUFFER_WRITTEN (R440, R441): the oldest pending record is in its slot; PF1 vector 0 is raised. -/
def execSnapshotBufferWritten (s : State) : Host.Outcome State Fault Refusal :=
  s.on fun v =>
    match v.pmon.snap.pendingWrites with
    | [] => v
    | (seq, b) :: rest =>
      if v.bufferOn then
        let v1 := { v with pmon := { v.pmon with snap := { v.pmon.snap with pendingWrites := rest, lastSeq := seq } } }
        (v1.emit (.snapshotRecord (v.slotAddr seq) b)).raiseVec .pf1 0
      else v

end Sys2Proof.Machine
end

