-- ==== Sys2Proof/Machine/Modes.lean ====
section
/-! DEFINITION. The operating modes: freezing and discarding, warm and cold resets, entering and leaving SURVEY, service,
DRAIN, VAULT and FENCED, and the order in which mode events are taken (R84 to R87, R94 to R105, R160 to R168, R385, R386,
R410, R460, R492). -/

namespace Sys2Proof.Machine

/-! ### Freezing (R87, R98, R100, R492) -/

/-- Appends held and waiting for their settle complete with their record; the completion itself is not sent (R100). -/
def Dev.recordWaiters (v : Dev) : Dev :=
  (v.hosts.ctxs.filter (fun c => c.phase == .heldWaitSettle)).foldl (fun x c =>
    x.completeCtx c stOk false c.offset c.msg.cap.length.toNat c.grains) v

/-- Commands that are not held, untallied work, messages received and entries not issued are discarded (R98, R100,
R492). -/
def Dev.discardWork (v : Dev) : Dev :=
  let v1 := ((v.hosts.ctxs.map (·.id)).foldl (fun x id => x.dropUnheld id) v).recordWaiters
  let v2 := (v1.hosts.reads.flatMap (·.ops)).foldl (fun x o => x.dropOp o) v1
  let ss := v2.hosts.sessions.map (fun (e : Nat × Session) => (e.1, { e.2 with built := [] }))
  { v2 with
    hosts := { v2.hosts with reads := [], flushes := [], dups := [], inbox := [], sessions := ss }
    chip := { v2.chip with drain := { v2.chip.drain with waiting := [] } }
    floder := { v2.floder with inbox := [] } }

/-- Ingress is frozen, within a stroke of the event (R87). -/
def Dev.freeze (v : Dev) : Dev := ({ v with chip := { v.chip with frozenIn := true } }).discardWork

/-- Every Floder command started, every element posted and every reply not yet written ends without a reply (R410). -/
def Dev.endFloder (v : Dev) : Dev :=
  let chains := v.hosts.chains.map (fun (e : Nat × ChainQ) => (e.1, { e.2 with
    elements := [], running := none, waitOn := none, finished := none,
    state := if e.2.state == .error then ChainState.error else ChainState.running }))
  let ss := v.hosts.sessions.map (fun (e : Nat × Session) => (e.1, { e.2 with
    closing := none,
    contexts := e.2.contexts.filter (fun c => match c.kind with | .tagWait _ _ => false | _ => true) }))
  { v with
    sec := { v.sec with act := .idle, actCmd := none }
    hosts := { v.hosts with chains := chains, sessions := ss }
    store := { v.store with scans := [], ops := v.store.ops.filter (fun o => match o.use with | .scan _ _ => false | _ => true) }
    floder := { v.floder with cmds := [], replies := [], warmAsked := none } }

/-! ### The mode (R84, R87, R455) -/

/-- The mode changes: its stamp is taken, and while transport runs every session has a NOTICE (R124, R455). -/
def Dev.setMode (v : Dev) (m : Mode) : Dev :=
  let v1 := { v with chip := { v.chip with mode := { v.chip.mode with mode := m, stamp := v.stamp, stampStep := v.step16 } } }
  if v1.transportOn then v1.noticeAll 0x03 v1.status else v1

/-- The journal is opened at the start of SERVICE or DEGRADED, on bays that serve (R183, R184; assumption log 79). -/
def Dev.openJournal (v0 : Dev) : Dev :=
  if v0.store.journal.isOpen then v0
  else
    let v := (v0.store.journal.bays.filter (fun b => (v0.bay b).state != .serving)).foldl (fun x b => x.replaceJournal b) v0
    let v1 := (v.journal .open_).2
    { v1 with store := { v1.store with journal := { v1.store.journal with isOpen := true } } }

/-- SERVICE where no part is faulty or missing and no stripe is below full redundancy, else DEGRADED (R85). -/
def Dev.servingMode (v : Dev) : Mode := if v.chip.unrepaired.isEmpty then .service else .degraded

/-- SERVICE or DEGRADED is entered: records age again (R101). -/
def Dev.enterServing (v : Dev) : Dev :=
  let v1 := { v with clk := { v.clk with ages := true } }
  v1.openJournal.setMode v1.servingMode

/-- The guard of leaving SURVEY (R85). -/
def Dev.mayServe (v : Dev) : Bool :=
  v.chip.survey.complete && v.sec.lifecycle == .provisioned && v.sec.debug != .open_ && v.store.layout.set

/-! ### Warm chip reset (R98, R410, R460, R461) -/

/-- Registers after a warm chip reset: RWS values stay in force, nothing stays staged (R460, R461). -/
def RegFile.warm (r : RegFile) : RegFile :=
  { RegFile.reset with active := r.active.filter (fun e => match cfgDesc e.1 with | some d => d.sticky | none => false) }

/-- Paths at the freeze: every path is HELD, its unacknowledged ring writes are kept for re-issue, the packets that
carried them replaced by writes of length 0 (R237). -/
def Dev.holdAll (v : Dev) : Dev :=
  let hold (p : Path) : Path :=
    { p with state := .held, heldAt := if p.state == .held then p.heldAt else v.clk.aging, notifyUnacked := false }
  let v1 := { v with hosts := { v.hosts with
    sessions := v.hosts.sessions.map (fun (e : Nat × Session) => (e.1, { e.2 with paths := e.2.paths.map hold }))
    qps := v.hosts.qps.map (fun (e : Nat × Qp) => (e.1, { e.2.heldWrites with waiting := [] })) } }
  let gone := (v1.hosts.qps.filter (fun e => match v1.session e.2.session with
    | some s => s.pathHold == 0
    | none => true)).map (·.1)
  gone.foldl (fun x q => x.releaseQp q) v1

/-- A journal block as replay finds it: with a copy that was complete; where none was, it is found or not, a free value (R94,
R183). -/
def Dev.replayBlock (v : Dev) (seq : Nat) : Dev :=
  match v.store.journal.blocks.find? (fun b => b.seq == seq && !b.complete) with
  | none => v
  | some b =>
    let (f, v1) := if decide (b.left.length < 3) then (true, v) else v.freeBool
    let j := v1.store.journal
    let blocks := if f then updFirst (fun (x : JournalBlock) => x.seq == seq) (fun x => { x with left := [], complete := true }) j.blocks
      else j.blocks
    { v1 with store := { v1.store with journal := { j with blocks := blocks } } }

/-- Settle writes stop; a stripe whose STRIPE record replay finds is clean, every other grain stays dirty and is placed again later
(R98, R183). -/
def Dev.stopSettling (v : Dev) : Dev :=
  let found (x : Dev) (p : Pending) : Dev := match p.rec_, p.writes, p.journal with
    | some r, [], some seq => (x.replayBlock seq).cleanStripe r.id
    | _, _, _ => x
  let v1 := v.store.pend.foldl found v.stopJobs
  { v1 with store := { v1.store with
    pend := []
    ops := []
    quar := []
    grains := v1.store.grains.map (fun (g : Grain) => { g with stripe := none }) } }

/-- Bays lose their links and enumeration; a FAILED bay keeps its state (R95, R98, R190). -/
def BayRec.warm (b : BayRec) : BayRec :=
  { b with state := if b.state == .failed then .failed else .absent, upA := false, upB := false, activeB := false,
           sanitizing := none, ioA := 0, ioB := 0 }

/-- The layout and the journal bays as the bay labels of this shelf record them: ROWS 0 and bays 0, 11 and 22 where none does; SURVEY
takes them from the labels of the SERVING bays (R173). -/
def Store.fromLabels (s : Store) : Store :=
  let labels := s.bays.filterMap (fun (e : Nat × BayRec) => match e.2.label with
    | some l => if l.shelf == Config.shelfIdentity && l.bay == e.1 && l.rows != 0 && !e.2.stale then some l else none
    | none => none)
  match labels with
  | l :: _ => { s with layout := { s.layout with rows := l.rows, spareRows := l.spareRows, set := true }
                       journal := { s.journal with bays := l.journal } }
  | [] => { s with layout := ⟨0, 0, false, s.layout.used⟩, journal := { s.journal with bays := [0, 11, 22] } }

/-- Parts that a warm chip reset returns to service; drives, and stripes below full redundancy, are not among them. -/
def warmKeeps : Part → Bool
  | .bay _ => true
  | .stripe _ => true
  | _ => false

/-- Grants and windows not yet live go; a pending key load counts from now on; other updates that wait are gone. -/
def Dev.dropUpdates (v : Dev) : Dev :=
  let loads := v.hosts.updates.filter (fun u => u.act == .keyUsable)
  let v1 := loads.foldl (fun x u => x.applyUpdate u) v
  let ws := (v1.hosts.windows.filter (fun e => !e.2.usable)).map (·.1)
  let v2 := ws.foldl (fun x w => x.freeWindow w) v1
  { v2 with hosts := { v2.hosts with updates := [] } }

/-- The part of the security state that BOOT starts from: the level is CLOSED (R339, R342). -/
def Security.warm (s : Security) : Security :=
  { s with debug := .closed, nextDebug := none, challenge := none, act := .idle, actCmd := none, p3 := false,
           standbyAsked := false }

/-- A warm chip reset (R98): the device enters BOOT with WARM set. -/
def Dev.warmReset (v0 : Dev) : Dev :=
  let vaulted := v0.mode == .vault
  let inBoot := v0.mode == .boot
  let v := v0.freeze.endFloder.stopSettling.dropUpdates
  let ws := if vaulted then v.hosts.windows.map (·.1) else []
  let v1 := ws.foldl (fun x w => x.freeWindow w) v
  let qs := if vaulted then v1.hosts.qps.map (·.1) else []
  let v2 := (qs.foldl (fun x q => x.releaseQp q) v1).holdAll
  let keeps : Keeps := ⟨KeepRec.reset, KeepRec.reset, false⟩
  let b := v2.chip.boot
  let boot : Boot := { Boot.reset with
    image := v2.sec.preferred, warm := true, cold := b.cold, since := v2.now
    imageFails := if inBoot && b.image == v2.sec.preferred then b.imageFails else 0
    failures := if inBoot then b.failures else 0, dirtyAtStart := if inBoot then b.dirtyAtStart else decide (0 < v2.dirty)
    wantVault := inBoot && b.wantVault }
  let chip := { v2.chip with
    servo := { v2.chip.servo.toFree with offsetNs := 0 }
    boot := boot
    survey := ⟨false, false, 0⟩
    drain := Drain.reset
    vault := Vault.reset
    frozenIn := true
    syncOut := false
    unrepaired := v2.chip.unrepaired.filter warmKeeps
    exposure := ⟨false, 0, false⟩
    keeps := keeps
    spires := []
    rng := Rng.reset }
  let pmon : Pmon := { Pmon.reset with
    resetCount := (List.range 6).map (fun r => (r, (Tab.getD v2.pmon.resetCount r 0 + 1) % 256)) }
  let hosts := { v2.hosts with
    grants := [], scheds := [], egress := []
    ports := v2.hosts.ports.map (fun (e : Nat × NetPort) => (e.1, { NetPort.reset with
      breakout := e.2.breakout, vlan := e.2.vlan, ipv4 := e.2.ipv4, ipv6 := e.2.ipv6, mac := e.2.mac }))
    sessions := v2.hosts.sessions.map (fun (e : Nat × Session) => (e.1, { e.2 with built := [], consumerBusy := false })) }
  let store := { v2.store with
    credit := { Credit.reset with eSettleMeas := v2.store.credit.eSettleMeas }
    hums := v2.store.hums.map (fun (e : Nat × HumState) => (e.1, { e.2 with assay := .idle }))
    bays := v2.store.bays.map (fun (e : Nat × BayRec) => (e.1, e.2.warm))
    journal := { v2.store.journal with checking := none }
    crcEvent := [], moved := [] }
  let faults := v2.faults.map (fun (e : Nat × FaultRec) => (e.1, { e.2 with heldOut := false, clearing := none, recent := [] }))
  let v3 := { v2 with
    clk := { v2.clk with ages := false }
    chip := chip, hosts := hosts, store := store.fromLabels, faults := faults, pmon := pmon
    regs := v2.regs.warm
    hf := Headframe.reset
    spireLeases := []
    ciphers := []
    sec := v2.sec.warm
    chans := v2.chans.map (fun (e : Nat × Channel) => (e.1, { e.2 with perstRel := false, dis := false }))
    recov := []
    floder := Floder.reset
    ep := { Endpoint.reset with ctoUs := v2.ep.ctoUs } }
  v3.setMode .boot

/-! ### HELD (R85, R95, R112) -/

/-- A session as its descriptor alone makes it (R112). -/
def Session.fresh (s : Session) : Session :=
  { s with floor := s.initialFloor, tallies := [], anchor := none, ringVa := 0, ringEntries := 0, nextSeq := 0,
           consumed := 0, consumerBusy := false, polledAt := none, built := [], issued := [], noticeNum := 0,
           noticeLost := 0, grantCounter := 0, contexts := [], unexpected := [], spent := [], paths := [],
           connKey := none, closing := none }

/-- A bay before power returns: what its drive and the map hold stays. -/
def BayRec.cold (b : BayRec) : BayRec :=
  { BayRec.reset with label := b.label, generation := b.generation, stale := b.stale, sanitize := b.sanitize }

/-- HELD is entered: everything is lost but the drives' contents and Keep non-volatile storage (R85, R95, R112). -/
def Dev.enterHeld (v0 : Dev) : Dev :=
  let v := v0.stopSettling
  let chip := { Chip.reset with
    boot := { Boot.reset with image := v.sec.preferred }
    markerSeq := v.chip.markerSeq, recordImage := v.chip.recordImage, imageAt := v.chip.imageAt
    unrepaired := v.chip.unrepaired.filter (fun p => match p with | .stripe _ => true | _ => false) }
  let hosts := { Hosts.reset with
    claims := v.hosts.claims
    sessions := v.hosts.sessions.map (fun (e : Nat × Session) => (e.1, e.2.fresh))
    extents := v.hosts.extents.map (fun (e : Extent) => { e with version := 0, lastHeld := 0 }) }
  let store := { Store.reset with
    ecaps := v.store.ecaps
    credit := { Credit.reset with eSettleMeas := v.store.credit.eSettleMeas }
    layout := v.store.layout
    stripes := v.store.stripes
    stripeSeq := v.store.stripeSeq
    drives := v.store.drives
    markers := v.store.markers
    bays := v.store.bays.map (fun (e : Nat × BayRec) => (e.1, e.2.cold))
    journal := { v.store.journal with checking := none }
    pages := v.store.pages
    pageSeq := v.store.pageSeq
    rebuilds := v.store.rebuilds }
  { Dev.reset with
    chip := chip, hosts := hosts, store := store.fromLabels
    keySlots := v.keySlots.map (fun (e : Nat × KeySlot) => (e.1, { KeySlot.reset with generation := e.2.generation }))
    leases := v.leases
    sec := { Security.reset with
      fuseA := v.sec.fuseA, fuseB := v.sec.fuseB, floor := v.sec.floor, kek := v.sec.kek, ownerKey := v.sec.ownerKey,
      keyEpoch := v.sec.keyEpoch, imageA := v.sec.imageA, imageB := v.sec.imageB, preferred := v.sec.preferred }
    out := v.out, freeTick := v.freeTick, nextId := v.nextId }

/-! ### Replay (R94, R104, R166 to R168) -/

/-- A tally as the record image holds it: its record's `ends` counts the life that remains (R162). -/
def TallyState.toImage (aging : Nat) : TallyState → TallyState
  | .recorded r => .recorded { r with ends := r.ends - aging }
  | x => x

/-- A tally as it returns from the record image: its record lives for what remained (R101, R166). -/
def TallyState.fromImage (aging : Nat) : TallyState → TallyState
  | .recorded r => .recorded { r with ends := r.ends + aging }
  | x => x

/-- What the record image holds of a session (R162). -/
def Session.toImage (s : Session) (aging : Nat) : SessionImage :=
  ⟨s.claim, s.anchor, s.ringVa, s.ringEntries, s.nextSeq, s.floor, s.tallies.map (fun (e : Nat × TallyState) => (e.1, e.2.toImage aging))⟩

/-- The record image is on its bays (R103, R160, R162). -/
def Dev.writeImage (v : Dev) : Dev :=
  let img := v.hosts.sessions.map (fun (e : Nat × Session) => (e.1, e.2.toImage v.clk.aging))
  { v with chip := { v.chip with recordImage := some img } }

/-- The journal bays that serve: where markers and the record image are written (R162, R163). -/
def Dev.journalServing (v : Dev) : List Nat := v.store.journal.bays.filter (fun b => (v.bay b).state == .serving)

/-- The record image is written to the journal bays. The manual gives no place for it within its area, nor its length: free values
within that area (R162, R172). The model writes it as one operation a bay (DESIGN CHOICE, assumption log 84). -/
def Dev.startImage (v : Dev) : Dev :=
  let (f, v1) := v.free32
  let (g, v2) := v1.free32
  let lba := 262144 + f.toNat % 131072
  let n := 1 + g.toNat % (393216 - lba)
  v2.journalServing.foldl (fun x b => (x.issueOp b (x.activePort b) lba n .write .image []).2)
    { v2 with chip := { v2.chip with imageAt := (lba, n) } }

/-- No write of a kind is outstanding. -/
def Dev.written (v : Dev) (use : OpUse) : Bool := !v.store.ops.any (fun o => o.use == use)

/-- A session as it returns from the record image: with no path, its ring going on from the sequence number held (R166). -/
def Session.fromImage (s : Session) (x : SessionImage) (aging : Nat) : Session :=
  { s.fresh with
    anchor := x.anchor, ringVa := x.ringVa, ringEntries := x.ringEntries, nextSeq := x.nextSeq, consumed := x.nextSeq, floor := x.floor
    tallies := x.tallies.map (fun (e : Nat × TallyState) => (e.1, e.2.fromImage aging)) }

/-- Sessions return from the record image; one that is not in it starts fresh (R112, R166). -/
def Dev.restoreImage (v : Dev) : Dev :=
  let img := v.chip.recordImage.getD []
  { v with hosts := { v.hosts with sessions := v.hosts.sessions.map (fun (e : Nat × Session) =>
      match Tab.get img e.1 with
      | some x => (e.1, if x.claim = e.2.claim then e.2.fromImage x v.clk.aging else e.2.fresh)
      | none => (e.1, e.2.fresh)) } }

/-! ### Markers (R104, R163, R166, R205) -/

/-- The 4,096 B block of a marker (R163). -/
def Marker.block (m : Marker) : List Byte :=
  let head := leBytes 4 0x4B524D56 ++ leBytes 2 1 ++ leBytes 2 m.flags.toNat ++ leBytes 8 m.seq ++ leBytes 8 m.stamp
    ++ leBytes 2 m.step.toNat ++ zeros 2 ++ leBytes 4 m.grainsSettled ++ leBytes 8 m.journalTail ++ leBytes 8 m.imageLba
    ++ leBytes 4 m.imageBlocks ++ leBytes 4 m.energyMj
  padTo 4096 (head ++ leBytes 8 (crcOf crc64 head))

/-- The marker that a block holds; none where its MAGIC, FORMAT or CRC64 is not that of a marker (R163, R166). -/
def Marker.read (b : List Byte) : Option Marker :=
  if field b 0 4 == 0x4B524D56 && field b 4 2 == 1 && field b 56 8 == crcOf crc64 (slice b 0 56) then
    some ⟨BitVec.ofNat 16 (field b 6 2), field b 8 8, field b 16 8, BitVec.ofNat 16 (field b 24 2), field b 28 4, field b 32 8,
      field b 40 8, field b 48 4, field b 52 4⟩
  else none

/-- Sequence number of the last record of a kind in the journal ring. -/
def Journal.last (j : Journal) (r : JournalRec) : Option Nat :=
  j.blocks.foldl (fun a b => if b.rec_ == r then some b.seq else a) none

/-- The marker that SURVEY goes by: of the copies on the journal bays the valid one of the highest SEQ whose JOURNAL_TAIL is
a close record of the journal, and that is newer than the last open record (R166). -/
def Dev.marker (v : Dev) : Option Marker :=
  let j := v.store.journal
  let opened := (j.last .open_).getD 0
  let good (m : Marker) : Bool :=
    j.blocks.any (fun b => b.rec_ == .close && b.seq == m.journalTail) && decide (opened ≤ m.journalTail)
  let ms := (j.bays.filterMap (fun b => (Tab.get v.store.markers b).bind Marker.read)).filter good
  ms.foldl (fun a m => match a with
    | some x => if x.seq < m.seq then some m else a
    | none => some m) none

/-- End of the run of published stripes from an offset on (R168). -/
def prefixEnd : Nat → List RunGrain → Nat → Nat
  | 0, _, cur => cur
  | n + 1, rs, cur => match rs.find? (fun r => r.offset == cur && r.valid != 0) with
    | some r => prefixEnd n rs (cur + r.valid)
    | none => cur

/-- The grains of an extent in published stripes. -/
def Dev.runsOf (v : Dev) (claim : Nat) (key : BitVec 128) : List RunGrain :=
  v.store.stripes.flatMap (fun t => if t.dead then [] else t.runs.filter (fun (r : RunGrain) => r.claim == claim && r.key == key))

/-- An EXTENT record that is not found: its extent stands as the record before it left it (R94, R183). -/
def Dev.replayRecord (v0 : Dev) (b : JournalBlock) : Dev :=
  let v1 := v0.replayBlock b.seq
  let found := v1.store.journal.blocks.any (fun x => x.seq == b.seq && x.complete)
  match b.rec_ with
  | .extent c k st _ =>
    if found then v1
    else
      let older := v1.store.journal.blocks.filter (fun x => decide (x.seq < b.seq) && x.complete)
      let before := older.foldl (fun (a : Option ExtState) x => match x.rec_ with
        | .extent c2 k2 s2 _ => if c2 == c && k2 == k then s2 else a
        | _ => a) none
      match st with
      | some .open_ => { v1 with hosts := { v1.hosts with extents := v1.hosts.extents.filter (fun e => !e.is c k) } }
      | none => v1.adjExt c k (fun e => { e with journaled := false })
      | _ => v1.adjExt c k (fun e => { e with heldSt := some (before.getD .open_) })
  | _ => v1

/-- The map as the journal alone gives it: each extent ends with its last journaled stripe (R168). -/
def Dev.replayJournal (v0 : Dev) : Dev :=
  let v := v0.store.journal.blocks.foldl (fun x b => x.replayRecord b) v0
  let fix (e : Extent) : Extent :=
    let rs := v.runsOf e.claim e.key
    let n := prefixEnd rs.length rs 0
    { e with len := n, assigned := n, st := e.heldSt.getD e.st, grains := rs.length }
  let kept := v.hosts.extents.filter (fun e => e.heldSt.isSome)
  let cut := (kept.filter (fun e => decide ((fix e).len < e.len))).length
  let es := kept.map fix
  let claims := v.hosts.claims.map (fun (e : Nat × ClaimEntry) => (e.1, { e.2 with
    charged := sumMap (fun (x : Extent) => if x.claim = e.1 then x.grains else 0) es }))
  let j := v.store.journal
  let opened := j.blocks.foldl (fun a b => match b.rec_ with | .open_ => b.seq | _ => a) 0
  let vault := j.blocks.any (fun b => b.rec_ == .vault && decide (opened ≤ b.seq))
  let v1 := { v with
    hosts := { v.hosts with extents := es, claims := claims }
    store := { v.store with journal := { j with blocks := j.blocks.filter (·.complete), isOpen := false } } }
  if vault then v1.fault 0x092 7 0 cut 0 0 else v1

/-- The stores are replayed as SURVEY begins: after VAULT, and on a cold start after a clean shutdown, from the marker and
the record image; on a cold start with no marker from the journal alone (R94, R104, R166, R168). -/
def Dev.replay (v : Dev) : Dev :=
  let v1 := match v.marker with
    | some m =>
      let v2 := { v with store := { v.store with journal := { v.store.journal with isOpen := false } } }
      if v.chip.boot.cold || !bit m.flags.toNat 9 then v2.restoreImage else v2
    | none => if v.chip.boot.cold then v.replayJournal else v
  { v1 with chip := { v1.chip with boot := { v1.chip.boot with cold := false } } }

/-! ### SURVEY (R85, R94, R238, R252, R379) -/

/-- Whether the unit of a fault source is in service as SURVEY begins (R379). -/
def Dev.unitBack (v : Dev) (src : BitVec 32) : Bool :=
  let r := srcRegion src
  if r < 4 then v.spireUp r else if r = 4 then v.keepSound .A else if r = 5 then v.keepSound .B else true

/-- Sources whose state a warm chip reset keeps: hot-swap channels and bays (R379). -/
def keptByWarm (src : BitVec 32) : Bool :=
  let t := srcType src
  (0x070 ≤ t && t < 0x076) || t == 0x041 || ((t == 0x050 || t == 0x051 || t == 0x052) && srcRegion src == 7)

/-- The completion of the reset that SEVERE calls for, by a warm chip reset (R379). -/
def Dev.severeDone (v : Dev) : Dev :=
  let done_ (r : FaultRec) : Bool := r.cls == 3 && !keptByWarm r.source && v.unitBack r.source
  let v1 := { v with faults := v.faults.map (fun (e : Nat × FaultRec) => if done_ e.2 then (e.1, e.2.resetDone) else e) }
  v.faults.foldl (fun x e => match Tab.get v1.faults e.1 with
    | some n => x.noteFault e.2 n
    | none => x) v1

/-- Spires as BOOT leaves them: in service with the key copies re-sent, or missing with their roles at the partner. -/
def Dev.startSpires (v : Dev) : Dev :=
  let miss := v.chip.boot.spireMissing.toNat
  let one (x : Dev) (s : Nat) : Dev :=
    if bit miss s then
      ((x.setSpire s { SpireRec.reset with state := .missing, rolesAway := true }).loseStack s).partFails (.spire (Fin.ofNat 4 s))
    else (x.setSpire s { SpireRec.reset with state := .up, keyCopies := true }).startCipher s true []
  let km := v.chip.boot.keepMissing.toNat
  let v1 := [(KeepId.A, 0), (KeepId.B, 1)].foldl (fun x (e : KeepId × Nat) =>
    if bit km e.2 then (x.setKeep e.1 { x.keep e.1 with missing := true }).partFails (.keep e.1) else x) v
  [0, 1, 2, 3].foldl one { v1 with hf := { v1.hf with sliceDown := v1.chip.boot.spireMissing } }

/-- SURVEY is entered from BOOT. -/
def Dev.enterSurvey (v : Dev) : Dev :=
  let v1 := v.startSpires.replay
  let ws := (v1.hosts.windows.filter (fun e => e.2.state == .revoking)).map (·.1)
  let v2 := ws.foldl (fun x w => x.freeWindow w) v1
  let b := v2.chip.boot
  let v3 := { v2 with chip := { v2.chip with
    survey := ⟨false, false, v2.now⟩, frozenIn := false
    boot := { b with stage := 15, failures := 0, imageFails := 0, backoffDue := none, partRuns := [] } } }
  let v4 := (v3.setMode .survey).severeDone
  let v5 := v4.gatherAll (v4.store.grains.filter (fun g => g.held && g.stripe.isNone))
  (List.range 8).foldl (fun x n => (List.range 4).foldl (fun y k => y.upPaths n k) x) v5

/-! ### DRAIN (R85, R103, R105, R341) -/

/-- DRAIN begins: what was received and not admitted waits or is refused as a capsule that arrives in DRAIN is, by its own
arrival stamp (R100, R103, R105, R107, R341). -/
def Dev.enterDrain (v : Dev) (p : DrainPurpose) (retire : Bool) (cmd : Option Nat) : Dev :=
  let queued := v.hosts.ctxs.filter (fun c => c.phase == .queued)
  let ms := queued.map (fun (c : Ctx) => (⟨c.msg, v.now, c.stamp⟩ : Waiting))
    ++ v.hosts.inbox.map (fun (w : Waiting) => { w with since := v.now })
  let v1 := queued.foldl (fun x c => x.discardCtx c) { v with hosts := { v.hosts with inbox := [] } }
  let v2 := { v1 with chip := { v1.chip with drain :=
    { Drain.reset with purpose := p, returnMode := v.mode, startStamp := v.stamp, startStep := v.step16, retire := retire, cmd := cmd } } }
  ms.foldl (fun x w => match x.sessionOf w.msg.qp with
    | some n => x.arrive n w
    | none => x) (v2.setMode .drain)

/-- DRAIN ends: the mode before it, re-evaluated, and the waiting commands are released in arrival order (R85, R105,
R341). -/
def Dev.leaveDrain (v : Dev) : Dev :=
  let d := v.chip.drain
  let portOf (w : Waiting) : Nat := match v.qp w.msg.qp with | some q => 4 * q.port.val + q.sub.val | none => 0
  let ws := sortBy (·.stamp) (sortBy portOf d.waiting)
  let v1 := { v with chip := { v.chip with drain := Drain.reset } }
  let v2 := if d.returnMode == .survey || v.sec.debug == .open_ then v1.setMode .survey else v1.enterServing
  ws.foldl (fun x w => match x.sessionOf w.msg.qp with
    | some n => x.arrive n { w with since := x.now }
    | none => x) v2

/-- No command is in flight and no grain is dirty (R103). -/
def Dev.drained (v : Dev) : Bool :=
  v.hosts.ctxs.isEmpty && v.hosts.reads.isEmpty && v.hosts.flushes.isEmpty && v.hosts.inbox.isEmpty && v.store.grains.isEmpty

/-- FLAGS bits 8:0 of a marker (R163). -/
def Dev.markerFlags (v : Dev) : Nat :=
  sumMap (fun s => if v.spireShown s then 0 else 2 ^ s) [0, 1, 2, 3] + 16 * b2n (!v.healthy 0) + 32 * b2n (!v.healthy 1)
    + 64 * b2n (!v.keepSound .A) + 128 * b2n (!v.keepSound .B) + 256 * b2n v.inputPresent

/-- A marker's block (R104, R163). -/
def Dev.markerBlock (v : Dev) (clean : Bool) (stamp : Nat) (step : BitVec 16) (settled energy : Nat) : List Byte :=
  Marker.block ⟨BitVec.ofNat 16 (v.markerFlags + 512 * b2n clean), v.chip.markerSeq + 1, stamp, step, settled,
    v.store.journal.nextSeq - 1, v.chip.imageAt.1, v.chip.imageAt.2, energy⟩

/-- The marker is written to the marker LBA of the journal bays (R104, R163). -/
def Dev.writeMarker (v : Dev) (clean : Bool) (stamp : Nat) (step : BitVec 16) (settled energy : Nat) : Dev :=
  let block := v.markerBlock clean stamp step settled energy
  v.journalServing.foldl (fun x b => (x.issueWrite b 1 [block] .marker).2)
    { v with chip := { v.chip with markerSeq := v.chip.markerSeq + 1 } }

/-- The journal is closed (R103, R160). -/
def Dev.closeJournal (v : Dev) : Dev :=
  let v1 := (v.journal .close).2
  { v1 with store := { v1.store with journal := { v1.store.journal with isOpen := false } } }

/-! ### VAULT and FENCED (R85, R160, R161, R359, R369, R385, R386) -/

/-- The settle holds the gates: ramps stop, assays end, both modules supply the bus (R359, R369). -/
def Dev.holdPower (v : Dev) : Dev :=
  let v1 := [32, 33].foldl (fun x c => x.stopAssay c) v.stopRamps
  [32, 33].foldl (fun x c =>
    let y := x.chan c
    x.setChan c { y with dis := y.state == .on, chg := false }) v1

/-- Phase V0 of a settle, counted from the bell of its detection; `out` is what the modules have delivered until then. -/
def Vault.begin (bell stamp : Nat) (step : BitVec 16) (dirty : Nat) (fenced : Bool) (out : Nat) : Vault :=
  ⟨.v0, bell, stamp, step, dirty, 0, 0, fenced, 0, out, out⟩

/-- Input power loss is detected, or taken as detected: V0 within a stroke. An append whose grains both stacks have held is settled,
its completion not sent (R140, R155, R160, R369). -/
def Dev.detectLoss (v : Dev) : Dev :=
  let v1 := (v.holdStored v.hosts.ctxs.length).freeze.endFloder.stopJobs
  ({ v1 with chip := { v1.chip with vault := .begin v1.now v1.stamp v1.step16 v1.dirty false v1.humOut }
             clk := { v1.clk with ages := false } }).holdPower

/-- VAULT is entered (R85). -/
def Dev.enterVault (v : Dev) : Dev :=
  let v1 := if v.chip.vault.phase == .none then v.detectLoss else v
  let v2 := v1.gatherAll (v1.store.grains.filter (fun g => g.held && g.stripe.isNone))
  ({ v2 with chip := { v2.chip with drain := Drain.reset } }).setMode .vault

/-- Dirty grains can be settled in FENCED (R386). -/
def Dev.canSettle (v : Dev) : Bool :=
  !v.settleBays.isEmpty && v.store.journal.bays.all (fun b => v.bayReadable b) && (v.keepSound .A || v.keepSound .B)

/-- Spire copies of the keys are zeroized (R316, R385). -/
def Dev.dropKeyCopies (v : Dev) : Dev :=
  { v with ciphers := v.ciphers.map (fun (e : Nat × Cipher) => (e.1, { e.2 with copies := [] }))
           chip := { v.chip with spires := v.chip.spires.map (fun (e : Nat × SpireRec) => (e.1, { e.2 with keyCopies := false })) } }

/-- FENCED with its settle, or at once with the bay gates off (R385, R386). -/
def Dev.fenceSettle (v : Dev) : Dev :=
  if v.dirty ≠ 0 && v.canSettle then
    let v1 := { v with chip := { v.chip with vault := .begin v.now v.stamp v.step16 v.dirty true v.humOut } }
    v1.holdPower.gatherAll (v1.store.grains.filter (fun g => g.held && g.stripe.isNone))
  else
    ({ v with chip := { v.chip with vault := { v.chip.vault with phase := .done, fencedSettle := false, grainsLeft := v.dirty } } }).bayGatesOff

/-- FENCED is entered (R85, R385): a settle of VAULT goes on; in BOOT the stages run on while dirty data needs them. -/
def Dev.enterFenced (v : Dev) : Dev :=
  let phase := v.chip.vault.phase
  if v.mode == .vault then
    let busy := phase != .none && phase != .waiting && phase != .done
    let v1 := { v with chip := { v.chip with vault := { v.chip.vault with fencedSettle := busy } } }
    (if busy then v1 else v1.bayGatesOff).dropKeyCopies.setMode .fenced
  else if v.mode == .boot then
    let needs := v.chip.boot.dirtyAtStart
    let v1 := { v with chip := { v.chip with boot := { v.chip.boot with wantFenced := needs, backoffDue := none } } }
    (if needs then v1 else v1.fenceSettle).dropKeyCopies.setMode .fenced
  else
    let v0 := (v.holdStored v.hosts.ctxs.length).freeze.stopJobs
    let v1 := { v0 with clk := { v0.clk with ages := false }, sec := { v0.sec with act := .idle, actCmd := none } }
    (({ v1 with chip := { v1.chip with drain := Drain.reset } }).dropKeyCopies.setMode .fenced).fenceSettle

/-! ### Events taken in order (R85 to R87) -/

/-- Place of an event in the order of R87. Its list does not name the end of stage B5, the end of SURVEY, the vault marker and
the end of DRAIN: the model takes them, in this order, between RESET_N and the faults (DESIGN CHOICE, assumption log 68). -/
def ModeEvent.rank : ModeEvent → Nat
  | .supplyBelow => 0
  | .fatal => 1
  | .powerLoss => 2
  | .resetLong => 3
  | .warmReset => 4
  | .bootDone => 5
  | .surveyDone => 6
  | .vaultDone => 7
  | .endDrain => 8
  | .partFault => 9
  | .repaired => 10
  | .debugOpen => 11
  | .toService => 12
  | .resume => 13
  | .shutdown => 14
  | .activate => 15

/-- Started commands of an opcode. -/
def Dev.cmdsOf (v : Dev) (op : Nat) : List Cmd := v.floder.cmds.filter (fun c => c.opcode.toNat == op)

def Dev.adjBoot (v : Dev) (f : Boot → Boot) : Dev := { v with chip := { v.chip with boot := f v.chip.boot } }

/-- One event against the mode the earlier ones produced (R85, R87). -/
def Dev.takeEvent (v : Dev) (e : ModeEvent) : Dev :=
  let m := v.mode
  let run := m == .survey || m == .service || m == .degraded || m == .drain
  let up := m == .survey || m == .service || m == .degraded
  match e with
  | .supplyBelow => if m == .held then v else v.enterHeld
  | .fatal =>
    if run || m == .vault || (m == .boot && v.chip.boot.stage != 0) then v.enterFenced else v
  | .powerLoss =>
    if v.sec.p3 then v.humGatesOff
    else if run then v.enterVault
    else if m == .boot && v.chip.boot.dirtyAtStart then v.adjBoot (fun b => { b with wantVault := true, backoffDue := none })
    else v
  | .resetLong =>
    if run then (if v.dirty = 0 then v.enterHeld else v.enterVault)
    else if m == .boot then
      (if v.chip.boot.dirtyAtStart then v.adjBoot (fun b => { b with wantVault := true, backoffDue := none }) else v.enterHeld)
    else v
  | .warmReset => if run || m == .boot then v.warmReset else v
  | .bootDone =>
    if m == .boot && v.chip.boot.stage == 5 then (if v.chip.boot.wantVault then v.enterSurvey.enterVault else v.enterSurvey)
    else if m == .fenced && v.chip.boot.wantFenced && v.chip.boot.stage == 5 then
      let v1 := (v.startSpires.replay).adjBoot (fun b => { b with wantFenced := false, stage := 15 })
      v1.dropKeyCopies.fenceSettle
    else v
  | .surveyDone => if m == .survey && v.mayServe && v.cfgBits 0x2004 31 31 = 1 then v.enterServing else v
  | .vaultDone => if m == .vault && (v.chip.vault.phase == .waiting) then v.warmReset else v
  | .endDrain => if m == .drain && !v.chip.drain.offReady then v.leaveDrain else v
  | .partFault => if m == .service && !v.chip.unrepaired.isEmpty then v.setMode .degraded else v
  | .repaired => if m == .degraded && v.chip.unrepaired.isEmpty then v.setMode .service else v
  | .debugOpen => if m == .service || m == .degraded then v.enterDrain .debug false none else v
  | .toService => if m == .survey && v.mayServe then v.enterServing else v
  | .resume => if m == .drain && !v.chip.drain.offReady then v.leaveDrain else v
  | .shutdown =>
    if up then v.enterDrain .shutdown (v.cmdsOf 0x0021 != []) (((v.cmdsOf 0x0105 ++ v.cmdsOf 0x0021).head?).map (·.id)) else v
  | .activate => if up then v.enterDrain .activation false (((v.cmdsOf 0x0802).head?).map (·.id)) else v

/-- The events of a bell are taken at the boundary; MODE_SET completes with the mode in force, and a SHUTDOWN or RETIRE
that an earlier event overtook completes BUSY_MODE (R87, R407, R412). -/
def Dev.takeEvents (v : Dev) : Dev :=
  let es := sortBy ModeEvent.rank v.chip.mode.events
  let v1 := { v with chip := { v.chip with mode := { v.chip.mode with events := [] } } }
  let v2 := es.foldl (fun x e => x.takeEvent e) v1
  let v3 := (v2.cmdsOf 0x0101).foldl (fun x c => x.finishOk c.id x.status 0 0) v2
  (v3.cmdsOf 0x0105 ++ v3.cmdsOf 0x0021).foldl (fun x c => if x.chip.drain.cmd == some c.id then x else x.fail c.id stBusyMode) v3

end Sys2Proof.Machine
end

