-- ==== Sys2Proof/Machine/Security.lean ====
section
/-! DEFINITION. Lifecycle, debug levels, firmware images and activation (R107, R108, R332 to R343, R412). -/

namespace Sys2Proof.Machine

/-- The 16 bytes of the serial number (R454). -/
def serialBytes : List Byte := leBytes 16 Config.serial.toNat

/-- The region of the Keep in whose record a decision of both is kept: Keep A, or Keep B while A is not sound. -/
def Dev.leadRegion (v : Dev) : Nat := if v.keepSound .A then 4 else 5

def DebugLevel.code : DebugLevel → Nat
  | .closed => 0
  | .observe => 1
  | .open_ => 2

/-! ### Lifecycle (R332 to R335) -/

/-- The fuses of a state are blown in every Keep that works (R333, R335). -/
def Dev.blowFuses (v : Dev) (l : Lifecycle) : Dev :=
  { v with sec := { v.sec with fuseA := if v.keepSound .A then l else v.sec.fuseA
                               fuseB := if v.keepSound .B then l else v.sec.fuseB } }

/-- Stage B0 reads the fuses, and completes the transition on a Keep that lags (R332). -/
def Dev.readFuses (v : Dev) : Dev := v.blowFuses v.sec.lifecycle

/-- The KEK in a PROVISION bundle; none where it does not unwrap (R334). -/
def unwrapKek (b : List Byte) : Option (List Byte) :=
  match ecdhX Config.identityPrivate (slice b 97 97) with
  | none => none
  | some z =>
    let info : List Byte := [0x56, 0x4E, 0x33, 0x32, 0x38, 0x30, 0x20, 0x4B, 0x45, 0x4B]
    match kwpUnwrap (hkdf384 serialBytes z info 32) (slice b 194 40) with
    | none => none
    | some k => if k.length = 32 then some k else none

/-- PROVISION (R333, R334). -/
def execProvision (p : Packet) (s : State) : Host.Outcome State Fault Refusal :=
  s.on fun v => v.floderRun 0x0020 p fun id v =>
    if v.sec.lifecycle != .blank || v.sec.debug == .open_ then v.fail id stAccessDenied
    else match unwrapKek (p.bytes 234) with
      | none => v.fail id stAuthFail
      | some kek =>
        let v1 := v.blowFuses .provisioned
        ({ v1 with
          sec := { v1.sec with kek := some kek, ownerKey := some (slice p.data 0 97), keyEpoch := 0 }
          leases := [] }).finishOk id 0 0 0

/-- LIFECYCLE_QUERY (R333). -/
def execLifecycleQuery (p : Packet) (s : State) : Host.Outcome State Fault Refusal :=
  s.on fun v => v.floderRun 0x0022 p fun id v =>
    v.finish id stOk v.sec.lifecycle.code 0 0 (serialBytes ++ slice Config.identityPublic 0 97)

/-- A failed challenge is counted (R340). -/
def Dev.authFailed (v : Dev) (op : Nat) : Dev :=
  let n := min 8 (v.sec.authFails + 1)
  ({ v with sec := { v.sec with authFails := n } }).fault 0x083 v.leadRegion 0 op n 0

/-- The signed message for a level byte: challenge, serial number, the byte, zeros (R340). -/
def signedMessage (c : BitVec 256) (level : Nat) : List Byte :=
  leBytes 32 c.toNat ++ serialBytes ++ [BitVec.ofNat 8 level] ++ zeros 15

/-- The challenge is in time and the signature verifies under the owner key (R340). -/
def Dev.signedOk (v : Dev) (level : Nat) (sig : List Byte) : Bool :=
  match v.sec.challenge, v.sec.ownerKey with
  | some (c, t), some key => decide (v.now < t + 1250 * pealBells) && ecdsaVerify key (signedMessage c level) sig
  | _, _ => false

/-- A challenge is used once. -/
def Dev.useChallenge (v : Dev) : Dev := { v with sec := { v.sec with challenge := none } }

/-- RETIRE (R333, R335): DRAIN for shutdown under REFUSE. -/
def execRetire (p : Packet) (s : State) : Host.Outcome State Fault Refusal :=
  s.on fun v => v.floderRun 0x0021 p fun id v =>
    if v.sec.lifecycle != .provisioned || 8 ≤ v.sec.authFails then v.fail id stAccessDenied
    else if !(v.signedOk 0xFF (p.bytes 96)) then (v.useChallenge.authFailed 0x0021).fail id stAuthFail
    else
      let v1 := v.useChallenge
      if v1.mode == .drain then
        let d := v1.chip.drain
        let v2 := { v1 with chip := { v1.chip with drain := { d with retire := true, purpose := .shutdown, cmd := some id, waiting := [] } } }
        d.waiting.foldl (fun x w => match x.sessionOf w.msg.qp with
          | some n => x.answer n w.msg stBusyMode noExt 0 0
          | none => x) v2
      else v1.modeEvent .shutdown

/-- Bays whose Sanitize belongs to a command. -/
def Dev.sanitizingFor (v : Dev) (id : Nat) : List Nat :=
  (List.range 32).filter (fun b => (v.bay b).sanitizing == some id)

/-- The device enters OFF_READY: bay gates are off (R103). -/
def Dev.offReady (v : Dev) : Dev :=
  ({ v with chip := { v.chip with drain := { v.chip.drain with offReady := true } }
            clk := { v.clk with ages := false } }).bayGatesOff

/-- Steps 2 and 3 of RETIRE: keys and descriptors are erased, the fuse is blown, the buffer is discarded and Sanitize goes
to every SERVING or FOREIGN bay (R335). -/
def Dev.retireNow (v : Dev) (id : Nat) : Dev :=
  let v1 := (v.keySlots.map (·.1)).foldl (fun x n => if (x.keySlot n).state == .empty then x else x.emptySlot n) v
  let qs := v1.hosts.qps.map (·.1)
  let v2 := qs.foldl (fun x q => x.releaseQp q) v1
  let v3 := { v2.blowFuses .retired with
    sec := { (v2.blowFuses .retired).sec with kek := none, ownerKey := none, keyEpoch := 0 }
    leases := []
    hosts := { v2.hosts with claims := [], sessions := [], updates := [] }
    store := { v2.store with grains := [], pend := [], ops := [] } }
  let bs := (List.range 32).filter (fun b => (v3.bay b).state == .serving || (v3.bay b).state == .foreign)
  bs.foldl (fun x b => (x.setBay b { x.bay b with sanitizing := some id, sanitize := none }).emit (.baySanitize b (x.activePort b))) v3

/-- RETIRE ends once every Sanitize has completed or failed: bays sanitized, bays failed (R335). -/
def Dev.retireEnd (v : Dev) (id : Nat) (bays : List Nat) : Dev :=
  let ok := (bays.filter (fun b => (v.bay b).sanitize == some 0)).length
  v.offReady.finishOk id ok (bays.length - ok) 0

/-- SANITIZE_COMPLETE (R186, R190, R335, R412): a sanitized drive carries no label and no data. -/
def execSanitizeComplete (b : Bay) (status : BitVec 32) (s : State) : Host.Outcome State Fault Refusal :=
  s.on fun v =>
    let n := b.val
    let x := v.bay n
    match x.sanitizing with
    | none => v
    | some id =>
      let y : BayRec := { x with sanitizing := none, sanitize := some status, label := if status = 0 then none else x.label }
      let v1 := v.setBay n y
      let lo := driveKey n 0 0
      let hi := driveKey (n + 1) 0 0
      let v2 := if status = 0 then
          (if x.state == .serving then { v1 with store := { v1.store with bays := Tab.set v1.store.bays n { y with state := .foreign } } } else v1)
        else v1
      let v3 := if status = 0 then
          { v2 with store := { v2.store with drives := v2.store.drives.filter (fun e => decide (e.1 < lo) || decide (hi ≤ e.1)) } }
        else v2
      match v3.floder.cmds.find? (fun c => c.id == id) with
      | none => v3
      | some c =>
        if c.opcode == 0x0403 then v3.finishOk id status.toNat 0 0
        else if (v3.sanitizingFor id).isEmpty then
          v3.retireEnd id ((List.range 32).filter (fun i => (v3.bay i).sanitize.isSome &&
            ((v3.bay i).state == .serving || (v3.bay i).state == .foreign)))
        else v3

/-! ### Debug levels (R339 to R343) -/

/-- A 256-bit draw of the root DRBG: a free value. -/
def Dev.free256 (v : Dev) : BitVec 256 × Dev :=
  let (a, v1) := v.free64
  let (b, v2) := v1.free64
  let (c, v3) := v2.free64
  let (d, v4) := v3.free64
  (BitVec.ofNat 256 (a.toNat + b.toNat * 2 ^ 64 + c.toNat * 2 ^ 128 + d.toNat * 2 ^ 192), v4)

/-- DEBUG_CHALLENGE (R340). -/
def execDebugChallenge (p : Packet) (s : State) : Host.Outcome State Fault Refusal :=
  s.on fun v => v.floderRun 0x0A01 p fun id v =>
    let (c, v1) := v.free256
    ({ v1 with sec := { v1.sec with challenge := some (c, v1.now) } }).finish id stOk 0 0 0 (leBytes 32 c.toNat)

def levelOf : Nat → Option DebugLevel
  | 0 => some .closed
  | 1 => some .observe
  | 2 => some .open_
  | _ => none

/-- DEBUG_SET (R340): the level takes effect at the next bell. -/
def execDebugSet (p : Packet) (s : State) : Host.Outcome State Fault Refusal :=
  s.on fun v => v.floderRun 0x0A02 p fun id v =>
    match levelOf (p.u8 0) with
    | none => v.fail id stInvalidField
    | some l =>
      let set (x : Dev) : Dev := ({ x with sec := { x.sec with nextDebug := some l } }).finishOk id 0 0 0
      if l != .open_ then set v
      else if 8 ≤ v.sec.authFails then v.fail id stAccessDenied
      else if v.sec.lifecycle != .provisioned then set v
      else if v.signedOk 2 (p.bytes 96) && p.dataLen != 0 then set v.useChallenge
      else (v.useChallenge.authFailed 0x0A02).fail id stAuthFail

/-- A debug level set in an earlier bell takes effect: OPEN zeroizes every slot and moves the mode; leaving OPEN is a warm
chip reset (R341, R342). -/
def Dev.applyDebug (v : Dev) : Dev :=
  match v.sec.nextDebug with
  | none => v
  | some l =>
    let v1 := { v with sec := { v.sec with nextDebug := none } }
    if v.sec.debug == .open_ then v1.modeEvent .warmReset
    else
      let v2 := { v1 with sec := { v1.sec with debug := l } }
      if l == .open_ then v2.zeroizeAll.modeEvent .debugOpen else v2

/-! ### Images (R336 to R338, R412) -/

def Dev.activeImage (v : Dev) : Image := if v.chip.boot.image then v.sec.imageB else v.sec.imageA
def Dev.otherImage (v : Dev) : Image := if v.chip.boot.image then v.sec.imageA else v.sec.imageB

def Dev.setOther (v : Dev) (i : Image) : Dev :=
  { v with sec := if v.chip.boot.image then { v.sec with imageA := i } else { v.sec with imageB := i } }

/-- An image is valid (R336, R337). -/
def imageValid (b : List Byte) (floor : BitVec 32) : Bool :=
  let body := field b 16 4
  field b 0 4 == 0x4D494E56 && field b 4 2 == 1 && field b 6 2 == 0 && field b 20 4 == 0 && allZero (slice b 169 7)
    && allZero (slice b 272 240) && decide (1 ≤ body) && decide (body ≤ 0x1000000) && decide (512 + body ≤ b.length)
    && (List.range 4).any (fun i => sha384 (slice b 72 97) == Config.vendorKeyHash (Fin.ofNat 4 i))
    && ecdsaVerify (slice b 72 97) (slice b 0 176) (slice b 176 96)
    && sha384 (slice b 512 body) == slice b 24 48
    && decide (floor.toNat ≤ field b 12 4)

/-- An image with a chunk written; bytes of a gap that no chunk has written are free values. -/
def Dev.writeChunk (v : Dev) (old : List Byte) (off : Nat) (d : List Byte) : List Byte × Dev :=
  let gap := off - old.length
  let (g, v1) := if gap = 0 then (([] : List Byte), v) else v.freeBytes gap
  ((old ++ g).take off ++ d ++ (old ++ g).drop (off + d.length), v1)

/-- IMAGE_STAGE (R337, R412). -/
def execImageStage (p : Packet) (s : State) : Host.Outcome State Fault Refusal :=
  s.on fun v => v.floderRun 0x0801 p fun id v =>
    let off := p.u32 0
    let last := bit (p.u8 4) 0
    let d := p.bytes p.dataLen.toNat
    if v.sec.act != .idle || off % 4096 ≠ 0 || 512 + 0x1000000 < off + d.length then v.fail id stInvalidField
    else
      let i := v.otherImage
      let (bytes, v1) := v.writeChunk i.bytes off d
      let written := if off = 0 then d.length else i.written + d.length
      let j : Image := { i with bytes := bytes, written := written, staged := false }
      if last then
        if imageValid bytes v.sec.floor then
          let svn := field bytes 12 4
          (v1.setOther { j with staged := true, version := BitVec.ofNat 32 (field bytes 8 4), svn := BitVec.ofNat 32 svn }).finishOk
            id written svn 0
        else (v1.setOther j).fail id stAuthFail
      else (v1.setOther { j with staged := if off = 0 then false else i.staged }).finishOk id written 0 0

/-- FLOOR_ADVANCE (R338). -/
def execFloorAdvance (p : Packet) (s : State) : Host.Outcome State Fault Refusal :=
  s.on fun v => v.floderRun 0x0803 p fun id v =>
    let n := p.u32 0
    if n < v.sec.floor.toNat || v.activeImage.svn.toNat < n || v.otherImage.svn.toNat < n then v.fail id stInvalidField
    else ({ v with sec := { v.sec with floor := BitVec.ofNat 32 n } }).finishOk id n 0 0

/-- IMAGE_QUERY (R412). -/
def execImageQuery (p : Packet) (s : State) : Host.Outcome State Fault Refusal :=
  s.on fun v => v.floderRun 0x0804 p fun id v =>
    v.finishOk id v.activeImage.svn.toNat v.otherImage.svn.toNat
      (b2n v.chip.boot.image + 2 * b2n v.otherImage.staged + 4 * b2n (v.sec.act != .idle))

/-! ### Activation (R107, R108) -/

/-- ACTIVATE (R85, R107): DRAIN for activation begins at the next peal boundary. -/
def execActivate (p : Packet) (s : State) : Host.Outcome State Fault Refusal :=
  s.on fun v => v.floderRun 0x0802 p fun id v =>
    if !v.otherImage.staged || !(imageValid v.otherImage.bytes v.sec.floor) then v.fail id stInvalidField
    else if !(v.inMode [.survey, .service, .degraded]) then v.fail id stBusyMode
    else { v with sec := { v.sec with act := .scheduled, actCmd := some id } }

/-- ACTIVATION_DRAIN_ENTER (R107). -/
def execActivationDrainEnter (s : State) : Host.Outcome State Fault Refusal :=
  s.on fun v =>
    if v.sec.act == .scheduled && v.atPeal && v.inMode [.survey, .service, .degraded] then
      ({ v with sec := { v.sec with act := .draining v.pealNow } }).takeEvent .activate
    else v

/-- The activation ends: its command completes, and DRAIN ends at the next bell (R85, R107). -/
def Dev.endActivation (v : Dev) (st : Byte) (r0 r1 : Nat) : Dev :=
  let v1 := match v.sec.actCmd with
    | some id => v.finish id st r0 r1 0 []
    | none => v
  ({ v1 with sec := { v1.sec with act := .idle, actCmd := none } }).modeEvent .endDrain

/-- IMAGE_SWAP (R107, R108): every Floder operation has reached a saved point at the first or second peal boundary after
DRAIN was entered; the new image is in use, and the preferred one, from here on. -/
def execImageSwap (s : State) : Host.Outcome State Fault Refusal :=
  s.on fun v =>
    match v.sec.act with
    | .draining n =>
      if (v.pealNow == n + 1 || v.pealNow == n + 2) && v.atPeal && v.mode == .drain then
        let late := b2n (decide (448 ≤ v.clk.ns))
        { v with sec := { v.sec with act := .swapping (v.clk.bell + late) (v.now + late), preferred := !v.chip.boot.image }
                 chip := { v.chip with boot := { v.chip.boot with image := !v.chip.boot.image } } }
      else v
    | _ => v

/-- A swap in progress is complete: IMAGE_VERSION and IMAGE_SVN show the new image (R107, R412, R454). -/
def Dev.endSwap (v : Dev) : Dev :=
  match v.sec.act with
  | .swapping bell _ =>
    let i := v.activeImage
    ({ v with sec := { v.sec with loadedVer := i.version, loadedSvn := i.svn } }).endActivation stOk (b2n v.chip.boot.image)
      (bell / pealBells)
  | _ => v

/-- IMAGE_SWAP_COMPLETE (R107). -/
def execImageSwapComplete (s : State) : Host.Outcome State Fault Refusal := s.on fun v => v.endSwap

/-- A swap takes 4,096 bells at most (R107). -/
def Dev.swapBell (v : Dev) : Dev :=
  match v.sec.act with
  | .swapping _ t => if t + 4096 ≤ v.now then v.endSwap else v
  | _ => v

/-- ACTIVATION_TIMEOUT (R107): no saved point by the boundary at 16 ms; the old image stays active. -/
def execActivationTimeout (s : State) : Host.Outcome State Fault Refusal :=
  s.on fun v =>
    match v.sec.act with
    | .draining n => if n + 2 ≤ v.pealNow then v.endActivation stTimeout 0 0 else v
    | _ => v

end Sys2Proof.Machine
end

