-- ==== Sys2Proof/Machine/Boot.lean ====
section
/-! DEFINITION. Power, BOOT, SURVEY, DRAIN and VAULT as commands move them, and the system commands of group 0x00xx and
0x01xx that ask for a mode (R85 to R94, R103, R140, R141, R160 to R165, R347, R385, R412, R478). -/

namespace Sys2Proof.Machine

/-! ### Power and reset pins (R85, R86, R140, R141, R347, R478) -/

/-- POWER_ON (R62, R85): the Keeps leave HELD at the epoch, the straps are sampled, and stage B0 begins. -/
def execPowerOn (straps : BitVec 3) (s : State) : Host.Outcome State Fault Refusal :=
  s.on fun v =>
    if v.mode != .held then v
    else
      let b := { Boot.reset with image := v.sec.preferred }
      ({ v with clk := .reset
                chip := { v.chip with boot := b, straps := straps, supplies := true,
                                      mode := { v.chip.mode with events := [] } } }).setMode .boot

/-- SUPPLY_BELOW_THRESHOLD (R85, R478). -/
def execSupplyBelowThreshold (s : State) : Host.Outcome State Fault Refusal :=
  s.on fun v =>
    if v.mode == .held then { v with chip := { v.chip with supplies := false } }
    else ({ v with chip := { v.chip with supplies := false } }).modeEvent .supplyBelow

/-- The modes in which RESET_N acts (R85, R86). -/
def Dev.obeysReset (v : Dev) : Bool := v.inMode [.boot, .survey, .service, .degraded, .drain]

/-- RESET_N_PULSE (R85 to R87): ingress freezes within a stroke; the reset begins at the next bell. -/
def execResetNPulse (lowNs : Nat) (s : State) : Host.Outcome State Fault Refusal :=
  s.on fun v =>
    if v.obeysReset && decide (1000 ≤ lowNs) && decide (lowNs ≤ 100000000) then v.freeze.modeEvent .warmReset else v

/-- RESET_N_LONG_LOW (R85): to HELD, or to VAULT while data is dirty. -/
def execResetNLongLow (s : State) : Host.Outcome State Fault Refusal :=
  s.on fun v =>
    if v.mode == .boot then v.modeEvent .resetLong
    else if v.obeysReset then (if v.dirty = 0 then v else v.detectLoss).modeEvent .resetLong
    else v

/-- Input power loss is detected (R85, R87, R140): V0 within a stroke of it; in BOOT it is noted, and an assay ends without
a result (R145). -/
def Dev.inputLoss (v : Dev) : Dev :=
  if v.mode == .boot || v.sec.p3 then ([32, 33].foldl (fun x c => x.stopAssay c) v).modeEvent .powerLoss
  else if v.inMode [.survey, .service, .degraded, .drain] && v.chip.vault.phase == .none then v.detectLoss.modeEvent .powerLoss
  else v

/-- INPUT_POWER_LOSS (R140): PWRGOOD_IN has been low for 256 ns. -/
def execInputPowerLoss (s : State) : Host.Outcome State Fault Refusal := s.on fun v => v.inputLoss

/-- HOT_SWAP_SAMPLE (R72, R140, R141, R367, R368, R489). VSNS_12_IN below V_LOSS_MV is a loss of input power; input that is
not seen after the vault marker turns the gates off from the next bell on (R85, R164). -/
def execHotSwapSample (m : Sample) (s : State) : Host.Outcome State Fault Refusal :=
  s.on fun v =>
    if !v.sampleFalls then v
    else
      let v1 := v.takeSample m
      let v2 := if m.vsnsMv < v.cfgBits 0x301C 15 0 then v1.inputLoss else v1
      if v2.mode == .vault && v2.chip.vault.phase == .waiting && !v2.chip.input.seen then
        { v2 with chip := { v2.chip with vault := { v2.chip.vault with phase := .gating } } }
      else v2

/-- INPUT_PRESENT (R85, R141, R164): a VAULT that waits after its marker ends by a warm chip reset. -/
def execInputPresent (s : State) : Host.Outcome State Fault Refusal :=
  s.on fun v =>
    if v.mode == .vault && v.chip.vault.phase == .waiting && v.inputPresent then v.modeEvent .vaultDone else v

/-! ### BOOT (R88 to R93) -/

/-- BOOT stages run: in BOOT, and in FENCED while its settle needs them (R85). -/
def Dev.booting (v : Dev) : Bool := v.mode == .boot || (v.mode == .fenced && v.chip.boot.wantFenced)

/-- Failures count against the image from B1 on (R88). -/
def Dev.noBackoff (v : Dev) : Bool := v.chip.boot.wantVault || v.chip.boot.wantFenced

/-- The image in use may pass B1: its version stands above the floor, and one that was written into the flash is valid as a
whole (R88, R336, R337). What the flash holds as delivered the manual does not give: there the sender's word stands
(assumption log 6). -/
def Dev.imagePasses (v : Dev) : Bool :=
  let i := v.activeImage
  decide (v.sec.floor.toNat ≤ i.svn.toNat) && (i.bytes.isEmpty || imageValid i.bytes v.sec.floor)

/-- The limit of a stage has not passed: B5 waits 125 peals at most (R88). -/
def Dev.inTime (v : Dev) (stage since : Nat) : Bool := stage != 5 || decide (v.now ≤ since + 125 * pealBells)

/-- A stage of a spire's own boot passes (R97 step 4). -/
def Dev.regionPass (v : Dev) (s : Nat) : Dev :=
  match (v.spire s).boot with
  | some x =>
    if (v.spire s).state == .resetting && x.due.isNone && x.stage < 6 && v.inTime x.stage x.since then
      v.setSpire s { v.spire s with boot := some { x with stage := x.stage + 1, since := v.now } }
    else v
  | none => v

/-- The device's own boot: the next stage starts, or SURVEY is entered at the next bell after B5. -/
def Dev.chipPass (v : Dev) : Dev :=
  let b := v.chip.boot
  if !v.booting || b.backoffDue.isSome || 5 < b.stage || !(v.inTime b.stage b.since) then v
  else if b.stage = 1 && !v.imagePasses then v
  else
    let v1 := v.adjBoot (fun x => { x with partRuns := Tab.del x.partRuns b.stage })
    if b.stage = 5 then v1.modeEvent .bootDone
    else
      let v2 := v1.adjBoot (fun x => { x with stage := x.stage + 1, since := v.now })
      if b.stage = 0 then
        let ok (n : Nat) : Bool := !bit b.keepMissing.toNat n
        { v2.readFuses with chip := { v2.chip with rng := ⟨ok 0, ok 1, true, v.now⟩ } }
      else if b.stage = 1 then
        { v2 with sec := { v2.sec with loadedVer := v2.activeImage.version, loadedSvn := v2.activeImage.svn } }
      else v2

/-- BOOT_STAGE_PASS (R88, R97): of the device, or of a spire that boots alone. -/
def execBootStagePass (s : State) (sp : Option Spire := none) : Host.Outcome State Fault Refusal :=
  s.on fun v => match sp with
    | none => v.chipPass
    | some n => v.regionPass n.val

/-- Nanoseconds of the delay after the n-th failure (R89). -/
def backoffNs (n : Nat) : Nat := 1000000 * 2 ^ (min 10 (n - 1))

/-- A part that failed this stage four times in a row is marked missing; one region only in a BOOT (R91). -/
def Boot.markPart (b : Boot) (stage : Nat) (part : Option Nat) : Boot :=
  match part with
  | none => { b with partRuns := Tab.del b.partRuns stage }
  | some n =>
    let run := match Tab.get b.partRuns stage with
      | some (m, r) => if m = n then r + 1 else 1
      | none => 1
    let c := { b with partRuns := Tab.set b.partRuns stage (n, run) }
    let free := b.spireMissing == 0 && b.keepMissing == 0
    if 4 ≤ run && free then
      if stage = 0 && n < 2 then { c with keepMissing := BitVec.ofNat 2 (2 ^ n) }
      else if (stage = 2 || stage = 3) && n < 4 then { c with spireMissing := BitVec.ofNat 4 (2 ^ n) }
      else c
    else c

/-- The bell of the retry after the n-th failure: the first boundary after the delay (R89). -/
def Dev.retryBell (v : Dev) (n : Nat) : Nat := v.now + (v.clk.ns + backoffNs n) / 512 + 1

/-- A stage of a spire's own boot fails: it is retried after the delay of R89 (R97 step 4). -/
def Dev.regionFail (v : Dev) (s : Nat) : Dev :=
  match (v.spire s).boot with
  | some x =>
    if (v.spire s).state == .resetting && x.due.isNone && x.stage < 6 then
      v.setSpire s { v.spire s with boot := some { x with failures := x.failures + 1, due := some (v.retryBell (x.failures + 1)) } }
    else v
  | none => v

/-- A stage of the device's boot fails: the failure is recorded, the backoff starts, and the second failure counted against an
image selects the other one (R89 to R91). -/
def Dev.chipFail (v : Dev) (code : Byte) (part : Option Nat) : Dev :=
  let b := v.chip.boot
  if !v.booting || b.backoffDue.isSome || 5 < b.stage || v.chip.mode.events.contains .bootDone then v
  else
    let n := b.failures + 1
    let c := { b.markPart b.stage part with
      failures := n, failStage := b.stage, failCode := code, backoffExp := min 10 (n - 1), since := v.now
      backoffDue := if v.noBackoff then none else some (v.retryBell n) }
    let d :=
      if b.stage = 0 then c
      else if b.imageFails = 0 then { c with imageFails := 1 }
      else { c with imageFails := 0, image := !b.image, stage := 1 }
    v.adjBoot (fun _ => d)

/-- BOOT_STAGE_FAIL (R89 to R91, R97): of the device, or of a spire that boots alone. -/
def execBootStageFail (code : Byte) (part : Option Nat) (s : State) (sp : Option Spire := none) : Host.Outcome State Fault Refusal :=
  s.on fun v => match sp with
    | none => v.chipFail code part
    | some n => v.regionFail n.val

/-- BOOT_BACKOFF_EXPIRE (R89): the stage is retried from the next bell boundary. -/
def execBootBackoffExpire (s : State) (sp : Option Spire := none) : Host.Outcome State Fault Refusal :=
  s.on fun v => match sp with
    | none =>
      (match v.chip.boot.backoffDue with
       | some t => if v.atBell t then v.adjBoot (fun b => { b with backoffDue := none, since := v.now }) else v
       | none => v)
    | some n =>
      match (v.spire n.val).boot with
      | some x =>
        (match x.due with
         | some t =>
           if v.atBell t then v.setSpire n.val { v.spire n.val with boot := some { x with due := none, since := v.now } } else v
         | none => v)
      | none => v

/-- KEEP_BOOT_PROGRESS (R93). -/
def Dev.bootProgress (v : Dev) : Word :=
  let b := v.chip.boot
  BitVec.ofNat 32 (b.stage % 16 * 2 ^ 28 + b.failStage % 16 * 2 ^ 24 + b2n b.image * 2 ^ 23 + b2n b.warm * 2 ^ 22
    + min b.imageFails 1 * 2 ^ 20 + b.backoffExp % 16 * 2 ^ 16 + b.spireMissing.toNat * 2 ^ 12 + b.keepMissing.toNat * 2 ^ 10
    + b.failCode.toNat)

/-- SMBUS_BOOT_PROGRESS_READ (R93): answered in every mode but HELD. -/
def execSmbusBootProgressRead (code : Byte) (s : State) : Host.Outcome State Fault Refusal :=
  s.on fun v => v.emit (.smbus (if v.mode != .held && code == 0xB0 then some v.bootProgress else none))

/-- SMBUS_WAKE (R347): P3 ends by a warm chip reset. -/
def execSmbusWake (code data : Byte) (s : State) : Host.Outcome State Fault Refusal :=
  s.on fun v => if v.sec.p3 && code == 0xB1 && data == 0x01 then v.modeEvent .warmReset else v

/-! ### SURVEY (R94) -/

/-- A drive is present and its bay is neither enumerated nor given up. -/
def Dev.bayAwaited (v : Dev) (b : Nat) : Bool :=
  (v.chan b).present && ((v.bay b).state == .absent || (v.bay b).state == .enumerating)

/-- BAY_WAIT_EXPIRE (R94, R106): bays still not ready are treated as failed. -/
def execBayWaitExpire (s : State) : Host.Outcome State Fault Refusal :=
  s.on fun v =>
    let y := v.chip.survey
    if v.mode == .survey && !y.complete && !y.waitedOut && v.atBell (y.since + v.cfgBits 0x2008 15 0 * pealBells) then
      let v1 := { v with chip := { v.chip with survey := { y with waitedOut := true } } }
      ((List.range 32).filter v.bayAwaited).foldl (fun x b => x.partFails (.bay (Fin.ofNat 32 b))) v1
    else v

/-- SURVEY_COMPLETE (R85, R94, R167): every bay enumerated or waited for, the buffer in two copies; a bay that holds
stripe positions and does not serve is a missing part. -/
def execSurveyComplete (s : State) : Host.Outcome State Fault Refusal :=
  s.on fun v =>
    let y := v.chip.survey
    let ready := y.waitedOut || !(List.range 32).any v.bayAwaited
    if v.mode == .survey && !y.complete && ready then
      let v1 := [0, 1, 2, 3].foldl (fun x s => x.remirror s) { v with chip := { v.chip with survey := { y with complete := true } } }
      let gone := (List.range 32).filter (fun b => (v1.bay b).state != .serving && !(v1.positionsOn b).isEmpty)
      ((gone.foldl (fun x b => x.partFails (.bay (Fin.ofNat 32 b))) v1).fixExposure).modeEvent .surveyDone
    else v

/-! ### Repair and exposure (R47, R57, R85) -/

/-- Some position to be rebuilt has a target: it does not wait for a replacement drive (R193 item 3). -/
def Dev.rebuildLeft (v : Dev) (p : StripeRec → Nat → Bool) : Bool :=
  v.store.stripes.any (fun t => !t.dead && (List.range t.rec_.width).any (fun q =>
    v.needsRebuild t.rec_ q && p t.rec_ q && (v.rebuildTarget t.rec_ q).isSome))

/-- The rebuild of a bay's fault is done: no position on the bay that is gone and no unplaced position is left but those that wait
for a replacement drive, and a replacement has every position destined for it (R194). -/
def Dev.bayRebuilt (v : Dev) (b : Nat) : Bool :=
  !v.rebuildLeft (fun r q => match r.placeOf q with | some (c, _) => c == b | none => true)
    && ((v.bay b).state != .serving || !v.store.rebuilds.any (fun e => (v.positionsOn b).contains e))

/-- The repair of a part as the last column of R47 states it. -/
def Dev.repairDone (v : Dev) : Part → Bool
  | .spire s =>
    v.spireUp s.val && !(v.spire s.val).rolesAway && !v.singleCopies s.val &&
      (List.range 32).all (fun b => (v.bay b).state != .serving ||
        ((baySpire b .A != s.val || (v.bay b).upA) && (baySpire b .B != s.val || (v.bay b).upB)))
  | .keep k => v.keepSound k
  | .port p k => v.linkUp p.val k.val
  | .bay b => v.bayRebuilt b.val
  | .bayPort b p => v.bayPortUp b.val p
  | .hum h => v.healthy h.val
  | .bank s _ => !v.copyLost s.val
  | .cell _ _ _ => true
  | .stripe id => v.store.stripes.all (fun t => t.rec_.id != id || t.dead ||
      (t.rec_.unplaced == 0 && (List.range t.rec_.width).all (fun p => !v.needsRebuild t.rec_ p)))

/-- Stripes that stay below full redundancy although the fault of their bay is repaired: they wait for a replacement drive (R85, R193,
R194). -/
def Dev.markShort (v : Dev) (b : Nat) : Dev :=
  let on_ (r : StripeRec) : Bool := (List.range r.width).any (fun q => v.needsRebuild r q && (match r.placeOf q with
    | some (c, _) => c == b
    | none => false))
  let ids := (v.store.stripes.filter (fun t => !t.dead && on_ t.rec_)).map (fun t => Part.stripe t.rec_.id)
  { v with chip := { v.chip with unrepaired := v.chip.unrepaired ++ ids.filter (fun p => !v.chip.unrepaired.contains p) } }

/-- FAULT_REPAIRED (R47, R85). -/
def execFaultRepaired (part : Part) (s : State) : Host.Outcome State Fault Refusal :=
  s.on fun v =>
    if v.repairDone part && v.chip.unrepaired.contains part then
      (match part with
       | .bay b => (v.markShort b.val).partRepaired part
       | _ => v.partRepaired part)
    else v

/-- EXPOSED_SETTLE_COMPLETE (R57): the strict policy is in force; NOTICE 0x07 to the sessions of strict claims. -/
def execExposedSettleComplete (s : State) : Host.Outcome State Fault Refusal :=
  s.on fun v =>
    let x := v.chip.exposure
    if x.active && !x.settledOnce && !v.store.grains.any v.grainExposed then
      let v1 := { v with chip := { v.chip with exposure := { x with settledOnce := true } } }
      let strict := (v.hosts.sessions.filter (fun e => match v.claimDesc e.2.claim with | some d => d.strict | none => false)).map (·.1)
      v1.noticeEach strict 0x07 0
    else v

/-! ### System commands (R85, R103, R347, R410, R412) -/

/-- IDENTIFY (R412). -/
def execIdentify (p : Packet) (s : State) : Host.Outcome State Fault Refusal :=
  s.on fun v => v.floderRun 0x0001 p fun id v =>
    v.finish id stOk v.status v.bootProgress.toNat v.sec.lifecycle.code
      (padTo 64 (leBytes 2 0x3280 ++ leBytes 2 0x1F9A ++ [0xB0] ++ zeros 11 ++ serialBytes
        ++ leBytes 4 v.sec.loadedVer.toNat ++ leBytes 4 v.sec.loadedSvn.toNat))

/-- ECHO (R412). -/
def execEcho (p : Packet) (s : State) : Host.Outcome State Fault Refusal :=
  s.on fun v => v.floderRun 0x0002 p fun id v => v.finishOk id (p.u32 0) (p.u32 4) (p.u32 8)

def DrainPurpose.code : DrainPurpose → Nat
  | .none => 0
  | .shutdown => 1
  | .activation => 2
  | .debug => 3

/-- MODE_QUERY (R412). -/
def execModeQuery (p : Packet) (s : State) : Host.Outcome State Fault Refusal :=
  s.on fun v => v.floderRun 0x0100 p fun id v => v.finishOk id v.status v.chip.drain.purpose.code (b2n v.chip.drain.offReady)

/-- MODE_SET (R85, R407): it completes at the bell at which the mode changes. -/
def execModeSet (p : Packet) (s : State) : Host.Outcome State Fault Refusal :=
  s.on fun v => v.floderRun 0x0101 p fun id v =>
    if p.u8 0 = 0 then (if v.mode == .survey && v.mayServe then v.modeEvent .toService else v.fail id stBusyMode)
    else if p.u8 0 = 1 then
      (if v.mode == .drain && !v.chip.drain.offReady then v.modeEvent .resume else v.fail id stBusyMode)
    else v.fail id stInvalidField

/-- WARM_RESET (R410): the reply first, then the reset at the first bell boundary after it has been written. -/
def execWarmReset (p : Packet) (s : State) : Host.Outcome State Fault Refusal :=
  s.on fun v => v.floderRun 0x0102 p fun id v =>
    ({ v with floder := { v.floder with warmAsked := some v.now } }).finishOk id 0 0 0

/-- STANDBY (R347, R410): accepted only in OFF_READY; the reply first, then P3. -/
def execStandby (p : Packet) (s : State) : Host.Outcome State Fault Refusal :=
  s.on fun v => v.floderRun 0x0108 p fun id v =>
    if v.mode == .drain && v.chip.drain.offReady then
      ({ v with sec := { v.sec with standbyAsked := true } }).finishOk id 0 0 0
    else v.fail id stBusyMode

/-- The reply of a command has left: it waits neither for a ring nor in a session's ring (R410). -/
def Dev.replyGone (v : Dev) (op : Nat) : Bool :=
  let word (e : Entry) : Bool := match e with
    | .completion c => c.reply != [] && field c.reply 4 2 == op
    | _ => false
  !v.floder.replies.any (fun r => r.opcode.toNat == op) &&
    v.hosts.sessions.all (fun e => !e.2.built.any (fun b => word b.entry) && !e.2.issued.any (fun i => word i.entry))

/-- P3 begins (R83, R347): spires down, the endpoint link and its rings with them, holds and ages paused, no servo. -/
def Dev.enterP3 (v : Dev) : Dev :=
  { v with
    ciphers := []
    sec := { v.sec with p3 := true, standbyAsked := false }
    clk := { v.clk with ages := false, pealLen := max pealBells (v.clk.bellInPeal + 1) }
    chip := { v.chip with frozenIn := true
                          servo := { v.chip.servo.toFree with stepDue := none }
                          spires := v.chip.spires.map (fun (e : Nat × SpireRec) => (e.1, { e.2 with state := SpireState.down, keyCopies := false })) }
    hosts := { v.hosts with ports := v.hosts.ports.map (fun (e : Nat × NetPort) => (e.1, { e.2 with linkUp := 0 })) }
    floder := { v.floder with rings := [], cmds := [], replies := [] }
    ep := { v.ep with link := false } }

/-- What WARM_RESET and STANDBY asked for begins at a bell boundary (R410). -/
def Dev.askedResets (v : Dev) : Dev :=
  let v1 := if v.floder.warmAsked.isSome && v.replyGone 0x0102 then
      ({ v with floder := { v.floder with warmAsked := none } }).modeEvent .warmReset
    else v
  if v1.sec.standbyAsked && v1.replyGone 0x0108 && v1.mode == .drain && v1.chip.drain.offReady then v1.enterP3 else v1

/-- SHUTDOWN (R85, R103, R407): it completes at OFF_READY. -/
def execShutdown (p : Packet) (s : State) : Host.Outcome State Fault Refusal :=
  s.on fun v => v.floderRun 0x0105 p fun id v =>
    if v.inMode [.survey, .service, .degraded] then v.modeEvent .shutdown else v.fail id stBusyMode

/-! ### DRAIN (R103, R341) -/

/-- DRAIN_WAIT_EXPIRE (R103, R106). -/
def execDrainWaitExpire (d : Delivered) (s : State) : Host.Outcome State Fault Refusal :=
  s.on fun v =>
    match v.chip.drain.waiting.find? (fun w => w.msg == d), v.sessionOf d.qp with
    | some w, some n =>
      if v.mode == .drain && v.chip.drain.purpose == .shutdown && v.atBell (w.since + v.cfgBits 0x2004 25 0) then
        ({ v with chip := { v.chip with drain := { v.chip.drain with
          waiting := dropFirst (fun y => y.msg == d) v.chip.drain.waiting } } }).answer n d stBusyMode noExt 0 0
      else v
    | _, _ => v

/-- Commands in flight are done. -/
def Dev.quiet (v : Dev) : Bool :=
  v.hosts.ctxs.isEmpty && v.hosts.reads.isEmpty && v.hosts.flushes.isEmpty && v.hosts.inbox.isEmpty

/-- The writes outstanding are complete: DRAIN_COMPLETE says that step 4 of R103 is done. -/
def Dev.allWritten (v : Dev) : Dev :=
  (v.store.ops.filter (fun o => o.isWrite)).foldl (fun x o => (x.dropOp o.id).opWritten o) v

/-- Every block of the journal is complete on its bays. -/
def Dev.journalDone (v : Dev) : Dev :=
  { v with store := { v.store with journal := { v.store.journal with
      blocks := v.store.journal.blocks.map (fun (b : JournalBlock) => { b with complete := b.complete || b.left.isEmpty }) } } }

/-- NVMe Flush to every namespace (R160, R103). -/
def Dev.flushBays (v : Dev) : Dev :=
  v.emitAll (((List.range 32).filter (fun b => (v.bay b).state == .serving)).map (fun b => .bayFlush b))

/-- The end of DRAIN for shutdown: journal closed, record image and clean-shutdown marker written, gates off (R103,
R104). The manual has one event for all of it: the model takes its writes as complete with it (assumption log 87). -/
def Dev.shutdownEnd (v : Dev) : Dev :=
  let d := v.chip.drain
  let v1 := v.closeJournal.startImage.allWritten.journalDone
  let v2 := v1.writeImage.flushBays
  let v4 := (v2.writeMarker true d.startStamp d.startStep d.settled 0).allWritten.offReady
  match d.cmd with
  | some id => v4.finishOk id d.settled 0 0
  | none => v4

/-- DRAIN_COMPLETE (R103, R335, R341): once for each DRAIN, and again for a RETIRE given in OFF_READY. -/
def execDrainComplete (s : State) : Host.Outcome State Fault Refusal :=
  s.on fun v =>
    let d := v.chip.drain
    if v.mode != .drain || (d.offReady && !(d.retire && v.sec.lifecycle == .provisioned)) then v
    else match d.purpose with
      | .shutdown =>
        if d.retire then
          (match d.cmd with
           | some id =>
             if v.quiet && v.sec.lifecycle == .provisioned then
               let v1 := v.retireNow id
               if (v1.sanitizingFor id).isEmpty then v1.retireEnd id [] else v1
             else v
           | none => v)
        else if v.drained then v.shutdownEnd
        else v
      | .debug => if v.drained then v.modeEvent .endDrain else v
      | _ => v

/-! ### VAULT (R160 to R165, R385) -/

def Dev.setPhase (v : Dev) (p : VaultPhase) : Dev := { v with chip := { v.chip with vault := { v.chip.vault with phase := p } } }

/-- VAULT_PHASE_V1 (R160): SerDes off. -/
def execVaultPhaseV1 (s : State) : Host.Outcome State Fault Refusal :=
  s.on fun v =>
    let t := v.chip.vault
    if v.settling && t.phase == .v0 && v.atBell (t.detectBell + 1) then
      ({ v with hosts := { v.hosts with
        egress := []
        ports := v.hosts.ports.map (fun (e : Nat × NetPort) => (e.1, { e.2 with linkUp := 0 })) } }).setPhase .v1
    else v

/-- VAULT_PHASE_V2 (R160, R183): the VAULT record is written, and every open stripe closes short. -/
def execVaultPhaseV2 (s : State) : Host.Outcome State Fault Refusal :=
  s.on fun v =>
    let t := v.chip.vault
    if v.settling && t.phase == .v1 && v.atBell (t.detectBell + 2) then
      let v0 := { v with chip := { v.chip with vault := { t with outAt2 := v.humOut } } }
      let v1 := ((v0.journal .vault).2).setPhase .v2
      (v1.store.pend.filter (fun p => p.closed.isNone)).foldl (fun x p => x.closeStripe p .vault) v1
    else v

/-- VAULT_SETTLE_COMPLETE (R152, R160, R386): every grain that can be settled is clean; the energy of the settle phase is what
both channels have integrated since V2 began, and the journal is closed. -/
def execVaultSettleComplete (_done : Unit) (s : State) : Host.Outcome State Fault Refusal :=
  s.on fun v =>
    if v.settling && v.chip.vault.phase == .v2 && (v.store.grains.isEmpty || (v.chip.vault.fencedSettle && !v.canSettle)) then
      ((v.measureSettle v.chip.vault.settled ((v.humOut - v.chip.vault.outAt2) / 1000)).closeJournal).setPhase .v3
    else v

/-- VAULT_JOURNAL_CLOSED (R160): the close record is on all journal bays; the record image is written. -/
def execVaultJournalClosed (s : State) : Host.Outcome State Fault Refusal :=
  s.on fun v =>
    if v.settling && v.chip.vault.phase == .v3 && v.journaled (v.store.journal.nextSeq - 1) then v.startImage.setPhase .v4 else v

/-- RECORD_IMAGE_WRITTEN (R160, R162): V5 flushes every namespace. -/
def execRecordImageWritten (s : State) : Host.Outcome State Fault Refusal :=
  s.on fun v =>
    if v.settling && v.chip.vault.phase == .v4 && v.written .image then (v.writeImage.setPhase .v5).flushBays else v

/-- VAULT_FLUSH_COMPLETE (R160, R163): the marker is written; its ENERGY_MJ is what both channels have integrated from the detection
on. -/
def execVaultFlushComplete (_done : Unit) (s : State) : Host.Outcome State Fault Refusal :=
  s.on fun v =>
    let t := v.chip.vault
    if v.settling && t.phase == .v5 then
      let mj := (v.humOut - t.outAt0) / 1000
      (({ v with chip := { v.chip with vault := { t with energyMj := mj } } }).setPhase .v6).writeMarker false t.detectStamp t.detectStep
        t.settled mj
    else v

/-- VAULT_MARKER_WRITTEN (R85, R163 to R165): a warm chip reset, a wait for input, or gates and modules off from the next bell
on. -/
def execVaultMarkerWritten (s : State) : Host.Outcome State Fault Refusal :=
  s.on fun v =>
    let t := v.chip.vault
    if v.settling && t.phase == .v6 && v.written .marker then
      let v1 := v.setPhase .waiting
      if v.mode != .vault then v1
      else if v.inputPresent then v1.modeEvent .vaultDone
      else if v.chip.input.seen then v1
      else v1.setPhase .gating
    else v

/-- At the bell after the marker, or after the sample at which input was not seen, the bay gates turn off, then the HUM
outputs (R164). -/
def Dev.vaultBell (v : Dev) : Dev :=
  if v.mode == .vault && v.chip.vault.phase == .gating then (v.setPhase .done).bayGatesOff.humGatesOff else v

/-- FENCED_SETTLE_COMPLETE (R385, R386): bay gates turn off; grains not settled are counted. -/
def execFencedSettleComplete (s : State) : Host.Outcome State Fault Refusal :=
  s.on fun v =>
    let t := v.chip.vault
    if v.mode == .fenced && t.fencedSettle && t.phase == .waiting then
      ({ v with chip := { v.chip with vault := { t with phase := .done, fencedSettle := false, grainsLeft := v.dirty } } }).bayGatesOff
    else v

end Sys2Proof.Machine
end

