-- ==== Sys2Proof/Machine/Regions.lean ====
section
/-! DEFINITION. Regions and blocks: the loss and the reset of a spire, block resets, parking, P1, and the Keep pair
(R12 to R20, R26, R95 to R97, R344 to R346, R379, R381, R383). -/

namespace Sys2Proof.Machine

/-! ### Resets that SEVERE calls for (R379, R381, R383) -/

/-- Hold-out ends: the command of the unit's level tries one reset (R381). -/
def Dev.unhold (v : Dev) (covers : BitVec 32 → Bool) : Dev :=
  { v with faults := v.faults.map (fun (e : Nat × FaultRec) =>
      if covers e.2.source then (e.1, { e.2 with heldOut := false }) else e) }

/-- A source whose own level is a spire: the spire itself or its stack (R15, R379). -/
def regionLevel (src : BitVec 32) : Bool := srcType src == 0x020 || srcType src == 0x005

/-- The block of a source at block level: BLOCK_FAULT, or the port block of NET_LINK (R12, R376). -/
def blockLevel (src : BitVec 32) : Option Nat :=
  if srcType src = 0x011 then some (srcInst src)
  else if srcType src = 0x030 then some (0x10 + srcInst src / 4 % 2)
  else none

/-- The block that contains the unit of a source, where the source names one (R376, R388). -/
def blockOfSource (src : BitVec 32) : Option Nat :=
  match blockLevel src with
  | some b => some b
  | none => if srcType src = 0x010 then some (srcInst src / 64) else none

/-- A region reset of a spire is called for: a SEVERE record of the region, or a lease passed up to it (R13, R96, R379). -/
def Dev.regionDue (v : Dev) (s : Nat) : Bool :=
  v.faults.any (fun e => e.2.cls == 3 && e.2.resetDue && regionLevel e.2.source && srcRegion e.2.source == s)
    || v.recov.any (fun e => e.1 == LeaseRef.region (Fin.ofNat 4 s))

/-! ### The loss and the reset of a spire (R26, R97) -/

/-- The lease of the hand-over, and the end of every lease below it (R383). -/
def Dev.regionLease (v : Dev) (s : Nat) : Dev :=
  let inside (l : LeaseRef) : Bool := match l with
    | .bayOp _ => false
    | .cell t _ _ => t.val == s
    | .block t _ => t.val == s
    | .region t => t.val == s
  ({ v with recov := v.recov.filter (fun e => !inside e.1) }).takeRecov (.region (Fin.ofNat 4 s)) (v.now + v.regionCap)

/-- SPIRE_LOSS (R26): the spire stops, SPIRE_FAULT is raised with the bell of loss; which bridge is captured is a free
value. -/
def execSpireLoss (sp : Spire) (cause : BitVec 32) (s : State) : Host.Outcome State Fault Refusal :=
  s.on fun v =>
    let st := (v.spire sp.val).state
    if st == .down || st == .missing || v.mode == .held then v
    else
      let (bridge, v1) := ((v.stopSpire sp.val .down).regionLease sp.val).free32
      v1.fault 0x020 sp.val 0 cause.toNat bridge.toNat (v1.clk.bell % 2 ^ 32)

/-- A region reset begins (R97 step 1): the counters of the spire's blocks are cleared (R438). -/
def Dev.startRegionReset (v : Dev) (s : Nat) : Dev :=
  let blocks := (regionBlocks s).map (·.2)
  let v1 := ((v.stopSpire s .resetting).regionLease s).resetCounters s blocks
  v1.setSpire s { v1.spire s with boot := some ⟨2, 0, none, v.now⟩ }

/-- REGION_RESET (R97, R379, R381): by the Floder command, which also ends a hold-out, or by a SEVERE fault. -/
def execRegionReset (by_ : ResetBy Spire) (s : State) : Host.Outcome State Fault Refusal :=
  s.on fun v =>
    match by_ with
    | .floder p => v.floderRun 0x0103 p fun id v =>
      let n := p.u8 0 % 4
      let v1 := (v.unhold (fun src => srcRegion src == n)).startRegionReset n
      v1.setSpire n { v1.spire n with resetCmd := some id }
    | .fault sp => if v.regionDue sp.val && (v.spire sp.val).state != .resetting then v.startRegionReset sp.val else v

/-- A spire runs again: its ports may come up, its key copies are re-sent (R97 step 5, R316, R346). -/
def Dev.spireBack (v : Dev) (s : Nat) : Dev :=
  let keys := v.sec.debug != .open_
  let v1 := (v.setSpire s { v.spire s with state := .up, keyCopies := keys, idle := 0 }).startCipher s keys []
  (List.range 32).foldl (fun x b => x.fixActive b) v1

/-- REGION_BOOT_COMPLETE (R97 step 5): with stages B2 to B5 passed for the spire, REGION_RESET completes, the records at SEVERE of the region leave it, and the partner
re-mirrors. -/
def execRegionBootComplete (sp : Spire) (s : State) : Host.Outcome State Fault Refusal :=
  s.on fun v =>
    let n := sp.val
    let x := v.spire n
    let booted := match x.boot with | some b => b.stage == 6 | none => false
    if x.state != .resetting || !x.rolesAway || x.lost || !booted then v
    else
      let v1 := (v.setSpire n { x with remirror := true, resetCmd := none, boot := none }).spireBack n
      let v3 := [2 * n, 2 * n + 1].foldl (fun y i => y.setPort i { y.port i with faulted := false }) (v1.sliceBack n)
      let v4 := v3.resetsDone (fun src => srcRegion src == n)
      v4.finishOpt x.resetCmd stOk 0 0 0

/-- REMIRROR_COMPLETE (R47, R97): every dirty grain of the pair has two copies again, and what retired banks held is
relocated. -/
def execRemirrorComplete (sp : Spire) (s : State) : Host.Outcome State Fault Refusal :=
  s.on fun v =>
    let n := sp.val
    let bank (p : Part) : Bool := match p with
      | .bank t _ => t == sp
      | _ => false
    if (v.spire n).remirror && v.spireUp n && v.stackUp (partner n) then
      let v1 := (v.remirror n).setSpire n { v.spire n with remirror := false }
      (v1.chip.unrepaired.filter bank).foldl (fun x p => x.partRepaired p) v1
    else v

/-- ROLE_RETURN (R97 step 6): at the first peal boundary with two copies of every dirty grain. -/
def execRoleReturn (sp : Spire) (s : State) : Host.Outcome State Fault Refusal :=
  s.on fun v =>
    let n := sp.val
    let x := v.spire n
    if v.atPeal && x.rolesAway && !x.remirror && !x.unparked && v.spireUp n && !v.singleCopies n then
      v.setSpire n { x with rolesAway := false }
    else v

/-! ### Cells (R12, R13, R379) -/

/-- A cell is quarantined by its block, which gives its work to its other cells under the block's lease (R12, R310, R383). -/
def Dev.quarantineCell (v : Dev) (s : Spire) (block cell : Nat) : Dev :=
  let x := v.spire s.val
  let l : LeaseRef := .cell s block cell
  let y : SpireRec :=
    if block = 0x60 then
      let q := x.cores ||| BitVec.ofNat 12 (2 ^ cell)
      { x with cores := q, gangLead := leadOf q }
    else if x.badCells.contains (block, cell) then x
    else { x with badCells := x.badCells ++ [(block, cell)] }
  let v1 := v.setSpire s.val y
  if v1.recov.any (fun e => e.1 == l) then (v1.dropRecov l).takeRecov (.block s block) (v.now + v.blockCap) else v1

/-- A cell is reset, and takes work again: with it its part is repaired (R95, R379). -/
def Dev.resetCell (v : Dev) (s : Spire) (block cell : Nat) : Dev :=
  let x := v.spire s.val
  let y : SpireRec :=
    if block = 0x60 then
      let q := x.cores &&& ~~~(BitVec.ofNat 12 (2 ^ cell))
      { x with cores := q, gangLead := leadOf q }
    else { x with badCells := x.badCells.filter (fun e => e != (block, cell)) }
  ((v.setSpire s.val y).dropRecov (.cell s block cell)).partRepaired (.cell s block cell)

/-- The cap of a cell's lease (R383, R390). -/
def Dev.cellCap (v : Dev) : Nat := v.cfgBits 0x40014 31 0

/-- A cell reports a fault: its local retry runs under its own lease (R13, R383). -/
def Dev.cellRetry (v : Dev) (src : BitVec 32) : Dev :=
  let s : Spire := Fin.ofNat 4 (srcRegion src)
  let l : LeaseRef := .cell s (srcInst src / 64) (srcInst src % 64)
  if srcType src = 0x010 && srcRegion src < 4 && (sourceClass src).isSome && !v.recov.any (fun e => e.1 == l) then
    v.takeRecov l (v.now + v.cellCap)
  else v

/-- At a bell the retries of cells whose fault has not risen are over, and work given to other cells has gone on: their
leases end (assumption log 78). The leases of the Headframe's cells end with their messages (R283), that of a block in reset
with the reset. -/
def Dev.leaseBell (v : Dev) : Dev :=
  let done (l : LeaseRef) : Bool := match l with
    | .cell s b c => b != 0x90 && (match Tab.get v.faults (srcOf 0x010 s.val (b * 64 + c)).toNat with
        | some r => r.rising.isNone && !r.react
        | none => true)
    | .block s b => !(v.spire s.val).resets.contains b
    | _ => false
  { v with recov := v.recov.filter (fun e => !(done e.1 && decide (v.now < e.2))) }

/-! ### Block resets (R95, R96, R383) -/

/-- The sub-block of a spire window that holds the pages of a block (R453). -/
def blockPages (block : Nat) : Option Nat :=
  if block = 0x20 then some 0
  else if block = 0x30 then some 1
  else if block = 0x40 then some 2
  else if 0x50 ≤ block && block < 0x54 then some 3
  else if block = 0x60 then some 4
  else if block = 0x70 then some 5
  else if block = 0x80 then some 6
  else none

/-- The bay operations under way at a bay-link group of a spire are issued again from their saved state (R96). -/
def Dev.reissueGroup (v : Dev) (s g : Nat) : Dev :=
  (v.store.ops.filter (fun o => baySpire o.bay o.port == s && bayGroup o.bay o.port == g)).foldl (fun x o =>
    match x.op o.id with
    | some y => if y.sent then x.resendOp y y.port y.switched else x
    | none => x) v

/-- A block reset begins: the block's cells and scheduler state are cleared, its counters and staged values with
them (R438, R460, R461); a recovery lease holds its work. -/
def Dev.startBlockReset (v : Dev) (region block : Nat) : Dev :=
  let v0 := match blockPages block with
    | some j => if region < 4 then v.restoreRegs (spireBase region + j * 0x100000) 0x100000 else v
    | none => v
  let v1 := v0.resetCounters region [block]
  if region < 4 then
    let sp : Spire := Fin.ofNat 4 region
    let inside (l : LeaseRef) : Bool := match l with
      | .cell t b _ => t.val == region && b == block
      | _ => false
    let cells := (v1.spire region).badCells.filter (fun e => e.1 == block)
    let v2 := cells.foldl (fun x c => x.resetCell sp c.1 c.2) v1
    let x := v2.spire region
    let v3 := (({ v2 with recov := v2.recov.filter (fun e => !inside e.1) }).takeRecov (.block sp block)
      (v2.now + v2.blockCap)).setSpire region { x with resets := if x.resets.contains block then x.resets else x.resets ++ [block] }
    if block = 0x20 then
      { v3 with hosts := { v3.hosts with scheds := Tab.set v3.hosts.scheds region (v3.freshSched region) } }
    else if block = 0x60 then
      let v4 := v3.startCipher region x.keyCopies (v3.cipher region).queue
      ((List.range 12).filter (fun c => x.cores.getLsbD c)).foldl (fun y c => y.resetCell sp 0x60 c) v4
    else if block = 0x90 then v3.sliceGoes region
    else if 0x50 ≤ block && block < 0x54 then v3.reissueGroup region (block % 4)
    else if block = 0x10 || block = 0x11 then
      let n := 2 * region + block % 2
      let up := (v3.port n).linkUp
      let v4 := v3.setPort n { v3.port n with linkUp := 0 }
      ((List.range 4).filter (fun k => bit up.toNat k)).foldl (fun z k => z.downPort n k) v4
    else v3
  else v1

/-- BLOCK_RESET (R96, R379, R381): by the Floder command, which names the block's BLOCK_FAULT record, or by a SEVERE fault in
the block. -/
def execBlockReset (by_ : ResetBy (BitVec 32)) (s : State) : Host.Outcome State Fault Refusal :=
  s.on fun v =>
    match by_ with
    | .floder p => v.floderRun 0x0104 p fun id v =>
      let src := BitVec.ofNat 32 (p.u32 0)
      if srcType src = 0x011 && (sourceClass src).isSome then
        (v.unhold (fun x => srcRegion x == srcRegion src && blockOfSource x == some (srcInst src))).startBlockReset
          (srcRegion src) (srcInst src)
      else v.fail id stInvalidField
    | .fault src =>
      match Tab.get v.faults src.toNat, blockLevel src with
      | some r, some b => if r.cls = 3 && r.resetDue && srcRegion src < 4 then v.startBlockReset (srcRegion src) b else v
      | _, _ => v

/-- When the command complex itself is reset, every command inside it that is not held completes ABORTED_RESET, and the later
appends of an append's extent that came elsewhere are abandoned with it; held commands complete from their record, and a FLUSH
continues (R45, R96, R100). -/
def Dev.abortComplex (v : Dev) (s : Nat) : Dev :=
  let mine := v.hosts.ctxs.filter (fun c => v.ctxOn c s && c.phase != .heldWaitSettle && c.kind != .flush)
  let v1 := mine.foldl (fun x c => match x.ctx c.id with
    | none => x
    | some y => (x.dropGrainsOf y.id).refuseCtx y stAborted) v
  let v2 := (mine.filter (fun c => c.order.isSome)).foldl (fun x c => x.abandonFrom c.claim c.msg.cap.key c.place) v1
  let rs := v2.hosts.reads.filter (fun r => v2.homeOf r.qp == s)
  rs.foldl (fun x r => x.endRead r stAborted) v2

/-- A block reset is in progress. -/
def Dev.blockResetting (v : Dev) (src : BitVec 32) : Bool :=
  decide (srcRegion src < 4) && (v.spire (srcRegion src)).resets.contains (srcInst src)
    || (v.cmdsOf 0x0104).any (fun c => c.p.u32 0 == src.toNat)

/-! ### Parking (R345, R346) -/

/-- The ports of a bay that lie on a spire, and whether the other port of the bay is up (R21). -/
def Dev.otherPortsUp (v : Dev) (s : Nat) : Bool :=
  (List.range 32).all (fun b => (v.bay b).state == .absent ||
    ((baySpire b .A != s || v.bayPortUp b .B) && (baySpire b .B != s || v.bayPortUp b .A)))

/-- PARK (R345). -/
def execPark (p : Packet) (s : State) : Host.Outcome State Fault Refusal :=
  s.on fun v => v.floderRun 0x0106 p fun id v =>
    let n := p.u8 0 % 4
    let parked := (List.range 4).any (fun i => (v.spire i).state == .parked || (v.spire i).state == .unparking)
    if v.mode != .service || v.sec.debug == .open_ || parked || !(v.spireUp n) || !(v.spireUp (partner n)) || !(v.otherPortsUp n) then
      v.fail id stInvalidField
    else
      let x := v.spire n
      ((v.setSpire n { x with state := .parked, p1 := false, keyCopies := false, resetCmd := some id }).dropCopiesOf n).stopPorts n

/-- The parked spire's roles are with its partner; PARK completes (R345 step 2). -/
def Dev.parkDone (v : Dev) (s : Nat) : Dev :=
  let v1 := v.handOver s
  let x := v1.spire s
  (v1.setSpire s { x with resetCmd := none }).finishOpt x.resetCmd stOk 0 0 0

/-- An event that unparks a spire has come (R346). -/
def Dev.unparkDue (v : Dev) (s : Nat) : Bool :=
  if v.mode == .vault then !v.stackUp (partner s)
  else v.mode == .degraded || v.sec.debug == .open_ || v.sec.nextDebug == some .open_ || !v.stackUp (partner s) || !v.otherPortsUp s

/-- UNPARK (R346): by the Floder command, or by itself. -/
def execUnpark (by_ : ResetBy Spire) (s : State) : Host.Outcome State Fault Refusal :=
  s.on fun v =>
    match by_ with
    | .floder p => v.floderRun 0x0107 p fun id v =>
      let n := p.u8 0 % 4
      let x := v.spire n
      if x.state == .parked && x.rolesAway then v.setSpire n { x with state := .unparking, resetCmd := some id }
      else v.fail id stInvalidField
    | .fault sp =>
      let x := v.spire sp.val
      if x.state == .parked && x.rolesAway && v.unparkDue sp.val then v.setSpire sp.val { x with state := .unparking } else v

/-- The commits that wait on the pages of a spire are due now (R346, R423). -/
def Dev.dueSpirePages (v : Dev) (s : Nat) : Dev :=
  let mine := (v.regs.pages.map (·.1)).filter (fun p => decide (spireBase s ≤ p) && decide (p < spireBase s + 0xC00000))
  mine.foldl (fun x p => x.takeDue p) v

/-- UNPARK_RESTART_COMPLETE (R346 steps 1 to 3): with its partner lost, the spire takes its own roles back at once, and
those of the partner at the next bell. -/
def execUnparkRestartComplete (sp : Spire) (s : State) : Host.Outcome State Fault Refusal :=
  s.on fun v =>
    let n := sp.val
    let x := v.spire n
    if x.state != .unparking then v
    else
      let alone := !v.stackUp (partner n)
      let v1 := (v.setSpire n { x with unparked := !alone, rolesAway := !alone, resetCmd := if alone then none else x.resetCmd }).spireBack n
      let v2 := if alone then v1.finishOpt x.resetCmd stOk 0 0 0 else v1
      v2.dueSpirePages n

/-- UNPARK_ROLE_RETURN (R346 step 4): UNPARK completes. -/
def execUnparkRoleReturn (sp : Spire) (s : State) : Host.Outcome State Fault Refusal :=
  s.on fun v =>
    let n := sp.val
    let x := v.spire n
    if v.atPeal && x.unparked && v.spireUp n then
      (v.setSpire n { x with unparked := false, rolesAway := false, resetCmd := none }).finishOpt x.resetCmd stOk 0 0 0
    else v

/-! ### P1 (R344) -/

/-- A spire has nothing to do: no command, settle, rebuild, scrub or scan work. -/
def Dev.spireIdle (v : Dev) (s : Nat) : Bool :=
  v.hosts.ctxs.all (fun c => c.arrival.val != s) && v.hosts.reads.all (fun r => v.homeOf r.qp != s)
    && v.hosts.flushes.all (fun f => v.homeOf f.qp != s) && v.store.pend.all (fun p => p.spire.val != s)
    && v.store.scans.all (fun x => x.spire.val != s) && !(v.scrub s).running && v.store.jobs.all (fun j => j.spire.val != s)
    && v.hosts.inbox.all (fun w => v.homeOf w.msg.qp != s)

/-- P1_ENTRY (R344). -/
def execP1Entry (sp : Spire) (s : State) : Host.Outcome State Fault Refusal :=
  s.on fun v =>
    let x := v.spire sp.val
    if v.cfgBits 0x7004 31 31 = 1 && v.spireUp sp.val && v.spireIdle sp.val && v.cfgBits 0x7004 23 0 ≤ x.idle then
      v.setSpire sp.val { x with p1 := true }
    else v

/-- P1_WAKE (R344). -/
def execP1Wake (sp : Spire) (s : State) : Host.Outcome State Fault Refusal :=
  s.on fun v => if (v.spire sp.val).p1 then v.setSpire sp.val { v.spire sp.val with p1 := false, idle := 0 } else v

/-- Idle bells of a spire advance; work wakes it (R344). -/
def Dev.idleBell (v : Dev) (s : Nat) : Dev :=
  let x := v.spire s
  if !v.spireUp s then v
  else if v.cfgBits 0x7004 31 31 = 0 && x.p1 then v.setSpire s { x with p1 := false }
  else if v.spireIdle s then v.setSpire s { x with idle := satAdd (2 ^ 24) x.idle 1 }
  else if x.idle = 0 && !x.p1 then v
  else v.setSpire s { x with idle := 0, p1 := false }

/-! ### The Keep pair (R16 to R20) -/

/-- Faults in both Keeps (R17 case 3, R52): neither is sound, or both that take part have their flag set. -/
def Dev.bothKeepsBad (v : Dev) : Bool :=
  let bad (k : KeepId) : Bool := !v.keepSound k || (v.keep k).flag
  bad .A && bad .B

/-- KEEP_SELFCHECK_MISMATCH (R16, R52): the Keep's internal fault flag is set, KEEP_SELFCHECK raised; with the other Keep
faulty or gone the device enters FENCED. -/
def execKeepSelfcheckMismatch (k : KeepId) (unit : BitVec 32) (s : State) : Host.Outcome State Fault Refusal :=
  s.on fun v =>
    if v.mode == .held || !v.keepSound k then v
    else
      let v1 := (v.setKeep k { v.keep k with flag := true }).fault 0x021 (keepRegion k) 0 unit.toNat 0 0
      if v1.bothKeepsBad then v1.modeEvent .fatal else v1

/-- KEEP_OUTPUT_COMPARE (R17): at a stroke boundary; a miscompare holds the outputs for the rest of the bell, and one that
neither Keep, or both, explain is FATAL. -/
def execKeepOutputCompare (stroke : Fin 8) (miscompare : Bool) (output : BitVec 32) (s : State) :
    Host.Outcome State Fault Refusal :=
  s.on fun v0 =>
    let v := v0.reachNs (64 * stroke.val)
    if v.mode == .held || !miscompare || !v.keepSound .A || !v.keepSound .B then v
    else
      let v1 := { v with chip := { v.chip with keeps := { v.chip.keeps with holdOut := true } } }
      let fa := (v1.keep .A).flag
      let fb := (v1.keep .B).flag
      if fa == fb then v1.fault 0x022 7 0 output.toNat (b2n fa + 2 * b2n fb) 0 else v1

/-- A Keep is to be isolated: its flag explains a miscompare, or one of its records is at SEVERE; the other Keep is sound
(R17, R379). -/
def Dev.isolateDue (v : Dev) (k : KeepId) : Bool :=
  v.keepSound k && v.keepSound (otherKeep k) && !(v.keep (otherKeep k)).flag &&
    ((v.keep k).flag && v.chip.keeps.holdOut || v.faults.any (fun e => e.2.cls == 3 && srcRegion e.2.source == keepRegion k
      && (srcType e.2.source == 0x021 || srcType e.2.source == 0x024 || srcType e.2.source == 0x011)))

/-- KEEP_ISOLATION (R17 to R20): before the next bell boundary. -/
def execKeepIsolation (k : KeepId) (s : State) : Host.Outcome State Fault Refusal :=
  s.on fun v => if v.isolateDue k then v.isolateKeep k else v

end Sys2Proof.Machine
end

