-- ==== Sys2Proof/Machine/Faults.lean ====
section
/-! DEFINITION. Fault events, the reaction to each class at the next bell, and the Floder commands of group 0x07xx (R12,
R376 to R382, R385, R388, R389, R392). -/

namespace Sys2Proof.Machine

/-! ### Reactions (R379, R381, R388) -/

/-- A port block goes out of service by link-down (R236, R379). -/
def Dev.portFault (v : Dev) (n k : Nat) : Dev :=
  let up := bit (v.port n).linkUp.toNat k
  let v1 := v.setPort n { v.port n with linkUp := (v.port n).linkUp &&& ~~~(BitVec.ofNat 4 (2 ^ k)) }
  (if up then v1.downPort n k else v1).partFails (.port (Fin.ofNat 8 n) (Fin.ofNat 4 k))

/-- DEGRADING: the unit is quarantined or taken out of service (R12, R47, R379): a bank is retired until its contents are
relocated and re-mirrored, a cell's work goes to the other cells of its block. SRAM banks are numbered after HBM banks. Other sources have been dealt with at their event, or
name no unit that can be taken out. -/
def Dev.degrade (v : Dev) (src : BitVec 32) : Dev :=
  let t := srcType src
  let r := srcRegion src
  let i := srcInst src
  if (t = 0x001 || t = 0x002 || t = 0x003 || t = 0x004) && r < 4 then
    let bank := if t ≤ 0x002 then 65536 + i else i
    (v.setSpire r { v.spire r with remirror := true }).partFails (.bank (Fin.ofNat 4 r) bank)
  else if t = 0x010 && r < 4 then
    (v.quarantineCell (Fin.ofNat 4 r) (i / 64) (i % 64)).partFails (.cell (Fin.ofNat 4 r) (i / 64) (i % 64))
  else if t = 0x030 then v.portFault (i / 4) (i % 4)
  else if t = 0x040 then v.dropBayPort (Fin.ofNat 32 (i / 2)) (if i % 2 = 0 then .A else .B)
  else v

/-- The SEVERE reaction on a record: the reset that its level calls for becomes due. A cell's reset by its block has no
command: it completes at the bell at which it is due. -/
def Dev.severe (v : Dev) (r : FaultRec) : Dev :=
  let src := r.source
  let t := srcType src
  let g := srcRegion src
  let i := srcInst src
  let put (x : FaultRec) (d : Dev) : Dev := { d with faults := Tab.set d.faults src.toNat x }
  if g < 4 && regionLevel src then
    if r.heldOut then
      (if (v.spire g).state == .missing then v else v.stopSpire g .missing)
    else put { r with resetDue := true } v
  else if g < 4 && (blockLevel src).isSome then
    if r.heldOut then (if t = 0x030 then v.setPort (i / 4) { v.port (i / 4) with faulted := true } else v)
    else put { r with resetDue := true } v
  else if g = 4 || g = 5 then
    let k : KeepId := if g = 4 then .A else .B
    if t = 0x021 || t = 0x024 || t = 0x011 then
      if v.isolateDue k then v.isolateKeep k else if v.keepSound k then v.modeEvent .fatal else v
    else v
  else if g = 7 && (t = 0x041 || t = 0x050 || t = 0x051 || t = 0x052) then v.failBay (Fin.ofNat 32 i)
  else if g < 4 && !r.heldOut then
    let n := r.resetDone
    let v1 := if t = 0x010 then v.resetCell (Fin.ofNat 4 g) (i / 64) (i % 64) else v
    (put n v1).noteFault r n
  else v

/-- The reaction of a record's class, at the start of the bell in which the class takes effect (R379). -/
def Dev.reactTo (v : Dev) (key : Nat) : Dev :=
  match Tab.get v.faults key with
  | none => v
  | some r =>
    let v1 := { v with faults := Tab.set v.faults key { r with react := false } }
    if r.cls = 4 then v1.modeEvent .fatal
    else if r.cls = 3 then v1.severe { r with react := false }
    else if r.cls = 2 then v1.degrade r.source
    else v1

/-- A rise by counting takes effect (R380). -/
def FaultRec.rise (r : FaultRec) : FaultRec :=
  match r.rising with
  | none => r
  | some c => if r.cls < c then { r with cls := c, rising := none, react := true } else { r with rising := none }

/-- FAULT_CLEAR takes effect: the record is cleared, and the events of the bell in which it executed are counted after it
(R382). -/
def Dev.clearRecord (v : Dev) (r : FaultRec) : FaultRec :=
  r.recent.foldl (fun x e => x.event e (v.now - 1) v.escN v.escW) r.cleared

/-- The work of a bell boundary on the fault records: rises, clears, then reactions, highest class first and then in SOURCE
order (R379, R380, R382). A block held out of service is a block's port, or it stays with its region. -/
def Dev.faultBell (v : Dev) : Dev :=
  let step1 (x : Dev) (e : Nat × FaultRec) : Dev :=
    match Tab.get x.faults e.1 with
    | none => x
    | some r =>
      let a := r.rise
      let b := if r.clearing.isSome then x.clearRecord a else a
      let c := { b with recent := [] }
      let y := ({ x with faults := Tab.set x.faults e.1 c }).noteFault r c
      match r.clearing with
      | some id => y.finishOk id c.cls 0 0
      | none => y
  let v1 := v.faults.foldl step1 v
  let due := (v1.faults.filter (fun e => e.2.react)).map (fun e => (e.1, e.2.cls))
  (sortBy (fun (e : Nat × Nat) => 4 - e.2) due).foldl (fun x e => x.reactTo e.1) v1

/-! ### Events (R376, R378, R380, R388) -/

/-- What an event itself does to its unit: a bank beyond ECC loses what it held (R47, R55), a cell retries under its lease
(R383). -/
def Dev.eventLoss (v0 : Dev) (src : BitVec 32) : Dev :=
  let v := v0.cellRetry src
  if (srcType src = 0x002 || srcType src = 0x004) && srcRegion src < 4 && (sourceClass src).isSome then v.loseBank (srcRegion src) else v

/-- FAULT_EVENT (R376, R380). -/
def execFaultEvent (f : FaultInfo) (s : State) : Host.Outcome State Fault Refusal :=
  s.on fun v => if v.mode == .held then v else (v.faultIn f false).eventLoss f.source

/-! ### Floder commands (R377, R382, R389) -/

/-- The 64 B of a record (R377). -/
def FaultRec.bytes (r : FaultRec) : List Byte :=
  leBytes 4 r.source.toNat
    ++ [BitVec.ofNat 8 (b2n r.overflow * 128 + b2n r.captured * 64 + r.base * 8 + r.cls),
        BitVec.ofNat 8 (b2n r.recovered * 32 + b2n r.injected * 16 + b2n r.heldOut * 8 + r.ceiling)]
    ++ leBytes 2 r.count ++ leBytes 2 r.winCount ++ leBytes 2 r.escalations ++ leBytes 2 r.master.toNat ++ [r.access, 0]
    ++ leBytes 8 r.firstStamp ++ leBytes 8 r.address.toNat ++ leBytes 4 r.detail0.toNat ++ leBytes 4 r.detail1.toNat
    ++ leBytes 4 r.detail2.toNat ++ leBytes 8 r.lastStamp ++ leBytes 2 r.firstStep.toNat ++ leBytes 2 r.lastStep.toNat
    ++ leBytes 8 r.winStart

/-- FAULT_READ (R377, R389). -/
def execFaultRead (p : Packet) (s : State) : Host.Outcome State Fault Refusal :=
  s.on fun v => v.floderRun 0x0701 p fun id v =>
    match v.faultRec (BitVec.ofNat 32 (p.u32 0)) with
    | none => v.fail id stInvalidField
    | some r => v.finish id stOk r.cls r.count 0 r.bytes

/-- FAULT_CLEAR (R382, R389): it completes at the next bell. -/
def execFaultClear (p : Packet) (s : State) : Host.Outcome State Fault Refusal :=
  s.on fun v => v.floderRun 0x0702 p fun id v =>
    match v.faultRec (BitVec.ofNat 32 (p.u32 0)) with
    | none => v.fail id stInvalidField
    | some r =>
      if r.cls = 4 || (r.cls = 3 && !r.recovered) then v.fail id stInvalidField
      else if r.clearing.isSome then v.finishOk id r.cls 0 0
      else { v with faults := Tab.set v.faults r.source.toNat { r with clearing := some id } }

/-- FAULT_LIST (R389): sources with CAPTURED set, ascending from the first. -/
def execFaultList (p : Packet) (s : State) : Host.Outcome State Fault Refusal :=
  s.on fun v => v.floderRun 0x0703 p fun id v =>
    let first := p.u32 0
    if (sourceClass (BitVec.ofNat 32 first)).isNone then v.fail id stInvalidField
    else
      let all := (v.faults.filter (fun e => e.2.captured && decide (first ≤ e.1))).map (·.1)
      let out := all.take (p.u16 4)
      v.finish id stOk out.length (((all.drop (p.u16 4)).head?).getD 0xFFFFFFFF) 0 (out.flatMap (leBytes 4))

/-- FAULT_INJECT (R389): counted as a real event, with INJECTED set; the reaction follows. -/
def execFaultInject (p : Packet) (s : State) : Host.Outcome State Fault Refusal :=
  s.on fun v => v.floderRun 0x0704 p fun id v =>
    let src := BitVec.ofNat 32 (p.u32 0)
    if (sourceClass src).isNone then v.fail id stInvalidField
    else if v.sec.debug != .open_ && v.sec.lifecycle != .blank then v.fail id stAccessDenied
    else
      let f : FaultInfo := ⟨src, none, 0xFFFF, 0, 0, BitVec.ofNat 32 (p.u32 8), BitVec.ofNat 32 (p.u32 12), BitVec.ofNat 32 (p.u32 16)⟩
      (v.faultIn f true).finishOk id 0 0 0

end Sys2Proof.Machine
end

