-- ==== Sys2Proof/Machine/Claims.lean ====
section
/-! DEFINITION. The Floder commands of claims, ports and the trace buffer (R109 to R113, R412). -/

namespace Sys2Proof.Machine

/-! ### Claims (R109 to R113, R412) -/

/-- A claim descriptor read from its 64 B, with its claim number; none when it breaks a range of R109 or sets an RSVD bit
(R110). -/
def parseClaim (d : List Byte) : Option (Nat × ClaimDesc) :=
  let b2 := field d 2 1
  let k := field d 4 1
  let m := field d 5 1
  let quota := field d 8 8
  let rsvd := bits (field d 0 2) 15 12 = 0 && bits b2 7 4 = 0 && bits (field d 3 1) 7 5 = 0 && bits k 7 5 = 0 && bits m 7 4 = 0
    && bits (field d 6 2) 15 13 = 0 && bits (field d 24 2) 15 13 = 0 && field d 26 2 = 0 && allZero (slice d 36 28)
  let ranges := decide (1 ≤ k) && decide (k ≤ 28) && decide (m ≤ 8) && decide (k + m ≤ 32) && decide (quota % 4096 = 0)
  if rsvd && ranges then
    some (bits (field d 0 2) 11 0,
      { payloadProtect := bit b2 3, mgmt := bit b2 2, strict := bit b2 1, enable := bit b2 0,
        classMask := BitVec.ofNat 5 (field d 3 1), k := k, m := m, keySlot := bits (field d 6 2) 12 0, quotaBytes := quota,
        quotaExtents := field d 16 4, weight0 := field d 20 1, weight1 := field d 21 1, weight2 := field d 22 1,
        weight3 := field d 23 1, meterId := bits (field d 24 2) 12 0, admitBound := field d 28 4, xferLife := field d 32 4 })
  else none

/-- The 64 B of a descriptor (R109). -/
def ClaimDesc.bytes (d : ClaimDesc) (n : Nat) : List Byte :=
  padTo 64 (leBytes 2 n
    ++ [BitVec.ofNat 8 (8 * b2n d.payloadProtect + 4 * b2n d.mgmt + 2 * b2n d.strict + b2n d.enable),
        BitVec.ofNat 8 d.classMask.toNat, BitVec.ofNat 8 d.k, BitVec.ofNat 8 d.m]
    ++ leBytes 2 d.keySlot ++ leBytes 8 d.quotaBytes ++ leBytes 4 d.quotaExtents
    ++ leBytes 1 d.weight0 ++ leBytes 1 d.weight1 ++ leBytes 1 d.weight2 ++ leBytes 1 d.weight3
    ++ leBytes 2 d.meterId ++ zeros 2 ++ leBytes 4 d.admitBound ++ leBytes 4 d.xferLife)

/-- CLAIM_SET (R109, R110, R412): a versioned update, complete when the version takes effect. -/
def execClaimSet (p : Packet) (s : State) : Host.Outcome State Fault Refusal :=
  s.on fun v => v.floderRun 0x0201 p fun id v =>
    match parseClaim (p.bytes 64) with
    | none => v.fail id stInvalidField
    | some (n, d) => v.queueUpdate .claim n (.claimSet d) (some id)

/-- The claim number of a claim command (R412). -/
def claimParam (p : Packet) : Nat := p.u16 0 % 4096

/-- CLAIM_GET (R412). The manual gives no result for a claim that is not set: INVALID_FIELD. -/
def execClaimGet (p : Packet) (s : State) : Host.Outcome State Fault Refusal :=
  s.on fun v => v.floderRun 0x0202 p fun id v =>
    match v.claimDesc (claimParam p) with
    | none => v.fail id stInvalidField
    | some d => v.finish id stOk (v.claimEntry (claimParam p)).version.toNat 0 0 (d.bytes (claimParam p))

/-- Extents of a claim in every state. -/
def Dev.extentsOf (v : Dev) (claim : Nat) : List Extent := v.hosts.extents.filter (fun e => e.claim == claim)

/-- CLAIM_STATUS (R49, R110, R412). -/
def execClaimStatus (p : Packet) (s : State) : Host.Outcome State Fault Refusal :=
  s.on fun v => v.floderRun 0x0203 p fun id v =>
    match v.claimDesc (claimParam p) with
    | none => v.fail id stInvalidField
    | some d =>
      let es := v.extentsOf (claimParam p)
      let grains := sumMap (·.grains) es
      v.finishOk id (grains % 2 ^ 32) (grains / 2 ^ 32 % 2 ^ 32) (b2n (d.m == 0) * 2 ^ 31 + es.length % 2 ^ 31)

/-- CLAIM_REMOVE (R112, R412). -/
def execClaimRemove (p : Packet) (s : State) : Host.Outcome State Fault Refusal :=
  s.on fun v => v.floderRun 0x0204 p fun id v =>
    let n := claimParam p
    let used := !(v.extentsOf n).isEmpty || v.hosts.sessions.any (fun e => e.2.claim == n)
      || v.keySlots.any (fun e => e.2.state == .loaded && e.2.claim == n)
    if (v.claimDesc n).isNone || used then v.fail id stInvalidField else v.queueUpdate .claim n .claimRemove (some id)

/-! ### Ports (R218, R412) -/

/-- PORT_SET (R412): a breakout change, possible with no queue pair bound, ends the links of the port. -/
def execPortSet (p : Packet) (s : State) : Host.Outcome State Fault Refusal :=
  s.on fun v => v.floderRun 0x0501 p fun id v =>
    let n := p.u8 0 % 8
    let k := p.u8 1 % 4
    let bo := p.u8 2 % 4
    let x := v.port n
    if bo = 3 || subCount bo ≤ k || (bo ≠ x.breakout && v.boundQps n ≠ 0) then v.fail id stInvalidField
    else
      let v0 := if bo = x.breakout then v else
        ((List.range 4).filter (fun i => bit x.linkUp.toNat i)).foldl (fun y i => y.downPort n i)
          (v.setPort n { x with linkUp := 0, breakout := bo })
      let y := v0.port n
      (v0.setPort n { y with
        breakout := bo
        vlan := Tab.set y.vlan k (p.u16 4 % 4096)
        ipv4 := Tab.set y.ipv4 k (BitVec.ofNat 32 (p.u32 8))
        ipv6 := Tab.set y.ipv6 k (BitVec.ofNat 128 (field p.params 16 16))
        mac := Tab.set y.mac k (BitVec.ofNat 48 (field p.params 32 6)) }).finishOk id 0 0 0

/-- A port is the time-base reference: PTP is a source, on this port's sub-port 0 (R65, R453, R456). -/
def Dev.ptpRef (v : Dev) (n : Nat) : Bool := v.cfgBits 0x5004 30 30 == 1 && v.cfgBits 0x5004 29 27 == n

/-- PORT_QUERY (R412). -/
def execPortQuery (p : Packet) (s : State) : Host.Outcome State Fault Refusal :=
  s.on fun v => v.floderRun 0x0502 p fun id v =>
    let n := p.u8 0 % 8
    let k := p.u8 1 % 4
    let x := v.port n
    if subCount x.breakout ≤ k then v.fail id stInvalidField
    else v.finishOk id (b2n (x.subUp k) + 2 * x.breakout + 8 * b2n (v.ptpRef n && k == 0)) (v.boundQps n) (x.flushes % 2 ^ 32)

/-! ### Trace (R412) -/

/-- TRACE_READ (R412): what the trace buffer holds is not given, so how many entries are written, up to the number asked for,
and their bytes are free values. -/
def execTraceRead (p : Packet) (s : State) : Host.Outcome State Fault Refusal :=
  s.on fun v => v.floderRun 0x0604 p fun id v =>
    let (f, v1) := v.free32
    let n := if p.u32 4 = 0 then 0 else f.toNat % (p.u32 4 + 1)
    let (d, v2) := v1.freeBytes (32 * n)
    v2.finish id stOk n (p.u32 0 + n) 0 d

end Sys2Proof.Machine
end

