-- ==== Sys2Proof/Machine/Checks.lean ====
section
/-! DEFINITION. Scans and scrub (R206, R207, R209 to R215). -/

namespace Sys2Proof.Machine

/-! ### Scans (R206, R209 to R211) -/

/-- Bytes of a stack from an address on. The manual does not say where in a stack its contents lie: a byte that no JTAG write
has set is a free value. -/
def Dev.hbmBytes (v : Dev) (s start n : Nat) : List Byte × Dev :=
  ((List.range n).map (fun i => (Tab.get v.store.hbm (s * 2 ^ 40 + start + i)).getD (Config.freeByte v.freeTick (start + i))),
    { v with freeTick := v.freeTick + 1 })

/-- CRC profile p of a spire in force; none where its WIDTH is not 1 to 64 (R205, R206). -/
def Dev.crcProfile (v : Dev) (s p : Nat) : Option CrcProfile :=
  if p = 0 then some crc32c
  else if p = 1 then some crc64
  else
    let b := spireBase s + 5 * 0x100000 + 0x10020 + 0x20 * (p - 2)
    let c := (v.cfg b).toNat
    let w := bits c 6 0
    let wide (o : Nat) : Nat := ((v.cfg (b + o)).toNat + (v.cfg (b + o + 4)).toNat * 2 ^ 32) % 2 ^ w
    if 1 ≤ w && w ≤ 64 then some ⟨w, wide 4, wide 0xC, bit c 8, bit c 9, wide 0x14⟩ else none

/-- Stack size in bytes (R10). -/
def stackBytes : Nat := 24 * 2 ^ 30

/-- The scan that SCAN_START asks for, without its name; none where a field or range of R209 is broken. -/
def Dev.parseScan (v : Dev) (p : Packet) : Option Scan :=
  let b0 := p.u8 0
  let b1 := p.u8 1
  let b2 := p.u8 2
  let b3 := p.u8 3
  let grain := bit b0 0
  let fromBay := bit b2 2
  let port := bits b3 6 5
  let bay := b3 % 32
  let start := p.u64 8
  let len := p.u64 16
  let rsvd := bits b0 7 2 = 0 && bits b1 7 2 = 0 && bits b2 7 4 = 0 && bits b3 7 7 = 0 && p.u32 4 = 0 && allZero (slice p.params 32 16)
  let meta_ := bit b2 3
  let s := if fromBay then
      baySpire bay (if port = 1 then .A else if port = 2 then .B else v.readPort bay)
    else b2 % 4
  let range := if fromBay then decide (port ≠ 3) && decide (start + len ≤ (v.bay bay).lbas)
    else decide (start % 64 = 0) && decide (start + len * (if grain then 4160 else 1) ≤ stackBytes)
  match if grain then some crc64 else v.crcProfile s (b1 % 4) with
  | none => none
  | some c =>
    if rsvd && range && decide (p.u64 24 < 2 ^ c.width) && (!meta_ || (fromBay && !grain)) then
      some { spire := Fin.ofNat 4 s, tag := p.tag, cmd := 0, grain := grain, compare := bit b0 1, width := c.width, poly := c.poly,
             init := c.init, refin := c.refin, refout := c.refout, xorout := c.xorout, inclMeta := meta_, fromBay := fromBay,
             port := port, bay := bay, start := start, length := len, expect := BitVec.ofNat 64 (p.u64 24),
             dataUnits := min 15 (max 8 (v.spireCfg s 5 0x10004 4 0)), got := [] }
    else none

/-- Scans of a spire. -/
def Dev.scansOn (v : Dev) (s : Nat) : Nat := (v.store.scans.filter (fun x => x.spire.val == s)).length

/-- SCAN_START (R209): with 64 scans on its spire it waits at the head of its source. Where in a stack the staging windows lie
is not given, so whether an HBM range touches one is a free value while the spire has windows. -/
def execScanStart (p : Packet) (s : State) : Host.Outcome State Fault Refusal :=
  s.on fun v =>
    let full := match v.parseScan p with | some x => decide (64 ≤ v.scansOn x.spire.val) | none => false
    if full then v
    else v.floderRun 0x0901 p fun id v =>
      match v.parseScan p with
      | none => v.fail id stInvalidField
      | some x =>
        let asks := !x.fromBay && v.windowsOn x.spire.val != 0 && v.sec.debug != .open_
        let (f, v1) := if asks then v.freeBool else (false, v)
        if f then v1.fail id stAccessDenied
        else
          ({ v1 with store := { v1.store with scans := v1.store.scans ++ [{ x with cmd := id }] } }).scanNext x.spire x.tag

/-- SCAN_ABORT (R210): the scan with the tag given completes ABORTED_RESET. -/
def execScanAbort (p : Packet) (s : State) : Host.Outcome State Fault Refusal :=
  s.on fun v => v.floderRun 0x0902 p fun id v =>
    match v.store.scans.find? (fun x => x.tag.toNat == p.u16 0) with
    | none => v.fail id stInvalidField
    | some x => (v.cutScan x.spire.val x.tag stAborted).finishOk id 0 0 0

/-- The parameters a scan started with. -/
def Scan.crc (x : Scan) : CrcProfile := ⟨x.width, x.poly, x.init, x.refin, x.refout, x.xorout⟩

/-- The grain records of a scan. -/
def Dev.scanRecords (v : Dev) (x : Scan) : List (List Byte) × Dev :=
  if x.fromBay then (x.got, v)
  else
    let (b, v1) := v.hbmBytes x.spire.val x.start (x.length * 4160)
    ((List.range x.length).map (fun i => slice b (4160 * i) 4160), v1)

/-- The bytes of a STREAM scan. -/
def Dev.scanBytes (v : Dev) (x : Scan) : List Byte × Dev :=
  if x.fromBay then (x.got.flatMap (fun g => if x.inclMeta then slice g 0 4160 else slice g 0 4096), v)
  else v.hbmBytes x.spire.val x.start x.length

/-- SCAN_COMPLETE (R210, R211): every read of its range has come back. The grains of a bay have been judged as they came. -/
def execScanComplete (sp : Spire) (tag : BitVec 16) (s : State) : Host.Outcome State Fault Refusal :=
  s.on fun v =>
    match v.store.scans.find? (fun x => x.spire == sp && x.tag == tag) with
    | none => v
    | some x =>
      if v.store.ops.any (fun o => o.use == OpUse.scan sp tag) || (x.fromBay && decide (x.got.length < x.length)) then v
      else
        let v0 := { v with store := { v.store with scans := v.store.scans.filter (fun y => !(y.spire == sp && y.tag == tag)) } }
        if x.grain then
          let (rs, v1) := v0.scanRecords x
          let bad := badRecords rs
          let v2 := if x.fromBay then v1 else (v1.count sp.val 0x07 0 0x001 rs.length).count sp.val 0x07 0 0x002 bad.length
          match bad with
          | [] => v2.finish x.cmd stOk rs.length 0 0xFFFFFFFF []
          | i :: _ => (if x.fromBay then v2 else v2.scanMismatch sp x.dataUnits).finish x.cmd stCheckMismatch rs.length bad.length i []
        else
          let (bs, v1) := v0.scanBytes x
          let c := crcOf x.crc bs
          if x.compare && c ≠ x.expect.toNat then
            (v1.scanMismatch sp x.dataUnits).finish x.cmd stCheckMismatch (c % 2 ^ 32) (c / 2 ^ 32) 0 []
          else v1.finish x.cmd stOk (c % 2 ^ 32) (c / 2 ^ 32) 0 []

/-! ### Scrub (R212 to R215) -/

/-- SCRUB_PASS_START (R212): the items are listed at a peal boundary. -/
def execScrubPassStart (sp : Spire) (s : State) : Host.Outcome State Fault Refusal :=
  s.on fun v =>
    let n := sp.val
    let x := v.scrub n
    if v.atPeal && v.scrubOn n && !x.running then
      let items := v.scrubItems n
      let pages := v.scrubPages n
      v.setScrub n { x with running := true, items := items, pages := pages, total := items.length + pages.length, pealNo := 0,
                            quota := 0, late := false }
    else v

/-- The quota of peal n of a pass of N items over P peals (R212). -/
def scrubQuota (items peals n : Nat) : Nat := ceilDiv (items * n) (max 1 peals) - ceilDiv (items * (n - 1)) (max 1 peals)

/-- A map page is scrubbed: the CRC-64 of each copy that can be read is checked, and one that fails is marked for the next checkpoint.
The table has no row for these reads: whether a copy is right is a free value (R213; assumption log 53). -/
def Dev.checkPage (v : Dev) (key : Nat) : Dev :=
  match Tab.get v.store.pages key with
  | none => v
  | some p =>
    let (bad, v1) := (p.at_.filter (fun b => v.bayReadable b && !p.bad.contains b)).foldl (fun (a : List Nat × Dev) b =>
      let (f, x) := a.2.freeBool
      (if f then a.1 ++ [b] else a.1, x)) (p.bad, v)
    { v1 with store := { v1.store with pages := Tab.set v1.store.pages key { p with bad := bad } } }

/-- Map pages are scrubbed and counted. -/
def Dev.checkPages (v : Dev) (s : Nat) (keys : List Nat) : Dev :=
  if keys.isEmpty then v else (keys.foldl (fun x k => x.checkPage k) v).count s 0x07 0 0x003 keys.length

/-- SCRUB_PEAL_QUOTA (R212): the quota of the peal and what earlier peals did not reach; map pages are checked first. -/
def execScrubPealQuota (sp : Spire) (s : State) : Host.Outcome State Fault Refusal :=
  s.on fun v =>
    let n := sp.val
    let x := v.scrub n
    if v.atPeal && v.scrubOn n && x.running then
      let p := v.cfgBits (spireBase n + 0x51000C) 31 0
      let k := x.pealNo + 1
      let q := x.quota + scrubQuota x.total p k
      let left := x.pages.filter (fun g => (v.scrubPages n).contains g)
      let now := left.take q
      let late := decide (p < k)
      let v1 := v.setScrub n { x with pealNo := k, quota := q - now.length, pages := left.drop q, late := x.late || late }
      let v2 := v1.checkPages n now
      let v3 := if late && !x.late then v2.fault 0x056 n n n (x.items.length + (left.drop q).length) 0 else v2
      v3.endPass n
    else v

/-- A grain of a scrubbed stripe as read: filler is zeros (R177, R213). -/
def readSeam (r : StripeRec) (seams : List (List (List Byte))) (p g : Nat) : List Byte :=
  if r.filler p g then zeros 4160 else padTo 4160 ((seams.getD p []).getD g [])

/-- A grain of a scrubbed stripe rebuilt from the other positions read (R192, R213). -/
def scrubRebuild (r : StripeRec) (seams : List (List (List Byte))) (key : List Byte) (g : RunGrain) (i : Nat) : Option (List Byte) :=
  let others := ((List.range r.width).filter (fun q => q != i / 16)).map (fun q => (q, readSeam r seams q (i % 16)))
  (choices r.k others).findSome? (fun c => (rebuildGrain r (i / 16) c).bind (fun img =>
    if (openGrain key g.claim g.key g.offset img).isSome then some img else none))

/-- A data grain judged in a scrub, with its parity found to disagree or its CRC-64 to differ: the image that stands, and the
fault (R213, R214). -/
def Dev.scrubGrain (v : Dev) (r : StripeRec) (seams : List (List (List Byte))) (key : List Byte) (g : RunGrain) (i : Nat) :
    List Byte × Dev :=
  let img := readSeam r seams (i / 16) (i % 16)
  match judge key g.claim g.key g.offset img with
  | .sound _ => (img, v)
  | .badCrc _ => (imgFixCrc img, v.needsRepair 0x050 r (i / 16) (i % 16))
  | _ =>
    match scrubRebuild r seams key g i with
    | some x => (x, v.needsRepair 0x051 r (i / 16) (i % 16))
    | none => (img, v.rangeLost g.claim g.key r.id g.offset)

/-- Steps 3 to 5 of R213 for a stripe whose key is loaded: CRC mismatches, then parity. -/
def Dev.scrubStripe (v : Dev) (t : Stripe) (seams : List (List (List Byte))) (key : List Byte) : Dev :=
  let r := t.rec_
  let n := t.runs.length
  let step3 (a : List (List Byte) × Dev) (i : Nat) : List (List Byte) × Dev :=
    let img := readSeam r seams (i / 16) (i % 16)
    match t.runs[i]? with
    | some g =>
      if crcMatches img then (a.1 ++ [img], a.2)
      else
        let (x, d) := (a.2.count (r.id / 2 ^ 46) 0x07 0 0x002 1).scrubGrain r seams key g i
        (a.1 ++ [x], d)
    | none => (a.1 ++ [img], a.2)
  let (data, v1) := (List.range n).foldl step3 ([], v)
  let at_ (l : List (List Byte)) (p g : Nat) : List Byte := if r.filler p g then zeros 4160 else l.getD (16 * p + g) (zeros 4160)
  let wrong (l : List (List Byte)) (g : Nat) : List Nat :=
    let ds := (List.range r.k).map (fun p => at_ l p g)
    (List.range r.m).filter (fun j => (r.placeOf (r.k + j)).isSome && rsParity j ds != readSeam r seams (r.k + j) g)
  let step5 (x : Dev) (g : Nat) : Dev :=
    if (wrong data g).isEmpty then x
    else
      let idx := (List.range r.k).map (fun p => 16 * p + g)
      let (fixed, y) := idx.foldl (fun (a : List (List Byte) × Dev) i =>
        match t.runs[i]? with
        | some gr =>
          (match judge key gr.claim gr.key gr.offset (a.1.getD i []) with
           | .sound _ => a
           | _ =>
             let (z, d) := a.2.scrubGrain r seams key gr i
             (a.1.set i z, d))
        | none => a) (data, x)
      (wrong fixed g).foldl (fun z j => z.needsRepair 0x052 r (r.k + j) g) y
  (List.range 16).foldl step5 v1

/-- A scrub needs authentication: a CRC-64 differs, or parity disagrees (R213 steps 3 and 5). -/
def scrubNeedsKey (t : Stripe) (seams : List (List (List Byte))) : Bool :=
  let r := t.rec_
  let crc := (List.range t.runs.length).any (fun i => !crcMatches (readSeam r seams (i / 16) (i % 16)))
  let parity := (List.range 16).any (fun g =>
    let ds := (List.range r.k).map (fun p => readSeam r seams p g)
    (List.range r.m).any (fun j => (r.placeOf (r.k + j)).isSome && rsParity j ds != readSeam r seams (r.k + j) g))
  crc || parity

/-- The key of a stripe's claim, if its slot is loaded. -/
def Dev.stripeKey (v : Dev) (r : StripeRec) : Option (List Byte) :=
  match v.claimDesc r.claim with
  | some d => if v.claimKeyLoaded r.claim then some (v.coreKey (r.id / 2 ^ 46) d.keySlot) else none
  | none => none

/-- A scrubbed stripe whose grains the cipher complex has served is checked; one freed since counts as done (R212, R213, R309). -/
def Dev.scrubServed (v : Dev) (n stripe : Nat) (seams : List (List (List Byte))) : Dev :=
  match v.store.stripes.find? (fun t => t.rec_.id == stripe && !t.dead) with
  | none => v.endPass n
  | some t => match v.stripeKey t.rec_ with
    | some k => (v.scrubStripe t seams k).endPass n
    | none => v.endPass n

/-- What the reads of a stripe have brought, by position and grain index. -/
def Scrub.seams (x : Scrub) (r : StripeRec) : List (List (List Byte)) :=
  (List.range r.width).map (fun p => (List.range 16).map (fun g => (Tab.get x.got (gotKey r.id p g)).getD []))

/-- Some read of a stripe for scrub is not complete. -/
def Dev.scrubBusy (v : Dev) (s : Spire) (stripe : Nat) : Bool :=
  v.store.ops.any (fun o => match o.use with
    | .scrubRead x t _ => x == s && t == stripe
    | _ => false)

/-- A stripe that has been read is counted and checked: one that needs its key once the cipher complex has served its grains, or where
the key slot is not loaded after that (R213, R309). -/
def Dev.scrubJudge (v : Dev) (n : Nat) (t : Stripe) (seams : List (List (List Byte))) : Dev :=
  let r := t.rec_
  let v1 := (v.count n 0x07 0 0x001 t.runs.length).count n 0x07 0 0x003 1
  if !(scrubNeedsKey t seams) then v1.endPass n
  else match v1.stripeKey r with
    | some k =>
      let (go, v2) := v1.offerCipher n 4 t.runs.length (.scrub r.id seams)
      if go then (v2.scrubStripe t seams k).endPass n else v2.endPass n
    | none =>
      let v2 := v1.fault 0x055 7 r.claim r.claim r.id 0
      let y := v2.scrub n
      (v2.setScrub n { y with deferred := if y.deferred.contains r.id then y.deferred else y.deferred ++ [r.id] }).endPass n

/-- SCRUB_STRIPE_READ_COMPLETE (R213 to R215): every read of the stripe has come back, and it is checked. An item that has started goes
on where SCRUB_EN has been cleared since (R206). A read that failed leaves the stripe to the next pass, as a bay that does not serve
does: the manual does not give the case (DESIGN CHOICE, assumption log 53). -/
def execScrubStripeReadComplete (sp : Spire) (stripe : Nat) (_done : Unit) (s : State) : Host.Outcome State Fault Refusal :=
  s.on fun v =>
    let n := sp.val
    let x := v.scrub n
    if !(v.spireUp n && v.serving) || x.reading != some stripe || v.scrubBusy sp stripe then v
    else
      let v1 := v.setScrub n { x with reading := none, got := [], items := dropFirst (fun i => i == stripe) x.items }
      match v.stripe stripe with
      | none => v1.endPass n
      | some t =>
        let r := t.rec_
        let seams := x.seams r
        if v1.scrubSkips r || x.got.any (fun e => e.2.isEmpty) then v1.endPass n
        else v1.scrubJudge n t seams

/-- SCRUB_DEFERRED_RETRY (R213): the key slot has been loaded, so the stripe is an item again, with a quota of its own. Where its pass
has ended, it is one outside any pass: the manual does not say how such a retry counts (DESIGN CHOICE, assumption log 72). -/
def execScrubDeferredRetry (sp : Spire) (stripe : Nat) (s : State) : Host.Outcome State Fault Refusal :=
  s.on fun v =>
    let n := sp.val
    let x := v.scrub n
    match v.store.stripes.find? (fun t => t.rec_.id == stripe && !t.dead) with
    | none => v
    | some t =>
      if v.scrubOn n && x.deferred.contains stripe && (v.stripeKey t.rec_).isSome then
        v.setScrub n { x with deferred := x.deferred.filter (fun i => i != stripe), items := x.items ++ [stripe], quota := x.quota + 1 }
      else v

end Sys2Proof.Machine
end

