-- ==== Sys2Proof/Machine/Blocks.lean ====
section
/-! DEFINITION. The end of a block reset: what the block takes up again (R96, R309, R379, R383). -/

namespace Sys2Proof.Machine

/-- The cipher complex of a spire is back: the work that waited for it is served in its scheduler's order, and goes on (R96, R309). -/
def Dev.cipherBack (v : Dev) (s : Nat) : Dev :=
  let (ws, v1) := v.drainCipher s
  ws.foldl (fun x w => match w with
    | .read id => x.resolveRead id
    | .job id => x.jobServed id
    | .scrub stripe seams => x.scrubServed s stripe seams) v1

/-- BLOCK_RESET_COMPLETE (R96, R379, R383): the saved work is re-issued, or the command complex's commands end; a reset that
did not resolve the fault leaves it to the region. -/
def execBlockResetComplete (source : BitVec 32) (resolved : Bool) (s : State) : Host.Outcome State Fault Refusal :=
  s.on fun v =>
    let r := srcRegion source
    let b := srcInst source
    if srcType source ≠ 0x011 || !v.blockResetting source then v
    else
      let x := v.spire r
      let v0 := if r < 4 then v.setSpire r { x with resets := x.resets.filter (fun n => n != b) } else v
      let v1 := if r < 4 && x.resets.contains 0x20 && b = 0x20 then v0.abortComplex r else v0
      let v2 := if r < 4 && b = 0x90 && v1.stackUp r then v1.sliceBack r
        else if r < 4 && b = 0x60 then v1.cipherBack r else v1
      let n := 2 * r + b % 2
      let v3 := if r < 4 && (b = 0x10 || b = 0x11) && resolved then v2.setPort n { v2.port n with faulted := false } else v2
      let v4 := if resolved then v3.resetsDone (fun src => srcRegion src == r && blockOfSource src == some b) else v3
      let l : LeaseRef := .block (Fin.ofNat 4 r) b
      let v5 := if r < 4 then (if resolved then v4.dropRecov l else v4.passLease l) else v4
      (v5.cmdsOf 0x0104).foldl (fun y c => if c.p.u32 0 = source.toNat then y.finishOk c.id 0 0 0 else y) v5

end Sys2Proof.Machine
end

