-- ==== Sys2Proof/Machine/Rings.lean ====
section
/-! DEFINITION. The endpoint rings and the replies of Floder commands on every route (R395 to R404, R410). -/

namespace Sys2Proof.Machine

/-! ### Reaching a function (R423, R425, R428, R429) -/

/-- A memory request to a function is served: the link is up, and the function is in D0 with Memory Space Enable set. -/
def Dev.reachable (v : Dev) (pf : Pf) : Bool :=
  v.ep.link && (v.func pf).memSpace && !(v.func pf).d3hot && (v.func pf).flr.isNone

/-- The function of a fault instance or counter: 0 or 1 (R432). -/
def pfNo : Pf → Nat
  | .pf0 => 0
  | .pf1 => 1

/-- A request is answered UR, which raises EP_UR_SENT; the requester ID is a free value (R423, R432). -/
def Dev.answerUr (v : Dev) (pf : Pf) (addr : Nat) : Dev :=
  let (id, v1) := (v.emit (.ur pf)).free32
  v1.fault 0x0E5 v1.epRegion (pfNo pf) (addr % 2 ^ 32) (id.toNat % 65536) 0

/-- A write of a doorbell: one that finds PF0 not answering is returned UR, one that a freeze finds is dropped (R423, R425). -/
def Dev.doorbell (v : Dev) (addr : Nat) (go : Dev) : Dev :=
  if !v.ep.link then v
  else if !v.reachable .pf0 then v.answerUr .pf0 addr
  else if v.ep.frozen then v else go

/-! ### Enabling and disabling (R396, R401) -/

/-- SQ_BASE and ST_BASE (R402). -/
def Dev.sqBase (v : Dev) (r : Nat) : Nat := v.ringCfg r 0x004 31 0 + 2 ^ 32 * v.ringCfg r 0x008 31 0
def Dev.stBase (v : Dev) (r : Nat) : Nat := v.ringCfg r 0x00C 31 0 + 2 ^ 32 * v.ringCfg r 0x010 31 0

/-- The configuration of a ring is one that can run (R396). -/
def Dev.ringOk (v : Dev) (r : Nat) : Bool :=
  let l := v.ringCfg r 0x14 27 24
  v.sqBase r % 64 == 0 && v.stBase r % 32 == 0 && decide (4 ≤ l) && decide (l ≤ 12)

/-- ENABLE committed to 1. -/
def Dev.ringOn (v : Dev) (r : Nat) : Dev :=
  let v1 := (v.orphanRing r).setRing r { Ring.reset with state := .running }
  if v1.ringOk r then v1 else v1.ringError r 4

/-- ENABLE committed to 0: what has not started never does. -/
def Dev.ringOff (v : Dev) (r : Nat) : Dev :=
  let x := v.ring r
  if x.state == .disabled then v
  else (v.orphanRing r).setRing r { x with state := .draining, fetches := [], slots := [], counted := 0, firstAt := none }

/-- The bell at which a commit of a ring page takes effect: ENABLE acts when it changes. -/
def Dev.ringCommit (v : Dev) (r : Nat) (was : Bool) : Dev :=
  let now := v.ringCfg r 0x14 31 31 == 1
  if now && !was then v.ringOn r else if !now && was then v.ringOff r else v

/-! ### Fetching (R397, R427, R428) -/

/-- The fetches of a ring that have come back, up to the first that has not: their slots and the rest. -/
def arrivedSlots : List Fetch → List (BitVec 16 × Packet) × List Fetch
  | [] => ([], [])
  | f :: fs => if f.arrived then let (s, r) := arrivedSlots fs
                                 (f.slots ++ s, r) else ([], f :: fs)

/-- The slots fetched join the ring in order, and the ring goes on. -/
def Dev.pullSlots (v : Dev) (r : Nat) : Dev :=
  let x := v.ring r
  let (s, rest) := arrivedSlots x.fetches
  (v.setRing r { x with slots := x.slots ++ s, fetches := rest }).skipHeads (.ring (Fin.ofNat 256 r))

/-- The reads of fetches that wait are issued. -/
def Dev.issueFetches (v : Dev) (r : Nat) : Dev :=
  ((v.ring r).fetches.filter (fun f => !f.issued)).foldl (fun (x : Dev) f =>
    match x.epRead (.fetch r f.id) with
    | none => x
    | some y =>
      let mark (g : Fetch) : Fetch := { g with issued := true }
      y.setRing r { y.ring r with fetches := updAll (fun (g : Fetch) => g.id == f.id) mark (y.ring r).fetches }) v

/-- SQ_TAIL (R397): slots from the last tail up to the value are fetched. The source of every slot is the ring. -/
def Dev.sqTail (v : Dev) (r value : Nat) (slots : List (BitVec 16 × Packet)) : Dev :=
  let x := v.ring r
  if x.state != .running then v
  else if v.ringEntries r ≤ value then v.ringError r 1
  else
    let e := v.ringEntries r
    let n := (value + e - x.tail % e) % e
    let own := (slots.take n).map (fun (s : BitVec 16 × Packet) => (s.1, { s.2 with src := .ring (Fin.ofNat 256 r) }))
    let (id, v1) := v.fresh
    let f : List Fetch := if n = 0 then [] else [⟨id, x.tail % e, own, false, false⟩]
    (v1.setRing r { x with tail := value, fetches := x.fetches ++ f }).issueFetches r

/-- ST_HEAD (R397): status slots are released. -/
def Dev.stHeadWrite (v : Dev) (r value : Nat) : Dev :=
  let x := v.ring r
  if x.state != .running then v
  else if v.ringEntries r ≤ value then v.ringError r 2
  else (v.setRing r { x with stHead := value }).skipHeads (.ring (Fin.ofNat 256 r))

/-- SQ_TAIL_DOORBELL (R397). -/
def execSqTailDoorbell (r : Fin 256) (value : Word) (slots : List (BitVec 16 × Packet)) (s : State) :
    Host.Outcome State Fault Refusal :=
  s.on fun v => v.doorbell (r.val * 0x1000) (v.sqTail r.val value.toNat slots)

/-- ST_HEAD_DOORBELL (R397). -/
def execStHeadDoorbell (r : Fin 256) (value : Word) (s : State) : Host.Outcome State Fault Refusal :=
  s.on fun v => v.doorbell (r.val * 0x1000 + 4) (v.stHeadWrite r.val value.toNat)

/-! ### Replies (R395, R398, R399, R404) -/

/-- The 32 bytes of a status reply (R395). -/
def Reply.bytes (x : Reply) (phase : Bool) : List Byte :=
  leBytes 2 x.tag.toNat ++ [x.status, if phase then 0x80 else 0] ++ leBytes 2 x.opcode.toNat ++ leBytes 2 (x.head % 4096)
    ++ leBytes 4 x.r0.toNat ++ leBytes 4 x.r1.toNat ++ leBytes 4 x.r2.toNat ++ leBytes 2 x.step.toNat ++ zeros 2
    ++ leBytes 8 x.stamp

/-- A ring signals (R399). -/
def Dev.ringSignal (v : Dev) (r : Nat) : Dev :=
  (v.setRing r { v.ring r with counted := 0, firstAt := none }).raiseVec .pf0 r

/-- INT_STROKES have passed since the first reply counted (R399). -/
def Dev.strokesDue (v : Dev) (r : Nat) : Bool :=
  match (v.ring r).firstAt with
  | some t => decide (t + 64 * v.ringCfg r 0x14 15 0 ≤ v.mono)
  | none => false

/-- A reply goes into the status queue after its Out data: slot n mod entries, with its phase (R394, R398, R399, R414). -/
def Dev.writeRingReply (v : Dev) (r : Nat) (x : Reply) : Dev :=
  let y := v.ring r
  let e := v.ringEntries r
  let v0 := if x.data.isEmpty then v else v.emit (.dataOut x.ptr x.data)
  let v1 := v0.emit (.reply r (BitVec.ofNat 64 (v.stBase r + 32 * (y.n % e))) (x.bytes (y.n / e % 2 == 0)))
  let y1 := if x.noInt then { y with n := y.n + 1 }
    else { y with n := y.n + 1, counted := y.counted + 1, firstAt := some (y.firstAt.getD v.mono) }
  let v2 := v1.setRing r y1
  if !x.noInt && (decide (max 1 (v.ringCfg r 0x14 23 16) ≤ y1.counted) || v2.strokesDue r) then v2.ringSignal r else v2

/-- A reply becomes a COMPLETION entry of its session, its Out data written first under the path's RING_RKEY (R404). -/
def Dev.writeSessionReply (v : Dev) (qp : Nat) (x : Reply) : Dev :=
  match v.sessionOf qp with
  | none => v
  | some sn =>
    match v.session sn with
    | none => v
    | some s =>
      let rkey := ((s.pathOf qp).map (·.rkey)).getD 0
      let v1 := v.postData qp rkey x.ptr x.data
      let c : Completion := ⟨x.status, 3, false, v1.anchor s, 0, 0, BitVec.ofNat 32 (0xF0D00000 + x.tag.toNat), 0,
        0, 0, 0, 0, 0, v1.stamp, v1.step16, { x with head := 0 }.bytes false⟩
      v1.build sn (.completion c) (some qp) none (some x.from_)

/-- FLODER_REPLY_WRITE (R398, R404): the oldest reply of a route is written. -/
def execFloderReplyWrite (src : Source) (s : State) : Host.Outcome State Fault Refusal :=
  s.on fun v =>
    match v.floder.replies.find? (fun x => v.sameSource x.src src) with
    | none => v
    | some x =>
      let may := match x.src with
        | .ring _ => v.epCanIssue .pf0
        | _ => true
      if !may then v
      else
        let v1 := { v with floder := { v.floder with replies := dropFirst (fun y => y == x) v.floder.replies } }
        let v2 := match x.src with
          | .ring r => v1.writeRingReply r.val x
          | .session qp => v1.writeSessionReply qp x
          | .chain _ => v1
          | .mailbox => v1.emit (.mailbox x)
        v2.skipHeads src

/-- RING_INT_TIMER (R399). -/
def execRingIntTimer (r : Fin 256) (s : State) : Host.Outcome State Fault Refusal :=
  s.on fun v => if v.strokesDue r.val && (v.ring r.val).state == .running then v.ringSignal r.val else v

/-- RING_DMA_FAULT (R400). -/
def execRingDmaFault (r : Fin 256) (s : State) : Host.Outcome State Fault Refusal :=
  s.on fun v => if (v.ring r.val).state == .running then v.ringError r.val 3 else v

/-- RING_DRAINED (R401). -/
def execRingDrained (r : Fin 256) (s : State) : Host.Outcome State Fault Refusal :=
  s.on fun v =>
    if (v.ring r.val).state == .draining && !v.floder.cmds.any (fun c => c.src == .ring r) then
      v.setRing r.val { v.ring r.val with state := .disabled }
    else v

end Sys2Proof.Machine
end

