-- ==== Sys2Proof/Machine/Endpoint.lean ====
section
/-! DEFINITION. The service endpoint: link, freeze, reads and their tags, Bus Master Enable, the resets of a function and
of the endpoint, failover to Keep B (R415 to R432). -/

namespace Sys2Proof.Machine

/-- Bells in a time in microseconds, rounded up (R4). -/
def usBells (us : Nat) : Nat := ceilDiv (us * 1000) 512

/-- The completion timeout in bells (R427). -/
def Dev.cto (v : Dev) : Nat := usBells v.ep.ctoUs

/-- Pending vectors are sent once they may be (R426, R428). -/
def Dev.flushVectors (v : Dev) (pf : Pf) : Dev :=
  let f := v.func pf
  if v.epCanIssue pf then
    let out := f.pba.filter (fun n => !f.masked n)
    (v.setFunc pf { f with pba := f.pba.filter (fun n => f.masked n) }).emitAll (out.map (.msix pf))
  else v

/-- What waited for the right to issue, or for a tag, goes on: fetches, and the rings behind them. -/
def Dev.epResume (v : Dev) : Dev :=
  v.floder.rings.foldl (fun x e => (x.issueFetches e.1).skipHeads (.ring (Fin.ofNat 256 e.1))) v

/-- A command whose data area cannot be read is not executed (R428). -/
def Dev.abortData (v : Dev) (cmd : Nat) : Dev :=
  if v.floder.cmds.any (fun c => c.id == cmd && c.data == .reading) then v.fail cmd stMasterDisable else v

/-- The ring that a read serves. -/
def Dev.ringOfRead (v : Dev) (r : EpRead) : Option Nat :=
  match r.what with
  | .fetch n _ => some n
  | .data c =>
    (v.floder.cmds.find? (fun x => x.id == c)).bind (fun (x : Cmd) => match x.src with
      | .ring n => some n.val
      | _ => none)

/-- The host address of a read. -/
def Dev.readAddress (v : Dev) (r : EpRead) : Nat :=
  match r.what with
  | .fetch n id => v.sqBase n + 64 * (((v.ring n).fetches.find? (fun f => f.id == id)).map (·.start)).getD 0
  | .data c => ((v.floder.cmds.find? (fun x => x.id == c)).map (·.p.dataPtr.toNat)).getD 0

/-- A read ends with nothing read: its command is aborted, its fetch waits to be issued again (R425, R428). -/
def Dev.readEnds (v : Dev) (r : EpRead) : Dev :=
  match r.what with
  | .data c => v.abortData c
  | .fetch n id =>
    let again (f : Fetch) : Fetch := { f with issued := false }
    v.setRing n { v.ring n with fetches := updAll (fun (f : Fetch) => f.id == id) again (v.ring n).fetches }

/-- The ring whose read failed faults (R400, R424). -/
def Dev.readFaults (v : Dev) (r : EpRead) : Dev :=
  let v1 := v.readEnds r
  match v.ringOfRead r with
  | some n => if (v1.ring n).state == .running then v1.ringError n 3 else v1
  | none => v1

/-- A tag is no longer outstanding. -/
def Dev.retireTag (v : Dev) (pf : Pf) (tag : Nat) : Dev :=
  let f := v.func pf
  v.setFunc pf { f with tags := f.tags.filter (fun r => r.tag != tag) }

/-- Completions of the reads outstanding of a function are to be discarded (R428). -/
def Dev.dropReads (v : Dev) (pf : Pf) : Dev :=
  let f := v.func pf
  v.setFunc pf { f with tags := f.tags.map (fun (r : EpRead) => { r with drop := true }) }

/-! ### The link and the freeze (R415, R424 to R426) -/

/-- A loss of the link: EP_LINK_DOWN, the LTSSM state a free value (R432). -/
def Dev.linkLost (v : Dev) (cause : Nat) : Dev :=
  let (lt, v1) := v.free32
  ({ v1 with ep := { v1.ep with link := false, speed := 0, width := 0 } }).fault 0x0E0 v1.epRegion 0 lt.toNat cause 0

/-- EP_LINK_UP (R415): from B4 of BOOT on, except in P3. With Keep A missing the endpoint is Keep B's (R91, R430). -/
def execEpLinkUp (speed width : Fin 16) (s : State) : Host.Outcome State Fault Refusal :=
  s.on fun v =>
    let late := v.mode != .held && (v.mode != .boot || decide (4 ≤ v.chip.boot.stage))
    if late && !v.ep.link && v.ep.failing.isNone && !v.sec.p3 then
      let v1 := { v with ep := { v.ep with
        link := true, speed := speed.val, width := width.val, keepB := v.ep.keepB || !v.keepSound .A } }
      ((v1.flushVectors .pf0).flushVectors .pf1).epResume
    else v

/-- FREEZE_CAUSE (R433). -/
def freezeCode : FreezeCause → Nat
  | .dataLinkProtocol => 1
  | .receiverOverflow => 2
  | .malformedTlp => 3
  | .internal => 4
  | .surpriseDown => 5

/-- EP_AER_UNCORRECTABLE (R424, R425): freeze; a further cause is counted and keeps a release of its bell from acting. -/
def execEpAerUncorrectable (cause : FreezeCause) (header : BitVec 32) (s : State) : Host.Outcome State Fault Refusal :=
  s.on fun v =>
    if !v.ep.link then v
    else
      let tags := v.ep.pf0.tags.length + v.ep.pf1.tags.length
      let v1 := { v with
        ep := { v.ep with
          frozen := true, releaseReq := false, freezeBell := v.now
          cause := if v.ep.frozen then v.ep.cause else freezeCode cause }
        pmon := { v.pmon with snap := { v.pmon.snap with pendingWrites := [] } } }
      let running := (v1.floder.rings.filter (fun e => e.2.state == .running)).map (·.1)
      let v2 := running.foldl (fun x r => x.ringError r 3) v1
      let v3 := v2.fault 0x0E1 v2.epRegion 0 (freezeCode cause) header.toNat tags
      if cause = .surpriseDown then v3.linkLost 5 else v3

/-- A write of RELEASE (R426). -/
def Dev.releaseFreeze (v : Dev) (value : Word) : Dev :=
  if !bit value.toNat 0 then v
  else if v.ep.link && v.ep.pf0.flr.isNone && v.ep.pf1.flr.isNone then
    { v with ep := { v.ep with releaseReq := v.ep.releaseReq || (v.ep.frozen && v.ep.freezeBell != v.now) } }
  else { v with ep := { v.ep with ignored := true } }

/-- EP_FREEZE_RELEASE (R426). -/
def execEpFreezeRelease (value : Word) (s : State) : Host.Outcome State Fault Refusal :=
  s.on fun v => if v.ep.link && !v.reachable .pf0 then v.answerUr .pf0 0x800004 else if v.ep.link then v.releaseFreeze value else v

/-- The bell boundary at which a release takes effect (R426). -/
def Dev.epBell (v : Dev) : Dev :=
  if v.ep.releaseReq && v.ep.link then
    let v1 := { v with ep := { v.ep with frozen := false, cause := 0, releaseReq := false } }
    (((v1.flushVectors .pf0).flushVectors .pf1).raiseVec .pf0 258).epResume
  else v

/-! ### Reads and tags (R427) -/

/-- EP_COMPLETION (R424, R425, R427, R428). -/
def execEpCompletion (pf : Pf) (tag : BitVec 14) (st : CplStatus) (s : State) : Host.Outcome State Fault Refusal :=
  s.on fun v =>
    let f := v.func pf
    match f.tags.find? (fun r => r.tag == tag.toNat) with
    | some r =>
      let v1 := v.retireTag pf tag.toNat
      let v2 :=
        if r.drop || v.ep.frozen then v1.readEnds r
        else if st != .good then v1.readFaults r
        else match r.what with
          | .fetch n id =>
            let got (x : Fetch) : Fetch := { x with arrived := true }
            (v1.setRing n { v1.ring n with fetches := updAll (fun (x : Fetch) => x.id == id) got (v1.ring n).fetches }).pullSlots n
          | .data c =>
            let ready (x : Cmd) : Cmd := if x.id = c && x.data = .reading then { x with data := .ready } else x
            { v1 with floder := { v1.floder with cmds := v1.floder.cmds.map ready } }
      v2.epResume
    | none =>
      match f.quarantine.find? (fun q => q.1 == tag.toNat) with
      | some q => v.fault 0x0E4 v.epRegion (pfNo pf) tag.toNat (v.now - q.2) 0
      | none => { v with ep := { v.ep with unexpected := v.ep.unexpected + 1 } }

/-- EP_COMPLETION_TIMEOUT (R424, R427). -/
def execEpCompletionTimeout (pf : Pf) (tag : BitVec 14) (s : State) : Host.Outcome State Fault Refusal :=
  s.on fun v =>
    let f := v.func pf
    match f.tags.find? (fun r => r.tag == tag.toNat) with
    | none => v
    | some r =>
      if !v.atBell (r.since + v.cto) then v
      else
        let ring := (v.ringOfRead r).getD 0
        let addr := v.readAddress r
        let v1 := v.retireTag pf tag.toNat
        let f1 := v1.func pf
        let v2 := v1.setFunc pf { f1 with quarantine := f1.quarantine ++ [(tag.toNat, v.now)] }
        ((v2.readFaults r).fault 0x0E3 v2.epRegion (pfNo pf) tag.toNat ring (addr % 2 ^ 32)).epResume

/-- EP_TAG_QUARANTINE_END (R427): four completion-timeout periods after the timeout. -/
def execEpTagQuarantineEnd (pf : Pf) (tag : BitVec 14) (s : State) : Host.Outcome State Fault Refusal :=
  s.on fun v =>
    let f := v.func pf
    (v.setFunc pf { f with quarantine := f.quarantine.filter (fun q =>
      !(q.1 == tag.toNat && v.atBell (q.2 + 4 * v.cto))) }).epResume

/-! ### Bus Master Enable and FLR (R428, R429) -/

/-- Requests of a function stop: outstanding reads are to be discarded, and Out data not yet written is cut off (R428). -/
def Dev.stopRequests (v : Dev) (pf : Pf) : Dev :=
  let v1 := v.dropReads pf
  let cut (x : Reply) : Reply :=
    match x.src with
    | .ring _ => if x.data.isEmpty then x else { x with status := stMasterDisable, r0 := 0, r1 := 0, r2 := 0, data := [] }
    | _ => x
  match pf with
  | .pf0 => { v1 with floder := { v1.floder with replies := v1.floder.replies.map cut } }
  | .pf1 => v1

/-- BUS_MASTER_DISABLE (R428). -/
def execBusMasterDisable (pf : Pf) (why : MasterOff) (s : State) : Host.Outcome State Fault Refusal :=
  s.on fun v =>
    let f := v.func pf
    if f.flr.isSome then v
    else
      let f1 := match why with
        | .busMaster => { f with busMaster := false }
        | .d3hot => { f with d3hot := true }
        | .memorySpace => { f with memSpace := false }
      (v.setFunc pf f1).stopRequests pf

/-- BUS_MASTER_ENABLE (R428): the function is in D0 with Bus Master Enable and Memory Space Enable set; held vectors are
sent, fetches are issued, and held replies may be written. Configuration requests are not served before an FLR is
complete (R429). -/
def execBusMasterEnable (pf : Pf) (s : State) : Host.Outcome State Fault Refusal :=
  s.on fun v =>
    let f := v.func pf
    if f.flr.isSome || !v.ep.link then v
    else ((v.setFunc pf { f with busMaster := true, memSpace := true, d3hot := false }).flushVectors pf).epResume

/-- Every ring acts as on ENABLE 0 (R401, R429). -/
def Dev.allRingsOff (v : Dev) : Dev := (v.floder.rings.map (·.1)).foldl (fun x r => x.ringOff r) v

/-- FLR (R429). -/
def execFlr (pf : Pf) (s : State) : Host.Outcome State Fault Refusal :=
  s.on fun v =>
    let f := v.func pf
    if !v.ep.link || f.flr.isSome then v
    else
      let v1 := (v.setFunc pf { f with flr := some v.now }).stopRequests pf
      match pf with
      | .pf0 => v1.allRingsOff
      | .pf1 => v1

/-- The registers of a range hold their reset values (R429, R460). -/
def Dev.clearRegs (v : Dev) (lo n : Nat) : Dev :=
  let out (o : Nat) : Bool := decide (o < lo) || decide (lo + n ≤ o)
  { v with regs := { v.regs with
      active := v.regs.active.filter (fun e => out e.1)
      staged := v.regs.staged.filter (fun e => out e.1)
      pages := v.regs.pages.filter (fun e => out e.1) } }

/-- The rings are gone: every one DISABLED, its pages at reset; commands started go on without a reply (R429, R95). -/
def Dev.dropRings (v : Dev) : Dev :=
  let rs := v.floder.rings.map (·.1)
  let waiting := (v.floder.cmds.filter (fun c => c.data == .reading)).map (·.id)
  let v1 := waiting.foldl (fun x c => x.abortData c) (rs.foldl (fun x r => x.orphanRing r) v)
  ({ v1 with floder := { v1.floder with rings := [] } }).clearRegs 0xC00000 0x100000

/-- FLR_COMPLETE (R429): every tag retired, or 100 ms after the FLR; tags left are quarantined as timed out. -/
def execFlrComplete (pf : Pf) (s : State) : Host.Outcome State Fault Refusal :=
  s.on fun v =>
    let f := v.func pf
    match f.flr with
    | none => v
    | some t =>
      if f.tags.isEmpty || v.atBell (t + usBells 100000) then
        let q := f.quarantine ++ f.tags.map (fun (r : EpRead) => (r.tag, v.now))
        let v1 := match pf with
          | .pf0 => v.dropRings
          | .pf1 => v
        let v2 := v1.setFunc pf { Func.reset with quarantine := q }
        match pf with
        | .pf0 => v2
        | .pf1 => v2.raiseVec .pf0 258
      else v

/-- The cause number of an endpoint reset in EP_LINK_DOWN. -/
def resetCause : EpResetKind → Nat
  | .conventional => 1
  | .hot => 2
  | .linkDown => 3

/-- EP_RESET (R95, R427, R460): function state and rings are cleared, every tag retires without quarantine; a freeze stays
(R425). -/
def execEpReset (kind : EpResetKind) (s : State) : Host.Outcome State Fault Refusal :=
  s.on fun v =>
    if v.mode == .held then v
    else
      let v1 := v.dropRings
      let v2 := { v1 with
        ep := { v1.ep with pf0 := Func.reset, pf1 := Func.reset, ignored := false, releaseReq := false }
        pmon := { v1.pmon with snap := { v1.pmon.snap with pendingWrites := [] } } }
      if v2.ep.link then v2.linkLost (resetCause kind) else v2

/-! ### Failover (R430) -/

/-- Reads issued again under new tags; those already to be discarded end. -/
def Dev.retag (v : Dev) : Dev :=
  let f := v.ep.pf0
  let v1 := (f.tags.filter (·.drop)).foldl (fun (x : Dev) r => (x.retireTag .pf0 r.tag).readEnds r) v
  let old := f.tags.map (·.tag) ++ f.quarantine.map (·.1)
  let step (acc : List EpRead) (r : EpRead) : List EpRead :=
    let used := old ++ acc.map (·.tag)
    acc ++ [{ r with tag := lowestNotIn used used.length 0, since := v.now }]
  let f1 := v1.ep.pf0
  v1.setFunc .pf0 { f1 with tags := f1.tags.foldl step [] }

/-- EP_FAILOVER (R430 items 2 to 4): from the bell after the isolation. -/
def execEpFailover (s : State) : Host.Outcome State Fault Refusal :=
  s.on fun v =>
    match v.ep.failing with
    | none => v
    | some b =>
      if v.atBell (b + 1) && !v.ep.driving then
        let v1 := v.retag
        { v1 with ep := { v1.ep with driving := true } }
      else v

/-- EP_FAILOVER_COMPLETE (R430 item 5): Keep B's link is in L0. -/
def execEpFailoverComplete (s : State) : Host.Outcome State Fault Refusal :=
  s.on fun v =>
    match v.ep.failing with
    | none => v
    | some b =>
      if v.ep.driving then
        let v1 := { v with ep := { v.ep with
          link := true, keepB := true, failing := none, driving := false, failovers := (v.ep.failovers + 1) % 256 } }
        let v2 := (v1.fault 0x0E6 v1.epRegion 0 (v.now - b) 0 0).raiseVec .pf0 258
        ((v2.flushVectors .pf0).flushVectors .pf1).epResume
      else v

end Sys2Proof.Machine
end

