-- ==== Sys2Proof/Machine/Flags.lean ====
section
/-! DEFINITION. The status registers: what each word shows (R93, R154, R207, R265, R287, R306, R329, R330, R349, R374, R391,
R402, R433, R444, R453 to R457). Those updated at stroke 0 of every bell are computed there and kept in `regs.shown`. -/

namespace Sys2Proof.Machine

/-- Bit i set where f i holds, for i below n, from bit position lo up. -/
def flagBits (f : Nat → Bool) (n lo : Nat) : Nat := sumMap (fun i => if f i then 2 ^ (lo + i) else 0) (List.range n)

/-- A signed value in a 32-bit word, saturating. -/
def satWord (i : Int) : Word := BitVec.ofInt 32 (max (-(2 ^ 31)) (min (2 ^ 31 - 1) i))

/-! ### Keep and global region -/

/-- KEEP_MODE (R455). -/
def Dev.modeWord (v : Dev) : Word :=
  BitVec.ofNat 32 (v.status * 2 ^ 28 + v.chip.drain.purpose.code * 2 ^ 26 + b2n v.chip.drain.offReady * 2 ^ 25
    + b2n v.exposed * 2 ^ 24 + flagBits v.spireShown 4 20 + b2n (v.keepSound .A) * 2 ^ 18 + b2n (v.keepSound .B) * 2 ^ 19
    + v.chip.mode.stampStep.toNat)

/-- CRED_HUM_STATUS (R154). -/
def Dev.humWord (v : Dev) : Word :=
  BitVec.ofNat 32 (b2n v.inputPresent * 2 ^ 7 + flagBits (fun h => (v.hum h).assay != .idle) 2 5
    + flagBits (fun h => (v.chan (32 + h)).seen) 2 3 + flagBits v.healthy 2 0)

/-- E_cap on record of a module, 0 if none (R154). -/
def Dev.capWord (v : Dev) (h : Nat) : Word := BitVec.ofNat 32 (((v.ecap h).bind (·.cap)).getD 0)

/-- SEC_KEY_STATUS (R330). -/
def Dev.keyWord (v : Dev) : Word :=
  BitVec.ofNat 32 ((v.keySlots.filter (fun e => e.2.state != .empty)).length * 2 ^ 16 + (16384 - v.leases.length))

/-- SEC_RNG_STATUS (R330). -/
def Dev.rngWord (v : Dev) : Word :=
  let r := v.chip.rng
  BitVec.ofNat 32 (b2n r.rootOk * 2 ^ 31 + b2n r.srcA * 2 ^ 30 + b2n r.srcB * 2 ^ 29
    + (if r.rootOk then min ((v.now - r.fedAt) / pealBells) 0xFFFF else 0))

/-- SEC_STATE (R349). -/
def Dev.secWord (v : Dev) : Word :=
  BitVec.ofNat 32 (v.sec.lifecycle.code * 2 ^ 30 + DebugLevel.code v.sec.debug * 2 ^ 28
    + flagBits v.inP2 4 24 + flagBits (fun s => (v.spire s).p1) 4 20
    + min v.sec.authFails 8 * 2 ^ 8)

def ServoState.code : ServoState → Nat
  | .free => 0
  | .acquire => 1
  | .locked => 2
  | .holdover => 3

/-- BELL_STATUS (R457). -/
def Dev.bellWord (v : Dev) : Word :=
  let x := v.chip.servo
  BitVec.ofNat 32 (b2n (x.state == .locked) * 2 ^ 31 + b2n (x.state == .holdover) * 2 ^ 30 + x.state.code * 2 ^ 28
    + b2n x.refValid * 2 ^ 27 + b2n (match x.stepDue with | some d => d.atBell.isNone | none => false) * 2 ^ 26 + b2n x.epochPtp * 2 ^ 25)

/-- FC_SUMMARY (R391). -/
def Dev.faultWord (v : Dev) : Word :=
  let cap := v.faults.filter (fun e => e.2.captured)
  BitVec.ofNat 32 (min cap.length 0xFFFF * 2 ^ 16 + flagBits (fun c => cap.any (fun e => e.2.cls == c)) 5 0)

/-! ### Ports, rings, spire windows -/

/-- Classes open now at a port or sub-port (R301, R306). -/
def Dev.openMask (v : Dev) (n k : Nat) : Nat :=
  if v.gateEn n k then
    match (v.eg n k).entry with
    | some i => ((v.gateList n k).map (·.1)).getD i 0
    | none => v.gateDefault n k
  else 0xFF

/-- TM_PORT_STATUS (R306) of a port, or of sub-port k with the queue pairs bound to it. -/
def Dev.portWord (v : Dev) (n : Nat) (k : Option Nat) : Word :=
  let bound := (v.hosts.qps.filter (fun e => e.2.port.val == n && (match k with | some j => e.2.sub.val == j | none => true))).length
  BitVec.ofNat 32 (b2n (v.port n).policer * 2 ^ 31 + min bound 8191 * 2 ^ 16 + min (v.ingressBytes n 0xFF / 1024) 8191)

/-- TM_GATE_STATUS (R306). -/
def Dev.gateWord (v : Dev) (n k : Nat) : Word :=
  BitVec.ofNat 32 (v.openMask n k * 2 ^ 24 + (match (v.eg n k).entry with | some i => min i 0xFF | none => 0xFF))

def RingState.code : RingState → Nat
  | .disabled => 0
  | .running => 1
  | .error => 2
  | .draining => 3

/-- FRING_STATE (R402). -/
def Dev.ringWord (v : Dev) (r : Nat) : Word :=
  let x := v.ring r
  BitVec.ofNat 32 (x.state.code * 2 ^ 30 + x.head % 4096 * 2 ^ 16 + x.errCode % 16 * 2 ^ 12 + x.n % v.ringEntries r % 4096)

/-- WB_DIRTY and WB_MIRROR (R453): copies of dirty grains in a stack. -/
def Dev.dirtyPrimaries (v : Dev) (s : Nat) : Nat :=
  (v.store.grains.filter (fun g => g.held && g.spire.val == s && g.primary.isSome)).length

def Dev.dirtyMirrors (v : Dev) (s : Nat) : Nat :=
  (v.store.grains.filter (fun g => g.held && g.spire.val == partner s && g.mirror.isSome)).length

/-- CIPH_CORE_STATUS (R329). -/
def Dev.coreWord (v : Dev) (s : Nat) : Word := BitVec.ofNat 32 ((v.spire s).gangLead % 16 * 2 ^ 24 + (v.spire s).cores.toNat)

/-- CJE_STAGE_STATUS (R265). -/
def Dev.stageWord (v : Dev) (s : Nat) : Word :=
  BitVec.ofNat 32 (min (v.hosts.windows.filter (fun e => e.2.home.val == s)).length 8191 * 2 ^ 16 + min (v.stageUsed s) 16383)

/-- NET_PORT_STATUS (R453). -/
def Dev.netWord (v : Dev) (n : Nat) : Word :=
  let x := v.port n
  BitVec.ofNat 32 (b2n (x.linkUp != 0) * 2 ^ 31 + x.breakout % 4 * 2 ^ 29 + b2n (v.ptpRef n) * 2 ^ 28 + x.linkUp.toNat * 2 ^ 24)

/-! ### The words updated at stroke 0 -/

/-- The status words of a spire window. -/
def Dev.spireWords (v : Dev) (s : Nat) : List (Nat × Word) :=
  let b := spireBase s
  [(b + 0x120000, BitVec.ofNat 32 (v.dirtyPrimaries s)), (b + 0x120004, BitVec.ofNat 32 (v.dirtyMirrors s)),
   (b + 0x420000, v.coreWord s), (b + 0x650000, v.stageWord s),
   (b + 0x700000, v.netWord (2 * s)), (b + 0x780000, v.netWord (2 * s + 1))]

/-- The status words of a network port and its sub-ports. -/
def Dev.portWords (v : Dev) (n : Nat) : List (Nat × Word) :=
  [(0x600000 + 0x10 * n, v.portWord n none), (0x600004 + 0x10 * n, v.gateWord n 0)]
    ++ (List.range 4).flatMap (fun k =>
      [(0x600100 + 0x40 * n + 0x10 * k, v.portWord n (some k)), (0x600104 + 0x40 * n + 0x10 * k, v.gateWord n k)])

/-- The words of the Keep and global region. -/
def Dev.keepWords (v : Dev) : List (Nat × Word) :=
  let c := v.store.credit
  [(0x1000, v.modeWord), (0x1004, BitVec.ofNat 32 v.chip.mode.stamp), (0x1008, BitVec.ofNat 32 (v.chip.mode.stamp / 2 ^ 32)),
   (0x4000, BitVec.ofNat 32 (b2n c.deficit * 2 ^ 31 + c.limit)), (0x4004, BitVec.ofNat 32 v.outGrains),
   (0x4008, BitVec.ofNat 32 v.dirty), (0x400C, v.humWord),
   (0x4010, BitVec.ofNat 32 (v.eLevel 0)), (0x4014, BitVec.ofNat 32 (v.eLevel 1)), (0x4018, v.capWord 0), (0x401C, v.capWord 1),
   (0x4020, BitVec.ofNat 32 c.eSettleMeas),
   (0x6000, v.keyWord), (0x6004, v.sec.keyEpoch), (0x6008, v.rngWord), (0x6010, v.secWord), (0x6014, v.sec.floor),
   (0x9000, v.bellWord), (0x9004, v.chip.servo.stepCount), (0x9008, satWord v.chip.servo.offsetNs),
   (0x41000, v.faultWord), (0x41004, v.fcLast), (0x41008, BitVec.ofNat 32 v.chip.vault.grainsLeft)]

/-- Every word that is updated at stroke 0 of a bell. Rings not listed are DISABLED. -/
def Dev.statusWords (v : Dev) : List (Nat × Word) :=
  v.keepWords ++ (List.range 8).flatMap v.portWords ++ v.floder.rings.map (fun e => (0xD00000 + 0x10 * e.1, v.ringWord e.1))
    ++ (List.range 4).flatMap v.spireWords

/-- Fields backed by fuses or non-volatile storage (R460). -/
def nvBacked (off : Nat) : Bool :=
  off == 0x4018 || off == 0x401C || off == 0x4020 || off == 0x6004 || off == 0x6010 || off == 0x6014

/-- The reset value of a status register updated at stroke 0; none where there is none. -/
def Dev.statusReset (v : Dev) (off : Nat) : Option Word :=
  if nvBacked off then Tab.get v.keepWords off
  else if off = 0x1000 then some 0x10000000
  else if off = 0x6000 then some 0x4000
  else if off < 0x400000 then (Tab.get v.keepWords off).map (fun _ => 0)
  else if 0x600000 ≤ off && off < 0x600080 then
    (if off % 0x10 = 0 then some 0 else if off % 0x10 = 4 then some 0xFF0000FF else none)
  else if 0x600100 ≤ off && off < 0x600300 then
    (if off % 0x10 = 0 then some 0 else if off % 0x10 = 4 then some 0xFF0000FF else none)
  else if 0xD00000 ≤ off && off < 0xD01000 && off % 0x10 == 0 then some 0
  else if 0x1000000 ≤ off && off < 0x4000000 then
    (let w := (off - 0x1000000) % 0xC00000
     if w = 0x120000 || w = 0x120004 || w = 0x650000 || w = 0x700000 || w = 0x780000 then some 0
     else if w = 0x420000 then some 0x0B000000
     else none)
  else none

/-- Stroke 0: the status registers take their values; a word at its reset value is not listed. -/
def Dev.showStatus (v : Dev) : Dev :=
  let keep := v.statusWords.filter (fun e => nvBacked e.1 || v.statusReset e.1 != some e.2)
  { v with regs := { v.regs with shown := keep.foldl (fun t e => Tab.set t e.1 e.2) [] } }

/-! ### Words that are live -/

/-- The status words of a hot-swap channel (R374). -/
def Dev.chanWord (v : Dev) (c o : Nat) : Option Word :=
  let x := v.chan c
  if o = 0 then some (BitVec.ofNat 32 (x.state.code * 2 ^ 29 + b2n x.present * 2 ^ 28 + b2n x.pwrgd * 2 ^ 27
    + b2n x.perstRel * 2 ^ 26 + b2n x.iso * 2 ^ 25 + b2n (!v.measured c) * 2 ^ 24 + min x.tripCount 15 * 2 ^ 20
    + x.lastCause % 16 * 2 ^ 16 + x.lastPoint % 8 * 2 ^ 13 + b2n x.chg * 2 ^ 12 + b2n x.dis * 2 ^ 11))
  else if o = 0x04 then some (BitVec.ofNat 32 (match x.retryAt with | some t => t - v.now | none => 0))
  else if o = 0x08 then some ((BitVec.ofInt 16 x.current).setWidth 32)
  else if o = 0x0C then some (BitVec.ofNat 32 (x.vin % 65536 * 65536 + x.vout % 65536))
  else if o = 0x10 then some (BitVec.ofInt 32 (chanPower c x / 1000))
  else if o = 0x14 then some (BitVec.ofNat 32 (x.energyOut / 1000))
  else if o = 0x18 then some (BitVec.ofNat 32 (if isHum c then x.energyIn / 1000 else 0))
  else none

/-- The CRC block status of a spire (R207). -/
def Dev.crcWord (v : Dev) (s o : Nat) : Option Word :=
  let x := Tab.getD v.store.scrubs s .reset
  if o = 0 then some ((Tab.getD v.store.crcEvent s 0).setWidth 32)
  else if o = 4 then some (BitVec.ofNat 32 (x.passCount.toNat * 65536 + b2n x.late * 32768))
  else if o = 8 then some (BitVec.ofNat 32 (x.items.length + x.pages.length))
  else none

/-- EP_STATUS (R433). -/
def Dev.epWord (v : Dev) : Word :=
  let e := v.ep
  BitVec.ofNat 32 (b2n e.frozen * 2 ^ 31 + b2n e.link * 2 ^ 30 + b2n e.keepB * 2 ^ 29 + b2n e.ignored * 2 ^ 28
    + e.cause % 16 * 2 ^ 24 + e.speed % 16 * 2 ^ 20 + e.width % 16 * 2 ^ 16 + e.failovers % 256 * 2 ^ 8
    + b2n e.pf1.flr.isSome * 2 + b2n e.pf0.flr.isSome)

/-- EP_TAGS of a function (R433). -/
def Func.tagWord (f : Func) : Word := BitVec.ofNat 32 (min f.quarantine.length 0xFFFF * 65536 + min f.tags.length 0xFFFF)

/-- The identity registers (R454). -/
def Dev.identityWord (v : Dev) (off : Nat) : Option Word :=
  if off = 0 then some 0x32801F9A
  else if off = 4 then some (BitVec.ofNat 32 (b2n Config.screen * 256 + 0xB0))
  else if off = 8 || off = 0xC || off = 0x10 || off = 0x14 then
    some (BitVec.ofNat 32 (Config.serial.toNat / 2 ^ (8 * (off - 8))))
  else if off = 0x18 then some v.sec.loadedVer
  else if off = 0x1C then some v.sec.loadedSvn
  else if off = 0x20 then some v.regs.scratch
  else none

/-- Word of the MSI-X table or PBA of a function (R417, R428): a vector starts masked. -/
def Func.tableWord (f : Func) (o : Nat) : Word := Tab.getD f.table (o / 4) (if o / 4 % 4 = 3 then 1 else 0)
def Func.pbaWord (f : Func) (o : Nat) : Word := BitVec.ofNat 32 (flagBits (fun i => f.pba.contains (o / 4 * 32 + i)) 32 0)

/-- The live words of BAR0 of PF0, or of PF1 from offset 0x400_0000. -/
def Dev.liveWord (v : Dev) (off : Nat) : Option Word :=
  if off % 4 ≠ 0 then none
  else if off < 0x1000 then v.identityWord off
  else if off = 0x1040 then some v.bootProgress
  else if 0x38000 ≤ off && off < 0x38000 + 0x20 * 34 then v.chanWord ((off - 0x38000) / 0x20) ((off - 0x38000) % 0x20)
  else if off = 0x410000 then some (v.hf.upShown.setWidth 32)
  else if off = 0x410004 then some ((v.hf.upShown >>> 32).setWidth 32)
  else if off = 0x410008 then some v.hf.planeShown
  else if off = 0x41000C then some (BitVec.ofNat 32 v.hf.residueShown)
  else if off = 0x800000 then some v.epWord
  else if off = 0x800004 then some 0
  else if off = 0x800008 then some v.ep.pf0.tagWord
  else if off = 0x80000C then some v.ep.pf1.tagWord
  else if off = 0x800010 then some (BitVec.ofNat 32 v.ep.ctoUs)
  else if 0xE00000 ≤ off && off < 0xE04000 then some (v.ep.pf0.tableWord (off - 0xE00000))
  else if 0xE10000 ≤ off && off < 0xE10080 then some (v.ep.pf0.pbaWord (off - 0xE10000))
  else if off = 0x4001000 then some (BitVec.ofNat 32 (min v.pmon.snap.skipped 0xFFFF * 65536 + v.pmon.snap.lastSeq % 65536))
  else if 0x4080000 ≤ off && off < 0x4080400 then some (v.ep.pf1.tableWord (off - 0x4080000))
  else if 0x4090000 ≤ off && off < 0x4090008 then some (v.ep.pf1.pbaWord (off - 0x4090000))
  else if 0x1000000 ≤ off && off < 0x4000000 then
    (let w := (off - 0x1000000) % 0xC00000
     if 0x520000 ≤ w && w < 0x52000C then v.crcWord ((off - 0x1000000) / 0xC00000) (w - 0x520000) else none)
  else none

end Sys2Proof.Machine
end

