-- ==== Sys2Proof/Machine/Access.lean ====
section
/-! DEFINITION. Register accesses (R5, R75 to R77, R445 to R461), requests to the endpoint (R419 to R423), and the JTAG
debug port (R339, R343). Offsets are BAR0 offsets of PF0; those of PF1's BAR0 are raised by 0x400_0000. -/

namespace Sys2Proof.Machine

/-! ### Reading (R445 to R447) -/

/-- The spire whose window an offset lies in. -/
def windowOf (off : Nat) : Option Nat := if 0x1000000 ≤ off && off < 0x4000000 then some ((off - 0x1000000) / 0xC00000) else none

/-- The window of a spire answers: it is up, or in P2 (R423, R461). -/
def Dev.windowUp (v : Dev) (off : Nat) : Bool :=
  match windowOf off with
  | some s => v.stackUp s
  | none => true

/-- The page commit register of a page (R75). -/
def Dev.commitWord (v : Dev) (p : Nat) : Word :=
  let x := v.page p
  BitVec.ofNat 32 (b2n x.due.isSome * 2 ^ 31 + b2n x.blocked * 2 ^ 30 + x.count.toNat * 2 ^ 16)

/-- A word of a bell-staged page: its commit register, an active view or a staging view (R75, R77). -/
def Dev.pageWord (v : Dev) (off : Nat) : Option Word :=
  let o := canonOff off
  let p := o / 0x1000 * 0x1000
  if !stagedPage p || o % 4 ≠ 0 then none
  else if o = p then some (v.commitWord p)
  else if 0x800 ≤ o - p then (cfgDesc (o - 0x800)).map (fun d => v.stagedCfg (o - 0x800) &&& d.mask)
  else (cfgDesc o).map (fun d => v.cfg o &&& d.mask)

/-- The key of a latch: a requester path and the offset of the HI word. -/
def latchKey (r : Requester) (off : Nat) : Nat :=
  (match r with
   | .pf0 => 0
   | .pf1 => 1
   | .jtag => 2) * 2 ^ 28 + off

/-- The low and high words of a counter or its shadow (R443). -/
def counterLo (x : BitVec 48) : Word := x.setWidth 32
def counterHi (x : BitVec 48) (ovf : Bool) : Word := BitVec.ofNat 32 (b2n ovf * 2 ^ 31 + x.toNat / 2 ^ 32)

/-- A counter register: its value now, and for a LO word the HI word it latches. -/
def Dev.pmonWord (v : Dev) (off : Nat) : Option (Word × Option Word) :=
  match pmonAt off with
  | none => none
  | some (r, b, o) =>
    if o < 0x20 then
      let c := v.counter (counterKey r b (o / 4))
      some (BitVec.ofNat 32 (b2n c.ovf * 2 ^ 31 + c.shown.toNat), none)
    else
      let k := (o - 0x40) % 0x40 / 8
      let c := v.counter (counterKey r b k)
      let (x, f) := if o < 0x80 then (c.value, c.ovf) else (c.shadow, c.shadowOvf)
      if o % 8 = 0 then some (counterLo x, some (counterHi x f)) else some (0, none)

/-- A HI word that is latched: the offset names one (R447). -/
def isHiWord (off : Nat) : Bool :=
  off == 0x9010 || (match pmonAt off with | some (_, _, o) => decide (0x40 ≤ o) && o % 8 == 4 | none => false)

/-- What a read returns, and the HI word that it latches; none where the offset names no register. -/
def Dev.readWord (v : Dev) (r : Requester) (off : Nat) : Option (Word × Option Word) :=
  if isHiWord off then some (Tab.getD v.regs.latches (latchKey r off) 0, none)
  else if off = 0x900C then some (BitVec.ofNat 32 v.stamp, some (BitVec.ofNat 32 (v.stamp / 2 ^ 32)))
  else if !v.windowUp off then none
  else match v.pageWord off with
    | some w => some (w, none)
    | none =>
      match v.liveWord off with
      | some w => some (w, none)
      | none =>
        match v.statusReset off with
        | some w => some (Tab.getD v.regs.shown off w, none)
        | none => v.pmonWord off

/-- A read by a requester: the HI word is latched on its path (R447). -/
def Dev.readReg (v : Dev) (r : Requester) (off : Nat) : Option (Word × Dev) :=
  match v.readWord r off with
  | none => none
  | some (w, none) => some (w, v)
  | some (w, some hi) =>
    some (w, { v with regs := { v.regs with latches := Tab.set v.regs.latches (latchKey r (off + 4)) hi } })

/-! ### Writing (R5, R75, R77, R448, R461) -/

/-- Staged values of a page return to the values in force (R75). -/
def Dev.discardPage (v : Dev) (p : Nat) : Dev :=
  { v with regs := { v.regs with staged := v.regs.staged.filter (fun e => !onPage p e.1) } }

/-- A write of a page commit register: COMMIT before DISCARD; STAGE_BLOCKED is W1C (R75). -/
def Dev.writeCommit (v : Dev) (p : Nat) (w : Word) : Dev :=
  let v1 := if bit w.toNat 30 then v.setPage p { v.page p with blocked := false } else v
  if bit w.toNat 0 then v1.commit p none
  else if bit w.toNat 1 && (v1.page p).due.isNone then v1.discardPage p
  else v1

/-- A write of a staging view: ignored with STAGE_BLOCKED set while a commit is pending (R77). A 1 written to an RSVD bit is
ignored: the manual leaves its effect open but keeps it from every tenant (R7, R9, R59), and the fields of one register can reach
them all, so that none of them takes another value (DESIGN CHOICE, assumption log 28). -/
def Dev.writeStaged (v : Dev) (o : Nat) (mask : Word) (w : Word) : Dev :=
  let p := o / 0x1000 * 0x1000
  if (v.page p).due.isSome then v.setPage p { v.page p with blocked := true }
  else v.stage o (w &&& mask)

/-- The block whose pages an offset of a spire window lies on is being reset: writes made then are discarded (R461). -/
def Dev.pageResetting (v : Dev) (off : Nat) : Bool :=
  match windowOf off with
  | none => false
  | some s =>
    let j := (off - 0x1000000) % 0xC00000 / 0x100000
    (v.spire s).resets.any (fun b => blockPages b == some j)

/-- A write to a word of the MSI-X table of a function; a pending vector that it unmasks is sent (R428). -/
def Dev.writeTable (v : Dev) (pf : Pf) (o : Nat) (w : Word) : Dev :=
  let f := v.func pf
  let x := if o / 4 % 4 = 3 then w &&& 1 else w
  (v.setFunc pf { f with table := Tab.set f.table (o / 4) x }).flushVectors pf

/-- What a write does to a register outside the bell-staged pages that is not read-only. -/
def Dev.writeLive (v : Dev) (off : Nat) (w : Word) : Dev :=
  if off = 0x20 then { v with regs := { v.regs with scratch := w } }
  else if off = 0x800000 then
    (if bit w.toNat 28 then { v with ep := { v.ep with ignored := false } } else v)
  else if off = 0x800004 then v.releaseFreeze w
  else if 0xE00000 ≤ off && off < 0xE04000 then v.writeTable .pf0 (off - 0xE00000) w
  else if 0x4080000 ≤ off && off < 0x4080400 then v.writeTable .pf1 (off - 0x4080000) w
  else match windowOf off with
    | some s =>
      if (off - 0x1000000) % 0xC00000 = 0x520000 then
        { v with store := { v.store with
            crcEvent := Tab.set v.store.crcEvent s (Tab.getD v.store.crcEvent s 0 &&& ~~~(w.setWidth 16)) } }
      else v
    | none => v

/-- A write to a register: none where the offset names no register. Writes to active views and to read-only words are
ignored. -/
def Dev.writeReg (v : Dev) (off : Nat) (w : Word) : Option Dev :=
  let o := canonOff off
  let p := o / 0x1000 * 0x1000
  match v.readWord .pf0 off with
  | none => none
  | some _ =>
    if v.pageResetting off then some v
    else if stagedPage p then
      if o = p then some (v.writeCommit p w)
      else if 0x800 ≤ o - p then
        match cfgDesc (o - 0x800) with
        | some d => some (v.writeStaged (o - 0x800) d.mask w)
        | none => some v
      else some v
    else if (pmonAt off).isSome then some (v.writePmon off w)
    else some (v.writeLive off w)

/-! ### Requests to the endpoint (R419 to R423, R425, R445) -/

def pfRequester : Pf → Requester
  | .pf0 => .pf0
  | .pf1 => .pf1

/-- One entry of the Chart (R420). -/
def chartEntry (type fn bar offset size index : Nat) : List Byte :=
  leBytes 2 type ++ leBytes 2 0x0100 ++ leBytes 1 fn ++ leBytes 1 bar ++ zeros 2 ++ leBytes 8 offset ++ leBytes 8 size
    ++ leBytes 4 index ++ zeros 4

/-- The entries of the Chart of revision B0 (R421). -/
def chartEntries : List Byte :=
  chartEntry 0x0001 0 0 0x0000000 0x400000 0 ++ chartEntry 0x0002 0 0 0x0400000 0x400000 0
    ++ chartEntry 0x0003 0 0 0x0800000 0x1000 0 ++ chartEntry 0x0004 0 0 0x0C00000 0x100000 0
    ++ chartEntry 0x0005 0 0 0x0D00000 0x1000 0 ++ chartEntry 0x0006 0 2 0 0x100000 0
    ++ chartEntry 0x0007 0 0 0x0E00000 0x4000 0 ++ chartEntry 0x0008 0 0 0x0E10000 128 0
    ++ (List.range 4).flatMap (fun i => chartEntry 0x0010 0 0 (0x1000000 + i * 0xC00000) 0xC00000 i)
    ++ chartEntry 0x0020 1 0 0 0x80000 0 ++ chartEntry 0x0021 1 0 0x80000 0x400 0 ++ chartEntry 0x0022 1 0 0x90000 8 0
    ++ chartEntry 0x0030 0 0xFF 0 0xF0000 0 ++ chartEntry 0x0031 0 0xFF 0xF0000 576 0

/-- The header of the Chart around a CRC (R420). -/
def chartHeader (crc : Nat) : List Byte :=
  leBytes 4 0x54524843 ++ leBytes 2 0x0100 ++ leBytes 2 17 ++ leBytes 2 32 ++ zeros 2 ++ leBytes 4 576 ++ leBytes 2 0x3280
    ++ leBytes 2 0x1F9A ++ [0xB0] ++ zeros 3 ++ leBytes 8 crc

/-- The Chart, its CRC64 taken with the field as 0 (R420). -/
def chart : List Byte := chartHeader (crcOf crc64 (chartHeader 0 ++ chartEntries)) ++ chartEntries

/-- A byte of the expansion ROM (R419); what the manual does not give is a fixed unknown of the image. -/
def Dev.romByte (v : Dev) (o : Nat) : Byte :=
  if o = 0 then 0x55
  else if o = 1 then 0xAA
  else if 0xF0000 ≤ o && o < 0xF0000 + 576 then chart.getD (o - 0xF0000) 0
  else Config.romByte v.sec.loadedVer.toNat o

/-- A request that R445 lets reach a register: naturally aligned, of 4 or 8 bytes, a write with every byte enabled. -/
def naturalReq (r : MemReq) : Bool :=
  (r.length == 4 || r.length == 8) && r.offset.toNat % r.length == 0 && (!r.write || r.fullBe)

/-- A read of one word for a request: data, or poisoned data where the contents are uncorrectable and the mode is not SERVICE
or DEGRADED, else UR (R423). -/
def Dev.readFor (v : Dev) (pf : Pf) (off : Nat) (bad : Bool) (addr : Nat) : Dev :=
  match v.readReg (pfRequester pf) off with
  | none => v.answerUr pf addr
  | some (w, v1) =>
    if !bad then v1.emit (.regData (pfRequester pf) off w)
    else if v1.serving then v1.answerUr pf addr
    else v1.emit (.poisonedData (pfRequester pf) off w)

/-- A write is discarded in VAULT and FENCED outside the endpoint region, and counted EP_WRITE_BLOCKED (R423, R452). -/
def Dev.writeBlocked (v : Dev) (off : Nat) : Bool :=
  (v.mode == .vault || v.mode == .fenced) && !(decide (0x800000 ≤ off) && decide (off < 0x1000000))

/-- A write of one word for a request. -/
def Dev.writeFor (v : Dev) (pf : Pf) (off : Nat) (w : Word) (addr : Nat) : Dev :=
  match v.writeReg off w with
  | none => v.answerUr pf addr
  | some v1 =>
    if v.writeBlocked off then v.fault 0x0E8 v.epRegion (pfNo pf) (addr % 2 ^ 32) v.status 0 else v1

/-- A request to BAR0 of a function: an 8 B request acts as two of 4 B, the lower address first (R445). -/
def Dev.bar0Request (v : Dev) (r : MemReq) : Dev :=
  let a := r.offset.toNat
  let top := match r.pf with
    | .pf0 => 0x4000000
    | .pf1 => 0x100000
  let base := match r.pf with
    | .pf0 => 0
    | .pf1 => 0x4000000
  if !naturalReq r || top ≤ a then v.answerUr r.pf a
  else
    let one (x : Dev) (i : Nat) : Dev :=
      if r.write then x.writeFor r.pf (base + a + 4 * i) (BitVec.ofNat 32 (r.data.toNat / 2 ^ (32 * i))) (a + 4 * i)
      else x.readFor r.pf (base + a + 4 * i) r.bad (a + 4 * i)
    (List.range (r.length / 4)).foldl one v

/-- A request to BAR2: 4 B writes of the doorbells only (R397, R445). -/
def Dev.bar2Request (v : Dev) (r : MemReq) : Dev :=
  let a := r.offset.toNat
  let n := a / 0x1000
  if r.pf = .pf0 && r.write && r.fullBe && r.length = 4 && a < 0x100000 && (a % 0x1000 = 0 || a % 0x1000 = 4) then
    let w := r.data.toNat % 2 ^ 32
    if a % 0x1000 = 0 then v.sqTail n w r.slots else v.stHeadWrite n w
  else v.answerUr r.pf a

/-- EP_MEMORY_REQUEST (R423, R425). A poisoned write is discarded. During a freeze only the endpoint page and the ROM are
served. -/
def execEpMemoryRequest (r : MemReq) (s : State) : Host.Outcome State Fault Refusal :=
  s.on fun v =>
    let a := r.offset.toNat
    let page := r.pf = .pf0 && r.bar = 0 && 0x800000 ≤ a && a < 0x801000
    let rom := r.pf = .pf0 && r.bar = 6 && !r.write && a < 0x100000
    if !v.ep.link then v
    else if r.write && r.poisoned then v
    else if !v.reachable r.pf then v.answerUr r.pf a
    else if v.ep.frozen && !page && !rom then (if r.write then v else v.answerUr r.pf a)
    else if rom then v.emit (.romData a ((List.range (min r.length 4096)).map (fun i => v.romByte (a + i))))
    else if r.bar = 0 then v.bar0Request r
    else if r.bar = 2 then v.bar2Request r
    else v.answerUr r.pf a

/-! ### Register commands of the table -/

/-- The level that the JTAG port answers at: in P3 no debug feature does (R348). -/
def Dev.portLevel (v : Dev) : DebugLevel := if v.sec.p3 then .closed else v.sec.debug

/-- A write by a requester: through the endpoint as R423 and R425 answer it (a freeze drops it, a function that does not answer
returns UR), through the JTAG port at level OPEN (R339). -/
def Dev.busWrite (v : Dev) (r : Requester) (off : Nat) (w : Word) : Dev :=
  let page := 0x800000 ≤ off && off < 0x801000
  match r with
  | .pf0 =>
    if !v.ep.link then v
    else if !v.reachable .pf0 then v.answerUr .pf0 off
    else if !v.ep.frozen || page then v.writeFor .pf0 off w off else v
  | .pf1 =>
    if !v.ep.link then v
    else if !v.reachable .pf1 then v.answerUr .pf1 (off - 0x4000000)
    else if !v.ep.frozen then v.writeFor .pf1 off w (off - 0x4000000) else v
  | .jtag => if v.portLevel == .open_ && v.mode != .vault then (v.writeReg off w).getD v else v

/-- A read by a requester, answered as above. -/
def Dev.busRead (v : Dev) (r : Requester) (off : Nat) : Dev :=
  match r with
  | .pf0 =>
    if !v.ep.link then v
    else if v.reachable .pf0 && !v.ep.frozen then v.readFor .pf0 off false off else v.answerUr .pf0 off
  | .pf1 =>
    if !v.ep.link then v
    else if v.reachable .pf1 && !v.ep.frozen then v.readFor .pf1 off false (off - 0x4000000) else v.answerUr .pf1 (off - 0x4000000)
  | .jtag =>
    if v.portLevel == .open_ && v.mode != .vault then
      match v.readReg .jtag off with
      | some (w, v1) => v1.emit (.regData .jtag off w)
      | none => v
    else v

/-- REGISTER_WRITE (R77). -/
def execRegisterWrite (by_ : Requester) (off : Nat) (value : Word) (s : State) : Host.Outcome State Fault Refusal :=
  s.on fun v => v.busWrite by_ off value

/-- PAGE_COMMIT (R75, R76): a write of COMMIT that has reached the block. -/
def execPageCommit (page : Nat) (value : Word) (s : State) : Host.Outcome State Fault Refusal :=
  s.on fun v =>
    let p := canonOff page
    if v.mode != .held && stagedPage p && v.windowUp p && !v.pageResetting p then v.writeCommit p (value ||| 1) else v

/-- PAGE_DISCARD (R75): a write of DISCARD; one that sets COMMIT too commits. -/
def execPageDiscard (page : Nat) (value : Word) (s : State) : Host.Outcome State Fault Refusal :=
  s.on fun v =>
    let p := canonOff page
    if v.mode != .held && stagedPage p && v.windowUp p && !v.pageResetting p then v.writeCommit p (value ||| 2) else v

/-- BELL_NOW_READ (R447, R457): a read of BELL_NOW_LO. -/
def execBellNowRead (by_ : Requester) (s : State) : Host.Outcome State Fault Refusal :=
  s.on fun v => v.busRead by_ 0x900C

/-- PMON_LO_READ (R443, R447): a read of PMON_CTRk_LO or PMON_SHDk_LO. -/
def execPmonLoRead (by_ : Requester) (off : Nat) (s : State) : Host.Outcome State Fault Refusal :=
  s.on fun v =>
    match pmonAt off with
    | some (_, _, o) => if 0x40 ≤ o && o % 8 = 0 then v.busRead by_ off else v
    | none => v

/-! ### The JTAG debug port (R339, R343) -/

/-- A byte of a stack or of SRAM read through the debug port: a sealed area reads zero and is counted. Where a stack's sealed
areas lie is not given: whether the byte is sealed is a free value, and so is a byte no write has set. -/
def Dev.jtagReadByte (v : Dev) (s : Nat) (hbm : Bool) (addr : Nat) : Dev :=
  let (sealed_, v1) := v.freeBool
  if sealed_ then (v1.countKeep 0x11 0x002 1).emit (.jtagData [0])
  else if hbm then
    let (b, v2) := v1.hbmBytes s addr 1
    v2.emit (.jtagData b)
  else
    let (b, v2) := v1.freeBytes 1
    v2.emit (.jtagData b)

/-- A byte written through the debug port. Whether it lies in a staging window, and where there, is not given. -/
def Dev.jtagWriteByte (v : Dev) (s : Nat) (hbm : Bool) (addr : Nat) (b : Byte) : Dev :=
  let (sealed_, v1) := v.freeBool
  if sealed_ then v1.countKeep 0x11 0x002 1
  else if hbm then
    let v2 := { v1 with store := { v1.store with hbm := Tab.set v1.store.hbm (s * 2 ^ 40 + addr) b } }
    let (hit, v3) := v2.freeBool
    let (place, v4) := v3.free64
    if hit then { v4 with winMem := memWrite v4.winMem place.toNat b } else v4
  else v1

/-- A counted block of a spire in P2 that is gated: all but its buffer ports and its slice (R345, R348). -/
def Dev.gatedBlock (v : Dev) (off : Nat) : Bool :=
  match pmonAt off with
  | some (r, b, _) => decide (r < 4) && v.inP2 r && b != 0x30 && b != 0x90
  | none => false

/-- JTAG_DEBUG_ACCESS (R339, R343, R348): answered by the debug level; in VAULT everything but IDCODE and BYPASS stalls. An
instruction that is refused loads as BYPASS; a debug-port access that is refused returns ERROR. -/
def execJtagDebugAccess (r : JtagReq) (s : State) : Host.Outcome State Fault Refusal :=
  s.on fun v =>
    let lvl := v.portLevel
    let isOpen := lvl == .open_
    let port (ok : Bool) (go : Dev) : Dev :=
      if v.mode == .vault then v.emit .jtagBusy else if ok then go else v.emit .jtagError
    match r with
    | .idcode => v.emit (.jtag (some Config.idcode))
    | .bypass => v.emit (.jtag none)
    | .samplePreload => if v.mode == .vault then v.emit .jtagBusy else v.emit .jtagLoaded
    | .counterRead off =>
      port (lvl != .closed) (if v.gatedBlock off.toNat then v.emit .jtagBusy else
        match pmonAt off.toNat, v.readReg .jtag off.toNat with
        | some _, some (w, v1) => v1.emit (.jtag (some w))
        | _, _ => v.emit .jtagError)
    | .traceRead =>
      port (lvl != .closed) (let (b, v1) := v.freeBytes 32
                             v1.emit (.jtagData b))
    | .faultRecord src =>
      port (lvl != .closed) (match v.faultRec src with
        | some x => v.emit (.jtagData x.bytes)
        | none => v.emit .jtagError)
    | .regRead off =>
      port isOpen (match v.readReg .jtag off.toNat with
        | some (w, v1) => v1.emit (.jtag (some w))
        | none => v.emit .jtagError)
    | .regWrite off w =>
      port isOpen (match v.writeReg off.toNat w with
        | some v1 => v1
        | none => v.emit .jtagError)
    | .memRead sp hbm addr => port isOpen (v.jtagReadByte sp.val hbm addr)
    | .memWrite sp hbm addr b => port isOpen (v.jtagWriteByte sp.val hbm addr b)
    | .halt => port isOpen (v.emit .jtagLoaded)
    | .step => port isOpen (v.emit .jtagLoaded)
    | .breakpoint => port isOpen (v.emit .jtagLoaded)
    | .extest =>
      if v.mode == .vault then v.emit .jtagBusy
      else if isOpen && v.dirty == 0 && (v.mode == .survey || (v.mode == .drain && v.chip.drain.offReady)) then
        v.emit .jtagLoaded
      else v.emit (.jtag none)

end Sys2Proof.Machine
end

