-- ==== Sys2Proof/Machine/Time.lean ====
section
/-! DEFINITION. The bell boundary, the peal boundary and the time-base servo (R61 to R76, R83, R133, R341). -/

namespace Sys2Proof.Machine

/-! ### The servo (R65 to R70) -/

/-- BELL_SRC in force names IEEE 1588 time; names BELL_SYNC_IN (R65). -/
def Dev.srcPtp (v : Dev) : Bool := bit (v.cfgBits 0x5004 31 30) 0
def Dev.srcSync (v : Dev) : Bool := bit (v.cfgBits 0x5004 31 30) 1

/-- A time in ns lies so little back that its reference still counts as valid: a peal and a half. -/
def Dev.recent (v : Dev) (t : Nat) : Bool := decide (v.mono ≤ t + 12000000)

/-- What the servo measures at a peal boundary: the offset of the device's boundary from the reference's nearest 8 ms
boundary in ns, and the reference time of that one where the reference is IEEE 1588 time (R65, R67). -/
def Dev.measure (v : Dev) : Option (Int × Option Nat) :=
  let x := v.chip.servo
  let here : Int := (v.now * 512 : Nat)
  let near (d : Int) : Int := (d + 4000000) / 8000000 * 8000000
  let ptp := match x.fed with
    | some (ref, t) => if v.srcPtp && v.recent t then some ((ref : Int) + here - t) else none
    | none => none
  let sync := match x.lastSync with
    | some t => if v.srcSync && v.recent t then some (here - t) else none
    | none => none
  match ptp, sync with
  | some r, _ => some (r - near r, some (near r).toNat)
  | none, some d => some (d - near d, none)
  | none, none => none

/-- The reference is valid from now on, or is lost from now on. -/
def Servo.setRef (x : Servo) (valid : Bool) (now : Nat) : Servo :=
  { x with refValid := valid, lostSince := if valid then none else some (x.lostSince.getD now) }

/-- Bells of a step for an offset: its whole bells rounded to the nearest, `up` deciding a tie (R68). -/
def stepBells (offset : Int) (up : Bool) : Int := -((offset + (if up then 256 else 255)) / 512)

/-- A peal lengthened or shortened by a step (R68). -/
def stepPeal (bells : Int) : Nat := (max 7813 (min 23437 (15625 + bells))).toNat

/-- A step is planned for the end of this peal, or waits for the end of VAULT (R67, R68, R70). -/
def Dev.planStep (v : Dev) (offset : Int) (ref : Option Nat) : Dev :=
  let (up, v1) := v.freeBool
  let b := stepBells offset up
  let len := stepPeal b
  let held := v1.mode == .vault
  let due : StepDue := ⟨if held then none else some (v1.now + len), b, ref.map (· + 8000000)⟩
  let servo := { v1.chip.servo with stepDue := some due, okRun := 0 }
  { v1 with clk := { v1.clk with pealLen := if held then v1.clk.pealLen else len }
            chip := { v1.chip with servo := servo } }

/-- The frequency correction toward zero offset: at most 200 ppm, its size a free value (R67). -/
def Dev.slew (v : Dev) (offset : Int) : Dev :=
  let (f, v1) := v.free32
  let n : Int := (f.toNat % 200001 : Nat)
  let ppb := if 0 < offset then n else if offset < 0 then -n else 0
  { v1 with chip := { v1.chip with servo := { v1.chip.servo with freqPpb := ppb } } }

def Dev.setServo (v : Dev) (x : Servo) : Dev := { v with chip := { v.chip with servo := x } }

/-- The servo at a peal boundary (R67). -/
def Dev.servoPeal (v : Dev) : Dev :=
  let x0 := v.chip.servo
  if !(v.srcPtp || v.srcSync) || v.sec.p3 then v
  else match v.measure with
    | none => v.setServo { x0.setRef false v.now with okRun := 0, badRun := 0 }
    | some (off, ref) =>
      let x := { x0.setRef true v.now with offsetNs := off }
      let size := off.natAbs
      match x.state with
      | .free => v.setServo (if v.mode == .vault then x else { x with state := .acquire, okRun := 0, badRun := 0 })
      | .acquire =>
        let v1 := v.setServo x
        let planned := match x.stepDue with | some d => d.atBell.isSome | none => false
        if planned then v1
        else if 512 ≤ size || (ref.isSome && !x.epochPtp) || (x.stepDue.isSome && v.mode != .vault) then v1.planStep off ref
        else if x.stepDue.isSome then v1
        else
          let v2 := v1.slew off
          let y := v2.chip.servo
          let run := if size < 64 then y.okRun + 1 else 0
          v2.setServo (if 16 ≤ run then { y with state := .locked, okRun := 0, badRun := 0 } else { y with okRun := run })
      | .locked =>
        let v2 := v.setServo x |>.slew off
        let y := v2.chip.servo
        let run := if 256 ≤ size then y.badRun + 1 else 0
        v2.setServo (if 4 ≤ run then { y with state := .acquire, okRun := 0, badRun := 0 } else { y with badRun := run })
      | .holdover => v.setServo x

/-- The randomness chain at a peal boundary: a source that passes its tests feeds the root (R312, R330). -/
def Rng.peal (r : Rng) (now : Nat) : Rng := if r.srcA || r.srcB then { r with fedAt := now } else r

/-- PEAL_BOUNDARY (R66, R67, R72): once at bell 0 of a peal. -/
def execPealBoundary (s : State) : Host.Outcome State Fault Refusal :=
  s.on fun v =>
    if v.mode == .held || v.clk.bellInPeal != 0 || v.chip.servo.measured == some v.now then v
    else
      let v1 := v.setServo { v.chip.servo with measured := some v.now }
      if v1.sec.p3 then v1
      else
        let v2 := v1.servoPeal
        let v3 := ({ v2 with chip := { v2.chip with syncOut := true, rng := v2.chip.rng.peal v2.now } }).emit .bellSync
        let v4 := ((v3.cipherPeal).humPeal 0).humPeal 1
        let n := v4.cfgBits 0x400000C 23 0
        if n != 0 && v4.clk.peals % n == 0 then v4.askSnapshot true none else v4

/-- TIME_STEP (R62, R68 to R70): at the end of the peal the step changed. -/
def execTimeStep (s : State) : Host.Outcome State Fault Refusal :=
  s.on fun v =>
    match v.chip.servo.stepDue with
    | some ⟨some t, bells, ref⟩ =>
      if v.mode == .vault || !(v.atBell t) then v
      else
        let x := v.chip.servo
        let v1 := { v with clk := { v.clk with bell := match ref with
                      | some r => r / 512 + v.now - t
                      | none => v.clk.bell } }
        (v1.setServo { x with stepDue := none, stepCount := x.stepCount + 1, epochPtp := x.epochPtp || ref.isSome }).fault
          0x090 7 0 (BitVec.ofInt 32 bells).toNat 0 0
    | _ => v

/-- REFERENCE_LOST_TIMEOUT (R67). -/
def execReferenceLostTimeout (s : State) : Host.Outcome State Fault Refusal :=
  s.on fun v =>
    let x := v.chip.servo
    match x.lostSince with
    | some t =>
      if x.state == .locked && v.atBell (t + 125 * pealBells) then
        v.setServo { x with state := .holdover, holdSince := v.now, okRun := 0, badRun := 0 }
      else v
    | none => v

/-- REFERENCE_VALID_AGAIN (R67). -/
def execReferenceValidAgain (s : State) : Host.Outcome State Fault Refusal :=
  s.on fun v =>
    let x := v.chip.servo
    if x.state == .holdover && x.refValid then v.setServo { x with state := .acquire, okRun := 0, badRun := 0 } else v

/-- HOLDOVER_LIMIT_EXPIRE (R67). -/
def execHoldoverLimitExpire (s : State) : Host.Outcome State Fault Refusal :=
  s.on fun v =>
    let x := v.chip.servo
    if x.state == .holdover && v.atBell (x.holdSince + v.cfgBits 0x5004 15 0 * pealBells) then v.setServo x.toFree else v

/-- A clock input is taken: not in HELD or P3. -/
def Dev.clockIn (v : Dev) : Bool := v.mode != .held && !v.sec.p3

/-- BELL_SYNC_EDGE (R66): accepted within 1 us of a time projected from the last accepted edge, one peal of the reference
or more after it, else counted. -/
def execBellSyncEdge (s : State) : Host.Outcome State Fault Refusal :=
  s.on fun v =>
    let x := v.chip.servo
    if !(v.clockIn && v.srcSync) then v
    else
      let good := match x.lastSync with
        | none => true
        | some t => let d := v.mono - t
                    decide (7999000 ≤ d) && (decide (d % 8000000 ≤ 1000) || decide (7999000 ≤ d % 8000000))
      if good then
        let y := { x with lastSync := some v.mono }
        let ptp := match x.fed with | some (_, t) => v.srcPtp && v.recent t | none => false
        v.setServo (if ptp then y else y.setRef true v.now)
      else v.countKeep 0x11 0x001 1

/-- PTP_MESSAGE_RECEIVE (R65, R218): a message of the domain in force on the port in force. -/
def execPtpMessageReceive (m : PtpMessage) (s : State) : Host.Outcome State Fault Refusal :=
  s.on fun v =>
    if v.clockIn && v.ptpRef m.port.val && m.sub.val == 0 && v.linkUp m.port.val 0
        && v.cfgBits 0x5004 23 16 == m.domain.toNat then
      v.setServo ({ v.chip.servo with fed := some (m.refTime, v.mono) }.setRef true v.now)
    else v

/-! ### Staged pages (R72, R76, R304) -/

/-- The port and sub-port whose gate list a page holds. -/
def gatePage (p : Nat) : Option (Nat × Nat) :=
  if 0x500000 ≤ p && p < 0x510000 && p % 0x2000 == 0x1000 then some ((p - 0x500000) / 0x2000, 0)
  else if 0x580000 ≤ p && p < 0x5C0000 && p % 0x2000 == 0x1000 then
    some ((p - 0x580000) / 0x8000, (p - 0x580000) % 0x8000 / 0x2000)
  else none

/-- A page of the window of a spire that is parked or restarts: its commit waits for the unpark (R346). -/
def Dev.pageParked (v : Dev) (p : Nat) : Bool :=
  match windowOf p with
  | some s => (v.spire s).state == .parked || (v.spire s).state == .unparking
  | none => false

/-- A due commit takes effect: a gate list only at bell 0 of a peal, a ring page with what its ENABLE then does. -/
def Dev.takeStaged (v : Dev) (p : Nat) : Dev :=
  match (v.page p).due with
  | none => v
  | some d =>
    if !(v.atBell d) || v.pageParked p then v
    else match gatePage p with
      | some (n, k) => if v.atPeal then v.switchGates n k else v
      | none =>
        if 0xC00000 ≤ p && p < 0xD00000 then
          let r := (p - 0xC00000) / 0x1000
          (v.takePage p).ringCommit r (v.ringCfg r 0x14 31 31 == 1)
        else v.takePage p

/-- STAGED_COMMIT_TAKE_EFFECT (R76). -/
def execStagedCommitTakeEffect (page : Nat) (s : State) : Host.Outcome State Fault Refusal :=
  s.on fun v => if v.mode == .held then v else v.takeStaged (canonOff page)

/-- DEBUG_LEVEL_APPLY (R341, R342, R346): a level that was set takes effect; OPEN waits until no spire is parked. -/
def Dev.debugBell (v : Dev) : Dev :=
  let parked := (List.range 4).any (fun s => (v.spire s).state == .parked || (v.spire s).state == .unparking)
  if v.sec.nextDebug == some .open_ && v.sec.lifecycle == .provisioned && parked then v else v.applyDebug

def execDebugLevelApply (s : State) : Host.Outcome State Fault Refusal :=
  s.on fun v => if v.mode == .held then v else v.debugBell

/-! ### The bell boundary (R72) -/

/-- The bell count advances; a new peal has its nominal length. In VAULT a planned step is put off, and the peal keeps its
nominal length (R61, R70). -/
def Clock.tick (c : Clock) (nominal : Bool) : Clock :=
  let len := if nominal then max pealBells (c.bellInPeal + 1) else c.pealLen
  let ends := decide (len ≤ c.bellInPeal + 1)
  { c with bell := c.bell + 1, ns := 0, elapsed := c.elapsed + 1, aging := if c.ages then c.aging + 1 else c.aging,
           bellInPeal := if ends then 0 else c.bellInPeal + 1, pealLen := if ends then pealBells else len,
           peals := if ends then c.peals + 1 else c.peals }

/-- A step planned before VAULT waits in it (R70). -/
def Servo.defer (x : Servo) : Servo :=
  { x with stepDue := x.stepDue.map (fun d => { d with atBell := none }) }

def Dev.tick (v : Dev) : Dev :=
  let planned := match v.chip.servo.stepDue with | some d => d.atBell.isSome | none => false
  let hold := v.mode == .vault && planned
  let keeps := { v.chip.keeps with holdOut := false }
  let clk := v.clk.tick hold
  let w := v.assayBell
  { w with clk := clk
           chip := { w.chip with servo := if hold then v.chip.servo.defer else v.chip.servo
                                 keeps := keeps
                                 syncOut := v.chip.syncOut && decide (clk.bellInPeal < 2) } }

/-- Ports that are to police do so from this boundary; buckets gain a bell's rate; a pause ends where the buffer has
emptied otherwise than by admission; packets that a wider window lets go are queued; gates advance (R72, R234, R289, R293, R297,
R301). -/
def Dev.portBell (v : Dev) : Dev :=
  let ns := List.range 8
  let v1 := ns.foldl (fun x n =>
    if ((x.port n).toPolicer || x.policeForce n) && !(x.port n).policer then x.setPolicer n true else x) v
  let v2 := ns.foldl (fun x n =>
    if (x.port n).pfcSent && x.transportOn && (List.range 4).any (fun k => x.linkUp n k) then x.pfcCheck n else x) v1.refillAll
  ns.foldl (fun x n => (List.range (subCount (x.port n).breakout)).foldl (fun y k =>
    if y.gateEn n k || (y.eg n k).entry.isSome then y.setEg n k (y.syncGate n k y.clk.bellInPeal (y.eg n k)) else y) x)
    ((v2.hosts.qps.filter (fun e => !e.2.waiting.isEmpty)).foldl (fun x e => x.launchQp e.1) v2)

/-- Admission grants of the chip in a bell: 12.288 on average (R133). -/
def bellGrants (n : Nat) : Nat := (n + 1) * 12288 / 1000 - n * 12288 / 1000

/-- Each spire's tokens and grants for the bell; how the Keeps divide the grants is a free value (R133). -/
def Dev.grantBell (v : Dev) : Dev :=
  let one (a : Dev × Nat) (s : Nat) : Dev × Nat :=
    let (f, v1) := a.1.free32
    let g := f.toNat % (a.2 + 1)
    let x := v1.sched s
    let rate := v1.spireCfg s 0 0x10008 15 0
    let most := v1.spireCfg s 0 0x10008 27 16 * 64
    (v1.setSched s { x with uTokens := min (x.uTokens + rate) most, grants := g }, a.2 - g)
  ([0, 1, 2, 3].foldl one (v, bellGrants v.now)).1

/-- A spire lost since the last boundary is handed over, also where its roles were already with its partner: its copies,
windows and slice go with it (R26, R95, R97); a parked one's roles move (R345). -/
def Dev.spireBell (v : Dev) (s : Nat) : Dev :=
  match Tab.get v.chip.spires s with
  | none => v
  | some x =>
    let p := (v.spire (partner s)).state
    if x.state == .parked && !x.rolesAway then v.parkDone s
    else if x.lost && p != .parked && p != .unparking then
      let v1 := v.loseSpire s
      if v1.spireUp (partner s) then v1.dropRecov (.region (Fin.ofNat 4 s)) else v1
    else v

/-- Sessions being closed whose last command is done. -/
def Dev.closeBell (v : Dev) : Dev :=
  ((v.hosts.sessions.filter (fun e => e.2.closing.isSome)).map (·.1)).foldl (fun x n => x.closeSession n) v

/-- READs whose data is complete and waited for their path go on (R237). -/
def Dev.readBell (v : Dev) : Dev :=
  (v.hosts.reads.filter (fun r => r.ops.isEmpty && r.parts.all (fun p => p.plain.isSome))).foldl (fun x r => x.progressRead r.id) v

/-- The work of stroke 0 while the Keeps run, in order: what was latched for this boundary, then faults and their reactions,
then mode changes, then the work of the new bell. -/
def Dev.strokeZero (v : Dev) : Dev :=
  let v1 := v.counterBell
  let v2 := (v1.regs.pages.map (·.1)).foldl (fun x p => x.takeStaged p) v1
  let v3 := (v2.switchAll).takeReturns.creditBell
  let v4 := v3.holdBell.portBell.leaseBell.faultBell
  let v5 := [0, 1, 2, 3].foldl (fun x s => x.spireBell s) v4
  let v6 := v5.vaultBell.fixHums.debugBell.swapBell.askedResets.takeEvents
  let v7 := [0, 1, 2, 3].foldl (fun x s => ((x.runSched s).serveRoom s).idleBell s) v6.grantBell
  (v7.closeBell.readBell.reap.bayBell.epBell.hfBell).showStatus

/-- BELL_BOUNDARY (R61, R72): in HELD no bell is counted; in P3 bells are counted and nothing else runs (R83, R347). -/
def execBellBoundary (s : State) : Host.Outcome State Fault Refusal :=
  s.on fun v =>
    if v.mode == .held then v
    else if v.sec.p3 then v.tick.takeEvents
    else v.tick.strokeZero

end Sys2Proof.Machine
end

