-- ==== Sys2Proof/Machine/Dispatch.lean ====
section
/-! DEFINITION. One arm for every command. -/

namespace Sys2Proof.Machine

def exec (i : Instr) (s : State) : Host.Outcome State Fault Refusal :=
  match i with
  | .powerOn straps => Sys2Proof.Machine.execPowerOn straps s
  | .supplyBelowThreshold => Sys2Proof.Machine.execSupplyBelowThreshold s
  | .resetNPulse lowNs => Sys2Proof.Machine.execResetNPulse lowNs s
  | .resetNLongLow => Sys2Proof.Machine.execResetNLongLow s
  | .inputPowerLoss => Sys2Proof.Machine.execInputPowerLoss s
  | .inputPresent => Sys2Proof.Machine.execInputPresent s
  | .bellBoundary => Sys2Proof.Machine.execBellBoundary s
  | .creditCompute => Sys2Proof.Machine.execCreditCompute s
  | .keepOutputCompare stroke miscompare output => Sys2Proof.Machine.execKeepOutputCompare stroke miscompare output s
  | .keepSelfcheckMismatch k unit => Sys2Proof.Machine.execKeepSelfcheckMismatch k unit s
  | .keepIsolation k => Sys2Proof.Machine.execKeepIsolation k s
  | .pealBoundary => Sys2Proof.Machine.execPealBoundary s
  | .timeStep => Sys2Proof.Machine.execTimeStep s
  | .referenceLostTimeout => Sys2Proof.Machine.execReferenceLostTimeout s
  | .referenceValidAgain => Sys2Proof.Machine.execReferenceValidAgain s
  | .holdoverLimitExpire => Sys2Proof.Machine.execHoldoverLimitExpire s
  | .bellSyncEdge => Sys2Proof.Machine.execBellSyncEdge s
  | .pageCommit page value => Sys2Proof.Machine.execPageCommit page value s
  | .pageDiscard page value => Sys2Proof.Machine.execPageDiscard page value s
  | .stagedCommitTakeEffect page => Sys2Proof.Machine.execStagedCommitTakeEffect page s
  | .registerWrite by_ off value => Sys2Proof.Machine.execRegisterWrite by_ off value s
  | .bellNowRead by_ => Sys2Proof.Machine.execBellNowRead by_ s
  | .pmonLoRead by_ off => Sys2Proof.Machine.execPmonLoRead by_ off s
  | .tableVersionSwitch t key => Sys2Proof.Machine.execTableVersionSwitch t key s
  | .tableUpdateUnblock t key => Sys2Proof.Machine.execTableUpdateUnblock t key s
  | .tableUpdateTimeout t key => Sys2Proof.Machine.execTableUpdateTimeout t key s
  | .bootStagePass sp => Sys2Proof.Machine.execBootStagePass s sp
  | .bootStageFail code part sp => Sys2Proof.Machine.execBootStageFail code part s sp
  | .bootBackoffExpire sp => Sys2Proof.Machine.execBootBackoffExpire s sp
  | .bayWaitExpire => Sys2Proof.Machine.execBayWaitExpire s
  | .surveyComplete => Sys2Proof.Machine.execSurveyComplete s
  | .faultRepaired part => Sys2Proof.Machine.execFaultRepaired part s
  | .exposedSettleComplete => Sys2Proof.Machine.execExposedSettleComplete s
  | .spireLoss sp cause => Sys2Proof.Machine.execSpireLoss sp cause s
  | .regionReset by_ => Sys2Proof.Machine.execRegionReset by_ s
  | .regionBootComplete sp => Sys2Proof.Machine.execRegionBootComplete sp s
  | .remirrorComplete sp => Sys2Proof.Machine.execRemirrorComplete sp s
  | .roleReturn sp => Sys2Proof.Machine.execRoleReturn sp s
  | .blockReset by_ => Sys2Proof.Machine.execBlockReset by_ s
  | .blockResetComplete source resolved => Sys2Proof.Machine.execBlockResetComplete source resolved s
  | .identify p => Sys2Proof.Machine.execIdentify p s
  | .echo p => Sys2Proof.Machine.execEcho p s
  | .modeQuery p => Sys2Proof.Machine.execModeQuery p s
  | .modeSet p => Sys2Proof.Machine.execModeSet p s
  | .warmReset p => Sys2Proof.Machine.execWarmReset p s
  | .shutdown p => Sys2Proof.Machine.execShutdown p s
  | .drainWaitExpire d => Sys2Proof.Machine.execDrainWaitExpire d s
  | .drainComplete => Sys2Proof.Machine.execDrainComplete s
  | .activate p => Sys2Proof.Machine.execActivate p s
  | .activationDrainEnter => Sys2Proof.Machine.execActivationDrainEnter s
  | .imageSwap => Sys2Proof.Machine.execImageSwap s
  | .imageSwapComplete => Sys2Proof.Machine.execImageSwapComplete s
  | .activationTimeout => Sys2Proof.Machine.execActivationTimeout s
  | .create d => Sys2Proof.Machine.execCreate d s
  | .append d => Sys2Proof.Machine.execAppend d s
  | .sealOp d => Sys2Proof.Machine.execSeal d s
  | .delete d => Sys2Proof.Machine.execDelete d s
  | .read d => Sys2Proof.Machine.execRead d s
  | .stat d => Sys2Proof.Machine.execStat d s
  | .flush d => Sys2Proof.Machine.execFlush d s
  | .flushComplete id => Sys2Proof.Machine.execFlushComplete id s
  | .cack d => Sys2Proof.Machine.execCack d s
  | .ping d => Sys2Proof.Machine.execPing d s
  | .admitBoundExpire id => Sys2Proof.Machine.execAdmitBoundExpire id s
  | .grainsStored id => Sys2Proof.Machine.execGrainsStored id s
  | .appendHeld id => Sys2Proof.Machine.execAppendHeld id s
  | .stagingSignal qp imm msgLen => Sys2Proof.Machine.execStagingSignal qp imm msgLen s
  | .grantLifeExpire session grantTag => Sys2Proof.Machine.execGrantLifeExpire session grantTag s
  | .recordLifeExpire session tally => Sys2Proof.Machine.execRecordLifeExpire session tally s
  | .assayDue h => Sys2Proof.Machine.execAssayDue h s
  | .assayDischargeStart h => Sys2Proof.Machine.execAssayDischargeStart h s
  | .assayEnd h => Sys2Proof.Machine.execAssayEnd h s
  | .stripeClose id cause => Sys2Proof.Machine.execStripeClose id cause s
  | .settleAgeExpire id => Sys2Proof.Machine.execSettleAgeExpire id s
  | .bayWriteComplete op status => Sys2Proof.Machine.execBayWriteComplete op status s
  | .journalWriteComplete seq => Sys2Proof.Machine.execJournalWriteComplete seq s
  | .grainClean stripe => Sys2Proof.Machine.execGrainClean stripe s
  | .checkpointStart => Sys2Proof.Machine.execCheckpointStart s
  | .vaultPhaseV1 => Sys2Proof.Machine.execVaultPhaseV1 s
  | .vaultPhaseV2 => Sys2Proof.Machine.execVaultPhaseV2 s
  | .vaultSettleComplete done => Sys2Proof.Machine.execVaultSettleComplete done s
  | .vaultJournalClosed => Sys2Proof.Machine.execVaultJournalClosed s
  | .recordImageWritten => Sys2Proof.Machine.execRecordImageWritten s
  | .vaultFlushComplete done => Sys2Proof.Machine.execVaultFlushComplete done s
  | .vaultMarkerWritten => Sys2Proof.Machine.execVaultMarkerWritten s
  | .bayPowerGood b => Sys2Proof.Machine.execBayPowerGood b s
  | .bayControllerReady b info => Sys2Proof.Machine.execBayControllerReady b info s
  | .bayFail b cause => Sys2Proof.Machine.execBayFail b cause s
  | .bayDriveReadyAgain b info => Sys2Proof.Machine.execBayDriveReadyAgain b info s
  | .bayPortLinkChange b p up => Sys2Proof.Machine.execBayPortLinkChange b p up s
  | .activePortReturn b => Sys2Proof.Machine.execActivePortReturn b s
  | .bayReadComplete op r => Sys2Proof.Machine.execBayReadComplete op r s
  | .rebuildPositionComplete stripe position => Sys2Proof.Machine.execRebuildPositionComplete stripe position s
  | .compactionComplete stripe => Sys2Proof.Machine.execCompactionComplete stripe s
  | .tombstoneReclaim claim key => Sys2Proof.Machine.execTombstoneReclaim claim key s
  | .ioTimeout op => Sys2Proof.Machine.execIoTimeout op s
  | .leaseCapExpire l => Sys2Proof.Machine.execLeaseCapExpire l s
  | .readTimeout id => Sys2Proof.Machine.execReadTimeout id s
  | .lateCompletion b cid => Sys2Proof.Machine.execLateCompletion b cid s
  | .quarantineRelease b cid => Sys2Proof.Machine.execQuarantineRelease b cid s
  | .scanStart p => Sys2Proof.Machine.execScanStart p s
  | .scanAbort p => Sys2Proof.Machine.execScanAbort p s
  | .scanComplete sp tag => Sys2Proof.Machine.execScanComplete sp tag s
  | .scrubPassStart sp => Sys2Proof.Machine.execScrubPassStart sp s
  | .scrubPealQuota sp => Sys2Proof.Machine.execScrubPealQuota sp s
  | .scrubStripeReadComplete sp stripe done => Sys2Proof.Machine.execScrubStripeReadComplete sp stripe done s
  | .scrubDeferredRetry sp stripe => Sys2Proof.Machine.execScrubDeferredRetry sp stripe s
  | .relayPublish sp stripe => Sys2Proof.Machine.execRelayPublish sp stripe s
  | .cmReq r => Sys2Proof.Machine.execCmReq r s
  | .cmRtu qp => Sys2Proof.Machine.execCmRtu qp s
  | .pendingPathRelease qp => Sys2Proof.Machine.execPendingPathRelease qp s
  | .cmDreq qp => Sys2Proof.Machine.execCmDreq qp s
  | .requestPacket p => Sys2Proof.Machine.execRequestPacket p s
  | .unsupportedFrame port len => Sys2Proof.Machine.execUnsupportedFrame port s len
  | .mirrorContextHeld qp psn => Sys2Proof.Machine.execMirrorContextHeld qp psn s
  | .ackReceive qp psn => Sys2Proof.Machine.execAckReceive qp psn s
  | .ackTimeout qp => Sys2Proof.Machine.execAckTimeout qp s
  | .cnpReceive qp => Sys2Proof.Machine.execCnpReceive qp s
  | .hostRnrNak qp psn => Sys2Proof.Machine.execHostRnrNak qp psn s
  | .netLinkDown port sub => Sys2Proof.Machine.execNetLinkDown port sub s
  | .netLinkUp port sub => Sys2Proof.Machine.execNetLinkUp port sub s
  | .pathHoldExpire qp => Sys2Proof.Machine.execPathHoldExpire qp s
  | .consumerWordResponse session word => Sys2Proof.Machine.execConsumerWordResponse session word s
  | .consumerPollTimer session => Sys2Proof.Machine.execConsumerPollTimer session s
  | .ringEntryWrite session => Sys2Proof.Machine.execRingEntryWrite session s
  | .notifySend qp => Sys2Proof.Machine.execNotifySend qp s
  | .sessionCreate p => Sys2Proof.Machine.execSessionCreate p s
  | .sessionClose p => Sys2Proof.Machine.execSessionClose p s
  | .sessionQuery p => Sys2Proof.Machine.execSessionQuery p s
  | .windowWritePacket p => Sys2Proof.Machine.execWindowWritePacket p s
  | .unexpAged session => Sys2Proof.Machine.execUnexpAged session s
  | .immediateSpentEnd session grantTag => Sys2Proof.Machine.execImmediateSpentEnd session grantTag s
  | .windowCreate p => Sys2Proof.Machine.execWindowCreate p s
  | .windowRevoke p => Sys2Proof.Machine.execWindowRevoke p s
  | .revokeDrainComplete w => Sys2Proof.Machine.execRevokeDrainComplete w s
  | .tagWait p => Sys2Proof.Machine.execTagWait p s
  | .tagWaitTimeout id => Sys2Proof.Machine.execTagWaitTimeout id s
  | .chainQueueCreate p => Sys2Proof.Machine.execChainQueueCreate p s
  | .chainPost p => Sys2Proof.Machine.execChainPost p s
  | .chainQuery p => Sys2Proof.Machine.execChainQuery p s
  | .chainQueueDestroy p => Sys2Proof.Machine.execChainQueueDestroy p s
  | .waitOnCount p => Sys2Proof.Machine.execWaitOnCount p s
  | .waitOnCountTimeout q => Sys2Proof.Machine.execWaitOnCountTimeout q s
  | .chainElementComplete q status => Sys2Proof.Machine.execChainElementComplete q status s
  | .headframeSlot slot offered => Sys2Proof.Machine.execHeadframeSlot slot offered s
  | .reseqTimeout output mc dest from_ cls => Sys2Proof.Machine.execReseqTimeout output mc dest from_ cls s
  | .lostNotice input msgTag => Sys2Proof.Machine.execLostNotice input msgTag s
  | .hfIntermediateError plane inter => Sys2Proof.Machine.execHfIntermediateError plane inter s
  | .policerModeReturn port => Sys2Proof.Machine.execPolicerModeReturn port s
  | .transmitOpportunity port sub => Sys2Proof.Machine.execTransmitOpportunity port sub s
  | .gateEntryAdvance port sub => Sys2Proof.Machine.execGateEntryAdvance port sub s
  | .gateListSwitch port sub => Sys2Proof.Machine.execGateListSwitch port sub s
  | .pfcReceive port sub quanta => Sys2Proof.Machine.execPfcReceive port sub quanta s
  | .pfcRefresh port => Sys2Proof.Machine.execPfcRefresh port s
  | .meterProfileSet p => Sys2Proof.Machine.execMeterProfileSet p s
  | .meterProfileGet p => Sys2Proof.Machine.execMeterProfileGet p s
  | .keyLoad p => Sys2Proof.Machine.execKeyLoad p s
  | .keyRevoke p => Sys2Proof.Machine.execKeyRevoke p s
  | .keyZeroize slot => Sys2Proof.Machine.execKeyZeroize slot s
  | .keyQuery p => Sys2Proof.Machine.execKeyQuery p s
  | .keyEpochAdvance p => Sys2Proof.Machine.execKeyEpochAdvance p s
  | .connKeyBind p => Sys2Proof.Machine.execConnKeyBind p s
  | .leaseGrant sp slot nvOk => Sys2Proof.Machine.execLeaseGrant sp slot nvOk s
  | .rngSourceFail k test => Sys2Proof.Machine.execRngSourceFail k test s
  | .rngExhausted => Sys2Proof.Machine.execRngExhausted s
  | .cipherCoreFault sp core => Sys2Proof.Machine.execCipherCoreFault sp core s
  | .provision p => Sys2Proof.Machine.execProvision p s
  | .retire p => Sys2Proof.Machine.execRetire p s
  | .sanitizeComplete b status => Sys2Proof.Machine.execSanitizeComplete b status s
  | .lifecycleQuery p => Sys2Proof.Machine.execLifecycleQuery p s
  | .debugChallenge p => Sys2Proof.Machine.execDebugChallenge p s
  | .debugSet p => Sys2Proof.Machine.execDebugSet p s
  | .debugLevelApply => Sys2Proof.Machine.execDebugLevelApply s
  | .jtagDebugAccess r => Sys2Proof.Machine.execJtagDebugAccess r s
  | .imageStage p => Sys2Proof.Machine.execImageStage p s
  | .floorAdvance p => Sys2Proof.Machine.execFloorAdvance p s
  | .imageQuery p => Sys2Proof.Machine.execImageQuery p s
  | .park p => Sys2Proof.Machine.execPark p s
  | .unpark by_ => Sys2Proof.Machine.execUnpark by_ s
  | .unparkRestartComplete sp => Sys2Proof.Machine.execUnparkRestartComplete sp s
  | .unparkRoleReturn sp => Sys2Proof.Machine.execUnparkRoleReturn sp s
  | .standby p => Sys2Proof.Machine.execStandby p s
  | .smbusWake code data => Sys2Proof.Machine.execSmbusWake code data s
  | .smbusBootProgressRead code => Sys2Proof.Machine.execSmbusBootProgressRead code s
  | .p1Entry sp => Sys2Proof.Machine.execP1Entry sp s
  | .p1Wake sp => Sys2Proof.Machine.execP1Wake sp s
  | .hotSwapSample m => Sys2Proof.Machine.execHotSwapSample m s
  | .bayPresenceConfirmed b => Sys2Proof.Machine.execBayPresenceConfirmed b s
  | .humSeated h => Sys2Proof.Machine.execHumSeated h s
  | .insertDelayEnd b => Sys2Proof.Machine.execInsertDelayEnd b s
  | .rampStart c => Sys2Proof.Machine.execRampStart c s
  | .rampComplete c => Sys2Proof.Machine.execRampComplete c s
  | .rampTimeout c => Sys2Proof.Machine.execRampTimeout c s
  | .perstRelease b => Sys2Proof.Machine.execPerstRelease b s
  | .fastTrip c current => Sys2Proof.Machine.execFastTrip c current s
  | .breakerTrip c point => Sys2Proof.Machine.execBreakerTrip c point s
  | .retryDue c => Sys2Proof.Machine.execRetryDue c s
  | .tripCountClear c => Sys2Proof.Machine.execTripCountClear c s
  | .bayRemovalConfirmed b => Sys2Proof.Machine.execBayRemovalConfirmed b s
  | .humSeatingLoss h => Sys2Proof.Machine.execHumSeatingLoss h s
  | .passTransistorFault c => Sys2Proof.Machine.execPassTransistorFault c s
  | .humIdRead h serial => Sys2Proof.Machine.execHumIdRead h serial s
  | .channelSet p => Sys2Proof.Machine.execChannelSet p s
  | .channelRelease p => Sys2Proof.Machine.execChannelRelease p s
  | .thermalCrit sensor t0 t1 => Sys2Proof.Machine.execThermalCrit sensor t0 t1 s
  | .faultEvent f => Sys2Proof.Machine.execFaultEvent f s
  | .fencedSettleComplete => Sys2Proof.Machine.execFencedSettleComplete s
  | .faultRead p => Sys2Proof.Machine.execFaultRead p s
  | .faultClear p => Sys2Proof.Machine.execFaultClear p s
  | .faultList p => Sys2Proof.Machine.execFaultList p s
  | .faultInject p => Sys2Proof.Machine.execFaultInject p s
  | .claimSet p => Sys2Proof.Machine.execClaimSet p s
  | .claimGet p => Sys2Proof.Machine.execClaimGet p s
  | .claimStatus p => Sys2Proof.Machine.execClaimStatus p s
  | .claimRemove p => Sys2Proof.Machine.execClaimRemove p s
  | .shelfLayout p => Sys2Proof.Machine.execShelfLayout p s
  | .bayAdopt p => Sys2Proof.Machine.execBayAdopt p s
  | .baySanitize p => Sys2Proof.Machine.execBaySanitize p s
  | .bayQuery p => Sys2Proof.Machine.execBayQuery p s
  | .portSet p => Sys2Proof.Machine.execPortSet p s
  | .portQuery p => Sys2Proof.Machine.execPortQuery p s
  | .counterSelect p => Sys2Proof.Machine.execCounterSelect p s
  | .pmonSelWrite off value => Sys2Proof.Machine.execPmonSelWrite off value s
  | .counterSelectionApply region block k => Sys2Proof.Machine.execCounterSelectionApply region block k s
  | .counterRead p => Sys2Proof.Machine.execCounterRead p s
  | .snapshot p => Sys2Proof.Machine.execSnapshot p s
  | .snapshotCopy => Sys2Proof.Machine.execSnapshotCopy s
  | .snapshotBufferWritten => Sys2Proof.Machine.execSnapshotBufferWritten s
  | .traceRead p => Sys2Proof.Machine.execTraceRead p s
  | .sqTailDoorbell r value slots => Sys2Proof.Machine.execSqTailDoorbell r value slots s
  | .stHeadDoorbell r value => Sys2Proof.Machine.execStHeadDoorbell r value s
  | .floderReplyWrite src => Sys2Proof.Machine.execFloderReplyWrite src s
  | .ringIntTimer r => Sys2Proof.Machine.execRingIntTimer r s
  | .ringDmaFault r => Sys2Proof.Machine.execRingDmaFault r s
  | .ringDrained r => Sys2Proof.Machine.execRingDrained r s
  | .epMemoryRequest r => Sys2Proof.Machine.execEpMemoryRequest r s
  | .epLinkUp speed width => Sys2Proof.Machine.execEpLinkUp speed width s
  | .epAerUncorrectable cause header => Sys2Proof.Machine.execEpAerUncorrectable cause header s
  | .epFreezeRelease value => Sys2Proof.Machine.execEpFreezeRelease value s
  | .epCompletion pf tag st => Sys2Proof.Machine.execEpCompletion pf tag st s
  | .epCompletionTimeout pf tag => Sys2Proof.Machine.execEpCompletionTimeout pf tag s
  | .epTagQuarantineEnd pf tag => Sys2Proof.Machine.execEpTagQuarantineEnd pf tag s
  | .busMasterDisable pf why => Sys2Proof.Machine.execBusMasterDisable pf why s
  | .busMasterEnable pf => Sys2Proof.Machine.execBusMasterEnable pf s
  | .flr pf => Sys2Proof.Machine.execFlr pf s
  | .flrComplete pf => Sys2Proof.Machine.execFlrComplete pf s
  | .epReset kind => Sys2Proof.Machine.execEpReset kind s
  | .epFailover => Sys2Proof.Machine.execEpFailover s
  | .epFailoverComplete => Sys2Proof.Machine.execEpFailoverComplete s
  | .ptpMessageReceive m => Sys2Proof.Machine.execPtpMessageReceive m s
  | .arpNdRequest port sub target => Sys2Proof.Machine.execArpNdRequest port sub target s

end Sys2Proof.Machine
end

