-- ==== Sys2Proof/Safety.lean ====
section
/-! DEFINITION. What counts as a sound state of the block, and the words the statements are made of. -/

namespace Sys2Proof.Machine

/-- A Floder command of an opcode may start now (R397, R406 to R408): it is at the head of its source, every shared check
passes, and `w` is the device with the command started and known as `id`. -/
def Starts (v : Dev) (op : Nat) (p : Packet) (w : Dev) (id : Nat) : Prop := v.floderStart op p = some (w, id, none)

/-- The state with another device, the queue as it was. -/
abbrev State.withDev (s : State) (v : Dev) : State := { s with dev := v }

/-- The clock is sound (R61, R68): a bell has 512 ns, a peal holds the bell in progress, and no step makes a peal shorter
than half its nominal length or longer than one and a half. -/
def Clock.Sound (c : Clock) : Prop := c.ns < 512 ∧ c.bellInPeal < c.pealLen ∧ 7813 ≤ c.pealLen ∧ c.pealLen ≤ 23437

/-- The window memory is in its canonical form and the clock is sound. -/
def State.Sound (s : State) : Prop := Memory.wf s.dev.winMem = true ∧ s.dev.clk.Sound

/-- A capsule is the one message at ingress, no command is in progress, it passes every check of R119 as a command of a kind under
the claim version `desc`, its counter run is `nonce` and `y` the device with that run reserved, the spires it is forwarded to can be
reached, and the scheduler of its arrival spire has an admission grant left for its class (R25, R119, R133, R320). -/
def Sole (v : Dev) (k : CmdKind) (m : Waiting) (sn : Nat) (x : Session) (desc : ClaimDesc) (nonce : BitVec 32 × BitVec 64) (y : Dev) :
    Prop :=
  v.hosts.inbox = [m] ∧ m.msg.opcode = k.opcode ∧ v.hosts.ctxs = [] ∧ v.hosts.dups = [] ∧ v.sessionOf m.msg.qp = some sn ∧
  v.session sn = some x ∧ v.serving = true ∧ capsuleOk k m.msg.cap (v.plainLen x m.msg) = true ∧ v.forwardable x k m.msg = true ∧
  (k.tallied = true → x.tallyStep m.msg.cap.tally = .fresh) ∧ v.accessCheck x k m.msg = .ok desc ∧
  v.reserveNonce (Fin.ofNat 4 (v.homeOf m.msg.qp)) desc.keySlot (kindGrains k m.msg.cap) = (some nonce, y) ∧
  v.extentCheck (v.newCtx v.nextId sn x k m desc nonce) = none ∧ v.spireUp (v.homeOf m.msg.qp) = true ∧
  (v.sched (v.homeOf m.msg.qp)).grants ≠ 0 ∧ m.msg.cap.cmdClass < 4

/-- One entry more waits to be issued for a session: the completion of a capsule with a status, for its record where it
names a tally. -/
def HasAnswer (u : Dev) (sn : Nat) (x : Session) (d : Delivered) (st : Byte) (tally : Option Nat) (c : Completion) : Prop :=
  c.status = st ∧ c.cmdTag = d.cap.cmdTag ∧ c.tally = d.cap.tally ∧
  ∃ y, u.session sn = some y ∧ y.built = x.built ++ [⟨.completion c, some d.qp, tally, false, some d.at_, false⟩] ∧ y.paths = x.paths

end Sys2Proof.Machine
end

