-- ==== Sys2Proof/Certificates/Slice0/Obligations.lean ====
section
/-! DEFINITION. The statements about the block, for the provers. -/

set_option linter.unusedVariables false

open Sys2Proof Sys2Proof.Machine

/-- The block's step: the command at the front of the queue is executed on the state with the queue's rest. Every command
answers a next state and leaves the queue alone: no command of the table is turned away. -/
def Obligations.StepTakesFrontCommand : Prop :=
  (∀ (s : State) (c : Instr) (rest : List Instr),
  (s.pending = c :: rest → step s = exec c { s with pending := rest }) ∧ (s.pending = [] → step s = .next s)) ∧
  (∀ (c : Instr) (s : State), ∃ v : Dev, exec c s = .next (s.withDev v))

/-- R84, R93, R95, R354, R396: what reset leaves where the manual says it. -/
def Obligations.ResetState : Prop := State.reset.dev.mode = .held ∧ State.reset.pending = [] ∧ State.reset.Sound ∧
  (∀ b, (State.reset.dev.bay b).state = .absent) ∧ (∀ c, (State.reset.dev.chan c).state = .off) ∧
  (∀ r, (State.reset.dev.ring r).state = .disabled) ∧ (∀ n, (State.reset.dev.keySlot n).state = .empty) ∧
  (∀ n, State.reset.dev.session n = none) ∧ (∀ n, State.reset.dev.qp n = none) ∧ (∀ a, memRead State.reset.dev.winMem a = 0) ∧
  State.reset.dev.sec.debug = .closed ∧ State.reset.dev.chip.servo.state = .free ∧ State.reset.dev.chip.servo.stepCount = 0 ∧
  (∀ i, State.reset.dev.faultRec i = none)

/-- R85, R86: the modes that an event leads to, and the events that leave a mode as it is. R86: when RESET_N has no
effect, and that only the supply leaves FENCED. -/
def Obligations.ModeTable : Prop :=
  (∀ (v : Dev),
  let m := v.mode
  let run := m = .survey ∨ m = .service ∨ m = .degraded ∨ m = .drain
  let up := m = .survey ∨ m = .service ∨ m = .degraded
  let after := fun (e : ModeEvent) => (v.takeEvent e).mode
  (after .supplyBelow = .held) ∧
  (run ∨ m = .vault ∨ (m = .boot ∧ v.chip.boot.stage ≠ 0) → after .fatal = .fenced) ∧
  (m = .held ∨ m = .fenced ∨ (m = .boot ∧ v.chip.boot.stage = 0) → after .fatal = m) ∧
  (v.sec.p3 = false → run → after .powerLoss = .vault) ∧ (v.sec.p3 = false → ¬ run → after .powerLoss = m) ∧
  (run → v.dirty = 0 → after .resetLong = .held) ∧ (run → v.dirty ≠ 0 → after .resetLong = .vault) ∧
  (m = .boot → v.chip.boot.dirtyAtStart = false → after .resetLong = .held) ∧
  (m = .boot → v.chip.boot.dirtyAtStart = true → after .resetLong = .boot ∧ (v.takeEvent .resetLong).chip.boot.wantVault = true) ∧
  (m = .vault ∨ m = .fenced ∨ m = .held → after .resetLong = m ∧ after .warmReset = m) ∧
  (run ∨ m = .boot → after .warmReset = .boot) ∧
  (m = .boot → v.chip.boot.stage = 5 → v.chip.boot.wantVault = false → after .bootDone = .survey) ∧
  (m = .boot → v.chip.boot.stage = 5 → v.chip.boot.wantVault = true → after .bootDone = .vault) ∧
  (m = .boot → v.chip.boot.stage ≠ 5 → after .bootDone = m) ∧
  (m ≠ .boot → after .bootDone = m) ∧
  (m = .survey → v.mayServe = true → after .toService = (if v.chip.unrepaired = [] then .service else .degraded)) ∧
  (m ≠ .survey ∨ v.mayServe = false → after .toService = m ∧ after .surveyDone = m) ∧
  (m = .survey → v.mayServe = true → v.cfgBits 0x2004 31 31 = 1 → after .surveyDone = after .toService) ∧
  (m = .vault → v.chip.vault.phase = .waiting → after .vaultDone = .boot) ∧ (m ≠ .vault → after .vaultDone = m) ∧
  (m = .drain → v.chip.drain.offReady = false → v.chip.drain.returnMode = .survey → after .endDrain = .survey ∧ after .resume = .survey) ∧
  (m = .drain → v.chip.drain.offReady = false → v.chip.drain.returnMode ≠ .survey → v.sec.debug ≠ .open_ →
    after .endDrain = (if v.chip.unrepaired = [] then .service else .degraded)) ∧
  (m ≠ .drain ∨ v.chip.drain.offReady = true → after .endDrain = m ∧ after .resume = m) ∧
  (m = .service → v.chip.unrepaired ≠ [] → after .partFault = .degraded) ∧ (m ≠ .service → after .partFault = m) ∧
  (m = .degraded → v.chip.unrepaired = [] → after .repaired = .service) ∧ (m ≠ .degraded → after .repaired = m) ∧
  (m = .service ∨ m = .degraded → after .debugOpen = .drain) ∧ (up → after .shutdown = .drain ∧ after .activate = .drain) ∧
  (¬ up → after .shutdown = m ∧ after .activate = m)) ∧
  (∀ (s : State) (n : Nat) (v : Dev) (e : ModeEvent),
  (n < 1000 → exec (.resetNPulse n) s = .next s) ∧
  ((s.dev.mode = .vault ∨ s.dev.mode = .fenced) → exec (.resetNPulse n) s = .next s ∧ exec .resetNLongLow s = .next s) ∧
  (v.mode = .fenced → e ≠ .supplyBelow → (v.takeEvent e).mode = .fenced) ∧
  ((v.takeEvent .supplyBelow).mode = .held))

/-- R84, R85: nothing but power-on leaves HELD. R85, R87: the mode changes at bell boundaries, at power-on and where an
activation begins its DRAIN, and by no other command. -/
def Obligations.ModeChangesAtBells : Prop :=
  (∀ (c : Instr) (s t : State), exec c s = .next t → s.dev.mode = .held →
  (∀ straps, c ≠ .powerOn straps) → t.dev.mode = .held) ∧
  (∀ (c : Instr) (s t : State), exec c s = .next t → c ≠ .bellBoundary →
  c ≠ .activationDrainEnter → (∀ straps, c ≠ .powerOn straps) → t.dev.mode = s.dev.mode)

/-- R333, R335: the lifecycle only goes forward: BLANK, PROVISIONED, RETIRED. R338: the security version floor never
falls. -/
def Obligations.WhatNeverGoesBack : Prop :=
  (∀ (s t : State), step s = .next t →
  s.dev.sec.lifecycle.code ≤ t.dev.sec.lifecycle.code) ∧
  (∀ (s t : State), step s = .next t →
  s.dev.sec.floor.toNat ≤ t.dev.sec.floor.toNat)

/-- R243: the window memory keeps its canonical form at every step. -/
def Obligations.WindowMemoryStaysCanonical : Prop := ∀ (s t : State), step s = .next t → Memory.wf s.dev.winMem = true →
  Memory.wf t.dev.winMem = true

/-- R250 to R252: no command changes a byte of window memory but a window write, the freeing of a window, a write over
JTAG, and the resets that bell boundaries bring. -/
def Obligations.WindowMemoryWriters : Prop := ∀ (c : Instr) (s t : State) (a : Nat), exec c s = .next t →
  (∀ p, c ≠ .windowWritePacket p) → (∀ n, c ≠ .revokeDrainComplete n) → (∀ j, c ≠ .jtagDebugAccess j) → c ≠ .bellBoundary →
  c ≠ .activationDrainEnter → memRead t.dev.winMem a = memRead s.dev.winMem a

/-- R61, R68: the clock stays sound at every step. -/
def Obligations.ClockStaysSound : Prop := ∀ (s t : State), step s = .next t → s.dev.clk.Sound → t.dev.clk.Sound

/-- R61, R69: no command moves the count of bells but the bell boundary, a time step and power-on, and within the bell
time does not go back. -/
def Obligations.OnlyTheBellCounts : Prop := ∀ (c : Instr) (s t : State), exec c s = .next t → c ≠ .bellBoundary → c ≠ .timeStep →
  (∀ straps, c ≠ .powerOn straps) → t.dev.clk.bell = s.dev.clk.bell ∧ t.dev.clk.elapsed = s.dev.clk.elapsed ∧
  t.dev.clk.bellInPeal = s.dev.clk.bellInPeal ∧ s.dev.clk.ns ≤ t.dev.clk.ns

/-- R75, R77: a value in force changes at a bell boundary, where its commit takes effect, at a gate-list switch, where an
update of a forwarding mode that waited takes effect (R80), at a reset of its page or endpoint or in the start of a
DRAIN, and by no other command: a register write changes what is staged only. -/
def Obligations.ValuesInForce : Prop := ∀ (c : Instr) (s t : State) (o : Nat), exec c s = .next t → c ≠ .bellBoundary →
  c ≠ .activationDrainEnter → (∀ p, c ≠ .stagedCommitTakeEffect p) → (∀ p k, c ≠ .gateListSwitch p k) →
  (∀ k, c ≠ .epReset k) → (∀ p, c ≠ .flrComplete p) → (∀ p, c ≠ .unparkRestartComplete p) →
  (∀ u k, c ≠ .tableVersionSwitch u k) → (∀ u k, c ≠ .tableUpdateUnblock u k) → t.dev.cfg o = s.dev.cfg o

/-- R395, R398: completing a command takes it from those in progress and adds at most one reply, which carries its tag and
opcode; nothing outside the Floder routes and the maintenance queues changes. -/
def Obligations.CompletionAddsOneReply : Prop := ∀ (v : Dev) (id r0 r1 r2 : Nat) (st : Byte) (data : List Byte),
  let w := v.finish id st r0 r1 r2 data
  (∀ c ∈ w.floder.cmds, c.id ≠ id) ∧
  (w.floder.replies = v.floder.replies ∨ ∃ x, w.floder.replies = v.floder.replies ++ [x] ∧
    (∃ c ∈ v.floder.cmds, c.id = id ∧ x.tag = c.tag ∧ x.opcode = c.opcode ∧ x.src = c.replyTo) ∧
    (x.status = st ∨ x.status = stMasterDisable) ∧ x.step = v.step16 ∧ x.stamp = v.stamp) ∧
  w = { v with floder := w.floder, hosts := { v.hosts with chains := w.hosts.chains } } ∧
  (∀ i, i ≠ id → (v.fail id st).floder.cmds.find? (fun c => c.id == i) = v.floder.cmds.find? (fun c => c.id == i))

/-- R61, R63, R66 to R68, R70, R72, R83: the bell and peal boundaries and the events of the time-base servo. How the servo
hears its references is the model's choice (assumption log 60). -/
def Obligations.TimeEvents : Prop := ∀ (s : State) (m : PtpMessage) (b : Int) (t : Nat) (ref : Option Nat),
  let v := s.dev
  let x := v.chip.servo
  (v.mode = .held → exec .bellBoundary s = .next s) ∧
  (v.mode ≠ .held → v.sec.p3 = false → exec .bellBoundary s = .next (s.withDev <| v.tick.strokeZero)) ∧
  (v.mode ≠ .held → v.sec.p3 = true → exec .bellBoundary s = .next (s.withDev <| v.tick.takeEvents)) ∧
  (v.tick.clk.bell = v.clk.bell + 1 ∧ v.tick.clk.elapsed = v.clk.elapsed + 1 ∧ v.tick.clk.ns = 0 ∧ v.tick.mode = v.mode ∧
    v.tick.hosts = v.hosts ∧ v.tick.store = { v.store with ecaps := v.tick.store.ecaps } ∧ v.tick.regs = v.regs ∧
    (∀ e ∈ v.tick.store.ecaps, ∃ f ∈ v.store.ecaps, e.serial = f.serial ∧ e.cap = f.cap) ∧
    (v.mode ≠ .vault → v.tick.clk.bellInPeal = (if v.clk.bellInPeal + 1 < v.clk.pealLen then v.clk.bellInPeal + 1 else 0))) ∧
  ((v.mode = .held ∨ v.clk.bellInPeal ≠ 0 ∨ x.measured = some v.now) → exec .pealBoundary s = .next s) ∧
  (v.mode ≠ .held → v.clk.bellInPeal = 0 → x.measured ≠ some v.now → v.sec.p3 = true →
    exec .pealBoundary s = .next (s.withDev <| v.setServo { x with measured := some v.now })) ∧
  (v.mode ≠ .held → v.clk.bellInPeal = 0 → x.measured ≠ some v.now → v.sec.p3 = false → ∃ u : Dev,
    exec .pealBoundary s = .next (s.withDev u) ∧ u.chip.servo.measured = some v.now ∧ u.chip.syncOut = true ∧ Out.bellSync ∈ u.out ∧
    u.chip.rng = v.chip.rng.peal v.now ∧ u.mode = v.mode ∧ u.clk.bell = v.clk.bell ∧
    (u.clk.pealLen = v.clk.pealLen ∨ (7813 ≤ u.clk.pealLen ∧ u.clk.pealLen ≤ 23437))) ∧
  (v.mode ≠ .vault → v.atBell t = true → x.stepDue = some ⟨some t, b, ref⟩ → ∃ u : Dev,
    exec .timeStep s = .next (s.withDev <| u.fault 0x090 7 0 (BitVec.ofInt 32 b).toNat 0 0) ∧
      u.clk.bell = (match ref with | some r => r / 512 + v.now - t | none => v.clk.bell) ∧ u.chip.servo.stepDue = none ∧
      u.chip.servo.stepCount = x.stepCount + 1 ∧ u.chip.servo.epochPtp = (x.epochPtp || ref.isSome) ∧ u.hosts = v.hosts ∧
      u.store = v.store ∧ u.regs = v.regs ∧ u.mode = v.mode) ∧
  ((v.mode = .vault ∨ x.stepDue = none) → exec .timeStep s = .next s) ∧
  (x.state = .locked → x.lostSince = some t → v.atBell (t + 125 * pealBells) = true → exec .referenceLostTimeout s = .next (s.withDev <|
    { v with chip := { v.chip with servo := { x with state := .holdover, holdSince := v.now, okRun := 0, badRun := 0 } } })) ∧
  ((x.state ≠ .locked ∨ x.lostSince = none) → exec .referenceLostTimeout s = .next s) ∧
  (x.state = .holdover → x.refValid = true → exec .referenceValidAgain s = .next (s.withDev <|
    { v with chip := { v.chip with servo := { x with state := .acquire, okRun := 0, badRun := 0 } } })) ∧
  (x.state = .holdover → v.atBell (x.holdSince + v.cfgBits 0x5004 15 0 * pealBells) = true → ∃ u : Dev,
    exec .holdoverLimitExpire s = .next (s.withDev u) ∧ u.chip.servo.state = .free ∧ u.clk = v.clk ∧ u.hosts = v.hosts) ∧
  (x.state ≠ .holdover → exec .referenceValidAgain s = .next s ∧ exec .holdoverLimitExpire s = .next s) ∧
  (v.mode ≠ .held → v.sec.p3 = false → v.srcSync = true → v.srcPtp = false →
    (x.lastSync = none → exec .bellSyncEdge s = .next (s.withDev <|
      v.setServo (({ x with lastSync := some v.mono } : Servo).setRef true v.now))) ∧
    (x.lastSync = some t → 7999000 ≤ v.mono - t → ((v.mono - t) % 8000000 ≤ 1000 ∨ 7999000 ≤ (v.mono - t) % 8000000) →
      exec .bellSyncEdge s = .next (s.withDev <| v.setServo (({ x with lastSync := some v.mono } : Servo).setRef true v.now))) ∧
    (x.lastSync = some t → (v.mono - t < 7999000 ∨ 1000 < (v.mono - t) % 8000000 ∧ (v.mono - t) % 8000000 < 7999000) →
      exec .bellSyncEdge s = .next (s.withDev <| v.countKeep 0x11 0x001 1))) ∧
  (v.srcSync = false → exec .bellSyncEdge s = .next s) ∧
  (v.mode ≠ .held → v.sec.p3 = false → v.ptpRef m.port.val = true → m.sub = 0 → v.linkUp m.port.val 0 = true →
    v.cfgBits 0x5004 23 16 = m.domain.toNat → exec (.ptpMessageReceive m) s = .next (s.withDev <|
      v.setServo (({ x with fed := some (m.refTime, v.mono) } : Servo).setRef true v.now))) ∧
  (v.ptpRef m.port.val = false → exec (.ptpMessageReceive m) s = .next s)

/-- R395, R412: IDENTIFY, ECHO, MODE_QUERY, LIFECYCLE_QUERY and IMAGE_QUERY complete OK with the results their rules give.
R85, R103, R107, R347, R410: the commands that ask for a mode. MODE_SET and SHUTDOWN note their event and complete
later; WARM_RESET and STANDBY reply first. A mode that does not take the command answers BUSY_MODE. R333 to R340:
PROVISION, RETIRE, DEBUG_CHALLENGE and DEBUG_SET under their checks. Corner cases of these commands are the model's
choices (assumption log 43, 44). -/
def Obligations.SecurityAndModeCommands : Prop :=
  (∀ (s : State) (p : Packet) (w : Dev) (id : Nat),
  (Starts s.dev 0x0001 p w id → exec (.identify p) s = .next (s.withDev <|
    (w.finish id stOk w.status w.bootProgress.toNat w.sec.lifecycle.code (padTo 64 ([0x80, 0x32, 0x9A, 0x1F, 0xB0] ++ zeros 11
      ++ leBytes 16 Config.serial.toNat ++ leBytes 4 w.sec.loadedVer.toNat ++ leBytes 4 w.sec.loadedSvn.toNat))).skipHeads p.src)) ∧
  (Starts s.dev 0x0002 p w id → exec (.echo p) s = .next (s.withDev <|
    (w.finishOk id (p.u32 0) (p.u32 4) (p.u32 8)).skipHeads p.src)) ∧
  (Starts s.dev 0x0100 p w id → exec (.modeQuery p) s = .next (s.withDev <|
    (w.finishOk id w.status w.chip.drain.purpose.code (if w.chip.drain.offReady then 1 else 0)).skipHeads p.src)) ∧
  (Starts s.dev 0x0022 p w id → exec (.lifecycleQuery p) s = .next (s.withDev <|
    (w.finish id stOk w.sec.lifecycle.code 0 0 (leBytes 16 Config.serial.toNat ++ slice Config.identityPublic 0 97)).skipHeads p.src)) ∧
  (Starts s.dev 0x0804 p w id → exec (.imageQuery p) s = .next (s.withDev <|
    (w.finishOk id w.activeImage.svn.toNat w.otherImage.svn.toNat
      (b2n w.chip.boot.image + 2 * b2n w.otherImage.staged + 4 * b2n (w.sec.act != .idle))).skipHeads p.src))) ∧
  (∀ (s : State) (p : Packet) (w : Dev) (id : Nat),
  (Starts s.dev 0x0101 p w id → p.u8 0 = 0 → exec (.modeSet p) s = .next (s.withDev <|
    (if w.mode = .survey ∧ w.mayServe = true then w.modeEvent .toService else w.fail id stBusyMode).skipHeads p.src)) ∧
  (Starts s.dev 0x0101 p w id → p.u8 0 = 1 → exec (.modeSet p) s = .next (s.withDev <|
    (if w.mode = .drain ∧ w.chip.drain.offReady = false then w.modeEvent .resume else w.fail id stBusyMode).skipHeads p.src)) ∧
  (Starts s.dev 0x0101 p w id → 1 < p.u8 0 → exec (.modeSet p) s = .next (s.withDev <|
    (w.fail id stInvalidField).skipHeads p.src)) ∧
  (Starts s.dev 0x0102 p w id → exec (.warmReset p) s = .next (s.withDev <|
    (({ w with floder := { w.floder with warmAsked := some w.clk.elapsed } }).finishOk id 0 0 0).skipHeads p.src)) ∧
  (Starts s.dev 0x0105 p w id → exec (.shutdown p) s = .next (s.withDev <|
    (if w.mode = .survey ∨ w.mode = .service ∨ w.mode = .degraded then w.modeEvent .shutdown else w.fail id stBusyMode).skipHeads
      p.src)) ∧
  (Starts s.dev 0x0108 p w id → exec (.standby p) s = .next (s.withDev <|
    (if w.mode = .drain ∧ w.chip.drain.offReady = true then
      ({ w with sec := { w.sec with standbyAsked := true } }).finishOk id 0 0 0 else w.fail id stBusyMode).skipHeads p.src)) ∧
  (Starts s.dev 0x0802 p w id → exec (.activate p) s = .next (s.withDev <|
    (if w.otherImage.staged = true ∧ imageValid w.otherImage.bytes w.sec.floor = true then
      (if w.mode = .survey ∨ w.mode = .service ∨ w.mode = .degraded then
        { w with sec := { w.sec with act := .scheduled, actCmd := some id } } else w.fail id stBusyMode)
     else w.fail id stInvalidField).skipHeads p.src))) ∧
  (∀ (s : State) (p : Packet) (w : Dev) (id : Nat),
  (Starts s.dev 0x0020 p w id → w.sec.lifecycle = .blank → w.sec.debug ≠ .open_ →
    exec (.provision p) s = .next (s.withDev <| (match unwrapKek (p.bytes 234) with
      | none => w.fail id stAuthFail
      | some kek => ({ w with
          sec := { w.sec with fuseA := if w.keepSound .A then .provisioned else w.sec.fuseA
                              fuseB := if w.keepSound .B then .provisioned else w.sec.fuseB
                              kek := some kek, ownerKey := some (slice p.data 0 97), keyEpoch := 0 }
          leases := [] }).finishOk id 0 0 0).skipHeads p.src)) ∧
  (Starts s.dev 0x0020 p w id → w.sec.lifecycle ≠ .blank →
    exec (.provision p) s = .next (s.withDev <| (w.fail id stAccessDenied).skipHeads p.src)) ∧
  (Starts s.dev 0x0021 p w id → w.sec.lifecycle = .provisioned → w.sec.authFails < 8 → w.mode ≠ .drain →
    exec (.retire p) s = .next (s.withDev <|
      (if w.signedOk 0xFF (p.bytes 96) = true then
        ({ w with sec := { w.sec with challenge := none } }).modeEvent .shutdown
      else (w.useChallenge.authFailed 0x0021).fail id stAuthFail).skipHeads p.src)) ∧
  (Starts s.dev 0x0A01 p w id → exec (.debugChallenge p) s = .next (s.withDev <|
    (let (c, v) := w.free256
     ({ v with sec := { v.sec with challenge := some (c, w.clk.elapsed) } }).finish id stOk 0 0 0 (leBytes 32 c.toNat)).skipHeads
      p.src)) ∧
  (Starts s.dev 0x0A02 p w id → ∀ l, levelOf (p.u8 0) = some l →
    (l ≠ .open_ ∨ (w.sec.authFails < 8 ∧ w.sec.lifecycle ≠ .provisioned)) →
    exec (.debugSet p) s = .next (s.withDev <|
      (({ w with sec := { w.sec with nextDebug := some l } }).finishOk id 0 0 0).skipHeads p.src)) ∧
  (Starts s.dev 0x0A02 p w id → p.u8 0 = 2 → w.sec.authFails < 8 → w.sec.lifecycle = .provisioned →
    exec (.debugSet p) s = .next (s.withDev <|
      (if w.signedOk 2 (p.bytes 96) = true ∧ p.dataLen ≠ 0 then
        ({ w with sec := { w.sec with challenge := none, nextDebug := some .open_ } }).finishOk id 0 0 0
      else (w.useChallenge.authFailed 0x0A02).fail id stAuthFail).skipHeads p.src)))

/-- R85, R86, R478: power, RESET_N and the input supply: what each event does in the mode that obeys it, and that it does
nothing in the others. R88 to R91, R97: a BOOT stage that passes in its time starts the next one; B1 does not pass an
image whose version the floor or its own signature rules out. A stage that fails is recorded, and the second failure
counted against an image selects the other one; the stage is retried when the delay has ended. A part that has failed
four attempts of a stage in a row is marked missing, under whichever image: a stage that passes forgets only its own
failures. A spire that boots alone has stages and retries of its own, which touch nothing else. R93, R347: the SMBus
answers KEEP_BOOT_PROGRESS in every mode but HELD, and its wake code ends P3 by a warm chip reset. -/
def Obligations.PowerAndBoot : Prop :=
  (∀ (s : State) (n : Nat) (straps : BitVec 3),
  (s.dev.mode = .held → exec (.powerOn straps) s = .next (s.withDev <| ({ s.dev with
    clk := Clock.reset
    chip := { s.dev.chip with boot := { Boot.reset with image := s.dev.sec.preferred }, straps := straps, supplies := true,
                              mode := { s.dev.chip.mode with events := [] } } }).setMode .boot)) ∧
  (s.dev.mode ≠ .held → exec (.powerOn straps) s = .next s) ∧
  (s.dev.mode ≠ .held → exec .supplyBelowThreshold s = .next (s.withDev <|
    ({ s.dev with chip := { s.dev.chip with supplies := false } }).modeEvent .supplyBelow)) ∧
  (s.dev.obeysReset = true → 1000 ≤ n → n ≤ 100000000 → exec (.resetNPulse n) s = .next (s.withDev <|
    s.dev.freeze.modeEvent .warmReset)) ∧
  (s.dev.obeysReset = false → exec (.resetNPulse n) s = .next s ∧ exec .resetNLongLow s = .next s) ∧
  (s.dev.obeysReset = true → s.dev.mode ≠ .boot → exec .resetNLongLow s = .next (s.withDev <|
    (if s.dev.dirty = 0 then s.dev else s.dev.detectLoss).modeEvent .resetLong)) ∧
  (s.dev.mode = .boot → exec .resetNLongLow s = .next (s.withDev <| s.dev.modeEvent .resetLong)) ∧
  (s.dev.obeysReset = true → s.dev.mode ≠ .boot → s.dev.sec.p3 = false → s.dev.chip.vault.phase = .none →
    exec .inputPowerLoss s = .next (s.withDev <| s.dev.detectLoss.modeEvent .powerLoss)) ∧
  (s.dev.mode = .vault → s.dev.chip.vault.phase = .waiting → s.dev.inputPresent = true →
    exec .inputPresent s = .next (s.withDev <| s.dev.modeEvent .vaultDone))) ∧
  (∀ (s : State),
  let b := s.dev.chip.boot
  let v := s.dev
  (v.mode = .boot → b.backoffDue = none → b.stage < 5 → (b.stage = 1 → v.imagePasses = true) →
    ∃ t, exec (.bootStagePass none) s = .next t ∧ t.pending = s.pending ∧
    t.dev.chip.boot.stage = b.stage + 1 ∧ t.dev.chip.boot.since = v.clk.elapsed ∧
    t.dev.chip.boot.partRuns = Tab.del b.partRuns b.stage ∧ t.dev.chip.mode = v.chip.mode ∧
    (b.stage = 0 → t.dev.chip.rng = ⟨!b.keepMissing.getLsbD 0, !b.keepMissing.getLsbD 1, true, v.clk.elapsed⟩) ∧
    (b.stage ≠ 0 → t.dev.chip.rng = v.chip.rng) ∧
    (b.stage = 1 → t.dev.sec = { v.sec with loadedVer := v.activeImage.version, loadedSvn := v.activeImage.svn }) ∧
    (b.stage = 0 → t.dev.sec = (v.blowFuses v.sec.lifecycle).sec) ∧ (1 < b.stage → t.dev.sec = v.sec) ∧
    t.dev.chip.boot.image = b.image ∧ t.dev.hosts = v.hosts ∧ t.dev.store = v.store ∧ t.dev.regs = v.regs) ∧
  (v.mode = .boot → b.backoffDue = none → b.stage = 1 → v.imagePasses = false → exec (.bootStagePass none) s = .next s) ∧
  (v.mode = .boot → b.backoffDue = none → b.stage = 5 → v.clk.elapsed ≤ b.since + 125 * 15625 →
    exec (.bootStagePass none) s = .next (s.withDev <|
    (v.adjBoot (fun x => { x with partRuns := Tab.del x.partRuns b.stage })).modeEvent .bootDone)) ∧
  (b.stage = 5 → b.since + 125 * 15625 < v.clk.elapsed → exec (.bootStagePass none) s = .next s) ∧
  (∀ code part, v.mode = .boot → b.backoffDue = none → b.stage ≤ 5 → b.wantVault = false → b.wantFenced = false →
    .bootDone ∉ v.chip.mode.events →
    ∃ t, exec (.bootStageFail code part none) s = .next t ∧ t.pending = s.pending ∧
      t.dev.chip.boot.failCode = code ∧ t.dev.chip.boot.failStage = b.stage ∧ t.dev.chip.boot.failures = b.failures + 1 ∧
      t.dev.chip.boot.backoffExp = min 10 b.failures ∧
      t.dev.chip.boot.backoffDue = some (v.clk.elapsed + (v.clk.ns + 1000000 * 2 ^ (min 10 b.failures)) / 512 + 1) ∧
      t.dev.chip.boot.image = (if b.stage = 0 ∨ b.imageFails = 0 then b.image else !b.image) ∧
      t.dev.chip.boot.stage = (if b.stage = 0 ∨ b.imageFails = 0 then b.stage else 1) ∧
      t.dev.chip.mode = v.chip.mode ∧ t.dev.hosts = v.hosts ∧ t.dev.store = v.store ∧ t.dev.regs = v.regs) ∧
  (∀ code n r, v.mode = .boot → b.backoffDue = none → b.stage = 2 ∨ b.stage = 3 → n < 4 → 3 ≤ r →
    .bootDone ∉ v.chip.mode.events →
    Tab.get b.partRuns b.stage = some (n, r) → b.spireMissing = 0 → b.keepMissing = 0 →
    ∃ t, exec (.bootStageFail code (some n) none) s = .next t ∧ t.dev.chip.boot.spireMissing = BitVec.ofNat 4 (2 ^ n) ∧
      t.dev.chip.boot.keepMissing = 0) ∧
  (∀ d, b.backoffDue = some d → v.atBell d = true → exec (.bootBackoffExpire none) s = .next (s.withDev <|
    { v with chip := { v.chip with boot := { b with backoffDue := none, since := v.clk.elapsed } } })) ∧
  (∀ n : Spire, ∀ x, (v.spire n.val).state = .resetting → (v.spire n.val).boot = some x → x.stage < 6 →
    (x.due = none → (x.stage = 5 → v.clk.elapsed ≤ x.since + 125 * 15625) → exec (.bootStagePass (some n)) s = .next (s.withDev <|
      v.setSpire n.val { v.spire n.val with boot := some { x with stage := x.stage + 1, since := v.clk.elapsed } })) ∧
    (∀ code part, x.due = none → exec (.bootStageFail code part (some n)) s = .next (s.withDev <|
      v.setSpire n.val { v.spire n.val with boot := some { x with
        failures := x.failures + 1
        due := some (v.clk.elapsed + (v.clk.ns + 1000000 * 2 ^ (min 10 x.failures)) / 512 + 1) } })) ∧
    (∀ d, x.due = some d → v.atBell d = true → exec (.bootBackoffExpire (some n)) s = .next (s.withDev <|
      v.setSpire n.val { v.spire n.val with boot := some { x with due := none, since := v.clk.elapsed } })))) ∧
  (∀ (s : State),
  (s.dev.mode ≠ .held → exec (.smbusBootProgressRead 0xB0) s = .next (s.withDev <|
    { s.dev with out := s.dev.out ++ [.smbus (some s.dev.bootProgress)] })) ∧
  (s.dev.sec.p3 = true → exec (.smbusWake 0xB1 0x01) s = .next (s.withDev <| s.dev.modeEvent .warmReset)) ∧
  (∀ code data, s.dev.sec.p3 = false → exec (.smbusWake code data) s = .next s))

/-- R94, R47, R57: the ends of SURVEY's waits, the repair of a part, and the end of the settle of exposed grains. R160 to
R165, R386: each phase of the settle of VAULT and what starts it. What a repaired part must show is partly the model's
choice (assumption log 43). -/
def Obligations.SurveyAndVault : Prop :=
  (∀ (s : State),
  let v := s.dev
  (v.mode = .survey → v.chip.survey.complete = false → v.chip.survey.waitedOut = false →
    v.atBell (v.chip.survey.since + v.cfgBits 0x2008 15 0 * 15625) = true → (∀ b < 32, v.bayAwaited b = false) →
    exec .bayWaitExpire s = .next (s.withDev <| { v with chip := { v.chip with survey := { v.chip.survey with waitedOut := true } } })) ∧
  (v.mode = .survey → v.chip.survey.complete = false → v.chip.survey.waitedOut = true →
    ∃ t, exec .surveyComplete s = .next t ∧ t.pending = s.pending ∧ t.dev.mode = .survey ∧
      t.dev.clk = v.clk ∧ t.dev.winMem = v.winMem ∧ t.dev.regs.active = v.regs.active) ∧
  (∀ part, v.repairDone part = true → part ∈ v.chip.unrepaired → (∀ b, part ≠ .bay b) →
    exec (.faultRepaired part) s = .next (s.withDev <|
    (({ v with chip := { v.chip with unrepaired := v.chip.unrepaired.filter (fun x => x != part) } }).modeEvent
      .repaired).fixExposure)) ∧
  (∀ b, v.repairDone (.bay b) = true → .bay b ∈ v.chip.unrepaired → exec (.faultRepaired (.bay b)) s = .next (s.withDev <|
    (v.markShort b.val).partRepaired (.bay b))) ∧
  (∀ part, v.repairDone part = false → exec (.faultRepaired part) s = .next s) ∧
  (v.chip.exposure.active = true → v.chip.exposure.settledOnce = false → v.store.grains.any v.grainExposed = false →
    exec .exposedSettleComplete s = .next (s.withDev <|
      ({ v with chip := { v.chip with exposure := { v.chip.exposure with settledOnce := true } } }).noticeEach
        ((v.hosts.sessions.filter (fun (e : Nat × Session) => match v.claimDesc e.2.claim with | some d => d.strict | none => false)).map Prod.fst)
        0x07 0))) ∧
  (∀ (s : State),
  let v := s.dev
  let ph := v.chip.vault.phase
  (v.mode = .vault → ph = .v0 → v.atBell (v.chip.vault.detectBell + 1) = true → exec .vaultPhaseV1 s = .next (s.withDev <|
    { v with
      hosts := { v.hosts with egress := [], ports := v.hosts.ports.map (fun (x : Nat × NetPort) => (x.1, { x.2 with linkUp := 0 })) }
      chip := { v.chip with vault := { v.chip.vault with phase := .v1 } } })) ∧
  (v.mode = .vault → ph = .v1 → v.atBell (v.chip.vault.detectBell + 2) = true → (v.store.pend.all (·.closed.isSome)) = true →
    ∃ t, exec .vaultPhaseV2 s = .next t ∧ t.pending = s.pending ∧ t.dev.chip.vault.phase = .v2 ∧
      t.dev.chip.vault.outAt2 = v.humOut ∧
      (∃ b ∈ t.dev.store.journal.blocks, b.rec_ = .vault ∧ b.seq = v.store.journal.nextSeq) ∧
      t.dev.store.grains = v.store.grains ∧ t.dev.hosts = v.hosts ∧ t.dev.chip.mode = v.chip.mode) ∧
  (v.mode = .vault → ph = .v2 → v.store.grains = [] → ∃ t, exec (.vaultSettleComplete ()) s = .next t ∧ t.pending = s.pending ∧
      t.dev.chip.vault.phase = .v3 ∧ t.dev.store.journal.isOpen = false ∧
      (262144 ≤ v.chip.vault.settled → t.dev.store.credit.eSettleMeas =
        (v.humOut - v.chip.vault.outAt2) / 1000 * 262144 / v.chip.vault.settled) ∧
      t.dev.store.grains = [] ∧ t.dev.hosts = v.hosts ∧ t.dev.chip.mode = v.chip.mode ∧ t.dev.regs = v.regs) ∧
  (v.mode = .vault → ph = .v3 → v.journaled (v.store.journal.nextSeq - 1) = true → exec .vaultJournalClosed s = .next (s.withDev <|
    let w := v.startImage
    { w with chip := { w.chip with vault := { w.chip.vault with phase := .v4 } } })) ∧
  (v.mode = .vault → ph = .v4 → v.written .image = true → ∃ t, exec .recordImageWritten s = .next t ∧ t.pending = s.pending ∧
      t.dev = { v with out := t.dev.out
                       chip := { v.chip with
                         vault := { v.chip.vault with phase := .v5 }
                         recordImage := some (v.hosts.sessions.map (fun (e : Nat × Session) => (e.1, e.2.toImage v.clk.aging))) } } ∧
      (∀ b < 32, (v.bay b).state = .serving → Out.bayFlush b ∈ t.dev.out)) ∧
  (v.mode = .vault → ph = .v4 → v.written .image = false → exec .recordImageWritten s = .next s) ∧
  (v.mode = .vault → ph = .v5 → exec (.vaultFlushComplete ()) s = .next (s.withDev <|
    let mj := (v.humOut - v.chip.vault.outAt0) / 1000
    ({ v with chip := { v.chip with vault := { v.chip.vault with phase := .v6, energyMj := mj } } }).writeMarker false
      v.chip.vault.detectStamp v.chip.vault.detectStep v.chip.vault.settled mj)) ∧
  (v.mode = .vault → ph = .v6 → v.written .marker = true → v.inputPresent = true → exec .vaultMarkerWritten s = .next (s.withDev <|
    ({ v with chip := { v.chip with vault := { v.chip.vault with phase := .waiting } } }).modeEvent .vaultDone)) ∧
  (v.mode = .vault → ph = .v6 → v.written .marker = true → v.inputPresent = false → v.chip.input.seen = false →
    exec .vaultMarkerWritten s = .next (s.withDev <|
      { v with chip := { v.chip with vault := { v.chip.vault with phase := .gating } } })) ∧
  (v.mode = .vault → ph = .v6 → v.written .marker = false → exec .vaultMarkerWritten s = .next s) ∧
  (v.mode = .fenced → v.chip.vault.fencedSettle = true → ph = .waiting → exec .fencedSettleComplete s = .next (s.withDev <|
    ({ v with chip := { v.chip with vault := { v.chip.vault with phase := .done, fencedSettle := false, grainsLeft := v.dirty } } }).bayGatesOff)))

/-- R103, R107, R108, R341: the events of DRAIN and of an activation. R335, R340 to R342: a Sanitize that ends, and a
debug level that takes effect. R336 to R338: FLOOR_ADVANCE under its guards, and IMAGE_STAGE: a chunk that does not
end the image is stored, and one that does is verified. -/
def Obligations.DrainActivationImages : Prop :=
  (∀ (s : State),
  let v := s.dev
  (∀ d w n, v.chip.drain.waiting.find? (fun (x : Waiting) => x.msg == d) = some w → v.sessionOf d.qp = some n → v.mode = .drain →
    v.chip.drain.purpose = .shutdown → v.atBell (w.since + v.cfgBits 0x2004 25 0) = true →
    exec (.drainWaitExpire d) s = .next (s.withDev <|
      ({ v with chip := { v.chip with drain := { v.chip.drain with
          waiting := dropFirst (fun (x : Waiting) => x.msg == d) v.chip.drain.waiting } } }).answer n d stBusyMode noExt 0 0)) ∧
  (v.mode = .drain → v.chip.drain.offReady = false → v.chip.drain.purpose = .debug → v.drained = true →
    exec .drainComplete s = .next (s.withDev <| v.modeEvent .endDrain)) ∧
  (v.mode = .drain → v.chip.drain.offReady = false → v.chip.drain.purpose = .shutdown → v.chip.drain.retire = false →
    v.drained = true → exec .drainComplete s = .next (s.withDev v.shutdownEnd) ∧
      v.shutdownEnd.chip.drain.offReady = true ∧ v.shutdownEnd.mode = .drain ∧ v.shutdownEnd.chip.markerSeq = v.chip.markerSeq + 1 ∧
      v.shutdownEnd.store.journal.isOpen = false ∧ v.shutdownEnd.chip.recordImage ≠ none ∧ v.shutdownEnd.clk.ages = false) ∧
  (v.mode = .drain → v.drained = false → v.chip.drain.retire = false → exec .drainComplete s = .next s) ∧
  (v.sec.act = .scheduled → v.atPeal = true → (v.mode = .survey ∨ v.mode = .service ∨ v.mode = .degraded) →
    exec .activationDrainEnter s = .next (s.withDev <|
      ({ v with sec := { v.sec with act := .draining v.pealNow } }).takeEvent .activate)) ∧
  (∀ d, v.sec.act = .draining d → (v.pealNow = d + 1 ∨ v.pealNow = d + 2) → v.atPeal = true → v.mode = .drain → v.clk.ns < 448 →
    exec .imageSwap s = .next (s.withDev <|
      { v with sec := { v.sec with act := .swapping v.clk.bell v.clk.elapsed, preferred := !v.chip.boot.image }
               chip := { v.chip with boot := { v.chip.boot with image := !v.chip.boot.image } } })) ∧
  (∀ d, v.sec.act = .draining d → v.pealNow ≤ d ∨ d + 2 < v.pealNow ∨ v.atPeal = false → exec .imageSwap s = .next s) ∧
  (∀ bell t id, v.sec.act = .swapping bell t → v.sec.actCmd = some id → exec .imageSwapComplete s = .next (s.withDev <|
    let w := ({ v with sec := { v.sec with loadedVer := v.activeImage.version, loadedSvn := v.activeImage.svn } }).finish id stOk
      (if v.chip.boot.image then 1 else 0) (bell / 15625) 0 []
    ({ w with sec := { w.sec with act := .idle, actCmd := none } }).modeEvent .endDrain)) ∧
  (∀ d id, v.sec.act = .draining d → v.sec.actCmd = some id → d + 2 ≤ v.pealNow → exec .activationTimeout s = .next (s.withDev <|
    let w := v.finish id stTimeout 0 0 0 []
    ({ w with sec := { w.sec with act := .idle, actCmd := none } }).modeEvent .endDrain)) ∧
  (∀ d, v.sec.act = .draining d → v.pealNow < d + 2 → exec .activationTimeout s = .next s)) ∧
  (∀ (s : State) (b : Bay) (status : BitVec 32) (id : Nat) (c : Cmd),
  let v := s.dev
  ((v.bay b.val).sanitizing = some id → v.floder.cmds.find? (fun c => c.id == id) = some c → c.opcode = 0x0403 →
    ∃ t, exec (.sanitizeComplete b status) s = .next t ∧ t.pending = s.pending ∧
      (t.dev.bay b.val).sanitizing = none ∧ (t.dev.bay b.val).sanitize = some status ∧
      (status = 0 → (t.dev.bay b.val).label = none ∧ (t.dev.bay b.val).state ≠ .serving ∧
        (∀ e ∈ t.dev.store.drives, e.1 < driveKey b.val 0 0 ∨ driveKey (b.val + 1) 0 0 ≤ e.1)) ∧
      (status ≠ 0 → (t.dev.bay b.val).label = (v.bay b.val).label ∧ (t.dev.bay b.val).state = (v.bay b.val).state) ∧
      (∀ a < 32, a ≠ b.val → t.dev.bay a = v.bay a) ∧ t.dev.store.grains = v.store.grains ∧ t.dev.chip = v.chip) ∧
  ((v.bay b.val).sanitizing = none → exec (.sanitizeComplete b status) s = .next s) ∧
  (∀ l, v.mode ≠ .held → v.sec.nextDebug = some l → l ≠ .open_ → v.sec.debug ≠ .open_ →
    exec .debugLevelApply s = .next (s.withDev <| { v with sec := { v.sec with nextDebug := none, debug := l } })) ∧
  (∀ l, v.mode ≠ .held → v.sec.nextDebug = some l → l ≠ .open_ → v.sec.debug = .open_ →
    exec .debugLevelApply s = .next (s.withDev <|
      ({ v with sec := { v.sec with nextDebug := none } }).modeEvent .warmReset)) ∧
  (v.mode ≠ .held → v.sec.nextDebug = some .open_ → v.sec.debug ≠ .open_ → v.sec.lifecycle ≠ .provisioned →
    exec .debugLevelApply s = .next (s.withDev <|
      ({ v with sec := { v.sec with nextDebug := none, debug := .open_ } }).zeroizeAll.modeEvent .debugOpen))) ∧
  (∀ (s : State) (p : Packet) (w : Dev) (id : Nat),
  (Starts s.dev 0x0803 p w id → w.sec.floor.toNat ≤ p.u32 0 → p.u32 0 ≤ w.activeImage.svn.toNat →
    p.u32 0 ≤ w.otherImage.svn.toNat → exec (.floorAdvance p) s = .next (s.withDev <|
      (({ w with sec := { w.sec with floor := BitVec.ofNat 32 (p.u32 0) } }).finishOk id (p.u32 0) 0 0).skipHeads p.src)) ∧
  (Starts s.dev 0x0803 p w id → p.u32 0 < w.sec.floor.toNat → exec (.floorAdvance p) s = .next (s.withDev <|
      (w.fail id stInvalidField).skipHeads p.src)) ∧
  (Starts s.dev 0x0801 p w id → w.sec.act = .idle → p.u32 0 = 0 → bit (p.u8 4) 0 = false → p.dataLen.toNat ≤ 0x1000200 →
    exec (.imageStage p) s = .next (s.withDev <|
      ((w.setOther { w.otherImage with
          bytes := p.bytes p.dataLen.toNat ++ w.otherImage.bytes.drop p.dataLen.toNat
          written := p.dataLen.toNat, staged := false }).finishOk id p.dataLen.toNat 0 0).skipHeads p.src)) ∧
  (Starts s.dev 0x0801 p w id → w.sec.act = .idle → p.u32 0 = 0 → bit (p.u8 4) 0 = true → p.dataLen.toNat ≤ 0x1000200 →
    ∀ body, body = p.bytes p.dataLen.toNat ++ w.otherImage.bytes.drop p.dataLen.toNat →
    exec (.imageStage p) s = .next (s.withDev <|
      (if imageValid body w.sec.floor = true then
        (w.setOther { bytes := body, written := p.dataLen.toNat, staged := true, version := BitVec.ofNat 32 (field body 8 4),
                      svn := BitVec.ofNat 32 (field body 12 4) }).finishOk id p.dataLen.toNat (field body 12 4) 0
      else (w.setOther { w.otherImage with bytes := body, written := p.dataLen.toNat, staged := false }).fail id stAuthFail).skipHeads
        p.src)) ∧
  (Starts s.dev 0x0801 p w id → p.u32 0 % 4096 ≠ 0 → exec (.imageStage p) s = .next (s.withDev <|
      (w.fail id stInvalidField).skipHeads p.src)))

/-- R315, R316, R318, R324, R328: the key commands under their checks. R315, R316: a key blob that passes the checks of
its header is unwrapped, and loaded where it unwraps: the slot holds the key and the header's fields under the next
generation, and the update that makes it usable waits for the next bell. Corner cases are the model's choice
(assumption log 19). -/
def Obligations.KeyCommands : Prop :=
  (∀ (s : State) (p : Packet) (w : Dev) (id : Nat),
  (Starts s.dev 0x0301 p w id → w.sec.lifecycle ≠ .provisioned →
    exec (.keyLoad p) s = .next (s.withDev <| (w.fail id stAccessDenied).skipHeads p.src)) ∧
  (Starts s.dev 0x0302 p w id → (w.keySlot (p.u16 0 % 8192)).state = .empty →
    exec (.keyRevoke p) s = .next (s.withDev <| (w.fail id stInvalidField).skipHeads p.src)) ∧
  (Starts s.dev 0x0302 p w id → ∀ k, w.keySlot (p.u16 0 % 8192) = k → k.state = .loaded →
    (∀ u ∈ w.hosts.updates, u.table ≠ .keySlot) → (∀ e ∈ w.hosts.sessions, e.2.claim ≠ k.claim) →
    exec (.keyRevoke p) s = .next (s.withDev <|
      ((w.setKeySlot (p.u16 0 % 8192) { k with revokeCmds := k.revokeCmds ++ [id], notified := 0 }).queueUpdate .keySlot
        (p.u16 0 % 8192) .keyRevoke none).skipHeads p.src)) ∧
  (Starts s.dev 0x0303 p w id → ∀ k, w.keySlot (p.u16 0 % 8192) = k →
    exec (.keyQuery p) s = .next (s.withDev <|
      (match k.state with
        | .empty => w.finishOk id 0 k.generation 0
        | .loaded => w.finishOk id (1 + 256 * (b2n k.encrypt + 2 * b2n k.decrypt + 4 * b2n k.conn)
            + 65536 * b2n (!(w.mayEncrypt (p.u16 0 % 8192)))) k.generation k.claim
        | .revoking => w.finishOk id (2 + 256 * (b2n k.encrypt + 2 * b2n k.decrypt + 4 * b2n k.conn)
            + 65536 * b2n (!(w.mayEncrypt (p.u16 0 % 8192)))) k.generation k.claim).skipHeads p.src)) ∧
  (Starts s.dev 0x0304 p w id → ∃ r, exec (.keyEpochAdvance p) s = .next (s.withDev <|
      (({ w with sec := { w.sec with keyEpoch := w.sec.keyEpoch + 1 }
                 leases := w.leases.filter (fun x => decide ((w.sec.keyEpoch + 1).toNat ≤ x.2.epoch.toNat)) }).finishOk id
        (w.sec.keyEpoch + 1).toNat (w.leases.length -
          (w.leases.filter (fun (x : Nat × LeaseRec) => decide ((w.sec.keyEpoch + 1).toNat ≤ x.2.epoch.toNat))).length) r).skipHeads p.src)) ∧
  (Starts s.dev 0x0305 p w id → ∀ x, w.session (p.u16 0 % 8192) = some x → x.paths.any (fun q => q.state != .pending) = false →
    bit (p.u8 4) 0 = true → exec (.connKeyBind p) s = .next (s.withDev <|
      ((w.setSession (p.u16 0 % 8192) { x with connKey := none }).finishOk id 0 0 0).skipHeads p.src)) ∧
  (Starts s.dev 0x0305 p w id → ∀ x d k, w.session (p.u16 0 % 8192) = some x → x.paths.any (fun q => q.state != .pending) = false →
    bit (p.u8 4) 0 = false → w.claimDesc x.claim = some d → d.payloadProtect = true → w.keySlot (p.u16 2 % 8192) = k →
    k.state = .loaded → k.conn = true → k.claim = x.claim → exec (.connKeyBind p) s = .next (s.withDev <|
      ((w.setSession (p.u16 0 % 8192) { x with connKey := some (p.u16 2 % 8192) }).finishOk id 0 0 0).skipHeads p.src)) ∧
  (Starts s.dev 0x0305 p w id → w.session (p.u16 0 % 8192) = none →
    exec (.connKeyBind p) s = .next (s.withDev <| (w.fail id stInvalidField).skipHeads p.src))) ∧
  (∀ (s : State) (p : Packet) (w : Dev) (id : Nat),
  Starts s.dev 0x0301 p w id → w.sec.lifecycle = .provisioned → w.sec.debug ≠ .open_ → p.u16 0 ≤ 8191 →
  (w.keySlot (p.u16 0)).state = .empty → blobFormOk w (p.bytes 104) = true →
  w.leaseOf (BitVec.ofNat 64 (field (p.bytes 104) 8 8)) = none →
  ∃ r2, exec (.keyLoad p) s = .next (s.withDev <| (match w.unwrapBlob (p.bytes 104) with
    | none => w.fail id stAuthFail
    | some key => (((w.sendCopies (p.u16 0) key).setKeySlot (p.u16 0)
        { state := .loaded, generation := ((w.keySlot (p.u16 0)).generation + 1) % 2 ^ 32, claim := field (p.bytes 104) 2 2
          conn := bit (field (p.bytes 104) 4 1) 2, decrypt := bit (field (p.bytes 104) 4 1) 1
          encrypt := bit (field (p.bytes 104) 4 1) 0, keyId := BitVec.ofNat 64 (field (p.bytes 104) 8 8)
          limit := BitVec.ofNat 64 (field (p.bytes 104) 16 8), epoch := BitVec.ofNat 32 (field (p.bytes 104) 24 4), key := key
          version := (w.keySlot (p.u16 0)).version, usable := false, revokeCmds := [], notified := 0 }).queueUpdate .keySlot
            (p.u16 0) .keyUsable none).finishOk id (((w.keySlot (p.u16 0)).generation + 1) % 2 ^ 32) 0 r2).skipHeads p.src))

/-- R310, R312, R316, R320, R321: leases, the end of a revoked slot, the randomness sources and the cipher cores. When a
lease record is made is the model's choice (assumption log 19). -/
def Obligations.KeyEvents : Prop := ∀ (s : State) (sp : Spire) (slot : Nat),
  let v := s.dev
  ((v.keySlot slot).state = .revoking → v.keyHolders slot = 0 →
    exec (.keyZeroize slot) s = .next (s.withDev <| v.emptySlot slot)) ∧
  ((v.keySlot slot).state ≠ .revoking → exec (.keyZeroize slot) s = .next s) ∧
  (∀ n l r, (v.keySlot slot).state = .loaded → (v.keySlot slot).encrypt = true → v.sec.keyEpoch.toNat ≤ (v.keySlot slot).epoch.toNat →
    (v.spire sp.val).state = .up → v.spireLease sp.val slot = none → v.leaseOf (v.keySlot slot).keyId = some (n, r) →
    r.next < 2 ^ 24 → l = r.next → exec (.leaseGrant sp slot true) s = .next (s.withDev <|
      ({ v with leases := Tab.set v.leases n { r with
          next := l + 1, epoch := if r.epoch < (v.keySlot slot).epoch then (v.keySlot slot).epoch else r.epoch } }).setLease
        ⟨sp, slot, (v.keySlot slot).generation, l, l * 2 ^ 40, none, false⟩)) ∧
  ((v.keySlot slot).state ≠ .loaded → ∀ ok, exec (.leaseGrant sp slot ok) s = .next s) ∧
  (∀ k test, v.keepSound k = true → v.chip.rng.source k = true → exec (.rngSourceFail k test) s = .next (s.withDev <|
    ({ v with chip := { v.chip with rng := { v.chip.rng.setSource k false with
        fedAt := if v.chip.rng.source (otherKeep k) = true then v.clk.elapsed else v.chip.rng.fedAt } } }).fault 0x080 (keepRegion k) 0
      test.toNat 0 0)) ∧
  (v.mode ≠ .held → v.chip.rng.rootOk = true → v.chip.rng.srcA = false → v.chip.rng.srcB = false →
    v.chip.rng.fedAt + 125 * 15625 ≤ v.clk.elapsed →
    exec .rngExhausted s = .next (s.withDev <|
      ({ v with chip := { v.chip with rng := { v.chip.rng with rootOk := false } } }).fault 0x081 7 0
        ((v.clk.elapsed - v.chip.rng.fedAt) / 15625) 0 0)) ∧
  (v.chip.rng.srcA = true ∨ v.chip.rng.srcB = true → exec .rngExhausted s = .next s) ∧
  (∀ core : Fin 12, (v.spire sp.val).cores.getLsbD core.val = false → ∃ t, exec (.cipherCoreFault sp core) s = .next t ∧
    t.pending = s.pending ∧ (t.dev.spire sp.val).cores = (v.spire sp.val).cores ||| BitVec.ofNat 12 (2 ^ core.val) ∧
    (t.dev.spire sp.val).gangLead = leadOf ((v.spire sp.val).cores ||| BitVec.ofNat 12 (2 ^ core.val)) ∧
    t.dev.hosts = v.hosts ∧ t.dev.store = v.store ∧ t.dev.keySlots = v.keySlots ∧ t.dev.leases = v.leases ∧ t.dev.regs = v.regs)

/-- R109, R110, R112, R412: the claim commands: what each stores, shows or refuses. Corner cases are the model's choice
(assumption log 50). -/
def Obligations.ClaimCommands : Prop := ∀ (s : State) (p : Packet) (w : Dev) (id : Nat),
  (∀ n d, Starts s.dev 0x0201 p w id → parseClaim (p.bytes 64) = some (n, d) →
    exec (.claimSet p) s = .next (s.withDev <|
      ({ w with hosts := { w.hosts with updates := w.hosts.updates ++ [Update.mk .claim n (.claimSet d) w.clk.elapsed (some id)] } }).skipHeads
        p.src)) ∧
  (Starts s.dev 0x0201 p w id → parseClaim (p.bytes 64) = none →
    exec (.claimSet p) s = .next (s.withDev <| (w.fail id stInvalidField).skipHeads p.src)) ∧
  (∀ e d, Starts s.dev 0x0202 p w id → w.claimEntry (p.u16 0 % 4096) = e → e.desc = some d →
    exec (.claimGet p) s = .next (s.withDev <|
      (w.finish id stOk e.version.toNat 0 0 (d.bytes (p.u16 0 % 4096))).skipHeads p.src)) ∧
  (∀ d g, Starts s.dev 0x0203 p w id → w.claimDesc (p.u16 0 % 4096) = some d →
    g = sumMap (·.grains) (w.extentsOf (p.u16 0 % 4096)) →
    exec (.claimStatus p) s = .next (s.withDev <|
      (w.finishOk id (g % 2 ^ 32) (g / 2 ^ 32 % 2 ^ 32)
        ((if d.m = 0 then 2 ^ 31 else 0) + (w.extentsOf (p.u16 0 % 4096)).length % 2 ^ 31)).skipHeads p.src)) ∧
  (Starts s.dev 0x0204 p w id → (w.claimDesc (p.u16 0 % 4096)).isSome = true → (∀ e ∈ w.hosts.extents, e.claim ≠ p.u16 0 % 4096) →
    (∀ e ∈ w.hosts.sessions, e.2.claim ≠ p.u16 0 % 4096) → w.keySlots = [] →
    exec (.claimRemove p) s = .next (s.withDev <|
      ({ w with hosts := { w.hosts with
        updates := w.hosts.updates ++ [Update.mk .claim (p.u16 0 % 4096) .claimRemove w.clk.elapsed (some id)] } }).skipHeads p.src)) ∧
  (∀ x, Starts s.dev 0x0204 p w id → x ∈ w.hosts.extents → x.claim = p.u16 0 % 4096 →
    exec (.claimRemove p) s = .next (s.withDev <| (w.fail id stInvalidField).skipHeads p.src))

/-- R79, R80: a versioned update takes effect at its bell when no older version has a holder and its entry takes no other
at that bell, waits otherwise, and times out after four peals, the entry unchanged. -/
def Obligations.VersionedUpdates : Prop := ∀ (s : State) (t : TableId) (key : Nat) (x : Update),
  let v := s.dev
  let w := v.dropUpdate t key
  let done := ({ w with hosts := { w.hosts with switched := w.hosts.switched ++ [((t, key), v.switchBell x)] } }).applyUpdate x
  (v.firstUpdate t key = some x → v.atBell (x.arrived + 1) = true → v.oldHolders t key = 0 → v.switchedAt t key (v.switchBell x) = false →
    exec (.tableVersionSwitch t key) s = .next (s.withDev done) ∧
    (x.arrived + 1 < v.now → exec (.tableUpdateUnblock t key) s = .next (s.withDev done))) ∧
  (v.firstUpdate t key = some x → (v.atBell (x.arrived + 1) = false ∨ v.oldHolders t key ≠ 0 ∨ v.switchedAt t key (v.switchBell x) = true) →
    exec (.tableVersionSwitch t key) s = .next s ∧ exec (.tableUpdateUnblock t key) s = .next s) ∧
  (v.firstUpdate t key = some x → v.now ≤ x.arrived + 1 → exec (.tableUpdateUnblock t key) s = .next s) ∧
  (v.firstUpdate t key = some x → x.arrived + 4 * pealBells ≤ v.now → exec (.tableUpdateTimeout t key) s = .next (s.withDev <|
    (v.dropUpdate t key).finishOpt x.cmd stTimeout 0 0 0)) ∧
  (v.firstUpdate t key = some x → v.now < x.arrived + 4 * pealBells → exec (.tableUpdateTimeout t key) s = .next s) ∧
  (v.firstUpdate t key = none → exec (.tableVersionSwitch t key) s = .next s ∧ exec (.tableUpdateUnblock t key) s = .next s ∧
    exec (.tableUpdateTimeout t key) s = .next s) ∧
  (∀ n d, x.act = .claimSet d → x.key = n → ∃ u : Dev, v.applyUpdate x = u ∧ (u.claimEntry n).version = (v.claimEntry n).version + 1 ∧
    u.claimDesc n = some d ∧ (∀ m, m ≠ n → u.claimEntry m = v.claimEntry m))

/-- R218, R412: PORT_SET gives a sub-port its addresses, PORT_QUERY shows the port; TRACE_READ asked for no entry answers
with none. R291: meter profiles: one that breaks a rule is refused, one that breaks none waits for its bell, and a
read answers the version and the profile in force. -/
def Obligations.PortAndMeterCommands : Prop :=
  (∀ (s : State) (p : Packet) (w : Dev) (id : Nat),
  (Starts s.dev 0x0501 p w id → p.u8 2 % 4 = 0 → (w.port (p.u8 0 % 8)).breakout = 0 → p.u8 1 % 4 = 0 →
    exec (.portSet p) s = .next (s.withDev <|
      ((w.setPort (p.u8 0 % 8) { w.port (p.u8 0 % 8) with
        breakout := 0
        vlan := Tab.set (w.port (p.u8 0 % 8)).vlan 0 (p.u16 4 % 4096)
        ipv4 := Tab.set (w.port (p.u8 0 % 8)).ipv4 0 (BitVec.ofNat 32 (p.u32 8))
        ipv6 := Tab.set (w.port (p.u8 0 % 8)).ipv6 0 (BitVec.ofNat 128 (field p.params 16 16))
        mac := Tab.set (w.port (p.u8 0 % 8)).mac 0 (BitVec.ofNat 48 (field p.params 32 6)) }).finishOk id 0 0 0).skipHeads p.src)) ∧
  (Starts s.dev 0x0501 p w id → p.u8 2 % 4 = 3 → exec (.portSet p) s = .next (s.withDev <|
      (w.fail id stInvalidField).skipHeads p.src)) ∧
  (∀ x n k, Starts s.dev 0x0502 p w id → n = p.u8 0 % 8 → k = p.u8 1 % 4 → w.port n = x → k < subCount x.breakout →
    exec (.portQuery p) s = .next (s.withDev <|
      (w.finishOk id (b2n (x.subUp k) + 2 * x.breakout + 8 * b2n (w.ptpRef n && k == 0)) (w.boundQps n) (x.flushes % 2 ^ 32)).skipHeads
        p.src)) ∧
  (Starts s.dev 0x0604 p w id → p.u32 4 = 0 → ∃ v : Dev, exec (.traceRead p) s = .next (s.withDev <|
      (v.finish id stOk 0 (p.u32 0) 0 []).skipHeads p.src) ∧ v = { w with freeTick := v.freeTick })) ∧
  (∀ (s : State) (p : Packet) (w : Dev) (id : Nat),
  (Starts s.dev 0x0540 p w id → profileOk p = false →
    exec (.meterProfileSet p) s = .next (s.withDev <| (w.fail id stInvalidField).skipHeads p.src)) ∧
  (Starts s.dev 0x0540 p w id → profileOk p = true → exec (.meterProfileSet p) s = .next (s.withDev <|
    ({ w with hosts := { w.hosts with updates := w.hosts.updates ++
        [Update.mk .meter (p.u16 0) (.meterSet (readProfile p)) w.now (some id)] } }).skipHeads p.src)) ∧
  (Starts s.dev 0x0541 p w id → exec (.meterProfileGet p) s = .next (s.withDev <|
    (w.finish id stOk (Tab.getD w.hosts.meterVers (p.u16 0 % 8192) 0).toNat 0 0
      (profileBytes (p.u16 0 % 8192) (w.meter (p.u16 0 % 8192)))).skipHeads p.src)) ∧
  (p.u32 8 < p.u32 4 ∨ p.u32 24 < p.u32 20 ∨ 0x64000000 < p.u32 8 ∨ 8192 ≤ p.u16 0 → profileOk p = false))

/-- R172, R173, R186, R190, R412: the shelf commands. R185, R187, R190, R191: the states of a bay and of its ports.
BAY_ADOPT completes at once (assumption log 37). -/
def Obligations.ShelfAndBays : Prop :=
  (∀ (s : State) (p : Packet) (w : Dev) (id : Nat),
  (Starts s.dev 0x0401 p w id → w.store.layout.used = false → p.u32 0 ≤ 2 ^ 30 → p.u32 4 + 4 ≤ p.u32 0 → p.u8 8 < 32 →
    p.u8 9 < 32 → p.u8 10 < 32 → p.u8 8 ≠ p.u8 9 → p.u8 8 ≠ p.u8 10 → p.u8 9 ≠ p.u8 10 →
    (∀ b < 32, (w.bay b).state ≠ .serving) → exec (.shelfLayout p) s = .next (s.withDev <|
      (({ w with store := { w.store with
          layout := { w.store.layout with rows := p.u32 0, spareRows := p.u32 4, set := true }
          journal := { w.store.journal with bays := [p.u8 8, p.u8 9, p.u8 10] } } }).finishOk id 0 0 0).skipHeads p.src)) ∧
  (Starts s.dev 0x0401 p w id → (w.store.layout.used = true ∨ 2 ^ 30 < p.u32 0 ∨ p.u32 0 < p.u32 4 + 4 ∨ p.u8 8 = p.u8 9) →
    exec (.shelfLayout p) s = .next (s.withDev <| (w.fail id stInvalidField).skipHeads p.src)) ∧
  (∀ b x, Starts s.dev 0x0402 p w id → b = p.u8 0 % 32 → w.bay b = x → x.state = .foreign → w.store.layout.set = true →
    slotLba w.store.layout.rows ≤ x.lbas → x.fit = true → ∃ v : Dev, exec (.bayAdopt p) s = .next (s.withDev <|
      (v.finishOk id (x.generation + 1) 0 0).skipHeads p.src) ∧ (v.bay b).state = .serving ∧
      (v.bay b).generation = x.generation + 1 ∧ (v.bay b).stale = false ∧ v.chip = w.chip ∧ v.hosts = w.hosts) ∧
  (∀ b x, Starts s.dev 0x0402 p w id → b = p.u8 0 % 32 → w.bay b = x → (x.state ≠ .foreign ∨ x.fit = false) →
    exec (.bayAdopt p) s = .next (s.withDev <| (w.fail id stInvalidField).skipHeads p.src)) ∧
  (∀ b x, Starts s.dev 0x0403 p w id → b = p.u8 0 % 32 → w.bay b = x → x.state = .foreign → x.sanitizing = none →
    exec (.baySanitize p) s = .next (s.withDev <|
      ((w.setBay b { x with sanitizing := some id, sanitize := none }).emit (.baySanitize b (w.activePort b))).skipHeads p.src)) ∧
  (∀ b x, Starts s.dev 0x0404 p w id → b = p.u8 0 % 32 → w.bay b = x → exec (.bayQuery p) s = .next (s.withDev <|
      (w.finishOk id (x.state.code + 256 * b2n (w.bayPortUp b .A) + 512 * b2n (w.bayPortUp b .B)) x.generation
        (w.rowsUsed b).eraseDups.length).skipHeads p.src))) ∧
  (∀ (s : State) (b : Bay) (info : DriveInfo) (l : Label) (st lba : Word),
  let v := s.dev
  let n := b.val
  (v.baysRun = true → (v.bay n).state = .absent → (Tab.getD v.chans n .reset).pwrgd = true → (Tab.getD v.chans n .reset).perstRel = true →
    exec (.bayPowerGood b) s = .next (s.withDev <|
      (v.setBay n { v.bay n with state := .enumerating, powerGood := true, single := false }).emitAll
        ([BayPort.A, .B].flatMap (fun p => enumerateCmds.map (fun k => Out.bayAdmin n p k))))) ∧
  ((v.bay n).state ≠ .absent → exec (.bayPowerGood b) s = .next s) ∧
  (v.baysRun = true → (v.bay n).state = .enumerating → info.label = some l → meets185 info = true → v.labelCurrent n l = true →
    ∃ u : Dev, exec (.bayControllerReady b info) s = .next (s.withDev u) ∧ (u.bay n).state = .serving ∧ (u.bay n).label = some l ∧
      (u.bay n).generation = l.generation ∧ (u.bay n).lbas = info.lbas ∧ (u.bay n).single = !info.dual ∧
      u.store.grains = v.store.grains ∧ u.hosts.extents = v.hosts.extents) ∧
  (v.baysRun = true → (v.bay n).state = .enumerating → v.sec.lifecycle ≠ .retired →
    (info.label = none ∨ meets185 info = false ∨ ∃ y, info.label = some y ∧ v.labelCurrent n y = false) →
    exec (.bayControllerReady b info) s = .next (s.withDev <|
      (v.noteDrive n info).setBay n { (v.noteDrive n info).bay n with state := .foreign })) ∧
  ((v.bay n).state ≠ .enumerating → exec (.bayControllerReady b info) s = .next s) ∧
  (v.baysRun = true → (v.bay n).state = .serving → (v.bay n).upA = false → (v.bay n).upB = false →
    exec (.bayFail b .bothPortsDown) s = .next (s.withDev <| (v.bayLeaves n .failed).partFails (.bay b))) ∧
  ((v.bay n).state ≠ .serving → exec (.bayFail b .bothPortsDown) s = .next s ∧ exec (.bayFail b .escalated) s = .next s) ∧
  (v.store.ops = [] → (v.store.journal.bays.contains n = false) → ((v.bayLeaves n .failed).bay n).state = .failed) ∧
  (v.baysRun = true → (v.bay n).state = .failed → info.label = some l → meets185 info = true → v.labelCurrent n l = true →
    exec (.bayDriveReadyAgain b info) s = .next (s.withDev <| (v.noteDrive n info).serveBay n l)) ∧
  ((info.label = none ∨ meets185 info = false) → exec (.bayDriveReadyAgain b info) s = .next s) ∧
  (∃ u : Dev, exec (.bayPortLinkChange b .A true) s = .next (s.withDev u) ∧
    (v.store.ops = [] → (v.bay n).state ≠ .serving → (u.bay n).upA = true ∧ (u.bay n).upB = (v.bay n).upB ∧ (u.bay n).state = (v.bay n).state)) ∧
  (v.store.ops = [] → (v.bay n).state ≠ .serving → ∃ u : Dev, exec (.bayPortLinkChange b .B false) s = .next (s.withDev u) ∧
    (u.bay n).upB = false ∧ (u.bay n).upA = (v.bay n).upA ∧ (u.bay n).state = (v.bay n).state) ∧
  (v.atPeal = true → v.bayPortUp n .A = true → v.portLeased n .A = false →
    exec (.activePortReturn b) s = .next (s.withDev <| v.setBay n { v.bay n with activeB := false })) ∧
  ((v.atPeal = false ∨ v.bayPortUp n .A = false ∨ v.portLeased n .A = true) → exec (.activePortReturn b) s = .next s))

/-- R435, R437, R439, R443: the counter and snapshot commands and their work at the bell. R443: what a counter's LO word
and HI latch hold. -/
def Obligations.CountersAndSnapshots : Prop :=
  (∀ (s : State) (p : Packet) (w : Dev) (id : Nat),
  (∀ b key, Starts s.dev 0x0601 p w id → counterParam p = some (b, key) → eventOk b (p.u16 6) = true →
    exec (.counterSelect p) s = .next (s.withDev <|
      (w.setCounter key { w.counter key with
        next := some (BitVec.ofNat 16 (p.u16 6), w.clk.elapsed), shown := BitVec.ofNat 16 (p.u16 6)
        cmds := (w.counter key).cmds ++ [id] }).skipHeads p.src)) ∧
  (∀ b key, Starts s.dev 0x0601 p w id → counterParam p = some (b, key) → eventOk b (p.u16 6) = false →
    exec (.counterSelect p) s = .next (s.withDev <| (w.fail id stInvalidField).skipHeads p.src)) ∧
  (∀ b key, Starts s.dev 0x0602 p w id → counterParam p = some (b, key) →
    exec (.counterRead p) s = .next (s.withDev <|
      (w.finishOk id ((w.counter key).value.toNat % 2 ^ 32)
        ((w.counter key).value.toNat / 2 ^ 32 + (if (w.counter key).ovf then 2 ^ 31 else 0)) 0).skipHeads p.src)) ∧
  (Starts s.dev 0x0603 p w id → exec (.snapshot p) s = .next (s.withDev <|
      ({ w with pmon := { w.pmon with snap := { w.pmon.snap with
          asked := some (w.pmon.snap.asked.getD w.clk.elapsed), toBuffer := w.pmon.snap.toBuffer || bit (p.u8 0) 0
          cmds := w.pmon.snap.cmds ++ [id] } } }).skipHeads p.src)) ∧
  (∀ off value r b o, s.dev.mode ≠ .held → pmonAt off = some (r, b, o) → o < 0x20 → bit value.toNat 31 = false →
    exec (.pmonSelWrite off value) s = .next (s.withDev <|
      s.dev.setCounter (counterKey r b (o / 4)) { s.dev.counter (counterKey r b (o / 4)) with
        next := some (BitVec.ofNat 16 (if eventOk b (value.toNat % 65536) = true then value.toNat % 65536 else 0), s.dev.clk.elapsed)
        shown := BitVec.ofNat 16 (value.toNat % 65536)
        cmds := (s.dev.counter (counterKey r b (o / 4))).cmds ++ [] })) ∧
  (∀ r b k c ev t, s.dev.snapDue = false → k < 8 → s.dev.counter (counterKey r b k) = c → c.next = some (ev, t) → c.cmds = [] →
    t + 1 ≤ s.dev.clk.elapsed → exec (.counterSelectionApply r b k) s = .next (s.withDev <|
      s.dev.setCounter (counterKey r b k) { c with event := ev, value := 0, ovf := false, next := none, cmds := [] })) ∧
  (s.dev.snapDue = true → s.dev.pmon.snap.cmds = [] → ∃ t, exec .snapshotCopy s = .next t ∧ t.pending = s.pending ∧
    t.dev.pmon.snap.seq = (s.dev.pmon.snap.seq + 1) % 2 ^ 32 ∧ t.dev.pmon.snap.asked = none ∧
    (∀ key c, (key, c) ∈ s.dev.pmon.counters → s.dev.regionValid (key / 4096) = true →
      (key, { c with shadow := c.value, shadowOvf := c.ovf }) ∈ t.dev.pmon.counters) ∧
    t.dev = { s.dev with pmon := t.dev.pmon }) ∧
  (∀ seq b rest, s.dev.pmon.snap.pendingWrites = (seq, b) :: rest → s.dev.bufferOn = true →
    exec .snapshotBufferWritten s = .next (s.withDev <|
      (({ s.dev with pmon := { s.dev.pmon with snap := { s.dev.pmon.snap with pendingWrites := rest, lastSeq := seq } } }).emit
        (.snapshotRecord (s.dev.slotAddr seq) b)).raiseVec .pf1 0))) ∧
  (∀ (v : Dev) (off r b o : Nat) (c : Counter),
  pmonAt off = some (r, b, o) → 0x40 ≤ o → o % 8 = 0 → v.counter (counterKey r b ((o - 0x40) % 0x40 / 8)) = c →
  v.pmonWord off = some (if o < 0x80
    then (c.value.setWidth 32, some (BitVec.ofNat 32 ((if c.ovf then 2 ^ 31 else 0) + c.value.toNat / 2 ^ 32)))
    else (c.shadow.setWidth 32, some (BitVec.ofNat 32 ((if c.shadowOvf then 2 ^ 31 else 0) + c.shadow.toNat / 2 ^ 32)))))

/-- R376 to R382, R389: the fault commands, and an event at a known and at an unknown source. R377, R378, R380: an event
at a source whose record is clear fills the capture with the event's values and counts 1; a later one sets OVERFLOW
and counts on. The order of the checks is the model's choice (assumption log 49). -/
def Obligations.FaultRecords : Prop :=
  (∀ (s : State) (p : Packet) (w : Dev) (id : Nat) (r : FaultRec),
  (Starts s.dev 0x0701 p w id → w.faultRec (BitVec.ofNat 32 (p.u32 0)) = some r → exec (.faultRead p) s = .next (s.withDev <|
      (w.finish id stOk r.cls r.count 0 r.bytes).skipHeads p.src)) ∧
  (Starts s.dev 0x0701 p w id → w.faultRec (BitVec.ofNat 32 (p.u32 0)) = none → exec (.faultRead p) s = .next (s.withDev <|
      (w.fail id stInvalidField).skipHeads p.src)) ∧
  (Starts s.dev 0x0702 p w id → w.faultRec (BitVec.ofNat 32 (p.u32 0)) = some r → (r.cls < 3 ∨ (r.cls = 3 ∧ r.recovered = true)) →
    r.clearing = none → exec (.faultClear p) s = .next (s.withDev <|
      ({ w with faults := Tab.set w.faults r.source.toNat { r with clearing := some id } }).skipHeads p.src)) ∧
  (Starts s.dev 0x0702 p w id → w.faultRec (BitVec.ofNat 32 (p.u32 0)) = some r → (r.cls = 4 ∨ (r.cls = 3 ∧ r.recovered = false)) →
    exec (.faultClear p) s = .next (s.withDev <| (w.fail id stInvalidField).skipHeads p.src)) ∧
  (∀ l, Starts s.dev 0x0703 p w id → (sourceClass (BitVec.ofNat 32 (p.u32 0))).isSome = true →
    l = (w.faults.filter (fun (e : Nat × FaultRec) => e.2.captured && decide (p.u32 0 ≤ e.1))).map Prod.fst → l.length ≤ p.u16 4 →
    exec (.faultList p) s = .next (s.withDev <|
      (w.finish id stOk l.length 0xFFFFFFFF 0 (l.flatMap (leBytes 4))).skipHeads p.src)) ∧
  (Starts s.dev 0x0704 p w id → (sourceClass (BitVec.ofNat 32 (p.u32 0))).isSome = true →
    (w.sec.debug = .open_ ∨ w.sec.lifecycle = .blank) → exec (.faultInject p) s = .next (s.withDev <|
      ((w.faultIn ⟨BitVec.ofNat 32 (p.u32 0), none, 0xFFFF, 0, 0, BitVec.ofNat 32 (p.u32 8), BitVec.ofNat 32 (p.u32 12),
        BitVec.ofNat 32 (p.u32 16)⟩ true).finishOk id 0 0 0).skipHeads p.src)) ∧
  (Starts s.dev 0x0704 p w id → (sourceClass (BitVec.ofNat 32 (p.u32 0))).isSome = true → w.sec.debug ≠ .open_ →
    w.sec.lifecycle ≠ .blank → exec (.faultInject p) s = .next (s.withDev <| (w.fail id stAccessDenied).skipHeads p.src))) ∧
  (∀ (s : State) (f : FaultInfo) (r : FaultRec),
  s.dev.mode ≠ .held → srcType f.source ≠ 0x002 → srcType f.source ≠ 0x004 → s.dev.faultRec f.source = some r → r.clearing = none →
  ∃ t n, exec (.faultEvent f) s = .next t ∧ t.pending = s.pending ∧ Tab.get t.dev.faults f.source.toNat = some n ∧
    n.captured = true ∧ n.count = min 0xFFFF (r.count + 1) ∧ n.lastStamp = s.dev.clk.bell * 512 + s.dev.clk.ns ∧
    n.recovered = false ∧ f.cls.getD r.base ≤ n.cls ∧ r.cls ≤ n.cls ∧ n.source = r.source ∧
    (r.captured = false → n.master = f.master ∧ n.access = f.access ∧ n.address = f.address ∧ n.detail0 = f.detail0 ∧
      n.detail1 = f.detail1 ∧ n.detail2 = f.detail2 ∧ n.firstStamp = s.dev.clk.bell * 512 + s.dev.clk.ns ∧ n.overflow = r.overflow) ∧
    (r.captured = true → n.overflow = true ∧ n.detail0 = r.detail0 ∧ n.firstStamp = r.firstStamp) ∧
    t.dev.hosts = s.dev.hosts ∧ t.dev.store = s.dev.store ∧ t.dev.chip = s.dev.chip ∧ t.dev.regs = s.dev.regs ∧
    t.dev.clk = s.dev.clk ∧ t.dev.winMem = s.dev.winMem ∧ t.dev.keySlots = s.dev.keySlots)

/-- R26, R97, R344 to R346, R381: the commands and events of a spire: its loss, its reset, parking and P1. What a region
lease covers is the model's choice (assumption log 46). -/
def Obligations.SpireEvents : Prop := ∀ (s : State) (sp : Spire) (p : Packet) (w : Dev) (id : Nat) (x : SpireRec),
  let v := s.dev
  (∀ cause, v.mode ≠ .held → (v.spire sp.val).state = .up → ∃ t bridge, exec (.spireLoss sp cause) s = .next t ∧ t.pending = s.pending ∧
    t.dev = (({ (v.stopSpire sp.val .down).regionLease sp.val with freeTick := t.dev.freeTick }).fault 0x020 sp.val 0 cause.toNat bridge
      (v.clk.bell % 2 ^ 32)) ∧ (t.dev.spire sp.val).state = .down) ∧
  (Starts v 0x0103 p w id → sp.val = p.u8 0 % 4 → ∃ u : Dev, exec (.regionReset (.floder p)) s = .next (s.withDev <| u.skipHeads p.src) ∧
    (u.spire sp.val).state = .resetting ∧ (u.spire sp.val).resetCmd = some id ∧ (u.spire sp.val).rolesAway = (w.spire sp.val).rolesAway ∧
    (u.spire sp.val).boot = some ⟨2, 0, none, w.clk.elapsed⟩ ∧ (LeaseRef.region sp) ∈ u.recov.map Prod.fst) ∧
  (v.regionDue sp.val = true → (v.spire sp.val).state ≠ .resetting → exec (.regionReset (.fault sp)) s = .next (s.withDev <|
    v.startRegionReset sp.val)) ∧
  (∀ b, v.spire sp.val = x → x.state = .resetting → x.rolesAway = true → x.lost = false → x.boot = some b → b.stage = 6 → ∃ t, exec (.regionBootComplete sp) s = .next t ∧
    t.pending = s.pending ∧ (t.dev.spire sp.val).state = .up ∧ (t.dev.spire sp.val).remirror = true ∧
    (t.dev.spire sp.val).rolesAway = true ∧ (t.dev.spire sp.val).resetCmd = none ∧
    (∀ key r, Tab.get t.dev.faults key = some r → srcRegion r.source = sp.val → r.cls = 3 → r.recovered = true)) ∧
  (∀ b, v.spire sp.val = x → x.boot = some b → b.stage ≠ 6 → exec (.regionBootComplete sp) s = .next s) ∧
  (v.spire sp.val = x → x.remirror = true → x.state = .up → v.stackUp (partner sp.val) = true → ∃ t,
    exec (.remirrorComplete sp) s = .next t ∧ t.pending = s.pending ∧ (t.dev.spire sp.val).remirror = false ∧
    (∀ a, Part.bank sp a ∉ t.dev.chip.unrepaired)) ∧
  (v.spire sp.val = x → x.remirror = true → x.state = .up → v.stackUp (partner sp.val) = true →
    (∀ a, Part.bank sp a ∉ v.chip.unrepaired) → exec (.remirrorComplete sp) s = .next (s.withDev <| (v.remirror sp.val).setSpire sp.val { x with remirror := false })) ∧
  (v.spire sp.val = x → v.atPeal = true → x.rolesAway = true → x.remirror = false → x.unparked = false → x.state = .up →
    v.singleCopies sp.val = false → exec (.roleReturn sp) s = .next (s.withDev <| v.setSpire sp.val { x with rolesAway := false })) ∧
  (v.spire sp.val = x → x.remirror = true → exec (.roleReturn sp) s = .next s) ∧
  (v.spire sp.val = x → x.state = .up → v.spireIdle sp.val = true → v.cfgBits 0x7004 31 31 = 1 → v.cfgBits 0x7004 23 0 ≤ x.idle →
    exec (.p1Entry sp) s = .next (s.withDev <| v.setSpire sp.val { x with p1 := true })) ∧
  (v.spire sp.val = x → x.p1 = true → exec (.p1Wake sp) s = .next (s.withDev <|
    v.setSpire sp.val { x with p1 := false, idle := 0 }))

/-- R345, R346: PARK under its guards; UNPARK by command and by itself; the restart and the return of the roles. Some
corners of parking are the model's choice (assumption log 47). -/
def Obligations.Parking : Prop := ∀ (s : State) (sp : Spire) (p : Packet) (w : Dev) (id : Nat) (x : SpireRec),
  let v := s.dev
  (Starts v 0x0106 p w id → sp.val = p.u8 0 % 4 → w.mode = .service → w.sec.debug ≠ .open_ →
    (∀ i < 4, (w.spire i).state ≠ .parked ∧ (w.spire i).state ≠ .unparking) → w.spire sp.val = x → x.state = .up →
    (w.spire (partner sp.val)).state = .up → w.otherPortsUp sp.val = true → exec (.park p) s = .next (s.withDev <|
      (((w.setSpire sp.val { x with state := .parked, p1 := false, keyCopies := false, resetCmd := some id }).dropCopiesOf
        sp.val).stopPorts sp.val).skipHeads p.src)) ∧
  (Starts v 0x0106 p w id → w.mode ≠ .service → exec (.park p) s = .next (s.withDev <| (w.fail id stInvalidField).skipHeads p.src)) ∧
  (Starts v 0x0107 p w id → sp.val = p.u8 0 % 4 → w.spire sp.val = x → x.state = .parked → x.rolesAway = true →
    exec (.unpark (.floder p)) s = .next (s.withDev <|
      (w.setSpire sp.val { x with state := .unparking, resetCmd := some id }).skipHeads p.src)) ∧
  (v.spire sp.val = x → x.state = .parked → x.rolesAway = true → v.mode = .degraded →
    exec (.unpark (.fault sp)) s = .next (s.withDev <| v.setSpire sp.val { x with state := .unparking })) ∧
  (v.spire sp.val = x → x.state = .unparking → v.stackUp (partner sp.val) = true → v.regs.pages = [] →
    exec (.unparkRestartComplete sp) s = .next (s.withDev <|
      (v.setSpire sp.val { x with unparked := true, rolesAway := true }).spireBack sp.val)) ∧
  (∀ c, v.spire sp.val = x → v.atPeal = true → x.unparked = true → x.state = .up → x.resetCmd = some c →
    exec (.unparkRoleReturn sp) s = .next (s.withDev <|
      (v.setSpire sp.val { x with unparked := false, rolesAway := false, resetCmd := none }).finish c stOk 0 0 0 []))

/-- R16 to R20: the Keep pair: a self-check that disagrees sets the Keep's flag, and with the other Keep faulty or gone is
FATAL; a miscompare holds the outputs, and is FATAL where neither flag, or both, explain it; the Keep whose flag
explains it is isolated. R17, R19, R20: after isolation the Keep is out, a single part is faulty, and with Keep A the
endpoint passes to Keep B. R96, R379, R383: a block reset by the command and by a fault, and its end. -/
def Obligations.KeepsAndBlocks : Prop :=
  (∀ (s : State) (k : KeepId) (n : BitVec 32) (stroke : Fin 8),
  let v := s.dev
  (v.mode ≠ .held → v.keepSound k = true → exec (.keepSelfcheckMismatch k n) s = .next (s.withDev <|
    let w := (v.setKeep k { v.keep k with flag := true }).fault 0x021 (keepRegion k) 0 n.toNat 0 0
    if w.bothKeepsBad then w.modeEvent .fatal else w)) ∧
  (∀ u : Dev, u.bothKeepsBad = true ↔ ∀ j, u.keepSound j = false ∨ (u.keep j).flag = true) ∧
  (v.mode ≠ .held → v.keepSound .A = true → v.keepSound .B = true → v.clk.ns ≤ 64 * stroke.val → ∀ w,
    w = { v with clk := { v.clk with ns := 64 * stroke.val }, chip := { v.chip with keeps := { v.chip.keeps with holdOut := true } } } →
    exec (.keepOutputCompare stroke true n) s = .next (s.withDev <|
      if (v.keep .A).flag = (v.keep .B).flag then
        w.fault 0x022 7 0 n.toNat (if (v.keep .A).flag then 3 else 0) 0 else w)) ∧
  (v.clk.ns ≤ 64 * stroke.val → exec (.keepOutputCompare stroke false n) s = .next (s.withDev <|
    { v with clk := { v.clk with ns := 64 * stroke.val } })) ∧
  (v.keepSound k = true → v.keepSound (otherKeep k) = true → (v.keep (otherKeep k)).flag = false → (v.keep k).flag = true →
    v.chip.keeps.holdOut = true → exec (.keepIsolation k) s = .next (s.withDev <| v.isolateKeep k)) ∧
  (v.keepSound (otherKeep k) = false → exec (.keepIsolation k) s = .next s)) ∧
  (∀ (v : Dev) (k : KeepId), v.keepSound k = true →
  ((v.isolateKeep k).keep k).isolated = true ∧ (v.isolateKeep k).keep (otherKeep k) = v.keep (otherKeep k) ∧
  (Part.keep k) ∈ (v.isolateKeep k).chip.unrepaired ∧ (v.isolateKeep k).mode = v.mode ∧
  (k = .A → v.ep.keepB = false → (v.isolateKeep k).ep.link = false ∧ (v.isolateKeep k).ep.failing = some v.clk.elapsed) ∧
  (k = .B → (v.isolateKeep k).ep.failing = v.ep.failing)) ∧
  (∀ (s : State) (p : Packet) (w : Dev) (id : Nat) (src : BitVec 32),
  let v := s.dev
  (Starts v 0x0104 p w id → src = BitVec.ofNat 32 (p.u32 0) → srcType src = 0x011 → (sourceClass src).isSome = true →
    exec (.blockReset (.floder p)) s = .next (s.withDev <|
      ((w.unhold (fun x => srcRegion x == srcRegion src && blockOfSource x == some (srcInst src))).startBlockReset
        (srcRegion src) (srcInst src)).skipHeads p.src)) ∧
  (Starts v 0x0104 p w id → srcType (BitVec.ofNat 32 (p.u32 0)) ≠ 0x011 → exec (.blockReset (.floder p)) s = .next (s.withDev <|
      (w.fail id stInvalidField).skipHeads p.src)) ∧
  (∀ r b, Tab.get v.faults src.toNat = some r → blockLevel src = some b → r.cls = 3 → r.resetDue = true → srcRegion src < 4 →
    exec (.blockReset (.fault src)) s = .next (s.withDev <| v.startBlockReset (srcRegion src) b)) ∧
  (∀ r, srcType src = 0x011 → srcRegion src = r → r < 4 → srcInst src ∈ (v.spire r).resets →
    srcInst src ≠ 0x20 → srcInst src ≠ 0x90 → srcInst src ≠ 0x60 → srcInst src ≠ 0x10 → srcInst src ≠ 0x11 → v.cmdsOf 0x0104 = [] →
    exec (.blockResetComplete src true) s = .next (s.withDev <|
      ((v.setSpire r { v.spire r with resets := (v.spire r).resets.filter (fun n => n != srcInst src) }).resetsDone
        (fun x => srcRegion x == r && blockOfSource x == some (srcInst src))).dropRecov (.block (Fin.ofNat 4 r) (srcInst src)))) ∧
  (∀ r, srcType src = 0x011 → srcRegion src = r → r < 4 → srcInst src = 0x60 → srcInst src ∈ (v.spire r).resets →
    v.cmdsOf 0x0104 = [] → exec (.blockResetComplete src true) s = .next (s.withDev <|
      (((v.setSpire r { v.spire r with resets := (v.spire r).resets.filter (fun n => n != 0x60) }).cipherBack r).resetsDone
        (fun x => srcRegion x == r && blockOfSource x == some 0x60)).dropRecov (.block (Fin.ofNat 4 r) 0x60))) ∧
  (srcType src ≠ 0x011 → ∀ ok, exec (.blockResetComplete src ok) s = .next s))

/-- R356 to R362: a channel's way from insertion to power good. -/
def Obligations.ChannelStart : Prop := ∀ (s : State) (b : Bay) (h : Hum) (c : Chan) (x : Channel),
  let v := s.dev
  (v.sampling = true → v.chan b.val = x → x.seen = true → x.present = false → v.chanCfg b.val 0x004 15 8 ≤ x.seenFor →
    exec (.bayPresenceConfirmed b) s = .next (s.withDev <|
      v.setChan b.val { x with present := true, insertFrom := some v.clk.elapsed })) ∧
  (v.sampling = true → v.chan (32 + h.val) = x → x.seen = true → x.present = false → v.chanCfg (32 + h.val) 0x004 15 8 ≤ x.seenFor →
    exec (.humSeated h) s = .next (s.withDev <|
      v.setChan (32 + h.val) { x with present := true, ready := some v.clk.elapsed })) ∧
  (∀ d, v.chan b.val = x → x.insertFrom = some d → x.present = true → v.measured b.val = true →
    d + v.chanCfg b.val 0x00C 31 16 * 15625 ≤ v.clk.elapsed → exec (.insertDelayEnd b) s = .next (s.withDev <|
      v.setChan b.val { x with insertFrom := none, ready := some v.clk.elapsed })) ∧
  (v.chan c.val = x → x.state = .wait → v.canRamp c.val = true → v.rampTurn c.val = true →
    exec (.rampStart c) s = .next (s.withDev <|
      v.setChan c.val { x with state := .ramp, rampFor := 0, fullFor := 0, retryAt := none })) ∧
  (v.chan c.val = x → x.state = .tripped → v.canRamp c.val = true → v.rampTurn c.val = true →
    exec (.retryDue c) s = .next (s.withDev <|
      v.setChan c.val { x with state := .ramp, rampFor := 0, fullFor := 0, retryAt := none })) ∧
  (v.canRamp c.val = false → exec (.rampStart c) s = .next s ∧ exec (.retryDue c) s = .next s) ∧
  (v.chan c.val = x → x.state = .ramp → 2 ≤ x.fullFor → 32 ≤ c.val → exec (.rampComplete c) s = .next (s.withDev <|
    v.setChan c.val { x with state := .on, onSince := v.clk.elapsed, brk := [], pwrgd := false, pwrgdFor := 0 })) ∧
  (v.chan c.val = x → x.state = .ramp → 2 ≤ x.fullFor → c.val < 32 → ∃ t, exec (.rampComplete c) s = .next t ∧
    t.pending = s.pending ∧ t.dev.chan c.val = { x with state := .on, onSince := v.clk.elapsed, brk := [], pwrgd := true, pwrgdFor := 0 } ∧
    (t.dev.bay c.val).powerGood = true ∧ t.dev.hosts = v.hosts ∧ t.dev.chip = v.chip ∧ t.dev.regs = v.regs) ∧
  (v.chan b.val = x → v.baysRun = true → x.state = .on → x.pwrgd = true → x.offCmd = false →
    3052 ≤ x.pwrgdFor → v.chanCfg b.val 0x014 15 0 ≤ x.pwrgdFor → exec (.perstRelease b) s = .next (s.withDev <|
      v.setChan b.val { x with perstRel := true })) ∧
  (v.chan b.val = x → x.pwrgdFor < 3052 → exec (.perstRelease b) s = .next s)

/-- R363, R364, R366, R375: the trips of a channel, and a pass transistor that has failed. R364: a trip turns the gate off
and is counted; it is retried after RETRY_PEALS while the count allows, else the channel stays LOCKED_OFF. -/
def Obligations.ChannelTrips : Prop :=
  (∀ (s : State) (c : Chan) (point : Fin 8) (current : Int) (x : Channel),
  let v := s.dev
  (v.chan c.val = x → x.state = .ramp → v.measured c.val = true → v.fastLimit c.val < current.natAbs →
    exec (.fastTrip c current) s = .next (s.withDev <| v.trip c.val 3 0 current)) ∧
  (v.chan c.val = x → x.state = .on → v.measured c.val = true → v.fastLimit c.val < current.natAbs →
    exec (.fastTrip c current) s = .next (s.withDev <| v.trip c.val 2 0 current)) ∧
  (v.chan c.val = x → x.state = .on → v.measured c.val = true → v.chanCfg c.val (0x020 + 4 * point.val) 31 16 ≠ 0xFFFF →
    v.chanCfg c.val (0x020 + 4 * point.val) 15 0 < Tab.getD x.brk point.val 0 →
    exec (.breakerTrip c point) s = .next (s.withDev <| v.trip c.val 1 point.val x.current)) ∧
  (v.chan c.val = x → x.state = .ramp → x.fullFor < 2 → 1 ≤ x.rampFor → v.chanCfg c.val 0x00C 15 0 ≤ x.rampFor →
    exec (.rampTimeout c) s = .next (s.withDev <| v.trip c.val 4 0 x.current)) ∧
  (v.measured c.val = false → exec (.fastTrip c current) s = .next s ∧ exec (.breakerTrip c point) s = .next s) ∧
  (v.chan c.val = x → x.state = .on → v.atBell (x.onSince + v.cfgBits 0x8004 31 16 * 15625) = true →
    exec (.tripCountClear c) s = .next (s.withDev <| v.setChan c.val { x with tripCount := 0 })) ∧
  (v.chan c.val = x → (x.state = .off ∨ x.state = .wait ∨ x.state = .tripped ∨ x.state = .lockedOff) → v.measured c.val = true →
    4 ≤ x.shortFor → 32 ≤ c.val → ∃ t, exec (.passTransistorFault c) s = .next t ∧ t.pending = s.pending ∧
      (t.dev.chan c.val).state = .shorted ∧ t.dev.regs = v.regs ∧ t.dev.hosts = v.hosts ∧ t.dev.chip = v.chip)) ∧
  (∀ (v : Dev) (c cause point : Nat) (current : Int), c < 34 →
  let n := min 15 ((v.chan c).tripCount + 1)
  let y := (v.trip c cause point current).chan c
  y.tripCount = n ∧ y.lastCause = cause ∧ y.pwrgd = false ∧ y.perstRel = false ∧
  (n ≤ v.chanCfg c 0x004 30 28 → y.state = .tripped ∧
    y.retryAt = some (v.clk.elapsed + max 1 (v.chanCfg c 0x004 27 20) * 15625)) ∧
  (v.chanCfg c 0x004 30 28 < n → y.state = .lockedOff ∧ y.retryAt = none) ∧
  (∀ d, d ≠ c → (v.trip c cause point current).chan d = v.chan d))

/-- R142, R351, R365, R367, R490: samples, removal, module identity and the critical temperature. R354, R366, R370, R458:
CHANNEL_SET stages ENABLE and commits the page, or waits for the commit before it; CHANNEL_RELEASE releases a channel
that is locked off. The energy of a sample is rounded down (assumption log 38). -/
def Obligations.ChannelCommands : Prop :=
  (∀ (s : State) (b : Bay) (h : Hum) (x : Channel) (m : Sample),
  let v := s.dev
  (v.sampling = true → v.chan b.val = x → x.seen = false → v.chanCfg b.val 0x004 15 8 ≤ x.goneFor →
    exec (.bayRemovalConfirmed b) s = .next (s.withDev <| v.setChan b.val { x with tripCount := 0 })) ∧
  (v.sampling = true → ∃ t, exec (.humSeatingLoss h) s = .next t ∧ t.pending = s.pending ∧
    (t.dev.chan (32 + h.val)).seen = false ∧ (t.dev.chan (32 + h.val)).present = false ∧
    (t.dev.chan (32 + h.val)).ready = none ∧ (t.dev.chan (32 + h.val)).gateOn = false ∧
    t.dev.chip = v.chip ∧ t.dev.hosts = v.hosts ∧ t.dev.regs = v.regs) ∧
  (∀ serial, (v.chan (32 + h.val)).state = .on → v.measured (32 + h.val) = true →
    exec (.humIdRead h (some serial)) s = .next (s.withDev <| v.setHum h.val { v.hum h.val with serial := some serial })) ∧
  ((v.chan (32 + h.val)).state = .on → v.measured (32 + h.val) = true →
    exec (.humIdRead h none) s = .next (s.withDev <|
      (v.setHum h.val { v.hum h.val with serial := none }).fault 0x073 (chanRegion (32 + h.val)) (32 + h.val) (32 + h.val) 0 0)) ∧
  (∀ (n : Fin 12) (t0 t1 : BitVec 32), v.sampling = true → n.val < 6 → 1150 ≤ t0.toInt → 1150 ≤ t1.toInt →
    exec (.thermalCrit n t0 t1) s = .next (s.withDev <| v.fault 0x0A1 7 n.val t1.toNat t0.toNat t1.toNat)) ∧
  (∀ (n : Fin 12) (t0 t1 : BitVec 32), n.val < 6 → t0.toInt < 1150 → exec (.thermalCrit n t0 t1) s = .next s) ∧
  (v.sampleFalls = true → v.mode ≠ .vault → v.cfgBits 0x301C 15 0 ≤ m.vsnsMv → ∃ t, exec (.hotSwapSample m) s = .next t ∧
    t = s.withDev (v.takeSample m) ∧ t.dev.chip.input.pwrgood = m.pwrgood ∧ t.dev.chip.input.vsnsMv = m.vsnsMv ∧
    t.dev.chip.input.run = (if m.pwrgood = true ∧ v.cfgBits 0x301C 31 16 ≤ m.vsnsMv then min 244 (v.chip.input.run + 1) else 0) ∧
    t.dev.chip.input.samples = v.chip.input.samples + 1 ∧ t.dev.chip.input.sampledAt = some v.clk.elapsed ∧ t.dev.clk = v.clk ∧
    t.dev.mode = v.mode ∧ t.dev.winMem = v.winMem ∧ t.dev.regs.active = v.regs.active) ∧
  (v.sampleFalls = true → v.mode ≠ .vault → m.vsnsMv < v.cfgBits 0x301C 15 0 → (v.takeSample m).inputLoss.mode ≠ .vault →
    exec (.hotSwapSample m) s = .next (s.withDev (v.takeSample m).inputLoss)) ∧
  (v.sampling = false ∨ v.clk.elapsed % 64 ≠ 0 ∨ 64 ≤ v.clk.ns ∨ v.chip.input.sampledAt = some v.clk.elapsed →
    exec (.hotSwapSample m) s = .next s)) ∧
  (∀ (s : State) (p : Packet) (w : Dev) (id c : Nat),
  (Starts s.dev 0x0410 p w id → chanParam p 2 = some c → (w.page (0x10000 + 0x1000 * c)).due = none →
    exec (.channelSet p) s = .next (s.withDev <| (w.stageEnable id c (p.u8 1 % 2)).skipHeads p.src)) ∧
  (Starts s.dev 0x0410 p w id → chanParam p 2 = some c → (w.page (0x10000 + 0x1000 * c)).due.isSome = true →
    exec (.channelSet p) s = .next (s.withDev <| w.skipHeads p.src)) ∧
  (Starts s.dev 0x0410 p w id → 34 ≤ p.u8 0 → exec (.channelSet p) s = .next (s.withDev <|
    (w.fail id stInvalidField).skipHeads p.src)) ∧
  (Starts s.dev 0x0411 p w id → chanParam p 256 = some c → (w.chan c).state = .lockedOff → w.faults = [] →
    exec (.channelRelease p) s = .next (s.withDev <|
      ((w.setChan c { w.chan c with state := if w.enabled c then .wait else .off, tripCount := 0, iso := false, shortFor := 0,
                                    offSince := w.clk.elapsed }).finishOk id (if w.enabled c then 1 else 0) 0 0).skipHeads p.src)) ∧
  (Starts s.dev 0x0411 p w id → chanParam p 256 = some c → (w.chan c).state = .on →
    exec (.channelRelease p) s = .next (s.withDev <| (w.fail id stInvalidField).skipHeads p.src)))

/-- R142 to R152: the assays of the hold-up modules and the credit the Keeps compute. Rounding and the assay's corner
cases are the model's choice (assumption log 39). -/
def Obligations.EnergyCredit : Prop := ∀ (s : State) (h : Hum) (u : HumState),
  let v := s.dev
  (v.hum h.val = u → v.assayWanted h.val = true → exec (.assayDue h) s = .next (s.withDev <|
    v.setHum h.val { u with assay := .due })) ∧
  (v.assayWanted h.val = false → exec (.assayDue h) s = .next s) ∧
  (∀ x, v.hum h.val = u → v.chan (32 + h.val) = x → u.assay = .due → v.inputPresent = true → v.healthy (1 - h.val) = true →
    (v.hum (1 - h.val)).assay.running = false → v.vCut < v.vAssayEnd → v.vAssayEnd < v.vFull → v.outGrains ≤ v.limitNow →
    v.humUp h.val = true → v.mode ≠ .vault → v.mode ≠ .fenced → exec (.assayDischargeStart h) s = .next (s.withDev <|
      (v.setHum h.val { u with assay := .discharging x.vout x.energyOut }).setChan (32 + h.val) { x with chg := false, dis := true })) ∧
  (∀ x mv uj n cap, v.hum h.val = u → v.chan (32 + h.val) = x → u.assay = .discharging mv uj → u.serial = some n →
    x.vout ≤ v.vAssayEnd → v.vAssayEnd < mv → v.ecap h.val = none →
    cap = (x.energyOut - uj) / 1000 * (v.vFull * v.vFull - v.vCut * v.vCut) / (mv * mv - v.vAssayEnd * v.vAssayEnd) →
    v.cfgBits 0x3018 31 0 ≤ cap → exec (.assayEnd h) s = .next (s.withDev <|
      ({ v.setChan (32 + h.val) { x with dis := false } with
        store := { v.store with ecaps := v.store.ecaps.filter (fun (e : ECap) => e.serial != n) ++ [ECap.mk n (some cap) 0 none] } }).setHum h.val
          { u with assay := .idle, agrees := true })) ∧
  (∀ x, v.hum h.val = u → v.chan (32 + h.val) = x → v.vAssayEnd < x.vout → exec (.assayEnd h) s = .next s) ∧
  (v.mode ≠ .held → v.chip.keeps.holdOut = true → v.clk.ns ≤ 448 → exec .creditCompute s = .next (s.withDev <|
    { v with clk := { v.clk with ns := 448 } })) ∧
  (v.mode ≠ .held → v.chip.keeps.holdOut = false → v.outGrains ≤ v.limitNow → v.clk.ns ≤ 448 → ∃ t, exec .creditCompute s = .next t ∧ t.pending = s.pending ∧
    t.dev.store.credit.limit = v.limitNow ∧ t.dev.store.credit.out = v.outGrains ∧ t.dev.store.credit.deficit = false ∧
    Tab.getD t.dev.store.credit.next 0 0 + Tab.getD t.dev.store.credit.next 1 0 + Tab.getD t.dev.store.credit.next 2 0
      + Tab.getD t.dev.store.credit.next 3 0 ≤ v.limitNow - v.outGrains ∧ t.dev.clk.ns = 448 ∧
    t.dev.hosts = v.hosts ∧ t.dev.chip = v.chip ∧ t.dev.regs = v.regs ∧ t.dev.store.grains = v.store.grains)

/-- R75 to R77, R460: the page commit register and the staging views: COMMIT sets the pending flag for the bell that R76
gives, DISCARD drops what is staged, a staged write changes the bits that its register defines and waits for its
commit, and a write to an active view does nothing. R76, R77: at the bell of a commit the staged values of its page
are in force, all of them, and nothing else changes. -/
def Obligations.StagedPages : Prop :=
  (∀ (s : State) (page off : Nat) (value : Word) (d : RegDesc),
  let v := s.dev
  let q := canonOff page
  let o := canonOff off
  let p := o / 0x1000 * 0x1000
  (v.mode ≠ .held → stagedPage q = true → v.windowUp q = true → v.pageResetting q = false → (v.page q).due = none →
    value.getLsbD 30 = false → v.clk.ns < 512 → exec (.pageCommit page value) s = .next (s.withDev <|
      v.setPage q { v.page q with due := some (if 448 ≤ v.clk.ns then v.clk.elapsed + 2 else v.clk.elapsed + 1), owner := none })) ∧
  (v.mode ≠ .held → stagedPage q = true → v.windowUp q = true → v.pageResetting q = false → (v.page q).due = none →
    value.getLsbD 30 = false → value.getLsbD 0 = false → exec (.pageDiscard page value) s = .next (s.withDev <|
      { v with regs := { v.regs with staged := v.regs.staged.filter (fun (e : Nat × Word) => !onPage q e.1) } })) ∧
  (v.reachable .pf0 = true → v.ep.frozen = false → v.mode ≠ .vault → v.mode ≠ .fenced → v.pageResetting off = false →
    (v.readWord .pf0 off).isSome = true → stagedPage p = true → p + 0x800 ≤ o → cfgDesc (o - 0x800) = some d →
    onPage p (o - 0x800) = true → (v.page p).due = none →
    exec (.registerWrite .pf0 off value) s = .next (s.withDev <|
      { v with regs := { v.regs with staged := Tab.set v.regs.staged (o - 0x800) (value &&& d.mask) } })) ∧
  (v.reachable .pf0 = true → v.ep.frozen = false → v.mode ≠ .vault → v.mode ≠ .fenced → v.pageResetting off = false →
    (v.readWord .pf0 off).isSome = true → stagedPage p = true → p + 0x800 ≤ o → cfgDesc (o - 0x800) = some d →
    (o - 0x800) / 0x1000 * 0x1000 = p → (v.page p).due.isSome = true →
    exec (.registerWrite .pf0 off value) s = .next (s.withDev <| v.setPage p { v.page p with blocked := true })) ∧
  (v.reachable .pf0 = true → v.ep.frozen = false → v.mode ≠ .vault → v.mode ≠ .fenced → (v.readWord .pf0 off).isSome = true →
    stagedPage p = true → p < o → o < p + 0x800 → exec (.registerWrite .pf0 off value) s = .next s)) ∧
  (∀ (s : State) (p d : Nat),
  let v := s.dev
  v.mode ≠ .held → canonOff p = p → (v.page p).due = some d → d ≤ v.clk.elapsed → (v.page p).owner = none →
  p = 0x2000 ∨ p = 0x3000 ∨ p = 0x7000 ∨ p = 0x8000 ∨ p = 0x40000 ∨ p = 0x400000 ∨ p = 0x4000000 →
  ∃ t, exec (.stagedCommitTakeEffect p) s = .next t ∧ t.pending = s.pending ∧
    (∀ o x, p ≤ o → o < p + 0x1000 → (o, x) ∈ v.regs.staged → (∀ y, (o, y) ∈ v.regs.staged → y = x) → t.dev.cfg o = x) ∧
    (∀ o, (∀ x, (o, x) ∉ v.regs.staged) → t.dev.cfg o = v.cfg o) ∧
    (∀ o, (o < p ∨ p + 0x1000 ≤ o) → t.dev.cfg o = v.cfg o ∧ t.dev.stagedCfg o = v.stagedCfg o) ∧
    (t.dev.page p).due = none ∧ (t.dev.page p).count = (v.page p).count + 1 ∧
    t.dev = { v with regs := t.dev.regs })

/-- R443, R447, R457: a read of BELL_NOW_LO returns the low word of the time stamp and latches the high one for the
requester; so does a read of a counter's LO word. R423, R425: a function that does not answer, or is frozen, returns
UR. R419, R423, R425, R445: requests to the endpoint: what is served, what is answered UR and what is dropped. R339,
R343: what the JTAG port answers at each debug level. -/
def Obligations.RegisterReadsAndJtag : Prop :=
  (∀ (s : State) (off : Nat) (lo hi : Word),
  let v := s.dev
  (v.reachable .pf0 = true → v.ep.frozen = false → exec (.bellNowRead .pf0) s = .next (s.withDev <|
    { v with
      regs := { v.regs with
        latches := Tab.set v.regs.latches (latchKey .pf0 0x9010) (BitVec.ofNat 32 ((v.clk.bell * 512 + v.clk.ns) / 2 ^ 32)) }
      out := v.out ++ [.regData .pf0 0x900C (BitVec.ofNat 32 (v.clk.bell * 512 + v.clk.ns))] })) ∧
  (v.ep.link = false → exec (.bellNowRead .pf0) s = .next s) ∧
  (v.ep.link = true → (v.reachable .pf0 = false ∨ v.ep.frozen = true) → exec (.bellNowRead .pf0) s = .next (s.withDev <|
    v.answerUr .pf0 0x900C)) ∧
  (∀ r b o, v.reachable .pf0 = true → v.ep.frozen = false → pmonAt off = some (r, b, o) → 0x40 ≤ o → o % 8 = 0 →
    v.readWord .pf0 off = some (lo, some hi) → exec (.pmonLoRead .pf0 off) s = .next (s.withDev <|
      { v with
        regs := { v.regs with latches := Tab.set v.regs.latches (latchKey .pf0 (off + 4)) hi }
        out := v.out ++ [.regData .pf0 off lo] }))) ∧
  (∀ (s : State) (r : MemReq) (lo : Word),
  let v := s.dev
  (v.ep.link = false → exec (.epMemoryRequest r) s = .next s) ∧
  (r.write = true → r.poisoned = true → exec (.epMemoryRequest r) s = .next s) ∧
  (v.ep.link = true → r.write = false → v.reachable r.pf = false → exec (.epMemoryRequest r) s = .next (s.withDev <|
    v.answerUr r.pf r.offset.toNat)) ∧
  (v.reachable .pf0 = true → r.pf = .pf0 → r.bar = 6 → r.write = false → r.offset.toNat < 0x100000 → r.length ≤ 4096 →
    exec (.epMemoryRequest r) s = .next (s.withDev <| { v with out := v.out ++
      [.romData r.offset.toNat ((List.range r.length).map (fun i => v.romByte (r.offset.toNat + i)))] })) ∧
  (v.reachable .pf0 = true → v.ep.frozen = false → r.pf = .pf0 → r.bar = 0 → r.write = false → r.length = 4 →
    r.offset.toNat % 4 = 0 → r.bad = false → r.offset.toNat < 0x4000000 → v.readWord .pf0 r.offset.toNat = some (lo, none) →
    exec (.epMemoryRequest r) s = .next (s.withDev <| { v with out := v.out ++ [.regData .pf0 r.offset.toNat lo] })) ∧
  (v.reachable .pf0 = true → v.ep.frozen = false → r.pf = .pf0 → r.bar = 0 → r.write = false → r.length = 2 →
    exec (.epMemoryRequest r) s = .next (s.withDev <| v.answerUr .pf0 r.offset.toNat)) ∧
  (v.reachable .pf0 = true → v.ep.frozen = true → r.bar = 2 → r.pf = .pf0 → r.write = true →
    exec (.epMemoryRequest r) s = .next s)) ∧
  (∀ (s : State) (off : BitVec 26) (sp : Spire) (hbm : Bool) (a : Nat) (b : Byte) (w : Word),
  let v := s.dev
  let ans := fun (o : Out) => Host.Outcome.next (φ := Fault) (ρ := Refusal) (s.withDev { v with out := v.out ++ [o] })
  exec (.jtagDebugAccess .idcode) s = ans (.jtag (some Config.idcode)) ∧
  exec (.jtagDebugAccess .bypass) s = ans (.jtag none) ∧
  (v.mode = .vault → exec (.jtagDebugAccess (.regRead off)) s = ans .jtagBusy ∧
    exec (.jtagDebugAccess (.memWrite sp hbm a b)) s = ans .jtagBusy ∧ exec (.jtagDebugAccess (.regWrite off w)) s = ans .jtagBusy) ∧
  (v.mode ≠ .vault → (v.sec.debug ≠ .open_ ∨ v.sec.p3 = true) → exec (.jtagDebugAccess (.regRead off)) s = ans .jtagError ∧
    exec (.jtagDebugAccess (.regWrite off w)) s = ans .jtagError ∧ exec (.jtagDebugAccess (.memRead sp hbm a)) s = ans .jtagError ∧
    exec (.jtagDebugAccess (.memWrite sp hbm a b)) s = ans .jtagError) ∧
  (v.mode ≠ .vault → (v.sec.debug = .closed ∨ v.sec.p3 = true) → exec (.jtagDebugAccess (.counterRead off)) s = ans .jtagError ∧
    exec (.jtagDebugAccess (.faultRecord w)) s = ans .jtagError ∧ exec (.jtagDebugAccess .traceRead) s = ans .jtagError) ∧
  (∀ x, v.mode ≠ .vault → v.sec.p3 = false → v.sec.debug = .open_ → v.readWord .jtag off.toNat = some (x, none) →
    exec (.jtagDebugAccess (.regRead off)) s = ans (.jtag (some x))) ∧
  (∀ r, v.mode ≠ .vault → v.sec.p3 = false → v.sec.debug = .observe → v.faultRec w = some r →
    exec (.jtagDebugAccess (.faultRecord w)) s = ans (.jtagData r.bytes)))

/-- R396 to R404: doorbells, the writing of replies, interrupts and the faults of a ring. R399, R400: a ring that enters
ERROR stops, forgets what has not started, and raises its vector. -/
def Obligations.RingCommands : Prop :=
  (∀ (s : State) (r : Fin 256) (value : Word) (slots : List (BitVec 16 × Packet)) (x : Ring),
  let v := s.dev
  let e := v.ringEntries r.val
  (v.reachable .pf0 = true → v.ep.frozen = false → v.ring r.val = x → x.state = .running → e ≤ value.toNat →
    exec (.sqTailDoorbell r value slots) s = .next (s.withDev <| v.ringError r.val 1) ∧
    exec (.stHeadDoorbell r value) s = .next (s.withDev <| v.ringError r.val 2)) ∧
  (v.reachable .pf0 = true → v.ep.frozen = false → v.ring r.val = x → x.state = .running → value.toNat < e →
    exec (.sqTailDoorbell r value slots) s = .next (s.withDev <|
      let n := (value.toNat + e - x.tail % e) % e
      (({ v with nextId := v.nextId + 1 }).setRing r.val { x with
        tail := value.toNat
        fetches := x.fetches ++ (if n = 0 then [] else [Fetch.mk v.nextId (x.tail % e)
          ((slots.take n).map (fun (i : BitVec 16 × Packet) => (i.1, { i.2 with src := .ring r }))) false false]) }).issueFetches r.val)) ∧
  (v.reachable .pf0 = true → v.ep.frozen = false → v.ring r.val = x → x.state = .running → value.toNat < e →
    exec (.stHeadDoorbell r value) s = .next (s.withDev <|
      (v.setRing r.val { x with stHead := value.toNat }).skipHeads (.ring r))) ∧
  (v.ep.link = false → exec (.sqTailDoorbell r value slots) s = .next s ∧ exec (.stHeadDoorbell r value) s = .next s) ∧
  (v.ep.link = true → v.reachable .pf0 = false → exec (.sqTailDoorbell r value slots) s = .next (s.withDev <|
    v.answerUr .pf0 (r.val * 0x1000)) ∧ exec (.stHeadDoorbell r value) s = .next (s.withDev <| v.answerUr .pf0 (r.val * 0x1000 + 4))) ∧
  (v.reachable .pf0 = true → v.ring r.val = x → x.state ≠ .running → exec (.sqTailDoorbell r value slots) s = .next s) ∧
  (v.ring r.val = x → x.state ≠ .running →
    exec (.ringDmaFault r) s = .next s ∧ exec (.ringIntTimer r) s = .next s) ∧
  (v.ring r.val = x → x.state = .running → v.strokesDue r.val = true → exec (.ringIntTimer r) s = .next (s.withDev <|
    (v.setRing r.val { x with counted := 0, firstAt := none }).raiseVec .pf0 r.val)) ∧
  (v.ring r.val = x → x.state = .running → exec (.ringDmaFault r) s = .next (s.withDev <| v.ringError r.val 3)) ∧
  (v.ring r.val = x → x.state = .draining → v.floder.cmds = [] → exec (.ringDrained r) s = .next (s.withDev <|
    v.setRing r.val { x with state := .disabled }))) ∧
  (∀ (v : Dev) (r : Fin 256) (code : Nat),
  let w := v.ringError r.val code
  (w.ring r.val).state = .error ∧ (w.ring r.val).errCode = code ∧ (w.ring r.val).slots = [] ∧ (w.ring r.val).fetches = [] ∧
  (∀ q, q ≠ r.val → w.ring q = v.ring q) ∧
  (Out.msix .pf0 r.val ∈ w.out ∨ r.val ∈ w.ep.pf0.pba) ∧
  (∀ x ∈ w.floder.replies, x.src ≠ .ring r) ∧
  w.hosts = v.hosts ∧ w.store = v.store ∧ w.chip = v.chip ∧ w.regs = v.regs)

/-- R395, R398, R404: the oldest reply of a source is written: of a ring into slot n with its phase, of the mailbox at
once; one that may not be issued waits. -/
def Obligations.RepliesAreWritten : Prop := ∀ (s : State) (r : Fin 256) (x : Reply),
  let v := s.dev
  (v.floder.replies.find? (fun y => v.sameSource y.src .mailbox) = some x → x.src = .mailbox →
    exec (.floderReplyWrite .mailbox) s = .next (s.withDev <|
      { v with floder := { v.floder with replies := dropFirst (fun y => y == x) v.floder.replies }
               out := v.out ++ [.mailbox x] })) ∧
  (∀ src, v.floder.replies.find? (fun y => v.sameSource y.src src) = none → exec (.floderReplyWrite src) s = .next s) ∧
  (v.floder.replies.find? (fun y => v.sameSource y.src (.ring r)) = some x → x.src = .ring r → v.epCanIssue .pf0 = false →
    exec (.floderReplyWrite (.ring r)) s = .next s) ∧
  (v.floder.replies.find? (fun y => v.sameSource y.src (.ring r)) = some x → x.src = .ring r → v.epCanIssue .pf0 = true →
    ∃ u : Dev, exec (.floderReplyWrite (.ring r)) s = .next (s.withDev <| u.skipHeads (.ring r)) ∧
      (Out.reply r.val (BitVec.ofNat 64 (v.stBase r.val + 32 * ((v.ring r.val).n % v.ringEntries r.val)))
        (x.bytes ((v.ring r.val).n / v.ringEntries r.val % 2 == 0))) ∈ u.out ∧ (x.data ≠ [] → Out.dataOut x.ptr x.data ∈ u.out) ∧
      (u.ring r.val).n = (v.ring r.val).n + 1 ∧ u.floder.replies = dropFirst (fun y => y == x) v.floder.replies ∧
      u.hosts = v.hosts ∧ u.store = v.store ∧ u.chip = v.chip ∧ u.regs = v.regs)

/-- R424 to R426, R430: link, freeze, release and failover of the endpoint. R427 to R429, R95: reads and their tags, Bus
Master Enable, FLR and the resets of the endpoint. -/
def Obligations.EndpointEvents : Prop :=
  (∀ (s : State) (a b : Fin 16) (c : FreezeCause) (h : BitVec 32) (value : Word),
  let v := s.dev
  ((v.mode = .survey ∨ v.mode = .service ∨ v.mode = .degraded) → v.ep.link = false → v.ep.failing = none → v.sec.p3 = false →
    ∃ u : Dev, exec (.epLinkUp a b) s = .next (s.withDev <| u.epResume) ∧ u.ep.link = true ∧ u.ep.speed = a.val ∧ u.ep.width = b.val ∧
      u.hosts = v.hosts ∧ u.store = v.store ∧ u.chip = v.chip ∧ u.regs = v.regs ∧ u.floder = v.floder) ∧
  (v.ep.link = true → exec (.epLinkUp a b) s = .next s) ∧
  (v.ep.link = true → c ≠ .surpriseDown → v.floder.rings = [] → exec (.epAerUncorrectable c h) s = .next (s.withDev <|
    ({ v with
      ep := { v.ep with frozen := true, releaseReq := false, freezeBell := v.clk.elapsed
                        cause := if v.ep.frozen = true then v.ep.cause else freezeCode c }
      pmon := { v.pmon with snap := { v.pmon.snap with pendingWrites := [] } } }).fault 0x0E1 v.epRegion 0 (freezeCode c) h.toNat
        (v.ep.pf0.tags.length + v.ep.pf1.tags.length))) ∧
  (v.reachable .pf0 = true → v.ep.pf1.flr = none → value.getLsbD 0 = true → v.ep.frozen = true → v.ep.freezeBell ≠ v.clk.elapsed →
    exec (.epFreezeRelease value) s = .next (s.withDev <| { v with ep := { v.ep with releaseReq := true } })) ∧
  (v.reachable .pf0 = true → value.getLsbD 0 = false → exec (.epFreezeRelease value) s = .next s) ∧
  (∀ n, v.ep.failing = some n → v.ep.driving = false → n + 1 ≤ v.clk.elapsed → exec .epFailover s = .next (s.withDev <|
    { v.retag with ep := { v.retag.ep with driving := true } })) ∧
  (∀ n, v.ep.failing = some n → v.ep.driving = true → v.floder.rings = [] → ∃ t, exec .epFailoverComplete s = .next t ∧
    t.pending = s.pending ∧ t.dev.ep.link = true ∧ t.dev.ep.keepB = true ∧ t.dev.ep.failing = none ∧ t.dev.ep.driving = false ∧
    t.dev.ep.failovers = (v.ep.failovers + 1) % 256 ∧ t.dev.hosts = v.hosts ∧ t.dev.store = v.store ∧ t.dev.chip = v.chip ∧
    t.dev.regs = v.regs)) ∧
  (∀ (s : State) (pf : Pf) (tag : BitVec 14) (st : CplStatus) (f : Func) (why : MasterOff),
  let v := s.dev
  (v.func pf = f → f.tags = [] → f.quarantine = [] → exec (.epCompletion pf tag st) s = .next (s.withDev <|
    { v with ep := { v.ep with unexpected := v.ep.unexpected + 1 } })) ∧
  (∀ cmd since, v.ep.pf0 = f → f.tags = [⟨tag.toNat, since, .data cmd, false⟩] → v.ep.frozen = false → v.floder.rings = [] →
    exec (.epCompletion .pf0 tag .good) s = .next (s.withDev <|
      { v with ep := { v.ep with pf0 := { f with tags := [] } }
               floder := { v.floder with cmds := v.floder.cmds.map (fun (x : Cmd) =>
                 if x.id = cmd ∧ x.data = .reading then { x with data := .ready } else x) } })) ∧
  (v.func pf = f → f.tags = [] → exec (.epCompletionTimeout pf tag) s = .next s) ∧
  (∀ r, v.func pf = f → f.tags.find? (fun y => y.tag == tag.toNat) = some r → r.since + v.cto ≤ v.clk.elapsed →
    ∃ t, exec (.epCompletionTimeout pf tag) s = .next t ∧ t.pending = s.pending ∧
      (tag.toNat, v.clk.elapsed) ∈ (t.dev.func pf).quarantine ∧ t.dev.store = v.store ∧ t.dev.chip = v.chip ∧ t.dev.regs = v.regs) ∧
  (∀ since, v.func pf = f → f.quarantine = [(tag.toNat, since)] → since + 4 * v.cto ≤ v.clk.elapsed → v.floder.rings = [] →
    exec (.epTagQuarantineEnd pf tag) s = .next (s.withDev <| v.setFunc pf { f with quarantine := [] })) ∧
  (v.func .pf1 = f → f.flr = none → exec (.busMasterDisable .pf1 .busMaster) s = .next (s.withDev <|
    v.setFunc .pf1 { f with busMaster := false, tags := f.tags.map (fun (r : EpRead) => { r with drop := true }) })) ∧
  (v.func pf = f → f.flr.isSome = true → exec (.busMasterDisable pf why) s = .next s ∧ exec (.busMasterEnable pf) s = .next s ∧
    exec (.flr pf) s = .next s) ∧
  (v.func pf = f → f.flr = none → v.ep.link = true → f.pba = [] → v.floder.rings = [] → exec (.busMasterEnable pf) s = .next (s.withDev <|
    v.setFunc pf { f with busMaster := true, memSpace := true, d3hot := false })) ∧
  (v.func .pf1 = f → f.flr = none → v.ep.link = true → exec (.flr .pf1) s = .next (s.withDev <|
    v.setFunc .pf1 { f with flr := some v.clk.elapsed, tags := f.tags.map (fun (r : EpRead) => { r with drop := true }) })) ∧
  (∀ n, v.func .pf1 = f → f.flr = some n → f.tags = [] → exec (.flrComplete .pf1) s = .next (s.withDev <|
    (v.setFunc .pf1 { Func.reset with quarantine := f.quarantine }).raiseVec .pf0 258)) ∧
  (∀ n, v.func .pf0 = f → f.flr = some n → f.tags = [] → ∃ t, exec (.flrComplete .pf0) s = .next t ∧ t.pending = s.pending ∧
    t.dev.ep.pf0 = { Func.reset with quarantine := f.quarantine } ∧ t.dev.floder.rings = [] ∧
    (∀ o, 0xC00000 ≤ o → o < 0xD00000 → t.dev.cfg o = cfgReset o) ∧ (∀ o, (o < 0xC00000 ∨ 0xD00000 ≤ o) → t.dev.cfg o = v.cfg o)) ∧
  (∀ kind, v.mode ≠ .held → v.ep.link = false → ∃ t, exec (.epReset kind) s = .next t ∧ t.pending = s.pending ∧
    t.dev.ep.pf0 = Func.reset ∧ t.dev.ep.pf1 = Func.reset ∧ t.dev.floder.rings = [] ∧ t.dev.ep.frozen = v.ep.frozen ∧
    t.dev.pmon.snap.pendingWrites = [] ∧ t.dev.store = v.store ∧ t.dev.chip = v.chip))

/-- R293, R301, R304, R297: the timed events of a port: policing returns to METER mode, the gate entry of the bell
applies, a committed gate list waits for bell 0 of a peal, and PFC stops classes for their quanta. The length of a PFC
quantum is PRESUMED (assumption log 15). -/
def Obligations.PortTiming : Prop := ∀ (s : State) (port : Port) (sub : Sub) (quanta : List (Nat × Nat)) (q : Nat × Nat),
  let v := s.dev
  let n := port.val
  (v.atPeal = true → (v.port n).policer = true → v.boundQps n ≤ 960 → v.policeForce n = false →
    ∃ u : Dev, exec (.policerModeReturn port) s = .next (s.withDev u) ∧ (u.port n).policer = false ∧
      (∀ e ∈ v.hosts.qps, e.2.port = port → (e.1, { e.2 with tpIn := e.2.profile.pbs * 65536 }) ∈ u.hosts.qps) ∧
      (∀ e ∈ v.hosts.qps, e.2.port ≠ port → e ∈ u.hosts.qps) ∧ (∀ m, m ≠ n → u.port m = v.port m) ∧
      u.store = v.store ∧ u.chip = v.chip ∧ u.regs = v.regs ∧ u.ep = v.ep ∧ u.floder = v.floder) ∧
  ((v.policeForce n = true ∨ 960 < v.boundQps n ∨ v.atPeal = false) → exec (.policerModeReturn port) s = .next s) ∧
  (∀ i m d t, v.gateEn n sub.val = true → segsFrom (v.gateSegs n sub.val v.clk.pealLen) v.nearBell = (i, m, d) :: t →
    exec (.gateEntryAdvance port sub) s = .next (s.withDev <|
      v.setEg n sub.val { v.eg n sub.val with entry := i, left := d })) ∧
  (v.gateEn n sub.val = false → exec (.gateEntryAdvance port sub) s = .next (s.withDev <|
    v.setEg n sub.val { v.eg n sub.val with entry := none, left := 0 })) ∧
  (v.atPeal = false → exec (.gateListSwitch port sub) s = .next s) ∧
  (∀ d, v.atPeal = true → (v.page (subBase n sub.val + 0x1000)).due = some d → v.atBell d = true →
    ∃ u : Dev, exec (.gateListSwitch port sub) s = .next (s.withDev u) ∧
      (u.eg n sub.val).gateVer = (v.eg n sub.val).gateVer + 1 ∧
      (∀ f ∈ (u.eg n sub.val).queue, f ∈ (v.eg n sub.val).queue) ∧ u.store = v.store ∧ u.chip = v.chip ∧ u.ep = v.ep ∧
      u.floder = v.floder ∧ u.hosts.qps = v.hosts.qps ∧ u.hosts.sessions = v.hosts.sessions) ∧
  (v.linkUp n sub.val = true → v.chip.frozenIn = false → exec (.pfcReceive port sub [q]) s = .next (s.withDev <|
    (v.received n 64).setEg n sub.val { v.eg n sub.val with
      paused := Tab.set (v.eg n sub.val).paused (q.1 % 8)
        (v.mono + ceilDiv (q.2 % 65536 * 512) (lineRate (v.port n).breakout)) })) ∧
  (v.linkUp n sub.val = false → exec (.pfcReceive port sub quanta) s = .next s) ∧
  ((v.port n).pfcSent = true → v.atBell ((v.port n).pfcAt + 64) = true →
    v.cfgBits (portBase n + 0x00C) 15 0 * 1024 < v.ingressBytes n (pfcPrios (v.cfgBits (portBase n + 0x004) 15 8)) →
    exec (.pfcRefresh port) s = .next (s.withDev <|
      (v.setPort n { v.port n with pfcAt := v.now }).sendPfc n (pfcPrios (v.cfgBits (portBase n + 0x004) 15 8)) 0xFFFF)) ∧
  ((v.port n).pfcSent = false → exec (.pfcRefresh port) s = .next s)

/-- R299, R303: a transmit opportunity sends the frame chosen and debits the buckets of its class by the cost of R290; a
frame that no window of its class has room for is dropped when it comes to its queue, and counted. R299, R300, R302:
the head frame of a class is a queued frame of it that its queue pair lets go; of the eligible classes (gate open, not
paused, peak bucket not negative) the highest one within its committed rate sends, else the highest one; and nothing
is sent only when no class is eligible. -/
def Obligations.Transmission : Prop :=
  (∀ (s : State) (port : Port) (sub : Sub) (f : Frame),
  let v := s.dev
  let n := port.val
  let e := v.eg n sub.val
  (v.transportOn = true → v.linkUp n sub.val = true → v.chooseFrame n sub.val = some f →
    ∃ u : Dev, exec (.transmitOpportunity port sub) s = .next (s.withDev u) ∧ (Out.frame port sub f) ∈ u.out ∧
      (u.eg n sub.val).queue = dropFirst (fun (x : Frame) => x == f) e.queue ∧
      (v.shapeEn n sub.val f.cls = true → Tab.get (u.eg n sub.val).peak f.cls =
        some (v.peakOf n sub.val f.cls e - (f.len + 20) * 65536) ∧ Tab.get (u.eg n sub.val).commit f.cls =
        some (v.commitOf n sub.val f.cls e - (f.len + 20) * 65536)) ∧
      (v.shapeEn n sub.val f.cls = false → (u.eg n sub.val).peak = e.peak ∧ (u.eg n sub.val).commit = e.commit) ∧
      (f.qp = none → u.hosts.qps = v.hosts.qps) ∧ u.hosts.sessions = v.hosts.sessions ∧ u.store = v.store ∧ u.chip = v.chip ∧
      u.regs = v.regs ∧ u.ep = v.ep ∧ u.floder = v.floder) ∧
  (v.gateAdmits n sub.val f = true → ((v.enqueue n sub.val f).eg n sub.val).queue = e.queue ++ [f]) ∧
  (v.gateAdmits n sub.val f = false → v.enqueue n sub.val f = v.countPort n 0x014 1) ∧
  (v.chooseFrame n sub.val = none → exec (.transmitOpportunity port sub) s = .next s) ∧
  (v.linkUp n sub.val = false → exec (.transmitOpportunity port sub) s = .next s)) ∧
  (∀ (v : Dev) (n k : Nat),
  let e := v.eg n k
  let eligible := fun (c : Nat) (g : Frame) => v.headFrame e c = some g ∧ v.gateAllows n k g = true ∧
    Tab.getD e.paused c 0 ≤ v.mono ∧ (v.shapeEn n k c = true → 0 ≤ v.peakOf n k c e)
  let committed := fun (c : Nat) => v.shapeEn n k c = false ∨ 0 ≤ v.commitOf n k c e
  (∀ c g, v.headFrame e c = some g → g ∈ e.queue ∧ g.cls = c ∧ v.qpPasses g = true) ∧
  (∀ f, v.chooseFrame n k = some f → ∃ c, c < 8 ∧ eligible c f ∧
    (∀ c' g, c < c' → c' < 8 → eligible c' g → ¬ committed c') ∧
    (committed c ∨ ∀ c' g, c' < 8 → eligible c' g → c' ≤ c ∧ ¬ committed c')) ∧
  (v.chooseFrame n k = none → ∀ c g, c < 8 → ¬ eligible c g))

/-- R220, R221, R225, R229, R239: connection management: a REQ that a check refuses is answered with the reject code of
that check; an RTU makes a PENDING path LIVE; a path that gets none is released, and so is one a DREQ ends. R221: the
reject codes, in the order of the checks. R220, R221, R225, R229: a REQ that passes every check binds a queue pair on
the lowest free number and a PENDING path on the lowest free index, and is answered with a REP that tells the host
both, in the class LOCAL_TC (R298). Which free numbers are taken is the model's choice (assumption log 20). -/
def Obligations.ConnectionManagement : Prop :=
  (∀ (s : State) (r : CmReq) (qp len : Nat) (port : Port) (sub : Sub) (a : BitVec 32),
  let v := s.dev
  (∀ c, v.transportOn = true → v.linkUp r.port.val r.sub.val = true → v.rejectCode r = some c →
    exec (.cmReq r) s = .next (s.withDev <| (v.received r.port.val (cmLen r.ipv6)).sendLocal r.port.val r.sub.val r.ipv6
      (.rej (leBytes 4 0x31505856 ++ [c])))) ∧
  (v.transportOn = false → exec (.cmReq r) s = .next s ∧ exec (.cmRtu qp) s = .next s ∧ exec (.cmDreq qp) s = .next s) ∧
  (∀ sn, v.transportOn = true → v.sessionOf qp = some sn → v.pathState qp = some .pending →
    exec (.cmRtu qp) s = .next (s.withDev <|
      ((((v.receivedAbout qp).adjSession sn (fun x => x.adjPath qp (fun y => { y with state := .live }))).takeProtLease qp).reissue sn))) ∧
  (v.pathState qp ≠ some .pending → exec (.cmRtu qp) s = .next s ∧ exec (.pendingPathRelease qp) s = .next s) ∧
  (v.pathState qp = some .pending → exec (.pendingPathRelease qp) s = .next (s.withDev <| v.releaseQp qp)) ∧
  (∀ q, v.transportOn = true → v.qp qp = some q → exec (.cmDreq qp) s = .next (s.withDev <|
    ((v.received q.port.val (cmLen q.ipv6)).releaseQp qp).sendLocal q.port.val q.sub.val q.ipv6 (.drep qp))) ∧
  (v.transportOn = true → v.linkUp port.val sub.val = true → Tab.get (v.port port.val).ipv4 sub.val = some a →
    exec (.arpNdRequest port sub (.v4 a)) s = .next (s.withDev <|
      (v.received port.val 64).sendLocal port.val sub.val false (.arpReply (.v4 a)))) ∧
  (v.transportOn = true → v.linkUp port.val sub.val = true → Tab.get (v.port port.val).ipv4 sub.val ≠ some a →
    exec (.arpNdRequest port sub (.v4 a)) s = .next (s.withDev <| v.received port.val 64)) ∧
  (v.linkUp port.val sub.val = true → v.chip.frozenIn = false →
    exec (.unsupportedFrame port len) s = .next (s.withDev <| (v.received port.val len).countPort port.val 0x01B 1))) ∧
  (∀ (v : Dev) (r : CmReq) (x : Session) (d : ClaimDesc),
  (v.chip.drain.offReady = true → v.rejectCode r = some 0x07) ∧
  (v.chip.drain.offReady = false → (r.serviceId ≠ 0x5856 ∨ r.rc = false ∨ r.mtu < 1024) → v.rejectCode r = some 0x05) ∧
  (v.chip.drain.offReady = false → r.serviceId = 0x5856 → r.rc = true → 1024 ≤ r.mtu →
    (r.priv.length < 40 ∨ r.magic ≠ 0x31505856 ∨ r.version ≠ 1 ∨ r.sessionWord.toNat / 8192 ≠ 0 ∨ r.rsvd10 ≠ 0 ∨ r.rsvd36 ≠ 0 ∨ r.tailZero = false) →
    v.rejectCode r = some 0x09) ∧
  (v.chip.drain.offReady = false → r.serviceId = 0x5856 → r.rc = true → 1024 ≤ r.mtu → joinOk r = true →
    (v.session (r.sessionWord.toNat % 8192) = none → v.rejectCode r = some 0x01) ∧
    (v.session (r.sessionWord.toNat % 8192) = some x →
      (x.cookie ≠ r.cookie → v.rejectCode r = some 0x01) ∧
      (x.cookie = r.cookie → (v.claimDesc x.claim = none ∨ v.claimDesc x.claim = some d ∧ d.enable = false) →
        v.rejectCode r = some 0x08) ∧
      (x.cookie = r.cookie → v.claimDesc x.claim = some d → d.enable = true →
        v.heldOn x (r.port.val / 2) = none → x.maxPaths ≤ x.paths.length → v.rejectCode r = some 0x02) ∧
      (x.cookie = r.cookie → v.claimDesc x.claim = some d → d.enable = true →
        v.heldOn x (r.port.val / 2) = none → x.paths.length < x.maxPaths →
        (∃ p ∈ x.paths, p.state ≠ .held ∧ v.pathHome p = r.port.val / 2) → v.rejectCode r = some 0x03)))) ∧
  (∀ (s : State) (r : CmReq) (x : Session),
  let v := s.dev
  let sn := r.sessionWord.toNat % 8192
  v.transportOn = true → v.linkUp r.port.val r.sub.val = true → v.rejectCode r = none → v.session sn = some x →
  v.heldOn x (r.port.val / 2) = none →
  ∃ (u : Dev) (p : Path) (a : Nat), exec (.cmReq r) s = .next (s.withDev u) ∧
    p.qp = Tab.freeKey v.hosts.qps ∧ p.state = .pending ∧ p.rkey = r.ringRkey ∧ p.idx = x.freeIndex.getD 0 ∧
    (∃ y, u.session sn = some y ∧ y.paths = x.paths ++ [p] ∧ y.floor = x.floor ∧ y.nextSeq = x.nextSeq ∧
      (x.paths = [] → y.ringVa = r.ringVa ∧ y.ringEntries = r.ringEntries.toNat)) ∧
    (∃ q, u.qp p.qp = some q ∧ q.session = sn ∧ q.port = r.port ∧ q.sub = r.sub ∧ q.mtu = min r.mtu 4096 ∧ q.rxPsn = r.startPsn) ∧
    (∀ f : Frame, f = v.localFrame r.port.val r.sub.val r.ipv6 (.rep p.qp (repBytes p.qp (r.port.val / 2) a p.idx x.floor x.nextSeq)) →
      v.gateAdmits r.port.val r.sub.val f = true → f ∈ (u.eg r.port.val r.sub.val).queue) ∧ u.out = v.out ∧
    u.store = v.store ∧ u.chip = { v.chip with spires := u.chip.spires } ∧ u.regs = v.regs ∧ u.ep = v.ep ∧ u.floder = v.floder)

/-- R219, R222, R223, R292: what an arriving request packet does before its message counts: on a queue pair that is not
ready nothing; a duplicate is acknowledged again; one ahead of the expected PSN is answered once with a sequence NAK;
one that is no SEND is refused; a capsule for which the limits leave no slot is answered with an RNR NAK (R135). R222,
R223, R255, R297: a SEND in order within the limits moves the expected PSN by one and, when it is the last of its
message, delivers the message; the port's PFC follows. -/
def Obligations.RequestPackets : Prop :=
  (∀ (s : State) (p : ReqPacket) (q q1 : Qp),
  let v := s.dev
  let w := v.packetSeen p.qp q p.cost p.ce
  (v.qpReady p.qp = false → exec (.requestPacket p) s = .next s) ∧
  (v.qpReady p.qp = true → v.qp p.qp = some q → w.qp p.qp = some q1 → (w.policed p.qp q1 p.cost p.bytes).2 = false →
    exec (.requestPacket p) s = .next (s.withDev <| (w.policed p.qp q1 p.cost p.bytes).1)) ∧
  (v.qpReady p.qp = true → v.qp p.qp = some q → w.qp p.qp = some q1 → (w.policed p.qp q1 p.cost p.bytes).2 = true →
    p.psn ≠ q.rxPsn → serialBefore (2 ^ 24) p.psn.toNat q.rxPsn.toNat = true →
    exec (.requestPacket p) s = .next (s.withDev <| (w.policed p.qp q1 p.cost p.bytes).1.respond p.qp (.ack (q.mirrorPsn - 1)))) ∧
  (v.qpReady p.qp = true → v.qp p.qp = some q → w.qp p.qp = some q1 → (w.policed p.qp q1 p.cost p.bytes).2 = true →
    p.psn ≠ q.rxPsn → serialBefore (2 ^ 24) p.psn.toNat q.rxPsn.toNat = false → q.nakSent = false →
    exec (.requestPacket p) s = .next (s.withDev <|
      ((w.policed p.qp q1 p.cost p.bytes).1.adjQp p.qp (fun x => { x with nakSent := true })).respond p.qp (.nakSequence q.rxPsn))) ∧
  (v.qpReady p.qp = true → v.qp p.qp = some q → w.qp p.qp = some q1 → (w.policed p.qp q1 p.cost p.bytes).2 = true →
    p.psn ≠ q.rxPsn → serialBefore (2 ^ 24) p.psn.toNat q.rxPsn.toNat = false → q.nakSent = true →
    exec (.requestPacket p) s = .next (s.withDev <| (w.policed p.qp q1 p.cost p.bytes).1)) ∧
  (v.qpReady p.qp = true → v.qp p.qp = some q → w.qp p.qp = some q1 → (w.policed p.qp q1 p.cost p.bytes).2 = true →
    p.psn = q.rxPsn → p.op = .send → p.first = true → p.last = false → v.mode ≠ .drain →
    (w.policed p.qp q1 p.cost p.bytes).1.noSlot p.qp = true → exec (.requestPacket p) s = .next (s.withDev <|
      (((w.policed p.qp q1 p.cost p.bytes).1.respond p.qp (.rnrNak p.psn (v.spireCfg q.home.val 6 0x30010 12 8))).countPort
        q.port.val 0x01A 1))) ∧
  (v.qpReady p.qp = true → v.qp p.qp = some q → w.qp p.qp = some q1 → (w.policed p.qp q1 p.cost p.bytes).2 = true →
    p.psn = q.rxPsn → (∀ i, p.op ≠ .sendImm i) → p.op ≠ .send → exec (.requestPacket p) s = .next (s.withDev <|
      (((w.policed p.qp q1 p.cost p.bytes).1.adjQp p.qp (fun x => { x with rxPsn := x.rxPsn + 1, nakSent := false })).respond p.qp
        (.nakInvalid p.psn))))) ∧
  (∀ (s : State) (p : ReqPacket) (q q1 : Qp) (w2 : Dev),
  let v := s.dev
  let w := v.packetSeen p.qp q p.cost p.ce
  v.qpReady p.qp = true → v.qp p.qp = some q → w.qp p.qp = some q1 → w.policed p.qp q1 p.cost p.bytes = (w2, true) →
  p.psn = q.rxPsn → p.op = .send → w2.noSlot p.qp = false → exec (.requestPacket p) s = .next (s.withDev <|
    let w3 := w2.adjQp p.qp (fun x => { x with rxPsn := x.rxPsn + 1, nakSent := false })
    (if p.last = true then w3.deliver q.session p else w3).pfcCheck q.port.val))

/-- R222, R230, R232, R234, R235, R239, R241: the requester side: ACK, timeout, CNP and RNR. An ACK lets packets that
waited for the window go; after a timeout or an RNR NAK the unacknowledged packets are sent again under their PSNs.
R234: the congestion window: with the control off it is the largest; with a round trip within the target it grows,
never past the largest; above the target it falls at most to half and never below one MTU. R234: request packets that
wait go as far as the window has room: those sent take consecutive PSNs, the others stay in order, and what is
unacknowledged never exceeds the window; of a path that is not LIVE nothing goes (R237). Divisions round down
(assumption log 17); the use of the timeout is literal (assumption log 21). -/
def Obligations.RequesterEvents : Prop :=
  (∀ (s : State) (qp : Nat) (psn : BitVec 24) (q : Qp) (u : Unacked) (rest : List Unacked),
  let v := s.dev
  let rx := fun (n : Nat) => v.received q.port.val (roceLen q.ipv6 n)
  (v.qp qp = some q → v.qpReady qp = true → serialBefore (2 ^ 24) psn.toNat q.rxPsn.toNat = true →
    serialBefore (2 ^ 24) psn.toNat q.mirrorPsn.toNat = false → exec (.mirrorContextHeld qp psn) s = .next (s.withDev <|
      (v.adjQp qp (fun x => { x with mirrorPsn := psn + 1, ackedPsn := psn + 1 })).respond qp (.ack psn))) ∧
  (∀ l, v.qp qp = some q → v.qpReady qp = true → (coveredBy psn q.unacked).getLast? = some l → l.psn = psn →
    exec (.ackReceive qp psn) s = .next (s.withDev <|
      (((rx 4).setQp qp (v.congestion { q with unacked := q.unacked.drop (coveredBy psn q.unacked).length, retries := 0, rnrRetries := 0 }
        (v.mono - l.sentAt) (sumMap (·.bytes) (coveredBy psn q.unacked)))).adjSession q.session
          (fun x => x.acked qp (coveredBy psn q.unacked))).launchQp qp)) ∧
  (v.qp qp = some q → v.qpReady qp = true → coveredBy psn q.unacked = [] → exec (.ackReceive qp psn) s = .next (s.withDev <| rx 4)) ∧
  (v.qp qp = some q → q.unacked = u :: rest → v.qpReady qp = true → u.sentAt + v.ackTimeoutNs q.home.val ≤ v.mono →
    (v.spireCfg q.home.val 6 0x30010 23 21 ≤ q.retries → exec (.ackTimeout qp) s = .next (s.withDev <| v.faultQp qp)) ∧
    (q.retries < v.spireCfg q.home.val 6 0x30010 23 21 → exec (.ackTimeout qp) s = .next (s.withDev <|
      (v.setQp qp { q with retries := q.retries + 1
                           unacked := q.unacked.map (fun (x : Unacked) => { x with sentAt := v.mono }) }).resend qp (fun _ => true)))) ∧
  (v.qp qp = some q → q.unacked = [] → exec (.ackTimeout qp) s = .next s) ∧
  (v.qp qp = some q → v.qpReady qp = true → v.spireCfg q.home.val 6 0x3000C 31 31 = 0 →
    exec (.cnpReceive qp) s = .next (s.withDev <|
      ((rx 16).countPort q.port.val 0x019 1).setQp qp { q with cnpCount := q.cnpCount + 1 })) ∧
  (v.qp qp = some q → v.qpReady qp = true → (∃ y ∈ q.unacked, y.psn = psn) →
    (v.spireCfg q.home.val 6 0x30010 15 13 ≠ 7 → v.spireCfg q.home.val 6 0x30010 15 13 ≤ q.rnrRetries →
      exec (.hostRnrNak qp psn) s = .next (s.withDev <| (rx 4).faultQp qp)) ∧
    ((v.spireCfg q.home.val 6 0x30010 15 13 = 7 ∨ q.rnrRetries < v.spireCfg q.home.val 6 0x30010 15 13) →
      exec (.hostRnrNak qp psn) s = .next (s.withDev <|
        ((rx 4).setQp qp { q with rnrRetries := q.rnrRetries + 1 }).resend qp
          (fun y => !(serialBefore (2 ^ 24) y.psn.toNat psn.toNat))))) ∧
  (v.qpReady qp = false → exec (.mirrorContextHeld qp psn) s = .next s ∧ exec (.ackReceive qp psn) s = .next s ∧
    exec (.ackTimeout qp) s = .next s ∧ exec (.cnpReceive qp) s = .next s ∧ exec (.hostRnrNak qp psn) s = .next s)) ∧
  (∀ (v : Dev) (q : Qp) (rtt acked : Nat),
  let c := v.congestion q rtt acked
  let on := v.spireCfg q.home.val 6 0x3000C 31 31 = 1
  (v.spireCfg q.home.val 6 0x3000C 31 31 = 0 → c.wnd = v.maxWnd q.home.val q.mtu ∧ c.pacing = none) ∧
  (on → rtt ≤ v.spireCfg q.home.val 6 0x30004 15 0 → q.wnd ≤ v.maxWnd q.home.val q.mtu →
    q.wnd ≤ c.wnd ∧ c.wnd ≤ v.maxWnd q.home.val q.mtu ∧ c.lastDecrease = q.lastDecrease) ∧
  (on → v.spireCfg q.home.val 6 0x30004 15 0 < rtt → q.mtu ≤ q.wnd →
    q.mtu ≤ c.wnd ∧ q.wnd / 2 ≤ c.wnd ∧ c.wnd ≤ q.wnd) ∧
  (q.srtt = none → c.srtt = some rtt) ∧ (∀ x, q.srtt = some x → c.srtt = some ((7 * x + rtt) / 8)) ∧
  c.unacked = q.unacked ∧ c.rxPsn = q.rxPsn ∧ c.txPsn = q.txPsn ∧ c.session = q.session) ∧
  (∀ (v : Dev) (n : Nat) (q : Qp), v.qp n = some q →
  (v.pathState n ≠ some .live → v.launchQp n = v) ∧
  (v.pathState n = some .live → ∃ (z : Qp) (k : Nat), (v.launchQp n).qp n = some z ∧ z.waiting = q.waiting.drop k ∧
    z.txPsn = q.txPsn + BitVec.ofNat 24 k ∧ k ≤ q.waiting.length ∧ z.unacked.length = q.unacked.length + k ∧ z.wnd = q.wnd ∧
    (∀ i u, z.unacked[q.unacked.length + i]? = some u → u.psn = q.txPsn + BitVec.ofNat 24 i) ∧
    (q.unackedBytes ≤ q.wnd → z.unackedBytes ≤ z.wnd) ∧
    (∀ f, z.waiting.head? = some f → z.wnd < z.unackedBytes + f.what.payload)))

/-- R236 to R238: a network port that goes down flushes its queue, counts the frames flushed, holds its paths and raises
NET_LINK, whose first argument is a free value; one that comes up again brings its HELD paths back; a path held for
PATH_HOLD_PEALS is released. Every one of these events has its whole effect under the conditions named, and none
otherwise. The first argument of NET_LINK is a free value (assumption log 13). -/
def Obligations.LinkEvents : Prop := ∀ (s : State) (port : Port) (sub : Sub) (qp sn : Nat) (x : Session) (p : Path),
  let v := s.dev
  let n := port.val
  let lost := (v.eg n sub.val).queue.length
  let down := (v.setPort n { v.port n with linkUp := (v.port n).linkUp &&& ~~~(BitVec.ofNat 4 (2 ^ sub.val)) }).downPort n sub.val
  ((v.port n).subUp sub.val = true → sub.val < subCount (v.port n).breakout →
    exec (.netLinkDown port sub) s = .next (s.withDev <|
      Dev.fault down.free32.2 0x030 (n / 2) (n * 4 + sub.val) down.free32.1.toNat lost 0) ∧
    ((∀ e ∈ v.hosts.sessions, ∀ a ∈ e.2.paths, ∀ b ∈ e.2.paths, a.qp ∈ v.qpsOn n sub.val → b.qp ∈ v.qpsOn n sub.val → a = b) →
      (down.eg n sub.val).queue = []) ∧ (down.port n).flushes = (v.port n).flushes + lost ∧
    (down.port n).linkUp = (v.port n).linkUp &&& ~~~(BitVec.ofNat 4 (2 ^ sub.val)) ∧
    (∀ q ∈ v.qpsOn n sub.val, down.pathState q ≠ some .live)) ∧
  (((v.port n).subUp sub.val = false ∨ subCount (v.port n).breakout ≤ sub.val) → exec (.netLinkDown port sub) s = .next s) ∧
  (sub.val < subCount (v.port n).breakout → v.spireUp (n / 2) = true → v.mode ≠ .held →
    exec (.netLinkUp port sub) s = .next (s.withDev <|
      (v.setPort n { v.port n with linkUp := (v.port n).linkUp ||| BitVec.ofNat 4 (2 ^ sub.val) }).upPaths n sub.val)) ∧
  ((subCount (v.port n).breakout ≤ sub.val ∨ v.spireUp (n / 2) = false ∨ v.mode = .held) →
    exec (.netLinkUp port sub) s = .next s) ∧
  (v.transportOn = true → v.linkUp n sub.val = true →
    v.upPaths n sub.val = (v.qpsOn n sub.val).foldl (fun y q => y.restorePath q) v) ∧
  (v.sessionOf qp = some sn → v.session sn = some x → x.pathOf qp = some p → p.state = .held →
    p.heldAt + x.pathHold * pealBells ≤ v.clk.aging → exec (.pathHoldExpire qp) s = .next (s.withDev <| v.releaseQp qp)) ∧
  (v.sessionOf qp = some sn → v.session sn = some x → x.pathOf qp = some p →
    (p.state ≠ .held ∨ v.clk.aging < p.heldAt + x.pathHold * pealBells) → exec (.pathHoldExpire qp) s = .next s)

/-- R239: a queue pair released is gone and its path with it. R224: a close waits for the commands of its session in
flight; then its paths and the session are gone, a DREQ has left on every live path, and the command completes. -/
def Obligations.ReleasedPathsAndSessions : Prop :=
  (∀ (v : Dev) (qp : Nat) (q : Qp), v.qp qp = some q →
  (v.releaseQp qp).qp qp = none ∧
  (∀ x, (v.releaseQp qp).session q.session = some x → ∀ p ∈ x.paths, p.qp ≠ qp) ∧
  (∀ m ∈ (v.releaseQp qp).hosts.inbox, m.msg.qp ≠ qp) ∧ (∀ r ∈ (v.releaseQp qp).hosts.reads, r.qp ≠ qp)) ∧
  (∀ (v : Dev) (sn cmd : Nat) (x : Session), v.session sn = some x → x.closing = some cmd →
  (∀ c ∈ v.floder.cmds, c.id = cmd → ∀ q, c.src ≠ .session q) →
  (0 < v.inFlightSession sn → v.closeSession sn = v) ∧
  (v.inFlightSession sn = 0 → (v.closeSession sn).session sn = none ∧
    (∀ p ∈ x.paths, ∀ q, p.state = .live → v.qp p.qp = some q →
      v.gateAdmits q.port.val q.sub.val (v.localFrame q.port.val q.sub.val q.ipv6 (.dreq p.qp)) = true →
        v.localFrame q.port.val q.sub.val q.ipv6 (.dreq p.qp) ∈ ((v.closeSession sn).eg q.port.val q.sub.val).queue) ∧
    (∀ p ∈ x.paths, (v.closeSession sn).qp p.qp = none) ∧ (∀ c ∈ (v.closeSession sn).floder.cmds, c.id ≠ cmd)))

/-- R230: the consumer word of a session: its count is taken in (a word beyond what the ring can hold is the unchecked
error of R58, and leaves a free value there), and it is read again every 64 bells while fewer than 64 ring entries are
free. R230 to R232, R234, R299: an entry that waits is written with the next sequence number on the path of R231, into
the slot of that number with its latency (R122), and joins those its notification covers; its packet takes the next
PSN and is queued at its class; with no free entry, or no path for it, it waits (the completion of a READ that wrote
data has only the path of its data, R30). R232, R233: a notification that is due carries the count of entries written
and the last sequence number. -/
def Obligations.CompletionRing : Prop :=
  (∀ (s : State) (sn : Nat) (word : BitVec 64) (x : Session) (p : Path),
  let v := s.dev
  (v.transportOn = true → v.session sn = some x → x.consumerBusy = true → word.toNat < 2 ^ 24 →
    (x.nextSeq + 2 ^ 24 - word.toNat) % 2 ^ 24 ≤ x.ringEntries →
    exec (.consumerWordResponse sn word) s = .next (s.withDev <|
      (v.setSession sn { x with consumerBusy := false, consumed := word.toNat }).readAnswered x)) ∧
  (v.transportOn = true → v.session sn = some x → x.consumerBusy = true →
    (2 ^ 24 ≤ word.toNat ∨ x.ringEntries < (x.nextSeq + 2 ^ 24 - word.toNat) % 2 ^ 24) →
    exec (.consumerWordResponse sn word) s = .next (s.withDev <|
      (v.free32.2.setSession sn { x with consumerBusy := false, consumed := v.free32.1.toNat % 2 ^ 24 }).readAnswered x)) ∧
  (v.session sn = some x → x.consumerBusy = false → exec (.consumerWordResponse sn word) s = .next s) ∧
  (v.transportOn = true → v.session sn = some x → x.ringFree < 64 →
    (x.polledAt = none ∨ ∃ t, x.polledAt = some t ∧ v.atBell (t + 64) = true) → x.lowestLive = some p →
    exec (.consumerPollTimer sn) s = .next (s.withDev <|
      (v.setSession sn { x with consumerBusy := true, polledAt := some v.now }).post p.qp
        [.consumerRead p.rkey (x.ringVa + BitVec.ofNat 64 (64 * x.ringEntries))])) ∧
  (v.session sn = some x → 64 ≤ x.ringFree → exec (.consumerPollTimer sn) s = .next s) ∧
  (v.session sn = none → exec (.consumerPollTimer sn) s = .next s ∧ exec (.ringEntryWrite sn) s = .next s ∧
    exec (.consumerWordResponse sn word) s = .next s)) ∧
  (∀ (s : State) (sn : Nat) (x : Session) (b : Built) (rest : List Built) (p : Path) (q : Qp),
  let v := s.dev
  (v.transportOn = true → v.session sn = some x → x.built = b :: rest → x.pathFor b = some p → v.qp p.qp = some q →
    x.ringFree ≠ 0 → (∀ i ∈ x.issued, i.seq % x.ringEntries ≠ x.nextSeq % x.ringEntries) → x.closing = none →
    v.mayPost p.qp (x.entryWire p ⟨x.nextSeq, p.idx, p.idx, b.leaving v.mono⟩) = true →
    ∃ (u : Dev) (y : Session), exec (.ringEntryWrite sn) s = .next (s.withDev u) ∧ u.session sn = some y ∧
      y.built = rest ∧ y.nextSeq = (x.nextSeq + 1) % 2 ^ 24 ∧ y.issued = x.issued ++ [⟨x.nextSeq, p.idx, p.idx, b.leaving v.mono⟩] ∧
      (∃ z k, u.qp p.qp = some z ∧ k ∈ z.unacked ∧ k.psn = q.txPsn ∧ k.bytes = 64 ∧
        k.frame.what = x.entryWire p ⟨x.nextSeq, p.idx, p.idx, b.leaving v.mono⟩ ∧
        (v.gateAdmits q.port.val q.sub.val k.frame = true → k.frame ∈ (u.eg q.port.val q.sub.val).queue)) ∧ y.floor = x.floor ∧
      u.store = v.store ∧ u.chip = v.chip ∧ u.regs = v.regs ∧ u.ep = v.ep ∧ u.floder = v.floder ∧ u.hosts.ctxs = v.hosts.ctxs) ∧
  (v.session sn = some x → ((∀ b ∈ x.built, x.pathFor b = none) ∨ x.ringFree = 0) → exec (.ringEntryWrite sn) s = .next s)) ∧
  (∀ (s : State) (qp : Nat) (q : Qp) (x : Session) (p : Path),
  let v := s.dev
  (v.transportOn = true → v.qp qp = some q → v.session q.session = some x → x.pathOf qp = some p → p.state = .live →
    p.notifyDue v.mono = true → v.mayPost qp (.notify (BitVec.ofNat 32 (min p.written 255 * 2 ^ 24 + p.lastSeq))) = true →
    ∃ u : Dev, exec (.notifySend qp) s = .next (s.withDev u) ∧
      (∃ z k, u.qp qp = some z ∧ k ∈ z.unacked ∧ k.psn = q.txPsn ∧ k.bytes = 0 ∧
        k.frame.what = .notify (BitVec.ofNat 32 (min p.written 255 * 2 ^ 24 + p.lastSeq)) ∧
        (v.gateAdmits q.port.val q.sub.val k.frame = true → k.frame ∈ (u.eg q.port.val q.sub.val).queue)) ∧
      (∃ y z, u.session q.session = some y ∧ y.pathOf qp = some z ∧ z.notifyUnacked = true ∧ z.written = 0 ∧ y.built = x.built ∧
        y.nextSeq = x.nextSeq) ∧
      u.store = v.store ∧ u.chip = v.chip ∧ u.regs = v.regs ∧ u.ep = v.ep ∧ u.floder = v.floder) ∧
  (v.qp qp = some q → v.session q.session = some x → x.pathOf qp = some p → p.notifyDue v.mono = false →
    exec (.notifySend qp) s = .next s) ∧
  (p.notifyUnacked = true ∨ p.written = 0 → p.notifyDue v.mono = false) ∧
  (p.notifyUnacked = false → p.written ≠ 0 → (p.notifyCount ≤ p.written ∨ p.noticeWritten = true) → p.notifyDue v.mono = true))

/-- R224, R412: the session commands. A close of a session unknown or closing is refused by the model's choice (assumption
log 24). -/
def Obligations.SessionCommands : Prop := ∀ (s : State) (p : Packet) (w : Dev) (id : Nat),
  (Starts s.dev 0x0510 p w id → (8192 ≤ p.u16 0 ∨ 4 < p.u8 18 ∨ p.u8 18 = 0 ∨ w.claimDesc (p.u16 2) = none ∨
      w.session (p.u16 0) ≠ none) →
    exec (.sessionCreate p) s = .next (s.withDev <| (w.fail id stInvalidField).skipHeads p.src)) ∧
  (Starts s.dev 0x0510 p w id → p.u16 0 < 8192 → p.u16 2 < 4096 → 1 ≤ p.u8 18 → p.u8 18 ≤ 4 →
    allZero (slice p.params 19 13) = true → (w.claimDesc (p.u16 2)).isSome = true → w.session (p.u16 0) = none →
    ∃ x : Session, exec (.sessionCreate p) s = .next (s.withDev <| ((w.setSession (p.u16 0) x).finishOk id 0 0 0).skipHeads p.src) ∧
      x.claim = p.u16 2 ∧ x.floor = BitVec.ofNat 32 (p.u32 4) ∧ x.initialFloor = BitVec.ofNat 32 (p.u32 4) ∧
      x.cookie = BitVec.ofNat 64 (p.u64 8) ∧ x.pathHold = p.u16 16 ∧ x.maxPaths = p.u8 18 ∧ x.paths = [] ∧ x.tallies = [] ∧
      x.built = [] ∧ x.anchor = none ∧ x.closing = none ∧ x.connKey = none ∧ x.contexts = [] ∧ x.spent = []) ∧
  (Starts s.dev 0x0511 p w id → (∀ x, w.session (p.u16 0 % 8192) = some x → x.closing.isSome = true) →
    exec (.sessionClose p) s = .next (s.withDev <| (w.fail id stInvalidField).skipHeads p.src)) ∧
  (Starts s.dev 0x0511 p w id → ∀ x, w.session (p.u16 0 % 8192) = some x → x.closing = none → x.contexts = [] →
    (∀ e ∈ w.hosts.windows, e.2.session ≠ p.u16 0 % 8192) → exec (.sessionClose p) s = .next (s.withDev <|
      ((w.setSession (p.u16 0 % 8192) { x with closing := some id }).closeSession (p.u16 0 % 8192)).skipHeads p.src)) ∧
  (Starts s.dev 0x0512 p w id → w.session (p.u16 0 % 8192) = none →
    exec (.sessionQuery p) s = .next (s.withDev <| (w.fail id stInvalidField).skipHeads p.src)) ∧
  (Starts s.dev 0x0512 p w id → ∀ x, w.session (p.u16 0 % 8192) = some x → x.anchor = none →
    exec (.sessionQuery p) s = .next (s.withDev <| (w.finishOk id x.floor.toNat
      (x.livePaths.length + 16 * (x.paths.filter (fun q => q.state == .held)).length + 4096 * x.claim) x.liveRecords).skipHeads p.src)) ∧
  (Starts s.dev 0x0512 p w id → ∀ x a, w.session (p.u16 0 % 8192) = some x → x.anchor = some a →
    exec (.sessionQuery p) s = .next (s.withDev <| (w.finishOk id x.floor.toNat
      (x.livePaths.length + 16 * (x.paths.filter (fun q => q.state == .held)).length + 256 * (w.anchor x + 4) + 4096 * x.claim)
      x.liveRecords).skipHeads p.src))

/-- R226, R227: the class of a tally, and the floor: it passes exactly the tallies released at it. -/
def Obligations.TallyWindow : Prop := ∀ (t f : BitVec 32) (n : Nat) (x : Session),
  (tallyClass t f = .inWindow ↔ (t - f).toNat < 4096) ∧ (tallyClass t f = .below ↔ 2 ^ 31 ≤ (t - f).toNat) ∧
  tallyClass f f = .inWindow ∧ (tallyClass t f = .inWindow → t ≠ f → tallyClass f t = .below) ∧
  (Tab.get x.tallies x.floor.toNat ≠ some .released → advanceFloor n x = x) ∧
  (∀ m, m < n → (∀ k, k < m → Tab.get x.tallies (x.floor + BitVec.ofNat 32 k).toNat = some .released) →
    Tab.get x.tallies (x.floor + BitVec.ofNat 32 m).toNat ≠ some .released → n < 4096 →
    (advanceFloor n x).floor = x.floor + BitVec.ofNat 32 m)

/-- R250, R251: a window write in order whose checks pass places its bytes at the window address and nowhere else, and
moves the expected PSN by one; one that a check refuses places nothing, is answered with a NAK and counted; a packet
the policer drops, or out of sequence, places nothing. R246, R250: what a write must meet to be placed: a live window
of the session under its key, a grant of the tag in the address, and every byte inside that grant. -/
def Obligations.WindowWrites : Prop :=
  (∀ (s : State) (p : WritePacket) (q : Qp) (w : Dev),
  let v := s.dev
  let run := exec (.windowWritePacket p) s
  let x := v.packetSeen p.qp q p.cost p.ce
  let m := q.writeMsg p
  let safe := v.safeSession q.session
  let span := m.span safe p.data.length
  (v.qpReady p.qp = false → run = .next s) ∧
  (v.qpReady p.qp = true → v.qp p.qp = some q → x.policed p.qp ((x.qp p.qp).getD q) p.cost p.data.length = (w, false) →
    run = .next (s.withDev w)) ∧
  (∀ a, v.qpReady p.qp = true → v.qp p.qp = some q →
    x.policed p.qp ((x.qp p.qp).getD q) p.cost p.data.length = (w, true) → p.psn = q.rxPsn →
    w.checkWrite q.session m.rkey (m.va.toNat + span.1) span.2 = .place a → p.last = false → Memory.wf v.winMem = true →
    ∃ u : Dev, run = .next (s.withDev u) ∧ (safe = false → w.placedBytes q m safe p = p.data) ∧
      (∀ i b, (w.placedBytes q m safe p)[i]? = some b → memRead u.winMem (a + i) = b) ∧
      (∀ b, (b < a ∨ a + (w.placedBytes q m safe p).length ≤ b) → memRead u.winMem b = memRead v.winMem b) ∧
      (∃ y, u.qp p.qp = some y ∧ y.rxPsn = q.rxPsn + 1 ∧ y.nakSent = false ∧
        y.write = some { m with seen := m.seen + p.data.length, got := if safe then m.got ++ p.data else [] }) ∧ u.hosts.sessions = v.hosts.sessions ∧
      u.hosts.windows = v.hosts.windows ∧ u.hosts.grants = v.hosts.grants ∧ u.store = v.store ∧
      u.chip = { v.chip with spires := u.chip.spires } ∧ u.regs = v.regs ∧
      u.ep = v.ep ∧ u.floder = v.floder) ∧
  (∀ ev, v.qpReady p.qp = true → v.qp p.qp = some q →
    x.policed p.qp ((x.qp p.qp).getD q) p.cost p.data.length = (w, true) → p.psn = q.rxPsn →
    w.checkWrite q.session m.rkey (m.va.toNat + span.1) span.2 = .refuse ev → run = .next (s.withDev <|
      ((w.adjQp p.qp (fun x => { x with nakSent := true })).respond p.qp (.nakAccess p.psn)).count q.home.val 0x08 0 ev 1)) ∧
  (v.qpReady p.qp = true → v.qp p.qp = some q →
    x.policed p.qp ((x.qp p.qp).getD q) p.cost p.data.length = (w, true) → p.psn ≠ q.rxPsn →
    ∃ u : Dev, run = .next (s.withDev u) ∧ u.winMem = v.winMem)) ∧
  (∀ (v : Dev) (sn : Nat) (rkey : BitVec 32) (va n a : Nat), v.checkWrite sn rkey va n = .place a →
  ∃ (w : Window) (g : Grant), Tab.get v.hosts.windows (rkey.toNat % 2 ^ 14) = some w ∧ g ∈ v.hosts.grants ∧
    w.usable = true ∧ w.state = .live ∧ w.session = sn ∧ w.gen.toNat * 2 ^ 14 + rkey.toNat % 2 ^ 14 = rkey.toNat ∧
    g.session = sn ∧ g.window = rkey.toNat % 2 ^ 14 ∧ g.tag = va / 2 ^ 34 % 2 ^ 16 ∧
    va = stageAddr g.window g.tag (va % 2 ^ 30) ∧ g.offset ≤ va % 2 ^ 30 ∧
    va % 2 ^ 30 + n ≤ g.offset + g.length ∧ a = g.window * 2 ^ 30 + va % 2 ^ 30)

/-- R243, R245, R252: the window commands. R252, R262: a revoked window whose last access has drained is gone, its memory
reads 0, and no other window's byte changes. The generation of a new window is a free value (assumption log 25). -/
def Obligations.WindowLife : Prop :=
  (∀ (s : State) (p : Packet) (w : Dev) (id : Nat),
  (Starts s.dev 0x0520 p w id → (p.u32 8 = 0 ∨ 1024 < p.u32 8 ∨ w.session (p.u16 0) = none) →
    exec (.windowCreate p) s = .next (s.withDev <| (w.fail id stInvalidField).skipHeads p.src)) ∧
  (Starts s.dev 0x0520 p w id → windowFieldsOk p = true → p.u8 2 = 0 → (w.session (p.u16 0)).isSome = true →
    w.spireShown (p.u8 3) = true → (16384 ≤ w.hosts.windows.length ∨ 4096 ≤ w.windowsOn (p.u8 3) ∨
      w.stageLimit (p.u8 3) < w.stageUsed (p.u8 3) + p.u32 8) →
    exec (.windowCreate p) s = .next (s.withDev <| (w.fail id stQuota).skipHeads p.src)) ∧
  (Starts s.dev 0x0520 p w id → windowFieldsOk p = true → p.u8 2 = 0 → (w.session (p.u16 0)).isSome = true →
    w.spireShown (p.u8 3) = true → w.hosts.windows.length < 16384 → w.windowsOn (p.u8 3) < 4096 →
    w.stageUsed (p.u8 3) + p.u32 8 ≤ w.stageLimit (p.u8 3) →
    ∃ (u : Dev) (x : Window), exec (.windowCreate p) s = .next (s.withDev <| u.skipHeads p.src) ∧
      u.hosts.windows = Tab.set w.hosts.windows (Tab.freeKey w.hosts.windows) x ∧ x.session = p.u16 0 ∧ x.home.val = p.u8 3 ∧
      x.sizeMib = p.u32 8 ∧ x.state = .live ∧ x.usable = false ∧ x.qp = none ∧
      u.hosts.updates = w.hosts.updates ++ [Update.mk .window (Tab.freeKey w.hosts.windows) .windowLive w.now (some id)]) ∧
  (Starts s.dev 0x0521 p w id → Tab.get w.hosts.windows (p.u16 0 % 16384) = none →
    exec (.windowRevoke p) s = .next (s.withDev <| (w.fail id stInvalidField).skipHeads p.src)) ∧
  (Starts s.dev 0x0521 p w id → ∀ x, Tab.get w.hosts.windows (p.u16 0 % 16384) = some x → x.usable = true → x.state = .live →
    (∀ u ∈ w.hosts.updates, u.table ≠ .window) → exec (.windowRevoke p) s = .next (s.withDev <|
      ({ w with hosts := { w.hosts with updates := w.hosts.updates ++ [Update.mk .window (p.u16 0 % 16384) .windowRevoke
        (if w.stroke = 7 then w.now + 1 else w.now) (some id)] } }).skipHeads p.src)) ∧
  (Starts s.dev 0x0521 p w id → ∀ x, Tab.get w.hosts.windows (p.u16 0 % 16384) = some x → x.usable = true → x.state ≠ .live →
    exec (.windowRevoke p) s = .next (s.withDev <| ({ w with hosts := { w.hosts with
      windows := Tab.set w.hosts.windows (p.u16 0 % 16384) { x with revokeCmds := x.revokeCmds ++ [id] } } }).skipHeads p.src))) ∧
  (∀ (s : State) (n : Nat) (w : Window),
  let v := s.dev
  (Tab.get v.hosts.windows n = some w → w.state = .revoking → v.atBell (w.endBell + 1) = true → (∀ g ∈ v.hosts.grants, g.window ≠ n) →
    ∃ u : Dev, exec (.revokeDrainComplete n) s = .next (s.withDev u) ∧ Tab.get u.hosts.windows n = none ∧
      (∀ a, n * 2 ^ 30 ≤ a → a < n * 2 ^ 30 + 2 ^ 30 → memRead u.winMem a = 0) ∧
      (∀ a, (a < n * 2 ^ 30 ∨ n * 2 ^ 30 + 2 ^ 30 ≤ a) → memRead u.winMem a = memRead v.winMem a) ∧
      (∀ c ∈ u.floder.cmds, c.id ∉ w.revokeCmds) ∧ u.hosts.sessions = v.hosts.sessions ∧ u.store = v.store ∧ u.chip = v.chip ∧
      u.regs = v.regs ∧ u.ep = v.ep) ∧
  ((∀ w, Tab.get v.hosts.windows n = some w → w.state = .live) → exec (.revokeDrainComplete n) s = .next s))

/-- R256 to R258: posted contexts, unexpected immediates and spent ones. -/
def Obligations.TagWaits : Prop := ∀ (s : State) (p : Packet) (w : Dev) (id sn tag : Nat) (x : Session),
  let v := s.dev
  let tagw : BitVec 32 := BitVec.ofNat 32 (p.u32 4)
  let mask : BitVec 32 := BitVec.ofNat 32 (p.u32 8)
  let fields := p.u16 0 ≤ 8191 ∧ p.u16 2 = 0 ∧ allZero (slice p.params 16 32) = true
  (Starts v 0x0535 p w id → (8191 < p.u16 0 ∨ p.u16 2 ≠ 0 ∨ w.session (p.u16 0) = none) →
    exec (.tagWait p) s = .next (s.withDev <| (w.fail id stInvalidField).skipHeads p.src)) ∧
  (Starts v 0x0535 p w id → fields → w.session (p.u16 0) = some x → w.mgmtSession (p.u16 0) = false →
    exec (.tagWait p) s = .next (s.withDev <| (w.fail id stAccessDenied).skipHeads p.src)) ∧
  (∀ u rest, Starts v 0x0535 p w id → fields → w.session (p.u16 0) = some x → w.mgmtSession (p.u16 0) = true → x.closing = none →
    x.unexpected = u :: rest → (u.imm ^^^ tagw) &&& ~~~mask = 0 → exec (.tagWait p) s = .next (s.withDev <|
      ((w.setSession (p.u16 0) { x with unexpected := rest }).finishOk id u.imm.toNat u.qp u.stamp).skipHeads p.src)) ∧
  (Starts v 0x0535 p w id → fields → w.session (p.u16 0) = some x → w.mgmtSession (p.u16 0) = true → x.closing = none →
    x.unexpected = [] → x.contexts.length < 4096 → p.u32 12 ≠ 0 → exec (.tagWait p) s = .next (s.withDev <|
      (w.setSession (p.u16 0) { x with contexts := x.contexts ++ [⟨tagw, mask, .tagWait id (w.now + p.u32 12)⟩] }).skipHeads p.src)) ∧
  (Starts v 0x0535 p w id → fields → w.session (p.u16 0) = some x → w.mgmtSession (p.u16 0) = true → x.closing = none →
    x.unexpected = [] → x.contexts.length < 4096 → p.u32 12 = 0 →
    exec (.tagWait p) s = .next (s.withDev <| (w.fail id stTimeout).skipHeads p.src)) ∧
  (∀ c t, v.hosts.sessions = [(sn, x)] → x.contexts = [c] → c.kind = .tagWait id t → v.atBell t = true →
    exec (.tagWaitTimeout id) s = .next (s.withDev <|
      ({ v with hosts := { v.hosts with sessions := [(sn, { x with contexts := [] })] } }).fail id stTimeout)) ∧
  ((∀ e ∈ v.hosts.sessions, e.2.contexts = []) → exec (.tagWaitTimeout id) s = .next s) ∧
  (∃ t, exec (.immediateSpentEnd sn tag) s = .next t ∧ t.pending = s.pending ∧
    (∀ y, v.session sn = some y → ∃ z, t.dev.session sn = some z ∧ z.built = y.built ∧ z.paths = y.paths ∧
      (∀ e, e ∈ z.spent ↔ e ∈ y.spent ∧ ¬ (e.1 = tag ∧ e.2 + 64 * pealBells ≤ v.now))) ∧
    (∀ m, m ≠ sn → t.dev.session m = v.session m)) ∧
  (v.session sn = some x → ∃ t, exec (.unexpAged sn) s = .next t ∧ t.pending = s.pending ∧ ∃ z, t.dev.session sn = some z ∧
    z.unexpected = x.unexpected.filter (fun u =>
      !(v.atBell (max (u.arrived + 1) (u.arrived + v.spireCfg (v.anchor x) 6 0x40008 15 0 * pealBells)))) ∧
    z.contexts = x.contexts ∧ z.built = x.built)

/-- R259 to R263: the commands of the maintenance queues. R259, R260: elements of a maintenance queue: a WAIT-ON-COUNT
completes when the counter has come, waits, or times out; an element that ends OK moves the queue and its counter on,
one that ends otherwise halts it. CHAIN_POST posts as many elements as fit (assumption log 18). -/
def Obligations.MaintenanceQueues : Prop :=
  (∀ (s : State) (p : Packet) (w : Dev) (id : Nat) (c : ChainQ),
  (Starts s.dev 0x0530 p w id → (p.u16 2 = 0 ∨ 256 < p.u16 2) →
    exec (.chainQueueCreate p) s = .next (s.withDev <| (w.fail id stInvalidField).skipHeads p.src)) ∧
  (Starts s.dev 0x0530 p w id → p.u16 2 ≠ 0 → p.u16 2 ≤ 256 → (∀ n, w.chain n = none) →
    exec (.chainQueueCreate p) s = .next (s.withDev <|
      ((w.setChain (p.u8 0 % 4 * 256) (⟨w.ownerOf p.src, p.u16 2, 0, .running, [], none, none, none⟩ : ChainQ)).finishOk id
        (p.u8 0 % 4 * 256) 0 0).skipHeads p.src)) ∧
  (Starts s.dev 0x0531 p w id → w.chain (p.u16 0) = none →
    exec (.chainPost p) s = .next (s.withDev <| (w.fail id stInvalidField).skipHeads p.src)) ∧
  (Starts s.dev 0x0531 p w id → w.chain (p.u16 0) = some c → p.u8 2 = 1 →
    (readPacket p.src (slice p.data 0 64)).1 ≠ 0x0534 → c.elements.length + b2n c.running.isSome < c.depth →
    exec (.chainPost p) s = .next (s.withDev <| (((w.setChain (p.u16 0) { c with
      elements := c.elements ++ [readPacket p.src (slice p.data 0 64)] }).finishOk id 1 0 0).skipHeads
        (.chain (Fin.ofNat 1024 (p.u16 0)))).skipHeads p.src)) ∧
  (Starts s.dev 0x0532 p w id → w.chain (p.u16 0) = some c → exec (.chainQuery p) s = .next (s.withDev <|
    (w.finishOk id c.counter.toNat c.state.code c.elements.length).skipHeads p.src)) ∧
  (Starts s.dev 0x0533 p w id → w.chain (p.u16 0) = none →
    exec (.chainQueueDestroy p) s = .next (s.withDev <| (w.fail id stInvalidField).skipHeads p.src)) ∧
  (Starts s.dev 0x0533 p w id → w.chain (p.u16 0) = some c → c.state ≠ .waiting → c.elements = [] →
    (∀ e ∈ w.hosts.chains, e.2.waitOn = none) → exec (.chainQueueDestroy p) s = .next (s.withDev <|
      (({ w with hosts := { w.hosts with chains := Tab.del w.hosts.chains (p.u16 0) } }).finishOk id 0 0 0).skipHeads p.src))) ∧
  (∀ (s : State) (p : Packet) (w : Dev) (id : Nat) (q : Fin 1024) (c t : ChainQ) (st : Byte),
  let v := s.dev
  (Starts v 0x0534 p w id → (∀ n, p.src ≠ .chain n) →
    exec (.waitOnCount p) s = .next (s.withDev <| (w.fail id stInvalidField).skipHeads p.src)) ∧
  (Starts v 0x0534 p w id → p.src = .chain q → w.chain (p.u16 0) = some t →
    countReached t.counter (BitVec.ofNat 32 (p.u32 4)) = true →
    exec (.waitOnCount p) s = .next (s.withDev <| (w.finishOk id t.counter.toNat 0 0).skipHeads (.chain q))) ∧
  (Starts v 0x0534 p w id → p.src = .chain q → w.chain (p.u16 0) = some t →
    countReached t.counter (BitVec.ofNat 32 (p.u32 4)) = false → p.u32 8 = 0 →
    exec (.waitOnCount p) s = .next (s.withDev <| (w.fail id stTimeout).skipHeads (.chain q))) ∧
  (Starts v 0x0534 p w id → p.src = .chain q → w.chain (p.u16 0) = some t →
    countReached t.counter (BitVec.ofNat 32 (p.u32 4)) = false → p.u32 8 ≠ 0 →
    exec (.waitOnCount p) s = .next (s.withDev <| ({ w with hosts := { w.hosts with chains := Tab.adjust w.hosts.chains q.val (fun (x : ChainQ) =>
      { x with state := .waiting, waitOn := some (p.u16 0, BitVec.ofNat 32 (p.u32 4),
          if p.u32 8 = 0xFFFFFFFF then none else some (w.now + p.u32 8)) }) } }).skipHeads (.chain q))) ∧
  (∀ n k d i, v.chain q.val = some c → c.waitOn = some (n, k, some d) → v.chainCmd q = some i → v.atBell d = true →
    exec (.waitOnCountTimeout q) s = .next (s.withDev <| v.fail i stTimeout)) ∧
  (v.chain q.val = some c → c.waitOn = none → exec (.waitOnCountTimeout q) s = .next s) ∧
  (v.chain q.val = some c → c.finished = some stOk → exec (.chainElementComplete q stOk) s = .next (s.withDev <|
    ((v.setChain q.val { c with counter := c.counter + 1, running := none, waitOn := none, finished := none, state := .running }).wakeWaiters
      q.val (c.counter + 1)).skipHeads (.chain q))) ∧
  (v.chain q.val = some c → c.finished = some st → st ≠ stOk → exec (.chainElementComplete q st) s = .next (s.withDev <|
    v.setChain q.val { c with running := none, waitOn := none, finished := none, state := .error })) ∧
  (v.chain q.val = some c → c.finished ≠ some st → exec (.chainElementComplete q st) s = .next s) ∧
  (∀ x : BitVec 32, countReached x 0 = true ∧ countReached x x = true))

/-- R25, R119, R226, R227: the order in which a capsule at ingress is judged before it can queue: the mode, its fields,
its way to the spires it is forwarded to, its tally. What a malformed one records is the model's choice (assumption
log 32). -/
def Obligations.CapsuleChecks : Prop := ∀ (s : State) (d0 : Delivered) (m : Waiting) (x : Session) (sn : Nat) (q : Qp) (r : Record) (u : Dev),
  let v := s.dev
  let d := m.msg
  let took : Dev := { v with hosts := { v.hosts with inbox := dropFirst (fun y => y.is 0x01 d0) v.hosts.inbox } }
  (v.hosts.inbox.find? (fun y => y.is 0x01 d0) = none → exec (.create d0) s = .next s) ∧
  (v.hosts.inbox.find? (fun y => y.is 0x01 d0) = some m → v.qp d.qp = some q → q.session = sn → v.session sn = some x →
    took.pfcCheck q.port.val = u →
    (u.serving = false → exec (.create d0) s = .next (s.withDev <| u.answer sn d stBusyMode noExt 0 0)) ∧
    (u.serving = true → capsuleOk .create d.cap (u.plainLen x d) = false →
      (x.tallyStep d.cap.tally = .fresh → exec (.create d0) s = .next (s.withDev <| u.refuseTallied sn 0x01 d stInvalidField noExt 0)) ∧
      (x.tallyStep d.cap.tally ≠ .fresh → exec (.create d0) s = .next (s.withDev <| u.answer sn d stInvalidField noExt 0 0))) ∧
    (u.serving = true → capsuleOk .create d.cap (u.plainLen x d) = true → v.forwardable x .create d = false →
      exec (.create d0) s = .next s) ∧
    (u.serving = true → capsuleOk .create d.cap (u.plainLen x d) = true → v.forwardable x .create d = true →
      (tallyClass d.cap.tally x.floor = .below → exec (.create d0) s = .next (s.withDev <|
        (u.count (u.anchor x) 0x02 0 0x006 1).answer sn d stStaleTally noExt 0 0)) ∧
      (tallyClass d.cap.tally x.floor = .ahead → exec (.create d0) s = .next (s.withDev <| u.answer sn d stTallyAhead noExt 0 0)) ∧
      (tallyClass d.cap.tally x.floor = .inWindow → Tab.get x.tallies d.cap.tally.toNat = some .inFlight →
        exec (.create d0) s = .next (s.withDev <|
          { u with hosts := { u.hosts with dups := u.hosts.dups ++ [(sn, d)] } })) ∧
      (tallyClass d.cap.tally x.floor = .inWindow → Tab.get x.tallies d.cap.tally.toNat = some (.recorded r) →
        exec (.create d0) s = .next (s.withDev <| u.answerRecord sn d r))))

/-- R115, R116, R118, R227: a CREATE, SEAL or DELETE that nothing stands in the way of takes effect at once, keeps its
record and builds its completion. R119, R126, R134, R208, R320: an APPEND of no bytes is held at once; an inline one
whose grains have credit, room and nonces takes the next bytes of its extent and goes to the commit path. -/
def Obligations.TalliedCommands : Prop :=
  (∀ (s : State) (m : Waiting) (sn : Nat) (x : Session) (k : ClaimDesc)
    (nonce : BitVec 32 × BitVec 64) (w : Dev),
  let v := s.dev
  let d := m.msg
  let key := d.cap.key
  let done := fun (u : Dev) => ∃ c, HasAnswer u sn x d stOk (some d.cap.tally.toNat) c ∧
    (∃ y r, u.session sn = some y ∧ Tab.get y.tallies d.cap.tally.toNat = some (.recorded r) ∧ r.comp = c) ∧
    u.hosts.ctxs = [] ∧ u.hosts.inbox = []
  (Sole v .create m sn x k nonce w → ∃ u : Dev, exec (.create d) s = .next (s.withDev u) ∧ done u ∧
    u.ext x.claim key = some ⟨x.claim, key, .open_, some .open_, 0, 0, 1, none, false, 0, v.mono, 0⟩) ∧
  (∀ e, Sole v .sealOp m sn x k nonce w → v.ext x.claim key = some e → ∃ (u : Dev) (f : Extent),
    exec (.sealOp d) s = .next (s.withDev u) ∧
    done u ∧ u.ext x.claim key = some f ∧ f.st = .sealed_ ∧ f.heldSt = some .sealed_ ∧ f.len = e.len ∧ f.grains = e.grains) ∧
  (∀ e, Sole v .delete m sn x k nonce w → v.ext x.claim key = some e → ∃ (u : Dev) (f : Extent),
    exec (.delete d) s = .next (s.withDev u) ∧
    done u ∧ u.ext x.claim key = some f ∧ f.st = .deleted ∧ f.heldSt = some .deleted ∧ f.len = e.len)) ∧
  (∀ (s : State) (m : Waiting) (sn : Nat) (x : Session) (e : Extent) (k : ClaimDesc)
    (f : BitVec 32) (g : BitVec 64) (w : Dev),
  let v := s.dev
  let d := m.msg
  let key := d.cap.key
  let n := grainsOf d.cap.length.toNat
  let h : Spire := Fin.ofNat 4 (v.homeOf d.qp)
  (Sole v .append m sn x k (f, g) w → v.ext x.claim key = some e → d.cap.crc = false → d.cap.expect = false → d.cap.length = 0 →
    ∃ (u : Dev) (c : Completion), exec (.append d) s = .next (s.withDev u) ∧ HasAnswer u sn x d stOk (some d.cap.tally.toNat) c ∧
      c.resOffset = e.assigned ∧ c.resLength = 0 ∧ u.hosts.ctxs = []) ∧
  (Sole v .append m sn x k (f, g) w → v.ext x.claim key = some e → d.cap.crc = false → d.cap.expect = false →
    d.cap.length ≠ 0 → d.cap.inline = true →
    n ≤ Tab.getD v.store.credit.allot h.val 0 → n + v.outHeld ≤ v.store.credit.limit → n ≤ v.roomFor h.val →
    ∃ (u : Dev) (c : Ctx) (y : Session) (e' : Extent), exec (.append d) s = .next (s.withDev u) ∧ u.hosts.ctxs = [c] ∧ c.msg = d ∧
      c.phase = .committing ∧ c.offset = e.assigned ∧ c.credit = n ∧ c.nonceFixed = f ∧ c.nonceFirst = g ∧ c.desc = k ∧
      u.ext x.claim key = some e' ∧ e'.assigned = e.assigned + d.cap.length.toNat ∧ e'.len = e.len ∧
      u.session sn = some y ∧ Tab.get y.tallies d.cap.tally.toNat = some .inFlight ∧ y.built = x.built ∧
      u.store.grains = v.store.grains))

/-- R46, R102, R118, R121, R130, R131, R228: the commands without a tally of their own: STAT, PING, FLUSH, CACK and READ. -/
def Obligations.UntalliedCommands : Prop := ∀ (s : State) (m : Waiting) (sn : Nat) (x : Session) (e : Extent) (k : ClaimDesc)
    (nonce : BitVec 32 × BitVec 64) (w : Dev),
  let v := s.dev
  let d := m.msg
  let key := d.cap.key
  (Sole v .stat m sn x k nonce w → v.ext x.claim key = some e → ∃ (u : Dev) (c : Completion), exec (.stat d) s = .next (s.withDev u) ∧
    HasAnswer u sn x d stOk none c ∧ c.resLength = e.len ∧ c.grainCount = e.grains ∧ u.hosts.extents = v.hosts.extents ∧ u.store = v.store) ∧
  (Sole v .ping m sn x k nonce w → ∃ (u : Dev) (c : Completion), exec (.ping d) s = .next (s.withDev u) ∧
    HasAnswer u sn x d stOk none c ∧ c.resOffset = d.cap.offset.toNat ∧ c.extState = 3 ∧ c.owner = 0 ∧
    u.hosts.extents = v.hosts.extents ∧ u.store = v.store) ∧
  (Sole v .flush m sn x k nonce w → (∀ g ∈ v.store.grains, g.held = true → g.session ≠ sn) →
    ∃ (u : Dev) (c : Completion), exec (.flush d) s = .next (s.withDev u) ∧ HasAnswer u sn x d stOk none c ∧ c.resLength = 0 ∧
      u.hosts.flushes = v.hosts.flushes ∧ u.store = v.store) ∧
  (∀ g, Sole v .flush m sn x k nonce w → g ∈ v.store.grains → g.held = true → g.session = sn →
    ∃ (u : Dev) (f : FlushCtx), exec (.flush d) s = .next (s.withDev u) ∧ u.hosts.flushes = v.hosts.flushes ++ [f] ∧ f.msg = d ∧
      f.session = sn ∧ f.lost = false ∧ (∀ i, i ∈ f.grains ↔ ∃ y ∈ v.store.grains, y.held = true ∧ y.session = sn ∧ y.id = i) ∧
      (∀ a, a ∈ f.ranges ↔ ∃ y ∈ v.store.grains, y.held = true ∧ y.session = sn ∧ (y.claim, y.key, y.offset) = a) ∧
      u.store = v.store ∧ u.hosts.sessions = v.hosts.sessions) ∧
  (∀ r, Sole v .cack m sn x k nonce w → tallyClass d.cap.tally x.floor = .inWindow →
    Tab.get x.tallies d.cap.tally.toNat = some (.recorded r) → (∀ t ∈ x.tallies, t.2 ≠ .inFlight) →
    ∃ (u : Dev) (c : Completion) (y : Session), exec (.cack d) s = .next (s.withDev u) ∧ HasAnswer u sn x d stOk none c ∧
      c.resOffset = (d.cap.tally + 1).toNat ∧ u.session sn = some y ∧ y.floor = d.cap.tally + 1 ∧ u.store = v.store ∧
      u.hosts.extents = v.hosts.extents) ∧
  (Sole v .cack m sn x k nonce w → tallyClass d.cap.tally x.floor = .ahead → ∃ (u : Dev) (c : Completion) (y : Session),
    exec (.cack d) s = .next (s.withDev u) ∧ HasAnswer u sn x d stInvalidField none c ∧ u.session sn = some y ∧ y.floor = x.floor) ∧
  (Sole v .read m sn x k nonce w → v.ext x.claim key = some e → d.cap.length = 0 → ∃ (u : Dev) (c : Completion),
    exec (.read d) s = .next (s.withDev u) ∧ HasAnswer u sn x d stOk none c ∧ c.resOffset = d.cap.offset.toNat ∧ c.resLength = e.len ∧
      u.hosts.reads = v.hosts.reads ∧ u.store = v.store) ∧
  (Sole v .read m sn x k nonce w → v.ext x.claim key = some e → d.cap.length ≠ 0 → e.len < d.cap.offset.toNat + d.cap.length.toNat →
    ∃ (u : Dev) (c : Completion), exec (.read d) s = .next (s.withDev u) ∧ HasAnswer u sn x d stBeyondEnd none c ∧ c.resLength = e.len ∧
      u.hosts.reads = v.hosts.reads ∧ u.store = v.store)

/-- R28, R41, R44, R102, R111, R128, R134, R139, R248, R249: the events of a command's life. -/
def Obligations.CommandEvents : Prop := ∀ (s : State) (id sn tag qp : Nat) (imm : BitVec 32) (c : Ctx) (g : Grant) (x : Session) (f : FlushCtx),
  let v := s.dev
  (v.hosts.flushes.find? (fun y => y.id == id) = some f → (∀ y ∈ v.store.grains, y.id ∉ f.grains) →
    exec (.flushComplete id) s = .next (s.withDev <|
      ({ v with hosts := { v.hosts with flushes := v.hosts.flushes.filter (fun y => y.id != id) } }).answer f.session f.msg
        (if f.lost then stDataLost else stOk) noExt 0 (if f.lost then 0 else f.bytes))) ∧
  ((∃ y ∈ v.store.grains, y.id ∈ f.grains) → v.hosts.flushes.find? (fun y => y.id == id) = some f →
    exec (.flushComplete id) s = .next s) ∧
  (v.ctx id = some c → c.phase = .waitRoom → v.atBell (c.waitFrom + c.desc.admitBound) = true →
    (c.credit < c.grains → exec (.admitBoundExpire id) s = .next (s.withDev <|
      (v.count c.arrival.val 0x02 0 0x003 1).refuseCtx c stBusyCredit)) ∧
    (c.grains ≤ c.credit → exec (.admitBoundExpire id) s = .next (s.withDev <|
      (v.count c.arrival.val 0x02 0 0x004 1).refuseCtx c stBusyStaging))) ∧
  (v.ctx id = some c → c.phase = .committing → v.spireUp c.arrival.val = true → v.cipherUp c.arrival.val = true →
    v.sliceUp c.arrival.val = true → v.reaches c.arrival.val (partner c.arrival.val) = true → v.twoCopies c = true →
    v.chip.frozenIn = false → ∃ (w : Dev) (gs : List Grain), exec (.grainsStored id) s = .next (s.withDev <| w.holdIfDue id) ∧
      w.store.grains = v.store.grains ++ gs ∧ gs.length = c.grains ∧
      (∀ y ∈ gs, y.ctx = c.id ∧ y.spire = c.arrival ∧ y.primary.isSome = true ∧ y.mirror = y.primary ∧ y.held = false ∧
        y.claim = c.claim ∧ y.key = c.msg.cap.key ∧ y.profK = c.desc.k ∧ y.profM = c.desc.m ∧ y.profVer = c.claimVer) ∧
      (∃ y, w.ctx id = some y ∧ y.phase = .stored ∧ y.waited = v.earlierUnheld c) ∧ w.hosts.extents = v.hosts.extents ∧
      w.hosts.sessions = v.hosts.sessions) ∧
  (v.ctx id = some c → (c.phase ≠ .committing ∨ v.sliceUp c.arrival.val = false ∨ v.cipherUp c.arrival.val = false ∨
      v.twoCopies c = false ∧ v.mode = .service) → exec (.grainsStored id) s = .next s) ∧
  (v.ctx id = some c → c.kind = .append → c.phase = .stored → v.earlierUnheld c = false →
    (c.waited = false ∨ v.lastHeldOf c + 64 ≤ v.mono) → exec (.appendHeld id) s = .next (s.withDev <| v.markHeld c) ∧
      (∀ y ∈ v.store.grains, y.ctx = id → ∃ z ∈ (v.markHeld c).store.grains, z.id = y.id ∧ z.held = true ∧ z.dirtyAt = v.now ∧
        z.primary = y.primary ∧ z.mirror = y.mirror)) ∧
  (v.ctx id = some c → (c.phase ≠ .stored ∨ v.earlierUnheld c = true ∨ c.waited = true ∧ v.mono < v.lastHeldOf c + 64) →
    exec (.appendHeld id) s = .next s) ∧
  (v.sessionOf qp = some sn → v.hosts.grants.find? (fun y => y.session == sn && y.tag == imm.toNat % 65536 && y.state == .signalled) = some g →
    v.ctx g.ctx = some c → c.phase = .granted → imm.toNat / 65536 = sn →
    (g.sigLen ≠ 0 → exec (.stagingSignal qp imm g.sigLen) s = .next (s.withDev <| v.refuseCtx c stInvalidField)) ∧
    (g.sigLen = 0 → ∃ c1 : Ctx, exec (.stagingSignal qp imm 0) s = .next (s.withDev <| (v.adjCtx c.id (fun _ => c1)).assign c1) ∧
      c1.staged = some (memReadBytes v.winMem (winAddr g.window g.offset) g.length) ∧ c1.msg.cap = c.msg.cap ∧ c1.id = c.id ∧
      c1.msg.at_ = g.sigAt)) ∧
  (v.hosts.grants.find? (fun y => y.session == sn && y.tag == tag) = some g → g.state = .granted → v.atBell (g.bell + g.life) = true →
    v.ctx g.ctx = some c → exec (.grantLifeExpire sn tag) s = .next (s.withDev <| v.refuseCtx c stXferExpired)) ∧
  (v.hosts.grants.find? (fun y => y.session == sn && y.tag == tag) = none → exec (.grantLifeExpire sn tag) s = .next s) ∧
  (∀ r, v.session sn = some x → Tab.get x.tallies tag = some (.recorded r) → r.ends ≤ v.clk.aging →
    exec (.recordLifeExpire sn tag) s = .next (s.withDev <|
      v.adjSession sn (fun y => { y with tallies := Tab.set y.tallies tag .released }))) ∧
  (∀ r, v.session sn = some x → Tab.get x.tallies tag = some (.recorded r) → v.clk.aging < r.ends →
    exec (.recordLifeExpire sn tag) s = .next s)

/-- R171, R322, R323: what a grain is sealed with opens it: under the same key, nonce, claim, extent key and offset it
gives the bytes sealed. R170: the extent-key hash, the owner it names, and the data a grain authenticates. -/
def Obligations.SealedGrainOpens : Prop :=
  (∀ (aesKey : List Byte) (fixed : BitVec 32) (counter claim off : Nat) (key : BitVec 128)
    (last : Bool) (plain : List Byte), plain.length ≤ 4096 → counter < 2 ^ 64 → off < 2 ^ 64 →
  openGrain aesKey claim key off (sealGrain aesKey fixed counter claim key off last plain) = some plain ∧
  judge aesKey claim key off (sealGrain aesKey fixed counter claim key off last plain) = .sound plain) ∧
  (∀ (claim off counter : Nat) (key : BitVec 128) (aesKey plain : List Byte) (fixed : BitVec 32) (last : Bool),
  (leBytes 2 claim ++ leBytes 16 key.toNat).length = 18 ∧
  extHash claim key = (sha384 (leBytes 2 claim ++ leBytes 16 key.toNat)).take 16 ∧
  extOwner claim key = ((extHash claim key).getD 0 0).toNat % 4 ∧
  (plain.length ≤ 4096 → slice (imgMeta (sealGrain aesKey fixed counter claim key off last plain)) 32 32 =
    grainAad claim key off plain.length fixed last))

/-- R84, R156 to R158, R174, R175: in the modes that settle, an open stripe that a cause of R156 closes: the record of its
layout names its grains, and a write is issued for every placed position; a stripe whose cause does not hold stays
open. R156, R174 to R177: what closing does: with a layout and a free slot the stripe has a record over its grains in
order, its width of positions, and a write to the place of each placed one; the grains stay in the buffer. -/
def Obligations.StripesClose : Prop :=
  (∀ (s : State) (id : Nat) (cause : CloseCause) (p : Pending),
  let v := s.dev
  (v.maySettle = true → v.store.pend.find? (fun y => y.id == id) = some p → p.closed = none → v.causeHolds p cause = true →
    exec (.stripeClose id cause) s = .next (s.withDev <| v.closeStripe p cause)) ∧
  (v.maySettle = true → v.store.pend.find? (fun y => y.id == id) = some p → p.closed = none → v.aged p = true →
    exec (.settleAgeExpire id) s = .next (s.withDev <| v.closeStripe p .age)) ∧
  (v.store.pend.find? (fun y => y.id == id) = some p → (v.maySettle = false ∨ p.closed.isSome = true ∨ v.causeHolds p cause = false) →
    exec (.stripeClose id cause) s = .next s) ∧
  (v.store.pend.find? (fun y => y.id == id) = some p → (v.maySettle = false ∨ p.closed.isSome = true ∨ v.aged p = false) →
    exec (.settleAgeExpire id) s = .next s) ∧
  (v.mode = .survey → v.maySettle = false) ∧ (v.mode = .service → v.maySettle = true)) ∧
  (∀ (v : Dev) (p : Pending) (cause : CloseCause) (gs : List Grain) (r : StripeRec) (w : Dev),
  p.grains = gs.map (·.id) → gs ≠ [] → (∀ g ∈ gs, v.store.grains.find? (fun y => y.id == g.id) = some g) →
  gs.length ≤ 16 * v.seamGoal p.k → v.newStripe p.spire.val p.claim p.m gs.length = some (r, w) →
  v.store.pend.find? (fun y => y.id == p.id) = some p →
  (∃ q, (v.closeStripe p cause).store.pend.find? (fun y => y.id == p.id) = some q ∧ q.closed = some cause ∧ q.rec_ = some r ∧
    q.grains = p.grains ∧ q.runs.map (fun a => (a.claim, a.key, a.offset)) = gs.map (fun g => (g.claim, g.key, g.offset)) ∧
    (∀ i b row, i < r.width → r.placeOf i = some (b, row) → ∃ o ∈ (v.closeStripe p cause).store.ops, o.id ∈ q.writes ∧ o.bay = b ∧
      o.lba = slotLba row ∧ o.cmd = .write ∧ o.use = .settle p.id i)) ∧
  r.k = max 1 (ceilDiv gs.length 16) ∧ r.m = p.m ∧ r.claim = p.claim ∧ r.live = gs.length ∧ r.row % 4 = p.spire.val % 4 ∧
  r.row < v.store.layout.rows - v.store.layout.spareRows ∧ r.lastGrains + 1 + 16 * (r.k - 1) = gs.length ∧
  (v.closeStripe p cause).store.grains = v.store.grains ∧ (v.closeStripe p cause).hosts = v.hosts)

/-- R158, R177, R183, R184, R186, R189: writes, journal records and the grains they make clean. R179, R189, R192 to R196,
R215: what rebuild, compaction and the re-lay of repaired stripes do once their writes and journal records are
complete, and reclaim. The order and the number of the jobs are the model's choice (assumption log 85). -/
def Obligations.SettleAndSpace : Prop :=
  (∀ (s : State) (op id seq : Nat) (status : BitVec 32) (o : BayOp) (pid pos row i : Nat)
    (img : List Byte) (p : Pending) (r : StripeRec) (b : JournalBlock),
  let v := s.dev
  let w := v.dropOp op
  (v.op op = none → exec (.bayWriteComplete op status) s = .next s) ∧
  (v.op op = some o → (o.cmd = .read ∨ o.sent = false) → exec (.bayWriteComplete op status) s = .next s) ∧
  (v.op op = some o → o.cmd ≠ .read → o.sent = true → o.use = .settle pid pos → status ≠ 0 →
    exec (.bayWriteComplete op status) s = .next (s.withDev <|
      ((w.faultAt 0x041 7 o.bay 5 o.lba status.toNat o.lba 0).failStripe pid).pump o.bay)) ∧
  (v.op op = some o → o.cmd = .write → o.sent = true → o.use = .settle pid pos → exec (.bayWriteComplete op 0) s = .next (s.withDev <|
    (((w.putBlocks o).countBay o.bay o.port 0x002 (o.count * 4096)).settleWritten pid o.id).pump o.bay)) ∧
  (o.cmd = .write → o.lba = slotLba row → o.blocks[i]? = some img → o.blocks.length ≤ 16 → (w.putBlocks o).driveGrain o.bay row i = img) ∧
  (o.cmd = .zeroes → o.lba = slotLba row + pos → i < o.count → pos + o.count ≤ 16 →
    (w.putBlocks o).driveGrain o.bay row (pos + i) = zeros 4160) ∧
  (v.store.journal.blocks.find? (fun y => y.seq == seq) = some b → b.left ≠ [] → exec (.journalWriteComplete seq) s = .next s) ∧
  (v.store.journal.blocks.find? (fun y => y.seq == seq) = some b → b.left = [] → (∀ n, b.rec_ ≠ .checkpoint n) →
    exec (.journalWriteComplete seq) s = .next (s.withDev <| { v with store := { v.store with journal := { v.store.journal with
      blocks := updFirst (fun (y : JournalBlock) => y.seq == seq) (fun y => { y with complete := true }) v.store.journal.blocks } } })) ∧
  (∀ n, v.store.journal.blocks.find? (fun y => y.seq == seq) = some b → b.left = [] → b.rec_ = .checkpoint n →
    ∃ u : Dev, exec (.journalWriteComplete seq) s = .next (s.withDev u) ∧ u.store.journal.checkSeq = n ∧
      (∀ y ∈ u.store.journal.blocks, y.complete = false ∨ n ≤ y.seq) ∧
      (∀ y ∈ v.store.journal.blocks, y.complete = false → y.seq ≠ seq → y ∈ u.store.journal.blocks) ∧
      u.store.grains = v.store.grains ∧ u.store.stripes = v.store.stripes ∧ u.hosts = v.hosts ∧ u.chip = v.chip) ∧
  (v.store.journal.blocks.find? (fun y => y.seq == seq) = none → exec (.journalWriteComplete seq) s = .next s) ∧
  (journalRing ≤ 2 * v.store.journal.ringBlocks → v.store.journal.checking = none → (∀ y ∈ v.store.journal.blocks, y.complete = true) →
    exec .checkpointStart s = .next (s.withDev <| ({ v with store := { v.store with journal := { v.store.journal with
      checking := some v.store.journal.nextSeq } } }).writePages.relabel.checkpointStep)) ∧
  (∀ n, v.store.journal.checking = some n → (∀ y ∈ v.store.ops, ∀ a, y.use ≠ .mapPage a) → v.checkpointStep =
    (({ v with store := { v.store with journal := { v.store.journal with checking := none } } }).journal (.checkpoint n)).2) ∧
  (∀ y a, y ∈ v.store.ops → y.use = .mapPage a → v.checkpointStep = v) ∧
  ((2 * v.store.journal.ringBlocks < journalRing ∨ v.store.journal.checking.isSome = true) → exec .checkpointStart s = .next s) ∧
  (∀ j, v.store.pend.find? (fun y => match y.rec_ with | some x => x.id == id | none => false) = some p → p.rec_ = some r →
    p.writes = [] → p.journal = some j → v.journaled j = true → ∃ u : Dev, exec (.grainClean id) s = .next (s.withDev u) ∧
      (∀ g, g ∈ u.store.grains ↔ g ∈ v.store.grains ∧ g.id ∉ p.grains) ∧ (∀ y ∈ u.store.pend, y.id ≠ p.id) ∧
      u.chip.vault.settled = v.chip.vault.settled + p.grains.length ∧ u.store.layout.used = true) ∧
  (v.store.pend.find? (fun y => match y.rec_ with | some x => x.id == id | none => false) = some p →
    (p.writes ≠ [] ∨ p.journal = none ∨ ∃ j, p.journal = some j ∧ v.journaled j = false) → exec (.grainClean id) s = .next s)) ∧
  (∀ (s : State) (sp : Spire) (id pos claim : Nat) (key : BitVec 128) (t : Stripe) (j : Job) (e : Extent),
  let v := s.dev
  let pick := fun (k : JobKind) => v.store.jobs.find? (fun y => y.stripe == id && y.kind == k && v.jobDone y)
  let laid := (j.news.foldl (fun x n => x.publish n.rec_ n.runs t.profK t.profVer) (v.dropJob j.id)).freeStripe t.rec_.id
  ((v.stripe id = none ∨ pick (.rebuild pos) = none) → exec (.rebuildPositionComplete id pos) s = .next s) ∧
  ((v.stripe id = none ∨ pick .compact = none) → exec (.compactionComplete id) s = .next s) ∧
  ((v.stripe id = none ∨ pick .repair = none) → exec (.relayPublish sp id) s = .next s) ∧
  (∀ b row moves, v.stripe id = some t → pick (.rebuild pos) = some j → j.target = some (b, row, moves) →
    ∃ u : Dev, exec (.rebuildPositionComplete id pos) s = .next (s.withDev u) ∧ (id, pos) ∉ u.store.rebuilds ∧
      (∀ y ∈ u.store.jobs, y.id ≠ j.id) ∧
      (moves = true → ∃ y ∈ u.store.stripes, y.rec_.id = id ∧ y.rec_.placeOf pos = some (b, row) ∧ y.rec_.version = t.rec_.version + 1)) ∧
  (v.stripe id = some t → pick .compact = some j → exec (.compactionComplete id) s = .next (s.withDev laid)) ∧
  (v.stripe id = some t → pick .repair = some j → exec (.relayPublish sp id) s = .next (s.withDev <|
    laid.setScrub (t.rec_.id / 2 ^ 46) { laid.scrub (t.rec_.id / 2 ^ 46) with
      repair := (laid.scrub (t.rec_.id / 2 ^ 46)).repair.filter (fun k => k / 1024 != t.rec_.id) })) ∧
  (v.jobDone j = true → j.writing = true ∧ v.jobBusy j.id = false ∧ ∀ q ∈ j.journal, v.journaled q = true) ∧
  (v.ext claim key = some e → e.heldSt = some .deleted → e.journaled = true → v.hasGrains claim key = false →
    (∀ y ∈ v.store.journal.blocks, y.complete = true) → exec (.tombstoneReclaim claim key) s = .next (s.withDev <|
      let w := (if e.root = 0 then [] else pagesUnder v.store.pages 4 e.root).foldl (fun x p => x.freePage (runPage p)) v
      ({ w with hosts := { w.hosts with extents := w.hosts.extents.filter (fun y => !y.is claim key) } }).uncharge claim e.grains)) ∧
  (v.ext claim key = some e → (e.heldSt ≠ some .deleted ∨ v.hasGrains claim key = true) → exec (.tombstoneReclaim claim key) s = .next s))

/-- R32, R192, R197 to R199, R383: the answers, timeouts, leases and late answers of bay commands. -/
def Obligations.BayCommandEvents : Prop := ∀ (s : State) (op id cid : Nat) (o : BayOp) (b : Bay) (q : Quarantine) (r : ReadCtx)
    (imgs : List (List Byte)) (st : BitVec 32) (c t p first n : Nat),
  let v := s.dev
  (v.op op = some o → o.cmd = .read → o.sent = true → v.dataReaches o = true → o.use = .read c t p first n →
    exec (.bayReadComplete op (.data imgs)) s = .next (s.withDev <|
      ((((v.dropOp op).countBay o.bay o.port 0x001 (o.count * 4096)).gotImages c t p first n imgs).progressRead c).pump o.bay)) ∧
  (v.op op = some o → o.cmd = .read → o.sent = true → v.dataReaches o = true → o.use = .read c t p first n →
    exec (.bayReadComplete op (.error st)) s = .next (s.withDev <|
      ((((v.dropOp op).faultAt 0x041 7 o.bay 5 o.lba st.toNat o.lba 0).gotImages c t p first n []).progressRead c).pump o.bay)) ∧
  (v.op op = some o → (o.cmd ≠ .read ∨ o.sent = false ∨ v.dataReaches o = false) →
    exec (.bayReadComplete op (.data imgs)) s = .next s ∧ exec (.bayReadComplete op (.error st)) s = .next s) ∧
  (v.op op = none → exec (.bayReadComplete op (.data imgs)) s = .next s ∧ exec (.ioTimeout op) s = .next s ∧
    exec (.leaseCapExpire (.bayOp op)) s = .next s) ∧
  (v.op op = some o → (v.atBell (o.issued + max 1 (v.ioTimeout o)) = false ∨ o.sent = false ∧ v.stalled o = false) →
    exec (.ioTimeout op) s = .next s) ∧
  (v.op op = some o → v.atBell (o.issued + max 1 (v.ioTimeout o)) = true → o.sent = true → o.lease = none → o.use = .settle t p →
    0 < v.leaseCap o → o.switched = false → o.retries < v.sameRetries o → ∃ u : Dev, exec (.ioTimeout op) s = .next (s.withDev <| u.pump o.bay) ∧
      (Out.bayAbort o.bay o.port o.cid) ∈ u.out ∧ (⟨o.bay, o.port, o.cid, v.now⟩ : Quarantine) ∈ u.store.quar ∧
      (∃ x, u.op op = some x ∧ x.port = o.port ∧ x.retries = o.retries + 1 ∧ x.issued = v.now ∧
        x.lease = some (o.port, v.now + v.leaseCap o))) ∧
  (∀ pt due, v.op op = some o → o.lease = some (pt, due) → v.atBell due = true →
    exec (.leaseCapExpire (.bayOp op)) s = .next (s.withDev <| v.opUnresolved o)) ∧
  (∀ (sp : Spire) blk cell due, v.recov.find? (fun e => e.1 == .cell sp blk cell) = some (.cell sp blk cell, due) → v.atBell due = true →
    exec (.leaseCapExpire (.cell sp blk cell)) s = .next (s.withDev <|
      (v.dropRecov (.cell sp blk cell)).takeRecov (.block sp blk) (v.now + v.blockCap))) ∧
  (∀ (sp : Spire) blk due, v.recov.find? (fun e => e.1 == .block sp blk) = some (.block sp blk, due) → v.atBell due = true →
    exec (.leaseCapExpire (.block sp blk)) s = .next (s.withDev <|
      (v.dropRecov (.block sp blk)).takeRecov (.region sp) (v.now + v.regionCap))) ∧
  (v.readCtx id = some r → r.runFrom.isSome = true →
    max 1 (v.spireCfg (v.homeOf r.qp % 4) 3 0x1000C 31 24 * pealBells) ≤ v.readRan r →
    exec (.readTimeout id) s = .next (s.withDev <| v.endRead r stTimeout)) ∧
  (v.readCtx id = some r → r.runFrom = none → exec (.readTimeout id) s = .next s) ∧
  (v.store.quar.find? (fun y => y.bay == b.val && y.cid == cid) = some q → exec (.lateCompletion b cid) s = .next (s.withDev <|
    ({ v with store := { v.store with quar := dropFirst (fun y => y == q) v.store.quar } }).fault 0x042 (baySpire b.val q.port)
      ((0x50 + bayGroup b.val q.port) * 64 + b.val / 4 % 4) cid (v.now - q.since) 0)) ∧
  (v.store.quar.find? (fun y => y.bay == b.val && y.cid == cid) = none → exec (.lateCompletion b cid) s = .next s) ∧
  (∃ u : Dev, exec (.quarantineRelease b cid) s = .next (s.withDev u) ∧ u.hosts = v.hosts ∧
    (∀ y, y ∈ u.store.quar ↔ y ∈ v.store.quar ∧ ¬ (y.bay = b.val ∧ y.cid = cid ∧
      v.atBell (y.since + 4 * v.spireCfg (baySpire b.val y.port) 3 0x10008 31 0) = true)))

/-- R206, R209 to R211: scans: what starts one, what it answers, and how it is cut short. Its reads carry at most 16
blocks each. R206, R212, R213, R309: the scrub pass of a spire: when it starts, what a peal adds to its quota, which
stripe is read next, and what it is found to be: one that needs its key is checked once the cipher complex has served
its grains. R212: the quotas of the peals of a pass add up to its items. -/
def Obligations.ScansAndScrub : Prop :=
  (∀ (s : State) (p : Packet) (w : Dev) (id : Nat) (x : Scan) (sp : Spire) (tag : BitVec 16),
  let v := s.dev
  (Starts v 0x0901 p w id → v.parseScan p = none → w.parseScan p = none →
    exec (.scanStart p) s = .next (s.withDev <| (w.fail id stInvalidField).skipHeads p.src)) ∧
  (v.parseScan p = some x → 64 ≤ v.scansOn x.spire.val → exec (.scanStart p) s = .next s) ∧
  (Starts v 0x0901 p w id → v.parseScan p = some x → v.scansOn x.spire.val < 64 → w.parseScan p = some x → x.fromBay = false →
    (w.windowsOn x.spire.val = 0 ∨ w.sec.debug = .open_) → exec (.scanStart p) s = .next (s.withDev <|
      (({ w with store := { w.store with scans := w.store.scans ++ [{ x with cmd := id }] } }).scanNext x.spire x.tag).skipHeads p.src)) ∧
  (Starts v 0x0901 p w id → v.parseScan p = some x → v.scansOn x.spire.val < 64 → w.parseScan p = some x → x.fromBay = true →
    x.length ≠ 0 → (∀ y ∈ w.store.scans, y.tag ≠ x.tag) → ∃ u : Dev, exec (.scanStart p) s = .next (s.withDev <| u.skipHeads p.src) ∧
      u.store.scans = w.store.scans ++ [{ x with cmd := id }] ∧
      (∃ o ∈ u.store.ops, o.bay = x.bay ∧ o.lba = x.start ∧ o.count = min 16 x.length ∧ o.cmd = .read ∧ o.use = .scan x.spire x.tag)) ∧
  (Starts v 0x0902 p w id → w.store.scans.find? (fun y => y.tag.toNat == p.u16 0) = none →
    exec (.scanAbort p) s = .next (s.withDev <| (w.fail id stInvalidField).skipHeads p.src)) ∧
  (Starts v 0x0902 p w id → w.store.scans.find? (fun y => y.tag.toNat == p.u16 0) = some x →
    exec (.scanAbort p) s = .next (s.withDev <| ((w.cutScan x.spire.val x.tag stAborted).finishOk id 0 0 0).skipHeads p.src)) ∧
  (v.store.scans.find? (fun y => y.spire == sp && y.tag == tag) = some x → (∀ o ∈ v.store.ops, o.use ≠ .scan sp tag) →
    x.fromBay = true → x.length ≤ x.got.length → x.grain = false → x.compare = false → exec (.scanComplete sp tag) s = .next (s.withDev <|
      let c := crcOf x.crc (x.got.flatMap (fun g => if x.inclMeta then slice g 0 4160 else slice g 0 4096))
      ({ v with store := { v.store with scans := v.store.scans.filter (fun y => !(y.spire == sp && y.tag == tag)) } }).finish x.cmd stOk
        (c % 2 ^ 32) (c / 2 ^ 32) 0 [])) ∧
  (v.store.scans.find? (fun y => y.spire == sp && y.tag == tag) = some x → (∀ o ∈ v.store.ops, o.use ≠ .scan sp tag) →
    x.fromBay = true → x.length ≤ x.got.length → x.grain = true → (∀ g ∈ x.got, crcMatches g = true) →
    exec (.scanComplete sp tag) s = .next (s.withDev <|
      ({ v with store := { v.store with scans := v.store.scans.filter (fun y => !(y.spire == sp && y.tag == tag)) } }).finish x.cmd stOk
        x.got.length 0 0xFFFFFFFF [])) ∧
  ((∃ o ∈ v.store.ops, o.use = .scan sp tag) → exec (.scanComplete sp tag) s = .next s)) ∧
  (∀ (s : State) (sp : Spire) (id : Nat) (t : Stripe) (k : List Byte),
  let v := s.dev
  let x := v.scrub sp.val
  let seams := x.seams t.rec_
  let taken := ((v.setScrub sp.val { x with reading := none, got := [], items := dropFirst (fun i => i == id) x.items }).count sp.val 0x07 0
    0x001 t.runs.length).count sp.val 0x07 0 0x003 1
  let serves := ∀ p b row, p < t.rec_.width → t.rec_.placeOf p = some (b, row) → (v.bay b).state = .serving
  let read := v.stripe id = some t ∧ v.spireUp sp.val = true ∧ v.serving = true ∧ x.reading = some id ∧ v.scrubBusy sp id = false ∧
    serves ∧ ∀ e ∈ x.got, e.2 ≠ []
  (v.atPeal = true → v.scrubOn sp.val = true → x.running = false → ∃ (u : Dev) (y : Scrub),
    exec (.scrubPassStart sp) s = .next (s.withDev u) ∧ u.scrub sp.val = y ∧ y.running = true ∧ y.items = v.scrubItems sp.val ∧
      y.pages = v.scrubPages sp.val ∧ y.total = y.items.length + y.pages.length ∧ y.pealNo = 0 ∧ y.quota = 0 ∧ y.late = false ∧ y.repair = x.repair ∧
      y.deferred = x.deferred ∧ y.passCount = x.passCount) ∧
  ((v.atPeal = false ∨ v.scrubOn sp.val = false ∨ x.running = true) → exec (.scrubPassStart sp) s = .next s) ∧
  (v.atPeal = true → v.scrubOn sp.val = true → x.running = true → x.pages = [] → x.late = true → x.items ≠ [] →
    (∀ i ∈ x.items, i ∈ v.scrubItems sp.val) → exec (.scrubPealQuota sp) s = .next (s.withDev <|
      v.setScrub sp.val { x with pealNo := x.pealNo + 1
                                 quota := x.quota + scrubQuota x.total (v.cfgBits (spireBase sp.val + 0x51000C) 31 0) (x.pealNo + 1) })) ∧
  ((v.atPeal = false ∨ v.scrubOn sp.val = false ∨ x.running = false) → exec (.scrubPealQuota sp) s = .next s) ∧
  (v.scrubOn sp.val = true → x.reading = none → x.quota ≠ 0 → x.items.head? = some id → v.stripe id = some t → serves →
    (Dev.scrubNext x.items.length v sp).scrub sp.val =
      { x with reading := some id, got := [], quota := x.quota - 1 } ∧
    (∀ p b row, p < t.rec_.width → t.rec_.placeOf p = some (b, row) → ∃ o ∈ (Dev.scrubNext x.items.length v sp).store.ops,
      o.bay = b ∧ o.lba = slotLba row ∧ o.cmd = .read ∧ o.use = .scrubRead sp id p)) ∧
  (read → scrubNeedsKey t seams = false → exec (.scrubStripeReadComplete sp id ()) s = .next (s.withDev <| taken.endPass sp.val)) ∧
  (read → scrubNeedsKey t seams = true → taken.stripeKey t.rec_ = some k →
    (taken.offerCipher sp.val 4 t.runs.length (.scrub id seams)).1 = true → exec (.scrubStripeReadComplete sp id ()) s = .next (s.withDev <|
      ((taken.offerCipher sp.val 4 t.runs.length (.scrub id seams)).2.scrubStripe t seams k).endPass sp.val)) ∧
  ((x.reading ≠ some id ∨ v.scrubBusy sp id = true) → exec (.scrubStripeReadComplete sp id ()) s = .next s) ∧
  (v.store.stripes.find? (fun y => y.rec_.id == id && !y.dead) = some t → v.scrubOn sp.val = true → id ∈ x.deferred →
    (v.stripeKey t.rec_).isSome = true → exec (.scrubDeferredRetry sp id) s = .next (s.withDev <|
      v.setScrub sp.val { x with deferred := x.deferred.filter (fun i => i != id), items := x.items ++ [id], quota := x.quota + 1 })) ∧
  (id ∉ x.deferred → exec (.scrubDeferredRetry sp id) s = .next s)) ∧
  (∀ (items peals : Nat), 0 < peals →
  sumMap (fun n => scrubQuota items peals (n + 1)) (List.range peals) = items ∧
  (∀ n, 0 < n → n ≤ peals → sumMap (fun i => scrubQuota items peals (i + 1)) (List.range n) = ceilDiv (items * n) peals) ∧
  (∀ n, scrubQuota items peals n ≤ ceilDiv items peals))

/-- R283, R284: what is lost on the Headframe: an intermediate that fails takes its cells with it; a gap older than the
wait is given up and its sender told; the sender sends the message again. R270, R271: a slot runs once and in its
order: it moves the slot count on, and one that has passed does nothing; what crosses the fabric changes no host, no
store and no register; of the tables, only the versions of groups named anew (R79). -/
def Obligations.HeadframeEvents : Prop :=
  (∀ (s : State) (plane : Fin 8) (i o dest src : Fin 64) (cls : Fin 8) (mc : Bool) (tag : BitVec 16),
  let v := s.dev
  (v.planeUp plane.val = true → (plane.val, i.val) ∉ v.hf.quarantined → ∃ u : Dev,
    exec (.hfIntermediateError plane i) s = .next (s.withDev u) ∧ (plane.val, i.val) ∈ u.hf.quarantined ∧
      (∀ e, e ∈ u.hf.inter ↔ e ∈ v.hf.inter ∧ ¬ (e.plane = plane.val ∧ e.inter = i.val)) ∧
      u.hf.reorder = v.hf.reorder ∧ u.hf.inputs = v.hf.inputs ∧ u.hosts = v.hosts ∧ u.store = v.store) ∧
  ((plane.val, i.val) ∈ v.hf.quarantined → exec (.hfIntermediateError plane i) s = .next s) ∧
  ((i.val, tag) ∉ v.hf.notices → exec (.lostNotice i tag) s = .next s) ∧
  ((i.val, tag) ∈ v.hf.notices → (∀ m ∈ v.hf.sent, m.src ≠ i.val) → exec (.lostNotice i tag) s = .next (s.withDev <|
    { v with hf := { v.hf with notices := dropFirst (fun e => e == (i.val, tag)) v.hf.notices } })) ∧
  (∀ m c, v.hf.notices = [(i.val, tag)] → v.hf.sent = [m] → m.src = i.val → m.tag = tag → m.cells = [c] → c.src = i → c.first = true →
    v.hfPort i = i → v.hfPortUp i.val = true → ∃ u : Dev, exec (.lostNotice i tag) s = .next (s.withDev u) ∧ u.hf.notices = [] ∧
      (∃ y, u.hf.inputs = v.hf.inputs ++ [y] ∧ y.msgTag = c.msgTag ∧ y.first = true ∧ y.midBad = false) ∧
      u.hf.inter = v.hf.inter ∧ u.hf.reorder = v.hf.reorder) ∧
  ((∀ e ∈ v.hf.reorder, e.output ≠ o.val) → exec (.reseqTimeout o mc dest src cls) s = .next s) ∧
  (∀ e m, v.hf.reorder = [e] → e.output = o.val → seqKey e.cell = seqKeyOf mc dest.val src.val cls.val →
    e.pos = v.hf.next o.val (seqKey e.cell) + 1 → e.cell.first = true → v.hf.sent = [m] → m.key = seqKey e.cell →
    o.val ∈ m.owed → (∃ c ∈ m.cells, c.seq = v.hf.next o.val (seqKey e.cell)) → e.at_ + 1 + v.cfgBits 0x400010 15 0 ≤ v.hf.slotNo →
    ∃ u : Dev, exec (.reseqTimeout o mc dest src cls) s = .next (s.withDev u) ∧ (m.src, m.tag) ∈ u.hf.notices ∧
      (Out.lostNotice m.src m.tag) ∈ u.out ∧ u.hf.next o.val (seqKey e.cell) = e.pos ∧ u.hf.reorder = [e])) ∧
  (∀ (s : State) (slot : Fin 128) (offered : List Cell),
  let v := s.dev
  let a := v.now * 128 + slot.val
  ((v.mode = .held ∨ a < v.hf.slotNo) → exec (.headframeSlot slot offered) s = .next s) ∧
  (v.mode ≠ .held → v.hf.slotNo ≤ a → ∃ u : Dev, exec (.headframeSlot slot offered) s = .next (s.withDev u) ∧
    u.hf.slotNo = a + 1 ∧ u.hosts = { v.hosts with tabVers := u.hosts.tabVers } ∧ u.store = v.store ∧ u.regs = v.regs ∧ u.sec = v.sec ∧ u.winMem = v.winMem ∧
    u.ep = v.ep ∧ u.floder = v.floder ∧ u.mode = v.mode ∧ u.clk = { v.clk with ns := max v.clk.ns (4 * slot.val) }))
end

