-- ==== Sys2Proof/Laws/Bytes.lean ====
section
/-! SUPPORT. Laws of byte strings: little-endian numbers, slices, and a grain record whose CRC-64 has been corrected. -/

namespace Sys2Proof.Machine

theorem leNat_leBytes (n x : Nat) : leNat (leBytes n x) = x % 256 ^ n := by
  induction n generalizing x with
  | zero => simp [leNat, leBytes, Nat.mod_one]
  | succ n ih =>
    have h : 256 ^ (n + 1) = 256 * 256 ^ n := by rw [Nat.pow_succ, Nat.mul_comm]
    simp only [leNat, leBytes, ih, BitVec.toNat_ofNat]
    rw [h, Nat.mod_mul]

theorem length_leBytes (n x : Nat) : (leBytes n x).length = n := by
  induction n generalizing x with
  | zero => rfl
  | succ n ih => simp [leBytes, ih]

theorem length_slice (l : List Byte) (a n : Nat) : (slice l a n).length = n := by
  simp only [slice, List.length_append, List.length_take, List.length_replicate]; omega

theorem reflectBits_lt (n x : Nat) : reflectBits n x < 2 ^ n := by
  induction n generalizing x with
  | zero => simp [reflectBits]
  | succ n ih =>
    have := ih (x / 2)
    simp only [reflectBits, Nat.pow_succ]
    rcases Nat.mod_two_eq_zero_or_one x with h | h <;> rw [h] <;> omega

theorem length_imgFixCrc (img : List Byte) : (imgFixCrc img).length = 4160 := by
  simp [imgFixCrc, imgData, length_slice, length_leBytes]

/-- A record whose CRC-64 has been corrected matches its CRC-64 (R203, R215). -/
theorem crcMatches_imgFixCrc (img : List Byte) : crcMatches (imgFixCrc img) = true := by
  obtain ⟨d, hd⟩ : ∃ d, d = imgData img := ⟨_, rfl⟩
  obtain ⟨m, hm⟩ : ∃ m, m = slice img 4096 24 := ⟨_, rfl⟩
  have h1 : d.length = 4096 := hd ▸ length_slice _ _ _
  have h2 : m.length = 24 := hm ▸ length_slice _ _ _
  have h : crcOf crc64 d < 2 ^ 64 := by
    simp only [crcOf, crc64, if_true]
    exact Nat.xor_lt_two_pow (reflectBits_lt _ _) (by decide)
  have e1 : imgData (imgFixCrc img) = d := by
    simp only [imgFixCrc, ← hd, ← hm, List.append_assoc]
    simp only [imgData, slice, List.drop_zero]
    rw [List.take_append_of_le_length (by omega), List.take_of_length_le (by omega), h1]
    simp
  have e2 : imgCrc (imgFixCrc img) = crcOf crc64 d := by
    simp only [imgFixCrc, ← hd, ← hm, imgCrc, field]
    rw [List.append_assoc, List.drop_append_of_le_length (by simp [h1, h2]), List.drop_of_length_le (by simp [h1, h2]), List.nil_append,
      List.take_append_of_le_length (by simp [length_leBytes]), List.take_of_length_le (by simp [length_leBytes]), leNat_leBytes]
    exact Nat.mod_eq_of_lt h
  simp [crcMatches, e1, e2]

end Sys2Proof.Machine
end

