-- ==== Sys2Proof/Laws/State.lean ====
section
/-! SUPPORT. What each named update of the device leaves as it was, one lemma a field, and the laws of the sparse tables: a
later proof unfolds no record update. -/

namespace Sys2Proof.Machine

/-! ### The clock and the ids -/

@[simp] theorem Dev.reachNs_winMem (v : Dev) (n : Nat) : (Dev.reachNs v n).winMem = v.winMem := rfl
@[simp] theorem Dev.reachNs_chip (v : Dev) (n : Nat) : (Dev.reachNs v n).chip = v.chip := rfl
@[simp] theorem Dev.reachNs_regs (v : Dev) (n : Nat) : (Dev.reachNs v n).regs = v.regs := rfl
@[simp] theorem Dev.reachNs_hosts (v : Dev) (n : Nat) : (Dev.reachNs v n).hosts = v.hosts := rfl
@[simp] theorem Dev.reachNs_store (v : Dev) (n : Nat) : (Dev.reachNs v n).store = v.store := rfl
@[simp] theorem Dev.reachNs_hf (v : Dev) (n : Nat) : (Dev.reachNs v n).hf = v.hf := rfl
@[simp] theorem Dev.reachNs_keySlots (v : Dev) (n : Nat) : (Dev.reachNs v n).keySlots = v.keySlots := rfl
@[simp] theorem Dev.reachNs_leases (v : Dev) (n : Nat) : (Dev.reachNs v n).leases = v.leases := rfl
@[simp] theorem Dev.reachNs_spireLeases (v : Dev) (n : Nat) : (Dev.reachNs v n).spireLeases = v.spireLeases := rfl
@[simp] theorem Dev.reachNs_ciphers (v : Dev) (n : Nat) : (Dev.reachNs v n).ciphers = v.ciphers := rfl
@[simp] theorem Dev.reachNs_sec (v : Dev) (n : Nat) : (Dev.reachNs v n).sec = v.sec := rfl
@[simp] theorem Dev.reachNs_chans (v : Dev) (n : Nat) : (Dev.reachNs v n).chans = v.chans := rfl
@[simp] theorem Dev.reachNs_faults (v : Dev) (n : Nat) : (Dev.reachNs v n).faults = v.faults := rfl
@[simp] theorem Dev.reachNs_recov (v : Dev) (n : Nat) : (Dev.reachNs v n).recov = v.recov := rfl
@[simp] theorem Dev.reachNs_fcLast (v : Dev) (n : Nat) : (Dev.reachNs v n).fcLast = v.fcLast := rfl
@[simp] theorem Dev.reachNs_floder (v : Dev) (n : Nat) : (Dev.reachNs v n).floder = v.floder := rfl
@[simp] theorem Dev.reachNs_ep (v : Dev) (n : Nat) : (Dev.reachNs v n).ep = v.ep := rfl
@[simp] theorem Dev.reachNs_pmon (v : Dev) (n : Nat) : (Dev.reachNs v n).pmon = v.pmon := rfl
@[simp] theorem Dev.reachNs_out (v : Dev) (n : Nat) : (Dev.reachNs v n).out = v.out := rfl
@[simp] theorem Dev.reachNs_freeTick (v : Dev) (n : Nat) : (Dev.reachNs v n).freeTick = v.freeTick := rfl
@[simp] theorem Dev.reachNs_nextId (v : Dev) (n : Nat) : (Dev.reachNs v n).nextId = v.nextId := rfl
@[simp] theorem Dev.fresh_clk (v : Dev) : (Dev.fresh v).2.clk = v.clk := rfl
@[simp] theorem Dev.fresh_winMem (v : Dev) : (Dev.fresh v).2.winMem = v.winMem := rfl
@[simp] theorem Dev.fresh_chip (v : Dev) : (Dev.fresh v).2.chip = v.chip := rfl
@[simp] theorem Dev.fresh_regs (v : Dev) : (Dev.fresh v).2.regs = v.regs := rfl
@[simp] theorem Dev.fresh_hosts (v : Dev) : (Dev.fresh v).2.hosts = v.hosts := rfl
@[simp] theorem Dev.fresh_store (v : Dev) : (Dev.fresh v).2.store = v.store := rfl
@[simp] theorem Dev.fresh_hf (v : Dev) : (Dev.fresh v).2.hf = v.hf := rfl
@[simp] theorem Dev.fresh_keySlots (v : Dev) : (Dev.fresh v).2.keySlots = v.keySlots := rfl
@[simp] theorem Dev.fresh_leases (v : Dev) : (Dev.fresh v).2.leases = v.leases := rfl
@[simp] theorem Dev.fresh_spireLeases (v : Dev) : (Dev.fresh v).2.spireLeases = v.spireLeases := rfl
@[simp] theorem Dev.fresh_ciphers (v : Dev) : (Dev.fresh v).2.ciphers = v.ciphers := rfl
@[simp] theorem Dev.fresh_sec (v : Dev) : (Dev.fresh v).2.sec = v.sec := rfl
@[simp] theorem Dev.fresh_chans (v : Dev) : (Dev.fresh v).2.chans = v.chans := rfl
@[simp] theorem Dev.fresh_faults (v : Dev) : (Dev.fresh v).2.faults = v.faults := rfl
@[simp] theorem Dev.fresh_recov (v : Dev) : (Dev.fresh v).2.recov = v.recov := rfl
@[simp] theorem Dev.fresh_fcLast (v : Dev) : (Dev.fresh v).2.fcLast = v.fcLast := rfl
@[simp] theorem Dev.fresh_floder (v : Dev) : (Dev.fresh v).2.floder = v.floder := rfl
@[simp] theorem Dev.fresh_ep (v : Dev) : (Dev.fresh v).2.ep = v.ep := rfl
@[simp] theorem Dev.fresh_pmon (v : Dev) : (Dev.fresh v).2.pmon = v.pmon := rfl
@[simp] theorem Dev.fresh_out (v : Dev) : (Dev.fresh v).2.out = v.out := rfl
@[simp] theorem Dev.fresh_freeTick (v : Dev) : (Dev.fresh v).2.freeTick = v.freeTick := rfl
@[simp] theorem Dev.free64_clk (v : Dev) : (Dev.free64 v).2.clk = v.clk := rfl
@[simp] theorem Dev.free64_winMem (v : Dev) : (Dev.free64 v).2.winMem = v.winMem := rfl
@[simp] theorem Dev.free64_chip (v : Dev) : (Dev.free64 v).2.chip = v.chip := rfl
@[simp] theorem Dev.free64_regs (v : Dev) : (Dev.free64 v).2.regs = v.regs := rfl
@[simp] theorem Dev.free64_hosts (v : Dev) : (Dev.free64 v).2.hosts = v.hosts := rfl
@[simp] theorem Dev.free64_store (v : Dev) : (Dev.free64 v).2.store = v.store := rfl
@[simp] theorem Dev.free64_hf (v : Dev) : (Dev.free64 v).2.hf = v.hf := rfl
@[simp] theorem Dev.free64_keySlots (v : Dev) : (Dev.free64 v).2.keySlots = v.keySlots := rfl
@[simp] theorem Dev.free64_leases (v : Dev) : (Dev.free64 v).2.leases = v.leases := rfl
@[simp] theorem Dev.free64_spireLeases (v : Dev) : (Dev.free64 v).2.spireLeases = v.spireLeases := rfl
@[simp] theorem Dev.free64_ciphers (v : Dev) : (Dev.free64 v).2.ciphers = v.ciphers := rfl
@[simp] theorem Dev.free64_sec (v : Dev) : (Dev.free64 v).2.sec = v.sec := rfl
@[simp] theorem Dev.free64_chans (v : Dev) : (Dev.free64 v).2.chans = v.chans := rfl
@[simp] theorem Dev.free64_faults (v : Dev) : (Dev.free64 v).2.faults = v.faults := rfl
@[simp] theorem Dev.free64_recov (v : Dev) : (Dev.free64 v).2.recov = v.recov := rfl
@[simp] theorem Dev.free64_fcLast (v : Dev) : (Dev.free64 v).2.fcLast = v.fcLast := rfl
@[simp] theorem Dev.free64_floder (v : Dev) : (Dev.free64 v).2.floder = v.floder := rfl
@[simp] theorem Dev.free64_ep (v : Dev) : (Dev.free64 v).2.ep = v.ep := rfl
@[simp] theorem Dev.free64_pmon (v : Dev) : (Dev.free64 v).2.pmon = v.pmon := rfl
@[simp] theorem Dev.free64_out (v : Dev) : (Dev.free64 v).2.out = v.out := rfl
@[simp] theorem Dev.free64_nextId (v : Dev) : (Dev.free64 v).2.nextId = v.nextId := rfl
@[simp] theorem Dev.free32_clk (v : Dev) : (Dev.free32 v).2.clk = v.clk := rfl
@[simp] theorem Dev.free32_winMem (v : Dev) : (Dev.free32 v).2.winMem = v.winMem := rfl
@[simp] theorem Dev.free32_chip (v : Dev) : (Dev.free32 v).2.chip = v.chip := rfl
@[simp] theorem Dev.free32_regs (v : Dev) : (Dev.free32 v).2.regs = v.regs := rfl
@[simp] theorem Dev.free32_hosts (v : Dev) : (Dev.free32 v).2.hosts = v.hosts := rfl
@[simp] theorem Dev.free32_store (v : Dev) : (Dev.free32 v).2.store = v.store := rfl
@[simp] theorem Dev.free32_hf (v : Dev) : (Dev.free32 v).2.hf = v.hf := rfl
@[simp] theorem Dev.free32_keySlots (v : Dev) : (Dev.free32 v).2.keySlots = v.keySlots := rfl
@[simp] theorem Dev.free32_leases (v : Dev) : (Dev.free32 v).2.leases = v.leases := rfl
@[simp] theorem Dev.free32_spireLeases (v : Dev) : (Dev.free32 v).2.spireLeases = v.spireLeases := rfl
@[simp] theorem Dev.free32_ciphers (v : Dev) : (Dev.free32 v).2.ciphers = v.ciphers := rfl
@[simp] theorem Dev.free32_sec (v : Dev) : (Dev.free32 v).2.sec = v.sec := rfl
@[simp] theorem Dev.free32_chans (v : Dev) : (Dev.free32 v).2.chans = v.chans := rfl
@[simp] theorem Dev.free32_faults (v : Dev) : (Dev.free32 v).2.faults = v.faults := rfl
@[simp] theorem Dev.free32_recov (v : Dev) : (Dev.free32 v).2.recov = v.recov := rfl
@[simp] theorem Dev.free32_fcLast (v : Dev) : (Dev.free32 v).2.fcLast = v.fcLast := rfl
@[simp] theorem Dev.free32_floder (v : Dev) : (Dev.free32 v).2.floder = v.floder := rfl
@[simp] theorem Dev.free32_ep (v : Dev) : (Dev.free32 v).2.ep = v.ep := rfl
@[simp] theorem Dev.free32_pmon (v : Dev) : (Dev.free32 v).2.pmon = v.pmon := rfl
@[simp] theorem Dev.free32_out (v : Dev) : (Dev.free32 v).2.out = v.out := rfl
@[simp] theorem Dev.free32_nextId (v : Dev) : (Dev.free32 v).2.nextId = v.nextId := rfl
@[simp] theorem Dev.freeBytes_clk (v : Dev) (n : Nat) : (Dev.freeBytes v n).2.clk = v.clk := rfl
@[simp] theorem Dev.freeBytes_winMem (v : Dev) (n : Nat) : (Dev.freeBytes v n).2.winMem = v.winMem := rfl
@[simp] theorem Dev.freeBytes_chip (v : Dev) (n : Nat) : (Dev.freeBytes v n).2.chip = v.chip := rfl
@[simp] theorem Dev.freeBytes_regs (v : Dev) (n : Nat) : (Dev.freeBytes v n).2.regs = v.regs := rfl
@[simp] theorem Dev.freeBytes_hosts (v : Dev) (n : Nat) : (Dev.freeBytes v n).2.hosts = v.hosts := rfl
@[simp] theorem Dev.freeBytes_store (v : Dev) (n : Nat) : (Dev.freeBytes v n).2.store = v.store := rfl
@[simp] theorem Dev.freeBytes_hf (v : Dev) (n : Nat) : (Dev.freeBytes v n).2.hf = v.hf := rfl
@[simp] theorem Dev.freeBytes_keySlots (v : Dev) (n : Nat) : (Dev.freeBytes v n).2.keySlots = v.keySlots := rfl
@[simp] theorem Dev.freeBytes_leases (v : Dev) (n : Nat) : (Dev.freeBytes v n).2.leases = v.leases := rfl
@[simp] theorem Dev.freeBytes_spireLeases (v : Dev) (n : Nat) : (Dev.freeBytes v n).2.spireLeases = v.spireLeases := rfl
@[simp] theorem Dev.freeBytes_ciphers (v : Dev) (n : Nat) : (Dev.freeBytes v n).2.ciphers = v.ciphers := rfl
@[simp] theorem Dev.freeBytes_sec (v : Dev) (n : Nat) : (Dev.freeBytes v n).2.sec = v.sec := rfl
@[simp] theorem Dev.freeBytes_chans (v : Dev) (n : Nat) : (Dev.freeBytes v n).2.chans = v.chans := rfl
@[simp] theorem Dev.freeBytes_faults (v : Dev) (n : Nat) : (Dev.freeBytes v n).2.faults = v.faults := rfl
@[simp] theorem Dev.freeBytes_recov (v : Dev) (n : Nat) : (Dev.freeBytes v n).2.recov = v.recov := rfl
@[simp] theorem Dev.freeBytes_fcLast (v : Dev) (n : Nat) : (Dev.freeBytes v n).2.fcLast = v.fcLast := rfl
@[simp] theorem Dev.freeBytes_floder (v : Dev) (n : Nat) : (Dev.freeBytes v n).2.floder = v.floder := rfl
@[simp] theorem Dev.freeBytes_ep (v : Dev) (n : Nat) : (Dev.freeBytes v n).2.ep = v.ep := rfl
@[simp] theorem Dev.freeBytes_pmon (v : Dev) (n : Nat) : (Dev.freeBytes v n).2.pmon = v.pmon := rfl
@[simp] theorem Dev.freeBytes_out (v : Dev) (n : Nat) : (Dev.freeBytes v n).2.out = v.out := rfl
@[simp] theorem Dev.freeBytes_nextId (v : Dev) (n : Nat) : (Dev.freeBytes v n).2.nextId = v.nextId := rfl
@[simp] theorem Dev.freeBool_clk (v : Dev) : (Dev.freeBool v).2.clk = v.clk := rfl
@[simp] theorem Dev.freeBool_winMem (v : Dev) : (Dev.freeBool v).2.winMem = v.winMem := rfl
@[simp] theorem Dev.freeBool_chip (v : Dev) : (Dev.freeBool v).2.chip = v.chip := rfl
@[simp] theorem Dev.freeBool_regs (v : Dev) : (Dev.freeBool v).2.regs = v.regs := rfl
@[simp] theorem Dev.freeBool_hosts (v : Dev) : (Dev.freeBool v).2.hosts = v.hosts := rfl
@[simp] theorem Dev.freeBool_store (v : Dev) : (Dev.freeBool v).2.store = v.store := rfl
@[simp] theorem Dev.freeBool_hf (v : Dev) : (Dev.freeBool v).2.hf = v.hf := rfl
@[simp] theorem Dev.freeBool_keySlots (v : Dev) : (Dev.freeBool v).2.keySlots = v.keySlots := rfl
@[simp] theorem Dev.freeBool_leases (v : Dev) : (Dev.freeBool v).2.leases = v.leases := rfl
@[simp] theorem Dev.freeBool_spireLeases (v : Dev) : (Dev.freeBool v).2.spireLeases = v.spireLeases := rfl
@[simp] theorem Dev.freeBool_ciphers (v : Dev) : (Dev.freeBool v).2.ciphers = v.ciphers := rfl
@[simp] theorem Dev.freeBool_sec (v : Dev) : (Dev.freeBool v).2.sec = v.sec := rfl
@[simp] theorem Dev.freeBool_chans (v : Dev) : (Dev.freeBool v).2.chans = v.chans := rfl
@[simp] theorem Dev.freeBool_faults (v : Dev) : (Dev.freeBool v).2.faults = v.faults := rfl
@[simp] theorem Dev.freeBool_recov (v : Dev) : (Dev.freeBool v).2.recov = v.recov := rfl
@[simp] theorem Dev.freeBool_fcLast (v : Dev) : (Dev.freeBool v).2.fcLast = v.fcLast := rfl
@[simp] theorem Dev.freeBool_floder (v : Dev) : (Dev.freeBool v).2.floder = v.floder := rfl
@[simp] theorem Dev.freeBool_ep (v : Dev) : (Dev.freeBool v).2.ep = v.ep := rfl
@[simp] theorem Dev.freeBool_pmon (v : Dev) : (Dev.freeBool v).2.pmon = v.pmon := rfl
@[simp] theorem Dev.freeBool_out (v : Dev) : (Dev.freeBool v).2.out = v.out := rfl
@[simp] theorem Dev.freeBool_nextId (v : Dev) : (Dev.freeBool v).2.nextId = v.nextId := rfl
@[simp] theorem Dev.free256_clk (v : Dev) : (Dev.free256 v).2.clk = v.clk := rfl
@[simp] theorem Dev.free256_winMem (v : Dev) : (Dev.free256 v).2.winMem = v.winMem := rfl
@[simp] theorem Dev.free256_chip (v : Dev) : (Dev.free256 v).2.chip = v.chip := rfl
@[simp] theorem Dev.free256_regs (v : Dev) : (Dev.free256 v).2.regs = v.regs := rfl
@[simp] theorem Dev.free256_hosts (v : Dev) : (Dev.free256 v).2.hosts = v.hosts := rfl
@[simp] theorem Dev.free256_store (v : Dev) : (Dev.free256 v).2.store = v.store := rfl
@[simp] theorem Dev.free256_hf (v : Dev) : (Dev.free256 v).2.hf = v.hf := rfl
@[simp] theorem Dev.free256_keySlots (v : Dev) : (Dev.free256 v).2.keySlots = v.keySlots := rfl
@[simp] theorem Dev.free256_leases (v : Dev) : (Dev.free256 v).2.leases = v.leases := rfl
@[simp] theorem Dev.free256_spireLeases (v : Dev) : (Dev.free256 v).2.spireLeases = v.spireLeases := rfl
@[simp] theorem Dev.free256_ciphers (v : Dev) : (Dev.free256 v).2.ciphers = v.ciphers := rfl
@[simp] theorem Dev.free256_sec (v : Dev) : (Dev.free256 v).2.sec = v.sec := rfl
@[simp] theorem Dev.free256_chans (v : Dev) : (Dev.free256 v).2.chans = v.chans := rfl
@[simp] theorem Dev.free256_faults (v : Dev) : (Dev.free256 v).2.faults = v.faults := rfl
@[simp] theorem Dev.free256_recov (v : Dev) : (Dev.free256 v).2.recov = v.recov := rfl
@[simp] theorem Dev.free256_fcLast (v : Dev) : (Dev.free256 v).2.fcLast = v.fcLast := rfl
@[simp] theorem Dev.free256_floder (v : Dev) : (Dev.free256 v).2.floder = v.floder := rfl
@[simp] theorem Dev.free256_ep (v : Dev) : (Dev.free256 v).2.ep = v.ep := rfl
@[simp] theorem Dev.free256_pmon (v : Dev) : (Dev.free256 v).2.pmon = v.pmon := rfl
@[simp] theorem Dev.free256_out (v : Dev) : (Dev.free256 v).2.out = v.out := rfl
@[simp] theorem Dev.free256_nextId (v : Dev) : (Dev.free256 v).2.nextId = v.nextId := rfl
@[simp] theorem Dev.emit_clk (v : Dev) (o : Out) : (Dev.emit v o).clk = v.clk := rfl
@[simp] theorem Dev.emit_winMem (v : Dev) (o : Out) : (Dev.emit v o).winMem = v.winMem := rfl
@[simp] theorem Dev.emit_chip (v : Dev) (o : Out) : (Dev.emit v o).chip = v.chip := rfl
@[simp] theorem Dev.emit_regs (v : Dev) (o : Out) : (Dev.emit v o).regs = v.regs := rfl
@[simp] theorem Dev.emit_hosts (v : Dev) (o : Out) : (Dev.emit v o).hosts = v.hosts := rfl
@[simp] theorem Dev.emit_store (v : Dev) (o : Out) : (Dev.emit v o).store = v.store := rfl
@[simp] theorem Dev.emit_hf (v : Dev) (o : Out) : (Dev.emit v o).hf = v.hf := rfl
@[simp] theorem Dev.emit_keySlots (v : Dev) (o : Out) : (Dev.emit v o).keySlots = v.keySlots := rfl
@[simp] theorem Dev.emit_leases (v : Dev) (o : Out) : (Dev.emit v o).leases = v.leases := rfl
@[simp] theorem Dev.emit_spireLeases (v : Dev) (o : Out) : (Dev.emit v o).spireLeases = v.spireLeases := rfl
@[simp] theorem Dev.emit_ciphers (v : Dev) (o : Out) : (Dev.emit v o).ciphers = v.ciphers := rfl
@[simp] theorem Dev.emit_sec (v : Dev) (o : Out) : (Dev.emit v o).sec = v.sec := rfl
@[simp] theorem Dev.emit_chans (v : Dev) (o : Out) : (Dev.emit v o).chans = v.chans := rfl
@[simp] theorem Dev.emit_faults (v : Dev) (o : Out) : (Dev.emit v o).faults = v.faults := rfl
@[simp] theorem Dev.emit_recov (v : Dev) (o : Out) : (Dev.emit v o).recov = v.recov := rfl
@[simp] theorem Dev.emit_fcLast (v : Dev) (o : Out) : (Dev.emit v o).fcLast = v.fcLast := rfl
@[simp] theorem Dev.emit_floder (v : Dev) (o : Out) : (Dev.emit v o).floder = v.floder := rfl
@[simp] theorem Dev.emit_ep (v : Dev) (o : Out) : (Dev.emit v o).ep = v.ep := rfl
@[simp] theorem Dev.emit_pmon (v : Dev) (o : Out) : (Dev.emit v o).pmon = v.pmon := rfl
@[simp] theorem Dev.emit_freeTick (v : Dev) (o : Out) : (Dev.emit v o).freeTick = v.freeTick := rfl
@[simp] theorem Dev.emit_nextId (v : Dev) (o : Out) : (Dev.emit v o).nextId = v.nextId := rfl
@[simp] theorem Dev.emitAll_clk (v : Dev) (os : List Out) : (Dev.emitAll v os).clk = v.clk := rfl
@[simp] theorem Dev.emitAll_winMem (v : Dev) (os : List Out) : (Dev.emitAll v os).winMem = v.winMem := rfl
@[simp] theorem Dev.emitAll_chip (v : Dev) (os : List Out) : (Dev.emitAll v os).chip = v.chip := rfl
@[simp] theorem Dev.emitAll_regs (v : Dev) (os : List Out) : (Dev.emitAll v os).regs = v.regs := rfl
@[simp] theorem Dev.emitAll_hosts (v : Dev) (os : List Out) : (Dev.emitAll v os).hosts = v.hosts := rfl
@[simp] theorem Dev.emitAll_store (v : Dev) (os : List Out) : (Dev.emitAll v os).store = v.store := rfl
@[simp] theorem Dev.emitAll_hf (v : Dev) (os : List Out) : (Dev.emitAll v os).hf = v.hf := rfl
@[simp] theorem Dev.emitAll_keySlots (v : Dev) (os : List Out) : (Dev.emitAll v os).keySlots = v.keySlots := rfl
@[simp] theorem Dev.emitAll_leases (v : Dev) (os : List Out) : (Dev.emitAll v os).leases = v.leases := rfl
@[simp] theorem Dev.emitAll_spireLeases (v : Dev) (os : List Out) : (Dev.emitAll v os).spireLeases = v.spireLeases := rfl
@[simp] theorem Dev.emitAll_ciphers (v : Dev) (os : List Out) : (Dev.emitAll v os).ciphers = v.ciphers := rfl
@[simp] theorem Dev.emitAll_sec (v : Dev) (os : List Out) : (Dev.emitAll v os).sec = v.sec := rfl
@[simp] theorem Dev.emitAll_chans (v : Dev) (os : List Out) : (Dev.emitAll v os).chans = v.chans := rfl
@[simp] theorem Dev.emitAll_faults (v : Dev) (os : List Out) : (Dev.emitAll v os).faults = v.faults := rfl
@[simp] theorem Dev.emitAll_recov (v : Dev) (os : List Out) : (Dev.emitAll v os).recov = v.recov := rfl
@[simp] theorem Dev.emitAll_fcLast (v : Dev) (os : List Out) : (Dev.emitAll v os).fcLast = v.fcLast := rfl
@[simp] theorem Dev.emitAll_floder (v : Dev) (os : List Out) : (Dev.emitAll v os).floder = v.floder := rfl
@[simp] theorem Dev.emitAll_ep (v : Dev) (os : List Out) : (Dev.emitAll v os).ep = v.ep := rfl
@[simp] theorem Dev.emitAll_pmon (v : Dev) (os : List Out) : (Dev.emitAll v os).pmon = v.pmon := rfl
@[simp] theorem Dev.emitAll_freeTick (v : Dev) (os : List Out) : (Dev.emitAll v os).freeTick = v.freeTick := rfl
@[simp] theorem Dev.emitAll_nextId (v : Dev) (os : List Out) : (Dev.emitAll v os).nextId = v.nextId := rfl

/-! ### The chip -/

@[simp] theorem Dev.modeEvent_clk (v : Dev) (e : ModeEvent) : (Dev.modeEvent v e).clk = v.clk := rfl
@[simp] theorem Dev.modeEvent_winMem (v : Dev) (e : ModeEvent) : (Dev.modeEvent v e).winMem = v.winMem := rfl
@[simp] theorem Dev.modeEvent_chip_servo (v : Dev) (e : ModeEvent) : (Dev.modeEvent v e).chip.servo = v.chip.servo := rfl
@[simp] theorem Dev.modeEvent_chip_boot (v : Dev) (e : ModeEvent) : (Dev.modeEvent v e).chip.boot = v.chip.boot := rfl
@[simp] theorem Dev.modeEvent_chip_survey (v : Dev) (e : ModeEvent) : (Dev.modeEvent v e).chip.survey = v.chip.survey := rfl
@[simp] theorem Dev.modeEvent_chip_drain (v : Dev) (e : ModeEvent) : (Dev.modeEvent v e).chip.drain = v.chip.drain := rfl
@[simp] theorem Dev.modeEvent_chip_vault (v : Dev) (e : ModeEvent) : (Dev.modeEvent v e).chip.vault = v.chip.vault := rfl
@[simp] theorem Dev.modeEvent_chip_markerSeq (v : Dev) (e : ModeEvent) : (Dev.modeEvent v e).chip.markerSeq = v.chip.markerSeq := rfl
@[simp] theorem Dev.modeEvent_chip_recordImage (v : Dev) (e : ModeEvent) : (Dev.modeEvent v e).chip.recordImage = v.chip.recordImage := rfl
@[simp] theorem Dev.modeEvent_chip_imageAt (v : Dev) (e : ModeEvent) : (Dev.modeEvent v e).chip.imageAt = v.chip.imageAt := rfl
@[simp] theorem Dev.modeEvent_chip_input (v : Dev) (e : ModeEvent) : (Dev.modeEvent v e).chip.input = v.chip.input := rfl
@[simp] theorem Dev.modeEvent_chip_frozenIn (v : Dev) (e : ModeEvent) : (Dev.modeEvent v e).chip.frozenIn = v.chip.frozenIn := rfl
@[simp] theorem Dev.modeEvent_chip_syncOut (v : Dev) (e : ModeEvent) : (Dev.modeEvent v e).chip.syncOut = v.chip.syncOut := rfl
@[simp] theorem Dev.modeEvent_chip_straps (v : Dev) (e : ModeEvent) : (Dev.modeEvent v e).chip.straps = v.chip.straps := rfl
@[simp] theorem Dev.modeEvent_chip_supplies (v : Dev) (e : ModeEvent) : (Dev.modeEvent v e).chip.supplies = v.chip.supplies := rfl
@[simp] theorem Dev.modeEvent_chip_unrepaired (v : Dev) (e : ModeEvent) : (Dev.modeEvent v e).chip.unrepaired = v.chip.unrepaired := rfl
@[simp] theorem Dev.modeEvent_chip_exposure (v : Dev) (e : ModeEvent) : (Dev.modeEvent v e).chip.exposure = v.chip.exposure := rfl
@[simp] theorem Dev.modeEvent_chip_keeps (v : Dev) (e : ModeEvent) : (Dev.modeEvent v e).chip.keeps = v.chip.keeps := rfl
@[simp] theorem Dev.modeEvent_chip_spires (v : Dev) (e : ModeEvent) : (Dev.modeEvent v e).chip.spires = v.chip.spires := rfl
@[simp] theorem Dev.modeEvent_chip_temps (v : Dev) (e : ModeEvent) : (Dev.modeEvent v e).chip.temps = v.chip.temps := rfl
@[simp] theorem Dev.modeEvent_chip_tempsPrev (v : Dev) (e : ModeEvent) : (Dev.modeEvent v e).chip.tempsPrev = v.chip.tempsPrev := rfl
@[simp] theorem Dev.modeEvent_chip_rng (v : Dev) (e : ModeEvent) : (Dev.modeEvent v e).chip.rng = v.chip.rng := rfl
@[simp] theorem Dev.modeEvent_regs (v : Dev) (e : ModeEvent) : (Dev.modeEvent v e).regs = v.regs := rfl
@[simp] theorem Dev.modeEvent_hosts (v : Dev) (e : ModeEvent) : (Dev.modeEvent v e).hosts = v.hosts := rfl
@[simp] theorem Dev.modeEvent_store (v : Dev) (e : ModeEvent) : (Dev.modeEvent v e).store = v.store := rfl
@[simp] theorem Dev.modeEvent_hf (v : Dev) (e : ModeEvent) : (Dev.modeEvent v e).hf = v.hf := rfl
@[simp] theorem Dev.modeEvent_keySlots (v : Dev) (e : ModeEvent) : (Dev.modeEvent v e).keySlots = v.keySlots := rfl
@[simp] theorem Dev.modeEvent_leases (v : Dev) (e : ModeEvent) : (Dev.modeEvent v e).leases = v.leases := rfl
@[simp] theorem Dev.modeEvent_spireLeases (v : Dev) (e : ModeEvent) : (Dev.modeEvent v e).spireLeases = v.spireLeases := rfl
@[simp] theorem Dev.modeEvent_ciphers (v : Dev) (e : ModeEvent) : (Dev.modeEvent v e).ciphers = v.ciphers := rfl
@[simp] theorem Dev.modeEvent_sec (v : Dev) (e : ModeEvent) : (Dev.modeEvent v e).sec = v.sec := rfl
@[simp] theorem Dev.modeEvent_chans (v : Dev) (e : ModeEvent) : (Dev.modeEvent v e).chans = v.chans := rfl
@[simp] theorem Dev.modeEvent_faults (v : Dev) (e : ModeEvent) : (Dev.modeEvent v e).faults = v.faults := rfl
@[simp] theorem Dev.modeEvent_recov (v : Dev) (e : ModeEvent) : (Dev.modeEvent v e).recov = v.recov := rfl
@[simp] theorem Dev.modeEvent_fcLast (v : Dev) (e : ModeEvent) : (Dev.modeEvent v e).fcLast = v.fcLast := rfl
@[simp] theorem Dev.modeEvent_floder (v : Dev) (e : ModeEvent) : (Dev.modeEvent v e).floder = v.floder := rfl
@[simp] theorem Dev.modeEvent_ep (v : Dev) (e : ModeEvent) : (Dev.modeEvent v e).ep = v.ep := rfl
@[simp] theorem Dev.modeEvent_pmon (v : Dev) (e : ModeEvent) : (Dev.modeEvent v e).pmon = v.pmon := rfl
@[simp] theorem Dev.modeEvent_out (v : Dev) (e : ModeEvent) : (Dev.modeEvent v e).out = v.out := rfl
@[simp] theorem Dev.modeEvent_freeTick (v : Dev) (e : ModeEvent) : (Dev.modeEvent v e).freeTick = v.freeTick := rfl
@[simp] theorem Dev.modeEvent_nextId (v : Dev) (e : ModeEvent) : (Dev.modeEvent v e).nextId = v.nextId := rfl
@[simp] theorem Dev.adjBoot_clk (v : Dev) (f : Boot → Boot) : (Dev.adjBoot v f).clk = v.clk := rfl
@[simp] theorem Dev.adjBoot_winMem (v : Dev) (f : Boot → Boot) : (Dev.adjBoot v f).winMem = v.winMem := rfl
@[simp] theorem Dev.adjBoot_chip_servo (v : Dev) (f : Boot → Boot) : (Dev.adjBoot v f).chip.servo = v.chip.servo := rfl
@[simp] theorem Dev.adjBoot_chip_mode (v : Dev) (f : Boot → Boot) : (Dev.adjBoot v f).chip.mode = v.chip.mode := rfl
@[simp] theorem Dev.adjBoot_chip_survey (v : Dev) (f : Boot → Boot) : (Dev.adjBoot v f).chip.survey = v.chip.survey := rfl
@[simp] theorem Dev.adjBoot_chip_drain (v : Dev) (f : Boot → Boot) : (Dev.adjBoot v f).chip.drain = v.chip.drain := rfl
@[simp] theorem Dev.adjBoot_chip_vault (v : Dev) (f : Boot → Boot) : (Dev.adjBoot v f).chip.vault = v.chip.vault := rfl
@[simp] theorem Dev.adjBoot_chip_markerSeq (v : Dev) (f : Boot → Boot) : (Dev.adjBoot v f).chip.markerSeq = v.chip.markerSeq := rfl
@[simp] theorem Dev.adjBoot_chip_recordImage (v : Dev) (f : Boot → Boot) : (Dev.adjBoot v f).chip.recordImage = v.chip.recordImage := rfl
@[simp] theorem Dev.adjBoot_chip_imageAt (v : Dev) (f : Boot → Boot) : (Dev.adjBoot v f).chip.imageAt = v.chip.imageAt := rfl
@[simp] theorem Dev.adjBoot_chip_input (v : Dev) (f : Boot → Boot) : (Dev.adjBoot v f).chip.input = v.chip.input := rfl
@[simp] theorem Dev.adjBoot_chip_frozenIn (v : Dev) (f : Boot → Boot) : (Dev.adjBoot v f).chip.frozenIn = v.chip.frozenIn := rfl
@[simp] theorem Dev.adjBoot_chip_syncOut (v : Dev) (f : Boot → Boot) : (Dev.adjBoot v f).chip.syncOut = v.chip.syncOut := rfl
@[simp] theorem Dev.adjBoot_chip_straps (v : Dev) (f : Boot → Boot) : (Dev.adjBoot v f).chip.straps = v.chip.straps := rfl
@[simp] theorem Dev.adjBoot_chip_supplies (v : Dev) (f : Boot → Boot) : (Dev.adjBoot v f).chip.supplies = v.chip.supplies := rfl
@[simp] theorem Dev.adjBoot_chip_unrepaired (v : Dev) (f : Boot → Boot) : (Dev.adjBoot v f).chip.unrepaired = v.chip.unrepaired := rfl
@[simp] theorem Dev.adjBoot_chip_exposure (v : Dev) (f : Boot → Boot) : (Dev.adjBoot v f).chip.exposure = v.chip.exposure := rfl
@[simp] theorem Dev.adjBoot_chip_keeps (v : Dev) (f : Boot → Boot) : (Dev.adjBoot v f).chip.keeps = v.chip.keeps := rfl
@[simp] theorem Dev.adjBoot_chip_spires (v : Dev) (f : Boot → Boot) : (Dev.adjBoot v f).chip.spires = v.chip.spires := rfl
@[simp] theorem Dev.adjBoot_chip_temps (v : Dev) (f : Boot → Boot) : (Dev.adjBoot v f).chip.temps = v.chip.temps := rfl
@[simp] theorem Dev.adjBoot_chip_tempsPrev (v : Dev) (f : Boot → Boot) : (Dev.adjBoot v f).chip.tempsPrev = v.chip.tempsPrev := rfl
@[simp] theorem Dev.adjBoot_chip_rng (v : Dev) (f : Boot → Boot) : (Dev.adjBoot v f).chip.rng = v.chip.rng := rfl
@[simp] theorem Dev.adjBoot_regs (v : Dev) (f : Boot → Boot) : (Dev.adjBoot v f).regs = v.regs := rfl
@[simp] theorem Dev.adjBoot_hosts (v : Dev) (f : Boot → Boot) : (Dev.adjBoot v f).hosts = v.hosts := rfl
@[simp] theorem Dev.adjBoot_store (v : Dev) (f : Boot → Boot) : (Dev.adjBoot v f).store = v.store := rfl
@[simp] theorem Dev.adjBoot_hf (v : Dev) (f : Boot → Boot) : (Dev.adjBoot v f).hf = v.hf := rfl
@[simp] theorem Dev.adjBoot_keySlots (v : Dev) (f : Boot → Boot) : (Dev.adjBoot v f).keySlots = v.keySlots := rfl
@[simp] theorem Dev.adjBoot_leases (v : Dev) (f : Boot → Boot) : (Dev.adjBoot v f).leases = v.leases := rfl
@[simp] theorem Dev.adjBoot_spireLeases (v : Dev) (f : Boot → Boot) : (Dev.adjBoot v f).spireLeases = v.spireLeases := rfl
@[simp] theorem Dev.adjBoot_ciphers (v : Dev) (f : Boot → Boot) : (Dev.adjBoot v f).ciphers = v.ciphers := rfl
@[simp] theorem Dev.adjBoot_sec (v : Dev) (f : Boot → Boot) : (Dev.adjBoot v f).sec = v.sec := rfl
@[simp] theorem Dev.adjBoot_chans (v : Dev) (f : Boot → Boot) : (Dev.adjBoot v f).chans = v.chans := rfl
@[simp] theorem Dev.adjBoot_faults (v : Dev) (f : Boot → Boot) : (Dev.adjBoot v f).faults = v.faults := rfl
@[simp] theorem Dev.adjBoot_recov (v : Dev) (f : Boot → Boot) : (Dev.adjBoot v f).recov = v.recov := rfl
@[simp] theorem Dev.adjBoot_fcLast (v : Dev) (f : Boot → Boot) : (Dev.adjBoot v f).fcLast = v.fcLast := rfl
@[simp] theorem Dev.adjBoot_floder (v : Dev) (f : Boot → Boot) : (Dev.adjBoot v f).floder = v.floder := rfl
@[simp] theorem Dev.adjBoot_ep (v : Dev) (f : Boot → Boot) : (Dev.adjBoot v f).ep = v.ep := rfl
@[simp] theorem Dev.adjBoot_pmon (v : Dev) (f : Boot → Boot) : (Dev.adjBoot v f).pmon = v.pmon := rfl
@[simp] theorem Dev.adjBoot_out (v : Dev) (f : Boot → Boot) : (Dev.adjBoot v f).out = v.out := rfl
@[simp] theorem Dev.adjBoot_freeTick (v : Dev) (f : Boot → Boot) : (Dev.adjBoot v f).freeTick = v.freeTick := rfl
@[simp] theorem Dev.adjBoot_nextId (v : Dev) (f : Boot → Boot) : (Dev.adjBoot v f).nextId = v.nextId := rfl
@[simp] theorem Dev.setPhase_clk (v : Dev) (p : VaultPhase) : (Dev.setPhase v p).clk = v.clk := rfl
@[simp] theorem Dev.setPhase_winMem (v : Dev) (p : VaultPhase) : (Dev.setPhase v p).winMem = v.winMem := rfl
@[simp] theorem Dev.setPhase_chip_servo (v : Dev) (p : VaultPhase) : (Dev.setPhase v p).chip.servo = v.chip.servo := rfl
@[simp] theorem Dev.setPhase_chip_mode (v : Dev) (p : VaultPhase) : (Dev.setPhase v p).chip.mode = v.chip.mode := rfl
@[simp] theorem Dev.setPhase_chip_boot (v : Dev) (p : VaultPhase) : (Dev.setPhase v p).chip.boot = v.chip.boot := rfl
@[simp] theorem Dev.setPhase_chip_survey (v : Dev) (p : VaultPhase) : (Dev.setPhase v p).chip.survey = v.chip.survey := rfl
@[simp] theorem Dev.setPhase_chip_drain (v : Dev) (p : VaultPhase) : (Dev.setPhase v p).chip.drain = v.chip.drain := rfl
@[simp] theorem Dev.setPhase_chip_markerSeq (v : Dev) (p : VaultPhase) : (Dev.setPhase v p).chip.markerSeq = v.chip.markerSeq := rfl
@[simp] theorem Dev.setPhase_chip_recordImage (v : Dev) (p : VaultPhase) : (Dev.setPhase v p).chip.recordImage = v.chip.recordImage := rfl
@[simp] theorem Dev.setPhase_chip_imageAt (v : Dev) (p : VaultPhase) : (Dev.setPhase v p).chip.imageAt = v.chip.imageAt := rfl
@[simp] theorem Dev.setPhase_chip_input (v : Dev) (p : VaultPhase) : (Dev.setPhase v p).chip.input = v.chip.input := rfl
@[simp] theorem Dev.setPhase_chip_frozenIn (v : Dev) (p : VaultPhase) : (Dev.setPhase v p).chip.frozenIn = v.chip.frozenIn := rfl
@[simp] theorem Dev.setPhase_chip_syncOut (v : Dev) (p : VaultPhase) : (Dev.setPhase v p).chip.syncOut = v.chip.syncOut := rfl
@[simp] theorem Dev.setPhase_chip_straps (v : Dev) (p : VaultPhase) : (Dev.setPhase v p).chip.straps = v.chip.straps := rfl
@[simp] theorem Dev.setPhase_chip_supplies (v : Dev) (p : VaultPhase) : (Dev.setPhase v p).chip.supplies = v.chip.supplies := rfl
@[simp] theorem Dev.setPhase_chip_unrepaired (v : Dev) (p : VaultPhase) : (Dev.setPhase v p).chip.unrepaired = v.chip.unrepaired := rfl
@[simp] theorem Dev.setPhase_chip_exposure (v : Dev) (p : VaultPhase) : (Dev.setPhase v p).chip.exposure = v.chip.exposure := rfl
@[simp] theorem Dev.setPhase_chip_keeps (v : Dev) (p : VaultPhase) : (Dev.setPhase v p).chip.keeps = v.chip.keeps := rfl
@[simp] theorem Dev.setPhase_chip_spires (v : Dev) (p : VaultPhase) : (Dev.setPhase v p).chip.spires = v.chip.spires := rfl
@[simp] theorem Dev.setPhase_chip_temps (v : Dev) (p : VaultPhase) : (Dev.setPhase v p).chip.temps = v.chip.temps := rfl
@[simp] theorem Dev.setPhase_chip_tempsPrev (v : Dev) (p : VaultPhase) : (Dev.setPhase v p).chip.tempsPrev = v.chip.tempsPrev := rfl
@[simp] theorem Dev.setPhase_chip_rng (v : Dev) (p : VaultPhase) : (Dev.setPhase v p).chip.rng = v.chip.rng := rfl
@[simp] theorem Dev.setPhase_regs (v : Dev) (p : VaultPhase) : (Dev.setPhase v p).regs = v.regs := rfl
@[simp] theorem Dev.setPhase_hosts (v : Dev) (p : VaultPhase) : (Dev.setPhase v p).hosts = v.hosts := rfl
@[simp] theorem Dev.setPhase_store (v : Dev) (p : VaultPhase) : (Dev.setPhase v p).store = v.store := rfl
@[simp] theorem Dev.setPhase_hf (v : Dev) (p : VaultPhase) : (Dev.setPhase v p).hf = v.hf := rfl
@[simp] theorem Dev.setPhase_keySlots (v : Dev) (p : VaultPhase) : (Dev.setPhase v p).keySlots = v.keySlots := rfl
@[simp] theorem Dev.setPhase_leases (v : Dev) (p : VaultPhase) : (Dev.setPhase v p).leases = v.leases := rfl
@[simp] theorem Dev.setPhase_spireLeases (v : Dev) (p : VaultPhase) : (Dev.setPhase v p).spireLeases = v.spireLeases := rfl
@[simp] theorem Dev.setPhase_ciphers (v : Dev) (p : VaultPhase) : (Dev.setPhase v p).ciphers = v.ciphers := rfl
@[simp] theorem Dev.setPhase_sec (v : Dev) (p : VaultPhase) : (Dev.setPhase v p).sec = v.sec := rfl
@[simp] theorem Dev.setPhase_chans (v : Dev) (p : VaultPhase) : (Dev.setPhase v p).chans = v.chans := rfl
@[simp] theorem Dev.setPhase_faults (v : Dev) (p : VaultPhase) : (Dev.setPhase v p).faults = v.faults := rfl
@[simp] theorem Dev.setPhase_recov (v : Dev) (p : VaultPhase) : (Dev.setPhase v p).recov = v.recov := rfl
@[simp] theorem Dev.setPhase_fcLast (v : Dev) (p : VaultPhase) : (Dev.setPhase v p).fcLast = v.fcLast := rfl
@[simp] theorem Dev.setPhase_floder (v : Dev) (p : VaultPhase) : (Dev.setPhase v p).floder = v.floder := rfl
@[simp] theorem Dev.setPhase_ep (v : Dev) (p : VaultPhase) : (Dev.setPhase v p).ep = v.ep := rfl
@[simp] theorem Dev.setPhase_pmon (v : Dev) (p : VaultPhase) : (Dev.setPhase v p).pmon = v.pmon := rfl
@[simp] theorem Dev.setPhase_out (v : Dev) (p : VaultPhase) : (Dev.setPhase v p).out = v.out := rfl
@[simp] theorem Dev.setPhase_freeTick (v : Dev) (p : VaultPhase) : (Dev.setPhase v p).freeTick = v.freeTick := rfl
@[simp] theorem Dev.setPhase_nextId (v : Dev) (p : VaultPhase) : (Dev.setPhase v p).nextId = v.nextId := rfl
@[simp] theorem Dev.setServo_clk (v : Dev) (x : Servo) : (Dev.setServo v x).clk = v.clk := rfl
@[simp] theorem Dev.setServo_winMem (v : Dev) (x : Servo) : (Dev.setServo v x).winMem = v.winMem := rfl
@[simp] theorem Dev.setServo_chip_mode (v : Dev) (x : Servo) : (Dev.setServo v x).chip.mode = v.chip.mode := rfl
@[simp] theorem Dev.setServo_chip_boot (v : Dev) (x : Servo) : (Dev.setServo v x).chip.boot = v.chip.boot := rfl
@[simp] theorem Dev.setServo_chip_survey (v : Dev) (x : Servo) : (Dev.setServo v x).chip.survey = v.chip.survey := rfl
@[simp] theorem Dev.setServo_chip_drain (v : Dev) (x : Servo) : (Dev.setServo v x).chip.drain = v.chip.drain := rfl
@[simp] theorem Dev.setServo_chip_vault (v : Dev) (x : Servo) : (Dev.setServo v x).chip.vault = v.chip.vault := rfl
@[simp] theorem Dev.setServo_chip_markerSeq (v : Dev) (x : Servo) : (Dev.setServo v x).chip.markerSeq = v.chip.markerSeq := rfl
@[simp] theorem Dev.setServo_chip_recordImage (v : Dev) (x : Servo) : (Dev.setServo v x).chip.recordImage = v.chip.recordImage := rfl
@[simp] theorem Dev.setServo_chip_imageAt (v : Dev) (x : Servo) : (Dev.setServo v x).chip.imageAt = v.chip.imageAt := rfl
@[simp] theorem Dev.setServo_chip_input (v : Dev) (x : Servo) : (Dev.setServo v x).chip.input = v.chip.input := rfl
@[simp] theorem Dev.setServo_chip_frozenIn (v : Dev) (x : Servo) : (Dev.setServo v x).chip.frozenIn = v.chip.frozenIn := rfl
@[simp] theorem Dev.setServo_chip_syncOut (v : Dev) (x : Servo) : (Dev.setServo v x).chip.syncOut = v.chip.syncOut := rfl
@[simp] theorem Dev.setServo_chip_straps (v : Dev) (x : Servo) : (Dev.setServo v x).chip.straps = v.chip.straps := rfl
@[simp] theorem Dev.setServo_chip_supplies (v : Dev) (x : Servo) : (Dev.setServo v x).chip.supplies = v.chip.supplies := rfl
@[simp] theorem Dev.setServo_chip_unrepaired (v : Dev) (x : Servo) : (Dev.setServo v x).chip.unrepaired = v.chip.unrepaired := rfl
@[simp] theorem Dev.setServo_chip_exposure (v : Dev) (x : Servo) : (Dev.setServo v x).chip.exposure = v.chip.exposure := rfl
@[simp] theorem Dev.setServo_chip_keeps (v : Dev) (x : Servo) : (Dev.setServo v x).chip.keeps = v.chip.keeps := rfl
@[simp] theorem Dev.setServo_chip_spires (v : Dev) (x : Servo) : (Dev.setServo v x).chip.spires = v.chip.spires := rfl
@[simp] theorem Dev.setServo_chip_temps (v : Dev) (x : Servo) : (Dev.setServo v x).chip.temps = v.chip.temps := rfl
@[simp] theorem Dev.setServo_chip_tempsPrev (v : Dev) (x : Servo) : (Dev.setServo v x).chip.tempsPrev = v.chip.tempsPrev := rfl
@[simp] theorem Dev.setServo_chip_rng (v : Dev) (x : Servo) : (Dev.setServo v x).chip.rng = v.chip.rng := rfl
@[simp] theorem Dev.setServo_regs (v : Dev) (x : Servo) : (Dev.setServo v x).regs = v.regs := rfl
@[simp] theorem Dev.setServo_hosts (v : Dev) (x : Servo) : (Dev.setServo v x).hosts = v.hosts := rfl
@[simp] theorem Dev.setServo_store (v : Dev) (x : Servo) : (Dev.setServo v x).store = v.store := rfl
@[simp] theorem Dev.setServo_hf (v : Dev) (x : Servo) : (Dev.setServo v x).hf = v.hf := rfl
@[simp] theorem Dev.setServo_keySlots (v : Dev) (x : Servo) : (Dev.setServo v x).keySlots = v.keySlots := rfl
@[simp] theorem Dev.setServo_leases (v : Dev) (x : Servo) : (Dev.setServo v x).leases = v.leases := rfl
@[simp] theorem Dev.setServo_spireLeases (v : Dev) (x : Servo) : (Dev.setServo v x).spireLeases = v.spireLeases := rfl
@[simp] theorem Dev.setServo_ciphers (v : Dev) (x : Servo) : (Dev.setServo v x).ciphers = v.ciphers := rfl
@[simp] theorem Dev.setServo_sec (v : Dev) (x : Servo) : (Dev.setServo v x).sec = v.sec := rfl
@[simp] theorem Dev.setServo_chans (v : Dev) (x : Servo) : (Dev.setServo v x).chans = v.chans := rfl
@[simp] theorem Dev.setServo_faults (v : Dev) (x : Servo) : (Dev.setServo v x).faults = v.faults := rfl
@[simp] theorem Dev.setServo_recov (v : Dev) (x : Servo) : (Dev.setServo v x).recov = v.recov := rfl
@[simp] theorem Dev.setServo_fcLast (v : Dev) (x : Servo) : (Dev.setServo v x).fcLast = v.fcLast := rfl
@[simp] theorem Dev.setServo_floder (v : Dev) (x : Servo) : (Dev.setServo v x).floder = v.floder := rfl
@[simp] theorem Dev.setServo_ep (v : Dev) (x : Servo) : (Dev.setServo v x).ep = v.ep := rfl
@[simp] theorem Dev.setServo_pmon (v : Dev) (x : Servo) : (Dev.setServo v x).pmon = v.pmon := rfl
@[simp] theorem Dev.setServo_out (v : Dev) (x : Servo) : (Dev.setServo v x).out = v.out := rfl
@[simp] theorem Dev.setServo_freeTick (v : Dev) (x : Servo) : (Dev.setServo v x).freeTick = v.freeTick := rfl
@[simp] theorem Dev.setServo_nextId (v : Dev) (x : Servo) : (Dev.setServo v x).nextId = v.nextId := rfl
@[simp] theorem Dev.setSpire_clk (v : Dev) (s : Nat) (r : SpireRec) : (Dev.setSpire v s r).clk = v.clk := rfl
@[simp] theorem Dev.setSpire_winMem (v : Dev) (s : Nat) (r : SpireRec) : (Dev.setSpire v s r).winMem = v.winMem := rfl
@[simp] theorem Dev.setSpire_chip_servo (v : Dev) (s : Nat) (r : SpireRec) : (Dev.setSpire v s r).chip.servo = v.chip.servo := rfl
@[simp] theorem Dev.setSpire_chip_mode (v : Dev) (s : Nat) (r : SpireRec) : (Dev.setSpire v s r).chip.mode = v.chip.mode := rfl
@[simp] theorem Dev.setSpire_chip_boot (v : Dev) (s : Nat) (r : SpireRec) : (Dev.setSpire v s r).chip.boot = v.chip.boot := rfl
@[simp] theorem Dev.setSpire_chip_survey (v : Dev) (s : Nat) (r : SpireRec) : (Dev.setSpire v s r).chip.survey = v.chip.survey := rfl
@[simp] theorem Dev.setSpire_chip_drain (v : Dev) (s : Nat) (r : SpireRec) : (Dev.setSpire v s r).chip.drain = v.chip.drain := rfl
@[simp] theorem Dev.setSpire_chip_vault (v : Dev) (s : Nat) (r : SpireRec) : (Dev.setSpire v s r).chip.vault = v.chip.vault := rfl
@[simp] theorem Dev.setSpire_chip_markerSeq (v : Dev) (s : Nat) (r : SpireRec) : (Dev.setSpire v s r).chip.markerSeq = v.chip.markerSeq := rfl
@[simp] theorem Dev.setSpire_chip_recordImage (v : Dev) (s : Nat) (r : SpireRec) : (Dev.setSpire v s r).chip.recordImage = v.chip.recordImage := rfl
@[simp] theorem Dev.setSpire_chip_imageAt (v : Dev) (s : Nat) (r : SpireRec) : (Dev.setSpire v s r).chip.imageAt = v.chip.imageAt := rfl
@[simp] theorem Dev.setSpire_chip_input (v : Dev) (s : Nat) (r : SpireRec) : (Dev.setSpire v s r).chip.input = v.chip.input := rfl
@[simp] theorem Dev.setSpire_chip_frozenIn (v : Dev) (s : Nat) (r : SpireRec) : (Dev.setSpire v s r).chip.frozenIn = v.chip.frozenIn := rfl
@[simp] theorem Dev.setSpire_chip_syncOut (v : Dev) (s : Nat) (r : SpireRec) : (Dev.setSpire v s r).chip.syncOut = v.chip.syncOut := rfl
@[simp] theorem Dev.setSpire_chip_straps (v : Dev) (s : Nat) (r : SpireRec) : (Dev.setSpire v s r).chip.straps = v.chip.straps := rfl
@[simp] theorem Dev.setSpire_chip_supplies (v : Dev) (s : Nat) (r : SpireRec) : (Dev.setSpire v s r).chip.supplies = v.chip.supplies := rfl
@[simp] theorem Dev.setSpire_chip_unrepaired (v : Dev) (s : Nat) (r : SpireRec) : (Dev.setSpire v s r).chip.unrepaired = v.chip.unrepaired := rfl
@[simp] theorem Dev.setSpire_chip_exposure (v : Dev) (s : Nat) (r : SpireRec) : (Dev.setSpire v s r).chip.exposure = v.chip.exposure := rfl
@[simp] theorem Dev.setSpire_chip_keeps (v : Dev) (s : Nat) (r : SpireRec) : (Dev.setSpire v s r).chip.keeps = v.chip.keeps := rfl
@[simp] theorem Dev.setSpire_chip_temps (v : Dev) (s : Nat) (r : SpireRec) : (Dev.setSpire v s r).chip.temps = v.chip.temps := rfl
@[simp] theorem Dev.setSpire_chip_tempsPrev (v : Dev) (s : Nat) (r : SpireRec) : (Dev.setSpire v s r).chip.tempsPrev = v.chip.tempsPrev := rfl
@[simp] theorem Dev.setSpire_chip_rng (v : Dev) (s : Nat) (r : SpireRec) : (Dev.setSpire v s r).chip.rng = v.chip.rng := rfl
@[simp] theorem Dev.setSpire_regs (v : Dev) (s : Nat) (r : SpireRec) : (Dev.setSpire v s r).regs = v.regs := rfl
@[simp] theorem Dev.setSpire_hosts (v : Dev) (s : Nat) (r : SpireRec) : (Dev.setSpire v s r).hosts = v.hosts := rfl
@[simp] theorem Dev.setSpire_store (v : Dev) (s : Nat) (r : SpireRec) : (Dev.setSpire v s r).store = v.store := rfl
@[simp] theorem Dev.setSpire_hf (v : Dev) (s : Nat) (r : SpireRec) : (Dev.setSpire v s r).hf = v.hf := rfl
@[simp] theorem Dev.setSpire_keySlots (v : Dev) (s : Nat) (r : SpireRec) : (Dev.setSpire v s r).keySlots = v.keySlots := rfl
@[simp] theorem Dev.setSpire_leases (v : Dev) (s : Nat) (r : SpireRec) : (Dev.setSpire v s r).leases = v.leases := rfl
@[simp] theorem Dev.setSpire_spireLeases (v : Dev) (s : Nat) (r : SpireRec) : (Dev.setSpire v s r).spireLeases = v.spireLeases := rfl
@[simp] theorem Dev.setSpire_ciphers (v : Dev) (s : Nat) (r : SpireRec) : (Dev.setSpire v s r).ciphers = v.ciphers := rfl
@[simp] theorem Dev.setSpire_sec (v : Dev) (s : Nat) (r : SpireRec) : (Dev.setSpire v s r).sec = v.sec := rfl
@[simp] theorem Dev.setSpire_chans (v : Dev) (s : Nat) (r : SpireRec) : (Dev.setSpire v s r).chans = v.chans := rfl
@[simp] theorem Dev.setSpire_faults (v : Dev) (s : Nat) (r : SpireRec) : (Dev.setSpire v s r).faults = v.faults := rfl
@[simp] theorem Dev.setSpire_recov (v : Dev) (s : Nat) (r : SpireRec) : (Dev.setSpire v s r).recov = v.recov := rfl
@[simp] theorem Dev.setSpire_fcLast (v : Dev) (s : Nat) (r : SpireRec) : (Dev.setSpire v s r).fcLast = v.fcLast := rfl
@[simp] theorem Dev.setSpire_floder (v : Dev) (s : Nat) (r : SpireRec) : (Dev.setSpire v s r).floder = v.floder := rfl
@[simp] theorem Dev.setSpire_ep (v : Dev) (s : Nat) (r : SpireRec) : (Dev.setSpire v s r).ep = v.ep := rfl
@[simp] theorem Dev.setSpire_pmon (v : Dev) (s : Nat) (r : SpireRec) : (Dev.setSpire v s r).pmon = v.pmon := rfl
@[simp] theorem Dev.setSpire_out (v : Dev) (s : Nat) (r : SpireRec) : (Dev.setSpire v s r).out = v.out := rfl
@[simp] theorem Dev.setSpire_freeTick (v : Dev) (s : Nat) (r : SpireRec) : (Dev.setSpire v s r).freeTick = v.freeTick := rfl
@[simp] theorem Dev.setSpire_nextId (v : Dev) (s : Nat) (r : SpireRec) : (Dev.setSpire v s r).nextId = v.nextId := rfl
@[simp] theorem Dev.dropKeyCopies_clk (v : Dev) : (Dev.dropKeyCopies v).clk = v.clk := rfl
@[simp] theorem Dev.dropKeyCopies_winMem (v : Dev) : (Dev.dropKeyCopies v).winMem = v.winMem := rfl
@[simp] theorem Dev.dropKeyCopies_chip_servo (v : Dev) : (Dev.dropKeyCopies v).chip.servo = v.chip.servo := rfl
@[simp] theorem Dev.dropKeyCopies_chip_mode (v : Dev) : (Dev.dropKeyCopies v).chip.mode = v.chip.mode := rfl
@[simp] theorem Dev.dropKeyCopies_chip_boot (v : Dev) : (Dev.dropKeyCopies v).chip.boot = v.chip.boot := rfl
@[simp] theorem Dev.dropKeyCopies_chip_survey (v : Dev) : (Dev.dropKeyCopies v).chip.survey = v.chip.survey := rfl
@[simp] theorem Dev.dropKeyCopies_chip_drain (v : Dev) : (Dev.dropKeyCopies v).chip.drain = v.chip.drain := rfl
@[simp] theorem Dev.dropKeyCopies_chip_vault (v : Dev) : (Dev.dropKeyCopies v).chip.vault = v.chip.vault := rfl
@[simp] theorem Dev.dropKeyCopies_chip_markerSeq (v : Dev) : (Dev.dropKeyCopies v).chip.markerSeq = v.chip.markerSeq := rfl
@[simp] theorem Dev.dropKeyCopies_chip_recordImage (v : Dev) : (Dev.dropKeyCopies v).chip.recordImage = v.chip.recordImage := rfl
@[simp] theorem Dev.dropKeyCopies_chip_imageAt (v : Dev) : (Dev.dropKeyCopies v).chip.imageAt = v.chip.imageAt := rfl
@[simp] theorem Dev.dropKeyCopies_chip_input (v : Dev) : (Dev.dropKeyCopies v).chip.input = v.chip.input := rfl
@[simp] theorem Dev.dropKeyCopies_chip_frozenIn (v : Dev) : (Dev.dropKeyCopies v).chip.frozenIn = v.chip.frozenIn := rfl
@[simp] theorem Dev.dropKeyCopies_chip_syncOut (v : Dev) : (Dev.dropKeyCopies v).chip.syncOut = v.chip.syncOut := rfl
@[simp] theorem Dev.dropKeyCopies_chip_straps (v : Dev) : (Dev.dropKeyCopies v).chip.straps = v.chip.straps := rfl
@[simp] theorem Dev.dropKeyCopies_chip_supplies (v : Dev) : (Dev.dropKeyCopies v).chip.supplies = v.chip.supplies := rfl
@[simp] theorem Dev.dropKeyCopies_chip_unrepaired (v : Dev) : (Dev.dropKeyCopies v).chip.unrepaired = v.chip.unrepaired := rfl
@[simp] theorem Dev.dropKeyCopies_chip_exposure (v : Dev) : (Dev.dropKeyCopies v).chip.exposure = v.chip.exposure := rfl
@[simp] theorem Dev.dropKeyCopies_chip_keeps (v : Dev) : (Dev.dropKeyCopies v).chip.keeps = v.chip.keeps := rfl
@[simp] theorem Dev.dropKeyCopies_chip_temps (v : Dev) : (Dev.dropKeyCopies v).chip.temps = v.chip.temps := rfl
@[simp] theorem Dev.dropKeyCopies_chip_tempsPrev (v : Dev) : (Dev.dropKeyCopies v).chip.tempsPrev = v.chip.tempsPrev := rfl
@[simp] theorem Dev.dropKeyCopies_chip_rng (v : Dev) : (Dev.dropKeyCopies v).chip.rng = v.chip.rng := rfl
@[simp] theorem Dev.dropKeyCopies_regs (v : Dev) : (Dev.dropKeyCopies v).regs = v.regs := rfl
@[simp] theorem Dev.dropKeyCopies_hosts (v : Dev) : (Dev.dropKeyCopies v).hosts = v.hosts := rfl
@[simp] theorem Dev.dropKeyCopies_store (v : Dev) : (Dev.dropKeyCopies v).store = v.store := rfl
@[simp] theorem Dev.dropKeyCopies_hf (v : Dev) : (Dev.dropKeyCopies v).hf = v.hf := rfl
@[simp] theorem Dev.dropKeyCopies_keySlots (v : Dev) : (Dev.dropKeyCopies v).keySlots = v.keySlots := rfl
@[simp] theorem Dev.dropKeyCopies_leases (v : Dev) : (Dev.dropKeyCopies v).leases = v.leases := rfl
@[simp] theorem Dev.dropKeyCopies_spireLeases (v : Dev) : (Dev.dropKeyCopies v).spireLeases = v.spireLeases := rfl
@[simp] theorem Dev.dropKeyCopies_sec (v : Dev) : (Dev.dropKeyCopies v).sec = v.sec := rfl
@[simp] theorem Dev.dropKeyCopies_chans (v : Dev) : (Dev.dropKeyCopies v).chans = v.chans := rfl
@[simp] theorem Dev.dropKeyCopies_faults (v : Dev) : (Dev.dropKeyCopies v).faults = v.faults := rfl
@[simp] theorem Dev.dropKeyCopies_recov (v : Dev) : (Dev.dropKeyCopies v).recov = v.recov := rfl
@[simp] theorem Dev.dropKeyCopies_fcLast (v : Dev) : (Dev.dropKeyCopies v).fcLast = v.fcLast := rfl
@[simp] theorem Dev.dropKeyCopies_floder (v : Dev) : (Dev.dropKeyCopies v).floder = v.floder := rfl
@[simp] theorem Dev.dropKeyCopies_ep (v : Dev) : (Dev.dropKeyCopies v).ep = v.ep := rfl
@[simp] theorem Dev.dropKeyCopies_pmon (v : Dev) : (Dev.dropKeyCopies v).pmon = v.pmon := rfl
@[simp] theorem Dev.dropKeyCopies_out (v : Dev) : (Dev.dropKeyCopies v).out = v.out := rfl
@[simp] theorem Dev.dropKeyCopies_freeTick (v : Dev) : (Dev.dropKeyCopies v).freeTick = v.freeTick := rfl
@[simp] theorem Dev.dropKeyCopies_nextId (v : Dev) : (Dev.dropKeyCopies v).nextId = v.nextId := rfl

/-! ### Registers and counters -/

@[simp] theorem Dev.setPage_clk (v : Dev) (p : Nat) (x : PageState) : (Dev.setPage v p x).clk = v.clk := rfl
@[simp] theorem Dev.setPage_winMem (v : Dev) (p : Nat) (x : PageState) : (Dev.setPage v p x).winMem = v.winMem := rfl
@[simp] theorem Dev.setPage_chip (v : Dev) (p : Nat) (x : PageState) : (Dev.setPage v p x).chip = v.chip := rfl
@[simp] theorem Dev.setPage_regs_active (v : Dev) (p : Nat) (x : PageState) : (Dev.setPage v p x).regs.active = v.regs.active := rfl
@[simp] theorem Dev.setPage_regs_staged (v : Dev) (p : Nat) (x : PageState) : (Dev.setPage v p x).regs.staged = v.regs.staged := rfl
@[simp] theorem Dev.setPage_regs_latches (v : Dev) (p : Nat) (x : PageState) : (Dev.setPage v p x).regs.latches = v.regs.latches := rfl
@[simp] theorem Dev.setPage_regs_shown (v : Dev) (p : Nat) (x : PageState) : (Dev.setPage v p x).regs.shown = v.regs.shown := rfl
@[simp] theorem Dev.setPage_regs_scratch (v : Dev) (p : Nat) (x : PageState) : (Dev.setPage v p x).regs.scratch = v.regs.scratch := rfl
@[simp] theorem Dev.setPage_hosts (v : Dev) (p : Nat) (x : PageState) : (Dev.setPage v p x).hosts = v.hosts := rfl
@[simp] theorem Dev.setPage_store (v : Dev) (p : Nat) (x : PageState) : (Dev.setPage v p x).store = v.store := rfl
@[simp] theorem Dev.setPage_hf (v : Dev) (p : Nat) (x : PageState) : (Dev.setPage v p x).hf = v.hf := rfl
@[simp] theorem Dev.setPage_keySlots (v : Dev) (p : Nat) (x : PageState) : (Dev.setPage v p x).keySlots = v.keySlots := rfl
@[simp] theorem Dev.setPage_leases (v : Dev) (p : Nat) (x : PageState) : (Dev.setPage v p x).leases = v.leases := rfl
@[simp] theorem Dev.setPage_spireLeases (v : Dev) (p : Nat) (x : PageState) : (Dev.setPage v p x).spireLeases = v.spireLeases := rfl
@[simp] theorem Dev.setPage_ciphers (v : Dev) (p : Nat) (x : PageState) : (Dev.setPage v p x).ciphers = v.ciphers := rfl
@[simp] theorem Dev.setPage_sec (v : Dev) (p : Nat) (x : PageState) : (Dev.setPage v p x).sec = v.sec := rfl
@[simp] theorem Dev.setPage_chans (v : Dev) (p : Nat) (x : PageState) : (Dev.setPage v p x).chans = v.chans := rfl
@[simp] theorem Dev.setPage_faults (v : Dev) (p : Nat) (x : PageState) : (Dev.setPage v p x).faults = v.faults := rfl
@[simp] theorem Dev.setPage_recov (v : Dev) (p : Nat) (x : PageState) : (Dev.setPage v p x).recov = v.recov := rfl
@[simp] theorem Dev.setPage_fcLast (v : Dev) (p : Nat) (x : PageState) : (Dev.setPage v p x).fcLast = v.fcLast := rfl
@[simp] theorem Dev.setPage_floder (v : Dev) (p : Nat) (x : PageState) : (Dev.setPage v p x).floder = v.floder := rfl
@[simp] theorem Dev.setPage_ep (v : Dev) (p : Nat) (x : PageState) : (Dev.setPage v p x).ep = v.ep := rfl
@[simp] theorem Dev.setPage_pmon (v : Dev) (p : Nat) (x : PageState) : (Dev.setPage v p x).pmon = v.pmon := rfl
@[simp] theorem Dev.setPage_out (v : Dev) (p : Nat) (x : PageState) : (Dev.setPage v p x).out = v.out := rfl
@[simp] theorem Dev.setPage_freeTick (v : Dev) (p : Nat) (x : PageState) : (Dev.setPage v p x).freeTick = v.freeTick := rfl
@[simp] theorem Dev.setPage_nextId (v : Dev) (p : Nat) (x : PageState) : (Dev.setPage v p x).nextId = v.nextId := rfl
@[simp] theorem Dev.stage_clk (v : Dev) (o : Nat) (x : Word) : (Dev.stage v o x).clk = v.clk := rfl
@[simp] theorem Dev.stage_winMem (v : Dev) (o : Nat) (x : Word) : (Dev.stage v o x).winMem = v.winMem := rfl
@[simp] theorem Dev.stage_chip (v : Dev) (o : Nat) (x : Word) : (Dev.stage v o x).chip = v.chip := rfl
@[simp] theorem Dev.stage_regs_active (v : Dev) (o : Nat) (x : Word) : (Dev.stage v o x).regs.active = v.regs.active := rfl
@[simp] theorem Dev.stage_regs_pages (v : Dev) (o : Nat) (x : Word) : (Dev.stage v o x).regs.pages = v.regs.pages := rfl
@[simp] theorem Dev.stage_regs_latches (v : Dev) (o : Nat) (x : Word) : (Dev.stage v o x).regs.latches = v.regs.latches := rfl
@[simp] theorem Dev.stage_regs_shown (v : Dev) (o : Nat) (x : Word) : (Dev.stage v o x).regs.shown = v.regs.shown := rfl
@[simp] theorem Dev.stage_regs_scratch (v : Dev) (o : Nat) (x : Word) : (Dev.stage v o x).regs.scratch = v.regs.scratch := rfl
@[simp] theorem Dev.stage_hosts (v : Dev) (o : Nat) (x : Word) : (Dev.stage v o x).hosts = v.hosts := rfl
@[simp] theorem Dev.stage_store (v : Dev) (o : Nat) (x : Word) : (Dev.stage v o x).store = v.store := rfl
@[simp] theorem Dev.stage_hf (v : Dev) (o : Nat) (x : Word) : (Dev.stage v o x).hf = v.hf := rfl
@[simp] theorem Dev.stage_keySlots (v : Dev) (o : Nat) (x : Word) : (Dev.stage v o x).keySlots = v.keySlots := rfl
@[simp] theorem Dev.stage_leases (v : Dev) (o : Nat) (x : Word) : (Dev.stage v o x).leases = v.leases := rfl
@[simp] theorem Dev.stage_spireLeases (v : Dev) (o : Nat) (x : Word) : (Dev.stage v o x).spireLeases = v.spireLeases := rfl
@[simp] theorem Dev.stage_ciphers (v : Dev) (o : Nat) (x : Word) : (Dev.stage v o x).ciphers = v.ciphers := rfl
@[simp] theorem Dev.stage_sec (v : Dev) (o : Nat) (x : Word) : (Dev.stage v o x).sec = v.sec := rfl
@[simp] theorem Dev.stage_chans (v : Dev) (o : Nat) (x : Word) : (Dev.stage v o x).chans = v.chans := rfl
@[simp] theorem Dev.stage_faults (v : Dev) (o : Nat) (x : Word) : (Dev.stage v o x).faults = v.faults := rfl
@[simp] theorem Dev.stage_recov (v : Dev) (o : Nat) (x : Word) : (Dev.stage v o x).recov = v.recov := rfl
@[simp] theorem Dev.stage_fcLast (v : Dev) (o : Nat) (x : Word) : (Dev.stage v o x).fcLast = v.fcLast := rfl
@[simp] theorem Dev.stage_floder (v : Dev) (o : Nat) (x : Word) : (Dev.stage v o x).floder = v.floder := rfl
@[simp] theorem Dev.stage_ep (v : Dev) (o : Nat) (x : Word) : (Dev.stage v o x).ep = v.ep := rfl
@[simp] theorem Dev.stage_pmon (v : Dev) (o : Nat) (x : Word) : (Dev.stage v o x).pmon = v.pmon := rfl
@[simp] theorem Dev.stage_out (v : Dev) (o : Nat) (x : Word) : (Dev.stage v o x).out = v.out := rfl
@[simp] theorem Dev.stage_freeTick (v : Dev) (o : Nat) (x : Word) : (Dev.stage v o x).freeTick = v.freeTick := rfl
@[simp] theorem Dev.stage_nextId (v : Dev) (o : Nat) (x : Word) : (Dev.stage v o x).nextId = v.nextId := rfl
@[simp] theorem Dev.ownWrite_clk (v : Dev) (o : Nat) (x : Word) : (Dev.ownWrite v o x).clk = v.clk := rfl
@[simp] theorem Dev.ownWrite_winMem (v : Dev) (o : Nat) (x : Word) : (Dev.ownWrite v o x).winMem = v.winMem := rfl
@[simp] theorem Dev.ownWrite_chip (v : Dev) (o : Nat) (x : Word) : (Dev.ownWrite v o x).chip = v.chip := rfl
@[simp] theorem Dev.ownWrite_regs_pages (v : Dev) (o : Nat) (x : Word) : (Dev.ownWrite v o x).regs.pages = v.regs.pages := rfl
@[simp] theorem Dev.ownWrite_regs_latches (v : Dev) (o : Nat) (x : Word) : (Dev.ownWrite v o x).regs.latches = v.regs.latches := rfl
@[simp] theorem Dev.ownWrite_regs_shown (v : Dev) (o : Nat) (x : Word) : (Dev.ownWrite v o x).regs.shown = v.regs.shown := rfl
@[simp] theorem Dev.ownWrite_regs_scratch (v : Dev) (o : Nat) (x : Word) : (Dev.ownWrite v o x).regs.scratch = v.regs.scratch := rfl
@[simp] theorem Dev.ownWrite_hosts (v : Dev) (o : Nat) (x : Word) : (Dev.ownWrite v o x).hosts = v.hosts := rfl
@[simp] theorem Dev.ownWrite_store (v : Dev) (o : Nat) (x : Word) : (Dev.ownWrite v o x).store = v.store := rfl
@[simp] theorem Dev.ownWrite_hf (v : Dev) (o : Nat) (x : Word) : (Dev.ownWrite v o x).hf = v.hf := rfl
@[simp] theorem Dev.ownWrite_keySlots (v : Dev) (o : Nat) (x : Word) : (Dev.ownWrite v o x).keySlots = v.keySlots := rfl
@[simp] theorem Dev.ownWrite_leases (v : Dev) (o : Nat) (x : Word) : (Dev.ownWrite v o x).leases = v.leases := rfl
@[simp] theorem Dev.ownWrite_spireLeases (v : Dev) (o : Nat) (x : Word) : (Dev.ownWrite v o x).spireLeases = v.spireLeases := rfl
@[simp] theorem Dev.ownWrite_ciphers (v : Dev) (o : Nat) (x : Word) : (Dev.ownWrite v o x).ciphers = v.ciphers := rfl
@[simp] theorem Dev.ownWrite_sec (v : Dev) (o : Nat) (x : Word) : (Dev.ownWrite v o x).sec = v.sec := rfl
@[simp] theorem Dev.ownWrite_chans (v : Dev) (o : Nat) (x : Word) : (Dev.ownWrite v o x).chans = v.chans := rfl
@[simp] theorem Dev.ownWrite_faults (v : Dev) (o : Nat) (x : Word) : (Dev.ownWrite v o x).faults = v.faults := rfl
@[simp] theorem Dev.ownWrite_recov (v : Dev) (o : Nat) (x : Word) : (Dev.ownWrite v o x).recov = v.recov := rfl
@[simp] theorem Dev.ownWrite_fcLast (v : Dev) (o : Nat) (x : Word) : (Dev.ownWrite v o x).fcLast = v.fcLast := rfl
@[simp] theorem Dev.ownWrite_floder (v : Dev) (o : Nat) (x : Word) : (Dev.ownWrite v o x).floder = v.floder := rfl
@[simp] theorem Dev.ownWrite_ep (v : Dev) (o : Nat) (x : Word) : (Dev.ownWrite v o x).ep = v.ep := rfl
@[simp] theorem Dev.ownWrite_pmon (v : Dev) (o : Nat) (x : Word) : (Dev.ownWrite v o x).pmon = v.pmon := rfl
@[simp] theorem Dev.ownWrite_out (v : Dev) (o : Nat) (x : Word) : (Dev.ownWrite v o x).out = v.out := rfl
@[simp] theorem Dev.ownWrite_freeTick (v : Dev) (o : Nat) (x : Word) : (Dev.ownWrite v o x).freeTick = v.freeTick := rfl
@[simp] theorem Dev.ownWrite_nextId (v : Dev) (o : Nat) (x : Word) : (Dev.ownWrite v o x).nextId = v.nextId := rfl
@[simp] theorem Dev.discardPage_clk (v : Dev) (p : Nat) : (Dev.discardPage v p).clk = v.clk := rfl
@[simp] theorem Dev.discardPage_winMem (v : Dev) (p : Nat) : (Dev.discardPage v p).winMem = v.winMem := rfl
@[simp] theorem Dev.discardPage_chip (v : Dev) (p : Nat) : (Dev.discardPage v p).chip = v.chip := rfl
@[simp] theorem Dev.discardPage_regs_active (v : Dev) (p : Nat) : (Dev.discardPage v p).regs.active = v.regs.active := rfl
@[simp] theorem Dev.discardPage_regs_pages (v : Dev) (p : Nat) : (Dev.discardPage v p).regs.pages = v.regs.pages := rfl
@[simp] theorem Dev.discardPage_regs_latches (v : Dev) (p : Nat) : (Dev.discardPage v p).regs.latches = v.regs.latches := rfl
@[simp] theorem Dev.discardPage_regs_shown (v : Dev) (p : Nat) : (Dev.discardPage v p).regs.shown = v.regs.shown := rfl
@[simp] theorem Dev.discardPage_regs_scratch (v : Dev) (p : Nat) : (Dev.discardPage v p).regs.scratch = v.regs.scratch := rfl
@[simp] theorem Dev.discardPage_hosts (v : Dev) (p : Nat) : (Dev.discardPage v p).hosts = v.hosts := rfl
@[simp] theorem Dev.discardPage_store (v : Dev) (p : Nat) : (Dev.discardPage v p).store = v.store := rfl
@[simp] theorem Dev.discardPage_hf (v : Dev) (p : Nat) : (Dev.discardPage v p).hf = v.hf := rfl
@[simp] theorem Dev.discardPage_keySlots (v : Dev) (p : Nat) : (Dev.discardPage v p).keySlots = v.keySlots := rfl
@[simp] theorem Dev.discardPage_leases (v : Dev) (p : Nat) : (Dev.discardPage v p).leases = v.leases := rfl
@[simp] theorem Dev.discardPage_spireLeases (v : Dev) (p : Nat) : (Dev.discardPage v p).spireLeases = v.spireLeases := rfl
@[simp] theorem Dev.discardPage_ciphers (v : Dev) (p : Nat) : (Dev.discardPage v p).ciphers = v.ciphers := rfl
@[simp] theorem Dev.discardPage_sec (v : Dev) (p : Nat) : (Dev.discardPage v p).sec = v.sec := rfl
@[simp] theorem Dev.discardPage_chans (v : Dev) (p : Nat) : (Dev.discardPage v p).chans = v.chans := rfl
@[simp] theorem Dev.discardPage_faults (v : Dev) (p : Nat) : (Dev.discardPage v p).faults = v.faults := rfl
@[simp] theorem Dev.discardPage_recov (v : Dev) (p : Nat) : (Dev.discardPage v p).recov = v.recov := rfl
@[simp] theorem Dev.discardPage_fcLast (v : Dev) (p : Nat) : (Dev.discardPage v p).fcLast = v.fcLast := rfl
@[simp] theorem Dev.discardPage_floder (v : Dev) (p : Nat) : (Dev.discardPage v p).floder = v.floder := rfl
@[simp] theorem Dev.discardPage_ep (v : Dev) (p : Nat) : (Dev.discardPage v p).ep = v.ep := rfl
@[simp] theorem Dev.discardPage_pmon (v : Dev) (p : Nat) : (Dev.discardPage v p).pmon = v.pmon := rfl
@[simp] theorem Dev.discardPage_out (v : Dev) (p : Nat) : (Dev.discardPage v p).out = v.out := rfl
@[simp] theorem Dev.discardPage_freeTick (v : Dev) (p : Nat) : (Dev.discardPage v p).freeTick = v.freeTick := rfl
@[simp] theorem Dev.discardPage_nextId (v : Dev) (p : Nat) : (Dev.discardPage v p).nextId = v.nextId := rfl
@[simp] theorem Dev.setCounter_clk (v : Dev) (key : Nat) (c : Counter) : (Dev.setCounter v key c).clk = v.clk := rfl
@[simp] theorem Dev.setCounter_winMem (v : Dev) (key : Nat) (c : Counter) : (Dev.setCounter v key c).winMem = v.winMem := rfl
@[simp] theorem Dev.setCounter_chip (v : Dev) (key : Nat) (c : Counter) : (Dev.setCounter v key c).chip = v.chip := rfl
@[simp] theorem Dev.setCounter_regs (v : Dev) (key : Nat) (c : Counter) : (Dev.setCounter v key c).regs = v.regs := rfl
@[simp] theorem Dev.setCounter_hosts (v : Dev) (key : Nat) (c : Counter) : (Dev.setCounter v key c).hosts = v.hosts := rfl
@[simp] theorem Dev.setCounter_store (v : Dev) (key : Nat) (c : Counter) : (Dev.setCounter v key c).store = v.store := rfl
@[simp] theorem Dev.setCounter_hf (v : Dev) (key : Nat) (c : Counter) : (Dev.setCounter v key c).hf = v.hf := rfl
@[simp] theorem Dev.setCounter_keySlots (v : Dev) (key : Nat) (c : Counter) : (Dev.setCounter v key c).keySlots = v.keySlots := rfl
@[simp] theorem Dev.setCounter_leases (v : Dev) (key : Nat) (c : Counter) : (Dev.setCounter v key c).leases = v.leases := rfl
@[simp] theorem Dev.setCounter_spireLeases (v : Dev) (key : Nat) (c : Counter) : (Dev.setCounter v key c).spireLeases = v.spireLeases := rfl
@[simp] theorem Dev.setCounter_ciphers (v : Dev) (key : Nat) (c : Counter) : (Dev.setCounter v key c).ciphers = v.ciphers := rfl
@[simp] theorem Dev.setCounter_sec (v : Dev) (key : Nat) (c : Counter) : (Dev.setCounter v key c).sec = v.sec := rfl
@[simp] theorem Dev.setCounter_chans (v : Dev) (key : Nat) (c : Counter) : (Dev.setCounter v key c).chans = v.chans := rfl
@[simp] theorem Dev.setCounter_faults (v : Dev) (key : Nat) (c : Counter) : (Dev.setCounter v key c).faults = v.faults := rfl
@[simp] theorem Dev.setCounter_recov (v : Dev) (key : Nat) (c : Counter) : (Dev.setCounter v key c).recov = v.recov := rfl
@[simp] theorem Dev.setCounter_fcLast (v : Dev) (key : Nat) (c : Counter) : (Dev.setCounter v key c).fcLast = v.fcLast := rfl
@[simp] theorem Dev.setCounter_floder (v : Dev) (key : Nat) (c : Counter) : (Dev.setCounter v key c).floder = v.floder := rfl
@[simp] theorem Dev.setCounter_ep (v : Dev) (key : Nat) (c : Counter) : (Dev.setCounter v key c).ep = v.ep := rfl
@[simp] theorem Dev.setCounter_out (v : Dev) (key : Nat) (c : Counter) : (Dev.setCounter v key c).out = v.out := rfl
@[simp] theorem Dev.setCounter_freeTick (v : Dev) (key : Nat) (c : Counter) : (Dev.setCounter v key c).freeTick = v.freeTick := rfl
@[simp] theorem Dev.setCounter_nextId (v : Dev) (key : Nat) (c : Counter) : (Dev.setCounter v key c).nextId = v.nextId := rfl

/-! ### Sessions and the extent service -/

@[simp] theorem Dev.setSession_clk (v : Dev) (n : Nat) (s : Session) : (Dev.setSession v n s).clk = v.clk := rfl
@[simp] theorem Dev.setSession_winMem (v : Dev) (n : Nat) (s : Session) : (Dev.setSession v n s).winMem = v.winMem := rfl
@[simp] theorem Dev.setSession_chip (v : Dev) (n : Nat) (s : Session) : (Dev.setSession v n s).chip = v.chip := rfl
@[simp] theorem Dev.setSession_regs (v : Dev) (n : Nat) (s : Session) : (Dev.setSession v n s).regs = v.regs := rfl
@[simp] theorem Dev.setSession_hosts_claims (v : Dev) (n : Nat) (s : Session) : (Dev.setSession v n s).hosts.claims = v.hosts.claims := rfl
@[simp] theorem Dev.setSession_hosts_updates (v : Dev) (n : Nat) (s : Session) : (Dev.setSession v n s).hosts.updates = v.hosts.updates := rfl
@[simp] theorem Dev.setSession_hosts_switched (v : Dev) (n : Nat) (s : Session) : (Dev.setSession v n s).hosts.switched = v.hosts.switched := rfl
@[simp] theorem Dev.setSession_hosts_tabVers (v : Dev) (n : Nat) (s : Session) : (Dev.setSession v n s).hosts.tabVers = v.hosts.tabVers := rfl
@[simp] theorem Dev.setSession_hosts_returning (v : Dev) (n : Nat) (s : Session) : (Dev.setSession v n s).hosts.returning = v.hosts.returning := rfl
@[simp] theorem Dev.setSession_hosts_extents (v : Dev) (n : Nat) (s : Session) : (Dev.setSession v n s).hosts.extents = v.hosts.extents := rfl
@[simp] theorem Dev.setSession_hosts_ctxs (v : Dev) (n : Nat) (s : Session) : (Dev.setSession v n s).hosts.ctxs = v.hosts.ctxs := rfl
@[simp] theorem Dev.setSession_hosts_reads (v : Dev) (n : Nat) (s : Session) : (Dev.setSession v n s).hosts.reads = v.hosts.reads := rfl
@[simp] theorem Dev.setSession_hosts_flushes (v : Dev) (n : Nat) (s : Session) : (Dev.setSession v n s).hosts.flushes = v.hosts.flushes := rfl
@[simp] theorem Dev.setSession_hosts_scheds (v : Dev) (n : Nat) (s : Session) : (Dev.setSession v n s).hosts.scheds = v.hosts.scheds := rfl
@[simp] theorem Dev.setSession_hosts_qps (v : Dev) (n : Nat) (s : Session) : (Dev.setSession v n s).hosts.qps = v.hosts.qps := rfl
@[simp] theorem Dev.setSession_hosts_inbox (v : Dev) (n : Nat) (s : Session) : (Dev.setSession v n s).hosts.inbox = v.hosts.inbox := rfl
@[simp] theorem Dev.setSession_hosts_dups (v : Dev) (n : Nat) (s : Session) : (Dev.setSession v n s).hosts.dups = v.hosts.dups := rfl
@[simp] theorem Dev.setSession_hosts_windows (v : Dev) (n : Nat) (s : Session) : (Dev.setSession v n s).hosts.windows = v.hosts.windows := rfl
@[simp] theorem Dev.setSession_hosts_winVers (v : Dev) (n : Nat) (s : Session) : (Dev.setSession v n s).hosts.winVers = v.hosts.winVers := rfl
@[simp] theorem Dev.setSession_hosts_grants (v : Dev) (n : Nat) (s : Session) : (Dev.setSession v n s).hosts.grants = v.hosts.grants := rfl
@[simp] theorem Dev.setSession_hosts_chains (v : Dev) (n : Nat) (s : Session) : (Dev.setSession v n s).hosts.chains = v.hosts.chains := rfl
@[simp] theorem Dev.setSession_hosts_meters (v : Dev) (n : Nat) (s : Session) : (Dev.setSession v n s).hosts.meters = v.hosts.meters := rfl
@[simp] theorem Dev.setSession_hosts_meterVers (v : Dev) (n : Nat) (s : Session) : (Dev.setSession v n s).hosts.meterVers = v.hosts.meterVers := rfl
@[simp] theorem Dev.setSession_hosts_ports (v : Dev) (n : Nat) (s : Session) : (Dev.setSession v n s).hosts.ports = v.hosts.ports := rfl
@[simp] theorem Dev.setSession_hosts_egress (v : Dev) (n : Nat) (s : Session) : (Dev.setSession v n s).hosts.egress = v.hosts.egress := rfl
@[simp] theorem Dev.setSession_store (v : Dev) (n : Nat) (s : Session) : (Dev.setSession v n s).store = v.store := rfl
@[simp] theorem Dev.setSession_hf (v : Dev) (n : Nat) (s : Session) : (Dev.setSession v n s).hf = v.hf := rfl
@[simp] theorem Dev.setSession_keySlots (v : Dev) (n : Nat) (s : Session) : (Dev.setSession v n s).keySlots = v.keySlots := rfl
@[simp] theorem Dev.setSession_leases (v : Dev) (n : Nat) (s : Session) : (Dev.setSession v n s).leases = v.leases := rfl
@[simp] theorem Dev.setSession_spireLeases (v : Dev) (n : Nat) (s : Session) : (Dev.setSession v n s).spireLeases = v.spireLeases := rfl
@[simp] theorem Dev.setSession_ciphers (v : Dev) (n : Nat) (s : Session) : (Dev.setSession v n s).ciphers = v.ciphers := rfl
@[simp] theorem Dev.setSession_sec (v : Dev) (n : Nat) (s : Session) : (Dev.setSession v n s).sec = v.sec := rfl
@[simp] theorem Dev.setSession_chans (v : Dev) (n : Nat) (s : Session) : (Dev.setSession v n s).chans = v.chans := rfl
@[simp] theorem Dev.setSession_faults (v : Dev) (n : Nat) (s : Session) : (Dev.setSession v n s).faults = v.faults := rfl
@[simp] theorem Dev.setSession_recov (v : Dev) (n : Nat) (s : Session) : (Dev.setSession v n s).recov = v.recov := rfl
@[simp] theorem Dev.setSession_fcLast (v : Dev) (n : Nat) (s : Session) : (Dev.setSession v n s).fcLast = v.fcLast := rfl
@[simp] theorem Dev.setSession_floder (v : Dev) (n : Nat) (s : Session) : (Dev.setSession v n s).floder = v.floder := rfl
@[simp] theorem Dev.setSession_ep (v : Dev) (n : Nat) (s : Session) : (Dev.setSession v n s).ep = v.ep := rfl
@[simp] theorem Dev.setSession_pmon (v : Dev) (n : Nat) (s : Session) : (Dev.setSession v n s).pmon = v.pmon := rfl
@[simp] theorem Dev.setSession_out (v : Dev) (n : Nat) (s : Session) : (Dev.setSession v n s).out = v.out := rfl
@[simp] theorem Dev.setSession_freeTick (v : Dev) (n : Nat) (s : Session) : (Dev.setSession v n s).freeTick = v.freeTick := rfl
@[simp] theorem Dev.setSession_nextId (v : Dev) (n : Nat) (s : Session) : (Dev.setSession v n s).nextId = v.nextId := rfl
@[simp] theorem Dev.adjSession_clk (v : Dev) (n : Nat) (f : Session → Session) : (Dev.adjSession v n f).clk = v.clk := rfl
@[simp] theorem Dev.adjSession_winMem (v : Dev) (n : Nat) (f : Session → Session) : (Dev.adjSession v n f).winMem = v.winMem := rfl
@[simp] theorem Dev.adjSession_chip (v : Dev) (n : Nat) (f : Session → Session) : (Dev.adjSession v n f).chip = v.chip := rfl
@[simp] theorem Dev.adjSession_regs (v : Dev) (n : Nat) (f : Session → Session) : (Dev.adjSession v n f).regs = v.regs := rfl
@[simp] theorem Dev.adjSession_hosts_claims (v : Dev) (n : Nat) (f : Session → Session) : (Dev.adjSession v n f).hosts.claims = v.hosts.claims := rfl
@[simp] theorem Dev.adjSession_hosts_updates (v : Dev) (n : Nat) (f : Session → Session) : (Dev.adjSession v n f).hosts.updates = v.hosts.updates := rfl
@[simp] theorem Dev.adjSession_hosts_switched (v : Dev) (n : Nat) (f : Session → Session) : (Dev.adjSession v n f).hosts.switched = v.hosts.switched := rfl
@[simp] theorem Dev.adjSession_hosts_tabVers (v : Dev) (n : Nat) (f : Session → Session) : (Dev.adjSession v n f).hosts.tabVers = v.hosts.tabVers := rfl
@[simp] theorem Dev.adjSession_hosts_returning (v : Dev) (n : Nat) (f : Session → Session) : (Dev.adjSession v n f).hosts.returning = v.hosts.returning := rfl
@[simp] theorem Dev.adjSession_hosts_extents (v : Dev) (n : Nat) (f : Session → Session) : (Dev.adjSession v n f).hosts.extents = v.hosts.extents := rfl
@[simp] theorem Dev.adjSession_hosts_ctxs (v : Dev) (n : Nat) (f : Session → Session) : (Dev.adjSession v n f).hosts.ctxs = v.hosts.ctxs := rfl
@[simp] theorem Dev.adjSession_hosts_reads (v : Dev) (n : Nat) (f : Session → Session) : (Dev.adjSession v n f).hosts.reads = v.hosts.reads := rfl
@[simp] theorem Dev.adjSession_hosts_flushes (v : Dev) (n : Nat) (f : Session → Session) : (Dev.adjSession v n f).hosts.flushes = v.hosts.flushes := rfl
@[simp] theorem Dev.adjSession_hosts_scheds (v : Dev) (n : Nat) (f : Session → Session) : (Dev.adjSession v n f).hosts.scheds = v.hosts.scheds := rfl
@[simp] theorem Dev.adjSession_hosts_qps (v : Dev) (n : Nat) (f : Session → Session) : (Dev.adjSession v n f).hosts.qps = v.hosts.qps := rfl
@[simp] theorem Dev.adjSession_hosts_inbox (v : Dev) (n : Nat) (f : Session → Session) : (Dev.adjSession v n f).hosts.inbox = v.hosts.inbox := rfl
@[simp] theorem Dev.adjSession_hosts_dups (v : Dev) (n : Nat) (f : Session → Session) : (Dev.adjSession v n f).hosts.dups = v.hosts.dups := rfl
@[simp] theorem Dev.adjSession_hosts_windows (v : Dev) (n : Nat) (f : Session → Session) : (Dev.adjSession v n f).hosts.windows = v.hosts.windows := rfl
@[simp] theorem Dev.adjSession_hosts_winVers (v : Dev) (n : Nat) (f : Session → Session) : (Dev.adjSession v n f).hosts.winVers = v.hosts.winVers := rfl
@[simp] theorem Dev.adjSession_hosts_grants (v : Dev) (n : Nat) (f : Session → Session) : (Dev.adjSession v n f).hosts.grants = v.hosts.grants := rfl
@[simp] theorem Dev.adjSession_hosts_chains (v : Dev) (n : Nat) (f : Session → Session) : (Dev.adjSession v n f).hosts.chains = v.hosts.chains := rfl
@[simp] theorem Dev.adjSession_hosts_meters (v : Dev) (n : Nat) (f : Session → Session) : (Dev.adjSession v n f).hosts.meters = v.hosts.meters := rfl
@[simp] theorem Dev.adjSession_hosts_meterVers (v : Dev) (n : Nat) (f : Session → Session) : (Dev.adjSession v n f).hosts.meterVers = v.hosts.meterVers := rfl
@[simp] theorem Dev.adjSession_hosts_ports (v : Dev) (n : Nat) (f : Session → Session) : (Dev.adjSession v n f).hosts.ports = v.hosts.ports := rfl
@[simp] theorem Dev.adjSession_hosts_egress (v : Dev) (n : Nat) (f : Session → Session) : (Dev.adjSession v n f).hosts.egress = v.hosts.egress := rfl
@[simp] theorem Dev.adjSession_store (v : Dev) (n : Nat) (f : Session → Session) : (Dev.adjSession v n f).store = v.store := rfl
@[simp] theorem Dev.adjSession_hf (v : Dev) (n : Nat) (f : Session → Session) : (Dev.adjSession v n f).hf = v.hf := rfl
@[simp] theorem Dev.adjSession_keySlots (v : Dev) (n : Nat) (f : Session → Session) : (Dev.adjSession v n f).keySlots = v.keySlots := rfl
@[simp] theorem Dev.adjSession_leases (v : Dev) (n : Nat) (f : Session → Session) : (Dev.adjSession v n f).leases = v.leases := rfl
@[simp] theorem Dev.adjSession_spireLeases (v : Dev) (n : Nat) (f : Session → Session) : (Dev.adjSession v n f).spireLeases = v.spireLeases := rfl
@[simp] theorem Dev.adjSession_ciphers (v : Dev) (n : Nat) (f : Session → Session) : (Dev.adjSession v n f).ciphers = v.ciphers := rfl
@[simp] theorem Dev.adjSession_sec (v : Dev) (n : Nat) (f : Session → Session) : (Dev.adjSession v n f).sec = v.sec := rfl
@[simp] theorem Dev.adjSession_chans (v : Dev) (n : Nat) (f : Session → Session) : (Dev.adjSession v n f).chans = v.chans := rfl
@[simp] theorem Dev.adjSession_faults (v : Dev) (n : Nat) (f : Session → Session) : (Dev.adjSession v n f).faults = v.faults := rfl
@[simp] theorem Dev.adjSession_recov (v : Dev) (n : Nat) (f : Session → Session) : (Dev.adjSession v n f).recov = v.recov := rfl
@[simp] theorem Dev.adjSession_fcLast (v : Dev) (n : Nat) (f : Session → Session) : (Dev.adjSession v n f).fcLast = v.fcLast := rfl
@[simp] theorem Dev.adjSession_floder (v : Dev) (n : Nat) (f : Session → Session) : (Dev.adjSession v n f).floder = v.floder := rfl
@[simp] theorem Dev.adjSession_ep (v : Dev) (n : Nat) (f : Session → Session) : (Dev.adjSession v n f).ep = v.ep := rfl
@[simp] theorem Dev.adjSession_pmon (v : Dev) (n : Nat) (f : Session → Session) : (Dev.adjSession v n f).pmon = v.pmon := rfl
@[simp] theorem Dev.adjSession_out (v : Dev) (n : Nat) (f : Session → Session) : (Dev.adjSession v n f).out = v.out := rfl
@[simp] theorem Dev.adjSession_freeTick (v : Dev) (n : Nat) (f : Session → Session) : (Dev.adjSession v n f).freeTick = v.freeTick := rfl
@[simp] theorem Dev.adjSession_nextId (v : Dev) (n : Nat) (f : Session → Session) : (Dev.adjSession v n f).nextId = v.nextId := rfl
@[simp] theorem Dev.setQp_clk (v : Dev) (n : Nat) (q : Qp) : (Dev.setQp v n q).clk = v.clk := rfl
@[simp] theorem Dev.setQp_winMem (v : Dev) (n : Nat) (q : Qp) : (Dev.setQp v n q).winMem = v.winMem := rfl
@[simp] theorem Dev.setQp_chip (v : Dev) (n : Nat) (q : Qp) : (Dev.setQp v n q).chip = v.chip := rfl
@[simp] theorem Dev.setQp_regs (v : Dev) (n : Nat) (q : Qp) : (Dev.setQp v n q).regs = v.regs := rfl
@[simp] theorem Dev.setQp_hosts_claims (v : Dev) (n : Nat) (q : Qp) : (Dev.setQp v n q).hosts.claims = v.hosts.claims := rfl
@[simp] theorem Dev.setQp_hosts_updates (v : Dev) (n : Nat) (q : Qp) : (Dev.setQp v n q).hosts.updates = v.hosts.updates := rfl
@[simp] theorem Dev.setQp_hosts_switched (v : Dev) (n : Nat) (q : Qp) : (Dev.setQp v n q).hosts.switched = v.hosts.switched := rfl
@[simp] theorem Dev.setQp_hosts_tabVers (v : Dev) (n : Nat) (q : Qp) : (Dev.setQp v n q).hosts.tabVers = v.hosts.tabVers := rfl
@[simp] theorem Dev.setQp_hosts_returning (v : Dev) (n : Nat) (q : Qp) : (Dev.setQp v n q).hosts.returning = v.hosts.returning := rfl
@[simp] theorem Dev.setQp_hosts_extents (v : Dev) (n : Nat) (q : Qp) : (Dev.setQp v n q).hosts.extents = v.hosts.extents := rfl
@[simp] theorem Dev.setQp_hosts_ctxs (v : Dev) (n : Nat) (q : Qp) : (Dev.setQp v n q).hosts.ctxs = v.hosts.ctxs := rfl
@[simp] theorem Dev.setQp_hosts_reads (v : Dev) (n : Nat) (q : Qp) : (Dev.setQp v n q).hosts.reads = v.hosts.reads := rfl
@[simp] theorem Dev.setQp_hosts_flushes (v : Dev) (n : Nat) (q : Qp) : (Dev.setQp v n q).hosts.flushes = v.hosts.flushes := rfl
@[simp] theorem Dev.setQp_hosts_scheds (v : Dev) (n : Nat) (q : Qp) : (Dev.setQp v n q).hosts.scheds = v.hosts.scheds := rfl
@[simp] theorem Dev.setQp_hosts_sessions (v : Dev) (n : Nat) (q : Qp) : (Dev.setQp v n q).hosts.sessions = v.hosts.sessions := rfl
@[simp] theorem Dev.setQp_hosts_inbox (v : Dev) (n : Nat) (q : Qp) : (Dev.setQp v n q).hosts.inbox = v.hosts.inbox := rfl
@[simp] theorem Dev.setQp_hosts_dups (v : Dev) (n : Nat) (q : Qp) : (Dev.setQp v n q).hosts.dups = v.hosts.dups := rfl
@[simp] theorem Dev.setQp_hosts_windows (v : Dev) (n : Nat) (q : Qp) : (Dev.setQp v n q).hosts.windows = v.hosts.windows := rfl
@[simp] theorem Dev.setQp_hosts_winVers (v : Dev) (n : Nat) (q : Qp) : (Dev.setQp v n q).hosts.winVers = v.hosts.winVers := rfl
@[simp] theorem Dev.setQp_hosts_grants (v : Dev) (n : Nat) (q : Qp) : (Dev.setQp v n q).hosts.grants = v.hosts.grants := rfl
@[simp] theorem Dev.setQp_hosts_chains (v : Dev) (n : Nat) (q : Qp) : (Dev.setQp v n q).hosts.chains = v.hosts.chains := rfl
@[simp] theorem Dev.setQp_hosts_meters (v : Dev) (n : Nat) (q : Qp) : (Dev.setQp v n q).hosts.meters = v.hosts.meters := rfl
@[simp] theorem Dev.setQp_hosts_meterVers (v : Dev) (n : Nat) (q : Qp) : (Dev.setQp v n q).hosts.meterVers = v.hosts.meterVers := rfl
@[simp] theorem Dev.setQp_hosts_ports (v : Dev) (n : Nat) (q : Qp) : (Dev.setQp v n q).hosts.ports = v.hosts.ports := rfl
@[simp] theorem Dev.setQp_hosts_egress (v : Dev) (n : Nat) (q : Qp) : (Dev.setQp v n q).hosts.egress = v.hosts.egress := rfl
@[simp] theorem Dev.setQp_store (v : Dev) (n : Nat) (q : Qp) : (Dev.setQp v n q).store = v.store := rfl
@[simp] theorem Dev.setQp_hf (v : Dev) (n : Nat) (q : Qp) : (Dev.setQp v n q).hf = v.hf := rfl
@[simp] theorem Dev.setQp_keySlots (v : Dev) (n : Nat) (q : Qp) : (Dev.setQp v n q).keySlots = v.keySlots := rfl
@[simp] theorem Dev.setQp_leases (v : Dev) (n : Nat) (q : Qp) : (Dev.setQp v n q).leases = v.leases := rfl
@[simp] theorem Dev.setQp_spireLeases (v : Dev) (n : Nat) (q : Qp) : (Dev.setQp v n q).spireLeases = v.spireLeases := rfl
@[simp] theorem Dev.setQp_ciphers (v : Dev) (n : Nat) (q : Qp) : (Dev.setQp v n q).ciphers = v.ciphers := rfl
@[simp] theorem Dev.setQp_sec (v : Dev) (n : Nat) (q : Qp) : (Dev.setQp v n q).sec = v.sec := rfl
@[simp] theorem Dev.setQp_chans (v : Dev) (n : Nat) (q : Qp) : (Dev.setQp v n q).chans = v.chans := rfl
@[simp] theorem Dev.setQp_faults (v : Dev) (n : Nat) (q : Qp) : (Dev.setQp v n q).faults = v.faults := rfl
@[simp] theorem Dev.setQp_recov (v : Dev) (n : Nat) (q : Qp) : (Dev.setQp v n q).recov = v.recov := rfl
@[simp] theorem Dev.setQp_fcLast (v : Dev) (n : Nat) (q : Qp) : (Dev.setQp v n q).fcLast = v.fcLast := rfl
@[simp] theorem Dev.setQp_floder (v : Dev) (n : Nat) (q : Qp) : (Dev.setQp v n q).floder = v.floder := rfl
@[simp] theorem Dev.setQp_ep (v : Dev) (n : Nat) (q : Qp) : (Dev.setQp v n q).ep = v.ep := rfl
@[simp] theorem Dev.setQp_pmon (v : Dev) (n : Nat) (q : Qp) : (Dev.setQp v n q).pmon = v.pmon := rfl
@[simp] theorem Dev.setQp_out (v : Dev) (n : Nat) (q : Qp) : (Dev.setQp v n q).out = v.out := rfl
@[simp] theorem Dev.setQp_freeTick (v : Dev) (n : Nat) (q : Qp) : (Dev.setQp v n q).freeTick = v.freeTick := rfl
@[simp] theorem Dev.setQp_nextId (v : Dev) (n : Nat) (q : Qp) : (Dev.setQp v n q).nextId = v.nextId := rfl
@[simp] theorem Dev.adjQp_clk (v : Dev) (n : Nat) (f : Qp → Qp) : (Dev.adjQp v n f).clk = v.clk := rfl
@[simp] theorem Dev.adjQp_winMem (v : Dev) (n : Nat) (f : Qp → Qp) : (Dev.adjQp v n f).winMem = v.winMem := rfl
@[simp] theorem Dev.adjQp_chip (v : Dev) (n : Nat) (f : Qp → Qp) : (Dev.adjQp v n f).chip = v.chip := rfl
@[simp] theorem Dev.adjQp_regs (v : Dev) (n : Nat) (f : Qp → Qp) : (Dev.adjQp v n f).regs = v.regs := rfl
@[simp] theorem Dev.adjQp_hosts_claims (v : Dev) (n : Nat) (f : Qp → Qp) : (Dev.adjQp v n f).hosts.claims = v.hosts.claims := rfl
@[simp] theorem Dev.adjQp_hosts_updates (v : Dev) (n : Nat) (f : Qp → Qp) : (Dev.adjQp v n f).hosts.updates = v.hosts.updates := rfl
@[simp] theorem Dev.adjQp_hosts_switched (v : Dev) (n : Nat) (f : Qp → Qp) : (Dev.adjQp v n f).hosts.switched = v.hosts.switched := rfl
@[simp] theorem Dev.adjQp_hosts_tabVers (v : Dev) (n : Nat) (f : Qp → Qp) : (Dev.adjQp v n f).hosts.tabVers = v.hosts.tabVers := rfl
@[simp] theorem Dev.adjQp_hosts_returning (v : Dev) (n : Nat) (f : Qp → Qp) : (Dev.adjQp v n f).hosts.returning = v.hosts.returning := rfl
@[simp] theorem Dev.adjQp_hosts_extents (v : Dev) (n : Nat) (f : Qp → Qp) : (Dev.adjQp v n f).hosts.extents = v.hosts.extents := rfl
@[simp] theorem Dev.adjQp_hosts_ctxs (v : Dev) (n : Nat) (f : Qp → Qp) : (Dev.adjQp v n f).hosts.ctxs = v.hosts.ctxs := rfl
@[simp] theorem Dev.adjQp_hosts_reads (v : Dev) (n : Nat) (f : Qp → Qp) : (Dev.adjQp v n f).hosts.reads = v.hosts.reads := rfl
@[simp] theorem Dev.adjQp_hosts_flushes (v : Dev) (n : Nat) (f : Qp → Qp) : (Dev.adjQp v n f).hosts.flushes = v.hosts.flushes := rfl
@[simp] theorem Dev.adjQp_hosts_scheds (v : Dev) (n : Nat) (f : Qp → Qp) : (Dev.adjQp v n f).hosts.scheds = v.hosts.scheds := rfl
@[simp] theorem Dev.adjQp_hosts_sessions (v : Dev) (n : Nat) (f : Qp → Qp) : (Dev.adjQp v n f).hosts.sessions = v.hosts.sessions := rfl
@[simp] theorem Dev.adjQp_hosts_inbox (v : Dev) (n : Nat) (f : Qp → Qp) : (Dev.adjQp v n f).hosts.inbox = v.hosts.inbox := rfl
@[simp] theorem Dev.adjQp_hosts_dups (v : Dev) (n : Nat) (f : Qp → Qp) : (Dev.adjQp v n f).hosts.dups = v.hosts.dups := rfl
@[simp] theorem Dev.adjQp_hosts_windows (v : Dev) (n : Nat) (f : Qp → Qp) : (Dev.adjQp v n f).hosts.windows = v.hosts.windows := rfl
@[simp] theorem Dev.adjQp_hosts_winVers (v : Dev) (n : Nat) (f : Qp → Qp) : (Dev.adjQp v n f).hosts.winVers = v.hosts.winVers := rfl
@[simp] theorem Dev.adjQp_hosts_grants (v : Dev) (n : Nat) (f : Qp → Qp) : (Dev.adjQp v n f).hosts.grants = v.hosts.grants := rfl
@[simp] theorem Dev.adjQp_hosts_chains (v : Dev) (n : Nat) (f : Qp → Qp) : (Dev.adjQp v n f).hosts.chains = v.hosts.chains := rfl
@[simp] theorem Dev.adjQp_hosts_meters (v : Dev) (n : Nat) (f : Qp → Qp) : (Dev.adjQp v n f).hosts.meters = v.hosts.meters := rfl
@[simp] theorem Dev.adjQp_hosts_meterVers (v : Dev) (n : Nat) (f : Qp → Qp) : (Dev.adjQp v n f).hosts.meterVers = v.hosts.meterVers := rfl
@[simp] theorem Dev.adjQp_hosts_ports (v : Dev) (n : Nat) (f : Qp → Qp) : (Dev.adjQp v n f).hosts.ports = v.hosts.ports := rfl
@[simp] theorem Dev.adjQp_hosts_egress (v : Dev) (n : Nat) (f : Qp → Qp) : (Dev.adjQp v n f).hosts.egress = v.hosts.egress := rfl
@[simp] theorem Dev.adjQp_store (v : Dev) (n : Nat) (f : Qp → Qp) : (Dev.adjQp v n f).store = v.store := rfl
@[simp] theorem Dev.adjQp_hf (v : Dev) (n : Nat) (f : Qp → Qp) : (Dev.adjQp v n f).hf = v.hf := rfl
@[simp] theorem Dev.adjQp_keySlots (v : Dev) (n : Nat) (f : Qp → Qp) : (Dev.adjQp v n f).keySlots = v.keySlots := rfl
@[simp] theorem Dev.adjQp_leases (v : Dev) (n : Nat) (f : Qp → Qp) : (Dev.adjQp v n f).leases = v.leases := rfl
@[simp] theorem Dev.adjQp_spireLeases (v : Dev) (n : Nat) (f : Qp → Qp) : (Dev.adjQp v n f).spireLeases = v.spireLeases := rfl
@[simp] theorem Dev.adjQp_ciphers (v : Dev) (n : Nat) (f : Qp → Qp) : (Dev.adjQp v n f).ciphers = v.ciphers := rfl
@[simp] theorem Dev.adjQp_sec (v : Dev) (n : Nat) (f : Qp → Qp) : (Dev.adjQp v n f).sec = v.sec := rfl
@[simp] theorem Dev.adjQp_chans (v : Dev) (n : Nat) (f : Qp → Qp) : (Dev.adjQp v n f).chans = v.chans := rfl
@[simp] theorem Dev.adjQp_faults (v : Dev) (n : Nat) (f : Qp → Qp) : (Dev.adjQp v n f).faults = v.faults := rfl
@[simp] theorem Dev.adjQp_recov (v : Dev) (n : Nat) (f : Qp → Qp) : (Dev.adjQp v n f).recov = v.recov := rfl
@[simp] theorem Dev.adjQp_fcLast (v : Dev) (n : Nat) (f : Qp → Qp) : (Dev.adjQp v n f).fcLast = v.fcLast := rfl
@[simp] theorem Dev.adjQp_floder (v : Dev) (n : Nat) (f : Qp → Qp) : (Dev.adjQp v n f).floder = v.floder := rfl
@[simp] theorem Dev.adjQp_ep (v : Dev) (n : Nat) (f : Qp → Qp) : (Dev.adjQp v n f).ep = v.ep := rfl
@[simp] theorem Dev.adjQp_pmon (v : Dev) (n : Nat) (f : Qp → Qp) : (Dev.adjQp v n f).pmon = v.pmon := rfl
@[simp] theorem Dev.adjQp_out (v : Dev) (n : Nat) (f : Qp → Qp) : (Dev.adjQp v n f).out = v.out := rfl
@[simp] theorem Dev.adjQp_freeTick (v : Dev) (n : Nat) (f : Qp → Qp) : (Dev.adjQp v n f).freeTick = v.freeTick := rfl
@[simp] theorem Dev.adjQp_nextId (v : Dev) (n : Nat) (f : Qp → Qp) : (Dev.adjQp v n f).nextId = v.nextId := rfl
@[simp] theorem Dev.setExt_clk (v : Dev) (e : Extent) : (Dev.setExt v e).clk = v.clk := rfl
@[simp] theorem Dev.setExt_winMem (v : Dev) (e : Extent) : (Dev.setExt v e).winMem = v.winMem := rfl
@[simp] theorem Dev.setExt_chip (v : Dev) (e : Extent) : (Dev.setExt v e).chip = v.chip := rfl
@[simp] theorem Dev.setExt_regs (v : Dev) (e : Extent) : (Dev.setExt v e).regs = v.regs := rfl
@[simp] theorem Dev.setExt_hosts_claims (v : Dev) (e : Extent) : (Dev.setExt v e).hosts.claims = v.hosts.claims := rfl
@[simp] theorem Dev.setExt_hosts_updates (v : Dev) (e : Extent) : (Dev.setExt v e).hosts.updates = v.hosts.updates := rfl
@[simp] theorem Dev.setExt_hosts_switched (v : Dev) (e : Extent) : (Dev.setExt v e).hosts.switched = v.hosts.switched := rfl
@[simp] theorem Dev.setExt_hosts_tabVers (v : Dev) (e : Extent) : (Dev.setExt v e).hosts.tabVers = v.hosts.tabVers := rfl
@[simp] theorem Dev.setExt_hosts_returning (v : Dev) (e : Extent) : (Dev.setExt v e).hosts.returning = v.hosts.returning := rfl
@[simp] theorem Dev.setExt_hosts_ctxs (v : Dev) (e : Extent) : (Dev.setExt v e).hosts.ctxs = v.hosts.ctxs := rfl
@[simp] theorem Dev.setExt_hosts_reads (v : Dev) (e : Extent) : (Dev.setExt v e).hosts.reads = v.hosts.reads := rfl
@[simp] theorem Dev.setExt_hosts_flushes (v : Dev) (e : Extent) : (Dev.setExt v e).hosts.flushes = v.hosts.flushes := rfl
@[simp] theorem Dev.setExt_hosts_scheds (v : Dev) (e : Extent) : (Dev.setExt v e).hosts.scheds = v.hosts.scheds := rfl
@[simp] theorem Dev.setExt_hosts_sessions (v : Dev) (e : Extent) : (Dev.setExt v e).hosts.sessions = v.hosts.sessions := rfl
@[simp] theorem Dev.setExt_hosts_qps (v : Dev) (e : Extent) : (Dev.setExt v e).hosts.qps = v.hosts.qps := rfl
@[simp] theorem Dev.setExt_hosts_inbox (v : Dev) (e : Extent) : (Dev.setExt v e).hosts.inbox = v.hosts.inbox := rfl
@[simp] theorem Dev.setExt_hosts_dups (v : Dev) (e : Extent) : (Dev.setExt v e).hosts.dups = v.hosts.dups := rfl
@[simp] theorem Dev.setExt_hosts_windows (v : Dev) (e : Extent) : (Dev.setExt v e).hosts.windows = v.hosts.windows := rfl
@[simp] theorem Dev.setExt_hosts_winVers (v : Dev) (e : Extent) : (Dev.setExt v e).hosts.winVers = v.hosts.winVers := rfl
@[simp] theorem Dev.setExt_hosts_grants (v : Dev) (e : Extent) : (Dev.setExt v e).hosts.grants = v.hosts.grants := rfl
@[simp] theorem Dev.setExt_hosts_chains (v : Dev) (e : Extent) : (Dev.setExt v e).hosts.chains = v.hosts.chains := rfl
@[simp] theorem Dev.setExt_hosts_meters (v : Dev) (e : Extent) : (Dev.setExt v e).hosts.meters = v.hosts.meters := rfl
@[simp] theorem Dev.setExt_hosts_meterVers (v : Dev) (e : Extent) : (Dev.setExt v e).hosts.meterVers = v.hosts.meterVers := rfl
@[simp] theorem Dev.setExt_hosts_ports (v : Dev) (e : Extent) : (Dev.setExt v e).hosts.ports = v.hosts.ports := rfl
@[simp] theorem Dev.setExt_hosts_egress (v : Dev) (e : Extent) : (Dev.setExt v e).hosts.egress = v.hosts.egress := rfl
@[simp] theorem Dev.setExt_store (v : Dev) (e : Extent) : (Dev.setExt v e).store = v.store := rfl
@[simp] theorem Dev.setExt_hf (v : Dev) (e : Extent) : (Dev.setExt v e).hf = v.hf := rfl
@[simp] theorem Dev.setExt_keySlots (v : Dev) (e : Extent) : (Dev.setExt v e).keySlots = v.keySlots := rfl
@[simp] theorem Dev.setExt_leases (v : Dev) (e : Extent) : (Dev.setExt v e).leases = v.leases := rfl
@[simp] theorem Dev.setExt_spireLeases (v : Dev) (e : Extent) : (Dev.setExt v e).spireLeases = v.spireLeases := rfl
@[simp] theorem Dev.setExt_ciphers (v : Dev) (e : Extent) : (Dev.setExt v e).ciphers = v.ciphers := rfl
@[simp] theorem Dev.setExt_sec (v : Dev) (e : Extent) : (Dev.setExt v e).sec = v.sec := rfl
@[simp] theorem Dev.setExt_chans (v : Dev) (e : Extent) : (Dev.setExt v e).chans = v.chans := rfl
@[simp] theorem Dev.setExt_faults (v : Dev) (e : Extent) : (Dev.setExt v e).faults = v.faults := rfl
@[simp] theorem Dev.setExt_recov (v : Dev) (e : Extent) : (Dev.setExt v e).recov = v.recov := rfl
@[simp] theorem Dev.setExt_fcLast (v : Dev) (e : Extent) : (Dev.setExt v e).fcLast = v.fcLast := rfl
@[simp] theorem Dev.setExt_floder (v : Dev) (e : Extent) : (Dev.setExt v e).floder = v.floder := rfl
@[simp] theorem Dev.setExt_ep (v : Dev) (e : Extent) : (Dev.setExt v e).ep = v.ep := rfl
@[simp] theorem Dev.setExt_pmon (v : Dev) (e : Extent) : (Dev.setExt v e).pmon = v.pmon := rfl
@[simp] theorem Dev.setExt_out (v : Dev) (e : Extent) : (Dev.setExt v e).out = v.out := rfl
@[simp] theorem Dev.setExt_freeTick (v : Dev) (e : Extent) : (Dev.setExt v e).freeTick = v.freeTick := rfl
@[simp] theorem Dev.setExt_nextId (v : Dev) (e : Extent) : (Dev.setExt v e).nextId = v.nextId := rfl
@[simp] theorem Dev.adjExt_clk (v : Dev) (claim : Nat) (key : BitVec 128) (f : Extent → Extent) : (Dev.adjExt v claim key f).clk = v.clk := rfl
@[simp] theorem Dev.adjExt_winMem (v : Dev) (claim : Nat) (key : BitVec 128) (f : Extent → Extent) : (Dev.adjExt v claim key f).winMem = v.winMem := rfl
@[simp] theorem Dev.adjExt_chip (v : Dev) (claim : Nat) (key : BitVec 128) (f : Extent → Extent) : (Dev.adjExt v claim key f).chip = v.chip := rfl
@[simp] theorem Dev.adjExt_regs (v : Dev) (claim : Nat) (key : BitVec 128) (f : Extent → Extent) : (Dev.adjExt v claim key f).regs = v.regs := rfl
@[simp] theorem Dev.adjExt_hosts_claims (v : Dev) (claim : Nat) (key : BitVec 128) (f : Extent → Extent) : (Dev.adjExt v claim key f).hosts.claims = v.hosts.claims := rfl
@[simp] theorem Dev.adjExt_hosts_updates (v : Dev) (claim : Nat) (key : BitVec 128) (f : Extent → Extent) : (Dev.adjExt v claim key f).hosts.updates = v.hosts.updates := rfl
@[simp] theorem Dev.adjExt_hosts_switched (v : Dev) (claim : Nat) (key : BitVec 128) (f : Extent → Extent) : (Dev.adjExt v claim key f).hosts.switched = v.hosts.switched := rfl
@[simp] theorem Dev.adjExt_hosts_tabVers (v : Dev) (claim : Nat) (key : BitVec 128) (f : Extent → Extent) : (Dev.adjExt v claim key f).hosts.tabVers = v.hosts.tabVers := rfl
@[simp] theorem Dev.adjExt_hosts_returning (v : Dev) (claim : Nat) (key : BitVec 128) (f : Extent → Extent) : (Dev.adjExt v claim key f).hosts.returning = v.hosts.returning := rfl
@[simp] theorem Dev.adjExt_hosts_ctxs (v : Dev) (claim : Nat) (key : BitVec 128) (f : Extent → Extent) : (Dev.adjExt v claim key f).hosts.ctxs = v.hosts.ctxs := rfl
@[simp] theorem Dev.adjExt_hosts_reads (v : Dev) (claim : Nat) (key : BitVec 128) (f : Extent → Extent) : (Dev.adjExt v claim key f).hosts.reads = v.hosts.reads := rfl
@[simp] theorem Dev.adjExt_hosts_flushes (v : Dev) (claim : Nat) (key : BitVec 128) (f : Extent → Extent) : (Dev.adjExt v claim key f).hosts.flushes = v.hosts.flushes := rfl
@[simp] theorem Dev.adjExt_hosts_scheds (v : Dev) (claim : Nat) (key : BitVec 128) (f : Extent → Extent) : (Dev.adjExt v claim key f).hosts.scheds = v.hosts.scheds := rfl
@[simp] theorem Dev.adjExt_hosts_sessions (v : Dev) (claim : Nat) (key : BitVec 128) (f : Extent → Extent) : (Dev.adjExt v claim key f).hosts.sessions = v.hosts.sessions := rfl
@[simp] theorem Dev.adjExt_hosts_qps (v : Dev) (claim : Nat) (key : BitVec 128) (f : Extent → Extent) : (Dev.adjExt v claim key f).hosts.qps = v.hosts.qps := rfl
@[simp] theorem Dev.adjExt_hosts_inbox (v : Dev) (claim : Nat) (key : BitVec 128) (f : Extent → Extent) : (Dev.adjExt v claim key f).hosts.inbox = v.hosts.inbox := rfl
@[simp] theorem Dev.adjExt_hosts_dups (v : Dev) (claim : Nat) (key : BitVec 128) (f : Extent → Extent) : (Dev.adjExt v claim key f).hosts.dups = v.hosts.dups := rfl
@[simp] theorem Dev.adjExt_hosts_windows (v : Dev) (claim : Nat) (key : BitVec 128) (f : Extent → Extent) : (Dev.adjExt v claim key f).hosts.windows = v.hosts.windows := rfl
@[simp] theorem Dev.adjExt_hosts_winVers (v : Dev) (claim : Nat) (key : BitVec 128) (f : Extent → Extent) : (Dev.adjExt v claim key f).hosts.winVers = v.hosts.winVers := rfl
@[simp] theorem Dev.adjExt_hosts_grants (v : Dev) (claim : Nat) (key : BitVec 128) (f : Extent → Extent) : (Dev.adjExt v claim key f).hosts.grants = v.hosts.grants := rfl
@[simp] theorem Dev.adjExt_hosts_chains (v : Dev) (claim : Nat) (key : BitVec 128) (f : Extent → Extent) : (Dev.adjExt v claim key f).hosts.chains = v.hosts.chains := rfl
@[simp] theorem Dev.adjExt_hosts_meters (v : Dev) (claim : Nat) (key : BitVec 128) (f : Extent → Extent) : (Dev.adjExt v claim key f).hosts.meters = v.hosts.meters := rfl
@[simp] theorem Dev.adjExt_hosts_meterVers (v : Dev) (claim : Nat) (key : BitVec 128) (f : Extent → Extent) : (Dev.adjExt v claim key f).hosts.meterVers = v.hosts.meterVers := rfl
@[simp] theorem Dev.adjExt_hosts_ports (v : Dev) (claim : Nat) (key : BitVec 128) (f : Extent → Extent) : (Dev.adjExt v claim key f).hosts.ports = v.hosts.ports := rfl
@[simp] theorem Dev.adjExt_hosts_egress (v : Dev) (claim : Nat) (key : BitVec 128) (f : Extent → Extent) : (Dev.adjExt v claim key f).hosts.egress = v.hosts.egress := rfl
@[simp] theorem Dev.adjExt_store (v : Dev) (claim : Nat) (key : BitVec 128) (f : Extent → Extent) : (Dev.adjExt v claim key f).store = v.store := rfl
@[simp] theorem Dev.adjExt_hf (v : Dev) (claim : Nat) (key : BitVec 128) (f : Extent → Extent) : (Dev.adjExt v claim key f).hf = v.hf := rfl
@[simp] theorem Dev.adjExt_keySlots (v : Dev) (claim : Nat) (key : BitVec 128) (f : Extent → Extent) : (Dev.adjExt v claim key f).keySlots = v.keySlots := rfl
@[simp] theorem Dev.adjExt_leases (v : Dev) (claim : Nat) (key : BitVec 128) (f : Extent → Extent) : (Dev.adjExt v claim key f).leases = v.leases := rfl
@[simp] theorem Dev.adjExt_spireLeases (v : Dev) (claim : Nat) (key : BitVec 128) (f : Extent → Extent) : (Dev.adjExt v claim key f).spireLeases = v.spireLeases := rfl
@[simp] theorem Dev.adjExt_ciphers (v : Dev) (claim : Nat) (key : BitVec 128) (f : Extent → Extent) : (Dev.adjExt v claim key f).ciphers = v.ciphers := rfl
@[simp] theorem Dev.adjExt_sec (v : Dev) (claim : Nat) (key : BitVec 128) (f : Extent → Extent) : (Dev.adjExt v claim key f).sec = v.sec := rfl
@[simp] theorem Dev.adjExt_chans (v : Dev) (claim : Nat) (key : BitVec 128) (f : Extent → Extent) : (Dev.adjExt v claim key f).chans = v.chans := rfl
@[simp] theorem Dev.adjExt_faults (v : Dev) (claim : Nat) (key : BitVec 128) (f : Extent → Extent) : (Dev.adjExt v claim key f).faults = v.faults := rfl
@[simp] theorem Dev.adjExt_recov (v : Dev) (claim : Nat) (key : BitVec 128) (f : Extent → Extent) : (Dev.adjExt v claim key f).recov = v.recov := rfl
@[simp] theorem Dev.adjExt_fcLast (v : Dev) (claim : Nat) (key : BitVec 128) (f : Extent → Extent) : (Dev.adjExt v claim key f).fcLast = v.fcLast := rfl
@[simp] theorem Dev.adjExt_floder (v : Dev) (claim : Nat) (key : BitVec 128) (f : Extent → Extent) : (Dev.adjExt v claim key f).floder = v.floder := rfl
@[simp] theorem Dev.adjExt_ep (v : Dev) (claim : Nat) (key : BitVec 128) (f : Extent → Extent) : (Dev.adjExt v claim key f).ep = v.ep := rfl
@[simp] theorem Dev.adjExt_pmon (v : Dev) (claim : Nat) (key : BitVec 128) (f : Extent → Extent) : (Dev.adjExt v claim key f).pmon = v.pmon := rfl
@[simp] theorem Dev.adjExt_out (v : Dev) (claim : Nat) (key : BitVec 128) (f : Extent → Extent) : (Dev.adjExt v claim key f).out = v.out := rfl
@[simp] theorem Dev.adjExt_freeTick (v : Dev) (claim : Nat) (key : BitVec 128) (f : Extent → Extent) : (Dev.adjExt v claim key f).freeTick = v.freeTick := rfl
@[simp] theorem Dev.adjExt_nextId (v : Dev) (claim : Nat) (key : BitVec 128) (f : Extent → Extent) : (Dev.adjExt v claim key f).nextId = v.nextId := rfl
@[simp] theorem Dev.adjCtx_clk (v : Dev) (id : Nat) (f : Ctx → Ctx) : (Dev.adjCtx v id f).clk = v.clk := rfl
@[simp] theorem Dev.adjCtx_winMem (v : Dev) (id : Nat) (f : Ctx → Ctx) : (Dev.adjCtx v id f).winMem = v.winMem := rfl
@[simp] theorem Dev.adjCtx_chip (v : Dev) (id : Nat) (f : Ctx → Ctx) : (Dev.adjCtx v id f).chip = v.chip := rfl
@[simp] theorem Dev.adjCtx_regs (v : Dev) (id : Nat) (f : Ctx → Ctx) : (Dev.adjCtx v id f).regs = v.regs := rfl
@[simp] theorem Dev.adjCtx_hosts_claims (v : Dev) (id : Nat) (f : Ctx → Ctx) : (Dev.adjCtx v id f).hosts.claims = v.hosts.claims := rfl
@[simp] theorem Dev.adjCtx_hosts_updates (v : Dev) (id : Nat) (f : Ctx → Ctx) : (Dev.adjCtx v id f).hosts.updates = v.hosts.updates := rfl
@[simp] theorem Dev.adjCtx_hosts_switched (v : Dev) (id : Nat) (f : Ctx → Ctx) : (Dev.adjCtx v id f).hosts.switched = v.hosts.switched := rfl
@[simp] theorem Dev.adjCtx_hosts_tabVers (v : Dev) (id : Nat) (f : Ctx → Ctx) : (Dev.adjCtx v id f).hosts.tabVers = v.hosts.tabVers := rfl
@[simp] theorem Dev.adjCtx_hosts_returning (v : Dev) (id : Nat) (f : Ctx → Ctx) : (Dev.adjCtx v id f).hosts.returning = v.hosts.returning := rfl
@[simp] theorem Dev.adjCtx_hosts_extents (v : Dev) (id : Nat) (f : Ctx → Ctx) : (Dev.adjCtx v id f).hosts.extents = v.hosts.extents := rfl
@[simp] theorem Dev.adjCtx_hosts_reads (v : Dev) (id : Nat) (f : Ctx → Ctx) : (Dev.adjCtx v id f).hosts.reads = v.hosts.reads := rfl
@[simp] theorem Dev.adjCtx_hosts_flushes (v : Dev) (id : Nat) (f : Ctx → Ctx) : (Dev.adjCtx v id f).hosts.flushes = v.hosts.flushes := rfl
@[simp] theorem Dev.adjCtx_hosts_scheds (v : Dev) (id : Nat) (f : Ctx → Ctx) : (Dev.adjCtx v id f).hosts.scheds = v.hosts.scheds := rfl
@[simp] theorem Dev.adjCtx_hosts_sessions (v : Dev) (id : Nat) (f : Ctx → Ctx) : (Dev.adjCtx v id f).hosts.sessions = v.hosts.sessions := rfl
@[simp] theorem Dev.adjCtx_hosts_qps (v : Dev) (id : Nat) (f : Ctx → Ctx) : (Dev.adjCtx v id f).hosts.qps = v.hosts.qps := rfl
@[simp] theorem Dev.adjCtx_hosts_inbox (v : Dev) (id : Nat) (f : Ctx → Ctx) : (Dev.adjCtx v id f).hosts.inbox = v.hosts.inbox := rfl
@[simp] theorem Dev.adjCtx_hosts_dups (v : Dev) (id : Nat) (f : Ctx → Ctx) : (Dev.adjCtx v id f).hosts.dups = v.hosts.dups := rfl
@[simp] theorem Dev.adjCtx_hosts_windows (v : Dev) (id : Nat) (f : Ctx → Ctx) : (Dev.adjCtx v id f).hosts.windows = v.hosts.windows := rfl
@[simp] theorem Dev.adjCtx_hosts_winVers (v : Dev) (id : Nat) (f : Ctx → Ctx) : (Dev.adjCtx v id f).hosts.winVers = v.hosts.winVers := rfl
@[simp] theorem Dev.adjCtx_hosts_grants (v : Dev) (id : Nat) (f : Ctx → Ctx) : (Dev.adjCtx v id f).hosts.grants = v.hosts.grants := rfl
@[simp] theorem Dev.adjCtx_hosts_chains (v : Dev) (id : Nat) (f : Ctx → Ctx) : (Dev.adjCtx v id f).hosts.chains = v.hosts.chains := rfl
@[simp] theorem Dev.adjCtx_hosts_meters (v : Dev) (id : Nat) (f : Ctx → Ctx) : (Dev.adjCtx v id f).hosts.meters = v.hosts.meters := rfl
@[simp] theorem Dev.adjCtx_hosts_meterVers (v : Dev) (id : Nat) (f : Ctx → Ctx) : (Dev.adjCtx v id f).hosts.meterVers = v.hosts.meterVers := rfl
@[simp] theorem Dev.adjCtx_hosts_ports (v : Dev) (id : Nat) (f : Ctx → Ctx) : (Dev.adjCtx v id f).hosts.ports = v.hosts.ports := rfl
@[simp] theorem Dev.adjCtx_hosts_egress (v : Dev) (id : Nat) (f : Ctx → Ctx) : (Dev.adjCtx v id f).hosts.egress = v.hosts.egress := rfl
@[simp] theorem Dev.adjCtx_store (v : Dev) (id : Nat) (f : Ctx → Ctx) : (Dev.adjCtx v id f).store = v.store := rfl
@[simp] theorem Dev.adjCtx_hf (v : Dev) (id : Nat) (f : Ctx → Ctx) : (Dev.adjCtx v id f).hf = v.hf := rfl
@[simp] theorem Dev.adjCtx_keySlots (v : Dev) (id : Nat) (f : Ctx → Ctx) : (Dev.adjCtx v id f).keySlots = v.keySlots := rfl
@[simp] theorem Dev.adjCtx_leases (v : Dev) (id : Nat) (f : Ctx → Ctx) : (Dev.adjCtx v id f).leases = v.leases := rfl
@[simp] theorem Dev.adjCtx_spireLeases (v : Dev) (id : Nat) (f : Ctx → Ctx) : (Dev.adjCtx v id f).spireLeases = v.spireLeases := rfl
@[simp] theorem Dev.adjCtx_ciphers (v : Dev) (id : Nat) (f : Ctx → Ctx) : (Dev.adjCtx v id f).ciphers = v.ciphers := rfl
@[simp] theorem Dev.adjCtx_sec (v : Dev) (id : Nat) (f : Ctx → Ctx) : (Dev.adjCtx v id f).sec = v.sec := rfl
@[simp] theorem Dev.adjCtx_chans (v : Dev) (id : Nat) (f : Ctx → Ctx) : (Dev.adjCtx v id f).chans = v.chans := rfl
@[simp] theorem Dev.adjCtx_faults (v : Dev) (id : Nat) (f : Ctx → Ctx) : (Dev.adjCtx v id f).faults = v.faults := rfl
@[simp] theorem Dev.adjCtx_recov (v : Dev) (id : Nat) (f : Ctx → Ctx) : (Dev.adjCtx v id f).recov = v.recov := rfl
@[simp] theorem Dev.adjCtx_fcLast (v : Dev) (id : Nat) (f : Ctx → Ctx) : (Dev.adjCtx v id f).fcLast = v.fcLast := rfl
@[simp] theorem Dev.adjCtx_floder (v : Dev) (id : Nat) (f : Ctx → Ctx) : (Dev.adjCtx v id f).floder = v.floder := rfl
@[simp] theorem Dev.adjCtx_ep (v : Dev) (id : Nat) (f : Ctx → Ctx) : (Dev.adjCtx v id f).ep = v.ep := rfl
@[simp] theorem Dev.adjCtx_pmon (v : Dev) (id : Nat) (f : Ctx → Ctx) : (Dev.adjCtx v id f).pmon = v.pmon := rfl
@[simp] theorem Dev.adjCtx_out (v : Dev) (id : Nat) (f : Ctx → Ctx) : (Dev.adjCtx v id f).out = v.out := rfl
@[simp] theorem Dev.adjCtx_freeTick (v : Dev) (id : Nat) (f : Ctx → Ctx) : (Dev.adjCtx v id f).freeTick = v.freeTick := rfl
@[simp] theorem Dev.adjCtx_nextId (v : Dev) (id : Nat) (f : Ctx → Ctx) : (Dev.adjCtx v id f).nextId = v.nextId := rfl
@[simp] theorem Dev.adjRead_clk (v : Dev) (id : Nat) (f : ReadCtx → ReadCtx) : (Dev.adjRead v id f).clk = v.clk := rfl
@[simp] theorem Dev.adjRead_winMem (v : Dev) (id : Nat) (f : ReadCtx → ReadCtx) : (Dev.adjRead v id f).winMem = v.winMem := rfl
@[simp] theorem Dev.adjRead_chip (v : Dev) (id : Nat) (f : ReadCtx → ReadCtx) : (Dev.adjRead v id f).chip = v.chip := rfl
@[simp] theorem Dev.adjRead_regs (v : Dev) (id : Nat) (f : ReadCtx → ReadCtx) : (Dev.adjRead v id f).regs = v.regs := rfl
@[simp] theorem Dev.adjRead_hosts_claims (v : Dev) (id : Nat) (f : ReadCtx → ReadCtx) : (Dev.adjRead v id f).hosts.claims = v.hosts.claims := rfl
@[simp] theorem Dev.adjRead_hosts_updates (v : Dev) (id : Nat) (f : ReadCtx → ReadCtx) : (Dev.adjRead v id f).hosts.updates = v.hosts.updates := rfl
@[simp] theorem Dev.adjRead_hosts_switched (v : Dev) (id : Nat) (f : ReadCtx → ReadCtx) : (Dev.adjRead v id f).hosts.switched = v.hosts.switched := rfl
@[simp] theorem Dev.adjRead_hosts_tabVers (v : Dev) (id : Nat) (f : ReadCtx → ReadCtx) : (Dev.adjRead v id f).hosts.tabVers = v.hosts.tabVers := rfl
@[simp] theorem Dev.adjRead_hosts_returning (v : Dev) (id : Nat) (f : ReadCtx → ReadCtx) : (Dev.adjRead v id f).hosts.returning = v.hosts.returning := rfl
@[simp] theorem Dev.adjRead_hosts_extents (v : Dev) (id : Nat) (f : ReadCtx → ReadCtx) : (Dev.adjRead v id f).hosts.extents = v.hosts.extents := rfl
@[simp] theorem Dev.adjRead_hosts_ctxs (v : Dev) (id : Nat) (f : ReadCtx → ReadCtx) : (Dev.adjRead v id f).hosts.ctxs = v.hosts.ctxs := rfl
@[simp] theorem Dev.adjRead_hosts_flushes (v : Dev) (id : Nat) (f : ReadCtx → ReadCtx) : (Dev.adjRead v id f).hosts.flushes = v.hosts.flushes := rfl
@[simp] theorem Dev.adjRead_hosts_scheds (v : Dev) (id : Nat) (f : ReadCtx → ReadCtx) : (Dev.adjRead v id f).hosts.scheds = v.hosts.scheds := rfl
@[simp] theorem Dev.adjRead_hosts_sessions (v : Dev) (id : Nat) (f : ReadCtx → ReadCtx) : (Dev.adjRead v id f).hosts.sessions = v.hosts.sessions := rfl
@[simp] theorem Dev.adjRead_hosts_qps (v : Dev) (id : Nat) (f : ReadCtx → ReadCtx) : (Dev.adjRead v id f).hosts.qps = v.hosts.qps := rfl
@[simp] theorem Dev.adjRead_hosts_inbox (v : Dev) (id : Nat) (f : ReadCtx → ReadCtx) : (Dev.adjRead v id f).hosts.inbox = v.hosts.inbox := rfl
@[simp] theorem Dev.adjRead_hosts_dups (v : Dev) (id : Nat) (f : ReadCtx → ReadCtx) : (Dev.adjRead v id f).hosts.dups = v.hosts.dups := rfl
@[simp] theorem Dev.adjRead_hosts_windows (v : Dev) (id : Nat) (f : ReadCtx → ReadCtx) : (Dev.adjRead v id f).hosts.windows = v.hosts.windows := rfl
@[simp] theorem Dev.adjRead_hosts_winVers (v : Dev) (id : Nat) (f : ReadCtx → ReadCtx) : (Dev.adjRead v id f).hosts.winVers = v.hosts.winVers := rfl
@[simp] theorem Dev.adjRead_hosts_grants (v : Dev) (id : Nat) (f : ReadCtx → ReadCtx) : (Dev.adjRead v id f).hosts.grants = v.hosts.grants := rfl
@[simp] theorem Dev.adjRead_hosts_chains (v : Dev) (id : Nat) (f : ReadCtx → ReadCtx) : (Dev.adjRead v id f).hosts.chains = v.hosts.chains := rfl
@[simp] theorem Dev.adjRead_hosts_meters (v : Dev) (id : Nat) (f : ReadCtx → ReadCtx) : (Dev.adjRead v id f).hosts.meters = v.hosts.meters := rfl
@[simp] theorem Dev.adjRead_hosts_meterVers (v : Dev) (id : Nat) (f : ReadCtx → ReadCtx) : (Dev.adjRead v id f).hosts.meterVers = v.hosts.meterVers := rfl
@[simp] theorem Dev.adjRead_hosts_ports (v : Dev) (id : Nat) (f : ReadCtx → ReadCtx) : (Dev.adjRead v id f).hosts.ports = v.hosts.ports := rfl
@[simp] theorem Dev.adjRead_hosts_egress (v : Dev) (id : Nat) (f : ReadCtx → ReadCtx) : (Dev.adjRead v id f).hosts.egress = v.hosts.egress := rfl
@[simp] theorem Dev.adjRead_store (v : Dev) (id : Nat) (f : ReadCtx → ReadCtx) : (Dev.adjRead v id f).store = v.store := rfl
@[simp] theorem Dev.adjRead_hf (v : Dev) (id : Nat) (f : ReadCtx → ReadCtx) : (Dev.adjRead v id f).hf = v.hf := rfl
@[simp] theorem Dev.adjRead_keySlots (v : Dev) (id : Nat) (f : ReadCtx → ReadCtx) : (Dev.adjRead v id f).keySlots = v.keySlots := rfl
@[simp] theorem Dev.adjRead_leases (v : Dev) (id : Nat) (f : ReadCtx → ReadCtx) : (Dev.adjRead v id f).leases = v.leases := rfl
@[simp] theorem Dev.adjRead_spireLeases (v : Dev) (id : Nat) (f : ReadCtx → ReadCtx) : (Dev.adjRead v id f).spireLeases = v.spireLeases := rfl
@[simp] theorem Dev.adjRead_ciphers (v : Dev) (id : Nat) (f : ReadCtx → ReadCtx) : (Dev.adjRead v id f).ciphers = v.ciphers := rfl
@[simp] theorem Dev.adjRead_sec (v : Dev) (id : Nat) (f : ReadCtx → ReadCtx) : (Dev.adjRead v id f).sec = v.sec := rfl
@[simp] theorem Dev.adjRead_chans (v : Dev) (id : Nat) (f : ReadCtx → ReadCtx) : (Dev.adjRead v id f).chans = v.chans := rfl
@[simp] theorem Dev.adjRead_faults (v : Dev) (id : Nat) (f : ReadCtx → ReadCtx) : (Dev.adjRead v id f).faults = v.faults := rfl
@[simp] theorem Dev.adjRead_recov (v : Dev) (id : Nat) (f : ReadCtx → ReadCtx) : (Dev.adjRead v id f).recov = v.recov := rfl
@[simp] theorem Dev.adjRead_fcLast (v : Dev) (id : Nat) (f : ReadCtx → ReadCtx) : (Dev.adjRead v id f).fcLast = v.fcLast := rfl
@[simp] theorem Dev.adjRead_floder (v : Dev) (id : Nat) (f : ReadCtx → ReadCtx) : (Dev.adjRead v id f).floder = v.floder := rfl
@[simp] theorem Dev.adjRead_ep (v : Dev) (id : Nat) (f : ReadCtx → ReadCtx) : (Dev.adjRead v id f).ep = v.ep := rfl
@[simp] theorem Dev.adjRead_pmon (v : Dev) (id : Nat) (f : ReadCtx → ReadCtx) : (Dev.adjRead v id f).pmon = v.pmon := rfl
@[simp] theorem Dev.adjRead_out (v : Dev) (id : Nat) (f : ReadCtx → ReadCtx) : (Dev.adjRead v id f).out = v.out := rfl
@[simp] theorem Dev.adjRead_freeTick (v : Dev) (id : Nat) (f : ReadCtx → ReadCtx) : (Dev.adjRead v id f).freeTick = v.freeTick := rfl
@[simp] theorem Dev.adjRead_nextId (v : Dev) (id : Nat) (f : ReadCtx → ReadCtx) : (Dev.adjRead v id f).nextId = v.nextId := rfl
@[simp] theorem Dev.setSched_clk (v : Dev) (s : Nat) (x : Sched) : (Dev.setSched v s x).clk = v.clk := rfl
@[simp] theorem Dev.setSched_winMem (v : Dev) (s : Nat) (x : Sched) : (Dev.setSched v s x).winMem = v.winMem := rfl
@[simp] theorem Dev.setSched_chip (v : Dev) (s : Nat) (x : Sched) : (Dev.setSched v s x).chip = v.chip := rfl
@[simp] theorem Dev.setSched_regs (v : Dev) (s : Nat) (x : Sched) : (Dev.setSched v s x).regs = v.regs := rfl
@[simp] theorem Dev.setSched_hosts_claims (v : Dev) (s : Nat) (x : Sched) : (Dev.setSched v s x).hosts.claims = v.hosts.claims := rfl
@[simp] theorem Dev.setSched_hosts_updates (v : Dev) (s : Nat) (x : Sched) : (Dev.setSched v s x).hosts.updates = v.hosts.updates := rfl
@[simp] theorem Dev.setSched_hosts_switched (v : Dev) (s : Nat) (x : Sched) : (Dev.setSched v s x).hosts.switched = v.hosts.switched := rfl
@[simp] theorem Dev.setSched_hosts_tabVers (v : Dev) (s : Nat) (x : Sched) : (Dev.setSched v s x).hosts.tabVers = v.hosts.tabVers := rfl
@[simp] theorem Dev.setSched_hosts_returning (v : Dev) (s : Nat) (x : Sched) : (Dev.setSched v s x).hosts.returning = v.hosts.returning := rfl
@[simp] theorem Dev.setSched_hosts_extents (v : Dev) (s : Nat) (x : Sched) : (Dev.setSched v s x).hosts.extents = v.hosts.extents := rfl
@[simp] theorem Dev.setSched_hosts_ctxs (v : Dev) (s : Nat) (x : Sched) : (Dev.setSched v s x).hosts.ctxs = v.hosts.ctxs := rfl
@[simp] theorem Dev.setSched_hosts_reads (v : Dev) (s : Nat) (x : Sched) : (Dev.setSched v s x).hosts.reads = v.hosts.reads := rfl
@[simp] theorem Dev.setSched_hosts_flushes (v : Dev) (s : Nat) (x : Sched) : (Dev.setSched v s x).hosts.flushes = v.hosts.flushes := rfl
@[simp] theorem Dev.setSched_hosts_sessions (v : Dev) (s : Nat) (x : Sched) : (Dev.setSched v s x).hosts.sessions = v.hosts.sessions := rfl
@[simp] theorem Dev.setSched_hosts_qps (v : Dev) (s : Nat) (x : Sched) : (Dev.setSched v s x).hosts.qps = v.hosts.qps := rfl
@[simp] theorem Dev.setSched_hosts_inbox (v : Dev) (s : Nat) (x : Sched) : (Dev.setSched v s x).hosts.inbox = v.hosts.inbox := rfl
@[simp] theorem Dev.setSched_hosts_dups (v : Dev) (s : Nat) (x : Sched) : (Dev.setSched v s x).hosts.dups = v.hosts.dups := rfl
@[simp] theorem Dev.setSched_hosts_windows (v : Dev) (s : Nat) (x : Sched) : (Dev.setSched v s x).hosts.windows = v.hosts.windows := rfl
@[simp] theorem Dev.setSched_hosts_winVers (v : Dev) (s : Nat) (x : Sched) : (Dev.setSched v s x).hosts.winVers = v.hosts.winVers := rfl
@[simp] theorem Dev.setSched_hosts_grants (v : Dev) (s : Nat) (x : Sched) : (Dev.setSched v s x).hosts.grants = v.hosts.grants := rfl
@[simp] theorem Dev.setSched_hosts_chains (v : Dev) (s : Nat) (x : Sched) : (Dev.setSched v s x).hosts.chains = v.hosts.chains := rfl
@[simp] theorem Dev.setSched_hosts_meters (v : Dev) (s : Nat) (x : Sched) : (Dev.setSched v s x).hosts.meters = v.hosts.meters := rfl
@[simp] theorem Dev.setSched_hosts_meterVers (v : Dev) (s : Nat) (x : Sched) : (Dev.setSched v s x).hosts.meterVers = v.hosts.meterVers := rfl
@[simp] theorem Dev.setSched_hosts_ports (v : Dev) (s : Nat) (x : Sched) : (Dev.setSched v s x).hosts.ports = v.hosts.ports := rfl
@[simp] theorem Dev.setSched_hosts_egress (v : Dev) (s : Nat) (x : Sched) : (Dev.setSched v s x).hosts.egress = v.hosts.egress := rfl
@[simp] theorem Dev.setSched_store (v : Dev) (s : Nat) (x : Sched) : (Dev.setSched v s x).store = v.store := rfl
@[simp] theorem Dev.setSched_hf (v : Dev) (s : Nat) (x : Sched) : (Dev.setSched v s x).hf = v.hf := rfl
@[simp] theorem Dev.setSched_keySlots (v : Dev) (s : Nat) (x : Sched) : (Dev.setSched v s x).keySlots = v.keySlots := rfl
@[simp] theorem Dev.setSched_leases (v : Dev) (s : Nat) (x : Sched) : (Dev.setSched v s x).leases = v.leases := rfl
@[simp] theorem Dev.setSched_spireLeases (v : Dev) (s : Nat) (x : Sched) : (Dev.setSched v s x).spireLeases = v.spireLeases := rfl
@[simp] theorem Dev.setSched_ciphers (v : Dev) (s : Nat) (x : Sched) : (Dev.setSched v s x).ciphers = v.ciphers := rfl
@[simp] theorem Dev.setSched_sec (v : Dev) (s : Nat) (x : Sched) : (Dev.setSched v s x).sec = v.sec := rfl
@[simp] theorem Dev.setSched_chans (v : Dev) (s : Nat) (x : Sched) : (Dev.setSched v s x).chans = v.chans := rfl
@[simp] theorem Dev.setSched_faults (v : Dev) (s : Nat) (x : Sched) : (Dev.setSched v s x).faults = v.faults := rfl
@[simp] theorem Dev.setSched_recov (v : Dev) (s : Nat) (x : Sched) : (Dev.setSched v s x).recov = v.recov := rfl
@[simp] theorem Dev.setSched_fcLast (v : Dev) (s : Nat) (x : Sched) : (Dev.setSched v s x).fcLast = v.fcLast := rfl
@[simp] theorem Dev.setSched_floder (v : Dev) (s : Nat) (x : Sched) : (Dev.setSched v s x).floder = v.floder := rfl
@[simp] theorem Dev.setSched_ep (v : Dev) (s : Nat) (x : Sched) : (Dev.setSched v s x).ep = v.ep := rfl
@[simp] theorem Dev.setSched_pmon (v : Dev) (s : Nat) (x : Sched) : (Dev.setSched v s x).pmon = v.pmon := rfl
@[simp] theorem Dev.setSched_out (v : Dev) (s : Nat) (x : Sched) : (Dev.setSched v s x).out = v.out := rfl
@[simp] theorem Dev.setSched_freeTick (v : Dev) (s : Nat) (x : Sched) : (Dev.setSched v s x).freeTick = v.freeTick := rfl
@[simp] theorem Dev.setSched_nextId (v : Dev) (s : Nat) (x : Sched) : (Dev.setSched v s x).nextId = v.nextId := rfl
@[simp] theorem Dev.uncharge_clk (v : Dev) (claim n : Nat) : (Dev.uncharge v claim n).clk = v.clk := rfl
@[simp] theorem Dev.uncharge_winMem (v : Dev) (claim n : Nat) : (Dev.uncharge v claim n).winMem = v.winMem := rfl
@[simp] theorem Dev.uncharge_chip (v : Dev) (claim n : Nat) : (Dev.uncharge v claim n).chip = v.chip := rfl
@[simp] theorem Dev.uncharge_regs (v : Dev) (claim n : Nat) : (Dev.uncharge v claim n).regs = v.regs := rfl
@[simp] theorem Dev.uncharge_hosts_updates (v : Dev) (claim n : Nat) : (Dev.uncharge v claim n).hosts.updates = v.hosts.updates := rfl
@[simp] theorem Dev.uncharge_hosts_switched (v : Dev) (claim n : Nat) : (Dev.uncharge v claim n).hosts.switched = v.hosts.switched := rfl
@[simp] theorem Dev.uncharge_hosts_tabVers (v : Dev) (claim n : Nat) : (Dev.uncharge v claim n).hosts.tabVers = v.hosts.tabVers := rfl
@[simp] theorem Dev.uncharge_hosts_returning (v : Dev) (claim n : Nat) : (Dev.uncharge v claim n).hosts.returning = v.hosts.returning := rfl
@[simp] theorem Dev.uncharge_hosts_extents (v : Dev) (claim n : Nat) : (Dev.uncharge v claim n).hosts.extents = v.hosts.extents := rfl
@[simp] theorem Dev.uncharge_hosts_ctxs (v : Dev) (claim n : Nat) : (Dev.uncharge v claim n).hosts.ctxs = v.hosts.ctxs := rfl
@[simp] theorem Dev.uncharge_hosts_reads (v : Dev) (claim n : Nat) : (Dev.uncharge v claim n).hosts.reads = v.hosts.reads := rfl
@[simp] theorem Dev.uncharge_hosts_flushes (v : Dev) (claim n : Nat) : (Dev.uncharge v claim n).hosts.flushes = v.hosts.flushes := rfl
@[simp] theorem Dev.uncharge_hosts_scheds (v : Dev) (claim n : Nat) : (Dev.uncharge v claim n).hosts.scheds = v.hosts.scheds := rfl
@[simp] theorem Dev.uncharge_hosts_sessions (v : Dev) (claim n : Nat) : (Dev.uncharge v claim n).hosts.sessions = v.hosts.sessions := rfl
@[simp] theorem Dev.uncharge_hosts_qps (v : Dev) (claim n : Nat) : (Dev.uncharge v claim n).hosts.qps = v.hosts.qps := rfl
@[simp] theorem Dev.uncharge_hosts_inbox (v : Dev) (claim n : Nat) : (Dev.uncharge v claim n).hosts.inbox = v.hosts.inbox := rfl
@[simp] theorem Dev.uncharge_hosts_dups (v : Dev) (claim n : Nat) : (Dev.uncharge v claim n).hosts.dups = v.hosts.dups := rfl
@[simp] theorem Dev.uncharge_hosts_windows (v : Dev) (claim n : Nat) : (Dev.uncharge v claim n).hosts.windows = v.hosts.windows := rfl
@[simp] theorem Dev.uncharge_hosts_winVers (v : Dev) (claim n : Nat) : (Dev.uncharge v claim n).hosts.winVers = v.hosts.winVers := rfl
@[simp] theorem Dev.uncharge_hosts_grants (v : Dev) (claim n : Nat) : (Dev.uncharge v claim n).hosts.grants = v.hosts.grants := rfl
@[simp] theorem Dev.uncharge_hosts_chains (v : Dev) (claim n : Nat) : (Dev.uncharge v claim n).hosts.chains = v.hosts.chains := rfl
@[simp] theorem Dev.uncharge_hosts_meters (v : Dev) (claim n : Nat) : (Dev.uncharge v claim n).hosts.meters = v.hosts.meters := rfl
@[simp] theorem Dev.uncharge_hosts_meterVers (v : Dev) (claim n : Nat) : (Dev.uncharge v claim n).hosts.meterVers = v.hosts.meterVers := rfl
@[simp] theorem Dev.uncharge_hosts_ports (v : Dev) (claim n : Nat) : (Dev.uncharge v claim n).hosts.ports = v.hosts.ports := rfl
@[simp] theorem Dev.uncharge_hosts_egress (v : Dev) (claim n : Nat) : (Dev.uncharge v claim n).hosts.egress = v.hosts.egress := rfl
@[simp] theorem Dev.uncharge_store (v : Dev) (claim n : Nat) : (Dev.uncharge v claim n).store = v.store := rfl
@[simp] theorem Dev.uncharge_hf (v : Dev) (claim n : Nat) : (Dev.uncharge v claim n).hf = v.hf := rfl
@[simp] theorem Dev.uncharge_keySlots (v : Dev) (claim n : Nat) : (Dev.uncharge v claim n).keySlots = v.keySlots := rfl
@[simp] theorem Dev.uncharge_leases (v : Dev) (claim n : Nat) : (Dev.uncharge v claim n).leases = v.leases := rfl
@[simp] theorem Dev.uncharge_spireLeases (v : Dev) (claim n : Nat) : (Dev.uncharge v claim n).spireLeases = v.spireLeases := rfl
@[simp] theorem Dev.uncharge_ciphers (v : Dev) (claim n : Nat) : (Dev.uncharge v claim n).ciphers = v.ciphers := rfl
@[simp] theorem Dev.uncharge_sec (v : Dev) (claim n : Nat) : (Dev.uncharge v claim n).sec = v.sec := rfl
@[simp] theorem Dev.uncharge_chans (v : Dev) (claim n : Nat) : (Dev.uncharge v claim n).chans = v.chans := rfl
@[simp] theorem Dev.uncharge_faults (v : Dev) (claim n : Nat) : (Dev.uncharge v claim n).faults = v.faults := rfl
@[simp] theorem Dev.uncharge_recov (v : Dev) (claim n : Nat) : (Dev.uncharge v claim n).recov = v.recov := rfl
@[simp] theorem Dev.uncharge_fcLast (v : Dev) (claim n : Nat) : (Dev.uncharge v claim n).fcLast = v.fcLast := rfl
@[simp] theorem Dev.uncharge_floder (v : Dev) (claim n : Nat) : (Dev.uncharge v claim n).floder = v.floder := rfl
@[simp] theorem Dev.uncharge_ep (v : Dev) (claim n : Nat) : (Dev.uncharge v claim n).ep = v.ep := rfl
@[simp] theorem Dev.uncharge_pmon (v : Dev) (claim n : Nat) : (Dev.uncharge v claim n).pmon = v.pmon := rfl
@[simp] theorem Dev.uncharge_out (v : Dev) (claim n : Nat) : (Dev.uncharge v claim n).out = v.out := rfl
@[simp] theorem Dev.uncharge_freeTick (v : Dev) (claim n : Nat) : (Dev.uncharge v claim n).freeTick = v.freeTick := rfl
@[simp] theorem Dev.uncharge_nextId (v : Dev) (claim n : Nat) : (Dev.uncharge v claim n).nextId = v.nextId := rfl
@[simp] theorem Dev.queueUpdate_clk (v : Dev) (t : TableId) (key : Nat) (a : UpdAction) (cmd : Option Nat) : (Dev.queueUpdate v t key a cmd).clk = v.clk := rfl
@[simp] theorem Dev.queueUpdate_winMem (v : Dev) (t : TableId) (key : Nat) (a : UpdAction) (cmd : Option Nat) : (Dev.queueUpdate v t key a cmd).winMem = v.winMem := rfl
@[simp] theorem Dev.queueUpdate_chip (v : Dev) (t : TableId) (key : Nat) (a : UpdAction) (cmd : Option Nat) : (Dev.queueUpdate v t key a cmd).chip = v.chip := rfl
@[simp] theorem Dev.queueUpdate_regs (v : Dev) (t : TableId) (key : Nat) (a : UpdAction) (cmd : Option Nat) : (Dev.queueUpdate v t key a cmd).regs = v.regs := rfl
@[simp] theorem Dev.queueUpdate_hosts_claims (v : Dev) (t : TableId) (key : Nat) (a : UpdAction) (cmd : Option Nat) : (Dev.queueUpdate v t key a cmd).hosts.claims = v.hosts.claims := rfl
@[simp] theorem Dev.queueUpdate_hosts_switched (v : Dev) (t : TableId) (key : Nat) (a : UpdAction) (cmd : Option Nat) : (Dev.queueUpdate v t key a cmd).hosts.switched = v.hosts.switched := rfl
@[simp] theorem Dev.queueUpdate_hosts_tabVers (v : Dev) (t : TableId) (key : Nat) (a : UpdAction) (cmd : Option Nat) : (Dev.queueUpdate v t key a cmd).hosts.tabVers = v.hosts.tabVers := rfl
@[simp] theorem Dev.queueUpdate_hosts_returning (v : Dev) (t : TableId) (key : Nat) (a : UpdAction) (cmd : Option Nat) : (Dev.queueUpdate v t key a cmd).hosts.returning = v.hosts.returning := rfl
@[simp] theorem Dev.queueUpdate_hosts_extents (v : Dev) (t : TableId) (key : Nat) (a : UpdAction) (cmd : Option Nat) : (Dev.queueUpdate v t key a cmd).hosts.extents = v.hosts.extents := rfl
@[simp] theorem Dev.queueUpdate_hosts_ctxs (v : Dev) (t : TableId) (key : Nat) (a : UpdAction) (cmd : Option Nat) : (Dev.queueUpdate v t key a cmd).hosts.ctxs = v.hosts.ctxs := rfl
@[simp] theorem Dev.queueUpdate_hosts_reads (v : Dev) (t : TableId) (key : Nat) (a : UpdAction) (cmd : Option Nat) : (Dev.queueUpdate v t key a cmd).hosts.reads = v.hosts.reads := rfl
@[simp] theorem Dev.queueUpdate_hosts_flushes (v : Dev) (t : TableId) (key : Nat) (a : UpdAction) (cmd : Option Nat) : (Dev.queueUpdate v t key a cmd).hosts.flushes = v.hosts.flushes := rfl
@[simp] theorem Dev.queueUpdate_hosts_scheds (v : Dev) (t : TableId) (key : Nat) (a : UpdAction) (cmd : Option Nat) : (Dev.queueUpdate v t key a cmd).hosts.scheds = v.hosts.scheds := rfl
@[simp] theorem Dev.queueUpdate_hosts_sessions (v : Dev) (t : TableId) (key : Nat) (a : UpdAction) (cmd : Option Nat) : (Dev.queueUpdate v t key a cmd).hosts.sessions = v.hosts.sessions := rfl
@[simp] theorem Dev.queueUpdate_hosts_qps (v : Dev) (t : TableId) (key : Nat) (a : UpdAction) (cmd : Option Nat) : (Dev.queueUpdate v t key a cmd).hosts.qps = v.hosts.qps := rfl
@[simp] theorem Dev.queueUpdate_hosts_inbox (v : Dev) (t : TableId) (key : Nat) (a : UpdAction) (cmd : Option Nat) : (Dev.queueUpdate v t key a cmd).hosts.inbox = v.hosts.inbox := rfl
@[simp] theorem Dev.queueUpdate_hosts_dups (v : Dev) (t : TableId) (key : Nat) (a : UpdAction) (cmd : Option Nat) : (Dev.queueUpdate v t key a cmd).hosts.dups = v.hosts.dups := rfl
@[simp] theorem Dev.queueUpdate_hosts_windows (v : Dev) (t : TableId) (key : Nat) (a : UpdAction) (cmd : Option Nat) : (Dev.queueUpdate v t key a cmd).hosts.windows = v.hosts.windows := rfl
@[simp] theorem Dev.queueUpdate_hosts_winVers (v : Dev) (t : TableId) (key : Nat) (a : UpdAction) (cmd : Option Nat) : (Dev.queueUpdate v t key a cmd).hosts.winVers = v.hosts.winVers := rfl
@[simp] theorem Dev.queueUpdate_hosts_grants (v : Dev) (t : TableId) (key : Nat) (a : UpdAction) (cmd : Option Nat) : (Dev.queueUpdate v t key a cmd).hosts.grants = v.hosts.grants := rfl
@[simp] theorem Dev.queueUpdate_hosts_chains (v : Dev) (t : TableId) (key : Nat) (a : UpdAction) (cmd : Option Nat) : (Dev.queueUpdate v t key a cmd).hosts.chains = v.hosts.chains := rfl
@[simp] theorem Dev.queueUpdate_hosts_meters (v : Dev) (t : TableId) (key : Nat) (a : UpdAction) (cmd : Option Nat) : (Dev.queueUpdate v t key a cmd).hosts.meters = v.hosts.meters := rfl
@[simp] theorem Dev.queueUpdate_hosts_meterVers (v : Dev) (t : TableId) (key : Nat) (a : UpdAction) (cmd : Option Nat) : (Dev.queueUpdate v t key a cmd).hosts.meterVers = v.hosts.meterVers := rfl
@[simp] theorem Dev.queueUpdate_hosts_ports (v : Dev) (t : TableId) (key : Nat) (a : UpdAction) (cmd : Option Nat) : (Dev.queueUpdate v t key a cmd).hosts.ports = v.hosts.ports := rfl
@[simp] theorem Dev.queueUpdate_hosts_egress (v : Dev) (t : TableId) (key : Nat) (a : UpdAction) (cmd : Option Nat) : (Dev.queueUpdate v t key a cmd).hosts.egress = v.hosts.egress := rfl
@[simp] theorem Dev.queueUpdate_store (v : Dev) (t : TableId) (key : Nat) (a : UpdAction) (cmd : Option Nat) : (Dev.queueUpdate v t key a cmd).store = v.store := rfl
@[simp] theorem Dev.queueUpdate_hf (v : Dev) (t : TableId) (key : Nat) (a : UpdAction) (cmd : Option Nat) : (Dev.queueUpdate v t key a cmd).hf = v.hf := rfl
@[simp] theorem Dev.queueUpdate_keySlots (v : Dev) (t : TableId) (key : Nat) (a : UpdAction) (cmd : Option Nat) : (Dev.queueUpdate v t key a cmd).keySlots = v.keySlots := rfl
@[simp] theorem Dev.queueUpdate_leases (v : Dev) (t : TableId) (key : Nat) (a : UpdAction) (cmd : Option Nat) : (Dev.queueUpdate v t key a cmd).leases = v.leases := rfl
@[simp] theorem Dev.queueUpdate_spireLeases (v : Dev) (t : TableId) (key : Nat) (a : UpdAction) (cmd : Option Nat) : (Dev.queueUpdate v t key a cmd).spireLeases = v.spireLeases := rfl
@[simp] theorem Dev.queueUpdate_ciphers (v : Dev) (t : TableId) (key : Nat) (a : UpdAction) (cmd : Option Nat) : (Dev.queueUpdate v t key a cmd).ciphers = v.ciphers := rfl
@[simp] theorem Dev.queueUpdate_sec (v : Dev) (t : TableId) (key : Nat) (a : UpdAction) (cmd : Option Nat) : (Dev.queueUpdate v t key a cmd).sec = v.sec := rfl
@[simp] theorem Dev.queueUpdate_chans (v : Dev) (t : TableId) (key : Nat) (a : UpdAction) (cmd : Option Nat) : (Dev.queueUpdate v t key a cmd).chans = v.chans := rfl
@[simp] theorem Dev.queueUpdate_faults (v : Dev) (t : TableId) (key : Nat) (a : UpdAction) (cmd : Option Nat) : (Dev.queueUpdate v t key a cmd).faults = v.faults := rfl
@[simp] theorem Dev.queueUpdate_recov (v : Dev) (t : TableId) (key : Nat) (a : UpdAction) (cmd : Option Nat) : (Dev.queueUpdate v t key a cmd).recov = v.recov := rfl
@[simp] theorem Dev.queueUpdate_fcLast (v : Dev) (t : TableId) (key : Nat) (a : UpdAction) (cmd : Option Nat) : (Dev.queueUpdate v t key a cmd).fcLast = v.fcLast := rfl
@[simp] theorem Dev.queueUpdate_floder (v : Dev) (t : TableId) (key : Nat) (a : UpdAction) (cmd : Option Nat) : (Dev.queueUpdate v t key a cmd).floder = v.floder := rfl
@[simp] theorem Dev.queueUpdate_ep (v : Dev) (t : TableId) (key : Nat) (a : UpdAction) (cmd : Option Nat) : (Dev.queueUpdate v t key a cmd).ep = v.ep := rfl
@[simp] theorem Dev.queueUpdate_pmon (v : Dev) (t : TableId) (key : Nat) (a : UpdAction) (cmd : Option Nat) : (Dev.queueUpdate v t key a cmd).pmon = v.pmon := rfl
@[simp] theorem Dev.queueUpdate_out (v : Dev) (t : TableId) (key : Nat) (a : UpdAction) (cmd : Option Nat) : (Dev.queueUpdate v t key a cmd).out = v.out := rfl
@[simp] theorem Dev.queueUpdate_freeTick (v : Dev) (t : TableId) (key : Nat) (a : UpdAction) (cmd : Option Nat) : (Dev.queueUpdate v t key a cmd).freeTick = v.freeTick := rfl
@[simp] theorem Dev.queueUpdate_nextId (v : Dev) (t : TableId) (key : Nat) (a : UpdAction) (cmd : Option Nat) : (Dev.queueUpdate v t key a cmd).nextId = v.nextId := rfl
@[simp] theorem Dev.dropUpdate_clk (v : Dev) (t : TableId) (key : Nat) : (Dev.dropUpdate v t key).clk = v.clk := rfl
@[simp] theorem Dev.dropUpdate_winMem (v : Dev) (t : TableId) (key : Nat) : (Dev.dropUpdate v t key).winMem = v.winMem := rfl
@[simp] theorem Dev.dropUpdate_chip (v : Dev) (t : TableId) (key : Nat) : (Dev.dropUpdate v t key).chip = v.chip := rfl
@[simp] theorem Dev.dropUpdate_regs (v : Dev) (t : TableId) (key : Nat) : (Dev.dropUpdate v t key).regs = v.regs := rfl
@[simp] theorem Dev.dropUpdate_hosts_claims (v : Dev) (t : TableId) (key : Nat) : (Dev.dropUpdate v t key).hosts.claims = v.hosts.claims := rfl
@[simp] theorem Dev.dropUpdate_hosts_switched (v : Dev) (t : TableId) (key : Nat) : (Dev.dropUpdate v t key).hosts.switched = v.hosts.switched := rfl
@[simp] theorem Dev.dropUpdate_hosts_tabVers (v : Dev) (t : TableId) (key : Nat) : (Dev.dropUpdate v t key).hosts.tabVers = v.hosts.tabVers := rfl
@[simp] theorem Dev.dropUpdate_hosts_returning (v : Dev) (t : TableId) (key : Nat) : (Dev.dropUpdate v t key).hosts.returning = v.hosts.returning := rfl
@[simp] theorem Dev.dropUpdate_hosts_extents (v : Dev) (t : TableId) (key : Nat) : (Dev.dropUpdate v t key).hosts.extents = v.hosts.extents := rfl
@[simp] theorem Dev.dropUpdate_hosts_ctxs (v : Dev) (t : TableId) (key : Nat) : (Dev.dropUpdate v t key).hosts.ctxs = v.hosts.ctxs := rfl
@[simp] theorem Dev.dropUpdate_hosts_reads (v : Dev) (t : TableId) (key : Nat) : (Dev.dropUpdate v t key).hosts.reads = v.hosts.reads := rfl
@[simp] theorem Dev.dropUpdate_hosts_flushes (v : Dev) (t : TableId) (key : Nat) : (Dev.dropUpdate v t key).hosts.flushes = v.hosts.flushes := rfl
@[simp] theorem Dev.dropUpdate_hosts_scheds (v : Dev) (t : TableId) (key : Nat) : (Dev.dropUpdate v t key).hosts.scheds = v.hosts.scheds := rfl
@[simp] theorem Dev.dropUpdate_hosts_sessions (v : Dev) (t : TableId) (key : Nat) : (Dev.dropUpdate v t key).hosts.sessions = v.hosts.sessions := rfl
@[simp] theorem Dev.dropUpdate_hosts_qps (v : Dev) (t : TableId) (key : Nat) : (Dev.dropUpdate v t key).hosts.qps = v.hosts.qps := rfl
@[simp] theorem Dev.dropUpdate_hosts_inbox (v : Dev) (t : TableId) (key : Nat) : (Dev.dropUpdate v t key).hosts.inbox = v.hosts.inbox := rfl
@[simp] theorem Dev.dropUpdate_hosts_dups (v : Dev) (t : TableId) (key : Nat) : (Dev.dropUpdate v t key).hosts.dups = v.hosts.dups := rfl
@[simp] theorem Dev.dropUpdate_hosts_windows (v : Dev) (t : TableId) (key : Nat) : (Dev.dropUpdate v t key).hosts.windows = v.hosts.windows := rfl
@[simp] theorem Dev.dropUpdate_hosts_winVers (v : Dev) (t : TableId) (key : Nat) : (Dev.dropUpdate v t key).hosts.winVers = v.hosts.winVers := rfl
@[simp] theorem Dev.dropUpdate_hosts_grants (v : Dev) (t : TableId) (key : Nat) : (Dev.dropUpdate v t key).hosts.grants = v.hosts.grants := rfl
@[simp] theorem Dev.dropUpdate_hosts_chains (v : Dev) (t : TableId) (key : Nat) : (Dev.dropUpdate v t key).hosts.chains = v.hosts.chains := rfl
@[simp] theorem Dev.dropUpdate_hosts_meters (v : Dev) (t : TableId) (key : Nat) : (Dev.dropUpdate v t key).hosts.meters = v.hosts.meters := rfl
@[simp] theorem Dev.dropUpdate_hosts_meterVers (v : Dev) (t : TableId) (key : Nat) : (Dev.dropUpdate v t key).hosts.meterVers = v.hosts.meterVers := rfl
@[simp] theorem Dev.dropUpdate_hosts_ports (v : Dev) (t : TableId) (key : Nat) : (Dev.dropUpdate v t key).hosts.ports = v.hosts.ports := rfl
@[simp] theorem Dev.dropUpdate_hosts_egress (v : Dev) (t : TableId) (key : Nat) : (Dev.dropUpdate v t key).hosts.egress = v.hosts.egress := rfl
@[simp] theorem Dev.dropUpdate_store (v : Dev) (t : TableId) (key : Nat) : (Dev.dropUpdate v t key).store = v.store := rfl
@[simp] theorem Dev.dropUpdate_hf (v : Dev) (t : TableId) (key : Nat) : (Dev.dropUpdate v t key).hf = v.hf := rfl
@[simp] theorem Dev.dropUpdate_keySlots (v : Dev) (t : TableId) (key : Nat) : (Dev.dropUpdate v t key).keySlots = v.keySlots := rfl
@[simp] theorem Dev.dropUpdate_leases (v : Dev) (t : TableId) (key : Nat) : (Dev.dropUpdate v t key).leases = v.leases := rfl
@[simp] theorem Dev.dropUpdate_spireLeases (v : Dev) (t : TableId) (key : Nat) : (Dev.dropUpdate v t key).spireLeases = v.spireLeases := rfl
@[simp] theorem Dev.dropUpdate_ciphers (v : Dev) (t : TableId) (key : Nat) : (Dev.dropUpdate v t key).ciphers = v.ciphers := rfl
@[simp] theorem Dev.dropUpdate_sec (v : Dev) (t : TableId) (key : Nat) : (Dev.dropUpdate v t key).sec = v.sec := rfl
@[simp] theorem Dev.dropUpdate_chans (v : Dev) (t : TableId) (key : Nat) : (Dev.dropUpdate v t key).chans = v.chans := rfl
@[simp] theorem Dev.dropUpdate_faults (v : Dev) (t : TableId) (key : Nat) : (Dev.dropUpdate v t key).faults = v.faults := rfl
@[simp] theorem Dev.dropUpdate_recov (v : Dev) (t : TableId) (key : Nat) : (Dev.dropUpdate v t key).recov = v.recov := rfl
@[simp] theorem Dev.dropUpdate_fcLast (v : Dev) (t : TableId) (key : Nat) : (Dev.dropUpdate v t key).fcLast = v.fcLast := rfl
@[simp] theorem Dev.dropUpdate_floder (v : Dev) (t : TableId) (key : Nat) : (Dev.dropUpdate v t key).floder = v.floder := rfl
@[simp] theorem Dev.dropUpdate_ep (v : Dev) (t : TableId) (key : Nat) : (Dev.dropUpdate v t key).ep = v.ep := rfl
@[simp] theorem Dev.dropUpdate_pmon (v : Dev) (t : TableId) (key : Nat) : (Dev.dropUpdate v t key).pmon = v.pmon := rfl
@[simp] theorem Dev.dropUpdate_out (v : Dev) (t : TableId) (key : Nat) : (Dev.dropUpdate v t key).out = v.out := rfl
@[simp] theorem Dev.dropUpdate_freeTick (v : Dev) (t : TableId) (key : Nat) : (Dev.dropUpdate v t key).freeTick = v.freeTick := rfl
@[simp] theorem Dev.dropUpdate_nextId (v : Dev) (t : TableId) (key : Nat) : (Dev.dropUpdate v t key).nextId = v.nextId := rfl
@[simp] theorem Dev.setChain_clk (v : Dev) (n : Nat) (c : ChainQ) : (Dev.setChain v n c).clk = v.clk := rfl
@[simp] theorem Dev.setChain_winMem (v : Dev) (n : Nat) (c : ChainQ) : (Dev.setChain v n c).winMem = v.winMem := rfl
@[simp] theorem Dev.setChain_chip (v : Dev) (n : Nat) (c : ChainQ) : (Dev.setChain v n c).chip = v.chip := rfl
@[simp] theorem Dev.setChain_regs (v : Dev) (n : Nat) (c : ChainQ) : (Dev.setChain v n c).regs = v.regs := rfl
@[simp] theorem Dev.setChain_hosts_claims (v : Dev) (n : Nat) (c : ChainQ) : (Dev.setChain v n c).hosts.claims = v.hosts.claims := rfl
@[simp] theorem Dev.setChain_hosts_updates (v : Dev) (n : Nat) (c : ChainQ) : (Dev.setChain v n c).hosts.updates = v.hosts.updates := rfl
@[simp] theorem Dev.setChain_hosts_switched (v : Dev) (n : Nat) (c : ChainQ) : (Dev.setChain v n c).hosts.switched = v.hosts.switched := rfl
@[simp] theorem Dev.setChain_hosts_tabVers (v : Dev) (n : Nat) (c : ChainQ) : (Dev.setChain v n c).hosts.tabVers = v.hosts.tabVers := rfl
@[simp] theorem Dev.setChain_hosts_returning (v : Dev) (n : Nat) (c : ChainQ) : (Dev.setChain v n c).hosts.returning = v.hosts.returning := rfl
@[simp] theorem Dev.setChain_hosts_extents (v : Dev) (n : Nat) (c : ChainQ) : (Dev.setChain v n c).hosts.extents = v.hosts.extents := rfl
@[simp] theorem Dev.setChain_hosts_ctxs (v : Dev) (n : Nat) (c : ChainQ) : (Dev.setChain v n c).hosts.ctxs = v.hosts.ctxs := rfl
@[simp] theorem Dev.setChain_hosts_reads (v : Dev) (n : Nat) (c : ChainQ) : (Dev.setChain v n c).hosts.reads = v.hosts.reads := rfl
@[simp] theorem Dev.setChain_hosts_flushes (v : Dev) (n : Nat) (c : ChainQ) : (Dev.setChain v n c).hosts.flushes = v.hosts.flushes := rfl
@[simp] theorem Dev.setChain_hosts_scheds (v : Dev) (n : Nat) (c : ChainQ) : (Dev.setChain v n c).hosts.scheds = v.hosts.scheds := rfl
@[simp] theorem Dev.setChain_hosts_sessions (v : Dev) (n : Nat) (c : ChainQ) : (Dev.setChain v n c).hosts.sessions = v.hosts.sessions := rfl
@[simp] theorem Dev.setChain_hosts_qps (v : Dev) (n : Nat) (c : ChainQ) : (Dev.setChain v n c).hosts.qps = v.hosts.qps := rfl
@[simp] theorem Dev.setChain_hosts_inbox (v : Dev) (n : Nat) (c : ChainQ) : (Dev.setChain v n c).hosts.inbox = v.hosts.inbox := rfl
@[simp] theorem Dev.setChain_hosts_dups (v : Dev) (n : Nat) (c : ChainQ) : (Dev.setChain v n c).hosts.dups = v.hosts.dups := rfl
@[simp] theorem Dev.setChain_hosts_windows (v : Dev) (n : Nat) (c : ChainQ) : (Dev.setChain v n c).hosts.windows = v.hosts.windows := rfl
@[simp] theorem Dev.setChain_hosts_winVers (v : Dev) (n : Nat) (c : ChainQ) : (Dev.setChain v n c).hosts.winVers = v.hosts.winVers := rfl
@[simp] theorem Dev.setChain_hosts_grants (v : Dev) (n : Nat) (c : ChainQ) : (Dev.setChain v n c).hosts.grants = v.hosts.grants := rfl
@[simp] theorem Dev.setChain_hosts_meters (v : Dev) (n : Nat) (c : ChainQ) : (Dev.setChain v n c).hosts.meters = v.hosts.meters := rfl
@[simp] theorem Dev.setChain_hosts_meterVers (v : Dev) (n : Nat) (c : ChainQ) : (Dev.setChain v n c).hosts.meterVers = v.hosts.meterVers := rfl
@[simp] theorem Dev.setChain_hosts_ports (v : Dev) (n : Nat) (c : ChainQ) : (Dev.setChain v n c).hosts.ports = v.hosts.ports := rfl
@[simp] theorem Dev.setChain_hosts_egress (v : Dev) (n : Nat) (c : ChainQ) : (Dev.setChain v n c).hosts.egress = v.hosts.egress := rfl
@[simp] theorem Dev.setChain_store (v : Dev) (n : Nat) (c : ChainQ) : (Dev.setChain v n c).store = v.store := rfl
@[simp] theorem Dev.setChain_hf (v : Dev) (n : Nat) (c : ChainQ) : (Dev.setChain v n c).hf = v.hf := rfl
@[simp] theorem Dev.setChain_keySlots (v : Dev) (n : Nat) (c : ChainQ) : (Dev.setChain v n c).keySlots = v.keySlots := rfl
@[simp] theorem Dev.setChain_leases (v : Dev) (n : Nat) (c : ChainQ) : (Dev.setChain v n c).leases = v.leases := rfl
@[simp] theorem Dev.setChain_spireLeases (v : Dev) (n : Nat) (c : ChainQ) : (Dev.setChain v n c).spireLeases = v.spireLeases := rfl
@[simp] theorem Dev.setChain_ciphers (v : Dev) (n : Nat) (c : ChainQ) : (Dev.setChain v n c).ciphers = v.ciphers := rfl
@[simp] theorem Dev.setChain_sec (v : Dev) (n : Nat) (c : ChainQ) : (Dev.setChain v n c).sec = v.sec := rfl
@[simp] theorem Dev.setChain_chans (v : Dev) (n : Nat) (c : ChainQ) : (Dev.setChain v n c).chans = v.chans := rfl
@[simp] theorem Dev.setChain_faults (v : Dev) (n : Nat) (c : ChainQ) : (Dev.setChain v n c).faults = v.faults := rfl
@[simp] theorem Dev.setChain_recov (v : Dev) (n : Nat) (c : ChainQ) : (Dev.setChain v n c).recov = v.recov := rfl
@[simp] theorem Dev.setChain_fcLast (v : Dev) (n : Nat) (c : ChainQ) : (Dev.setChain v n c).fcLast = v.fcLast := rfl
@[simp] theorem Dev.setChain_floder (v : Dev) (n : Nat) (c : ChainQ) : (Dev.setChain v n c).floder = v.floder := rfl
@[simp] theorem Dev.setChain_ep (v : Dev) (n : Nat) (c : ChainQ) : (Dev.setChain v n c).ep = v.ep := rfl
@[simp] theorem Dev.setChain_pmon (v : Dev) (n : Nat) (c : ChainQ) : (Dev.setChain v n c).pmon = v.pmon := rfl
@[simp] theorem Dev.setChain_out (v : Dev) (n : Nat) (c : ChainQ) : (Dev.setChain v n c).out = v.out := rfl
@[simp] theorem Dev.setChain_freeTick (v : Dev) (n : Nat) (c : ChainQ) : (Dev.setChain v n c).freeTick = v.freeTick := rfl
@[simp] theorem Dev.setChain_nextId (v : Dev) (n : Nat) (c : ChainQ) : (Dev.setChain v n c).nextId = v.nextId := rfl

/-! ### Ports and the network -/

@[simp] theorem Dev.setPort_clk (v : Dev) (n : Nat) (p : NetPort) : (Dev.setPort v n p).clk = v.clk := rfl
@[simp] theorem Dev.setPort_winMem (v : Dev) (n : Nat) (p : NetPort) : (Dev.setPort v n p).winMem = v.winMem := rfl
@[simp] theorem Dev.setPort_chip (v : Dev) (n : Nat) (p : NetPort) : (Dev.setPort v n p).chip = v.chip := rfl
@[simp] theorem Dev.setPort_regs (v : Dev) (n : Nat) (p : NetPort) : (Dev.setPort v n p).regs = v.regs := rfl
@[simp] theorem Dev.setPort_hosts_claims (v : Dev) (n : Nat) (p : NetPort) : (Dev.setPort v n p).hosts.claims = v.hosts.claims := rfl
@[simp] theorem Dev.setPort_hosts_updates (v : Dev) (n : Nat) (p : NetPort) : (Dev.setPort v n p).hosts.updates = v.hosts.updates := rfl
@[simp] theorem Dev.setPort_hosts_switched (v : Dev) (n : Nat) (p : NetPort) : (Dev.setPort v n p).hosts.switched = v.hosts.switched := rfl
@[simp] theorem Dev.setPort_hosts_tabVers (v : Dev) (n : Nat) (p : NetPort) : (Dev.setPort v n p).hosts.tabVers = v.hosts.tabVers := rfl
@[simp] theorem Dev.setPort_hosts_returning (v : Dev) (n : Nat) (p : NetPort) : (Dev.setPort v n p).hosts.returning = v.hosts.returning := rfl
@[simp] theorem Dev.setPort_hosts_extents (v : Dev) (n : Nat) (p : NetPort) : (Dev.setPort v n p).hosts.extents = v.hosts.extents := rfl
@[simp] theorem Dev.setPort_hosts_ctxs (v : Dev) (n : Nat) (p : NetPort) : (Dev.setPort v n p).hosts.ctxs = v.hosts.ctxs := rfl
@[simp] theorem Dev.setPort_hosts_reads (v : Dev) (n : Nat) (p : NetPort) : (Dev.setPort v n p).hosts.reads = v.hosts.reads := rfl
@[simp] theorem Dev.setPort_hosts_flushes (v : Dev) (n : Nat) (p : NetPort) : (Dev.setPort v n p).hosts.flushes = v.hosts.flushes := rfl
@[simp] theorem Dev.setPort_hosts_scheds (v : Dev) (n : Nat) (p : NetPort) : (Dev.setPort v n p).hosts.scheds = v.hosts.scheds := rfl
@[simp] theorem Dev.setPort_hosts_sessions (v : Dev) (n : Nat) (p : NetPort) : (Dev.setPort v n p).hosts.sessions = v.hosts.sessions := rfl
@[simp] theorem Dev.setPort_hosts_qps (v : Dev) (n : Nat) (p : NetPort) : (Dev.setPort v n p).hosts.qps = v.hosts.qps := rfl
@[simp] theorem Dev.setPort_hosts_inbox (v : Dev) (n : Nat) (p : NetPort) : (Dev.setPort v n p).hosts.inbox = v.hosts.inbox := rfl
@[simp] theorem Dev.setPort_hosts_dups (v : Dev) (n : Nat) (p : NetPort) : (Dev.setPort v n p).hosts.dups = v.hosts.dups := rfl
@[simp] theorem Dev.setPort_hosts_windows (v : Dev) (n : Nat) (p : NetPort) : (Dev.setPort v n p).hosts.windows = v.hosts.windows := rfl
@[simp] theorem Dev.setPort_hosts_winVers (v : Dev) (n : Nat) (p : NetPort) : (Dev.setPort v n p).hosts.winVers = v.hosts.winVers := rfl
@[simp] theorem Dev.setPort_hosts_grants (v : Dev) (n : Nat) (p : NetPort) : (Dev.setPort v n p).hosts.grants = v.hosts.grants := rfl
@[simp] theorem Dev.setPort_hosts_chains (v : Dev) (n : Nat) (p : NetPort) : (Dev.setPort v n p).hosts.chains = v.hosts.chains := rfl
@[simp] theorem Dev.setPort_hosts_meters (v : Dev) (n : Nat) (p : NetPort) : (Dev.setPort v n p).hosts.meters = v.hosts.meters := rfl
@[simp] theorem Dev.setPort_hosts_meterVers (v : Dev) (n : Nat) (p : NetPort) : (Dev.setPort v n p).hosts.meterVers = v.hosts.meterVers := rfl
@[simp] theorem Dev.setPort_hosts_egress (v : Dev) (n : Nat) (p : NetPort) : (Dev.setPort v n p).hosts.egress = v.hosts.egress := rfl
@[simp] theorem Dev.setPort_store (v : Dev) (n : Nat) (p : NetPort) : (Dev.setPort v n p).store = v.store := rfl
@[simp] theorem Dev.setPort_hf (v : Dev) (n : Nat) (p : NetPort) : (Dev.setPort v n p).hf = v.hf := rfl
@[simp] theorem Dev.setPort_keySlots (v : Dev) (n : Nat) (p : NetPort) : (Dev.setPort v n p).keySlots = v.keySlots := rfl
@[simp] theorem Dev.setPort_leases (v : Dev) (n : Nat) (p : NetPort) : (Dev.setPort v n p).leases = v.leases := rfl
@[simp] theorem Dev.setPort_spireLeases (v : Dev) (n : Nat) (p : NetPort) : (Dev.setPort v n p).spireLeases = v.spireLeases := rfl
@[simp] theorem Dev.setPort_ciphers (v : Dev) (n : Nat) (p : NetPort) : (Dev.setPort v n p).ciphers = v.ciphers := rfl
@[simp] theorem Dev.setPort_sec (v : Dev) (n : Nat) (p : NetPort) : (Dev.setPort v n p).sec = v.sec := rfl
@[simp] theorem Dev.setPort_chans (v : Dev) (n : Nat) (p : NetPort) : (Dev.setPort v n p).chans = v.chans := rfl
@[simp] theorem Dev.setPort_faults (v : Dev) (n : Nat) (p : NetPort) : (Dev.setPort v n p).faults = v.faults := rfl
@[simp] theorem Dev.setPort_recov (v : Dev) (n : Nat) (p : NetPort) : (Dev.setPort v n p).recov = v.recov := rfl
@[simp] theorem Dev.setPort_fcLast (v : Dev) (n : Nat) (p : NetPort) : (Dev.setPort v n p).fcLast = v.fcLast := rfl
@[simp] theorem Dev.setPort_floder (v : Dev) (n : Nat) (p : NetPort) : (Dev.setPort v n p).floder = v.floder := rfl
@[simp] theorem Dev.setPort_ep (v : Dev) (n : Nat) (p : NetPort) : (Dev.setPort v n p).ep = v.ep := rfl
@[simp] theorem Dev.setPort_pmon (v : Dev) (n : Nat) (p : NetPort) : (Dev.setPort v n p).pmon = v.pmon := rfl
@[simp] theorem Dev.setPort_out (v : Dev) (n : Nat) (p : NetPort) : (Dev.setPort v n p).out = v.out := rfl
@[simp] theorem Dev.setPort_freeTick (v : Dev) (n : Nat) (p : NetPort) : (Dev.setPort v n p).freeTick = v.freeTick := rfl
@[simp] theorem Dev.setPort_nextId (v : Dev) (n : Nat) (p : NetPort) : (Dev.setPort v n p).nextId = v.nextId := rfl
@[simp] theorem Dev.setEg_clk (v : Dev) (n k : Nat) (e : Egress) : (Dev.setEg v n k e).clk = v.clk := rfl
@[simp] theorem Dev.setEg_winMem (v : Dev) (n k : Nat) (e : Egress) : (Dev.setEg v n k e).winMem = v.winMem := rfl
@[simp] theorem Dev.setEg_chip (v : Dev) (n k : Nat) (e : Egress) : (Dev.setEg v n k e).chip = v.chip := rfl
@[simp] theorem Dev.setEg_regs (v : Dev) (n k : Nat) (e : Egress) : (Dev.setEg v n k e).regs = v.regs := rfl
@[simp] theorem Dev.setEg_hosts_claims (v : Dev) (n k : Nat) (e : Egress) : (Dev.setEg v n k e).hosts.claims = v.hosts.claims := rfl
@[simp] theorem Dev.setEg_hosts_updates (v : Dev) (n k : Nat) (e : Egress) : (Dev.setEg v n k e).hosts.updates = v.hosts.updates := rfl
@[simp] theorem Dev.setEg_hosts_switched (v : Dev) (n k : Nat) (e : Egress) : (Dev.setEg v n k e).hosts.switched = v.hosts.switched := rfl
@[simp] theorem Dev.setEg_hosts_tabVers (v : Dev) (n k : Nat) (e : Egress) : (Dev.setEg v n k e).hosts.tabVers = v.hosts.tabVers := rfl
@[simp] theorem Dev.setEg_hosts_returning (v : Dev) (n k : Nat) (e : Egress) : (Dev.setEg v n k e).hosts.returning = v.hosts.returning := rfl
@[simp] theorem Dev.setEg_hosts_extents (v : Dev) (n k : Nat) (e : Egress) : (Dev.setEg v n k e).hosts.extents = v.hosts.extents := rfl
@[simp] theorem Dev.setEg_hosts_ctxs (v : Dev) (n k : Nat) (e : Egress) : (Dev.setEg v n k e).hosts.ctxs = v.hosts.ctxs := rfl
@[simp] theorem Dev.setEg_hosts_reads (v : Dev) (n k : Nat) (e : Egress) : (Dev.setEg v n k e).hosts.reads = v.hosts.reads := rfl
@[simp] theorem Dev.setEg_hosts_flushes (v : Dev) (n k : Nat) (e : Egress) : (Dev.setEg v n k e).hosts.flushes = v.hosts.flushes := rfl
@[simp] theorem Dev.setEg_hosts_scheds (v : Dev) (n k : Nat) (e : Egress) : (Dev.setEg v n k e).hosts.scheds = v.hosts.scheds := rfl
@[simp] theorem Dev.setEg_hosts_sessions (v : Dev) (n k : Nat) (e : Egress) : (Dev.setEg v n k e).hosts.sessions = v.hosts.sessions := rfl
@[simp] theorem Dev.setEg_hosts_qps (v : Dev) (n k : Nat) (e : Egress) : (Dev.setEg v n k e).hosts.qps = v.hosts.qps := rfl
@[simp] theorem Dev.setEg_hosts_inbox (v : Dev) (n k : Nat) (e : Egress) : (Dev.setEg v n k e).hosts.inbox = v.hosts.inbox := rfl
@[simp] theorem Dev.setEg_hosts_dups (v : Dev) (n k : Nat) (e : Egress) : (Dev.setEg v n k e).hosts.dups = v.hosts.dups := rfl
@[simp] theorem Dev.setEg_hosts_windows (v : Dev) (n k : Nat) (e : Egress) : (Dev.setEg v n k e).hosts.windows = v.hosts.windows := rfl
@[simp] theorem Dev.setEg_hosts_winVers (v : Dev) (n k : Nat) (e : Egress) : (Dev.setEg v n k e).hosts.winVers = v.hosts.winVers := rfl
@[simp] theorem Dev.setEg_hosts_grants (v : Dev) (n k : Nat) (e : Egress) : (Dev.setEg v n k e).hosts.grants = v.hosts.grants := rfl
@[simp] theorem Dev.setEg_hosts_chains (v : Dev) (n k : Nat) (e : Egress) : (Dev.setEg v n k e).hosts.chains = v.hosts.chains := rfl
@[simp] theorem Dev.setEg_hosts_meters (v : Dev) (n k : Nat) (e : Egress) : (Dev.setEg v n k e).hosts.meters = v.hosts.meters := rfl
@[simp] theorem Dev.setEg_hosts_meterVers (v : Dev) (n k : Nat) (e : Egress) : (Dev.setEg v n k e).hosts.meterVers = v.hosts.meterVers := rfl
@[simp] theorem Dev.setEg_hosts_ports (v : Dev) (n k : Nat) (e : Egress) : (Dev.setEg v n k e).hosts.ports = v.hosts.ports := rfl
@[simp] theorem Dev.setEg_store (v : Dev) (n k : Nat) (e : Egress) : (Dev.setEg v n k e).store = v.store := rfl
@[simp] theorem Dev.setEg_hf (v : Dev) (n k : Nat) (e : Egress) : (Dev.setEg v n k e).hf = v.hf := rfl
@[simp] theorem Dev.setEg_keySlots (v : Dev) (n k : Nat) (e : Egress) : (Dev.setEg v n k e).keySlots = v.keySlots := rfl
@[simp] theorem Dev.setEg_leases (v : Dev) (n k : Nat) (e : Egress) : (Dev.setEg v n k e).leases = v.leases := rfl
@[simp] theorem Dev.setEg_spireLeases (v : Dev) (n k : Nat) (e : Egress) : (Dev.setEg v n k e).spireLeases = v.spireLeases := rfl
@[simp] theorem Dev.setEg_ciphers (v : Dev) (n k : Nat) (e : Egress) : (Dev.setEg v n k e).ciphers = v.ciphers := rfl
@[simp] theorem Dev.setEg_sec (v : Dev) (n k : Nat) (e : Egress) : (Dev.setEg v n k e).sec = v.sec := rfl
@[simp] theorem Dev.setEg_chans (v : Dev) (n k : Nat) (e : Egress) : (Dev.setEg v n k e).chans = v.chans := rfl
@[simp] theorem Dev.setEg_faults (v : Dev) (n k : Nat) (e : Egress) : (Dev.setEg v n k e).faults = v.faults := rfl
@[simp] theorem Dev.setEg_recov (v : Dev) (n k : Nat) (e : Egress) : (Dev.setEg v n k e).recov = v.recov := rfl
@[simp] theorem Dev.setEg_fcLast (v : Dev) (n k : Nat) (e : Egress) : (Dev.setEg v n k e).fcLast = v.fcLast := rfl
@[simp] theorem Dev.setEg_floder (v : Dev) (n k : Nat) (e : Egress) : (Dev.setEg v n k e).floder = v.floder := rfl
@[simp] theorem Dev.setEg_ep (v : Dev) (n k : Nat) (e : Egress) : (Dev.setEg v n k e).ep = v.ep := rfl
@[simp] theorem Dev.setEg_pmon (v : Dev) (n k : Nat) (e : Egress) : (Dev.setEg v n k e).pmon = v.pmon := rfl
@[simp] theorem Dev.setEg_out (v : Dev) (n k : Nat) (e : Egress) : (Dev.setEg v n k e).out = v.out := rfl
@[simp] theorem Dev.setEg_freeTick (v : Dev) (n k : Nat) (e : Egress) : (Dev.setEg v n k e).freeTick = v.freeTick := rfl
@[simp] theorem Dev.setEg_nextId (v : Dev) (n k : Nat) (e : Egress) : (Dev.setEg v n k e).nextId = v.nextId := rfl
@[simp] theorem Dev.refillAll_clk (v : Dev) : (Dev.refillAll v).clk = v.clk := rfl
@[simp] theorem Dev.refillAll_winMem (v : Dev) : (Dev.refillAll v).winMem = v.winMem := rfl
@[simp] theorem Dev.refillAll_chip (v : Dev) : (Dev.refillAll v).chip = v.chip := rfl
@[simp] theorem Dev.refillAll_regs (v : Dev) : (Dev.refillAll v).regs = v.regs := rfl
@[simp] theorem Dev.refillAll_hosts_claims (v : Dev) : (Dev.refillAll v).hosts.claims = v.hosts.claims := rfl
@[simp] theorem Dev.refillAll_hosts_updates (v : Dev) : (Dev.refillAll v).hosts.updates = v.hosts.updates := rfl
@[simp] theorem Dev.refillAll_hosts_switched (v : Dev) : (Dev.refillAll v).hosts.switched = v.hosts.switched := rfl
@[simp] theorem Dev.refillAll_hosts_tabVers (v : Dev) : (Dev.refillAll v).hosts.tabVers = v.hosts.tabVers := rfl
@[simp] theorem Dev.refillAll_hosts_returning (v : Dev) : (Dev.refillAll v).hosts.returning = v.hosts.returning := rfl
@[simp] theorem Dev.refillAll_hosts_extents (v : Dev) : (Dev.refillAll v).hosts.extents = v.hosts.extents := rfl
@[simp] theorem Dev.refillAll_hosts_ctxs (v : Dev) : (Dev.refillAll v).hosts.ctxs = v.hosts.ctxs := rfl
@[simp] theorem Dev.refillAll_hosts_reads (v : Dev) : (Dev.refillAll v).hosts.reads = v.hosts.reads := rfl
@[simp] theorem Dev.refillAll_hosts_flushes (v : Dev) : (Dev.refillAll v).hosts.flushes = v.hosts.flushes := rfl
@[simp] theorem Dev.refillAll_hosts_scheds (v : Dev) : (Dev.refillAll v).hosts.scheds = v.hosts.scheds := rfl
@[simp] theorem Dev.refillAll_hosts_sessions (v : Dev) : (Dev.refillAll v).hosts.sessions = v.hosts.sessions := rfl
@[simp] theorem Dev.refillAll_hosts_inbox (v : Dev) : (Dev.refillAll v).hosts.inbox = v.hosts.inbox := rfl
@[simp] theorem Dev.refillAll_hosts_dups (v : Dev) : (Dev.refillAll v).hosts.dups = v.hosts.dups := rfl
@[simp] theorem Dev.refillAll_hosts_windows (v : Dev) : (Dev.refillAll v).hosts.windows = v.hosts.windows := rfl
@[simp] theorem Dev.refillAll_hosts_winVers (v : Dev) : (Dev.refillAll v).hosts.winVers = v.hosts.winVers := rfl
@[simp] theorem Dev.refillAll_hosts_grants (v : Dev) : (Dev.refillAll v).hosts.grants = v.hosts.grants := rfl
@[simp] theorem Dev.refillAll_hosts_chains (v : Dev) : (Dev.refillAll v).hosts.chains = v.hosts.chains := rfl
@[simp] theorem Dev.refillAll_hosts_meters (v : Dev) : (Dev.refillAll v).hosts.meters = v.hosts.meters := rfl
@[simp] theorem Dev.refillAll_hosts_meterVers (v : Dev) : (Dev.refillAll v).hosts.meterVers = v.hosts.meterVers := rfl
@[simp] theorem Dev.refillAll_hosts_ports (v : Dev) : (Dev.refillAll v).hosts.ports = v.hosts.ports := rfl
@[simp] theorem Dev.refillAll_store (v : Dev) : (Dev.refillAll v).store = v.store := rfl
@[simp] theorem Dev.refillAll_hf (v : Dev) : (Dev.refillAll v).hf = v.hf := rfl
@[simp] theorem Dev.refillAll_keySlots (v : Dev) : (Dev.refillAll v).keySlots = v.keySlots := rfl
@[simp] theorem Dev.refillAll_leases (v : Dev) : (Dev.refillAll v).leases = v.leases := rfl
@[simp] theorem Dev.refillAll_spireLeases (v : Dev) : (Dev.refillAll v).spireLeases = v.spireLeases := rfl
@[simp] theorem Dev.refillAll_ciphers (v : Dev) : (Dev.refillAll v).ciphers = v.ciphers := rfl
@[simp] theorem Dev.refillAll_sec (v : Dev) : (Dev.refillAll v).sec = v.sec := rfl
@[simp] theorem Dev.refillAll_chans (v : Dev) : (Dev.refillAll v).chans = v.chans := rfl
@[simp] theorem Dev.refillAll_faults (v : Dev) : (Dev.refillAll v).faults = v.faults := rfl
@[simp] theorem Dev.refillAll_recov (v : Dev) : (Dev.refillAll v).recov = v.recov := rfl
@[simp] theorem Dev.refillAll_fcLast (v : Dev) : (Dev.refillAll v).fcLast = v.fcLast := rfl
@[simp] theorem Dev.refillAll_floder (v : Dev) : (Dev.refillAll v).floder = v.floder := rfl
@[simp] theorem Dev.refillAll_ep (v : Dev) : (Dev.refillAll v).ep = v.ep := rfl
@[simp] theorem Dev.refillAll_pmon (v : Dev) : (Dev.refillAll v).pmon = v.pmon := rfl
@[simp] theorem Dev.refillAll_out (v : Dev) : (Dev.refillAll v).out = v.out := rfl
@[simp] theorem Dev.refillAll_freeTick (v : Dev) : (Dev.refillAll v).freeTick = v.freeTick := rfl
@[simp] theorem Dev.refillAll_nextId (v : Dev) : (Dev.refillAll v).nextId = v.nextId := rfl
@[simp] theorem Dev.refreshMeters_clk (v : Dev) : (Dev.refreshMeters v).clk = v.clk := rfl
@[simp] theorem Dev.refreshMeters_winMem (v : Dev) : (Dev.refreshMeters v).winMem = v.winMem := rfl
@[simp] theorem Dev.refreshMeters_chip (v : Dev) : (Dev.refreshMeters v).chip = v.chip := rfl
@[simp] theorem Dev.refreshMeters_regs (v : Dev) : (Dev.refreshMeters v).regs = v.regs := rfl
@[simp] theorem Dev.refreshMeters_hosts_claims (v : Dev) : (Dev.refreshMeters v).hosts.claims = v.hosts.claims := rfl
@[simp] theorem Dev.refreshMeters_hosts_updates (v : Dev) : (Dev.refreshMeters v).hosts.updates = v.hosts.updates := rfl
@[simp] theorem Dev.refreshMeters_hosts_switched (v : Dev) : (Dev.refreshMeters v).hosts.switched = v.hosts.switched := rfl
@[simp] theorem Dev.refreshMeters_hosts_tabVers (v : Dev) : (Dev.refreshMeters v).hosts.tabVers = v.hosts.tabVers := rfl
@[simp] theorem Dev.refreshMeters_hosts_returning (v : Dev) : (Dev.refreshMeters v).hosts.returning = v.hosts.returning := rfl
@[simp] theorem Dev.refreshMeters_hosts_extents (v : Dev) : (Dev.refreshMeters v).hosts.extents = v.hosts.extents := rfl
@[simp] theorem Dev.refreshMeters_hosts_ctxs (v : Dev) : (Dev.refreshMeters v).hosts.ctxs = v.hosts.ctxs := rfl
@[simp] theorem Dev.refreshMeters_hosts_reads (v : Dev) : (Dev.refreshMeters v).hosts.reads = v.hosts.reads := rfl
@[simp] theorem Dev.refreshMeters_hosts_flushes (v : Dev) : (Dev.refreshMeters v).hosts.flushes = v.hosts.flushes := rfl
@[simp] theorem Dev.refreshMeters_hosts_scheds (v : Dev) : (Dev.refreshMeters v).hosts.scheds = v.hosts.scheds := rfl
@[simp] theorem Dev.refreshMeters_hosts_sessions (v : Dev) : (Dev.refreshMeters v).hosts.sessions = v.hosts.sessions := rfl
@[simp] theorem Dev.refreshMeters_hosts_inbox (v : Dev) : (Dev.refreshMeters v).hosts.inbox = v.hosts.inbox := rfl
@[simp] theorem Dev.refreshMeters_hosts_dups (v : Dev) : (Dev.refreshMeters v).hosts.dups = v.hosts.dups := rfl
@[simp] theorem Dev.refreshMeters_hosts_windows (v : Dev) : (Dev.refreshMeters v).hosts.windows = v.hosts.windows := rfl
@[simp] theorem Dev.refreshMeters_hosts_winVers (v : Dev) : (Dev.refreshMeters v).hosts.winVers = v.hosts.winVers := rfl
@[simp] theorem Dev.refreshMeters_hosts_grants (v : Dev) : (Dev.refreshMeters v).hosts.grants = v.hosts.grants := rfl
@[simp] theorem Dev.refreshMeters_hosts_chains (v : Dev) : (Dev.refreshMeters v).hosts.chains = v.hosts.chains := rfl
@[simp] theorem Dev.refreshMeters_hosts_meters (v : Dev) : (Dev.refreshMeters v).hosts.meters = v.hosts.meters := rfl
@[simp] theorem Dev.refreshMeters_hosts_meterVers (v : Dev) : (Dev.refreshMeters v).hosts.meterVers = v.hosts.meterVers := rfl
@[simp] theorem Dev.refreshMeters_hosts_ports (v : Dev) : (Dev.refreshMeters v).hosts.ports = v.hosts.ports := rfl
@[simp] theorem Dev.refreshMeters_hosts_egress (v : Dev) : (Dev.refreshMeters v).hosts.egress = v.hosts.egress := rfl
@[simp] theorem Dev.refreshMeters_store (v : Dev) : (Dev.refreshMeters v).store = v.store := rfl
@[simp] theorem Dev.refreshMeters_hf (v : Dev) : (Dev.refreshMeters v).hf = v.hf := rfl
@[simp] theorem Dev.refreshMeters_keySlots (v : Dev) : (Dev.refreshMeters v).keySlots = v.keySlots := rfl
@[simp] theorem Dev.refreshMeters_leases (v : Dev) : (Dev.refreshMeters v).leases = v.leases := rfl
@[simp] theorem Dev.refreshMeters_spireLeases (v : Dev) : (Dev.refreshMeters v).spireLeases = v.spireLeases := rfl
@[simp] theorem Dev.refreshMeters_ciphers (v : Dev) : (Dev.refreshMeters v).ciphers = v.ciphers := rfl
@[simp] theorem Dev.refreshMeters_sec (v : Dev) : (Dev.refreshMeters v).sec = v.sec := rfl
@[simp] theorem Dev.refreshMeters_chans (v : Dev) : (Dev.refreshMeters v).chans = v.chans := rfl
@[simp] theorem Dev.refreshMeters_faults (v : Dev) : (Dev.refreshMeters v).faults = v.faults := rfl
@[simp] theorem Dev.refreshMeters_recov (v : Dev) : (Dev.refreshMeters v).recov = v.recov := rfl
@[simp] theorem Dev.refreshMeters_fcLast (v : Dev) : (Dev.refreshMeters v).fcLast = v.fcLast := rfl
@[simp] theorem Dev.refreshMeters_floder (v : Dev) : (Dev.refreshMeters v).floder = v.floder := rfl
@[simp] theorem Dev.refreshMeters_ep (v : Dev) : (Dev.refreshMeters v).ep = v.ep := rfl
@[simp] theorem Dev.refreshMeters_pmon (v : Dev) : (Dev.refreshMeters v).pmon = v.pmon := rfl
@[simp] theorem Dev.refreshMeters_out (v : Dev) : (Dev.refreshMeters v).out = v.out := rfl
@[simp] theorem Dev.refreshMeters_freeTick (v : Dev) : (Dev.refreshMeters v).freeTick = v.freeTick := rfl
@[simp] theorem Dev.refreshMeters_nextId (v : Dev) : (Dev.refreshMeters v).nextId = v.nextId := rfl

/-! ### The store -/

@[simp] theorem Dev.setBay_clk (v : Dev) (b : Nat) (x : BayRec) : (Dev.setBay v b x).clk = v.clk := rfl
@[simp] theorem Dev.setBay_winMem (v : Dev) (b : Nat) (x : BayRec) : (Dev.setBay v b x).winMem = v.winMem := rfl
@[simp] theorem Dev.setBay_chip (v : Dev) (b : Nat) (x : BayRec) : (Dev.setBay v b x).chip = v.chip := rfl
@[simp] theorem Dev.setBay_regs (v : Dev) (b : Nat) (x : BayRec) : (Dev.setBay v b x).regs = v.regs := rfl
@[simp] theorem Dev.setBay_hosts (v : Dev) (b : Nat) (x : BayRec) : (Dev.setBay v b x).hosts = v.hosts := rfl
@[simp] theorem Dev.setBay_store_grains (v : Dev) (b : Nat) (x : BayRec) : (Dev.setBay v b x).store.grains = v.store.grains := rfl
@[simp] theorem Dev.setBay_store_credit (v : Dev) (b : Nat) (x : BayRec) : (Dev.setBay v b x).store.credit = v.store.credit := rfl
@[simp] theorem Dev.setBay_store_hums (v : Dev) (b : Nat) (x : BayRec) : (Dev.setBay v b x).store.hums = v.store.hums := rfl
@[simp] theorem Dev.setBay_store_ecaps (v : Dev) (b : Nat) (x : BayRec) : (Dev.setBay v b x).store.ecaps = v.store.ecaps := rfl
@[simp] theorem Dev.setBay_store_layout (v : Dev) (b : Nat) (x : BayRec) : (Dev.setBay v b x).store.layout = v.store.layout := rfl
@[simp] theorem Dev.setBay_store_pend (v : Dev) (b : Nat) (x : BayRec) : (Dev.setBay v b x).store.pend = v.store.pend := rfl
@[simp] theorem Dev.setBay_store_stripes (v : Dev) (b : Nat) (x : BayRec) : (Dev.setBay v b x).store.stripes = v.store.stripes := rfl
@[simp] theorem Dev.setBay_store_stripeSeq (v : Dev) (b : Nat) (x : BayRec) : (Dev.setBay v b x).store.stripeSeq = v.store.stripeSeq := rfl
@[simp] theorem Dev.setBay_store_drives (v : Dev) (b : Nat) (x : BayRec) : (Dev.setBay v b x).store.drives = v.store.drives := rfl
@[simp] theorem Dev.setBay_store_markers (v : Dev) (b : Nat) (x : BayRec) : (Dev.setBay v b x).store.markers = v.store.markers := rfl
@[simp] theorem Dev.setBay_store_ops (v : Dev) (b : Nat) (x : BayRec) : (Dev.setBay v b x).store.ops = v.store.ops := rfl
@[simp] theorem Dev.setBay_store_quar (v : Dev) (b : Nat) (x : BayRec) : (Dev.setBay v b x).store.quar = v.store.quar := rfl
@[simp] theorem Dev.setBay_store_journal (v : Dev) (b : Nat) (x : BayRec) : (Dev.setBay v b x).store.journal = v.store.journal := rfl
@[simp] theorem Dev.setBay_store_pages (v : Dev) (b : Nat) (x : BayRec) : (Dev.setBay v b x).store.pages = v.store.pages := rfl
@[simp] theorem Dev.setBay_store_pageSeq (v : Dev) (b : Nat) (x : BayRec) : (Dev.setBay v b x).store.pageSeq = v.store.pageSeq := rfl
@[simp] theorem Dev.setBay_store_cached (v : Dev) (b : Nat) (x : BayRec) : (Dev.setBay v b x).store.cached = v.store.cached := rfl
@[simp] theorem Dev.setBay_store_rebuilds (v : Dev) (b : Nat) (x : BayRec) : (Dev.setBay v b x).store.rebuilds = v.store.rebuilds := rfl
@[simp] theorem Dev.setBay_store_jobs (v : Dev) (b : Nat) (x : BayRec) : (Dev.setBay v b x).store.jobs = v.store.jobs := rfl
@[simp] theorem Dev.setBay_store_moved (v : Dev) (b : Nat) (x : BayRec) : (Dev.setBay v b x).store.moved = v.store.moved := rfl
@[simp] theorem Dev.setBay_store_crcEvent (v : Dev) (b : Nat) (x : BayRec) : (Dev.setBay v b x).store.crcEvent = v.store.crcEvent := rfl
@[simp] theorem Dev.setBay_store_scans (v : Dev) (b : Nat) (x : BayRec) : (Dev.setBay v b x).store.scans = v.store.scans := rfl
@[simp] theorem Dev.setBay_store_scrubs (v : Dev) (b : Nat) (x : BayRec) : (Dev.setBay v b x).store.scrubs = v.store.scrubs := rfl
@[simp] theorem Dev.setBay_store_hbm (v : Dev) (b : Nat) (x : BayRec) : (Dev.setBay v b x).store.hbm = v.store.hbm := rfl
@[simp] theorem Dev.setBay_hf (v : Dev) (b : Nat) (x : BayRec) : (Dev.setBay v b x).hf = v.hf := rfl
@[simp] theorem Dev.setBay_keySlots (v : Dev) (b : Nat) (x : BayRec) : (Dev.setBay v b x).keySlots = v.keySlots := rfl
@[simp] theorem Dev.setBay_leases (v : Dev) (b : Nat) (x : BayRec) : (Dev.setBay v b x).leases = v.leases := rfl
@[simp] theorem Dev.setBay_spireLeases (v : Dev) (b : Nat) (x : BayRec) : (Dev.setBay v b x).spireLeases = v.spireLeases := rfl
@[simp] theorem Dev.setBay_ciphers (v : Dev) (b : Nat) (x : BayRec) : (Dev.setBay v b x).ciphers = v.ciphers := rfl
@[simp] theorem Dev.setBay_sec (v : Dev) (b : Nat) (x : BayRec) : (Dev.setBay v b x).sec = v.sec := rfl
@[simp] theorem Dev.setBay_chans (v : Dev) (b : Nat) (x : BayRec) : (Dev.setBay v b x).chans = v.chans := rfl
@[simp] theorem Dev.setBay_faults (v : Dev) (b : Nat) (x : BayRec) : (Dev.setBay v b x).faults = v.faults := rfl
@[simp] theorem Dev.setBay_recov (v : Dev) (b : Nat) (x : BayRec) : (Dev.setBay v b x).recov = v.recov := rfl
@[simp] theorem Dev.setBay_fcLast (v : Dev) (b : Nat) (x : BayRec) : (Dev.setBay v b x).fcLast = v.fcLast := rfl
@[simp] theorem Dev.setBay_floder (v : Dev) (b : Nat) (x : BayRec) : (Dev.setBay v b x).floder = v.floder := rfl
@[simp] theorem Dev.setBay_ep (v : Dev) (b : Nat) (x : BayRec) : (Dev.setBay v b x).ep = v.ep := rfl
@[simp] theorem Dev.setBay_pmon (v : Dev) (b : Nat) (x : BayRec) : (Dev.setBay v b x).pmon = v.pmon := rfl
@[simp] theorem Dev.setBay_out (v : Dev) (b : Nat) (x : BayRec) : (Dev.setBay v b x).out = v.out := rfl
@[simp] theorem Dev.setBay_freeTick (v : Dev) (b : Nat) (x : BayRec) : (Dev.setBay v b x).freeTick = v.freeTick := rfl
@[simp] theorem Dev.setBay_nextId (v : Dev) (b : Nat) (x : BayRec) : (Dev.setBay v b x).nextId = v.nextId := rfl
@[simp] theorem Dev.setHum_clk (v : Dev) (h : Nat) (x : HumState) : (Dev.setHum v h x).clk = v.clk := rfl
@[simp] theorem Dev.setHum_winMem (v : Dev) (h : Nat) (x : HumState) : (Dev.setHum v h x).winMem = v.winMem := rfl
@[simp] theorem Dev.setHum_chip (v : Dev) (h : Nat) (x : HumState) : (Dev.setHum v h x).chip = v.chip := rfl
@[simp] theorem Dev.setHum_regs (v : Dev) (h : Nat) (x : HumState) : (Dev.setHum v h x).regs = v.regs := rfl
@[simp] theorem Dev.setHum_hosts (v : Dev) (h : Nat) (x : HumState) : (Dev.setHum v h x).hosts = v.hosts := rfl
@[simp] theorem Dev.setHum_store_grains (v : Dev) (h : Nat) (x : HumState) : (Dev.setHum v h x).store.grains = v.store.grains := rfl
@[simp] theorem Dev.setHum_store_credit (v : Dev) (h : Nat) (x : HumState) : (Dev.setHum v h x).store.credit = v.store.credit := rfl
@[simp] theorem Dev.setHum_store_ecaps (v : Dev) (h : Nat) (x : HumState) : (Dev.setHum v h x).store.ecaps = v.store.ecaps := rfl
@[simp] theorem Dev.setHum_store_layout (v : Dev) (h : Nat) (x : HumState) : (Dev.setHum v h x).store.layout = v.store.layout := rfl
@[simp] theorem Dev.setHum_store_pend (v : Dev) (h : Nat) (x : HumState) : (Dev.setHum v h x).store.pend = v.store.pend := rfl
@[simp] theorem Dev.setHum_store_stripes (v : Dev) (h : Nat) (x : HumState) : (Dev.setHum v h x).store.stripes = v.store.stripes := rfl
@[simp] theorem Dev.setHum_store_stripeSeq (v : Dev) (h : Nat) (x : HumState) : (Dev.setHum v h x).store.stripeSeq = v.store.stripeSeq := rfl
@[simp] theorem Dev.setHum_store_drives (v : Dev) (h : Nat) (x : HumState) : (Dev.setHum v h x).store.drives = v.store.drives := rfl
@[simp] theorem Dev.setHum_store_markers (v : Dev) (h : Nat) (x : HumState) : (Dev.setHum v h x).store.markers = v.store.markers := rfl
@[simp] theorem Dev.setHum_store_bays (v : Dev) (h : Nat) (x : HumState) : (Dev.setHum v h x).store.bays = v.store.bays := rfl
@[simp] theorem Dev.setHum_store_ops (v : Dev) (h : Nat) (x : HumState) : (Dev.setHum v h x).store.ops = v.store.ops := rfl
@[simp] theorem Dev.setHum_store_quar (v : Dev) (h : Nat) (x : HumState) : (Dev.setHum v h x).store.quar = v.store.quar := rfl
@[simp] theorem Dev.setHum_store_journal (v : Dev) (h : Nat) (x : HumState) : (Dev.setHum v h x).store.journal = v.store.journal := rfl
@[simp] theorem Dev.setHum_store_pages (v : Dev) (h : Nat) (x : HumState) : (Dev.setHum v h x).store.pages = v.store.pages := rfl
@[simp] theorem Dev.setHum_store_pageSeq (v : Dev) (h : Nat) (x : HumState) : (Dev.setHum v h x).store.pageSeq = v.store.pageSeq := rfl
@[simp] theorem Dev.setHum_store_cached (v : Dev) (h : Nat) (x : HumState) : (Dev.setHum v h x).store.cached = v.store.cached := rfl
@[simp] theorem Dev.setHum_store_rebuilds (v : Dev) (h : Nat) (x : HumState) : (Dev.setHum v h x).store.rebuilds = v.store.rebuilds := rfl
@[simp] theorem Dev.setHum_store_jobs (v : Dev) (h : Nat) (x : HumState) : (Dev.setHum v h x).store.jobs = v.store.jobs := rfl
@[simp] theorem Dev.setHum_store_moved (v : Dev) (h : Nat) (x : HumState) : (Dev.setHum v h x).store.moved = v.store.moved := rfl
@[simp] theorem Dev.setHum_store_crcEvent (v : Dev) (h : Nat) (x : HumState) : (Dev.setHum v h x).store.crcEvent = v.store.crcEvent := rfl
@[simp] theorem Dev.setHum_store_scans (v : Dev) (h : Nat) (x : HumState) : (Dev.setHum v h x).store.scans = v.store.scans := rfl
@[simp] theorem Dev.setHum_store_scrubs (v : Dev) (h : Nat) (x : HumState) : (Dev.setHum v h x).store.scrubs = v.store.scrubs := rfl
@[simp] theorem Dev.setHum_store_hbm (v : Dev) (h : Nat) (x : HumState) : (Dev.setHum v h x).store.hbm = v.store.hbm := rfl
@[simp] theorem Dev.setHum_hf (v : Dev) (h : Nat) (x : HumState) : (Dev.setHum v h x).hf = v.hf := rfl
@[simp] theorem Dev.setHum_keySlots (v : Dev) (h : Nat) (x : HumState) : (Dev.setHum v h x).keySlots = v.keySlots := rfl
@[simp] theorem Dev.setHum_leases (v : Dev) (h : Nat) (x : HumState) : (Dev.setHum v h x).leases = v.leases := rfl
@[simp] theorem Dev.setHum_spireLeases (v : Dev) (h : Nat) (x : HumState) : (Dev.setHum v h x).spireLeases = v.spireLeases := rfl
@[simp] theorem Dev.setHum_ciphers (v : Dev) (h : Nat) (x : HumState) : (Dev.setHum v h x).ciphers = v.ciphers := rfl
@[simp] theorem Dev.setHum_sec (v : Dev) (h : Nat) (x : HumState) : (Dev.setHum v h x).sec = v.sec := rfl
@[simp] theorem Dev.setHum_chans (v : Dev) (h : Nat) (x : HumState) : (Dev.setHum v h x).chans = v.chans := rfl
@[simp] theorem Dev.setHum_faults (v : Dev) (h : Nat) (x : HumState) : (Dev.setHum v h x).faults = v.faults := rfl
@[simp] theorem Dev.setHum_recov (v : Dev) (h : Nat) (x : HumState) : (Dev.setHum v h x).recov = v.recov := rfl
@[simp] theorem Dev.setHum_fcLast (v : Dev) (h : Nat) (x : HumState) : (Dev.setHum v h x).fcLast = v.fcLast := rfl
@[simp] theorem Dev.setHum_floder (v : Dev) (h : Nat) (x : HumState) : (Dev.setHum v h x).floder = v.floder := rfl
@[simp] theorem Dev.setHum_ep (v : Dev) (h : Nat) (x : HumState) : (Dev.setHum v h x).ep = v.ep := rfl
@[simp] theorem Dev.setHum_pmon (v : Dev) (h : Nat) (x : HumState) : (Dev.setHum v h x).pmon = v.pmon := rfl
@[simp] theorem Dev.setHum_out (v : Dev) (h : Nat) (x : HumState) : (Dev.setHum v h x).out = v.out := rfl
@[simp] theorem Dev.setHum_freeTick (v : Dev) (h : Nat) (x : HumState) : (Dev.setHum v h x).freeTick = v.freeTick := rfl
@[simp] theorem Dev.setHum_nextId (v : Dev) (h : Nat) (x : HumState) : (Dev.setHum v h x).nextId = v.nextId := rfl
@[simp] theorem Dev.setScrub_clk (v : Dev) (s : Nat) (x : Scrub) : (Dev.setScrub v s x).clk = v.clk := rfl
@[simp] theorem Dev.setScrub_winMem (v : Dev) (s : Nat) (x : Scrub) : (Dev.setScrub v s x).winMem = v.winMem := rfl
@[simp] theorem Dev.setScrub_chip (v : Dev) (s : Nat) (x : Scrub) : (Dev.setScrub v s x).chip = v.chip := rfl
@[simp] theorem Dev.setScrub_regs (v : Dev) (s : Nat) (x : Scrub) : (Dev.setScrub v s x).regs = v.regs := rfl
@[simp] theorem Dev.setScrub_hosts (v : Dev) (s : Nat) (x : Scrub) : (Dev.setScrub v s x).hosts = v.hosts := rfl
@[simp] theorem Dev.setScrub_store_grains (v : Dev) (s : Nat) (x : Scrub) : (Dev.setScrub v s x).store.grains = v.store.grains := rfl
@[simp] theorem Dev.setScrub_store_credit (v : Dev) (s : Nat) (x : Scrub) : (Dev.setScrub v s x).store.credit = v.store.credit := rfl
@[simp] theorem Dev.setScrub_store_hums (v : Dev) (s : Nat) (x : Scrub) : (Dev.setScrub v s x).store.hums = v.store.hums := rfl
@[simp] theorem Dev.setScrub_store_ecaps (v : Dev) (s : Nat) (x : Scrub) : (Dev.setScrub v s x).store.ecaps = v.store.ecaps := rfl
@[simp] theorem Dev.setScrub_store_layout (v : Dev) (s : Nat) (x : Scrub) : (Dev.setScrub v s x).store.layout = v.store.layout := rfl
@[simp] theorem Dev.setScrub_store_pend (v : Dev) (s : Nat) (x : Scrub) : (Dev.setScrub v s x).store.pend = v.store.pend := rfl
@[simp] theorem Dev.setScrub_store_stripes (v : Dev) (s : Nat) (x : Scrub) : (Dev.setScrub v s x).store.stripes = v.store.stripes := rfl
@[simp] theorem Dev.setScrub_store_stripeSeq (v : Dev) (s : Nat) (x : Scrub) : (Dev.setScrub v s x).store.stripeSeq = v.store.stripeSeq := rfl
@[simp] theorem Dev.setScrub_store_drives (v : Dev) (s : Nat) (x : Scrub) : (Dev.setScrub v s x).store.drives = v.store.drives := rfl
@[simp] theorem Dev.setScrub_store_markers (v : Dev) (s : Nat) (x : Scrub) : (Dev.setScrub v s x).store.markers = v.store.markers := rfl
@[simp] theorem Dev.setScrub_store_bays (v : Dev) (s : Nat) (x : Scrub) : (Dev.setScrub v s x).store.bays = v.store.bays := rfl
@[simp] theorem Dev.setScrub_store_ops (v : Dev) (s : Nat) (x : Scrub) : (Dev.setScrub v s x).store.ops = v.store.ops := rfl
@[simp] theorem Dev.setScrub_store_quar (v : Dev) (s : Nat) (x : Scrub) : (Dev.setScrub v s x).store.quar = v.store.quar := rfl
@[simp] theorem Dev.setScrub_store_journal (v : Dev) (s : Nat) (x : Scrub) : (Dev.setScrub v s x).store.journal = v.store.journal := rfl
@[simp] theorem Dev.setScrub_store_pages (v : Dev) (s : Nat) (x : Scrub) : (Dev.setScrub v s x).store.pages = v.store.pages := rfl
@[simp] theorem Dev.setScrub_store_pageSeq (v : Dev) (s : Nat) (x : Scrub) : (Dev.setScrub v s x).store.pageSeq = v.store.pageSeq := rfl
@[simp] theorem Dev.setScrub_store_cached (v : Dev) (s : Nat) (x : Scrub) : (Dev.setScrub v s x).store.cached = v.store.cached := rfl
@[simp] theorem Dev.setScrub_store_rebuilds (v : Dev) (s : Nat) (x : Scrub) : (Dev.setScrub v s x).store.rebuilds = v.store.rebuilds := rfl
@[simp] theorem Dev.setScrub_store_jobs (v : Dev) (s : Nat) (x : Scrub) : (Dev.setScrub v s x).store.jobs = v.store.jobs := rfl
@[simp] theorem Dev.setScrub_store_moved (v : Dev) (s : Nat) (x : Scrub) : (Dev.setScrub v s x).store.moved = v.store.moved := rfl
@[simp] theorem Dev.setScrub_store_crcEvent (v : Dev) (s : Nat) (x : Scrub) : (Dev.setScrub v s x).store.crcEvent = v.store.crcEvent := rfl
@[simp] theorem Dev.setScrub_store_scans (v : Dev) (s : Nat) (x : Scrub) : (Dev.setScrub v s x).store.scans = v.store.scans := rfl
@[simp] theorem Dev.setScrub_store_hbm (v : Dev) (s : Nat) (x : Scrub) : (Dev.setScrub v s x).store.hbm = v.store.hbm := rfl
@[simp] theorem Dev.setScrub_hf (v : Dev) (s : Nat) (x : Scrub) : (Dev.setScrub v s x).hf = v.hf := rfl
@[simp] theorem Dev.setScrub_keySlots (v : Dev) (s : Nat) (x : Scrub) : (Dev.setScrub v s x).keySlots = v.keySlots := rfl
@[simp] theorem Dev.setScrub_leases (v : Dev) (s : Nat) (x : Scrub) : (Dev.setScrub v s x).leases = v.leases := rfl
@[simp] theorem Dev.setScrub_spireLeases (v : Dev) (s : Nat) (x : Scrub) : (Dev.setScrub v s x).spireLeases = v.spireLeases := rfl
@[simp] theorem Dev.setScrub_ciphers (v : Dev) (s : Nat) (x : Scrub) : (Dev.setScrub v s x).ciphers = v.ciphers := rfl
@[simp] theorem Dev.setScrub_sec (v : Dev) (s : Nat) (x : Scrub) : (Dev.setScrub v s x).sec = v.sec := rfl
@[simp] theorem Dev.setScrub_chans (v : Dev) (s : Nat) (x : Scrub) : (Dev.setScrub v s x).chans = v.chans := rfl
@[simp] theorem Dev.setScrub_faults (v : Dev) (s : Nat) (x : Scrub) : (Dev.setScrub v s x).faults = v.faults := rfl
@[simp] theorem Dev.setScrub_recov (v : Dev) (s : Nat) (x : Scrub) : (Dev.setScrub v s x).recov = v.recov := rfl
@[simp] theorem Dev.setScrub_fcLast (v : Dev) (s : Nat) (x : Scrub) : (Dev.setScrub v s x).fcLast = v.fcLast := rfl
@[simp] theorem Dev.setScrub_floder (v : Dev) (s : Nat) (x : Scrub) : (Dev.setScrub v s x).floder = v.floder := rfl
@[simp] theorem Dev.setScrub_ep (v : Dev) (s : Nat) (x : Scrub) : (Dev.setScrub v s x).ep = v.ep := rfl
@[simp] theorem Dev.setScrub_pmon (v : Dev) (s : Nat) (x : Scrub) : (Dev.setScrub v s x).pmon = v.pmon := rfl
@[simp] theorem Dev.setScrub_out (v : Dev) (s : Nat) (x : Scrub) : (Dev.setScrub v s x).out = v.out := rfl
@[simp] theorem Dev.setScrub_freeTick (v : Dev) (s : Nat) (x : Scrub) : (Dev.setScrub v s x).freeTick = v.freeTick := rfl
@[simp] theorem Dev.setScrub_nextId (v : Dev) (s : Nat) (x : Scrub) : (Dev.setScrub v s x).nextId = v.nextId := rfl
@[simp] theorem Dev.setPend_clk (v : Dev) (p : Pending) : (Dev.setPend v p).clk = v.clk := rfl
@[simp] theorem Dev.setPend_winMem (v : Dev) (p : Pending) : (Dev.setPend v p).winMem = v.winMem := rfl
@[simp] theorem Dev.setPend_chip (v : Dev) (p : Pending) : (Dev.setPend v p).chip = v.chip := rfl
@[simp] theorem Dev.setPend_regs (v : Dev) (p : Pending) : (Dev.setPend v p).regs = v.regs := rfl
@[simp] theorem Dev.setPend_hosts (v : Dev) (p : Pending) : (Dev.setPend v p).hosts = v.hosts := rfl
@[simp] theorem Dev.setPend_store_grains (v : Dev) (p : Pending) : (Dev.setPend v p).store.grains = v.store.grains := rfl
@[simp] theorem Dev.setPend_store_credit (v : Dev) (p : Pending) : (Dev.setPend v p).store.credit = v.store.credit := rfl
@[simp] theorem Dev.setPend_store_hums (v : Dev) (p : Pending) : (Dev.setPend v p).store.hums = v.store.hums := rfl
@[simp] theorem Dev.setPend_store_ecaps (v : Dev) (p : Pending) : (Dev.setPend v p).store.ecaps = v.store.ecaps := rfl
@[simp] theorem Dev.setPend_store_layout (v : Dev) (p : Pending) : (Dev.setPend v p).store.layout = v.store.layout := rfl
@[simp] theorem Dev.setPend_store_stripes (v : Dev) (p : Pending) : (Dev.setPend v p).store.stripes = v.store.stripes := rfl
@[simp] theorem Dev.setPend_store_stripeSeq (v : Dev) (p : Pending) : (Dev.setPend v p).store.stripeSeq = v.store.stripeSeq := rfl
@[simp] theorem Dev.setPend_store_drives (v : Dev) (p : Pending) : (Dev.setPend v p).store.drives = v.store.drives := rfl
@[simp] theorem Dev.setPend_store_markers (v : Dev) (p : Pending) : (Dev.setPend v p).store.markers = v.store.markers := rfl
@[simp] theorem Dev.setPend_store_bays (v : Dev) (p : Pending) : (Dev.setPend v p).store.bays = v.store.bays := rfl
@[simp] theorem Dev.setPend_store_ops (v : Dev) (p : Pending) : (Dev.setPend v p).store.ops = v.store.ops := rfl
@[simp] theorem Dev.setPend_store_quar (v : Dev) (p : Pending) : (Dev.setPend v p).store.quar = v.store.quar := rfl
@[simp] theorem Dev.setPend_store_journal (v : Dev) (p : Pending) : (Dev.setPend v p).store.journal = v.store.journal := rfl
@[simp] theorem Dev.setPend_store_pages (v : Dev) (p : Pending) : (Dev.setPend v p).store.pages = v.store.pages := rfl
@[simp] theorem Dev.setPend_store_pageSeq (v : Dev) (p : Pending) : (Dev.setPend v p).store.pageSeq = v.store.pageSeq := rfl
@[simp] theorem Dev.setPend_store_cached (v : Dev) (p : Pending) : (Dev.setPend v p).store.cached = v.store.cached := rfl
@[simp] theorem Dev.setPend_store_rebuilds (v : Dev) (p : Pending) : (Dev.setPend v p).store.rebuilds = v.store.rebuilds := rfl
@[simp] theorem Dev.setPend_store_jobs (v : Dev) (p : Pending) : (Dev.setPend v p).store.jobs = v.store.jobs := rfl
@[simp] theorem Dev.setPend_store_moved (v : Dev) (p : Pending) : (Dev.setPend v p).store.moved = v.store.moved := rfl
@[simp] theorem Dev.setPend_store_crcEvent (v : Dev) (p : Pending) : (Dev.setPend v p).store.crcEvent = v.store.crcEvent := rfl
@[simp] theorem Dev.setPend_store_scans (v : Dev) (p : Pending) : (Dev.setPend v p).store.scans = v.store.scans := rfl
@[simp] theorem Dev.setPend_store_scrubs (v : Dev) (p : Pending) : (Dev.setPend v p).store.scrubs = v.store.scrubs := rfl
@[simp] theorem Dev.setPend_store_hbm (v : Dev) (p : Pending) : (Dev.setPend v p).store.hbm = v.store.hbm := rfl
@[simp] theorem Dev.setPend_hf (v : Dev) (p : Pending) : (Dev.setPend v p).hf = v.hf := rfl
@[simp] theorem Dev.setPend_keySlots (v : Dev) (p : Pending) : (Dev.setPend v p).keySlots = v.keySlots := rfl
@[simp] theorem Dev.setPend_leases (v : Dev) (p : Pending) : (Dev.setPend v p).leases = v.leases := rfl
@[simp] theorem Dev.setPend_spireLeases (v : Dev) (p : Pending) : (Dev.setPend v p).spireLeases = v.spireLeases := rfl
@[simp] theorem Dev.setPend_ciphers (v : Dev) (p : Pending) : (Dev.setPend v p).ciphers = v.ciphers := rfl
@[simp] theorem Dev.setPend_sec (v : Dev) (p : Pending) : (Dev.setPend v p).sec = v.sec := rfl
@[simp] theorem Dev.setPend_chans (v : Dev) (p : Pending) : (Dev.setPend v p).chans = v.chans := rfl
@[simp] theorem Dev.setPend_faults (v : Dev) (p : Pending) : (Dev.setPend v p).faults = v.faults := rfl
@[simp] theorem Dev.setPend_recov (v : Dev) (p : Pending) : (Dev.setPend v p).recov = v.recov := rfl
@[simp] theorem Dev.setPend_fcLast (v : Dev) (p : Pending) : (Dev.setPend v p).fcLast = v.fcLast := rfl
@[simp] theorem Dev.setPend_floder (v : Dev) (p : Pending) : (Dev.setPend v p).floder = v.floder := rfl
@[simp] theorem Dev.setPend_ep (v : Dev) (p : Pending) : (Dev.setPend v p).ep = v.ep := rfl
@[simp] theorem Dev.setPend_pmon (v : Dev) (p : Pending) : (Dev.setPend v p).pmon = v.pmon := rfl
@[simp] theorem Dev.setPend_out (v : Dev) (p : Pending) : (Dev.setPend v p).out = v.out := rfl
@[simp] theorem Dev.setPend_freeTick (v : Dev) (p : Pending) : (Dev.setPend v p).freeTick = v.freeTick := rfl
@[simp] theorem Dev.setPend_nextId (v : Dev) (p : Pending) : (Dev.setPend v p).nextId = v.nextId := rfl
@[simp] theorem Dev.adjOp_clk (v : Dev) (id : Nat) (f : BayOp → BayOp) : (Dev.adjOp v id f).clk = v.clk := rfl
@[simp] theorem Dev.adjOp_winMem (v : Dev) (id : Nat) (f : BayOp → BayOp) : (Dev.adjOp v id f).winMem = v.winMem := rfl
@[simp] theorem Dev.adjOp_chip (v : Dev) (id : Nat) (f : BayOp → BayOp) : (Dev.adjOp v id f).chip = v.chip := rfl
@[simp] theorem Dev.adjOp_regs (v : Dev) (id : Nat) (f : BayOp → BayOp) : (Dev.adjOp v id f).regs = v.regs := rfl
@[simp] theorem Dev.adjOp_hosts (v : Dev) (id : Nat) (f : BayOp → BayOp) : (Dev.adjOp v id f).hosts = v.hosts := rfl
@[simp] theorem Dev.adjOp_store_grains (v : Dev) (id : Nat) (f : BayOp → BayOp) : (Dev.adjOp v id f).store.grains = v.store.grains := rfl
@[simp] theorem Dev.adjOp_store_credit (v : Dev) (id : Nat) (f : BayOp → BayOp) : (Dev.adjOp v id f).store.credit = v.store.credit := rfl
@[simp] theorem Dev.adjOp_store_hums (v : Dev) (id : Nat) (f : BayOp → BayOp) : (Dev.adjOp v id f).store.hums = v.store.hums := rfl
@[simp] theorem Dev.adjOp_store_ecaps (v : Dev) (id : Nat) (f : BayOp → BayOp) : (Dev.adjOp v id f).store.ecaps = v.store.ecaps := rfl
@[simp] theorem Dev.adjOp_store_layout (v : Dev) (id : Nat) (f : BayOp → BayOp) : (Dev.adjOp v id f).store.layout = v.store.layout := rfl
@[simp] theorem Dev.adjOp_store_pend (v : Dev) (id : Nat) (f : BayOp → BayOp) : (Dev.adjOp v id f).store.pend = v.store.pend := rfl
@[simp] theorem Dev.adjOp_store_stripes (v : Dev) (id : Nat) (f : BayOp → BayOp) : (Dev.adjOp v id f).store.stripes = v.store.stripes := rfl
@[simp] theorem Dev.adjOp_store_stripeSeq (v : Dev) (id : Nat) (f : BayOp → BayOp) : (Dev.adjOp v id f).store.stripeSeq = v.store.stripeSeq := rfl
@[simp] theorem Dev.adjOp_store_drives (v : Dev) (id : Nat) (f : BayOp → BayOp) : (Dev.adjOp v id f).store.drives = v.store.drives := rfl
@[simp] theorem Dev.adjOp_store_markers (v : Dev) (id : Nat) (f : BayOp → BayOp) : (Dev.adjOp v id f).store.markers = v.store.markers := rfl
@[simp] theorem Dev.adjOp_store_bays (v : Dev) (id : Nat) (f : BayOp → BayOp) : (Dev.adjOp v id f).store.bays = v.store.bays := rfl
@[simp] theorem Dev.adjOp_store_quar (v : Dev) (id : Nat) (f : BayOp → BayOp) : (Dev.adjOp v id f).store.quar = v.store.quar := rfl
@[simp] theorem Dev.adjOp_store_journal (v : Dev) (id : Nat) (f : BayOp → BayOp) : (Dev.adjOp v id f).store.journal = v.store.journal := rfl
@[simp] theorem Dev.adjOp_store_pages (v : Dev) (id : Nat) (f : BayOp → BayOp) : (Dev.adjOp v id f).store.pages = v.store.pages := rfl
@[simp] theorem Dev.adjOp_store_pageSeq (v : Dev) (id : Nat) (f : BayOp → BayOp) : (Dev.adjOp v id f).store.pageSeq = v.store.pageSeq := rfl
@[simp] theorem Dev.adjOp_store_cached (v : Dev) (id : Nat) (f : BayOp → BayOp) : (Dev.adjOp v id f).store.cached = v.store.cached := rfl
@[simp] theorem Dev.adjOp_store_rebuilds (v : Dev) (id : Nat) (f : BayOp → BayOp) : (Dev.adjOp v id f).store.rebuilds = v.store.rebuilds := rfl
@[simp] theorem Dev.adjOp_store_jobs (v : Dev) (id : Nat) (f : BayOp → BayOp) : (Dev.adjOp v id f).store.jobs = v.store.jobs := rfl
@[simp] theorem Dev.adjOp_store_moved (v : Dev) (id : Nat) (f : BayOp → BayOp) : (Dev.adjOp v id f).store.moved = v.store.moved := rfl
@[simp] theorem Dev.adjOp_store_crcEvent (v : Dev) (id : Nat) (f : BayOp → BayOp) : (Dev.adjOp v id f).store.crcEvent = v.store.crcEvent := rfl
@[simp] theorem Dev.adjOp_store_scans (v : Dev) (id : Nat) (f : BayOp → BayOp) : (Dev.adjOp v id f).store.scans = v.store.scans := rfl
@[simp] theorem Dev.adjOp_store_scrubs (v : Dev) (id : Nat) (f : BayOp → BayOp) : (Dev.adjOp v id f).store.scrubs = v.store.scrubs := rfl
@[simp] theorem Dev.adjOp_store_hbm (v : Dev) (id : Nat) (f : BayOp → BayOp) : (Dev.adjOp v id f).store.hbm = v.store.hbm := rfl
@[simp] theorem Dev.adjOp_hf (v : Dev) (id : Nat) (f : BayOp → BayOp) : (Dev.adjOp v id f).hf = v.hf := rfl
@[simp] theorem Dev.adjOp_keySlots (v : Dev) (id : Nat) (f : BayOp → BayOp) : (Dev.adjOp v id f).keySlots = v.keySlots := rfl
@[simp] theorem Dev.adjOp_leases (v : Dev) (id : Nat) (f : BayOp → BayOp) : (Dev.adjOp v id f).leases = v.leases := rfl
@[simp] theorem Dev.adjOp_spireLeases (v : Dev) (id : Nat) (f : BayOp → BayOp) : (Dev.adjOp v id f).spireLeases = v.spireLeases := rfl
@[simp] theorem Dev.adjOp_ciphers (v : Dev) (id : Nat) (f : BayOp → BayOp) : (Dev.adjOp v id f).ciphers = v.ciphers := rfl
@[simp] theorem Dev.adjOp_sec (v : Dev) (id : Nat) (f : BayOp → BayOp) : (Dev.adjOp v id f).sec = v.sec := rfl
@[simp] theorem Dev.adjOp_chans (v : Dev) (id : Nat) (f : BayOp → BayOp) : (Dev.adjOp v id f).chans = v.chans := rfl
@[simp] theorem Dev.adjOp_faults (v : Dev) (id : Nat) (f : BayOp → BayOp) : (Dev.adjOp v id f).faults = v.faults := rfl
@[simp] theorem Dev.adjOp_recov (v : Dev) (id : Nat) (f : BayOp → BayOp) : (Dev.adjOp v id f).recov = v.recov := rfl
@[simp] theorem Dev.adjOp_fcLast (v : Dev) (id : Nat) (f : BayOp → BayOp) : (Dev.adjOp v id f).fcLast = v.fcLast := rfl
@[simp] theorem Dev.adjOp_floder (v : Dev) (id : Nat) (f : BayOp → BayOp) : (Dev.adjOp v id f).floder = v.floder := rfl
@[simp] theorem Dev.adjOp_ep (v : Dev) (id : Nat) (f : BayOp → BayOp) : (Dev.adjOp v id f).ep = v.ep := rfl
@[simp] theorem Dev.adjOp_pmon (v : Dev) (id : Nat) (f : BayOp → BayOp) : (Dev.adjOp v id f).pmon = v.pmon := rfl
@[simp] theorem Dev.adjOp_out (v : Dev) (id : Nat) (f : BayOp → BayOp) : (Dev.adjOp v id f).out = v.out := rfl
@[simp] theorem Dev.adjOp_freeTick (v : Dev) (id : Nat) (f : BayOp → BayOp) : (Dev.adjOp v id f).freeTick = v.freeTick := rfl
@[simp] theorem Dev.adjOp_nextId (v : Dev) (id : Nat) (f : BayOp → BayOp) : (Dev.adjOp v id f).nextId = v.nextId := rfl
@[simp] theorem Dev.adjGrain_clk (v : Dev) (id : Nat) (f : Grain → Grain) : (Dev.adjGrain v id f).clk = v.clk := rfl
@[simp] theorem Dev.adjGrain_winMem (v : Dev) (id : Nat) (f : Grain → Grain) : (Dev.adjGrain v id f).winMem = v.winMem := rfl
@[simp] theorem Dev.adjGrain_chip (v : Dev) (id : Nat) (f : Grain → Grain) : (Dev.adjGrain v id f).chip = v.chip := rfl
@[simp] theorem Dev.adjGrain_regs (v : Dev) (id : Nat) (f : Grain → Grain) : (Dev.adjGrain v id f).regs = v.regs := rfl
@[simp] theorem Dev.adjGrain_hosts (v : Dev) (id : Nat) (f : Grain → Grain) : (Dev.adjGrain v id f).hosts = v.hosts := rfl
@[simp] theorem Dev.adjGrain_store_credit (v : Dev) (id : Nat) (f : Grain → Grain) : (Dev.adjGrain v id f).store.credit = v.store.credit := rfl
@[simp] theorem Dev.adjGrain_store_hums (v : Dev) (id : Nat) (f : Grain → Grain) : (Dev.adjGrain v id f).store.hums = v.store.hums := rfl
@[simp] theorem Dev.adjGrain_store_ecaps (v : Dev) (id : Nat) (f : Grain → Grain) : (Dev.adjGrain v id f).store.ecaps = v.store.ecaps := rfl
@[simp] theorem Dev.adjGrain_store_layout (v : Dev) (id : Nat) (f : Grain → Grain) : (Dev.adjGrain v id f).store.layout = v.store.layout := rfl
@[simp] theorem Dev.adjGrain_store_pend (v : Dev) (id : Nat) (f : Grain → Grain) : (Dev.adjGrain v id f).store.pend = v.store.pend := rfl
@[simp] theorem Dev.adjGrain_store_stripes (v : Dev) (id : Nat) (f : Grain → Grain) : (Dev.adjGrain v id f).store.stripes = v.store.stripes := rfl
@[simp] theorem Dev.adjGrain_store_stripeSeq (v : Dev) (id : Nat) (f : Grain → Grain) : (Dev.adjGrain v id f).store.stripeSeq = v.store.stripeSeq := rfl
@[simp] theorem Dev.adjGrain_store_drives (v : Dev) (id : Nat) (f : Grain → Grain) : (Dev.adjGrain v id f).store.drives = v.store.drives := rfl
@[simp] theorem Dev.adjGrain_store_markers (v : Dev) (id : Nat) (f : Grain → Grain) : (Dev.adjGrain v id f).store.markers = v.store.markers := rfl
@[simp] theorem Dev.adjGrain_store_bays (v : Dev) (id : Nat) (f : Grain → Grain) : (Dev.adjGrain v id f).store.bays = v.store.bays := rfl
@[simp] theorem Dev.adjGrain_store_ops (v : Dev) (id : Nat) (f : Grain → Grain) : (Dev.adjGrain v id f).store.ops = v.store.ops := rfl
@[simp] theorem Dev.adjGrain_store_quar (v : Dev) (id : Nat) (f : Grain → Grain) : (Dev.adjGrain v id f).store.quar = v.store.quar := rfl
@[simp] theorem Dev.adjGrain_store_journal (v : Dev) (id : Nat) (f : Grain → Grain) : (Dev.adjGrain v id f).store.journal = v.store.journal := rfl
@[simp] theorem Dev.adjGrain_store_pages (v : Dev) (id : Nat) (f : Grain → Grain) : (Dev.adjGrain v id f).store.pages = v.store.pages := rfl
@[simp] theorem Dev.adjGrain_store_pageSeq (v : Dev) (id : Nat) (f : Grain → Grain) : (Dev.adjGrain v id f).store.pageSeq = v.store.pageSeq := rfl
@[simp] theorem Dev.adjGrain_store_cached (v : Dev) (id : Nat) (f : Grain → Grain) : (Dev.adjGrain v id f).store.cached = v.store.cached := rfl
@[simp] theorem Dev.adjGrain_store_rebuilds (v : Dev) (id : Nat) (f : Grain → Grain) : (Dev.adjGrain v id f).store.rebuilds = v.store.rebuilds := rfl
@[simp] theorem Dev.adjGrain_store_jobs (v : Dev) (id : Nat) (f : Grain → Grain) : (Dev.adjGrain v id f).store.jobs = v.store.jobs := rfl
@[simp] theorem Dev.adjGrain_store_moved (v : Dev) (id : Nat) (f : Grain → Grain) : (Dev.adjGrain v id f).store.moved = v.store.moved := rfl
@[simp] theorem Dev.adjGrain_store_crcEvent (v : Dev) (id : Nat) (f : Grain → Grain) : (Dev.adjGrain v id f).store.crcEvent = v.store.crcEvent := rfl
@[simp] theorem Dev.adjGrain_store_scans (v : Dev) (id : Nat) (f : Grain → Grain) : (Dev.adjGrain v id f).store.scans = v.store.scans := rfl
@[simp] theorem Dev.adjGrain_store_scrubs (v : Dev) (id : Nat) (f : Grain → Grain) : (Dev.adjGrain v id f).store.scrubs = v.store.scrubs := rfl
@[simp] theorem Dev.adjGrain_store_hbm (v : Dev) (id : Nat) (f : Grain → Grain) : (Dev.adjGrain v id f).store.hbm = v.store.hbm := rfl
@[simp] theorem Dev.adjGrain_hf (v : Dev) (id : Nat) (f : Grain → Grain) : (Dev.adjGrain v id f).hf = v.hf := rfl
@[simp] theorem Dev.adjGrain_keySlots (v : Dev) (id : Nat) (f : Grain → Grain) : (Dev.adjGrain v id f).keySlots = v.keySlots := rfl
@[simp] theorem Dev.adjGrain_leases (v : Dev) (id : Nat) (f : Grain → Grain) : (Dev.adjGrain v id f).leases = v.leases := rfl
@[simp] theorem Dev.adjGrain_spireLeases (v : Dev) (id : Nat) (f : Grain → Grain) : (Dev.adjGrain v id f).spireLeases = v.spireLeases := rfl
@[simp] theorem Dev.adjGrain_ciphers (v : Dev) (id : Nat) (f : Grain → Grain) : (Dev.adjGrain v id f).ciphers = v.ciphers := rfl
@[simp] theorem Dev.adjGrain_sec (v : Dev) (id : Nat) (f : Grain → Grain) : (Dev.adjGrain v id f).sec = v.sec := rfl
@[simp] theorem Dev.adjGrain_chans (v : Dev) (id : Nat) (f : Grain → Grain) : (Dev.adjGrain v id f).chans = v.chans := rfl
@[simp] theorem Dev.adjGrain_faults (v : Dev) (id : Nat) (f : Grain → Grain) : (Dev.adjGrain v id f).faults = v.faults := rfl
@[simp] theorem Dev.adjGrain_recov (v : Dev) (id : Nat) (f : Grain → Grain) : (Dev.adjGrain v id f).recov = v.recov := rfl
@[simp] theorem Dev.adjGrain_fcLast (v : Dev) (id : Nat) (f : Grain → Grain) : (Dev.adjGrain v id f).fcLast = v.fcLast := rfl
@[simp] theorem Dev.adjGrain_floder (v : Dev) (id : Nat) (f : Grain → Grain) : (Dev.adjGrain v id f).floder = v.floder := rfl
@[simp] theorem Dev.adjGrain_ep (v : Dev) (id : Nat) (f : Grain → Grain) : (Dev.adjGrain v id f).ep = v.ep := rfl
@[simp] theorem Dev.adjGrain_pmon (v : Dev) (id : Nat) (f : Grain → Grain) : (Dev.adjGrain v id f).pmon = v.pmon := rfl
@[simp] theorem Dev.adjGrain_out (v : Dev) (id : Nat) (f : Grain → Grain) : (Dev.adjGrain v id f).out = v.out := rfl
@[simp] theorem Dev.adjGrain_freeTick (v : Dev) (id : Nat) (f : Grain → Grain) : (Dev.adjGrain v id f).freeTick = v.freeTick := rfl
@[simp] theorem Dev.adjGrain_nextId (v : Dev) (id : Nat) (f : Grain → Grain) : (Dev.adjGrain v id f).nextId = v.nextId := rfl
@[simp] theorem Dev.writeDrive_clk (v : Dev) (bay row g : Nat) (img : List Byte) : (Dev.writeDrive v bay row g img).clk = v.clk := rfl
@[simp] theorem Dev.writeDrive_winMem (v : Dev) (bay row g : Nat) (img : List Byte) : (Dev.writeDrive v bay row g img).winMem = v.winMem := rfl
@[simp] theorem Dev.writeDrive_chip (v : Dev) (bay row g : Nat) (img : List Byte) : (Dev.writeDrive v bay row g img).chip = v.chip := rfl
@[simp] theorem Dev.writeDrive_regs (v : Dev) (bay row g : Nat) (img : List Byte) : (Dev.writeDrive v bay row g img).regs = v.regs := rfl
@[simp] theorem Dev.writeDrive_hosts (v : Dev) (bay row g : Nat) (img : List Byte) : (Dev.writeDrive v bay row g img).hosts = v.hosts := rfl
@[simp] theorem Dev.writeDrive_store_grains (v : Dev) (bay row g : Nat) (img : List Byte) : (Dev.writeDrive v bay row g img).store.grains = v.store.grains := rfl
@[simp] theorem Dev.writeDrive_store_credit (v : Dev) (bay row g : Nat) (img : List Byte) : (Dev.writeDrive v bay row g img).store.credit = v.store.credit := rfl
@[simp] theorem Dev.writeDrive_store_hums (v : Dev) (bay row g : Nat) (img : List Byte) : (Dev.writeDrive v bay row g img).store.hums = v.store.hums := rfl
@[simp] theorem Dev.writeDrive_store_ecaps (v : Dev) (bay row g : Nat) (img : List Byte) : (Dev.writeDrive v bay row g img).store.ecaps = v.store.ecaps := rfl
@[simp] theorem Dev.writeDrive_store_layout (v : Dev) (bay row g : Nat) (img : List Byte) : (Dev.writeDrive v bay row g img).store.layout = v.store.layout := rfl
@[simp] theorem Dev.writeDrive_store_pend (v : Dev) (bay row g : Nat) (img : List Byte) : (Dev.writeDrive v bay row g img).store.pend = v.store.pend := rfl
@[simp] theorem Dev.writeDrive_store_stripes (v : Dev) (bay row g : Nat) (img : List Byte) : (Dev.writeDrive v bay row g img).store.stripes = v.store.stripes := rfl
@[simp] theorem Dev.writeDrive_store_stripeSeq (v : Dev) (bay row g : Nat) (img : List Byte) : (Dev.writeDrive v bay row g img).store.stripeSeq = v.store.stripeSeq := rfl
@[simp] theorem Dev.writeDrive_store_markers (v : Dev) (bay row g : Nat) (img : List Byte) : (Dev.writeDrive v bay row g img).store.markers = v.store.markers := rfl
@[simp] theorem Dev.writeDrive_store_bays (v : Dev) (bay row g : Nat) (img : List Byte) : (Dev.writeDrive v bay row g img).store.bays = v.store.bays := rfl
@[simp] theorem Dev.writeDrive_store_ops (v : Dev) (bay row g : Nat) (img : List Byte) : (Dev.writeDrive v bay row g img).store.ops = v.store.ops := rfl
@[simp] theorem Dev.writeDrive_store_quar (v : Dev) (bay row g : Nat) (img : List Byte) : (Dev.writeDrive v bay row g img).store.quar = v.store.quar := rfl
@[simp] theorem Dev.writeDrive_store_journal (v : Dev) (bay row g : Nat) (img : List Byte) : (Dev.writeDrive v bay row g img).store.journal = v.store.journal := rfl
@[simp] theorem Dev.writeDrive_store_pages (v : Dev) (bay row g : Nat) (img : List Byte) : (Dev.writeDrive v bay row g img).store.pages = v.store.pages := rfl
@[simp] theorem Dev.writeDrive_store_pageSeq (v : Dev) (bay row g : Nat) (img : List Byte) : (Dev.writeDrive v bay row g img).store.pageSeq = v.store.pageSeq := rfl
@[simp] theorem Dev.writeDrive_store_cached (v : Dev) (bay row g : Nat) (img : List Byte) : (Dev.writeDrive v bay row g img).store.cached = v.store.cached := rfl
@[simp] theorem Dev.writeDrive_store_rebuilds (v : Dev) (bay row g : Nat) (img : List Byte) : (Dev.writeDrive v bay row g img).store.rebuilds = v.store.rebuilds := rfl
@[simp] theorem Dev.writeDrive_store_jobs (v : Dev) (bay row g : Nat) (img : List Byte) : (Dev.writeDrive v bay row g img).store.jobs = v.store.jobs := rfl
@[simp] theorem Dev.writeDrive_store_moved (v : Dev) (bay row g : Nat) (img : List Byte) : (Dev.writeDrive v bay row g img).store.moved = v.store.moved := rfl
@[simp] theorem Dev.writeDrive_store_crcEvent (v : Dev) (bay row g : Nat) (img : List Byte) : (Dev.writeDrive v bay row g img).store.crcEvent = v.store.crcEvent := rfl
@[simp] theorem Dev.writeDrive_store_scans (v : Dev) (bay row g : Nat) (img : List Byte) : (Dev.writeDrive v bay row g img).store.scans = v.store.scans := rfl
@[simp] theorem Dev.writeDrive_store_scrubs (v : Dev) (bay row g : Nat) (img : List Byte) : (Dev.writeDrive v bay row g img).store.scrubs = v.store.scrubs := rfl
@[simp] theorem Dev.writeDrive_store_hbm (v : Dev) (bay row g : Nat) (img : List Byte) : (Dev.writeDrive v bay row g img).store.hbm = v.store.hbm := rfl
@[simp] theorem Dev.writeDrive_hf (v : Dev) (bay row g : Nat) (img : List Byte) : (Dev.writeDrive v bay row g img).hf = v.hf := rfl
@[simp] theorem Dev.writeDrive_keySlots (v : Dev) (bay row g : Nat) (img : List Byte) : (Dev.writeDrive v bay row g img).keySlots = v.keySlots := rfl
@[simp] theorem Dev.writeDrive_leases (v : Dev) (bay row g : Nat) (img : List Byte) : (Dev.writeDrive v bay row g img).leases = v.leases := rfl
@[simp] theorem Dev.writeDrive_spireLeases (v : Dev) (bay row g : Nat) (img : List Byte) : (Dev.writeDrive v bay row g img).spireLeases = v.spireLeases := rfl
@[simp] theorem Dev.writeDrive_ciphers (v : Dev) (bay row g : Nat) (img : List Byte) : (Dev.writeDrive v bay row g img).ciphers = v.ciphers := rfl
@[simp] theorem Dev.writeDrive_sec (v : Dev) (bay row g : Nat) (img : List Byte) : (Dev.writeDrive v bay row g img).sec = v.sec := rfl
@[simp] theorem Dev.writeDrive_chans (v : Dev) (bay row g : Nat) (img : List Byte) : (Dev.writeDrive v bay row g img).chans = v.chans := rfl
@[simp] theorem Dev.writeDrive_faults (v : Dev) (bay row g : Nat) (img : List Byte) : (Dev.writeDrive v bay row g img).faults = v.faults := rfl
@[simp] theorem Dev.writeDrive_recov (v : Dev) (bay row g : Nat) (img : List Byte) : (Dev.writeDrive v bay row g img).recov = v.recov := rfl
@[simp] theorem Dev.writeDrive_fcLast (v : Dev) (bay row g : Nat) (img : List Byte) : (Dev.writeDrive v bay row g img).fcLast = v.fcLast := rfl
@[simp] theorem Dev.writeDrive_floder (v : Dev) (bay row g : Nat) (img : List Byte) : (Dev.writeDrive v bay row g img).floder = v.floder := rfl
@[simp] theorem Dev.writeDrive_ep (v : Dev) (bay row g : Nat) (img : List Byte) : (Dev.writeDrive v bay row g img).ep = v.ep := rfl
@[simp] theorem Dev.writeDrive_pmon (v : Dev) (bay row g : Nat) (img : List Byte) : (Dev.writeDrive v bay row g img).pmon = v.pmon := rfl
@[simp] theorem Dev.writeDrive_out (v : Dev) (bay row g : Nat) (img : List Byte) : (Dev.writeDrive v bay row g img).out = v.out := rfl
@[simp] theorem Dev.writeDrive_freeTick (v : Dev) (bay row g : Nat) (img : List Byte) : (Dev.writeDrive v bay row g img).freeTick = v.freeTick := rfl
@[simp] theorem Dev.writeDrive_nextId (v : Dev) (bay row g : Nat) (img : List Byte) : (Dev.writeDrive v bay row g img).nextId = v.nextId := rfl
@[simp] theorem Dev.adjJob_clk (v : Dev) (id : Nat) (f : Job → Job) : (Dev.adjJob v id f).clk = v.clk := rfl
@[simp] theorem Dev.adjJob_winMem (v : Dev) (id : Nat) (f : Job → Job) : (Dev.adjJob v id f).winMem = v.winMem := rfl
@[simp] theorem Dev.adjJob_chip (v : Dev) (id : Nat) (f : Job → Job) : (Dev.adjJob v id f).chip = v.chip := rfl
@[simp] theorem Dev.adjJob_regs (v : Dev) (id : Nat) (f : Job → Job) : (Dev.adjJob v id f).regs = v.regs := rfl
@[simp] theorem Dev.adjJob_hosts (v : Dev) (id : Nat) (f : Job → Job) : (Dev.adjJob v id f).hosts = v.hosts := rfl
@[simp] theorem Dev.adjJob_store_grains (v : Dev) (id : Nat) (f : Job → Job) : (Dev.adjJob v id f).store.grains = v.store.grains := rfl
@[simp] theorem Dev.adjJob_store_credit (v : Dev) (id : Nat) (f : Job → Job) : (Dev.adjJob v id f).store.credit = v.store.credit := rfl
@[simp] theorem Dev.adjJob_store_hums (v : Dev) (id : Nat) (f : Job → Job) : (Dev.adjJob v id f).store.hums = v.store.hums := rfl
@[simp] theorem Dev.adjJob_store_ecaps (v : Dev) (id : Nat) (f : Job → Job) : (Dev.adjJob v id f).store.ecaps = v.store.ecaps := rfl
@[simp] theorem Dev.adjJob_store_layout (v : Dev) (id : Nat) (f : Job → Job) : (Dev.adjJob v id f).store.layout = v.store.layout := rfl
@[simp] theorem Dev.adjJob_store_pend (v : Dev) (id : Nat) (f : Job → Job) : (Dev.adjJob v id f).store.pend = v.store.pend := rfl
@[simp] theorem Dev.adjJob_store_stripes (v : Dev) (id : Nat) (f : Job → Job) : (Dev.adjJob v id f).store.stripes = v.store.stripes := rfl
@[simp] theorem Dev.adjJob_store_stripeSeq (v : Dev) (id : Nat) (f : Job → Job) : (Dev.adjJob v id f).store.stripeSeq = v.store.stripeSeq := rfl
@[simp] theorem Dev.adjJob_store_drives (v : Dev) (id : Nat) (f : Job → Job) : (Dev.adjJob v id f).store.drives = v.store.drives := rfl
@[simp] theorem Dev.adjJob_store_markers (v : Dev) (id : Nat) (f : Job → Job) : (Dev.adjJob v id f).store.markers = v.store.markers := rfl
@[simp] theorem Dev.adjJob_store_bays (v : Dev) (id : Nat) (f : Job → Job) : (Dev.adjJob v id f).store.bays = v.store.bays := rfl
@[simp] theorem Dev.adjJob_store_ops (v : Dev) (id : Nat) (f : Job → Job) : (Dev.adjJob v id f).store.ops = v.store.ops := rfl
@[simp] theorem Dev.adjJob_store_quar (v : Dev) (id : Nat) (f : Job → Job) : (Dev.adjJob v id f).store.quar = v.store.quar := rfl
@[simp] theorem Dev.adjJob_store_journal (v : Dev) (id : Nat) (f : Job → Job) : (Dev.adjJob v id f).store.journal = v.store.journal := rfl
@[simp] theorem Dev.adjJob_store_pages (v : Dev) (id : Nat) (f : Job → Job) : (Dev.adjJob v id f).store.pages = v.store.pages := rfl
@[simp] theorem Dev.adjJob_store_pageSeq (v : Dev) (id : Nat) (f : Job → Job) : (Dev.adjJob v id f).store.pageSeq = v.store.pageSeq := rfl
@[simp] theorem Dev.adjJob_store_cached (v : Dev) (id : Nat) (f : Job → Job) : (Dev.adjJob v id f).store.cached = v.store.cached := rfl
@[simp] theorem Dev.adjJob_store_rebuilds (v : Dev) (id : Nat) (f : Job → Job) : (Dev.adjJob v id f).store.rebuilds = v.store.rebuilds := rfl
@[simp] theorem Dev.adjJob_store_moved (v : Dev) (id : Nat) (f : Job → Job) : (Dev.adjJob v id f).store.moved = v.store.moved := rfl
@[simp] theorem Dev.adjJob_store_crcEvent (v : Dev) (id : Nat) (f : Job → Job) : (Dev.adjJob v id f).store.crcEvent = v.store.crcEvent := rfl
@[simp] theorem Dev.adjJob_store_scans (v : Dev) (id : Nat) (f : Job → Job) : (Dev.adjJob v id f).store.scans = v.store.scans := rfl
@[simp] theorem Dev.adjJob_store_scrubs (v : Dev) (id : Nat) (f : Job → Job) : (Dev.adjJob v id f).store.scrubs = v.store.scrubs := rfl
@[simp] theorem Dev.adjJob_store_hbm (v : Dev) (id : Nat) (f : Job → Job) : (Dev.adjJob v id f).store.hbm = v.store.hbm := rfl
@[simp] theorem Dev.adjJob_hf (v : Dev) (id : Nat) (f : Job → Job) : (Dev.adjJob v id f).hf = v.hf := rfl
@[simp] theorem Dev.adjJob_keySlots (v : Dev) (id : Nat) (f : Job → Job) : (Dev.adjJob v id f).keySlots = v.keySlots := rfl
@[simp] theorem Dev.adjJob_leases (v : Dev) (id : Nat) (f : Job → Job) : (Dev.adjJob v id f).leases = v.leases := rfl
@[simp] theorem Dev.adjJob_spireLeases (v : Dev) (id : Nat) (f : Job → Job) : (Dev.adjJob v id f).spireLeases = v.spireLeases := rfl
@[simp] theorem Dev.adjJob_ciphers (v : Dev) (id : Nat) (f : Job → Job) : (Dev.adjJob v id f).ciphers = v.ciphers := rfl
@[simp] theorem Dev.adjJob_sec (v : Dev) (id : Nat) (f : Job → Job) : (Dev.adjJob v id f).sec = v.sec := rfl
@[simp] theorem Dev.adjJob_chans (v : Dev) (id : Nat) (f : Job → Job) : (Dev.adjJob v id f).chans = v.chans := rfl
@[simp] theorem Dev.adjJob_faults (v : Dev) (id : Nat) (f : Job → Job) : (Dev.adjJob v id f).faults = v.faults := rfl
@[simp] theorem Dev.adjJob_recov (v : Dev) (id : Nat) (f : Job → Job) : (Dev.adjJob v id f).recov = v.recov := rfl
@[simp] theorem Dev.adjJob_fcLast (v : Dev) (id : Nat) (f : Job → Job) : (Dev.adjJob v id f).fcLast = v.fcLast := rfl
@[simp] theorem Dev.adjJob_floder (v : Dev) (id : Nat) (f : Job → Job) : (Dev.adjJob v id f).floder = v.floder := rfl
@[simp] theorem Dev.adjJob_ep (v : Dev) (id : Nat) (f : Job → Job) : (Dev.adjJob v id f).ep = v.ep := rfl
@[simp] theorem Dev.adjJob_pmon (v : Dev) (id : Nat) (f : Job → Job) : (Dev.adjJob v id f).pmon = v.pmon := rfl
@[simp] theorem Dev.adjJob_out (v : Dev) (id : Nat) (f : Job → Job) : (Dev.adjJob v id f).out = v.out := rfl
@[simp] theorem Dev.adjJob_freeTick (v : Dev) (id : Nat) (f : Job → Job) : (Dev.adjJob v id f).freeTick = v.freeTick := rfl
@[simp] theorem Dev.adjJob_nextId (v : Dev) (id : Nat) (f : Job → Job) : (Dev.adjJob v id f).nextId = v.nextId := rfl
@[simp] theorem Dev.dropJob_clk (v : Dev) (id : Nat) : (Dev.dropJob v id).clk = v.clk := rfl
@[simp] theorem Dev.dropJob_winMem (v : Dev) (id : Nat) : (Dev.dropJob v id).winMem = v.winMem := rfl
@[simp] theorem Dev.dropJob_chip (v : Dev) (id : Nat) : (Dev.dropJob v id).chip = v.chip := rfl
@[simp] theorem Dev.dropJob_regs (v : Dev) (id : Nat) : (Dev.dropJob v id).regs = v.regs := rfl
@[simp] theorem Dev.dropJob_hosts (v : Dev) (id : Nat) : (Dev.dropJob v id).hosts = v.hosts := rfl
@[simp] theorem Dev.dropJob_store_grains (v : Dev) (id : Nat) : (Dev.dropJob v id).store.grains = v.store.grains := rfl
@[simp] theorem Dev.dropJob_store_credit (v : Dev) (id : Nat) : (Dev.dropJob v id).store.credit = v.store.credit := rfl
@[simp] theorem Dev.dropJob_store_hums (v : Dev) (id : Nat) : (Dev.dropJob v id).store.hums = v.store.hums := rfl
@[simp] theorem Dev.dropJob_store_ecaps (v : Dev) (id : Nat) : (Dev.dropJob v id).store.ecaps = v.store.ecaps := rfl
@[simp] theorem Dev.dropJob_store_layout (v : Dev) (id : Nat) : (Dev.dropJob v id).store.layout = v.store.layout := rfl
@[simp] theorem Dev.dropJob_store_pend (v : Dev) (id : Nat) : (Dev.dropJob v id).store.pend = v.store.pend := rfl
@[simp] theorem Dev.dropJob_store_stripes (v : Dev) (id : Nat) : (Dev.dropJob v id).store.stripes = v.store.stripes := rfl
@[simp] theorem Dev.dropJob_store_stripeSeq (v : Dev) (id : Nat) : (Dev.dropJob v id).store.stripeSeq = v.store.stripeSeq := rfl
@[simp] theorem Dev.dropJob_store_drives (v : Dev) (id : Nat) : (Dev.dropJob v id).store.drives = v.store.drives := rfl
@[simp] theorem Dev.dropJob_store_markers (v : Dev) (id : Nat) : (Dev.dropJob v id).store.markers = v.store.markers := rfl
@[simp] theorem Dev.dropJob_store_bays (v : Dev) (id : Nat) : (Dev.dropJob v id).store.bays = v.store.bays := rfl
@[simp] theorem Dev.dropJob_store_quar (v : Dev) (id : Nat) : (Dev.dropJob v id).store.quar = v.store.quar := rfl
@[simp] theorem Dev.dropJob_store_journal (v : Dev) (id : Nat) : (Dev.dropJob v id).store.journal = v.store.journal := rfl
@[simp] theorem Dev.dropJob_store_pages (v : Dev) (id : Nat) : (Dev.dropJob v id).store.pages = v.store.pages := rfl
@[simp] theorem Dev.dropJob_store_pageSeq (v : Dev) (id : Nat) : (Dev.dropJob v id).store.pageSeq = v.store.pageSeq := rfl
@[simp] theorem Dev.dropJob_store_cached (v : Dev) (id : Nat) : (Dev.dropJob v id).store.cached = v.store.cached := rfl
@[simp] theorem Dev.dropJob_store_rebuilds (v : Dev) (id : Nat) : (Dev.dropJob v id).store.rebuilds = v.store.rebuilds := rfl
@[simp] theorem Dev.dropJob_store_moved (v : Dev) (id : Nat) : (Dev.dropJob v id).store.moved = v.store.moved := rfl
@[simp] theorem Dev.dropJob_store_crcEvent (v : Dev) (id : Nat) : (Dev.dropJob v id).store.crcEvent = v.store.crcEvent := rfl
@[simp] theorem Dev.dropJob_store_scans (v : Dev) (id : Nat) : (Dev.dropJob v id).store.scans = v.store.scans := rfl
@[simp] theorem Dev.dropJob_store_scrubs (v : Dev) (id : Nat) : (Dev.dropJob v id).store.scrubs = v.store.scrubs := rfl
@[simp] theorem Dev.dropJob_store_hbm (v : Dev) (id : Nat) : (Dev.dropJob v id).store.hbm = v.store.hbm := rfl
@[simp] theorem Dev.dropJob_hf (v : Dev) (id : Nat) : (Dev.dropJob v id).hf = v.hf := rfl
@[simp] theorem Dev.dropJob_keySlots (v : Dev) (id : Nat) : (Dev.dropJob v id).keySlots = v.keySlots := rfl
@[simp] theorem Dev.dropJob_leases (v : Dev) (id : Nat) : (Dev.dropJob v id).leases = v.leases := rfl
@[simp] theorem Dev.dropJob_spireLeases (v : Dev) (id : Nat) : (Dev.dropJob v id).spireLeases = v.spireLeases := rfl
@[simp] theorem Dev.dropJob_ciphers (v : Dev) (id : Nat) : (Dev.dropJob v id).ciphers = v.ciphers := rfl
@[simp] theorem Dev.dropJob_sec (v : Dev) (id : Nat) : (Dev.dropJob v id).sec = v.sec := rfl
@[simp] theorem Dev.dropJob_chans (v : Dev) (id : Nat) : (Dev.dropJob v id).chans = v.chans := rfl
@[simp] theorem Dev.dropJob_faults (v : Dev) (id : Nat) : (Dev.dropJob v id).faults = v.faults := rfl
@[simp] theorem Dev.dropJob_recov (v : Dev) (id : Nat) : (Dev.dropJob v id).recov = v.recov := rfl
@[simp] theorem Dev.dropJob_fcLast (v : Dev) (id : Nat) : (Dev.dropJob v id).fcLast = v.fcLast := rfl
@[simp] theorem Dev.dropJob_floder (v : Dev) (id : Nat) : (Dev.dropJob v id).floder = v.floder := rfl
@[simp] theorem Dev.dropJob_ep (v : Dev) (id : Nat) : (Dev.dropJob v id).ep = v.ep := rfl
@[simp] theorem Dev.dropJob_pmon (v : Dev) (id : Nat) : (Dev.dropJob v id).pmon = v.pmon := rfl
@[simp] theorem Dev.dropJob_out (v : Dev) (id : Nat) : (Dev.dropJob v id).out = v.out := rfl
@[simp] theorem Dev.dropJob_freeTick (v : Dev) (id : Nat) : (Dev.dropJob v id).freeTick = v.freeTick := rfl
@[simp] theorem Dev.dropJob_nextId (v : Dev) (id : Nat) : (Dev.dropJob v id).nextId = v.nextId := rfl
@[simp] theorem Dev.setECap_clk (v : Dev) (e : ECap) : (Dev.setECap v e).clk = v.clk := rfl
@[simp] theorem Dev.setECap_winMem (v : Dev) (e : ECap) : (Dev.setECap v e).winMem = v.winMem := rfl
@[simp] theorem Dev.setECap_chip (v : Dev) (e : ECap) : (Dev.setECap v e).chip = v.chip := rfl
@[simp] theorem Dev.setECap_regs (v : Dev) (e : ECap) : (Dev.setECap v e).regs = v.regs := rfl
@[simp] theorem Dev.setECap_hosts (v : Dev) (e : ECap) : (Dev.setECap v e).hosts = v.hosts := rfl
@[simp] theorem Dev.setECap_store_grains (v : Dev) (e : ECap) : (Dev.setECap v e).store.grains = v.store.grains := rfl
@[simp] theorem Dev.setECap_store_credit (v : Dev) (e : ECap) : (Dev.setECap v e).store.credit = v.store.credit := rfl
@[simp] theorem Dev.setECap_store_hums (v : Dev) (e : ECap) : (Dev.setECap v e).store.hums = v.store.hums := rfl
@[simp] theorem Dev.setECap_store_layout (v : Dev) (e : ECap) : (Dev.setECap v e).store.layout = v.store.layout := rfl
@[simp] theorem Dev.setECap_store_pend (v : Dev) (e : ECap) : (Dev.setECap v e).store.pend = v.store.pend := rfl
@[simp] theorem Dev.setECap_store_stripes (v : Dev) (e : ECap) : (Dev.setECap v e).store.stripes = v.store.stripes := rfl
@[simp] theorem Dev.setECap_store_stripeSeq (v : Dev) (e : ECap) : (Dev.setECap v e).store.stripeSeq = v.store.stripeSeq := rfl
@[simp] theorem Dev.setECap_store_drives (v : Dev) (e : ECap) : (Dev.setECap v e).store.drives = v.store.drives := rfl
@[simp] theorem Dev.setECap_store_markers (v : Dev) (e : ECap) : (Dev.setECap v e).store.markers = v.store.markers := rfl
@[simp] theorem Dev.setECap_store_bays (v : Dev) (e : ECap) : (Dev.setECap v e).store.bays = v.store.bays := rfl
@[simp] theorem Dev.setECap_store_ops (v : Dev) (e : ECap) : (Dev.setECap v e).store.ops = v.store.ops := rfl
@[simp] theorem Dev.setECap_store_quar (v : Dev) (e : ECap) : (Dev.setECap v e).store.quar = v.store.quar := rfl
@[simp] theorem Dev.setECap_store_journal (v : Dev) (e : ECap) : (Dev.setECap v e).store.journal = v.store.journal := rfl
@[simp] theorem Dev.setECap_store_pages (v : Dev) (e : ECap) : (Dev.setECap v e).store.pages = v.store.pages := rfl
@[simp] theorem Dev.setECap_store_pageSeq (v : Dev) (e : ECap) : (Dev.setECap v e).store.pageSeq = v.store.pageSeq := rfl
@[simp] theorem Dev.setECap_store_cached (v : Dev) (e : ECap) : (Dev.setECap v e).store.cached = v.store.cached := rfl
@[simp] theorem Dev.setECap_store_rebuilds (v : Dev) (e : ECap) : (Dev.setECap v e).store.rebuilds = v.store.rebuilds := rfl
@[simp] theorem Dev.setECap_store_jobs (v : Dev) (e : ECap) : (Dev.setECap v e).store.jobs = v.store.jobs := rfl
@[simp] theorem Dev.setECap_store_moved (v : Dev) (e : ECap) : (Dev.setECap v e).store.moved = v.store.moved := rfl
@[simp] theorem Dev.setECap_store_crcEvent (v : Dev) (e : ECap) : (Dev.setECap v e).store.crcEvent = v.store.crcEvent := rfl
@[simp] theorem Dev.setECap_store_scans (v : Dev) (e : ECap) : (Dev.setECap v e).store.scans = v.store.scans := rfl
@[simp] theorem Dev.setECap_store_scrubs (v : Dev) (e : ECap) : (Dev.setECap v e).store.scrubs = v.store.scrubs := rfl
@[simp] theorem Dev.setECap_store_hbm (v : Dev) (e : ECap) : (Dev.setECap v e).store.hbm = v.store.hbm := rfl
@[simp] theorem Dev.setECap_hf (v : Dev) (e : ECap) : (Dev.setECap v e).hf = v.hf := rfl
@[simp] theorem Dev.setECap_keySlots (v : Dev) (e : ECap) : (Dev.setECap v e).keySlots = v.keySlots := rfl
@[simp] theorem Dev.setECap_leases (v : Dev) (e : ECap) : (Dev.setECap v e).leases = v.leases := rfl
@[simp] theorem Dev.setECap_spireLeases (v : Dev) (e : ECap) : (Dev.setECap v e).spireLeases = v.spireLeases := rfl
@[simp] theorem Dev.setECap_ciphers (v : Dev) (e : ECap) : (Dev.setECap v e).ciphers = v.ciphers := rfl
@[simp] theorem Dev.setECap_sec (v : Dev) (e : ECap) : (Dev.setECap v e).sec = v.sec := rfl
@[simp] theorem Dev.setECap_chans (v : Dev) (e : ECap) : (Dev.setECap v e).chans = v.chans := rfl
@[simp] theorem Dev.setECap_faults (v : Dev) (e : ECap) : (Dev.setECap v e).faults = v.faults := rfl
@[simp] theorem Dev.setECap_recov (v : Dev) (e : ECap) : (Dev.setECap v e).recov = v.recov := rfl
@[simp] theorem Dev.setECap_fcLast (v : Dev) (e : ECap) : (Dev.setECap v e).fcLast = v.fcLast := rfl
@[simp] theorem Dev.setECap_floder (v : Dev) (e : ECap) : (Dev.setECap v e).floder = v.floder := rfl
@[simp] theorem Dev.setECap_ep (v : Dev) (e : ECap) : (Dev.setECap v e).ep = v.ep := rfl
@[simp] theorem Dev.setECap_pmon (v : Dev) (e : ECap) : (Dev.setECap v e).pmon = v.pmon := rfl
@[simp] theorem Dev.setECap_out (v : Dev) (e : ECap) : (Dev.setECap v e).out = v.out := rfl
@[simp] theorem Dev.setECap_freeTick (v : Dev) (e : ECap) : (Dev.setECap v e).freeTick = v.freeTick := rfl
@[simp] theorem Dev.setECap_nextId (v : Dev) (e : ECap) : (Dev.setECap v e).nextId = v.nextId := rfl

/-! ### The Headframe, keys, channels, leases, images -/

@[simp] theorem Dev.setHf_clk (v : Dev) (h : Headframe) : (Dev.setHf v h).clk = v.clk := rfl
@[simp] theorem Dev.setHf_winMem (v : Dev) (h : Headframe) : (Dev.setHf v h).winMem = v.winMem := rfl
@[simp] theorem Dev.setHf_chip (v : Dev) (h : Headframe) : (Dev.setHf v h).chip = v.chip := rfl
@[simp] theorem Dev.setHf_regs (v : Dev) (h : Headframe) : (Dev.setHf v h).regs = v.regs := rfl
@[simp] theorem Dev.setHf_hosts (v : Dev) (h : Headframe) : (Dev.setHf v h).hosts = v.hosts := rfl
@[simp] theorem Dev.setHf_store (v : Dev) (h : Headframe) : (Dev.setHf v h).store = v.store := rfl
@[simp] theorem Dev.setHf_keySlots (v : Dev) (h : Headframe) : (Dev.setHf v h).keySlots = v.keySlots := rfl
@[simp] theorem Dev.setHf_leases (v : Dev) (h : Headframe) : (Dev.setHf v h).leases = v.leases := rfl
@[simp] theorem Dev.setHf_spireLeases (v : Dev) (h : Headframe) : (Dev.setHf v h).spireLeases = v.spireLeases := rfl
@[simp] theorem Dev.setHf_ciphers (v : Dev) (h : Headframe) : (Dev.setHf v h).ciphers = v.ciphers := rfl
@[simp] theorem Dev.setHf_sec (v : Dev) (h : Headframe) : (Dev.setHf v h).sec = v.sec := rfl
@[simp] theorem Dev.setHf_chans (v : Dev) (h : Headframe) : (Dev.setHf v h).chans = v.chans := rfl
@[simp] theorem Dev.setHf_faults (v : Dev) (h : Headframe) : (Dev.setHf v h).faults = v.faults := rfl
@[simp] theorem Dev.setHf_recov (v : Dev) (h : Headframe) : (Dev.setHf v h).recov = v.recov := rfl
@[simp] theorem Dev.setHf_fcLast (v : Dev) (h : Headframe) : (Dev.setHf v h).fcLast = v.fcLast := rfl
@[simp] theorem Dev.setHf_floder (v : Dev) (h : Headframe) : (Dev.setHf v h).floder = v.floder := rfl
@[simp] theorem Dev.setHf_ep (v : Dev) (h : Headframe) : (Dev.setHf v h).ep = v.ep := rfl
@[simp] theorem Dev.setHf_pmon (v : Dev) (h : Headframe) : (Dev.setHf v h).pmon = v.pmon := rfl
@[simp] theorem Dev.setHf_out (v : Dev) (h : Headframe) : (Dev.setHf v h).out = v.out := rfl
@[simp] theorem Dev.setHf_freeTick (v : Dev) (h : Headframe) : (Dev.setHf v h).freeTick = v.freeTick := rfl
@[simp] theorem Dev.setHf_nextId (v : Dev) (h : Headframe) : (Dev.setHf v h).nextId = v.nextId := rfl
@[simp] theorem Dev.setKeySlot_clk (v : Dev) (n : Nat) (k : KeySlot) : (Dev.setKeySlot v n k).clk = v.clk := rfl
@[simp] theorem Dev.setKeySlot_winMem (v : Dev) (n : Nat) (k : KeySlot) : (Dev.setKeySlot v n k).winMem = v.winMem := rfl
@[simp] theorem Dev.setKeySlot_chip (v : Dev) (n : Nat) (k : KeySlot) : (Dev.setKeySlot v n k).chip = v.chip := rfl
@[simp] theorem Dev.setKeySlot_regs (v : Dev) (n : Nat) (k : KeySlot) : (Dev.setKeySlot v n k).regs = v.regs := rfl
@[simp] theorem Dev.setKeySlot_hosts (v : Dev) (n : Nat) (k : KeySlot) : (Dev.setKeySlot v n k).hosts = v.hosts := rfl
@[simp] theorem Dev.setKeySlot_store (v : Dev) (n : Nat) (k : KeySlot) : (Dev.setKeySlot v n k).store = v.store := rfl
@[simp] theorem Dev.setKeySlot_hf (v : Dev) (n : Nat) (k : KeySlot) : (Dev.setKeySlot v n k).hf = v.hf := rfl
@[simp] theorem Dev.setKeySlot_leases (v : Dev) (n : Nat) (k : KeySlot) : (Dev.setKeySlot v n k).leases = v.leases := rfl
@[simp] theorem Dev.setKeySlot_spireLeases (v : Dev) (n : Nat) (k : KeySlot) : (Dev.setKeySlot v n k).spireLeases = v.spireLeases := rfl
@[simp] theorem Dev.setKeySlot_ciphers (v : Dev) (n : Nat) (k : KeySlot) : (Dev.setKeySlot v n k).ciphers = v.ciphers := rfl
@[simp] theorem Dev.setKeySlot_sec (v : Dev) (n : Nat) (k : KeySlot) : (Dev.setKeySlot v n k).sec = v.sec := rfl
@[simp] theorem Dev.setKeySlot_chans (v : Dev) (n : Nat) (k : KeySlot) : (Dev.setKeySlot v n k).chans = v.chans := rfl
@[simp] theorem Dev.setKeySlot_faults (v : Dev) (n : Nat) (k : KeySlot) : (Dev.setKeySlot v n k).faults = v.faults := rfl
@[simp] theorem Dev.setKeySlot_recov (v : Dev) (n : Nat) (k : KeySlot) : (Dev.setKeySlot v n k).recov = v.recov := rfl
@[simp] theorem Dev.setKeySlot_fcLast (v : Dev) (n : Nat) (k : KeySlot) : (Dev.setKeySlot v n k).fcLast = v.fcLast := rfl
@[simp] theorem Dev.setKeySlot_floder (v : Dev) (n : Nat) (k : KeySlot) : (Dev.setKeySlot v n k).floder = v.floder := rfl
@[simp] theorem Dev.setKeySlot_ep (v : Dev) (n : Nat) (k : KeySlot) : (Dev.setKeySlot v n k).ep = v.ep := rfl
@[simp] theorem Dev.setKeySlot_pmon (v : Dev) (n : Nat) (k : KeySlot) : (Dev.setKeySlot v n k).pmon = v.pmon := rfl
@[simp] theorem Dev.setKeySlot_out (v : Dev) (n : Nat) (k : KeySlot) : (Dev.setKeySlot v n k).out = v.out := rfl
@[simp] theorem Dev.setKeySlot_freeTick (v : Dev) (n : Nat) (k : KeySlot) : (Dev.setKeySlot v n k).freeTick = v.freeTick := rfl
@[simp] theorem Dev.setKeySlot_nextId (v : Dev) (n : Nat) (k : KeySlot) : (Dev.setKeySlot v n k).nextId = v.nextId := rfl
@[simp] theorem Dev.setCipher_clk (v : Dev) (s : Nat) (c : Cipher) : (Dev.setCipher v s c).clk = v.clk := rfl
@[simp] theorem Dev.setCipher_winMem (v : Dev) (s : Nat) (c : Cipher) : (Dev.setCipher v s c).winMem = v.winMem := rfl
@[simp] theorem Dev.setCipher_chip (v : Dev) (s : Nat) (c : Cipher) : (Dev.setCipher v s c).chip = v.chip := rfl
@[simp] theorem Dev.setCipher_regs (v : Dev) (s : Nat) (c : Cipher) : (Dev.setCipher v s c).regs = v.regs := rfl
@[simp] theorem Dev.setCipher_hosts (v : Dev) (s : Nat) (c : Cipher) : (Dev.setCipher v s c).hosts = v.hosts := rfl
@[simp] theorem Dev.setCipher_store (v : Dev) (s : Nat) (c : Cipher) : (Dev.setCipher v s c).store = v.store := rfl
@[simp] theorem Dev.setCipher_hf (v : Dev) (s : Nat) (c : Cipher) : (Dev.setCipher v s c).hf = v.hf := rfl
@[simp] theorem Dev.setCipher_keySlots (v : Dev) (s : Nat) (c : Cipher) : (Dev.setCipher v s c).keySlots = v.keySlots := rfl
@[simp] theorem Dev.setCipher_leases (v : Dev) (s : Nat) (c : Cipher) : (Dev.setCipher v s c).leases = v.leases := rfl
@[simp] theorem Dev.setCipher_spireLeases (v : Dev) (s : Nat) (c : Cipher) : (Dev.setCipher v s c).spireLeases = v.spireLeases := rfl
@[simp] theorem Dev.setCipher_sec (v : Dev) (s : Nat) (c : Cipher) : (Dev.setCipher v s c).sec = v.sec := rfl
@[simp] theorem Dev.setCipher_chans (v : Dev) (s : Nat) (c : Cipher) : (Dev.setCipher v s c).chans = v.chans := rfl
@[simp] theorem Dev.setCipher_faults (v : Dev) (s : Nat) (c : Cipher) : (Dev.setCipher v s c).faults = v.faults := rfl
@[simp] theorem Dev.setCipher_recov (v : Dev) (s : Nat) (c : Cipher) : (Dev.setCipher v s c).recov = v.recov := rfl
@[simp] theorem Dev.setCipher_fcLast (v : Dev) (s : Nat) (c : Cipher) : (Dev.setCipher v s c).fcLast = v.fcLast := rfl
@[simp] theorem Dev.setCipher_floder (v : Dev) (s : Nat) (c : Cipher) : (Dev.setCipher v s c).floder = v.floder := rfl
@[simp] theorem Dev.setCipher_ep (v : Dev) (s : Nat) (c : Cipher) : (Dev.setCipher v s c).ep = v.ep := rfl
@[simp] theorem Dev.setCipher_pmon (v : Dev) (s : Nat) (c : Cipher) : (Dev.setCipher v s c).pmon = v.pmon := rfl
@[simp] theorem Dev.setCipher_out (v : Dev) (s : Nat) (c : Cipher) : (Dev.setCipher v s c).out = v.out := rfl
@[simp] theorem Dev.setCipher_freeTick (v : Dev) (s : Nat) (c : Cipher) : (Dev.setCipher v s c).freeTick = v.freeTick := rfl
@[simp] theorem Dev.setCipher_nextId (v : Dev) (s : Nat) (c : Cipher) : (Dev.setCipher v s c).nextId = v.nextId := rfl
@[simp] theorem Dev.setLease_clk (v : Dev) (l : SpireLease) : (Dev.setLease v l).clk = v.clk := rfl
@[simp] theorem Dev.setLease_winMem (v : Dev) (l : SpireLease) : (Dev.setLease v l).winMem = v.winMem := rfl
@[simp] theorem Dev.setLease_chip (v : Dev) (l : SpireLease) : (Dev.setLease v l).chip = v.chip := rfl
@[simp] theorem Dev.setLease_regs (v : Dev) (l : SpireLease) : (Dev.setLease v l).regs = v.regs := rfl
@[simp] theorem Dev.setLease_hosts (v : Dev) (l : SpireLease) : (Dev.setLease v l).hosts = v.hosts := rfl
@[simp] theorem Dev.setLease_store (v : Dev) (l : SpireLease) : (Dev.setLease v l).store = v.store := rfl
@[simp] theorem Dev.setLease_hf (v : Dev) (l : SpireLease) : (Dev.setLease v l).hf = v.hf := rfl
@[simp] theorem Dev.setLease_keySlots (v : Dev) (l : SpireLease) : (Dev.setLease v l).keySlots = v.keySlots := rfl
@[simp] theorem Dev.setLease_leases (v : Dev) (l : SpireLease) : (Dev.setLease v l).leases = v.leases := rfl
@[simp] theorem Dev.setLease_ciphers (v : Dev) (l : SpireLease) : (Dev.setLease v l).ciphers = v.ciphers := rfl
@[simp] theorem Dev.setLease_sec (v : Dev) (l : SpireLease) : (Dev.setLease v l).sec = v.sec := rfl
@[simp] theorem Dev.setLease_chans (v : Dev) (l : SpireLease) : (Dev.setLease v l).chans = v.chans := rfl
@[simp] theorem Dev.setLease_faults (v : Dev) (l : SpireLease) : (Dev.setLease v l).faults = v.faults := rfl
@[simp] theorem Dev.setLease_recov (v : Dev) (l : SpireLease) : (Dev.setLease v l).recov = v.recov := rfl
@[simp] theorem Dev.setLease_fcLast (v : Dev) (l : SpireLease) : (Dev.setLease v l).fcLast = v.fcLast := rfl
@[simp] theorem Dev.setLease_floder (v : Dev) (l : SpireLease) : (Dev.setLease v l).floder = v.floder := rfl
@[simp] theorem Dev.setLease_ep (v : Dev) (l : SpireLease) : (Dev.setLease v l).ep = v.ep := rfl
@[simp] theorem Dev.setLease_pmon (v : Dev) (l : SpireLease) : (Dev.setLease v l).pmon = v.pmon := rfl
@[simp] theorem Dev.setLease_out (v : Dev) (l : SpireLease) : (Dev.setLease v l).out = v.out := rfl
@[simp] theorem Dev.setLease_freeTick (v : Dev) (l : SpireLease) : (Dev.setLease v l).freeTick = v.freeTick := rfl
@[simp] theorem Dev.setLease_nextId (v : Dev) (l : SpireLease) : (Dev.setLease v l).nextId = v.nextId := rfl
@[simp] theorem Dev.setChan_clk (v : Dev) (c : Nat) (x : Channel) : (Dev.setChan v c x).clk = v.clk := rfl
@[simp] theorem Dev.setChan_winMem (v : Dev) (c : Nat) (x : Channel) : (Dev.setChan v c x).winMem = v.winMem := rfl
@[simp] theorem Dev.setChan_chip (v : Dev) (c : Nat) (x : Channel) : (Dev.setChan v c x).chip = v.chip := rfl
@[simp] theorem Dev.setChan_regs (v : Dev) (c : Nat) (x : Channel) : (Dev.setChan v c x).regs = v.regs := rfl
@[simp] theorem Dev.setChan_hosts (v : Dev) (c : Nat) (x : Channel) : (Dev.setChan v c x).hosts = v.hosts := rfl
@[simp] theorem Dev.setChan_store (v : Dev) (c : Nat) (x : Channel) : (Dev.setChan v c x).store = v.store := rfl
@[simp] theorem Dev.setChan_hf (v : Dev) (c : Nat) (x : Channel) : (Dev.setChan v c x).hf = v.hf := rfl
@[simp] theorem Dev.setChan_keySlots (v : Dev) (c : Nat) (x : Channel) : (Dev.setChan v c x).keySlots = v.keySlots := rfl
@[simp] theorem Dev.setChan_leases (v : Dev) (c : Nat) (x : Channel) : (Dev.setChan v c x).leases = v.leases := rfl
@[simp] theorem Dev.setChan_spireLeases (v : Dev) (c : Nat) (x : Channel) : (Dev.setChan v c x).spireLeases = v.spireLeases := rfl
@[simp] theorem Dev.setChan_ciphers (v : Dev) (c : Nat) (x : Channel) : (Dev.setChan v c x).ciphers = v.ciphers := rfl
@[simp] theorem Dev.setChan_sec (v : Dev) (c : Nat) (x : Channel) : (Dev.setChan v c x).sec = v.sec := rfl
@[simp] theorem Dev.setChan_faults (v : Dev) (c : Nat) (x : Channel) : (Dev.setChan v c x).faults = v.faults := rfl
@[simp] theorem Dev.setChan_recov (v : Dev) (c : Nat) (x : Channel) : (Dev.setChan v c x).recov = v.recov := rfl
@[simp] theorem Dev.setChan_fcLast (v : Dev) (c : Nat) (x : Channel) : (Dev.setChan v c x).fcLast = v.fcLast := rfl
@[simp] theorem Dev.setChan_floder (v : Dev) (c : Nat) (x : Channel) : (Dev.setChan v c x).floder = v.floder := rfl
@[simp] theorem Dev.setChan_ep (v : Dev) (c : Nat) (x : Channel) : (Dev.setChan v c x).ep = v.ep := rfl
@[simp] theorem Dev.setChan_pmon (v : Dev) (c : Nat) (x : Channel) : (Dev.setChan v c x).pmon = v.pmon := rfl
@[simp] theorem Dev.setChan_out (v : Dev) (c : Nat) (x : Channel) : (Dev.setChan v c x).out = v.out := rfl
@[simp] theorem Dev.setChan_freeTick (v : Dev) (c : Nat) (x : Channel) : (Dev.setChan v c x).freeTick = v.freeTick := rfl
@[simp] theorem Dev.setChan_nextId (v : Dev) (c : Nat) (x : Channel) : (Dev.setChan v c x).nextId = v.nextId := rfl
@[simp] theorem Dev.takeRecov_clk (v : Dev) (l : LeaseRef) (due : Nat) : (Dev.takeRecov v l due).clk = v.clk := rfl
@[simp] theorem Dev.takeRecov_winMem (v : Dev) (l : LeaseRef) (due : Nat) : (Dev.takeRecov v l due).winMem = v.winMem := rfl
@[simp] theorem Dev.takeRecov_chip (v : Dev) (l : LeaseRef) (due : Nat) : (Dev.takeRecov v l due).chip = v.chip := rfl
@[simp] theorem Dev.takeRecov_regs (v : Dev) (l : LeaseRef) (due : Nat) : (Dev.takeRecov v l due).regs = v.regs := rfl
@[simp] theorem Dev.takeRecov_hosts (v : Dev) (l : LeaseRef) (due : Nat) : (Dev.takeRecov v l due).hosts = v.hosts := rfl
@[simp] theorem Dev.takeRecov_store (v : Dev) (l : LeaseRef) (due : Nat) : (Dev.takeRecov v l due).store = v.store := rfl
@[simp] theorem Dev.takeRecov_hf (v : Dev) (l : LeaseRef) (due : Nat) : (Dev.takeRecov v l due).hf = v.hf := rfl
@[simp] theorem Dev.takeRecov_keySlots (v : Dev) (l : LeaseRef) (due : Nat) : (Dev.takeRecov v l due).keySlots = v.keySlots := rfl
@[simp] theorem Dev.takeRecov_leases (v : Dev) (l : LeaseRef) (due : Nat) : (Dev.takeRecov v l due).leases = v.leases := rfl
@[simp] theorem Dev.takeRecov_spireLeases (v : Dev) (l : LeaseRef) (due : Nat) : (Dev.takeRecov v l due).spireLeases = v.spireLeases := rfl
@[simp] theorem Dev.takeRecov_ciphers (v : Dev) (l : LeaseRef) (due : Nat) : (Dev.takeRecov v l due).ciphers = v.ciphers := rfl
@[simp] theorem Dev.takeRecov_sec (v : Dev) (l : LeaseRef) (due : Nat) : (Dev.takeRecov v l due).sec = v.sec := rfl
@[simp] theorem Dev.takeRecov_chans (v : Dev) (l : LeaseRef) (due : Nat) : (Dev.takeRecov v l due).chans = v.chans := rfl
@[simp] theorem Dev.takeRecov_faults (v : Dev) (l : LeaseRef) (due : Nat) : (Dev.takeRecov v l due).faults = v.faults := rfl
@[simp] theorem Dev.takeRecov_fcLast (v : Dev) (l : LeaseRef) (due : Nat) : (Dev.takeRecov v l due).fcLast = v.fcLast := rfl
@[simp] theorem Dev.takeRecov_floder (v : Dev) (l : LeaseRef) (due : Nat) : (Dev.takeRecov v l due).floder = v.floder := rfl
@[simp] theorem Dev.takeRecov_ep (v : Dev) (l : LeaseRef) (due : Nat) : (Dev.takeRecov v l due).ep = v.ep := rfl
@[simp] theorem Dev.takeRecov_pmon (v : Dev) (l : LeaseRef) (due : Nat) : (Dev.takeRecov v l due).pmon = v.pmon := rfl
@[simp] theorem Dev.takeRecov_out (v : Dev) (l : LeaseRef) (due : Nat) : (Dev.takeRecov v l due).out = v.out := rfl
@[simp] theorem Dev.takeRecov_freeTick (v : Dev) (l : LeaseRef) (due : Nat) : (Dev.takeRecov v l due).freeTick = v.freeTick := rfl
@[simp] theorem Dev.takeRecov_nextId (v : Dev) (l : LeaseRef) (due : Nat) : (Dev.takeRecov v l due).nextId = v.nextId := rfl
@[simp] theorem Dev.dropRecov_clk (v : Dev) (l : LeaseRef) : (Dev.dropRecov v l).clk = v.clk := rfl
@[simp] theorem Dev.dropRecov_winMem (v : Dev) (l : LeaseRef) : (Dev.dropRecov v l).winMem = v.winMem := rfl
@[simp] theorem Dev.dropRecov_chip (v : Dev) (l : LeaseRef) : (Dev.dropRecov v l).chip = v.chip := rfl
@[simp] theorem Dev.dropRecov_regs (v : Dev) (l : LeaseRef) : (Dev.dropRecov v l).regs = v.regs := rfl
@[simp] theorem Dev.dropRecov_hosts (v : Dev) (l : LeaseRef) : (Dev.dropRecov v l).hosts = v.hosts := rfl
@[simp] theorem Dev.dropRecov_store (v : Dev) (l : LeaseRef) : (Dev.dropRecov v l).store = v.store := rfl
@[simp] theorem Dev.dropRecov_hf (v : Dev) (l : LeaseRef) : (Dev.dropRecov v l).hf = v.hf := rfl
@[simp] theorem Dev.dropRecov_keySlots (v : Dev) (l : LeaseRef) : (Dev.dropRecov v l).keySlots = v.keySlots := rfl
@[simp] theorem Dev.dropRecov_leases (v : Dev) (l : LeaseRef) : (Dev.dropRecov v l).leases = v.leases := rfl
@[simp] theorem Dev.dropRecov_spireLeases (v : Dev) (l : LeaseRef) : (Dev.dropRecov v l).spireLeases = v.spireLeases := rfl
@[simp] theorem Dev.dropRecov_ciphers (v : Dev) (l : LeaseRef) : (Dev.dropRecov v l).ciphers = v.ciphers := rfl
@[simp] theorem Dev.dropRecov_sec (v : Dev) (l : LeaseRef) : (Dev.dropRecov v l).sec = v.sec := rfl
@[simp] theorem Dev.dropRecov_chans (v : Dev) (l : LeaseRef) : (Dev.dropRecov v l).chans = v.chans := rfl
@[simp] theorem Dev.dropRecov_faults (v : Dev) (l : LeaseRef) : (Dev.dropRecov v l).faults = v.faults := rfl
@[simp] theorem Dev.dropRecov_fcLast (v : Dev) (l : LeaseRef) : (Dev.dropRecov v l).fcLast = v.fcLast := rfl
@[simp] theorem Dev.dropRecov_floder (v : Dev) (l : LeaseRef) : (Dev.dropRecov v l).floder = v.floder := rfl
@[simp] theorem Dev.dropRecov_ep (v : Dev) (l : LeaseRef) : (Dev.dropRecov v l).ep = v.ep := rfl
@[simp] theorem Dev.dropRecov_pmon (v : Dev) (l : LeaseRef) : (Dev.dropRecov v l).pmon = v.pmon := rfl
@[simp] theorem Dev.dropRecov_out (v : Dev) (l : LeaseRef) : (Dev.dropRecov v l).out = v.out := rfl
@[simp] theorem Dev.dropRecov_freeTick (v : Dev) (l : LeaseRef) : (Dev.dropRecov v l).freeTick = v.freeTick := rfl
@[simp] theorem Dev.dropRecov_nextId (v : Dev) (l : LeaseRef) : (Dev.dropRecov v l).nextId = v.nextId := rfl
@[simp] theorem Dev.unhold_clk (v : Dev) (covers : BitVec 32 → Bool) : (Dev.unhold v covers).clk = v.clk := rfl
@[simp] theorem Dev.unhold_winMem (v : Dev) (covers : BitVec 32 → Bool) : (Dev.unhold v covers).winMem = v.winMem := rfl
@[simp] theorem Dev.unhold_chip (v : Dev) (covers : BitVec 32 → Bool) : (Dev.unhold v covers).chip = v.chip := rfl
@[simp] theorem Dev.unhold_regs (v : Dev) (covers : BitVec 32 → Bool) : (Dev.unhold v covers).regs = v.regs := rfl
@[simp] theorem Dev.unhold_hosts (v : Dev) (covers : BitVec 32 → Bool) : (Dev.unhold v covers).hosts = v.hosts := rfl
@[simp] theorem Dev.unhold_store (v : Dev) (covers : BitVec 32 → Bool) : (Dev.unhold v covers).store = v.store := rfl
@[simp] theorem Dev.unhold_hf (v : Dev) (covers : BitVec 32 → Bool) : (Dev.unhold v covers).hf = v.hf := rfl
@[simp] theorem Dev.unhold_keySlots (v : Dev) (covers : BitVec 32 → Bool) : (Dev.unhold v covers).keySlots = v.keySlots := rfl
@[simp] theorem Dev.unhold_leases (v : Dev) (covers : BitVec 32 → Bool) : (Dev.unhold v covers).leases = v.leases := rfl
@[simp] theorem Dev.unhold_spireLeases (v : Dev) (covers : BitVec 32 → Bool) : (Dev.unhold v covers).spireLeases = v.spireLeases := rfl
@[simp] theorem Dev.unhold_ciphers (v : Dev) (covers : BitVec 32 → Bool) : (Dev.unhold v covers).ciphers = v.ciphers := rfl
@[simp] theorem Dev.unhold_sec (v : Dev) (covers : BitVec 32 → Bool) : (Dev.unhold v covers).sec = v.sec := rfl
@[simp] theorem Dev.unhold_chans (v : Dev) (covers : BitVec 32 → Bool) : (Dev.unhold v covers).chans = v.chans := rfl
@[simp] theorem Dev.unhold_recov (v : Dev) (covers : BitVec 32 → Bool) : (Dev.unhold v covers).recov = v.recov := rfl
@[simp] theorem Dev.unhold_fcLast (v : Dev) (covers : BitVec 32 → Bool) : (Dev.unhold v covers).fcLast = v.fcLast := rfl
@[simp] theorem Dev.unhold_floder (v : Dev) (covers : BitVec 32 → Bool) : (Dev.unhold v covers).floder = v.floder := rfl
@[simp] theorem Dev.unhold_ep (v : Dev) (covers : BitVec 32 → Bool) : (Dev.unhold v covers).ep = v.ep := rfl
@[simp] theorem Dev.unhold_pmon (v : Dev) (covers : BitVec 32 → Bool) : (Dev.unhold v covers).pmon = v.pmon := rfl
@[simp] theorem Dev.unhold_out (v : Dev) (covers : BitVec 32 → Bool) : (Dev.unhold v covers).out = v.out := rfl
@[simp] theorem Dev.unhold_freeTick (v : Dev) (covers : BitVec 32 → Bool) : (Dev.unhold v covers).freeTick = v.freeTick := rfl
@[simp] theorem Dev.unhold_nextId (v : Dev) (covers : BitVec 32 → Bool) : (Dev.unhold v covers).nextId = v.nextId := rfl
@[simp] theorem Dev.setOther_clk (v : Dev) (i : Image) : (Dev.setOther v i).clk = v.clk := rfl
@[simp] theorem Dev.setOther_winMem (v : Dev) (i : Image) : (Dev.setOther v i).winMem = v.winMem := rfl
@[simp] theorem Dev.setOther_chip (v : Dev) (i : Image) : (Dev.setOther v i).chip = v.chip := rfl
@[simp] theorem Dev.setOther_regs (v : Dev) (i : Image) : (Dev.setOther v i).regs = v.regs := rfl
@[simp] theorem Dev.setOther_hosts (v : Dev) (i : Image) : (Dev.setOther v i).hosts = v.hosts := rfl
@[simp] theorem Dev.setOther_store (v : Dev) (i : Image) : (Dev.setOther v i).store = v.store := rfl
@[simp] theorem Dev.setOther_hf (v : Dev) (i : Image) : (Dev.setOther v i).hf = v.hf := rfl
@[simp] theorem Dev.setOther_keySlots (v : Dev) (i : Image) : (Dev.setOther v i).keySlots = v.keySlots := rfl
@[simp] theorem Dev.setOther_leases (v : Dev) (i : Image) : (Dev.setOther v i).leases = v.leases := rfl
@[simp] theorem Dev.setOther_spireLeases (v : Dev) (i : Image) : (Dev.setOther v i).spireLeases = v.spireLeases := rfl
@[simp] theorem Dev.setOther_ciphers (v : Dev) (i : Image) : (Dev.setOther v i).ciphers = v.ciphers := rfl
@[simp] theorem Dev.setOther_chans (v : Dev) (i : Image) : (Dev.setOther v i).chans = v.chans := rfl
@[simp] theorem Dev.setOther_faults (v : Dev) (i : Image) : (Dev.setOther v i).faults = v.faults := rfl
@[simp] theorem Dev.setOther_recov (v : Dev) (i : Image) : (Dev.setOther v i).recov = v.recov := rfl
@[simp] theorem Dev.setOther_fcLast (v : Dev) (i : Image) : (Dev.setOther v i).fcLast = v.fcLast := rfl
@[simp] theorem Dev.setOther_floder (v : Dev) (i : Image) : (Dev.setOther v i).floder = v.floder := rfl
@[simp] theorem Dev.setOther_ep (v : Dev) (i : Image) : (Dev.setOther v i).ep = v.ep := rfl
@[simp] theorem Dev.setOther_pmon (v : Dev) (i : Image) : (Dev.setOther v i).pmon = v.pmon := rfl
@[simp] theorem Dev.setOther_out (v : Dev) (i : Image) : (Dev.setOther v i).out = v.out := rfl
@[simp] theorem Dev.setOther_freeTick (v : Dev) (i : Image) : (Dev.setOther v i).freeTick = v.freeTick := rfl
@[simp] theorem Dev.setOther_nextId (v : Dev) (i : Image) : (Dev.setOther v i).nextId = v.nextId := rfl

/-! ### The Floder and the endpoint -/

@[simp] theorem Dev.setRing_clk (v : Dev) (r : Nat) (x : Ring) : (Dev.setRing v r x).clk = v.clk := rfl
@[simp] theorem Dev.setRing_winMem (v : Dev) (r : Nat) (x : Ring) : (Dev.setRing v r x).winMem = v.winMem := rfl
@[simp] theorem Dev.setRing_chip (v : Dev) (r : Nat) (x : Ring) : (Dev.setRing v r x).chip = v.chip := rfl
@[simp] theorem Dev.setRing_regs (v : Dev) (r : Nat) (x : Ring) : (Dev.setRing v r x).regs = v.regs := rfl
@[simp] theorem Dev.setRing_hosts (v : Dev) (r : Nat) (x : Ring) : (Dev.setRing v r x).hosts = v.hosts := rfl
@[simp] theorem Dev.setRing_store (v : Dev) (r : Nat) (x : Ring) : (Dev.setRing v r x).store = v.store := rfl
@[simp] theorem Dev.setRing_hf (v : Dev) (r : Nat) (x : Ring) : (Dev.setRing v r x).hf = v.hf := rfl
@[simp] theorem Dev.setRing_keySlots (v : Dev) (r : Nat) (x : Ring) : (Dev.setRing v r x).keySlots = v.keySlots := rfl
@[simp] theorem Dev.setRing_leases (v : Dev) (r : Nat) (x : Ring) : (Dev.setRing v r x).leases = v.leases := rfl
@[simp] theorem Dev.setRing_spireLeases (v : Dev) (r : Nat) (x : Ring) : (Dev.setRing v r x).spireLeases = v.spireLeases := rfl
@[simp] theorem Dev.setRing_ciphers (v : Dev) (r : Nat) (x : Ring) : (Dev.setRing v r x).ciphers = v.ciphers := rfl
@[simp] theorem Dev.setRing_sec (v : Dev) (r : Nat) (x : Ring) : (Dev.setRing v r x).sec = v.sec := rfl
@[simp] theorem Dev.setRing_chans (v : Dev) (r : Nat) (x : Ring) : (Dev.setRing v r x).chans = v.chans := rfl
@[simp] theorem Dev.setRing_faults (v : Dev) (r : Nat) (x : Ring) : (Dev.setRing v r x).faults = v.faults := rfl
@[simp] theorem Dev.setRing_recov (v : Dev) (r : Nat) (x : Ring) : (Dev.setRing v r x).recov = v.recov := rfl
@[simp] theorem Dev.setRing_fcLast (v : Dev) (r : Nat) (x : Ring) : (Dev.setRing v r x).fcLast = v.fcLast := rfl
@[simp] theorem Dev.setRing_floder_inbox (v : Dev) (r : Nat) (x : Ring) : (Dev.setRing v r x).floder.inbox = v.floder.inbox := rfl
@[simp] theorem Dev.setRing_floder_cmds (v : Dev) (r : Nat) (x : Ring) : (Dev.setRing v r x).floder.cmds = v.floder.cmds := rfl
@[simp] theorem Dev.setRing_floder_replies (v : Dev) (r : Nat) (x : Ring) : (Dev.setRing v r x).floder.replies = v.floder.replies := rfl
@[simp] theorem Dev.setRing_floder_warmAsked (v : Dev) (r : Nat) (x : Ring) : (Dev.setRing v r x).floder.warmAsked = v.floder.warmAsked := rfl
@[simp] theorem Dev.setRing_ep (v : Dev) (r : Nat) (x : Ring) : (Dev.setRing v r x).ep = v.ep := rfl
@[simp] theorem Dev.setRing_pmon (v : Dev) (r : Nat) (x : Ring) : (Dev.setRing v r x).pmon = v.pmon := rfl
@[simp] theorem Dev.setRing_out (v : Dev) (r : Nat) (x : Ring) : (Dev.setRing v r x).out = v.out := rfl
@[simp] theorem Dev.setRing_freeTick (v : Dev) (r : Nat) (x : Ring) : (Dev.setRing v r x).freeTick = v.freeTick := rfl
@[simp] theorem Dev.setRing_nextId (v : Dev) (r : Nat) (x : Ring) : (Dev.setRing v r x).nextId = v.nextId := rfl

/-! ### The sparse tables -/

/-- An entry set reads back. -/
@[simp] theorem Tab.get_set {α : Type} (t : Tab α) (n : Nat) (x : α) : Tab.get (Tab.set t n x) n = some x := by
  induction t with
  | nil => simp [Tab.set, Tab.get]
  | cons a t ih =>
    obtain ⟨k, y⟩ := a
    simp only [Tab.set]
    repeat' split
    all_goals grind [Tab.get]

/-- Setting one entry leaves every other as it was. -/
theorem Tab.get_set_ne {α : Type} (t : Tab α) {n m : Nat} (x : α) (h : m ≠ n) : Tab.get (Tab.set t n x) m = Tab.get t m := by
  induction t with
  | nil => simp [Tab.set, Tab.get]; omega
  | cons a t ih =>
    obtain ⟨k, y⟩ := a
    simp only [Tab.set]
    repeat' split
    all_goals grind [Tab.get]

@[simp] theorem Tab.getD_set {α : Type} (t : Tab α) (n : Nat) (x d : α) : Tab.getD (Tab.set t n x) n d = x := by
  simp [Tab.getD]

theorem Tab.getD_set_ne {α : Type} (t : Tab α) {n m : Nat} (x d : α) (h : m ≠ n) :
    Tab.getD (Tab.set t n x) m d = Tab.getD t m d := by
  simp [Tab.getD, Tab.get_set_ne t x h]

/-- A changed entry reads changed; an entry that is not listed stays so. -/
theorem Tab.get_adjust {α : Type} (t : Tab α) (n m : Nat) (f : α → α) :
    Tab.get (Tab.adjust t n f) m = if m = n then (Tab.get t m).map f else Tab.get t m := by
  induction t with
  | nil => simp [Tab.adjust, Tab.get]
  | cons a t ih =>
    obtain ⟨k, y⟩ := a
    simp only [Tab.adjust, List.map_cons, Tab.get] at ih ⊢
    grind [Tab.get]

/-- A deleted key is no longer listed, every other reads as it did. -/
theorem Tab.get_del {α : Type} (t : Tab α) (n m : Nat) : Tab.get (Tab.del t n) m = if m = n then none else Tab.get t m := by
  induction t with
  | nil => simp [Tab.del, Tab.get]
  | cons a t ih =>
    obtain ⟨k, y⟩ := a
    simp only [Tab.del, List.filter_cons] at ih ⊢
    grind [Tab.get]

/-! ### What an update writes reads back -/

@[simp] theorem State.on_eq (s : State) (f : Dev → Dev) : s.on f = .next (s.withDev (f s.dev)) := rfl
@[simp] theorem State.withDev_dev (s : State) (v : Dev) : (s.withDev v).dev = v := rfl
@[simp] theorem State.withDev_pending (s : State) (v : Dev) : (s.withDev v).pending = s.pending := rfl
@[simp] theorem Dev.session_setSession (v : Dev) (n : Nat) (x : Session) : (v.setSession n x).session n = some x := by
  simp [Dev.session, Dev.setSession]
theorem Dev.session_setSession_ne (v : Dev) {n m : Nat} (x : Session) (h : m ≠ n) :
    (v.setSession n x).session m = v.session m := by
  simp [Dev.session, Dev.setSession, Tab.get_set_ne _ _ h]
@[simp] theorem Dev.qp_setQp (v : Dev) (n : Nat) (x : Qp) : (v.setQp n x).qp n = some x := by simp [Dev.qp, Dev.setQp]
theorem Dev.qp_setQp_ne (v : Dev) {n m : Nat} (x : Qp) (h : m ≠ n) : (v.setQp n x).qp m = v.qp m := by
  simp [Dev.qp, Dev.setQp, Tab.get_set_ne _ _ h]
@[simp] theorem Dev.ring_setRing (v : Dev) (n : Nat) (x : Ring) : (v.setRing n x).ring n = x := by
  simp [Dev.ring, Dev.setRing]
theorem Dev.ring_setRing_ne (v : Dev) {n m : Nat} (x : Ring) (h : m ≠ n) : (v.setRing n x).ring m = v.ring m := by
  simp [Dev.ring, Dev.setRing, Tab.getD_set_ne _ _ _ h]
@[simp] theorem Dev.spire_setSpire (v : Dev) (n : Nat) (x : SpireRec) : (v.setSpire n x).spire n = x := by
  simp [Dev.spire, Dev.setSpire]
theorem Dev.spire_setSpire_ne (v : Dev) {n m : Nat} (x : SpireRec) (h : m ≠ n) : (v.setSpire n x).spire m = v.spire m := by
  simp [Dev.spire, Dev.setSpire, Tab.getD_set_ne _ _ _ h]
@[simp] theorem Dev.keep_setKeep (v : Dev) (k : KeepId) (x : KeepRec) : (v.setKeep k x).keep k = x := by cases k <;> rfl
theorem Dev.keep_setKeep_ne (v : Dev) {k l : KeepId} (x : KeepRec) (h : l ≠ k) : (v.setKeep k x).keep l = v.keep l := by
  cases k <;> cases l <;> first | rfl | exact absurd rfl h
@[simp] theorem Dev.func_setFunc (v : Dev) (p : Pf) (x : Func) : (v.setFunc p x).func p = x := by cases p <;> rfl
theorem Dev.func_setFunc_ne (v : Dev) {p q : Pf} (x : Func) (h : q ≠ p) : (v.setFunc p x).func q = v.func q := by
  cases p <;> cases q <;> first | rfl | exact absurd rfl h
@[simp] theorem Dev.keySlot_setKeySlot (v : Dev) (n : Nat) (x : KeySlot) : (v.setKeySlot n x).keySlot n = x := by
  simp [Dev.keySlot, Dev.setKeySlot]
theorem Dev.keySlot_setKeySlot_ne (v : Dev) {n m : Nat} (x : KeySlot) (h : m ≠ n) :
    (v.setKeySlot n x).keySlot m = v.keySlot m := by
  simp [Dev.keySlot, Dev.setKeySlot, Tab.getD_set_ne _ _ _ h]
@[simp] theorem Dev.chan_setChan (v : Dev) (n : Nat) (x : Channel) : (v.setChan n x).chan n = x := by
  simp [Dev.chan, Dev.setChan]
theorem Dev.chan_setChan_ne (v : Dev) {n m : Nat} (x : Channel) (h : m ≠ n) : (v.setChan n x).chan m = v.chan m := by
  simp [Dev.chan, Dev.setChan, Tab.getD_set_ne _ _ _ h]
@[simp] theorem Dev.bay_setBay (v : Dev) (n : Nat) (x : BayRec) : (v.setBay n x).bay n = x := by simp [Dev.bay, Dev.setBay]
theorem Dev.bay_setBay_ne (v : Dev) {n m : Nat} (x : BayRec) (h : m ≠ n) : (v.setBay n x).bay m = v.bay m := by
  simp [Dev.bay, Dev.setBay, Tab.getD_set_ne _ _ _ h]
@[simp] theorem Dev.port_setPort (v : Dev) (n : Nat) (x : NetPort) : (v.setPort n x).port n = x := by
  simp [Dev.port, Dev.setPort]
theorem Dev.port_setPort_ne (v : Dev) {n m : Nat} (x : NetPort) (h : m ≠ n) : (v.setPort n x).port m = v.port m := by
  simp [Dev.port, Dev.setPort, Tab.getD_set_ne _ _ _ h]
@[simp] theorem Dev.eg_setEg (v : Dev) (n k : Nat) (x : Egress) : (v.setEg n k x).eg n k = x := by
  simp [Dev.eg, Dev.setEg]
@[simp] theorem Dev.sched_setSched (v : Dev) (n : Nat) (x : Sched) : (v.setSched n x).sched n = x := by
  simp [Dev.sched, Dev.setSched]
@[simp] theorem Dev.scrub_setScrub (v : Dev) (n : Nat) (x : Scrub) : (v.setScrub n x).scrub n = x := by
  simp [Dev.scrub, Dev.setScrub]
@[simp] theorem Dev.hum_setHum (v : Dev) (n : Nat) (x : HumState) : (v.setHum n x).hum n = x := by
  simp [Dev.hum, Dev.setHum]
@[simp] theorem Dev.counter_setCounter (v : Dev) (n : Nat) (x : Counter) : (v.setCounter n x).counter n = x := by
  simp [Dev.counter, Dev.setCounter]
@[simp] theorem Dev.page_setPage (v : Dev) (n : Nat) (x : PageState) : (v.setPage n x).page n = x := by
  simp [Dev.page, Dev.setPage]
@[simp] theorem Dev.chain_setChain (v : Dev) (n : Nat) (x : ChainQ) : (v.setChain n x).chain n = some x := by
  simp [Dev.chain, Dev.setChain]
@[simp] theorem Dev.cipher_setCipher (v : Dev) (n : Nat) (x : Cipher) : (v.setCipher n x).cipher n = x := by
  simp [Dev.cipher, Dev.setCipher]
theorem Dev.cipher_setCipher_ne (v : Dev) {n m : Nat} (x : Cipher) (h : m ≠ n) : (v.setCipher n x).cipher m = v.cipher m := by
  simp [Dev.cipher, Dev.setCipher, Tab.getD_set_ne _ _ _ h]

end Sys2Proof.Machine
end

