-- ==== Sys2Proof/Laws/Frames.lean ====
section
/-! SUPPORT. What every shared operation keeps, one lemma an operation: the window memory, the clock, the mode, the servo,
the active registers, the lifecycle and the firmware floor, each where the operation leaves it as it was. -/

namespace Sys2Proof.Machine

abbrev Dev.Same (a b : Dev) : Prop :=
  a.winMem = b.winMem ∧ a.clk = b.clk ∧ a.chip.mode.mode = b.chip.mode.mode ∧ a.chip.servo = b.chip.servo
    ∧ a.regs.active = b.regs.active ∧ a.sec.lifecycle = b.sec.lifecycle ∧ a.sec.floor = b.sec.floor
theorem foldl_pi {α β γ : Type} (π : β → γ) (f : β → α → β) (h : ∀ x a, π (f x a) = π x) (l : List α) (v : β) :
    π (l.foldl f v) = π v := by
  induction l generalizing v with
  | nil => rfl
  | cons a l ih => simp [ih, h]
theorem foldl_same {α : Type} (f : Dev → α → Dev) (h : ∀ x a, (f x a).Same x) (l : List α) (v : Dev) :
    (l.foldl f v).Same v := by
  induction l generalizing v with
  | nil => simp [Dev.Same]
  | cons a l ih => have := ih (f v a); have := h v a; grind
theorem foldl_same2 {α β : Type} (f : Dev × β → α → Dev × β) (h : ∀ x a, (f x a).1.Same x.1) (l : List α) (v : Dev × β) :
    (l.foldl f v).1.Same v.1 := by
  induction l generalizing v with
  | nil => simp [Dev.Same]
  | cons a l ih => have := ih (f v a); have := h v a; grind
theorem foldl_same3 {α β : Type} (f : β × Dev → α → β × Dev) (h : ∀ x a, (f x a).2.Same x.2) (l : List α) (v : β × Dev) :
    (l.foldl f v).2.Same v.2 := by
  induction l generalizing v with
  | nil => simp [Dev.Same]
  | cons a l ih => have := ih (f v a); have := h v a; grind
theorem foldl_winMem {α : Type} (f : Dev → α → Dev) (h : ∀ x a, (f x a).winMem = x.winMem) (l : List α) (v : Dev) : (l.foldl f v).winMem = v.winMem := foldl_pi (·.winMem) f h l v
theorem foldl_clk {α : Type} (f : Dev → α → Dev) (h : ∀ x a, (f x a).clk = x.clk) (l : List α) (v : Dev) : (l.foldl f v).clk = v.clk := foldl_pi (·.clk) f h l v
theorem foldl_chip_mode_mode {α : Type} (f : Dev → α → Dev) (h : ∀ x a, (f x a).chip.mode.mode = x.chip.mode.mode) (l : List α) (v : Dev) : (l.foldl f v).chip.mode.mode = v.chip.mode.mode := foldl_pi (·.chip.mode.mode) f h l v
theorem foldl_chip_servo {α : Type} (f : Dev → α → Dev) (h : ∀ x a, (f x a).chip.servo = x.chip.servo) (l : List α) (v : Dev) : (l.foldl f v).chip.servo = v.chip.servo := foldl_pi (·.chip.servo) f h l v
theorem foldl_regs_active {α : Type} (f : Dev → α → Dev) (h : ∀ x a, (f x a).regs.active = x.regs.active) (l : List α) (v : Dev) : (l.foldl f v).regs.active = v.regs.active := foldl_pi (·.regs.active) f h l v
theorem foldl_sec_lifecycle {α : Type} (f : Dev → α → Dev) (h : ∀ x a, (f x a).sec.lifecycle = x.sec.lifecycle) (l : List α) (v : Dev) : (l.foldl f v).sec.lifecycle = v.sec.lifecycle := foldl_pi (·.sec.lifecycle) f h l v
theorem foldl_sec_floor {α : Type} (f : Dev → α → Dev) (h : ∀ x a, (f x a).sec.floor = x.sec.floor) (l : List α) (v : Dev) : (l.foldl f v).sec.floor = v.sec.floor := foldl_pi (·.sec.floor) f h l v
theorem Dev.Same.trans {a b c : Dev} (h : a.Same b) (k : b.Same c) : a.Same c := by simp_all [Dev.Same]
theorem Dev.Same.rfl {a : Dev} : a.Same a := by simp [Dev.Same]
theorem Dev.shown_same (v : Dev) (t : Tab Word) : ({ v with regs := { v.regs with shown := t } } : Dev).Same v :=
  ⟨rfl, rfl, rfl, rfl, rfl, rfl, rfl⟩
theorem Dev.ownWrite_keeps (v : Dev) (o : Nat) (x : Word) : (Dev.ownWrite v o x).winMem = v.winMem ∧ (Dev.ownWrite v o x).clk = v.clk ∧ (Dev.ownWrite v o x).chip.mode.mode = v.chip.mode.mode ∧ (Dev.ownWrite v o x).chip.servo = v.chip.servo ∧ (Dev.ownWrite v o x).sec.lifecycle = v.sec.lifecycle ∧ (Dev.ownWrite v o x).sec.floor = v.sec.floor := by
  unfold Dev.ownWrite
  simp [Dev.Same]
theorem Dev.stage_keeps (v : Dev) (o : Nat) (x : Word) : (Dev.stage v o x).Same v := by
  unfold Dev.stage
  simp [Dev.Same]
theorem Dev.setPage_keeps (v : Dev) (p : Nat) (x : PageState) : (Dev.setPage v p x).Same v := by
  unfold Dev.setPage
  simp [Dev.Same]
theorem Dev.applyPage_keeps (v : Dev) (p : Nat) : (Dev.applyPage v p).winMem = v.winMem ∧ (Dev.applyPage v p).clk = v.clk ∧ (Dev.applyPage v p).chip.mode.mode = v.chip.mode.mode ∧ (Dev.applyPage v p).chip.servo = v.chip.servo ∧ (Dev.applyPage v p).sec.lifecycle = v.sec.lifecycle ∧ (Dev.applyPage v p).sec.floor = v.sec.floor := by
  unfold Dev.applyPage
  simp
theorem Dev.reachNs_keeps (v : Dev) (n : Nat) : (Dev.reachNs v n).winMem = v.winMem ∧ (Dev.reachNs v n).chip.mode.mode = v.chip.mode.mode ∧ (Dev.reachNs v n).chip.servo = v.chip.servo ∧ (Dev.reachNs v n).regs.active = v.regs.active ∧ (Dev.reachNs v n).sec.lifecycle = v.sec.lifecycle ∧ (Dev.reachNs v n).sec.floor = v.sec.floor := by
  unfold Dev.reachNs
  simp [Dev.Same]
theorem Dev.fresh_keeps (v : Dev) : (Dev.fresh v).2.Same v := by
  unfold Dev.fresh
  simp [Dev.Same]
theorem Dev.free64_keeps (v : Dev) : (Dev.free64 v).2.Same v := by
  unfold Dev.free64
  simp [Dev.Same]
theorem Dev.free32_keeps (v : Dev) : (Dev.free32 v).2.Same v := by
  unfold Dev.free32
  simp [Dev.Same]
theorem Dev.freeBytes_keeps (v : Dev) (n : Nat) : (Dev.freeBytes v n).2.Same v := by
  unfold Dev.freeBytes
  simp [Dev.Same]
theorem Dev.freeBool_keeps (v : Dev) : (Dev.freeBool v).2.Same v := by
  unfold Dev.freeBool
  simp [Dev.Same]
theorem Dev.emit_keeps (v : Dev) (o : Out) : (Dev.emit v o).Same v := by
  unfold Dev.emit
  simp [Dev.Same]
theorem Dev.emitAll_keeps (v : Dev) (os : List Out) : (Dev.emitAll v os).Same v := by
  unfold Dev.emitAll
  simp [Dev.Same]
theorem Dev.setSpire_keeps (v : Dev) (s : Nat) (r : SpireRec) : (Dev.setSpire v s r).Same v := by
  unfold Dev.setSpire
  simp [Dev.Same]
theorem Dev.setKeep_keeps (v : Dev) (k : KeepId) (r : KeepRec) : (Dev.setKeep v k r).Same v := by
  unfold Dev.setKeep
  grind
theorem Dev.count_keeps (v : Dev) (region cls idx ev n : Nat) : (Dev.count v region cls idx ev n).Same v := by
  unfold Dev.count
  grind
theorem Dev.chainDone_keeps (v : Dev) (s : Nat) : (Dev.chainDone v s).Same v := by
  unfold Dev.chainDone
  simp [Dev.Same, Dev.count_keeps]
theorem Dev.countKeep_keeps (v : Dev) (cls ev n : Nat) : (Dev.countKeep v cls ev n).Same v := by
  unfold Dev.countKeep
  grind [Dev.count_keeps]
theorem Dev.setFunc_keeps (v : Dev) (p : Pf) (f : Func) : (Dev.setFunc v p f).Same v := by
  unfold Dev.setFunc
  grind
theorem Dev.raiseVec_keeps (v : Dev) (p : Pf) (n : Nat) : (Dev.raiseVec v p n).Same v := by
  unfold Dev.raiseVec
  grind [Dev.emit_keeps, Dev.setFunc_keeps]
theorem Dev.modeEvent_keeps (v : Dev) (e : ModeEvent) : (Dev.modeEvent v e).Same v := by
  unfold Dev.modeEvent
  simp [Dev.Same]
theorem Dev.noteFault_keeps (v : Dev) (old new : FaultRec) : (Dev.noteFault v old new).Same v := by
  unfold Dev.noteFault
  grind [Dev.raiseVec_keeps]
theorem Dev.faultIn_keeps (v : Dev) (f : FaultInfo) (injected : Bool) : (Dev.faultIn v f injected).Same v := by
  unfold Dev.faultIn
  grind [Dev.noteFault_keeps]
theorem Dev.fault_keeps (v : Dev) (type region inst : Nat) (d0 d1 d2 : Nat) : (Dev.fault v type region inst d0 d1 d2).Same v := by
  unfold Dev.fault
  simp [Dev.Same, Dev.faultIn_keeps]
theorem Dev.faultAt_keeps (v : Dev) (type region inst : Nat) (access addr d0 d1 d2 : Nat) : (Dev.faultAt v type region inst access addr d0 d1 d2).Same v := by
  unfold Dev.faultAt
  simp [Dev.Same, Dev.faultIn_keeps]
theorem Dev.takeRecov_keeps (v : Dev) (l : LeaseRef) (due : Nat) : (Dev.takeRecov v l due).Same v := by
  unfold Dev.takeRecov
  simp [Dev.Same]
theorem Dev.dropRecov_keeps (v : Dev) (l : LeaseRef) : (Dev.dropRecov v l).Same v := by
  unfold Dev.dropRecov
  simp [Dev.Same]
theorem Dev.setSession_keeps (v : Dev) (n : Nat) (s : Session) : (Dev.setSession v n s).Same v := by
  unfold Dev.setSession
  simp [Dev.Same]
theorem Dev.adjSession_keeps (v : Dev) (n : Nat) (f : Session → Session) : (Dev.adjSession v n f).Same v := by
  unfold Dev.adjSession
  simp [Dev.Same]
theorem Dev.setQp_keeps (v : Dev) (n : Nat) (q : Qp) : (Dev.setQp v n q).Same v := by
  unfold Dev.setQp
  simp [Dev.Same]
theorem Dev.adjQp_keeps (v : Dev) (n : Nat) (f : Qp → Qp) : (Dev.adjQp v n f).Same v := by
  unfold Dev.adjQp
  simp [Dev.Same]
theorem Dev.setRing_keeps (v : Dev) (r : Nat) (x : Ring) : (Dev.setRing v r x).Same v := by
  unfold Dev.setRing
  simp [Dev.Same]
theorem Dev.orphanRing_keeps (v : Dev) (r : Nat) : (Dev.orphanRing v r).Same v := by
  unfold Dev.orphanRing
  simp [Dev.Same]
theorem Dev.ringError_keeps (v : Dev) (r code : Nat) : (Dev.ringError v r code).Same v := by
  unfold Dev.ringError
  simp [Dev.Same, Dev.orphanRing_keeps, Dev.setRing_keeps, Dev.raiseVec_keeps]
theorem Dev.takeHead_keeps (v : Dev) (op : Nat) (p : Packet) : (Dev.takeHead v op p).1.Same v := by
  unfold Dev.takeHead
  grind [Dev.setRing_keeps]
theorem Dev.finish_keeps (v : Dev) (id : Nat) (st : Byte) (r0 r1 r2 : Nat) (data : List Byte) : (Dev.finish v id st r0 r1 r2 data).Same v := by
  unfold Dev.finish
  grind
theorem Dev.finishOk_keeps (v : Dev) (id r0 r1 r2 : Nat) : (Dev.finishOk v id r0 r1 r2).Same v := by
  unfold Dev.finishOk
  simp [Dev.Same, Dev.finish_keeps]
theorem Dev.fail_keeps (v : Dev) (id : Nat) (st : Byte) : (Dev.fail v id st).Same v := by
  unfold Dev.fail
  simp [Dev.Same, Dev.finish_keeps]
theorem Dev.epRead_keeps (v : Dev) (what : ReadFor) (w : Dev) (hw : Dev.epRead v what = some w) : w.Same v := by
  unfold Dev.epRead at hw
  grind [Dev.setFunc_keeps]
theorem Dev.floderStart_keeps (v : Dev) (op : Nat) (p : Packet) (w : Dev) (i : Nat) (st : Option Byte) (hw : Dev.floderStart v op p = some (w, i, st)) : w.Same v := by
  unfold Dev.floderStart at hw
  grind [Dev.fresh_keeps, Dev.takeHead_keeps]
theorem Dev.startData_keeps (v : Dev) (op : Nat) (p : Packet) (w : Dev) (hw : Dev.startData v op p = some w) : w.Same v := by
  unfold Dev.startData at hw
  grind [Dev.epRead_keeps, Dev.fresh_keeps, Dev.takeHead_keeps]
theorem Dev.skipUnlisted_keeps (n : Nat) (v : Dev) (src : Source) : (Dev.skipUnlisted n v src).Same v := by
  induction n generalizing v with
  | zero => exact Dev.Same.rfl
  | succ n ih =>
    unfold Dev.skipUnlisted
    split
    · exact Dev.Same.rfl
    · rename_i op p _
      have hs := Dev.startData_keeps v op.toNat p
      split
      · split
        · split
          · exact Dev.Same.rfl
          · exact (ih _).trans (hs _ ‹_›)
        · exact Dev.Same.rfl
      · split
        · exact Dev.Same.rfl
        · split
          · exact Dev.Same.rfl
          · exact ((ih _).trans (Dev.fail_keeps _ _ _)).trans (Dev.floderStart_keeps _ _ _ _ _ _ ‹_›)
theorem Dev.skipHeads_keeps (v : Dev) (src : Source) : (Dev.skipHeads v src).Same v := by
  unfold Dev.skipHeads
  simp [Dev.Same, Dev.skipUnlisted_keeps]
theorem Dev.floderRun_keeps (v : Dev) (op : Nat) (p : Packet) (body : Nat → Dev → Dev) (hb : ∀ i x, (body i x).Same x) : (v.floderRun op p body).Same v := by
  unfold Dev.floderRun
  grind [Dev.fail_keeps, Dev.floderStart_keeps, Dev.skipHeads_keeps]
theorem Dev.floderRun_pi {γ : Type} (π : Dev → γ) (hπ : ∀ a b : Dev, a.Same b → π a = π b) (v : Dev) (op : Nat) (p : Packet)
    (body : Nat → Dev → Dev) (hb : ∀ i x, π (body i x) = π x) : π (v.floderRun op p body) = π v := by
  unfold Dev.floderRun
  split
  · rfl
  · rename_i h
    exact hπ _ _ ((Dev.skipHeads_keeps _ _).trans ((Dev.fail_keeps _ _ _).trans (Dev.floderStart_keeps _ _ _ _ _ _ h)))
  · rename_i h
    exact (hπ _ _ (Dev.skipHeads_keeps _ _)).trans ((hb _ _).trans (hπ _ _ (Dev.floderStart_keeps _ _ _ _ _ _ h)))
theorem Dev.setPort_keeps (v : Dev) (n : Nat) (p : NetPort) : (Dev.setPort v n p).Same v := by
  unfold Dev.setPort
  simp [Dev.Same]
theorem Dev.setEg_keeps (v : Dev) (n k : Nat) (e : Egress) : (Dev.setEg v n k e).Same v := by
  unfold Dev.setEg
  simp [Dev.Same]
theorem Dev.countPort_keeps (v : Dev) (n ev x : Nat) : (Dev.countPort v n ev x).Same v := by
  unfold Dev.countPort
  simp [Dev.Same, Dev.count_keeps]
theorem Dev.enqueue_keeps (v : Dev) (n k : Nat) (f : Frame) : (Dev.enqueue v n k f).Same v := by
  unfold Dev.enqueue
  grind [Dev.setEg_keeps, Dev.countPort_keeps]
theorem Dev.respond_keeps (v : Dev) (n : Nat) (w : Wire) : (Dev.respond v n w).Same v := by
  unfold Dev.respond
  grind [Dev.enqueue_keeps]
theorem Dev.sendLocal_keeps (v : Dev) (n k : Nat) (ipv6 : Bool) (w : Wire) : (Dev.sendLocal v n k ipv6 w).Same v := by
  unfold Dev.sendLocal
  simp [Dev.Same, Dev.enqueue_keeps]
theorem Dev.sendAbout_keeps (v : Dev) (n : Nat) (w : Wire) : (Dev.sendAbout v n w).Same v := by
  unfold Dev.sendAbout
  grind [Dev.sendLocal_keeps]
theorem Dev.received_keeps (v : Dev) (n len : Nat) : (Dev.received v n len).Same v := by
  unfold Dev.received
  grind [Dev.countPort_keeps, Dev.setSpire_keeps]
theorem Dev.receivedOn_keeps (v : Dev) (qp n : Nat) : (Dev.receivedOn v qp n).Same v := by
  unfold Dev.receivedOn
  grind [Dev.received_keeps]
theorem Dev.launch_keeps (v : Dev) (n : Nat) (q : Qp) (f : Frame) : (Dev.launch v n q f).Same v := by
  unfold Dev.launch
  simp [Dev.Same, Dev.enqueue_keeps, Dev.setQp_keeps]
theorem Dev.launchN_keeps (n : Nat) (v : Dev) (q : Nat) : (Dev.launchN n v q).Same v := by
  induction n generalizing v with
  | zero => exact Dev.Same.rfl
  | succ n ih =>
    unfold Dev.launchN
    split
    · exact Dev.Same.rfl
    · split
      · exact Dev.Same.rfl
      · split
        · exact (ih _).trans (Dev.launch_keeps _ _ _ _)
        · exact Dev.Same.rfl
theorem Dev.launchQp_keeps (v : Dev) (n : Nat) : (Dev.launchQp v n).Same v := by
  unfold Dev.launchQp
  split
  · exact Dev.Same.rfl
  · split
    · exact Dev.launchN_keeps _ _ _
    · exact Dev.Same.rfl
theorem Dev.post_keeps (v : Dev) (n : Nat) (ws : List Wire) : (Dev.post v n ws).Same v := by
  unfold Dev.post
  simp [Dev.Same, Dev.adjQp_keeps, Dev.launchQp_keeps]
theorem Dev.postData_keeps (v : Dev) (n : Nat) (rkey : BitVec 32) (va : BitVec 64) (bs : List Byte) : (Dev.postData v n rkey va bs).Same v := by
  unfold Dev.postData
  grind [Dev.post_keeps]
theorem Dev.resend_keeps (v : Dev) (n : Nat) (p : Unacked → Bool) : (Dev.resend v n p).Same v := by
  unfold Dev.resend
  split
  · exact Dev.Same.rfl
  · refine foldl_same _ ?_ _ _
    intro x u
    split
    · exact Dev.Same.rfl
    · exact Dev.enqueue_keeps _ _ _ _
theorem Dev.unqueue_keeps (v : Dev) (n : Nat) : (Dev.unqueue v n).Same v := by
  unfold Dev.unqueue
  grind [Dev.setEg_keeps]
theorem Dev.build_keeps (v : Dev) (sn : Nat) (e : Entry) (qp tally from_ : Option Nat) : (Dev.build v sn e qp tally from_).Same v := by
  unfold Dev.build
  simp [Dev.Same, Dev.adjSession_keeps]
theorem Dev.notice_keeps (v : Dev) (sn : Nat) (code : Byte) (arg : Nat) : (Dev.notice v sn code arg).Same v := by
  unfold Dev.notice
  grind [Dev.setSession_keeps, Dev.count_keeps]
theorem Dev.noticeEach_keeps (v : Dev) (sns : List Nat) (code : Byte) (arg : Nat) : (Dev.noticeEach v sns code arg).Same v := by
  unfold Dev.noticeEach
  simp [Dev.Same, foldl_winMem, foldl_clk, foldl_chip_mode_mode, foldl_chip_servo, foldl_regs_active, foldl_sec_lifecycle, foldl_sec_floor, Dev.notice_keeps]
theorem Dev.noticeAll_keeps (v : Dev) (code : Byte) (arg : Nat) : (Dev.noticeAll v code arg).Same v := by
  unfold Dev.noticeAll
  simp [Dev.Same, Dev.noticeEach_keeps]
theorem Dev.answer_keeps (v : Dev) (sn : Nat) (d : Delivered) (st : Byte) (x : ExtInfo) (off len : Nat) : (Dev.answer v sn d st x off len).Same v := by
  unfold Dev.answer
  simp [Dev.Same, Dev.build_keeps]
theorem Dev.answerRecord_keeps (v : Dev) (sn : Nat) (d : Delivered) (r : Record) : (Dev.answerRecord v sn d r).Same v := by
  unfold Dev.answerRecord
  grind [Dev.count_keeps, Dev.build_keeps]
theorem Dev.releaseDups_keeps (v : Dev) (sn : Nat) (t : BitVec 32) : (Dev.releaseDups v sn t).Same v := by
  unfold Dev.releaseDups
  grind [foldl_winMem, foldl_clk, foldl_chip_mode_mode, foldl_chip_servo, foldl_regs_active, foldl_sec_lifecycle, foldl_sec_floor, Dev.answerRecord_keeps, Dev.answer_keeps]
theorem Dev.completeTallied_keeps (v : Dev) (sn : Nat) (op : Byte) (d : Delivered) (c : Completion) : (Dev.completeTallied v sn op d c).Same v := by
  unfold Dev.completeTallied
  simp [Dev.Same, Dev.releaseDups_keeps, Dev.adjSession_keeps, Dev.build_keeps]
theorem Dev.refuseTallied_keeps (v : Dev) (sn : Nat) (op : Byte) (d : Delivered) (st : Byte) (x : ExtInfo) (off : Nat) : (Dev.refuseTallied v sn op d st x off).Same v := by
  unfold Dev.refuseTallied
  simp [Dev.Same, Dev.completeTallied_keeps]
theorem Dev.dropTally_keeps (v : Dev) (sn : Nat) (t : BitVec 32) : (Dev.dropTally v sn t).Same v := by
  unfold Dev.dropTally
  simp [Dev.Same, Dev.adjSession_keeps, Dev.releaseDups_keeps]
theorem Dev.reissue_keeps (v : Dev) (sn : Nat) : (Dev.reissue v sn).Same v := by
  unfold Dev.reissue
  grind [Dev.post_keeps, Dev.setSession_keeps]
theorem Dev.abortReads_keeps (v : Dev) (q : Nat) : (Dev.abortReads v q).Same v := by
  unfold Dev.abortReads
  simp [Dev.Same, foldl_winMem, foldl_clk, foldl_chip_mode_mode, foldl_chip_servo, foldl_regs_active, foldl_sec_lifecycle, foldl_sec_floor, Dev.answer_keeps]
theorem Dev.endGrant_keeps (v0 : Dev) (sn tag : Nat) : (Dev.endGrant v0 sn tag).Same v0 := by
  unfold Dev.endGrant
  grind [Dev.adjSession_keeps]
theorem Dev.uncharge_keeps (v : Dev) (claim n : Nat) : (Dev.uncharge v claim n).Same v := by
  unfold Dev.uncharge
  simp [Dev.Same]
theorem Dev.dropCtx_keeps (v : Dev) (c : Ctx) : (Dev.dropCtx v c).Same v := by
  unfold Dev.dropCtx
  grind [Dev.endGrant_keeps, Dev.uncharge_keeps, Dev.countKeep_keeps]
theorem Dev.refuseCtx_keeps (v : Dev) (c : Ctx) (st : Byte) : (Dev.refuseCtx v c st).Same v := by
  unfold Dev.refuseCtx
  grind [Dev.dropCtx_keeps, Dev.answer_keeps, Dev.refuseTallied_keeps]
theorem Dev.discardCtx_keeps (v : Dev) (c : Ctx) : (Dev.discardCtx v c).Same v := by
  unfold Dev.discardCtx
  grind [Dev.dropTally_keeps, Dev.dropCtx_keeps]
theorem Dev.takeReturns_keeps (v : Dev) : (Dev.takeReturns v).Same v := by
  unfold Dev.takeReturns
  exact (foldl_same _ (fun x r => Dev.uncharge_keeps _ _ _) _ _).trans Dev.Same.rfl
theorem Dev.discardInbox_keeps (v0 : Dev) (q : Nat) : (Dev.discardInbox v0 q).Same v0 := by
  unfold Dev.discardInbox
  simp [Dev.Same, foldl_winMem, foldl_clk, foldl_chip_mode_mode, foldl_chip_servo, foldl_regs_active, foldl_sec_lifecycle, foldl_sec_floor, Dev.discardCtx_keeps]
theorem Dev.adjCtx_keeps (v : Dev) (id : Nat) (f : Ctx → Ctx) : (Dev.adjCtx v id f).Same v := by
  unfold Dev.adjCtx
  simp [Dev.Same]
theorem Dev.revokeWindow_keeps (v : Dev) (w : Nat) (cmd : Option Nat) : (Dev.revokeWindow v w cmd).Same v := by
  unfold Dev.revokeWindow
  grind
theorem Dev.releaseQp_keeps (v : Dev) (q : Nat) : (Dev.releaseQp v q).Same v := by
  unfold Dev.releaseQp
  grind [foldl_winMem, foldl_clk, foldl_chip_mode_mode, foldl_chip_servo, foldl_regs_active, foldl_sec_lifecycle, foldl_sec_floor, Dev.discardInbox_keeps, Dev.adjSession_keeps, Dev.abortReads_keeps, Dev.revokeWindow_keeps, Dev.unqueue_keeps, Dev.reissue_keeps]
theorem Dev.holdPath_keeps (v : Dev) (q : Nat) : (Dev.holdPath v q).Same v := by
  unfold Dev.holdPath
  repeat' split
  all_goals grind [Dev.releaseQp_keeps, Dev.discardInbox_keeps, Dev.notice_keeps, Dev.adjQp_keeps, Dev.adjSession_keeps, Dev.reissue_keeps]
theorem Dev.restorePath_keeps (v : Dev) (q : Nat) : (Dev.restorePath v q).Same v := by
  unfold Dev.restorePath
  grind [Dev.launchQp_keeps, Dev.adjSession_keeps, Dev.notice_keeps, Dev.reissue_keeps]
theorem Dev.faultQp_keeps (v : Dev) (q : Nat) : (Dev.faultQp v q).Same v := by
  unfold Dev.faultQp
  simp [Dev.Same, Dev.releaseQp_keeps]
theorem Dev.setKeySlot_keeps (v : Dev) (n : Nat) (k : KeySlot) : (Dev.setKeySlot v n k).Same v := by
  unfold Dev.setKeySlot
  simp [Dev.Same]
theorem Dev.refreshMeters_keeps (v : Dev) : (Dev.refreshMeters v).Same v := by
  unfold Dev.refreshMeters
  simp [Dev.Same]
theorem Dev.bumpVer_keeps (v : Dev) (key : Nat) : (Dev.bumpVer v key).Same v := by
  unfold Dev.bumpVer
  simp [Dev.Same]
theorem Dev.queueUpdate_keeps (v : Dev) (t : TableId) (key : Nat) (a : UpdAction) (cmd : Option Nat) : (Dev.queueUpdate v t key a cmd).Same v := by
  unfold Dev.queueUpdate
  simp [Dev.Same]
theorem Dev.dropUpdate_keeps (v : Dev) (t : TableId) (key : Nat) : (Dev.dropUpdate v t key).Same v := by
  unfold Dev.dropUpdate
  simp [Dev.Same]
theorem Dev.finishOpt_keeps (v : Dev) (cmd : Option Nat) (st : Byte) (r0 r1 r2 : Nat) : (Dev.finishOpt v cmd st r0 r1 r2).Same v := by
  unfold Dev.finishOpt
  grind [Dev.finish_keeps]
theorem Dev.setFwdMode_keeps (v : Dev) (key : Nat) (cut : Bool) : (Dev.setFwdMode v key cut).winMem = v.winMem ∧ (Dev.setFwdMode v key cut).clk = v.clk ∧ (Dev.setFwdMode v key cut).chip.mode.mode = v.chip.mode.mode ∧ (Dev.setFwdMode v key cut).chip.servo = v.chip.servo ∧ (Dev.setFwdMode v key cut).sec.lifecycle = v.sec.lifecycle ∧ (Dev.setFwdMode v key cut).sec.floor = v.sec.floor := by
  unfold Dev.setFwdMode
  simp [Dev.Same]
theorem Dev.applyUpdate_keeps (v : Dev) (u : Update) : (Dev.applyUpdate v u).winMem = v.winMem ∧ (Dev.applyUpdate v u).clk = v.clk ∧ (Dev.applyUpdate v u).chip.mode.mode = v.chip.mode.mode ∧ (Dev.applyUpdate v u).chip.servo = v.chip.servo ∧ (Dev.applyUpdate v u).sec.lifecycle = v.sec.lifecycle ∧ (Dev.applyUpdate v u).sec.floor = v.sec.floor := by
  have hf : ∀ (gs : List Grant) (x : Dev), (gs.foldl (fun x g => match x.ctx g.ctx with
        | some c => x.refuseCtx c stXferExpired
        | none => x) x).Same x := fun gs x => foldl_same _ (fun x a => by split <;> grind [Dev.refuseCtx_keeps]) gs x
  have six : ∀ a : Dev, a.Same v → a.winMem = v.winMem ∧ a.clk = v.clk ∧ a.chip.mode.mode = v.chip.mode.mode ∧
      a.chip.servo = v.chip.servo ∧ a.sec.lifecycle = v.sec.lifecycle ∧ a.sec.floor = v.sec.floor :=
    fun a h => ⟨h.1, h.2.1, h.2.2.1, h.2.2.2.1, h.2.2.2.2.2.1, h.2.2.2.2.2.2⟩
  unfold Dev.applyUpdate
  cases u.act with
  | fwdMode cut =>
    have h := Dev.setFwdMode_keeps v u.key cut
    have k := Dev.bumpVer_keeps (v.setFwdMode u.key cut) u.key
    exact ⟨k.1.trans h.1, k.2.1.trans h.2.1, k.2.2.1.trans h.2.2.1, k.2.2.2.1.trans h.2.2.2.1, k.2.2.2.2.2.1.trans h.2.2.2.2.1,
      k.2.2.2.2.2.2.trans h.2.2.2.2.2⟩
  | _ =>
    apply six
    dsimp only
    repeat' split
    all_goals first
      | exact Dev.Same.rfl
      | exact Dev.finishOpt_keeps _ _ _ _ _ _
      | exact Dev.setKeySlot_keeps _ _ _
      | exact (hf _ _).trans Dev.Same.rfl
      | exact (Dev.finishOpt_keeps _ _ _ _ _ _).trans Dev.Same.rfl
      | exact (Dev.finishOpt_keeps _ _ _ _ _ _).trans ((Dev.refreshMeters_keeps _).trans Dev.Same.rfl)
theorem Dev.takeModes_keeps (v : Dev) : (Dev.takeModes v).Same v := by
  unfold Dev.takeModes
  grind [foldl_winMem, foldl_clk, foldl_chip_mode_mode, foldl_chip_servo, foldl_regs_active, foldl_sec_lifecycle, foldl_sec_floor, Dev.bumpVer_keeps, Dev.stage_keeps, Dev.queueUpdate_keeps]
theorem Dev.takeShapers_keeps (v : Dev) (n k : Nat) : (Dev.takeShapers v n k).Same v := by
  unfold Dev.takeShapers
  simp [Dev.Same, foldl_winMem, foldl_clk, foldl_chip_mode_mode, foldl_chip_servo, foldl_regs_active, foldl_sec_lifecycle, foldl_sec_floor, Dev.bumpVer_keeps]
theorem Dev.takeVersions_keeps (v : Dev) (p : Nat) : (Dev.takeVersions v p).Same v := by
  unfold Dev.takeVersions
  grind [Dev.takeModes_keeps, Dev.takeShapers_keeps]
theorem Dev.switchEntry_keeps (v : Dev) (t : TableId) (key : Nat) : (Dev.switchEntry v t key).winMem = v.winMem ∧ (Dev.switchEntry v t key).clk = v.clk ∧ (Dev.switchEntry v t key).chip.mode.mode = v.chip.mode.mode ∧ (Dev.switchEntry v t key).chip.servo = v.chip.servo ∧ (Dev.switchEntry v t key).sec.lifecycle = v.sec.lifecycle ∧ (Dev.switchEntry v t key).sec.floor = v.sec.floor := by
  unfold Dev.switchEntry
  grind [Dev.applyUpdate_keeps, Dev.dropUpdate_keeps]
theorem Dev.switchAll_keeps (v : Dev) : (Dev.switchAll v).winMem = v.winMem ∧ (Dev.switchAll v).clk = v.clk ∧ (Dev.switchAll v).chip.mode.mode = v.chip.mode.mode ∧ (Dev.switchAll v).chip.servo = v.chip.servo ∧ (Dev.switchAll v).sec.lifecycle = v.sec.lifecycle ∧ (Dev.switchAll v).sec.floor = v.sec.floor := by
  unfold Dev.switchAll
  simp [Dev.Same, foldl_winMem, foldl_clk, foldl_chip_mode_mode, foldl_chip_servo, foldl_regs_active, foldl_sec_lifecycle, foldl_sec_floor, Dev.switchEntry_keeps]
theorem Dev.timeoutEntry_keeps (v : Dev) (t : TableId) (key : Nat) : (Dev.timeoutEntry v t key).Same v := by
  unfold Dev.timeoutEntry
  grind [Dev.finishOpt_keeps, Dev.dropUpdate_keeps]
theorem Dev.sendPfc_keeps (v : Dev) (n prios quanta : Nat) : (Dev.sendPfc v n prios quanta).Same v := by
  unfold Dev.sendPfc
  simp [Dev.Same, foldl_winMem, foldl_clk, foldl_chip_mode_mode, foldl_chip_servo, foldl_regs_active, foldl_sec_lifecycle, foldl_sec_floor, Dev.countPort_keeps, Dev.sendLocal_keeps]
theorem Dev.pfcCheck_keeps (v : Dev) (n : Nat) : (Dev.pfcCheck v n).Same v := by
  unfold Dev.pfcCheck
  grind [Dev.setPort_keeps, Dev.sendPfc_keeps]
theorem Dev.setPolicer_keeps (v : Dev) (n : Nat) (on : Bool) : (Dev.setPolicer v n on).Same v := by
  unfold Dev.setPolicer
  simp [Dev.Same, Dev.setPort_keeps]
theorem Dev.refillAll_keeps (v : Dev) : (Dev.refillAll v).Same v := by
  unfold Dev.refillAll
  simp [Dev.Same]
theorem Dev.dropStranded_keeps (v : Dev) (n k : Nat) : (Dev.dropStranded v n k).Same v := by
  unfold Dev.dropStranded
  grind [Dev.countPort_keeps, Dev.setEg_keeps]
theorem Dev.switchGates_keeps (v : Dev) (n k : Nat) : (Dev.switchGates v n k).winMem = v.winMem ∧ (Dev.switchGates v n k).clk = v.clk ∧ (Dev.switchGates v n k).chip.mode.mode = v.chip.mode.mode ∧ (Dev.switchGates v n k).chip.servo = v.chip.servo ∧ (Dev.switchGates v n k).sec.lifecycle = v.sec.lifecycle ∧ (Dev.switchGates v n k).sec.floor = v.sec.floor := by
  unfold Dev.switchGates
  grind [Dev.applyPage_keeps, Dev.dropStranded_keeps, Dev.setEg_keeps]
theorem Dev.sendFrame_keeps (v : Dev) (n k : Nat) (f : Frame) : (Dev.sendFrame v n k f).Same v := by
  unfold Dev.sendFrame
  grind [Dev.emit_keeps, Dev.countPort_keeps, Dev.adjQp_keeps, Dev.setEg_keeps]
theorem Dev.setCipher_keeps (v : Dev) (s : Nat) (c : Cipher) : (Dev.setCipher v s c).Same v := by
  unfold Dev.setCipher
  simp [Dev.Same]
theorem Dev.reseedMask_keeps (v : Dev) (s : Nat) : (Dev.reseedMask v s).Same v := by
  unfold Dev.reseedMask
  simp [Dev.Same, Dev.free64_keeps, Dev.setCipher_keeps]
theorem Dev.sendCopies_keeps (v : Dev) (slot : Nat) (key : List Byte) : (Dev.sendCopies v slot key).Same v := by
  unfold Dev.sendCopies
  grind [foldl_winMem, foldl_clk, foldl_chip_mode_mode, foldl_chip_servo, foldl_regs_active, foldl_sec_lifecycle, foldl_sec_floor, Dev.setCipher_keeps]
theorem Dev.dropSlotCopies_keeps (v : Dev) (slot : Nat) : (Dev.dropSlotCopies v slot).Same v := by
  unfold Dev.dropSlotCopies
  simp [Dev.Same]
theorem Dev.dropCopiesOf_keeps (v : Dev) (s : Nat) : (Dev.dropCopiesOf v s).Same v := by
  unfold Dev.dropCopiesOf
  simp [Dev.Same, Dev.setCipher_keeps]
theorem Dev.startCipher_keeps (v : Dev) (s : Nat) (keys : Bool) (queue : List CipherJob) : (Dev.startCipher v s keys queue).Same v := by
  unfold Dev.startCipher
  dsimp only
  have h : ((v.setCipher s { Cipher.reset with queue := queue }).reseedMask s).Same v :=
    (Dev.reseedMask_keeps _ _).trans (Dev.setCipher_keeps _ _ _)
  split
  · refine (foldl_same _ ?_ _ _).trans h
    intro x a
    split
    · exact Dev.Same.rfl
    · exact Dev.setCipher_keeps _ _ _
  · exact h
theorem Dev.cipherPeal_keeps (v : Dev) : (Dev.cipherPeal v).Same v := by
  unfold Dev.cipherPeal
  grind [foldl_winMem, foldl_clk, foldl_chip_mode_mode, foldl_chip_servo, foldl_regs_active, foldl_sec_lifecycle, foldl_sec_floor, Dev.reseedMask_keeps, Dev.setCipher_keeps]
theorem Dev.serveCipher_keeps (v : Dev) (s level n : Nat) : (Dev.serveCipher v s level n).Same v := by
  unfold Dev.serveCipher
  simp [Dev.Same, Dev.setCipher_keeps]
theorem Dev.offerCipher_keeps (v : Dev) (s level n : Nat) (w : CipherWork) : (Dev.offerCipher v s level n w).2.Same v := by
  unfold Dev.offerCipher
  grind [Dev.serveCipher_keeps, Dev.setCipher_keeps]
theorem Dev.drainCipher_keeps (v : Dev) (s : Nat) : (Dev.drainCipher v s).2.Same v := by
  unfold Dev.drainCipher
  simp [Dev.Same, Dev.setCipher_keeps]
theorem Dev.takeLease_keeps (v : Dev) (k : KeySlot) : (Dev.takeLease v k).2.Same v := by
  unfold Dev.takeLease
  grind [Dev.fault_keeps]
theorem Dev.setLease_keeps (v : Dev) (l : SpireLease) : (Dev.setLease v l).Same v := by
  unfold Dev.setLease
  simp [Dev.Same]
theorem Dev.roomyLease_keeps (v : Dev) (s : Spire) (slot n : Nat) : (Dev.roomyLease v s slot n).2.Same v := by
  unfold Dev.roomyLease
  repeat' split
  all_goals grind [Dev.fresh_keeps, Dev.takeLease_keeps]
theorem Dev.reserveNonce_keeps (v : Dev) (s : Spire) (slot n : Nat) : (Dev.reserveNonce v s slot n).2.Same v := by
  unfold Dev.reserveNonce
  repeat' split
  all_goals grind [Dev.setLease_keeps, Dev.roomyLease_keeps]
theorem Dev.emptySlot_keeps (v : Dev) (slot : Nat) : (Dev.emptySlot v slot).Same v := by
  unfold Dev.emptySlot
  simp [Dev.Same, foldl_winMem, foldl_clk, foldl_chip_mode_mode, foldl_chip_servo, foldl_regs_active, foldl_sec_lifecycle, foldl_sec_floor, Dev.dropSlotCopies_keeps, Dev.setKeySlot_keeps, Dev.finishOk_keeps]
theorem Dev.zeroizeAll_keeps (v : Dev) : (Dev.zeroizeAll v).Same v := by
  unfold Dev.zeroizeAll
  refine Dev.Same.trans (foldl_same _ (fun x a => ?_) _ _) ?_
  · grind [Dev.emptySlot_keeps]
  refine Dev.Same.trans (foldl_same _ (fun x a => ?_) _ _) ?_
  · grind [Dev.answer_keeps]
  exact (foldl_same _ (fun x a => by split <;> grind [Dev.refuseCtx_keeps]) _ _)
theorem Dev.receivedCm_keeps (v : Dev) (n : Nat) (ipv6 : Bool) : (Dev.receivedCm v n ipv6).Same v := by
  unfold Dev.receivedCm
  simp [Dev.Same, Dev.received_keeps]
theorem Dev.receivedAbout_keeps (v : Dev) (qp : Nat) : (Dev.receivedAbout v qp).Same v := by
  unfold Dev.receivedAbout
  grind [Dev.receivedCm_keeps]
theorem Dev.bound_keeps (v : Dev) (port : Nat) : (Dev.bound v port).Same v := by
  unfold Dev.bound
  grind [Dev.setPort_keeps]
theorem Dev.takeProtLease_keeps (v : Dev) (q : Nat) : (Dev.takeProtLease v q).Same v := by
  unfold Dev.takeProtLease
  repeat' split
  all_goals grind [Dev.adjQp_keeps, Dev.takeLease_keeps]
theorem Dev.answerLate_keeps (v : Dev) (sn : Nat) (d : Delivered) (st : Byte) : (Dev.answerLate v sn d st).Same v := by
  unfold Dev.answerLate
  simp [Dev.Same, Dev.adjSession_keeps]
theorem Dev.arrive_keeps (v : Dev) (sn : Nat) (w : Waiting) : (Dev.arrive v sn w).Same v := by
  unfold Dev.arrive
  grind [Dev.answer_keeps, Dev.answerLate_keeps]
theorem Dev.capsuleIn_keeps (v : Dev) (sn : Nat) (m : Delivered) : (Dev.capsuleIn v sn m).Same v := by
  unfold Dev.capsuleIn
  simp [Dev.Same, Dev.arrive_keeps]
theorem Dev.matchImm_keeps (v : Dev) (sn qp : Nat) (i : BitVec 32) (len : Nat) : (Dev.matchImm v sn qp i len).1.Same v := by
  unfold Dev.matchImm
  repeat' split
  all_goals grind [Dev.respond_keeps, Dev.finishOk_keeps, Dev.faultQp_keeps, Dev.count_keeps, Dev.setSession_keeps]
theorem Dev.floderIn_keeps (v : Dev) (qp : Nat) (b : List Byte) : (Dev.floderIn v qp b).Same v := by
  unfold Dev.floderIn
  simp [Dev.Same, Dev.skipHeads_keeps]
theorem Dev.deliver_keeps (v : Dev) (sn : Nat) (p : ReqPacket) : (Dev.deliver v sn p).Same v := by
  unfold Dev.deliver
  split
  · exact Dev.Same.rfl
  · dsimp only
    split
    · exact (Dev.faultQp_keeps _ _).trans (Dev.count_keeps _ _ _ _ _ _)
    · rename_i s _ _ _ b _
      have h0 := Dev.serveCipher_keeps v (v.homeOf p.qp) 2 (ceilDiv b.length 4096)
      have hm : ∀ (x : Dev) i len, (x.matchImm sn p.qp i len).1.Same x := fun x i len => Dev.matchImm_keeps _ _ _ _ _
      have hc : ∀ (x : Dev) m, (x.capsuleIn sn m).Same x := fun x m => Dev.capsuleIn_keeps _ _ _
      have hf : ∀ (x : Dev), (x.floderIn p.qp b).Same x := fun x => Dev.floderIn_keeps _ _ _
      (repeat' split)
      all_goals first
        | exact Dev.Same.rfl
        | exact h0
        | exact hm _ _ _
        | exact (hm _ _ _).trans h0
        | exact hf _
        | exact hc _ _
        | exact (hf _).trans h0
        | exact (hc _ _).trans h0
        | exact (hf _).trans (hm _ _ _)
        | exact (hc _ _).trans (hm _ _ _)
        | exact (hf _).trans ((hm _ _ _).trans h0)
        | exact (hc _ _).trans ((hm _ _ _).trans h0)
theorem Dev.packetSeen_keeps (v : Dev) (n : Nat) (q : Qp) (cost : Nat) (ce : Bool) : (Dev.packetSeen v n q cost ce).Same v := by
  unfold Dev.packetSeen
  grind [Dev.adjQp_keeps, Dev.countPort_keeps, Dev.sendAbout_keeps, Dev.received_keeps]
theorem Dev.offPsn_keeps (v : Dev) (n : Nat) (q : Qp) (c : PsnClass) : (Dev.offPsn v n q c).Same v := by
  unfold Dev.offPsn
  grind [Dev.respond_keeps, Dev.adjQp_keeps]
theorem Dev.nextPsn_keeps (v : Dev) (n : Nat) : (Dev.nextPsn v n).Same v := by
  unfold Dev.nextPsn
  simp [Dev.Same, Dev.adjQp_keeps]
theorem Dev.policed_keeps (v : Dev) (n : Nat) (q : Qp) (cost bytes : Nat) : (Dev.policed v n q cost bytes).1.Same v := by
  unfold Dev.policed
  grind [Dev.countPort_keeps, Dev.setQp_keeps]
theorem Dev.takeAck_keeps (v : Dev) (qp : Nat) (psn : BitVec 24) : (Dev.takeAck v qp psn).Same v := by
  unfold Dev.takeAck
  grind [Dev.launchQp_keeps, Dev.adjSession_keeps, Dev.setQp_keeps]
theorem Dev.downPort_keeps (v : Dev) (n k : Nat) : (Dev.downPort v n k).Same v := by
  unfold Dev.downPort
  simp [Dev.Same, foldl_winMem, foldl_clk, foldl_chip_mode_mode, foldl_chip_servo, foldl_regs_active, foldl_sec_lifecycle, foldl_sec_floor, Dev.countPort_keeps, Dev.setPort_keeps, Dev.setEg_keeps, Dev.holdPath_keeps]
theorem Dev.upPaths_keeps (v : Dev) (n k : Nat) : (Dev.upPaths v n k).Same v := by
  unfold Dev.upPaths
  grind [foldl_winMem, foldl_clk, foldl_chip_mode_mode, foldl_chip_servo, foldl_regs_active, foldl_sec_lifecycle, foldl_sec_floor, Dev.restorePath_keeps]
theorem Dev.readConsumer_keeps (v : Dev) (sn : Nat) : (Dev.readConsumer v sn).Same v := by
  unfold Dev.readConsumer
  grind [Dev.post_keeps, Dev.setSession_keeps]
theorem Dev.readAnswered_keeps (v : Dev) (s : Session) : (Dev.readAnswered v s).Same v := by
  unfold Dev.readAnswered
  grind [Dev.receivedOn_keeps, Dev.takeAck_keeps]
theorem Dev.closeSession_keeps (v : Dev) (sn : Nat) : (Dev.closeSession v sn).Same v := by
  unfold Dev.closeSession
  split
  · exact Dev.Same.rfl
  · split
    · exact Dev.Same.rfl
    · dsimp only
      split
      · exact Dev.Same.trans (b := _) ⟨rfl, rfl, rfl, rfl, rfl, rfl, rfl⟩ ((foldl_same _ (fun x p => Dev.releaseQp_keeps _ _) _ _).trans
          ((Dev.finishOk_keeps _ _ _ _ _).trans (foldl_same _ (fun x p => Dev.sendAbout_keeps _ _ _) _ _)))
      · exact Dev.Same.rfl
theorem Dev.failGrantAuth_keeps (v : Dev) (sn : Nat) (va : BitVec 64) : (Dev.failGrantAuth v sn va).Same v := by
  unfold Dev.failGrantAuth
  grind [Dev.refuseCtx_keeps]
theorem Dev.endWrite_keeps (v : Dev) (q : Qp) (m : WriteMsg) (safe : Bool) (p : WritePacket) : (Dev.endWrite v q m safe p).Same v := by
  unfold Dev.endWrite
  grind [Dev.failGrantAuth_keeps, Dev.faultQp_keeps, Dev.count_keeps, Dev.matchImm_keeps]
theorem Dev.freeWindow_keeps (v : Dev) (n : Nat) : (Dev.freeWindow v n).clk = v.clk ∧ (Dev.freeWindow v n).chip.mode.mode = v.chip.mode.mode ∧ (Dev.freeWindow v n).chip.servo = v.chip.servo ∧ (Dev.freeWindow v n).regs.active = v.regs.active ∧ (Dev.freeWindow v n).sec.lifecycle = v.sec.lifecycle ∧ (Dev.freeWindow v n).sec.floor = v.sec.floor := by
  have h1 : ∀ (l : List Nat) (x : Dev), (l.foldl (fun x c => x.fail c stAborted) x).Same x :=
    fun l x => foldl_same _ (fun x a => Dev.fail_keeps x a _) l x
  have h2 : ∀ (l : List Nat) (e : Nat) (x : Dev), (l.foldl (fun x c => x.finishOk c e 0 0) x).Same x :=
    fun l e x => foldl_same _ (fun x a => Dev.finishOk_keeps x a _ _ _) l x
  unfold Dev.freeWindow
  split
  · simp
  · dsimp only
    refine ⟨?_, ?_, ?_, ?_, ?_, ?_⟩
    · rw [(h2 _ _ _).2.1, (h1 _ _).2.1]
    · rw [(h2 _ _ _).2.2.1, (h1 _ _).2.2.1]
    · rw [(h2 _ _ _).2.2.2.1, (h1 _ _).2.2.2.1]
    · rw [(h2 _ _ _).2.2.2.2.1, (h1 _ _).2.2.2.2.1]
    · rw [(h2 _ _ _).2.2.2.2.2.1, (h1 _ _).2.2.2.2.2.1]
    · rw [(h2 _ _ _).2.2.2.2.2.2, (h1 _ _).2.2.2.2.2.2]
theorem Dev.setChain_keeps (v : Dev) (n : Nat) (c : ChainQ) : (Dev.setChain v n c).Same v := by
  unfold Dev.setChain
  simp [Dev.Same]
theorem Dev.endElement_keeps (v : Dev) (e : BitVec 16 × Packet) (st : Byte) : (Dev.endElement v e st).Same v := by
  unfold Dev.endElement
  simp [Dev.Same, Dev.fail_keeps, Dev.fresh_keeps]
theorem Dev.wakeWaiters_keeps (v : Dev) (n : Nat) (counter : BitVec 32) : (Dev.wakeWaiters v n counter).Same v := by
  unfold Dev.wakeWaiters
  refine foldl_same _ (fun x a => ?_) _ _
  repeat' split
  all_goals grind [Dev.finishOk_keeps]
theorem Dev.setBay_keeps (v : Dev) (b : Nat) (x : BayRec) : (Dev.setBay v b x).Same v := by
  unfold Dev.setBay
  simp [Dev.Same]
theorem Dev.fixActive_keeps (v : Dev) (b : Nat) : (Dev.fixActive v b).Same v := by
  unfold Dev.fixActive
  grind [Dev.setBay_keeps]
theorem Dev.countBay_keeps (v : Dev) (b : Nat) (p : BayPort) (ev n : Nat) : (Dev.countBay v b p ev n).Same v := by
  unfold Dev.countBay
  simp [Dev.Same, Dev.count_keeps]
theorem Dev.adjOp_keeps (v : Dev) (id : Nat) (f : BayOp → BayOp) : (Dev.adjOp v id f).Same v := by
  unfold Dev.adjOp
  simp [Dev.Same]
theorem Dev.send_keeps (v : Dev) (o : BayOp) : (Dev.send v o).Same v := by
  unfold Dev.send
  grind [Dev.emit_keeps, Dev.countBay_keeps]
theorem Dev.pumpN_keeps (v : Dev) (b n : Nat) : (v.pumpN b n).Same v := by
  induction n generalizing v with
  | zero => exact Dev.Same.rfl
  | succ n ih =>
    simp only [Dev.pumpN]
    split
    · exact (ih _).trans (Dev.send_keeps _ _)
    · exact Dev.Same.rfl
theorem Dev.pump_keeps (v : Dev) (b : Nat) : (Dev.pump v b).Same v := by
  exact Dev.pumpN_keeps _ _ _
theorem Dev.issueOp_keeps (v : Dev) (b : Nat) (p : BayPort) (lba count : Nat) (cmd : BayCmd) (use : OpUse) (blocks : List (List Byte)) : (Dev.issueOp v b p lba count cmd use blocks).2.Same v := by
  unfold Dev.issueOp
  simp [Dev.Same, Dev.fresh_keeps, Dev.count_keeps, Dev.pump_keeps]
theorem Dev.issueRead_keeps (v : Dev) (b : Nat) (p : BayPort) (lba count : Nat) (use : OpUse) : (Dev.issueRead v b p lba count use).2.Same v := by
  unfold Dev.issueRead
  simp [Dev.Same, Dev.count_keeps, Dev.issueOp_keeps]
theorem Dev.issueWrite_keeps (v : Dev) (b lba : Nat) (blocks : List (List Byte)) (use : OpUse) : (Dev.issueWrite v b lba blocks use).2.Same v := by
  unfold Dev.issueWrite
  simp [Dev.Same, Dev.issueOp_keeps]
theorem Dev.setExt_keeps (v : Dev) (e : Extent) : (Dev.setExt v e).Same v := by
  unfold Dev.setExt
  simp [Dev.Same]
theorem Dev.adjExt_keeps (v : Dev) (claim : Nat) (key : BitVec 128) (f : Extent → Extent) : (Dev.adjExt v claim key f).Same v := by
  unfold Dev.adjExt
  simp [Dev.Same]
theorem Dev.copyBlock_keeps (v : Dev) (b : JournalBlock) (n : Nat) : (Dev.copyBlock v b n).Same v := by
  unfold Dev.copyBlock
  split
  · exact Dev.issueWrite_keeps _ _ _ _ _
  · exact Dev.Same.rfl
theorem Dev.journal_keeps (v : Dev) (r : JournalRec) : (Dev.journal v r).2.Same v := by
  unfold Dev.journal
  simp [Dev.Same, foldl_winMem, foldl_clk, foldl_chip_mode_mode, foldl_chip_servo, foldl_regs_active, foldl_sec_lifecycle, foldl_sec_floor, Dev.copyBlock_keeps]
theorem Dev.journalExt_keeps (v : Dev) (claim : Nat) (key : BitVec 128) : (Dev.journalExt v claim key).Same v := by
  unfold Dev.journalExt
  grind [Dev.journal_keeps]
theorem Dev.writeDrive_keeps (v : Dev) (bay row g : Nat) (img : List Byte) : (Dev.writeDrive v bay row g img).Same v := by
  unfold Dev.writeDrive
  simp [Dev.Same]
theorem Dev.writeSlot_keeps (v : Dev) (bay row : Nat) (imgs : List (List Byte)) : (Dev.writeSlot v bay row imgs).Same v := by
  unfold Dev.writeSlot
  exact foldl_same _ (fun x a => Dev.writeDrive_keeps _ _ _ _ _) _ _
theorem Dev.clearSlot_keeps (v : Dev) (bay row : Nat) : (Dev.clearSlot v bay row).Same v := by
  unfold Dev.clearSlot
  simp [Dev.Same]
theorem Dev.deallocSlot_keeps (v : Dev) (bay row : Nat) : (Dev.deallocSlot v bay row).Same v := by
  unfold Dev.deallocSlot
  grind [Dev.clearSlot_keeps, Dev.issueOp_keeps]
theorem Dev.release_keeps (v : Dev) (t : Stripe) : (Dev.release v t).Same v := by
  unfold Dev.release
  simp [Dev.Same, foldl_winMem, foldl_clk, foldl_chip_mode_mode, foldl_chip_servo, foldl_regs_active, foldl_sec_lifecycle, foldl_sec_floor, Dev.journal_keeps, Dev.deallocSlot_keeps]
theorem Dev.dropJob_keeps (v : Dev) (id : Nat) : (Dev.dropJob v id).Same v := by
  exact ⟨rfl, rfl, rfl, rfl, rfl, rfl, rfl⟩
theorem Dev.writeRemovals_keeps (v : Dev) : (Dev.writeRemovals v).Same v := by
  unfold Dev.writeRemovals
  simp [Dev.Same, foldl_winMem, foldl_clk, foldl_chip_mode_mode, foldl_chip_servo, foldl_regs_active, foldl_sec_lifecycle, foldl_sec_floor, Dev.adjExt_keeps, Dev.journal_keeps]
theorem Dev.reap_keeps (v : Dev) : (Dev.reap v).Same v := by
  unfold Dev.reap
  grind [foldl_winMem, foldl_clk, foldl_chip_mode_mode, foldl_chip_servo, foldl_regs_active, foldl_sec_lifecycle, foldl_sec_floor, Dev.journal_keeps, Dev.writeRemovals_keeps, Dev.release_keeps]
theorem Dev.freeStripe_keeps (v : Dev) (id : Nat) : (Dev.freeStripe v id).Same v := by
  unfold Dev.freeStripe
  grind [foldl_winMem, foldl_clk, foldl_chip_mode_mode, foldl_chip_servo, foldl_regs_active, foldl_sec_lifecycle, foldl_sec_floor, Dev.modeEvent_keeps, Dev.journal_keeps, Dev.reap_keeps, Dev.dropJob_keeps]
theorem Dev.freeEmpty_keeps (v : Dev) : (Dev.freeEmpty v).Same v := by
  unfold Dev.freeEmpty
  simp [Dev.Same, foldl_winMem, foldl_clk, foldl_chip_mode_mode, foldl_chip_servo, foldl_regs_active, foldl_sec_lifecycle, foldl_sec_floor, Dev.freeStripe_keeps, Dev.writeRemovals_keeps]
theorem Dev.gather_keeps (v : Dev) (g : Grain) : (Dev.gather v g).Same v := by
  unfold Dev.gather
  grind [Dev.fresh_keeps]
theorem Dev.gatherAll_keeps (v : Dev) (gs : List Grain) : (Dev.gatherAll v gs).Same v := by
  unfold Dev.gatherAll
  simp [Dev.Same, foldl_winMem, foldl_clk, foldl_chip_mode_mode, foldl_chip_servo, foldl_regs_active, foldl_sec_lifecycle, foldl_sec_floor, Dev.gather_keeps]
theorem Dev.completeCtx_keeps (v : Dev) (c : Ctx) (st : Byte) (settled : Bool) (off len grains : Nat) : (Dev.completeCtx v c st settled off len grains).Same v := by
  unfold Dev.completeCtx
  grind [Dev.dropCtx_keeps, Dev.completeTallied_keeps, Dev.build_keeps]
theorem Dev.refuseExt_keeps (v : Dev) (c : Ctx) (st : Byte) (off : Nat) : (Dev.refuseExt v c st off).Same v := by
  unfold Dev.refuseExt
  grind [Dev.dropCtx_keeps, Dev.answer_keeps, Dev.refuseTallied_keeps]
theorem Dev.lowerLive_keeps (v : Dev) (claim : Nat) (key : BitVec 128) : (Dev.lowerLive v claim key).Same v := by
  unfold Dev.lowerLive
  simp [Dev.Same]
theorem Dev.markHeld_keeps (v : Dev) (c : Ctx) : (Dev.markHeld v c).Same v := by
  unfold Dev.markHeld
  grind [Dev.completeCtx_keeps, Dev.journalExt_keeps, Dev.endGrant_keeps, Dev.adjCtx_keeps, Dev.gatherAll_keeps, Dev.lowerLive_keeps, Dev.adjExt_keeps, Dev.chainDone_keeps, Dev.count_keeps, Dev.freeEmpty_keeps]
theorem Dev.holdIfDue_keeps (v : Dev) (id : Nat) : (Dev.holdIfDue v id).Same v := by
  unfold Dev.holdIfDue
  grind [Dev.markHeld_keeps]
theorem Dev.holdBell_keeps (v : Dev) : (Dev.holdBell v).Same v := by
  unfold Dev.holdBell
  simp [Dev.Same, foldl_winMem, foldl_clk, foldl_chip_mode_mode, foldl_chip_servo, foldl_regs_active, foldl_sec_lifecycle, foldl_sec_floor, Dev.holdIfDue_keeps]
theorem Dev.holdStored_keeps (n : Nat) (v : Dev) : (Dev.holdStored n v).Same v := by
  induction n generalizing v with
  | zero => exact Dev.Same.rfl
  | succ n ih =>
    simp only [Dev.holdStored]
    split
    · exact (ih _).trans (Dev.markHeld_keeps _ _)
    · exact Dev.Same.rfl
theorem Dev.dropGrainsOf_keeps (v : Dev) (id : Nat) : (Dev.dropGrainsOf v id).Same v := by
  unfold Dev.dropGrainsOf
  simp [Dev.Same]
theorem Dev.abandonFrom_keeps (v : Dev) (claim : Nat) (key : BitVec 128) (place : Nat) : (Dev.abandonFrom v claim key place).Same v := by
  unfold Dev.abandonFrom
  simp [Dev.Same, foldl_winMem, foldl_clk, foldl_chip_mode_mode, foldl_chip_servo, foldl_regs_active, foldl_sec_lifecycle, foldl_sec_floor, Dev.discardCtx_keeps, Dev.dropGrainsOf_keeps, Dev.adjExt_keeps]
theorem Dev.abandon_keeps (v : Dev) (c : Ctx) : (Dev.abandon v c).Same v := by
  unfold Dev.abandon
  simp [Dev.Same, Dev.abandonFrom_keeps]
theorem Dev.dropUnheld_keeps (v : Dev) (id : Nat) : (Dev.dropUnheld v id).Same v := by
  unfold Dev.dropUnheld
  grind [Dev.discardCtx_keeps, Dev.abandon_keeps]
theorem Dev.nextPlace_keeps (v : Dev) : (Dev.nextPlace v).2.Same v := by
  unfold Dev.nextPlace
  simp [Dev.Same, Dev.fresh_keeps]
theorem Dev.assign_keeps (v : Dev) (c : Ctx) : (Dev.assign v c).Same v := by
  unfold Dev.assign
  repeat' split
  all_goals grind [Dev.refuseExt_keeps, Dev.setExt_keeps, Dev.adjCtx_keeps, Dev.holdIfDue_keeps, Dev.nextPlace_keeps]
theorem Dev.takeCredit_keeps (v : Dev) (c : Ctx) : (Dev.takeCredit v c).Same v := by
  unfold Dev.takeCredit
  grind [Dev.adjCtx_keeps, Dev.countKeep_keeps]
theorem Dev.stage1_keeps (v : Dev) (c : Ctx) : (Dev.stage1 v c).2.Same v := by
  unfold Dev.stage1
  repeat' split
  all_goals grind [Dev.adjCtx_keeps, Dev.build_keeps, Dev.refuseCtx_keeps, Dev.setSession_keeps]
theorem Dev.refuseWait_keeps (v : Dev) (c : Ctx) : (Dev.refuseWait v c).Same v := by
  unfold Dev.refuseWait
  grind [Dev.count_keeps, Dev.refuseCtx_keeps]
theorem Dev.stepRoom_keeps (v : Dev) (c : Ctx) : (Dev.stepRoom v c).Same v := by
  unfold Dev.stepRoom
  repeat' split
  all_goals grind [Dev.assign_keeps, Dev.refuseWait_keeps, Dev.stage1_keeps]
theorem Dev.serveRoom_keeps (v : Dev) (s : Nat) : (Dev.serveRoom v s).Same v := by
  unfold Dev.serveRoom
  refine foldl_same2 _ (fun x a => ?_) _ _
  dsimp only
  (repeat' split) <;> grind [Dev.takeCredit_keeps, Dev.stepRoom_keeps]
theorem Dev.bufferFault_keeps (v : Dev) (type s : Nat) : (Dev.bufferFault v type s).Same v := by
  unfold Dev.bufferFault
  simp [Dev.Same, Dev.faultAt_keeps, Dev.free64_keeps]
theorem Dev.adjGrain_keeps (v : Dev) (id : Nat) (f : Grain → Grain) : (Dev.adjGrain v id f).Same v := by
  unfold Dev.adjGrain
  simp [Dev.Same]
theorem Dev.readBuffered_keeps (v : Dev) (slot : Nat) (g : Grain) : (Dev.readBuffered v slot g).1.Same v := by
  unfold Dev.readBuffered
  grind [Dev.adjGrain_keeps, Dev.fault_keeps, Dev.bufferFault_keeps]
theorem Dev.protectData_keeps (v : Dev) (q sn : Nat) (data : List Byte) : (Dev.protectData v q sn data).2.Same v := by
  unfold Dev.protectData
  repeat' split
  all_goals grind [Dev.adjQp_keeps, Dev.serveCipher_keeps]
theorem Dev.finishRead_keeps (v : Dev) (r : ReadCtx) (st : Byte) : (Dev.finishRead v r st).Same v := by
  unfold Dev.finishRead
  grind [Dev.adjSession_keeps, Dev.protectData_keeps, Dev.postData_keeps, Dev.chainDone_keeps, Dev.answer_keeps]
theorem Dev.takeBuffered_keeps (v : Dev) (slot arrival : Nat) (l : List (ReadPart × Option Grain)) : (v.takeBuffered slot arrival l).1.Same v := by
  induction l generalizing v with
  | nil => exact Dev.Same.rfl
  | cons e l ih =>
    obtain ⟨p, g⟩ := e
    cases g <;> unfold Dev.takeBuffered <;> (repeat' split) <;> grind [Dev.count_keeps, Dev.readBuffered_keeps]
theorem Dev.adjRead_keeps (v : Dev) (id : Nat) (f : ReadCtx → ReadCtx) : (Dev.adjRead v id f).Same v := by
  unfold Dev.adjRead
  simp [Dev.Same]
theorem Dev.fixTimer_keeps (v : Dev) (id : Nat) : (Dev.fixTimer v id).Same v := by
  unfold Dev.fixTimer
  grind [Dev.adjRead_keeps]
theorem Dev.dropOp_keeps (v : Dev) (id : Nat) : (Dev.dropOp v id).Same v := by
  unfold Dev.dropOp
  grind [Dev.adjRead_keeps, Dev.fixActive_keeps, Dev.fixTimer_keeps]
theorem Dev.endRead_keeps (v : Dev) (r : ReadCtx) (st : Byte) : (Dev.endRead v r st).Same v := by
  unfold Dev.endRead
  simp [Dev.Same, foldl_winMem, foldl_clk, foldl_chip_mode_mode, foldl_chip_servo, foldl_regs_active, foldl_sec_lifecycle, foldl_sec_floor, Dev.finishRead_keeps, Dev.dropOp_keeps]
theorem Dev.checkFault_keeps (v : Dev) (type : Nat) (rc : StripeRec) (pos g : Nat) : (Dev.checkFault v type rc pos g).Same v := by
  unfold Dev.checkFault
  simp [Dev.Same, Dev.faultAt_keeps]
theorem Dev.setScrub_keeps (v : Dev) (s : Nat) (x : Scrub) : (Dev.setScrub v s x).Same v := by
  unfold Dev.setScrub
  simp [Dev.Same]
theorem Dev.endPass_keeps (v : Dev) (s : Nat) : (Dev.endPass v s).Same v := by
  unfold Dev.endPass
  grind [Dev.setScrub_keeps]
theorem Dev.scrubGot_keeps (v : Dev) (s stripe pos count : Nat) (imgs : List (List Byte)) : (Dev.scrubGot v s stripe pos count imgs).Same v := by
  unfold Dev.scrubGot
  simp [Dev.Same, Dev.count_keeps, Dev.setScrub_keeps]
theorem Dev.needsRepair_keeps (v : Dev) (type : Nat) (rc : StripeRec) (pos g : Nat) : (Dev.needsRepair v type rc pos g).Same v := by
  unfold Dev.needsRepair
  grind [Dev.checkFault_keeps, Dev.setScrub_keeps]
theorem Dev.rangeLost_keeps (v : Dev) (claim : Nat) (key : BitVec 128) (stripe off : Nat) : (Dev.rangeLost v claim key stripe off).Same v := by
  unfold Dev.rangeLost
  simp [Dev.Same, Dev.fault_keeps]
theorem Dev.reconstruct_keeps (x : Dev) (rc : StripeRec) (claim : Nat) (key : BitVec 128) (off sp pos g : Nat) (was : Bool) (others : List Nat) (unread : List Nat → List Nat) (attempt : List Nat → Option (List Byte)) : (Dev.reconstruct x rc claim key off sp pos g was others unread attempt).1.Same x := by
  unfold Dev.reconstruct
  repeat' split
  all_goals grind [Dev.fail_keeps, Dev.count_keeps, Dev.rangeLost_keeps, Dev.needsRepair_keeps]
theorem Dev.resolvePart_keeps (v : Dev) (r : ReadCtx) (p : ReadPart) : (Dev.resolvePart v r p).1.Same v := by
  have hc : ∀ (x : Dev) a b c d e, (x.count a b c d e).Same x := Dev.count_keeps
  have hn := Dev.needsRepair_keeps
  have hr : ∀ (x : Dev) (rc : StripeRec) (cl : Nat) (k : BitVec 128) (o sp pos g : Nat) (was : Bool) (a : List Nat) (b : List Nat → List Nat)
      (f : List Nat → Option (List Byte)), (x.reconstruct rc cl k o sp pos g was a b f).1.Same x := fun _ _ _ _ _ _ _ _ _ _ _ _ =>
    Dev.reconstruct_keeps _ _ _ _ _ _ _ _ _ _ _ _
  unfold Dev.resolvePart
  split
  · exact Dev.Same.rfl
  · exact Dev.Same.rfl
  · split
    · exact Dev.Same.rfl
    · lift_lets
      intro sp key img readable others have_ unread try_ recon
      have hrec : ∀ x b, (recon x b).1.Same x := fun x b => hr _ _ _ _ _ _ _ _ _ _ _ _
      clear_value recon try_ unread have_ others readable img key sp
      repeat' split
      all_goals dsimp only
      all_goals repeat first
        | with_reducible exact Dev.Same.rfl
        | with_reducible refine Dev.Same.trans (hrec _ _) ?_
        | with_reducible refine Dev.Same.trans (hc _ _ _ _ _ _) ?_
        | with_reducible refine Dev.Same.trans (hn _ _ _ _ _) ?_
        | with_reducible refine Dev.Same.trans (Dev.fault_keeps _ _ _ _ _ _ _) ?_
theorem Dev.resolveParts_keeps (v : Dev) (r : ReadCtx) (l : List ReadPart) : (v.resolveParts r l).1.Same v := by
  induction l generalizing v with
  | nil => exact Dev.Same.rfl
  | cons p l ih =>
    have hp := Dev.resolvePart_keeps v r p
    unfold Dev.resolveParts
    split
    · rename_i h; rw [h] at hp; exact hp
    · rename_i h; rw [h] at hp; exact (ih _).trans hp
    · rename_i h; rw [h] at hp; exact (ih _).trans hp
theorem Dev.resolveRead_keeps (v : Dev) (id : Nat) : (Dev.resolveRead v id).Same v := by
  unfold Dev.resolveRead
  split
  · exact Dev.Same.rfl
  · split
    · exact Dev.Same.rfl
    · rename_i r _ _
      have h := Dev.resolveParts_keeps v r r.parts
      split
      · rename_i heq; rw [heq] at h; exact (Dev.endRead_keeps _ _ _).trans h
      · rename_i heq; rw [heq] at h
        dsimp only
        split
        · exact (Dev.endRead_keeps _ _ _).trans ((Dev.adjRead_keeps _ _ _).trans h)
        · refine (foldl_same _ ?_ _ _).trans ((Dev.adjRead_keeps _ _ _).trans h)
          intro x a
          split
          · exact Dev.Same.rfl
          · exact (Dev.adjRead_keeps _ _ _).trans (Dev.issueRead_keeps _ _ _ _ _ _)
theorem Dev.progressRead_keeps (v : Dev) (id : Nat) : (Dev.progressRead v id).Same v := by
  unfold Dev.progressRead
  grind [Dev.offerCipher_keeps, Dev.resolveRead_keeps]
theorem Dev.gotImages_keeps (v : Dev) (c stripe pos first count : Nat) (imgs : List (List Byte)) : (Dev.gotImages v c stripe pos first count imgs).Same v := by
  unfold Dev.gotImages
  simp [Dev.Same, Dev.adjRead_keeps, Dev.count_keeps]
theorem Dev.pageLost_keeps (v : Dev) (r : ReadCtx) : (Dev.pageLost v r).Same v := by
  unfold Dev.pageLost
  simp [Dev.Same, Dev.rangeLost_keeps, Dev.endRead_keeps]
theorem Dev.readPage_keeps (v : Dev) (r : ReadCtx) (key c : Nat) : (Dev.readPage v r key c).Same v := by
  unfold Dev.readPage
  grind [Dev.issueRead_keeps, Dev.pageLost_keeps, Dev.adjRead_keeps]
theorem Dev.startRead_keeps (v : Dev) (id : Nat) : (Dev.startRead v id).Same v := by
  unfold Dev.startRead
  grind [Dev.progressRead_keeps, Dev.readPage_keeps]
theorem Dev.pageRead_keeps (v : Dev) (id key : Nat) : (Dev.pageRead v id key).Same v := by
  unfold Dev.pageRead
  grind [Dev.startRead_keeps]
theorem Dev.pageMissed_keeps (v : Dev) (id key c : Nat) : (Dev.pageMissed v id key c).Same v := by
  unfold Dev.pageMissed
  grind [Dev.readPage_keeps]
theorem Dev.setHf_keeps (v : Dev) (h : Headframe) : (Dev.setHf v h).Same v := by
  unfold Dev.setHf
  simp [Dev.Same]
theorem Dev.sliceGoes_keeps (v : Dev) (s : Nat) : (Dev.sliceGoes v s).Same v := by
  unfold Dev.sliceGoes
  simp [Dev.Same, Dev.setHf_keeps]
theorem Dev.sliceBack_keeps (v : Dev) (s : Nat) : (Dev.sliceBack v s).Same v := by
  unfold Dev.sliceBack
  simp [Dev.Same, Dev.setHf_keeps]
theorem Dev.offerCell_keeps (v : Dev) (c0 : Cell) : (Dev.offerCell v c0).Same v := by
  unfold Dev.offerCell
  grind [Dev.setHf_keeps]
theorem Dev.noteGroup_keeps (v : Dev) (c : Cell) : (Dev.noteGroup v c).Same v := by
  unfold Dev.noteGroup
  grind [Dev.bumpVer_keeps, Dev.setHf_keeps]
theorem Dev.injectFrom_keeps (v : Dev) (t a i : Nat) : (Dev.injectFrom v t a i).Same v := by
  unfold Dev.injectFrom
  dsimp only
  repeat' split
  all_goals first
    | exact Dev.Same.rfl
    | exact Dev.setHf_keeps _ _
    | exact (Dev.fault_keeps _ _ _ _ _ _ _).trans (Dev.setHf_keeps _ _)
theorem Dev.arriveAt_keeps (v : Dev) (a o p : Nat) (c : Cell) : (Dev.arriveAt v a o p c).Same v := by
  unfold Dev.arriveAt
  grind [Dev.setHf_keeps, Dev.fault_keeps]
theorem Dev.matchAt_keeps (v : Dev) (t a p j : Nat) : (Dev.matchAt v t a p j).Same v := by
  unfold Dev.matchAt
  dsimp only
  repeat' split
  all_goals first
    | exact Dev.Same.rfl
    | exact Dev.setHf_keeps _ _
    | exact (Dev.count_keeps _ _ _ _ _ _).trans (Dev.setHf_keeps _ _)
    | exact (Dev.arriveAt_keeps _ _ _ _ _).trans (Dev.setHf_keeps _ _)
theorem Dev.releaseCell_keeps (v : Dev) (e : OutCell) : (Dev.releaseCell v e).Same v := by
  unfold Dev.releaseCell
  grind [Dev.setHf_keeps, Dev.emit_keeps, Dev.dropRecov_keeps, Dev.count_keeps]
theorem Dev.releaseFrom_keeps (v : Dev) (o : Nat) : (Dev.releaseFrom v o).Same v := by
  unfold Dev.releaseFrom
  grind [Dev.releaseCell_keeps, Dev.count_keeps, Dev.fault_keeps, Dev.setHf_keeps, Dev.emit_keeps]
theorem Dev.hfBell_keeps (v : Dev) : (Dev.hfBell v).Same v := by
  unfold Dev.hfBell
  dsimp only
  split
  · refine (foldl_same _ (fun x a => ?_) _ _).trans (Dev.setHf_keeps _ _)
    split
    · exact Dev.count_keeps _ _ _ _ _ _
    · exact Dev.Same.rfl
  · exact Dev.setHf_keeps _ _
theorem Dev.admitCreate_keeps (v : Dev) (c : Ctx) : (Dev.admitCreate v c).Same v := by
  unfold Dev.admitCreate
  simp [Dev.Same, Dev.setExt_keeps, Dev.journalExt_keeps, Dev.completeCtx_keeps, Dev.fresh_keeps]
theorem Dev.admitChange_keeps (v : Dev) (c : Ctx) (st : ExtState) : (Dev.admitChange v c st).Same v := by
  unfold Dev.admitChange
  simp [Dev.Same, Dev.holdIfDue_keeps, Dev.adjCtx_keeps, Dev.nextPlace_keeps, Dev.adjExt_keeps]
theorem Dev.admitAppend_keeps (v : Dev) (c : Ctx) : (Dev.admitAppend v c).Same v := by
  unfold Dev.admitAppend
  grind [Dev.assign_keeps, Dev.serveRoom_keeps]
theorem Dev.admitRead_keeps (v : Dev) (c : Ctx) : (Dev.admitRead v c).Same v := by
  unfold Dev.admitRead
  dsimp only
  split
  · exact Dev.refuseExt_keeps _ _ _ _
  · split
    · exact Dev.completeCtx_keeps _ _ _ _ _ _ _
    · split
      · exact Dev.completeCtx_keeps _ _ _ _ _ _ _
      · have h := (Dev.takeBuffered_keeps (v.dropCtx c) c.keySlot c.arrival.val
          (v.readParts c.claim c.msg.cap.key c.msg.cap.offset.toNat c.msg.cap.length.toNat)).trans (Dev.dropCtx_keeps v c)
        revert h
        generalize (v.dropCtx c).takeBuffered c.keySlot c.arrival.val
          (v.readParts c.claim c.msg.cap.key c.msg.cap.offset.toNat c.msg.cap.length.toNat) = z
        intro h
        have hf : ∀ (w : Dev) (l : List ReadCtx), w.Same v → ({ w with hosts := { w.hosts with reads := l } } : Dev).Same v := fun w l h => h
        have h2 := (Dev.fresh_keeps z.1).trans h
        split
        · exact (Dev.finishRead_keeps _ _ _).trans h2
        · split
          · exact (Dev.startRead_keeps _ _).trans h2
          · exact (Dev.finishRead_keeps _ _ _).trans ((Dev.rangeLost_keeps _ _ _ _ _).trans h2)
theorem Dev.admitFlush_keeps (v : Dev) (c : Ctx) : (Dev.admitFlush v c).Same v := by
  unfold Dev.admitFlush
  grind [Dev.dropCtx_keeps, Dev.completeCtx_keeps]
theorem Dev.admitCack_keeps (v : Dev) (c : Ctx) : (Dev.admitCack v c).Same v := by
  unfold Dev.admitCack
  grind [Dev.completeCtx_keeps, Dev.setSession_keeps]
theorem Dev.admitStat_keeps (v : Dev) (c : Ctx) : (Dev.admitStat v c).Same v := by
  unfold Dev.admitStat
  grind [Dev.completeCtx_keeps, Dev.refuseExt_keeps]
theorem Dev.admitted_keeps (v0 : Dev) (c : Ctx) : (Dev.admitted v0 c).Same v0 := by
  unfold Dev.admitted
  grind [Dev.admitFlush_keeps, Dev.admitChange_keeps, Dev.admitRead_keeps, Dev.admitStat_keeps, Dev.admitCreate_keeps, Dev.admitAppend_keeps, Dev.completeCtx_keeps, Dev.count_keeps, Dev.refuseExt_keeps, Dev.admitCack_keeps]
theorem Dev.setSched_keeps (v : Dev) (s : Nat) (x : Sched) : (Dev.setSched v s x).Same v := by
  unfold Dev.setSched
  simp [Dev.Same]
theorem Dev.demote_keeps (v : Dev) (s : Nat) : (Dev.demote v s).Same v := by
  unfold Dev.demote
  grind [Dev.count_keeps]
theorem Dev.spendGrants_keeps (n : Nat) (v : Dev) (s : Nat) : (Dev.spendGrants n v s).Same v := by
  induction n generalizing v with
  | zero => exact Dev.Same.rfl
  | succ n ih =>
    unfold Dev.spendGrants
    dsimp only
    have hd := Dev.demote_keeps v s
    split
    · exact hd
    · split
      · exact hd
      · exact (ih _).trans ((Dev.admitted_keeps _ _).trans ((Dev.setSched_keeps _ _ _).trans hd))
theorem Dev.runSched_keeps (v : Dev) (s : Nat) : (Dev.runSched v s).Same v := by
  unfold Dev.runSched
  grind [Dev.spendGrants_keeps]
theorem Dev.countForward_keeps (v : Dev) (s : Session) (k : CmdKind) (d : Delivered) : (Dev.countForward v s k d).Same v := by
  unfold Dev.countForward
  grind [Dev.count_keeps]
theorem Dev.queueCapsule_keeps (v0 : Dev) (sn : Nat) (s : Session) (k : CmdKind) (w : Waiting) : (Dev.queueCapsule v0 sn s k w).Same v0 := by
  unfold Dev.queueCapsule
  repeat' split
  all_goals grind [Dev.fresh_keeps, Dev.refuseTallied_keeps, Dev.runSched_keeps, Dev.adjSession_keeps, Dev.countForward_keeps, Dev.reserveNonce_keeps, Dev.answer_keeps]
theorem Dev.capsule_keeps (v : Dev) (op : Byte) (k : CmdKind) (d0 : Delivered) : (Dev.capsule v op k d0).Same v := by
  unfold Dev.capsule
  split
  · exact Dev.Same.rfl
  · rename_i w _
    dsimp only
    split
    · exact Dev.Same.rfl
    · split
      · exact Dev.Same.rfl
      · generalize hv1 : ({ v with hosts := { v.hosts with inbox := dropFirst (fun x => x.is op d0) v.hosts.inbox } } : Dev) = v1
        have h1 : v1.Same v := by rw [← hv1]; exact Dev.Same.rfl
        clear hv1
        have h2 : ∀ n, (v1.pfcCheck n).Same v := fun n => (Dev.pfcCheck_keeps _ _).trans h1
        cases v1.qp w.msg.qp <;> dsimp only <;> repeat' split
        all_goals first
          | with_reducible exact Dev.Same.rfl
          | with_reducible exact (Dev.answer_keeps _ _ _ _ _ _ _).trans h1
          | with_reducible exact (Dev.refuseTallied_keeps _ _ _ _ _ _ _).trans h1
          | with_reducible exact (Dev.answerRecord_keeps _ _ _ _).trans h1
          | with_reducible exact (Dev.queueCapsule_keeps _ _ _ _ _).trans h1
          | with_reducible exact (Dev.answer_keeps _ _ _ _ _ _ _).trans ((Dev.count_keeps _ _ _ _ _ _).trans h1)
          | with_reducible exact (Dev.answer_keeps _ _ _ _ _ _ _).trans (h2 _)
          | with_reducible exact (Dev.refuseTallied_keeps _ _ _ _ _ _ _).trans (h2 _)
          | with_reducible exact (Dev.answerRecord_keeps _ _ _ _).trans (h2 _)
          | with_reducible exact (Dev.queueCapsule_keeps _ _ _ _ _).trans (h2 _)
          | with_reducible exact (Dev.answer_keeps _ _ _ _ _ _ _).trans ((Dev.count_keeps _ _ _ _ _ _).trans (h2 _))
          | exact Dev.Same.trans Dev.Same.rfl h1
          | exact Dev.Same.trans Dev.Same.rfl (h2 _)
theorem Dev.newStripe_keeps (v : Dev) (s claim m grains : Nat) (w : Dev) (i : StripeRec) (hw : Dev.newStripe v s claim m grains = some (i, w)) : w.Same v := by
  unfold Dev.newStripe at hw
  grind
theorem Dev.issueSeam_keeps (v : Dev) (r : StripeRec) (p bay row : Nat) (imgs : List (List Byte)) (use : OpUse) : (Dev.issueSeam v r p bay row imgs use).2.Same v := by
  unfold Dev.issueSeam
  grind [Dev.issueWrite_keeps, Dev.issueOp_keeps]
theorem Dev.issueStripe_keeps (v : Dev) (r : StripeRec) (imgs : List (List Byte)) (use : Nat → OpUse) : (Dev.issueStripe v r imgs use).2.Same v := by
  unfold Dev.issueStripe
  refine (foldl_same3 _ ?_ _ ([], v)).trans Dev.Same.rfl
  intro a p
  split
  · exact Dev.Same.rfl
  · exact Dev.issueSeam_keeps _ _ _ _ _ _ _
theorem Dev.publish_keeps (v : Dev) (r : StripeRec) (rs : List RunGrain) (profK : Nat) (profVer : BitVec 8) : (Dev.publish v r rs profK profVer).Same v := by
  unfold Dev.publish
  grind [Dev.modeEvent_keeps, Dev.freeEmpty_keeps]
theorem Dev.setPend_keeps (v : Dev) (p : Pending) : (Dev.setPend v p).Same v := by
  unfold Dev.setPend
  simp [Dev.Same]
theorem Dev.closeStripe_keeps (v : Dev) (p : Pending) (cause : CloseCause) : (Dev.closeStripe v p cause).Same v := by
  unfold Dev.closeStripe
  grind [Dev.newStripe_keeps, Dev.setPend_keeps, Dev.issueStripe_keeps, Dev.count_keeps, Dev.gatherAll_keeps]
theorem Dev.failStripe_keeps (v : Dev) (pid : Nat) : (Dev.failStripe v pid).Same v := by
  unfold Dev.failStripe
  simp [Dev.Same, Dev.gatherAll_keeps]
theorem Dev.writesDone_keeps (v : Dev) (pid : Nat) : (Dev.writesDone v pid).Same v := by
  unfold Dev.writesDone
  grind [Dev.chainDone_keeps, Dev.setPend_keeps, Dev.journal_keeps]
theorem Dev.settleWritten_keeps (v : Dev) (pid op : Nat) : (Dev.settleWritten v pid op).Same v := by
  unfold Dev.settleWritten
  grind [Dev.setPend_keeps, Dev.writesDone_keeps]
theorem Dev.putBlocks_keeps (v : Dev) (o : BayOp) : (Dev.putBlocks v o).Same v := by
  unfold Dev.putBlocks
  grind [foldl_winMem, foldl_clk, foldl_chip_mode_mode, foldl_chip_servo, foldl_regs_active, foldl_sec_lifecycle, foldl_sec_floor, Dev.writeDrive_keeps, Dev.count_keeps]
theorem Dev.copyWritten_keeps (v : Dev) (seq bay : Nat) : (Dev.copyWritten v seq bay).Same v := by
  unfold Dev.copyWritten
  simp [Dev.Same, Dev.journal_keeps]
theorem Dev.copyFailed_keeps (v : Dev) (seq bay : Nat) : (Dev.copyFailed v seq bay).Same v := by
  unfold Dev.copyFailed
  grind [Dev.journal_keeps, Dev.copyBlock_keeps]
theorem Dev.settledWaiters_keeps (v : Dev) : (Dev.settledWaiters v).Same v := by
  unfold Dev.settledWaiters
  simp [Dev.Same, foldl_winMem, foldl_clk, foldl_chip_mode_mode, foldl_chip_servo, foldl_regs_active, foldl_sec_lifecycle, foldl_sec_floor, Dev.completeCtx_keeps]
theorem Dev.cleanStripe_keeps (v : Dev) (stripe : Nat) : (Dev.cleanStripe v stripe).Same v := by
  unfold Dev.cleanStripe
  grind [Dev.writeRemovals_keeps, Dev.chainDone_keeps, Dev.count_keeps, Dev.settledWaiters_keeps, Dev.countKeep_keeps, Dev.publish_keeps, Dev.journal_keeps]
theorem Dev.dropPageCopy_keeps (v : Dev) (key b : Nat) : (Dev.dropPageCopy v key b).Same v := by
  unfold Dev.dropPageCopy
  grind [Dev.issueOp_keeps]
theorem Dev.freePage_keeps (v : Dev) (key : Nat) : (Dev.freePage v key).Same v := by
  unfold Dev.freePage
  grind [foldl_winMem, foldl_clk, foldl_chip_mode_mode, foldl_chip_servo, foldl_regs_active, foldl_sec_lifecycle, foldl_sec_floor, Dev.dropPageCopy_keeps]
theorem Dev.mendPage_keeps (v : Dev) (key : Nat) (p : MapPage) : (Dev.mendPage v key p).Same v := by
  unfold Dev.mendPage
  grind [foldl_winMem, foldl_clk, foldl_chip_mode_mode, foldl_chip_servo, foldl_regs_active, foldl_sec_lifecycle, foldl_sec_floor, Dev.issueWrite_keeps]
theorem Dev.writePage_keeps (v : Dev) (spire key : Nat) (body : PageBody) : (Dev.writePage v spire key body).Same v := by
  have hg : ∀ l, (Dev.writePage.go spire key body v l).Same v := by
    intro l
    unfold Dev.writePage.go
    dsimp only
    refine (foldl_same _ (fun x b => Dev.issueWrite_keeps _ _ _ _ _) _ _).trans ((foldl_same _ (fun x b => Dev.dropPageCopy_keeps _ _ _) _ _).trans ?_)
    exact ⟨rfl, rfl, rfl, rfl, rfl, rfl, rfl⟩
  unfold Dev.writePage
  split
  · split
    · exact Dev.mendPage_keeps _ _ _
    · exact hg _
  · exact hg _
theorem Dev.writeRuns_keeps (v : Dev) (e : Extent) : (Dev.writeRuns v e).Same v := by
  unfold Dev.writeRuns
  simp [Dev.Same, foldl_winMem, foldl_clk, foldl_chip_mode_mode, foldl_chip_servo, foldl_regs_active, foldl_sec_lifecycle, foldl_sec_floor, Dev.writePage_keeps, Dev.adjExt_keeps, Dev.freePage_keeps]
theorem Dev.writeRecs_keeps (v : Dev) (page : Nat) : (Dev.writeRecs v page).Same v := by
  unfold Dev.writeRecs
  grind [Dev.writePage_keeps, Dev.freePage_keeps]
theorem Dev.writePages_keeps (v : Dev) : (Dev.writePages v).Same v := by
  unfold Dev.writePages
  simp [Dev.Same, foldl_winMem, foldl_clk, foldl_chip_mode_mode, foldl_chip_servo, foldl_regs_active, foldl_sec_lifecycle, foldl_sec_floor, Dev.writeRecs_keeps, Dev.writeRuns_keeps]
theorem Dev.relabel_keeps (v : Dev) : (Dev.relabel v).Same v := by
  unfold Dev.relabel
  dsimp only
  refine foldl_same _ ?_ _ _
  intro x b
  split
  · split
    · exact Dev.Same.rfl
    · exact Dev.issueWrite_keeps _ _ _ _ _
  · exact Dev.Same.rfl
theorem Dev.checkpointStep_keeps (v : Dev) : (Dev.checkpointStep v).Same v := by
  unfold Dev.checkpointStep
  grind [Dev.journal_keeps]
theorem Dev.checkStale_keeps (v : Dev) (b : Option Nat) : (Dev.checkStale v b).Same v := by
  unfold Dev.checkStale
  grind [Dev.setBay_keeps]
theorem Dev.adjJob_keeps (v : Dev) (id : Nat) (f : Job → Job) : (Dev.adjJob v id f).Same v := by
  unfold Dev.adjJob
  simp [Dev.Same]
theorem Dev.formStripes_keeps (v : Dev) (id : Nat) (t : Stripe) (n : Nat) (l : List (RunGrain × List Byte)) (w : Dev) (hw : v.formStripes id t n l = some w) : w.Same v := by
  induction n generalizing v l with
  | zero => simp only [Dev.formStripes, Option.some.injEq] at hw; exact hw ▸ Dev.Same.rfl
  | succ n ih =>
    cases l with
    | nil => simp only [Dev.formStripes, Option.some.injEq] at hw; exact hw ▸ Dev.Same.rfl
    | cons a l =>
      simp only [Dev.formStripes] at hw
      split at hw
      · cases hw
      · rename_i r v1 h
        exact (ih _ _ hw).trans ((Dev.adjJob_keeps _ _ _).trans (Dev.newStripe_keeps _ _ _ _ _ _ _ h))
theorem Dev.jobWrite_keeps (v : Dev) (j : Job) (t : Stripe) : (Dev.jobWrite v j t).Same v := by
  unfold Dev.jobWrite
  dsimp only
  split
  · split
    · exact Dev.dropJob_keeps _ _
    · exact (Dev.issueSeam_keeps _ _ _ _ _ _ _).trans (Dev.adjJob_keeps _ _ _)
  · exact Dev.dropJob_keeps _ _
  · split
    · exact Dev.dropJob_keeps _ _
    · split
      · exact Dev.dropJob_keeps _ _
      · rename_i h
        exact (foldl_same _ (fun x n => Dev.issueStripe_keeps _ _ _ _) _ _).trans ((Dev.adjJob_keeps _ _ _).trans
          (Dev.formStripes_keeps _ _ _ _ _ _ h))
theorem Dev.jobJournal_keeps (v : Dev) (j : Job) (r : StripeRec) : (Dev.jobJournal v j r).Same v := by
  unfold Dev.jobJournal
  grind [foldl_winMem, foldl_clk, foldl_chip_mode_mode, foldl_chip_servo, foldl_regs_active, foldl_sec_lifecycle, foldl_sec_floor, Dev.adjJob_keeps, Dev.journal_keeps]
theorem Dev.jobStep_keeps (v : Dev) (id : Nat) : (Dev.jobStep v id).Same v := by
  unfold Dev.jobStep
  split
  · exact Dev.Same.rfl
  · split
    · exact Dev.Same.rfl
    · split
      · exact Dev.dropJob_keeps _ _
      · dsimp only
        split
        · split
          · exact Dev.jobJournal_keeps _ _ _
          · exact Dev.Same.rfl
        · split
          · exact Dev.dropJob_keeps _ _
          · split
            · split
              · exact (Dev.jobWrite_keeps _ _ _).trans (Dev.offerCipher_keeps _ _ _ _ _)
              · exact Dev.offerCipher_keeps _ _ _ _ _
            · refine foldl_same _ ?_ _ _
              intro x e
              split
              · exact Dev.issueRead_keeps _ _ _ _ _ _
              · exact Dev.Same.rfl
theorem Dev.jobServed_keeps (v : Dev) (id : Nat) : (Dev.jobServed v id).Same v := by
  unfold Dev.jobServed
  grind [Dev.jobWrite_keeps, Dev.dropJob_keeps]
theorem Dev.jobGot_keeps (v : Dev) (id pos first count : Nat) (imgs : List (List Byte)) : (Dev.jobGot v id pos first count imgs).Same v := by
  unfold Dev.jobGot
  simp [Dev.Same, Dev.jobStep_keeps, Dev.adjJob_keeps, Dev.count_keeps]
theorem Dev.showRebuilt_keeps (v : Dev) (j : Job) (r : StripeRec) (position : Nat) : (Dev.showRebuilt v j r position).Same v := by
  unfold Dev.showRebuilt
  grind [Dev.dropJob_keeps, Dev.count_keeps, Dev.checkStale_keeps]
theorem Dev.jobPublish_keeps (v : Dev) (j : Job) (t : Stripe) : (Dev.jobPublish v j t).Same v := by
  unfold Dev.jobPublish
  grind [foldl_winMem, foldl_clk, foldl_chip_mode_mode, foldl_chip_servo, foldl_regs_active, foldl_sec_lifecycle, foldl_sec_floor, Dev.setScrub_keeps, Dev.freeStripe_keeps, Dev.publish_keeps, Dev.dropJob_keeps, Dev.showRebuilt_keeps]
theorem Dev.finishJob_keeps (v : Dev) (stripe : Nat) (kind : JobKind) : (Dev.finishJob v stripe kind).Same v := by
  unfold Dev.finishJob
  grind [Dev.jobPublish_keeps]
theorem Dev.stopScrub_keeps (v : Dev) : (Dev.stopScrub v).Same v := by
  unfold Dev.stopScrub
  simp [Dev.Same]
theorem Dev.stopJobs_keeps (v : Dev) : (Dev.stopJobs v).Same v := by
  unfold Dev.stopJobs
  simp [Dev.Same, foldl_winMem, foldl_clk, foldl_chip_mode_mode, foldl_chip_servo, foldl_regs_active, foldl_sec_lifecycle, foldl_sec_floor, Dev.finishJob_keeps, Dev.dropJob_keeps, Dev.stopScrub_keeps]
theorem Dev.startJob_keeps (v : Dev) (s : Nat) : (Dev.startJob v s).Same v := by
  unfold Dev.startJob
  grind [Dev.jobStep_keeps, Dev.fresh_keeps]
theorem Dev.scrubRead_keeps (v : Dev) (s : Spire) (r : StripeRec) (p : Nat) : (Dev.scrubRead v s r p).Same v := by
  unfold Dev.scrubRead
  grind [Dev.issueRead_keeps]
theorem Dev.scrubNext_keeps (n : Nat) (v : Dev) (s : Spire) : (Dev.scrubNext n v s).Same v := by
  induction n generalizing v with
  | zero => exact Dev.Same.rfl
  | succ n ih =>
    unfold Dev.scrubNext
    dsimp only
    split
    · exact Dev.Same.rfl
    · split
      · exact Dev.Same.rfl
      · split
        · exact (ih _).trans (Dev.setScrub_keeps _ _ _)
        · split
          · exact (ih _).trans (Dev.setScrub_keeps _ _ _)
          · exact (foldl_same _ (fun x p => Dev.scrubRead_keeps x _ _ _) _ _).trans (Dev.setScrub_keeps _ _ _)
theorem Dev.scrubBell_keeps (v : Dev) (s : Spire) : (Dev.scrubBell v s).Same v := by
  unfold Dev.scrubBell
  grind [Dev.endPass_keeps, Dev.scrubNext_keeps]
theorem Dev.bayBell_keeps (v : Dev) : (Dev.bayBell v).Same v := by
  unfold Dev.bayBell
  simp [Dev.Same, foldl_winMem, foldl_clk, foldl_chip_mode_mode, foldl_chip_servo, foldl_regs_active, foldl_sec_lifecycle, foldl_sec_floor, Dev.pump_keeps, Dev.startJob_keeps, Dev.scrubBell_keeps]
theorem Dev.scanMismatch_keeps (v : Dev) (s : Spire) (data : Nat) : (Dev.scanMismatch v s data).Same v := by
  unfold Dev.scanMismatch
  simp [Dev.Same, Dev.free32_keeps, Dev.emit_keeps]
theorem Dev.scanDone_keeps (v : Dev) (x : Scan) : (Dev.scanDone v x).2.Same v := by
  unfold Dev.scanDone
  grind [Dev.free32_keeps]
theorem Dev.cutScan_keeps (v : Dev) (s : Nat) (tag : BitVec 16) (st : Byte) : (Dev.cutScan v s tag st).Same v := by
  unfold Dev.cutScan
  grind [Dev.finish_keeps, Dev.scanDone_keeps]
theorem Dev.scanNext_keeps (v : Dev) (s : Spire) (tag : BitVec 16) : (Dev.scanNext v s tag).Same v := by
  unfold Dev.scanNext
  grind [Dev.issueRead_keeps]
theorem Dev.opWritten_keeps (v : Dev) (o : BayOp) : (Dev.opWritten v o).Same v := by
  unfold Dev.opWritten
  grind [Dev.copyWritten_keeps, Dev.jobStep_keeps, Dev.checkpointStep_keeps, Dev.setBay_keeps, Dev.journal_keeps, Dev.putBlocks_keeps, Dev.settleWritten_keeps, Dev.jobWrite_keeps, Dev.count_keeps, Dev.countBay_keeps]
theorem Dev.opEnds_keeps (v : Dev) (o : BayOp) : (Dev.opEnds v o).Same v := by
  unfold Dev.opEnds
  grind [Dev.count_keeps, Dev.cutScan_keeps, Dev.gotImages_keeps, Dev.failStripe_keeps, Dev.jobWrite_keeps, Dev.dropJob_keeps, Dev.journal_keeps, Dev.copyFailed_keeps, Dev.pageMissed_keeps, Dev.progressRead_keeps, Dev.scrubRead_keeps, Dev.checkpointStep_keeps, Dev.jobGot_keeps, Dev.scrubGot_keeps]
theorem Dev.opUnresolved_keeps (v : Dev) (o : BayOp) : (Dev.opUnresolved v o).Same v := by
  unfold Dev.opUnresolved
  simp [Dev.Same, Dev.dropOp_keeps, Dev.opEnds_keeps]
theorem Dev.scanGot_keeps (v : Dev) (s : Spire) (tag : BitVec 16) (got : List (List Byte)) : (Dev.scanGot v s tag got).Same v := by
  unfold Dev.scanGot
  grind [Dev.count_keeps, Dev.scanMismatch_keeps]
theorem Dev.opRead_keeps (v : Dev) (o : BayOp) (imgs : List (List Byte)) : (Dev.opRead v o imgs).Same v := by
  unfold Dev.opRead
  grind [Dev.scrubGot_keeps, Dev.scanGot_keeps, Dev.scrubRead_keeps, Dev.pageRead_keeps, Dev.scanNext_keeps, Dev.progressRead_keeps, Dev.count_keeps, Dev.jobGot_keeps, Dev.gotImages_keeps, Dev.countBay_keeps]
theorem Dev.resendOp_keeps (v : Dev) (o : BayOp) (p : BayPort) (switched : Bool) : (Dev.resendOp v o p switched).Same v := by
  unfold Dev.resendOp
  simp [Dev.Same, Dev.adjOp_keeps, Dev.emit_keeps]
theorem Dev.moveOp_keeps (v : Dev) (o : BayOp) : (Dev.moveOp v o).Same v := by
  unfold Dev.moveOp
  grind [Dev.adjOp_keeps, Dev.resendOp_keeps, Dev.opUnresolved_keeps]
theorem Dev.takeTimeout_keeps (v : Dev) (o : BayOp) (lease : BayPort × Nat) : (Dev.takeTimeout v o lease).Same v := by
  unfold Dev.takeTimeout
  grind [Dev.fixActive_keeps, Dev.adjOp_keeps, Dev.emit_keeps, Dev.faultAt_keeps, Dev.fixTimer_keeps, Dev.countBay_keeps]
theorem Dev.passLease_keeps (v : Dev) (l : LeaseRef) : (Dev.passLease v l).Same v := by
  unfold Dev.passLease
  grind [Dev.free32_keeps, Dev.dropRecov_keeps, Dev.takeRecov_keeps, Dev.opUnresolved_keeps, Dev.fault_keeps]
theorem Dev.resetsDone_keeps (v : Dev) (covers : BitVec 32 → Bool) : (Dev.resetsDone v covers).Same v := by
  unfold Dev.resetsDone
  grind [foldl_winMem, foldl_clk, foldl_chip_mode_mode, foldl_chip_servo, foldl_regs_active, foldl_sec_lifecycle, foldl_sec_floor, Dev.noteFault_keeps]
theorem Dev.markExposed_keeps (v : Dev) (p : Grain → Bool) (b : Bool) : (Dev.markExposed v p b).Same v := by
  unfold Dev.markExposed
  simp [Dev.Same]
theorem Dev.fixExposure_keeps (v0 : Dev) : (Dev.fixExposure v0).Same v0 := by
  unfold Dev.fixExposure
  dsimp only
  have h : (if (v0.exposureMask / 16) &&& (v0.chip.exposure.cause / 16) != v0.exposureMask / 16 then
      v0.markExposed (fun g => g.held) true else v0).Same v0 := by
    split
    · exact Dev.markExposed_keeps _ _ _
    · exact Dev.Same.rfl
  revert h
  generalize (if (v0.exposureMask / 16) &&& (v0.chip.exposure.cause / 16) != v0.exposureMask / 16 then
      v0.markExposed (fun g => g.held) true else v0) = w
  intro h
  split
  · exact (Dev.noticeAll_keeps _ _ _).trans h
  · split
    · exact h
    · split
      · exact (foldl_same _ (fun y c => Dev.completeCtx_keeps _ _ _ _ _ _ _) _ _).trans
          ((Dev.noticeAll_keeps _ _ _).trans ((Dev.markExposed_keeps _ _ _).trans h))
      · exact h
theorem Dev.partFails_keeps (v : Dev) (p : Part) : (Dev.partFails v p).Same v := by
  unfold Dev.partFails
  simp [Dev.Same, Dev.fixExposure_keeps, Dev.modeEvent_keeps]
theorem Dev.partRepaired_keeps (v : Dev) (p : Part) : (Dev.partRepaired v p).Same v := by
  unfold Dev.partRepaired
  grind [Dev.fixExposure_keeps, Dev.modeEvent_keeps]
theorem Dev.loseHeld_keeps (v : Dev) (c : Ctx) : (Dev.loseHeld v c).Same v := by
  unfold Dev.loseHeld
  grind [foldl_winMem, foldl_clk, foldl_chip_mode_mode, foldl_chip_servo, foldl_regs_active, foldl_sec_lifecycle, foldl_sec_floor, Dev.completeCtx_keeps, Dev.abandonFrom_keeps, Dev.discardCtx_keeps, Dev.dropGrainsOf_keeps, Dev.adjExt_keeps]
theorem Dev.sweepGrains_keeps (v : Dev) : (Dev.sweepGrains v).Same v := by
  unfold Dev.sweepGrains
  dsimp only
  split
  · exact Dev.Same.rfl
  · refine (foldl_same _ ?_ _ _).trans ((foldl_same _ ?_ _ _).trans ((foldl_same _ ?_ _ _).trans ?_))
    · intro x c; split
      · exact Dev.loseHeld_keeps _ _
      · exact Dev.Same.rfl
    · intro x c; split
      · exact Dev.abandon_keeps _ _
      · exact Dev.Same.rfl
    · intro x g; split
      · exact Dev.rangeLost_keeps _ _ _ _ _
      · exact Dev.Same.rfl
    · exact ⟨rfl, rfl, rfl, rfl, rfl, rfl, rfl⟩
theorem Dev.loseStack_keeps (v : Dev) (s : Nat) : (Dev.loseStack v s).Same v := by
  unfold Dev.loseStack
  simp [Dev.Same, Dev.sweepGrains_keeps]
theorem Dev.loseBank_keeps (v : Dev) (s : Nat) : (Dev.loseBank v s).Same v := by
  unfold Dev.loseBank
  dsimp only
  refine (foldl_same _ ?_ _ _).trans ((Dev.sweepGrains_keeps _).trans ?_)
  · intro x c; split
    · exact Dev.abandon_keeps _ _
    · exact Dev.Same.rfl
  · refine Dev.Same.trans (b := _) ⟨rfl, rfl, rfl, rfl, rfl, rfl, rfl⟩ ((foldl_same3 _ ?_ _ _).trans (foldl_same3 _ ?_ _ _))
    · intro x c
      split
      · exact Dev.Same.rfl
      · exact Dev.freeBool_keeps _
    · intro x g
      exact Dev.freeBool_keeps _
theorem Dev.remirror_keeps (v : Dev) (s : Nat) : (Dev.remirror v s).Same v := by
  unfold Dev.remirror
  simp [Dev.Same]
theorem Dev.restoreRegs_keeps (v : Dev) (lo n : Nat) : (Dev.restoreRegs v lo n).Same v := by
  unfold Dev.restoreRegs
  simp [Dev.Same]
theorem Dev.stopPorts_keeps (v : Dev) (s : Nat) : (Dev.stopPorts v s).Same v := by
  unfold Dev.stopPorts
  simp [Dev.Same, foldl_winMem, foldl_clk, foldl_chip_mode_mode, foldl_chip_servo, foldl_regs_active, foldl_sec_lifecycle, foldl_sec_floor, Dev.downPort_keeps, Dev.setPort_keeps]
theorem Dev.stopSpire_keeps (v : Dev) (s : Nat) (st : SpireState) : (Dev.stopSpire v s st).Same v := by
  unfold Dev.stopSpire
  simp [Dev.Same, Dev.setCipher_keeps, Dev.stopPorts_keeps, Dev.setSpire_keeps, Dev.restoreRegs_keeps]
theorem Dev.dropHomed_keeps (v : Dev) (s : Nat) : (Dev.dropHomed v s).Same v := by
  unfold Dev.dropHomed
  simp [Dev.Same, foldl_winMem, foldl_clk, foldl_chip_mode_mode, foldl_chip_servo, foldl_regs_active, foldl_sec_lifecycle, foldl_sec_floor, Dev.dropOp_keeps]
theorem Dev.handOver_keeps (v : Dev) (s : Nat) : (Dev.handOver v s).Same v := by
  have hp : ∀ (x : Dev) (a : List SpireLease) (b : Tab Sched), x.Same v →
      ({ x with spireLeases := a, hosts := { x.hosts with scheds := b } } : Dev).Same v := fun x a b h => h
  unfold Dev.handOver
  dsimp only
  refine (foldl_same _ (fun x a => ?_) _ _).trans ?_
  · split
    · exact Dev.moveOp_keeps _ _
    · exact Dev.Same.rfl
  refine (foldl_same _ (fun x a => Dev.fixActive_keeps _ _) _ _).trans ?_
  refine hp _ _ _ ?_
  refine (foldl_same _ (fun x a => Dev.dropJob_keeps _ _) _ _).trans ?_
  refine (foldl_same _ (fun x a => Dev.cutScan_keeps _ _ _ _) _ _).trans ?_
  refine (foldl_same _ (fun x a => Dev.failStripe_keeps _ _) _ _).trans ?_
  refine (Dev.setSpire_keeps _ _ _).trans ?_
  refine (foldl_same _ (fun x a => Dev.holdPath_keeps _ _) _ _).trans ?_
  refine (Dev.dropHomed_keeps _ _).trans ?_
  exact foldl_same _ (fun x a => Dev.dropUnheld_keeps _ _) _ _
theorem Dev.loseSpire_keeps (v : Dev) (s : Nat) : (Dev.loseSpire v s).clk = v.clk ∧ (Dev.loseSpire v s).chip.mode.mode = v.chip.mode.mode ∧ (Dev.loseSpire v s).chip.servo = v.chip.servo ∧ (Dev.loseSpire v s).regs.active = v.regs.active ∧ (Dev.loseSpire v s).sec.lifecycle = v.sec.lifecycle ∧ (Dev.loseSpire v s).sec.floor = v.sec.floor := by
  unfold Dev.loseSpire
  simp [Dev.Same, foldl_clk, foldl_chip_mode_mode, foldl_chip_servo, foldl_regs_active, foldl_sec_lifecycle, foldl_sec_floor, Dev.setSpire_keeps, Dev.setScrub_keeps, Dev.partFails_keeps, Dev.handOver_keeps, Dev.freeWindow_keeps, Dev.loseStack_keeps, Dev.sliceGoes_keeps]
theorem Dev.isolateKeep_keeps (v : Dev) (k : KeepId) : (Dev.isolateKeep v k).Same v := by
  unfold Dev.isolateKeep
  grind [Dev.setKeep_keeps, Dev.partFails_keeps]
theorem Dev.replaceJournal_keeps (v : Dev) (b : Nat) : (Dev.replaceJournal v b).Same v := by
  unfold Dev.replaceJournal
  dsimp only
  split
  · exact Dev.Same.rfl
  · split
    · exact Dev.Same.rfl
    · exact (foldl_same _ (fun x k => Dev.copyBlock_keeps _ _ _) _ _).trans ⟨rfl, rfl, rfl, rfl, rfl, rfl, rfl⟩
theorem Dev.joinJournal_keeps (v : Dev) (b : Nat) : (Dev.joinJournal v b).Same v := by
  unfold Dev.joinJournal
  grind [foldl_winMem, foldl_clk, foldl_chip_mode_mode, foldl_chip_servo, foldl_regs_active, foldl_sec_lifecycle, foldl_sec_floor, Dev.copyBlock_keeps, Dev.replaceJournal_keeps, Dev.journal_keeps]
theorem Dev.endBayOps_keeps (v : Dev) (b : Nat) : (Dev.endBayOps v b).Same v := by
  unfold Dev.endBayOps
  grind [foldl_winMem, foldl_clk, foldl_chip_mode_mode, foldl_chip_servo, foldl_regs_active, foldl_sec_lifecycle, foldl_sec_floor, Dev.opUnresolved_keeps]
theorem Dev.bayLeaves_keeps (v : Dev) (b : Nat) (st : BayState) : (Dev.bayLeaves v b st).Same v := by
  unfold Dev.bayLeaves
  grind [Dev.endBayOps_keeps, Dev.replaceJournal_keeps, Dev.setBay_keeps]
theorem Dev.createQueues_keeps (v : Dev) (b : Nat) : (Dev.createQueues v b).Same v := by
  unfold Dev.createQueues
  simp [Dev.Same, Dev.setBay_keeps, Dev.emitAll_keeps, Dev.count_keeps]
theorem Dev.noteDrive_keeps (v : Dev) (b : Nat) (i : DriveInfo) : (Dev.noteDrive v b i).Same v := by
  unfold Dev.noteDrive
  simp [Dev.Same, Dev.fixActive_keeps, Dev.setBay_keeps]
theorem Dev.serveBay_keeps (v : Dev) (b : Nat) (l : Label) : (Dev.serveBay v b l).Same v := by
  unfold Dev.serveBay
  grind [Dev.fixActive_keeps, Dev.resetsDone_keeps, Dev.setBay_keeps, Dev.journal_keeps, Dev.createQueues_keeps, Dev.joinJournal_keeps]
theorem Dev.failBay_keeps (v : Dev) (b : Bay) : (Dev.failBay v b).Same v := by
  unfold Dev.failBay
  grind [Dev.bayLeaves_keeps, Dev.partFails_keeps]
theorem Dev.dropBayPort_keeps (v : Dev) (b : Bay) (p : BayPort) : (Dev.dropBayPort v b p).Same v := by
  have hs : ∀ n x, (v.setBay n x).Same v := fun n x => Dev.setBay_keeps _ _ _
  unfold Dev.dropBayPort
  dsimp only
  have h : ∀ (l : List BayOp) (w : Dev), (l.foldl (fun y o => match y.op o.id with | some z => y.moveOp z | none => y) w).Same w := by
    intro l w
    refine foldl_same _ ?_ _ _
    intro x o; split
    · exact Dev.moveOp_keeps _ _
    · exact Dev.Same.rfl
  split
  · exact (Dev.partFails_keeps _ _).trans ((Dev.pump_keeps _ _).trans ((h _ _).trans ((Dev.fixActive_keeps _ _).trans (hs _ _))))
  · exact (Dev.pump_keeps _ _).trans ((h _ _).trans ((Dev.fixActive_keeps _ _).trans (hs _ _)))
theorem Dev.setChan_keeps (v : Dev) (c : Nat) (x : Channel) : (Dev.setChan v c x).Same v := by
  unfold Dev.setChan
  simp [Dev.Same]
theorem Dev.syncPower_keeps (v : Dev) (c : Nat) : (Dev.syncPower v c).Same v := by
  unfold Dev.syncPower
  grind [Dev.setBay_keeps]
theorem Dev.setHum_keeps (v : Dev) (h : Nat) (x : HumState) : (Dev.setHum v h x).Same v := by
  unfold Dev.setHum
  simp [Dev.Same]
theorem Dev.stopAssay_keeps (v : Dev) (c : Nat) : (Dev.stopAssay v c).Same v := by
  unfold Dev.stopAssay
  grind [Dev.setHum_keeps]
theorem Dev.chanOff_keeps (v : Dev) (c : Nat) (st : ChanState) : (Dev.chanOff v c st).Same v := by
  unfold Dev.chanOff
  simp [Dev.Same, Dev.setChan_keeps, Dev.stopAssay_keeps, Dev.syncPower_keeps]
theorem Dev.modeOff_keeps (v : Dev) (c : Nat) : (Dev.modeOff v c).Same v := by
  unfold Dev.modeOff
  grind [Dev.bayLeaves_keeps, Dev.chanOff_keeps]
theorem Dev.bayGatesOff_keeps (v : Dev) : (Dev.bayGatesOff v).Same v := by
  unfold Dev.bayGatesOff
  simp [Dev.Same, foldl_winMem, foldl_clk, foldl_chip_mode_mode, foldl_chip_servo, foldl_regs_active, foldl_sec_lifecycle, foldl_sec_floor, Dev.modeOff_keeps, Dev.endBayOps_keeps]
theorem Dev.humGatesOff_keeps (v : Dev) : (Dev.humGatesOff v).Same v := by
  unfold Dev.humGatesOff
  simp [Dev.Same, Dev.modeOff_keeps]
theorem Dev.stopRamps_keeps (v : Dev) : (Dev.stopRamps v).Same v := by
  unfold Dev.stopRamps
  grind [foldl_winMem, foldl_clk, foldl_chip_mode_mode, foldl_chip_servo, foldl_regs_active, foldl_sec_lifecycle, foldl_sec_floor, Dev.chanOff_keeps]
theorem Dev.obeyEnable_keeps (v : Dev) (c : Nat) : (Dev.obeyEnable v c).Same v := by
  unfold Dev.obeyEnable
  grind [Dev.setChan_keeps, Dev.chanOff_keeps]
theorem Dev.loseSeat_keeps (v : Dev) (c : Nat) : (Dev.loseSeat v c).Same v := by
  unfold Dev.loseSeat
  grind [Dev.setChan_keeps, Dev.bayLeaves_keeps, Dev.chanOff_keeps, Dev.partFails_keeps]
theorem Dev.trip_keeps (v : Dev) (c cause point : Nat) (current : Int) : (Dev.trip v c cause point current).Same v := by
  unfold Dev.trip
  grind [Dev.setChan_keeps, Dev.chanOff_keeps, Dev.fault_keeps]
theorem Dev.sampleChan_keeps (v : Dev) (c : Nat) (m : Option ChanSample) : (Dev.sampleChan v c m).Same v := by
  unfold Dev.sampleChan
  grind [Dev.obeyEnable_keeps, Dev.trip_keeps, Dev.setHum_keeps, Dev.fault_keeps, Dev.setChan_keeps, Dev.loseSeat_keeps, Dev.chanOff_keeps]
theorem Dev.sampleTemp_keeps (v : Dev) (n : Nat) (t : Int) : (Dev.sampleTemp v n t).Same v := by
  unfold Dev.sampleTemp
  grind [Dev.fault_keeps]
theorem Dev.takeSample_keeps (v : Dev) (m : Sample) : (Dev.takeSample v m).Same v := by
  unfold Dev.takeSample
  dsimp only
  refine (foldl_same _ ?_ _ _).trans ((foldl_same _ (fun x h => (Dev.setHum_keeps _ _ _).trans (Dev.setChan_keeps _ _ _)) _ _).trans
    ((foldl_same _ (fun x c => Dev.sampleChan_keeps _ _ _) _ _).trans ((Dev.countKeep_keeps _ _ _ _).trans
    ⟨rfl, rfl, rfl, rfl, rfl, rfl, rfl⟩)))
  intro x e; split
  · exact Dev.sampleTemp_keeps _ _ _
  · exact Dev.Same.rfl
theorem Dev.startRamp_keeps (v : Dev) (c : Nat) : (Dev.startRamp v c).Same v := by
  unfold Dev.startRamp
  grind [Dev.setChan_keeps]
theorem Dev.commit_keeps (v : Dev) (p : Nat) (owner : Option Nat) : (Dev.commit v p owner).Same v := by
  unfold Dev.commit
  grind [Dev.setPage_keeps]
theorem Dev.stageEnable_keeps (v : Dev) (cmd c en : Nat) : (Dev.stageEnable v cmd c en).Same v := by
  unfold Dev.stageEnable
  simp [Dev.Same, Dev.commit_keeps, Dev.stage_keeps]
theorem Dev.takePage_keeps (v : Dev) (p : Nat) : (Dev.takePage v p).winMem = v.winMem ∧ (Dev.takePage v p).clk = v.clk ∧ (Dev.takePage v p).chip.mode.mode = v.chip.mode.mode ∧ (Dev.takePage v p).sec.lifecycle = v.sec.lifecycle ∧ (Dev.takePage v p).sec.floor = v.sec.floor := by
  unfold Dev.takePage
  grind [Dev.stageEnable_keeps, Dev.setPage_keeps, Dev.takeVersions_keeps, Dev.finishOk_keeps, Dev.applyPage_keeps, Dev.obeyEnable_keeps]
theorem Dev.takeDue_keeps (v : Dev) (p : Nat) : (Dev.takeDue v p).winMem = v.winMem ∧ (Dev.takeDue v p).clk = v.clk ∧ (Dev.takeDue v p).chip.mode.mode = v.chip.mode.mode ∧ (Dev.takeDue v p).sec.lifecycle = v.sec.lifecycle ∧ (Dev.takeDue v p).sec.floor = v.sec.floor := by
  unfold Dev.takeDue
  grind [Dev.takePage_keeps]
theorem Dev.assayCap_keeps (v : Dev) (startMv startUj endUj : Nat) : (Dev.assayCap v startMv startUj endUj).2.Same v := by
  unfold Dev.assayCap
  grind [Dev.free32_keeps]
theorem Dev.setECap_keeps (v : Dev) (e : ECap) : (Dev.setECap v e).Same v := by
  unfold Dev.setECap
  simp [Dev.Same]
theorem Dev.assayBell_keeps (v : Dev) : (Dev.assayBell v).Same v := by
  unfold Dev.assayBell
  simp [Dev.Same]
theorem Dev.humPeal_keeps (v : Dev) (h : Nat) : (Dev.humPeal v h).Same v := by
  unfold Dev.humPeal
  grind [Dev.setHum_keeps]
theorem Dev.fixHums_keeps (v : Dev) : (Dev.fixHums v).Same v := by
  unfold Dev.fixHums
  refine foldl_same _ (fun x a => ?_) _ _
  dsimp only
  repeat' split
  · exact Dev.partRepaired_keeps _ _
  · exact Dev.partFails_keeps _ _
  · exact Dev.Same.rfl
theorem Dev.creditBell_keeps (v : Dev) : (Dev.creditBell v).winMem = v.winMem ∧ (Dev.creditBell v).clk = v.clk ∧ (Dev.creditBell v).chip.mode.mode = v.chip.mode.mode ∧ (Dev.creditBell v).chip.servo = v.chip.servo ∧ (Dev.creditBell v).sec.lifecycle = v.sec.lifecycle ∧ (Dev.creditBell v).sec.floor = v.sec.floor := by
  unfold Dev.creditBell
  grind [Dev.ownWrite_keeps, Dev.fault_keeps]
theorem Dev.measureSettle_keeps (v : Dev) (grains energyMj : Nat) : (Dev.measureSettle v grains energyMj).Same v := by
  unfold Dev.measureSettle
  grind
theorem Dev.setCounter_keeps (v : Dev) (key : Nat) (c : Counter) : (Dev.setCounter v key c).Same v := by
  unfold Dev.setCounter
  simp [Dev.Same]
theorem Dev.selectCounter_keeps (v : Dev) (key : Nat) (ev shown : Nat) (cmd : Option Nat) : (Dev.selectCounter v key ev shown cmd).Same v := by
  unfold Dev.selectCounter
  simp [Dev.Same, Dev.setCounter_keeps]
theorem Dev.askSnapshot_keeps (v : Dev) (buf : Bool) (cmd : Option Nat) : (Dev.askSnapshot v buf cmd).Same v := by
  unfold Dev.askSnapshot
  simp [Dev.Same]
theorem Dev.takeSnapshot_keeps (v : Dev) : (Dev.takeSnapshot v).Same v := by
  unfold Dev.takeSnapshot
  simp [Dev.Same, foldl_winMem, foldl_clk, foldl_chip_mode_mode, foldl_chip_servo, foldl_regs_active, foldl_sec_lifecycle, foldl_sec_floor, Dev.finishOk_keeps]
theorem Dev.applySelection_keeps (v : Dev) (key : Nat) : (Dev.applySelection v key).Same v := by
  unfold Dev.applySelection
  grind [foldl_winMem, foldl_clk, foldl_chip_mode_mode, foldl_chip_servo, foldl_regs_active, foldl_sec_lifecycle, foldl_sec_floor, Dev.setCounter_keeps, Dev.finishOk_keeps]
theorem Dev.counterBell_keeps (v : Dev) : (Dev.counterBell v).Same v := by
  unfold Dev.counterBell
  grind [foldl_winMem, foldl_clk, foldl_chip_mode_mode, foldl_chip_servo, foldl_regs_active, foldl_sec_lifecycle, foldl_sec_floor, Dev.takeSnapshot_keeps, Dev.applySelection_keeps]
theorem Dev.resetCounters_keeps (v : Dev) (region : Nat) (blocks : List Nat) : (Dev.resetCounters v region blocks).Same v := by
  unfold Dev.resetCounters
  simp [Dev.Same, foldl_winMem, foldl_clk, foldl_chip_mode_mode, foldl_chip_servo, foldl_regs_active, foldl_sec_lifecycle, foldl_sec_floor, Dev.fail_keeps]
theorem Dev.writePmon_keeps (v : Dev) (off : Nat) (w : Word) : (Dev.writePmon v off w).Same v := by
  unfold Dev.writePmon
  grind [Dev.setCounter_keeps, Dev.selectCounter_keeps]
theorem Dev.recordWaiters_keeps (v : Dev) : (Dev.recordWaiters v).Same v := by
  unfold Dev.recordWaiters
  simp [Dev.Same, foldl_winMem, foldl_clk, foldl_chip_mode_mode, foldl_chip_servo, foldl_regs_active, foldl_sec_lifecycle, foldl_sec_floor, Dev.completeCtx_keeps]
theorem Dev.discardWork_keeps (v : Dev) : (Dev.discardWork v).Same v := by
  unfold Dev.discardWork
  simp [Dev.Same, foldl_winMem, foldl_clk, foldl_chip_mode_mode, foldl_chip_servo, foldl_regs_active, foldl_sec_lifecycle, foldl_sec_floor, Dev.recordWaiters_keeps, Dev.dropOp_keeps, Dev.dropUnheld_keeps]
theorem Dev.freeze_keeps (v : Dev) : (Dev.freeze v).Same v := by
  unfold Dev.freeze
  simp [Dev.Same, Dev.discardWork_keeps]
theorem Dev.endFloder_keeps (v : Dev) : (Dev.endFloder v).Same v := by
  unfold Dev.endFloder
  simp [Dev.Same, Security.lifecycle]
theorem Dev.setMode_keeps (v : Dev) (m : Mode) : (Dev.setMode v m).winMem = v.winMem ∧ (Dev.setMode v m).clk = v.clk ∧ (Dev.setMode v m).chip.servo = v.chip.servo ∧ (Dev.setMode v m).regs.active = v.regs.active ∧ (Dev.setMode v m).sec.lifecycle = v.sec.lifecycle ∧ (Dev.setMode v m).sec.floor = v.sec.floor := by
  unfold Dev.setMode
  grind [Dev.noticeAll_keeps]
theorem Dev.openJournal_keeps (v0 : Dev) : (Dev.openJournal v0).Same v0 := by
  unfold Dev.openJournal
  grind [foldl_winMem, foldl_clk, foldl_chip_mode_mode, foldl_chip_servo, foldl_regs_active, foldl_sec_lifecycle, foldl_sec_floor, Dev.journal_keeps, Dev.replaceJournal_keeps]
theorem Dev.enterServing_keeps (v : Dev) : (Dev.enterServing v).winMem = v.winMem ∧ (Dev.enterServing v).chip.servo = v.chip.servo ∧ (Dev.enterServing v).regs.active = v.regs.active ∧ (Dev.enterServing v).sec.lifecycle = v.sec.lifecycle ∧ (Dev.enterServing v).sec.floor = v.sec.floor := by
  unfold Dev.enterServing
  simp [Dev.Same, Dev.openJournal_keeps, Dev.setMode_keeps]
theorem Dev.holdAll_keeps (v : Dev) : (Dev.holdAll v).Same v := by
  unfold Dev.holdAll
  simp [Dev.Same, foldl_winMem, foldl_clk, foldl_chip_mode_mode, foldl_chip_servo, foldl_regs_active, foldl_sec_lifecycle, foldl_sec_floor, Dev.releaseQp_keeps]
theorem Dev.replayBlock_keeps (v : Dev) (seq : Nat) : (Dev.replayBlock v seq).Same v := by
  unfold Dev.replayBlock
  grind [Dev.journal_keeps, Dev.freeBool_keeps]
theorem Dev.stopSettling_keeps (v : Dev) : (Dev.stopSettling v).Same v := by
  unfold Dev.stopSettling
  dsimp only
  refine Dev.Same.trans ⟨rfl, rfl, rfl, rfl, rfl, rfl, rfl⟩ ((foldl_same _ ?_ _ _).trans (Dev.stopJobs_keeps _))
  intro x p
  split
  · exact (Dev.cleanStripe_keeps _ _).trans (Dev.replayBlock_keeps _ _)
  · exact Dev.Same.rfl
theorem Dev.dropUpdates_keeps (v : Dev) : (Dev.dropUpdates v).clk = v.clk ∧ (Dev.dropUpdates v).chip.mode.mode = v.chip.mode.mode ∧ (Dev.dropUpdates v).chip.servo = v.chip.servo ∧ (Dev.dropUpdates v).sec.lifecycle = v.sec.lifecycle ∧ (Dev.dropUpdates v).sec.floor = v.sec.floor := by
  unfold Dev.dropUpdates
  simp [Dev.Same, foldl_clk, foldl_chip_mode_mode, foldl_chip_servo, foldl_regs_active, foldl_sec_lifecycle, foldl_sec_floor, Dev.freeWindow_keeps, Dev.applyUpdate_keeps]
theorem Dev.warmReset_keeps (v0 : Dev) : (Dev.warmReset v0).sec.lifecycle = v0.sec.lifecycle ∧ (Dev.warmReset v0).sec.floor = v0.sec.floor := by
  have h0 := Dev.dropUpdates_keeps v0.freeze.endFloder.stopSettling
  have h1 := Dev.stopSettling_keeps v0.freeze.endFloder
  have h2 := Dev.endFloder_keeps v0.freeze
  have h3 := Dev.freeze_keeps v0
  have hm := fun x m => Dev.setMode_keeps x m
  have hh := Dev.holdAll_keeps
  have hf : ∀ (l : List Nat) (x : Dev), (l.foldl (fun x w => x.freeWindow w) x).sec.lifecycle = x.sec.lifecycle ∧ (l.foldl (fun x w => x.freeWindow w) x).sec.floor = x.sec.floor :=
    fun l x => ⟨foldl_pi (·.sec.lifecycle) _ (fun x a => (Dev.freeWindow_keeps x a).2.2.2.2.1) l x,
      foldl_pi (·.sec.floor) _ (fun x a => (Dev.freeWindow_keeps x a).2.2.2.2.2) l x⟩
  have hq : ∀ (l : List Nat) (x : Dev), (l.foldl (fun x w => x.releaseQp w) x).Same x :=
    fun l x => foldl_same _ (fun x a => Dev.releaseQp_keeps _ _) l x
  have hw : ∀ x : Security, x.warm.lifecycle = x.lifecycle ∧ x.warm.floor = x.floor := fun x => ⟨rfl, rfl⟩
  unfold Dev.warmReset
  grind
theorem Dev.enterHeld_keeps (v0 : Dev) : (Dev.enterHeld v0).winMem = [] ∧ (Dev.enterHeld v0).clk = Clock.reset ∧ (Dev.enterHeld v0).chip.mode.mode = .held ∧ (Dev.enterHeld v0).chip.servo = Servo.reset ∧ (Dev.enterHeld v0).sec.lifecycle = v0.sec.lifecycle ∧ (Dev.enterHeld v0).sec.floor = v0.sec.floor := by
  have h := Dev.stopSettling_keeps v0
  unfold Dev.enterHeld
  exact ⟨rfl, rfl, rfl, rfl, h.2.2.2.2.2.1, h.2.2.2.2.2.2⟩
theorem Dev.writeImage_keeps (v : Dev) : (Dev.writeImage v).Same v := by
  unfold Dev.writeImage
  simp [Dev.Same]
theorem Dev.startImage_keeps (v : Dev) : (Dev.startImage v).Same v := by
  unfold Dev.startImage
  simp [Dev.Same, foldl_winMem, foldl_clk, foldl_chip_mode_mode, foldl_chip_servo, foldl_regs_active, foldl_sec_lifecycle, foldl_sec_floor, Dev.free32_keeps, Dev.issueOp_keeps]
theorem Dev.restoreImage_keeps (v : Dev) : (Dev.restoreImage v).winMem = v.winMem ∧ (Dev.restoreImage v).clk = v.clk ∧ (Dev.restoreImage v).chip.mode.mode = v.chip.mode.mode ∧ (Dev.restoreImage v).chip.servo = v.chip.servo ∧ (Dev.restoreImage v).regs.active = v.regs.active ∧ (Dev.restoreImage v).sec.lifecycle = v.sec.lifecycle := by
  unfold Dev.restoreImage
  simp [Dev.Same]
theorem Dev.replayRecord_keeps (v0 : Dev) (b : JournalBlock) : (Dev.replayRecord v0 b).Same v0 := by
  unfold Dev.replayRecord
  grind [Dev.replayBlock_keeps, Dev.journal_keeps, Dev.adjExt_keeps]
theorem Dev.replayJournal_keeps (v0 : Dev) : (Dev.replayJournal v0).Same v0 := by
  unfold Dev.replayJournal
  grind [foldl_winMem, foldl_clk, foldl_chip_mode_mode, foldl_chip_servo, foldl_regs_active, foldl_sec_lifecycle, foldl_sec_floor, Dev.journal_keeps, Dev.replayRecord_keeps, Dev.fault_keeps]
theorem Dev.replay_keeps (v : Dev) : (Dev.replay v).winMem = v.winMem ∧ (Dev.replay v).clk = v.clk ∧ (Dev.replay v).chip.mode.mode = v.chip.mode.mode ∧ (Dev.replay v).chip.servo = v.chip.servo ∧ (Dev.replay v).regs.active = v.regs.active ∧ (Dev.replay v).sec.lifecycle = v.sec.lifecycle := by
  unfold Dev.replay
  grind [Dev.restoreImage_keeps, Dev.replayJournal_keeps, Dev.journal_keeps]
theorem Dev.severeDone_keeps (v : Dev) : (Dev.severeDone v).Same v := by
  unfold Dev.severeDone
  grind [foldl_winMem, foldl_clk, foldl_chip_mode_mode, foldl_chip_servo, foldl_regs_active, foldl_sec_lifecycle, foldl_sec_floor, Dev.noteFault_keeps]
theorem Dev.startSpires_keeps (v : Dev) : (Dev.startSpires v).Same v := by
  unfold Dev.startSpires
  dsimp only
  refine (foldl_same _ ?_ _ _).trans (Dev.Same.trans ⟨rfl, rfl, rfl, rfl, rfl, rfl, rfl⟩ (foldl_same _ ?_ _ _))
  · intro x s; split
    · exact (Dev.partFails_keeps _ _).trans ((Dev.loseStack_keeps _ _).trans (Dev.setSpire_keeps _ _ _))
    · exact (Dev.startCipher_keeps _ _ _ _).trans (Dev.setSpire_keeps _ _ _)
  · intro x e; split
    · exact (Dev.partFails_keeps _ _).trans (Dev.setKeep_keeps _ _ _)
    · exact Dev.Same.rfl
theorem Dev.enterSurvey_keeps (v : Dev) : (Dev.enterSurvey v).clk = v.clk ∧ (Dev.enterSurvey v).chip.servo = v.chip.servo ∧ (Dev.enterSurvey v).regs.active = v.regs.active ∧ (Dev.enterSurvey v).sec.lifecycle = v.sec.lifecycle := by
  unfold Dev.enterSurvey
  simp [Dev.Same, foldl_clk, foldl_chip_servo, foldl_regs_active, foldl_sec_lifecycle, foldl_sec_floor, Dev.severeDone_keeps, Dev.setMode_keeps, Dev.startSpires_keeps, Dev.replay_keeps, Dev.stage_keeps, Dev.upPaths_keeps, Dev.gatherAll_keeps, Dev.freeWindow_keeps]
theorem Dev.enterDrain_keeps (v : Dev) (p : DrainPurpose) (retire : Bool) (cmd : Option Nat) : (Dev.enterDrain v p retire cmd).winMem = v.winMem ∧ (Dev.enterDrain v p retire cmd).clk = v.clk ∧ (Dev.enterDrain v p retire cmd).chip.servo = v.chip.servo ∧ (Dev.enterDrain v p retire cmd).regs.active = v.regs.active ∧ (Dev.enterDrain v p retire cmd).sec.lifecycle = v.sec.lifecycle ∧ (Dev.enterDrain v p retire cmd).sec.floor = v.sec.floor := by
  have six : ∀ a b : Dev, a.Same b → b.Same v → ∀ m, (a.setMode m).winMem = v.winMem ∧ (a.setMode m).clk = v.clk ∧
      (a.setMode m).chip.servo = v.chip.servo ∧ (a.setMode m).regs.active = v.regs.active ∧
      (a.setMode m).sec.lifecycle = v.sec.lifecycle ∧ (a.setMode m).sec.floor = v.sec.floor := fun a b h k m => by
    have s := Dev.setMode_keeps a m
    have hk := h.trans k
    exact ⟨s.1.trans hk.1, s.2.1.trans hk.2.1, s.2.2.1.trans hk.2.2.2.1, s.2.2.2.1.trans hk.2.2.2.2.1, s.2.2.2.2.1.trans hk.2.2.2.2.2.1,
      s.2.2.2.2.2.trans hk.2.2.2.2.2.2⟩
  have ha : ∀ (l : List Waiting) (x : Dev), (l.foldl (fun x w => match x.sessionOf w.msg.qp with
      | some n => x.arrive n w
      | none => x) x).Same x := fun l x => foldl_same _ (fun x a => by
    split
    · exact Dev.arrive_keeps _ _ _
    · exact Dev.Same.rfl) l x
  have hd : ∀ (l : List Ctx) (x : Dev), (l.foldl (fun x c => x.discardCtx c) x).Same x := fun l x =>
    foldl_same _ (fun x c => Dev.discardCtx_keeps _ _) l x
  unfold Dev.enterDrain
  dsimp only
  have k := six _ _ (Dev.Same.rfl (a := { (List.foldl (fun x c => x.discardCtx c) ({ v with hosts := { v.hosts with inbox := [] } } : Dev)
      (v.hosts.ctxs.filter (fun c => c.phase == .queued))) with chip := { (List.foldl (fun x c => x.discardCtx c)
      ({ v with hosts := { v.hosts with inbox := [] } } : Dev) (v.hosts.ctxs.filter (fun c => c.phase == .queued))).chip with drain :=
      { Drain.reset with purpose := p, returnMode := v.mode, startStamp := v.stamp, startStep := v.step16, retire := retire, cmd := cmd } } }))
    (hd (v.hosts.ctxs.filter (fun c => c.phase == .queued)) ({ v with hosts := { v.hosts with inbox := [] } } : Dev)) .drain
  generalize h : (_ : Dev).setMode .drain = w at k ⊢
  have a := ha (List.map (fun (c : Ctx) => (⟨c.msg, v.now, c.stamp⟩ : Waiting)) (v.hosts.ctxs.filter (fun c => c.phase == .queued)) ++
    v.hosts.inbox.map (fun (w : Waiting) => { w with since := v.now })) w
  exact ⟨a.1.trans k.1, a.2.1.trans k.2.1, a.2.2.2.1.trans k.2.2.1, a.2.2.2.2.1.trans k.2.2.2.1, a.2.2.2.2.2.1.trans k.2.2.2.2.1,
    a.2.2.2.2.2.2.trans k.2.2.2.2.2⟩
theorem Dev.leaveDrain_keeps (v : Dev) : (Dev.leaveDrain v).winMem = v.winMem ∧ (Dev.leaveDrain v).chip.servo = v.chip.servo ∧ (Dev.leaveDrain v).regs.active = v.regs.active ∧ (Dev.leaveDrain v).sec.lifecycle = v.sec.lifecycle ∧ (Dev.leaveDrain v).sec.floor = v.sec.floor := by
  have h : ∀ (l : List Waiting) (x : Dev), (l.foldl (fun x w => match x.sessionOf w.msg.qp with
    | some n => x.arrive n { w with since := x.now }
    | none => x) x).Same x :=
    fun l x => foldl_same _ (fun x a => by
      split
      · exact Dev.arrive_keeps _ _ _
      · exact Dev.Same.rfl) l x
  unfold Dev.leaveDrain
  dsimp only
  split
  · exact ⟨(h _ _).1.trans (Dev.setMode_keeps _ _).1, (h _ _).2.2.2.1.trans (Dev.setMode_keeps _ _).2.2.1,
      (h _ _).2.2.2.2.1.trans (Dev.setMode_keeps _ _).2.2.2.1, (h _ _).2.2.2.2.2.1.trans (Dev.setMode_keeps _ _).2.2.2.2.1,
      (h _ _).2.2.2.2.2.2.trans (Dev.setMode_keeps _ _).2.2.2.2.2⟩
  · exact ⟨(h _ _).1.trans (Dev.enterServing_keeps _).1, (h _ _).2.2.2.1.trans (Dev.enterServing_keeps _).2.1,
      (h _ _).2.2.2.2.1.trans (Dev.enterServing_keeps _).2.2.1, (h _ _).2.2.2.2.2.1.trans (Dev.enterServing_keeps _).2.2.2.1,
      (h _ _).2.2.2.2.2.2.trans (Dev.enterServing_keeps _).2.2.2.2⟩
theorem Dev.writeMarker_keeps (v : Dev) (clean : Bool) (stamp : Nat) (step : BitVec 16) (settled energy : Nat) : (Dev.writeMarker v clean stamp step settled energy).Same v := by
  unfold Dev.writeMarker
  simp [Dev.Same, foldl_winMem, foldl_clk, foldl_chip_mode_mode, foldl_chip_servo, foldl_regs_active, foldl_sec_lifecycle, foldl_sec_floor, Dev.issueWrite_keeps]
theorem Dev.closeJournal_keeps (v : Dev) : (Dev.closeJournal v).Same v := by
  unfold Dev.closeJournal
  simp [Dev.Same, Dev.journal_keeps]
theorem Dev.holdPower_keeps (v : Dev) : (Dev.holdPower v).Same v := by
  unfold Dev.holdPower
  simp [Dev.Same, Dev.setChan_keeps, Dev.stopAssay_keeps, Dev.stopRamps_keeps]
theorem Dev.detectLoss_keeps (v : Dev) : (Dev.detectLoss v).winMem = v.winMem ∧ (Dev.detectLoss v).chip.mode.mode = v.chip.mode.mode ∧ (Dev.detectLoss v).chip.servo = v.chip.servo ∧ (Dev.detectLoss v).regs.active = v.regs.active ∧ (Dev.detectLoss v).sec.lifecycle = v.sec.lifecycle ∧ (Dev.detectLoss v).sec.floor = v.sec.floor := by
  unfold Dev.detectLoss
  simp [Dev.Same, Dev.endFloder_keeps, Dev.holdStored_keeps, Dev.stopJobs_keeps, Dev.holdPower_keeps, Dev.freeze_keeps]
theorem Dev.enterVault_keeps (v : Dev) : (Dev.enterVault v).winMem = v.winMem ∧ (Dev.enterVault v).chip.servo = v.chip.servo ∧ (Dev.enterVault v).regs.active = v.regs.active ∧ (Dev.enterVault v).sec.lifecycle = v.sec.lifecycle ∧ (Dev.enterVault v).sec.floor = v.sec.floor := by
  unfold Dev.enterVault
  grind [Dev.detectLoss_keeps, Dev.gatherAll_keeps, Dev.setMode_keeps]
theorem Dev.dropKeyCopies_keeps (v : Dev) : (Dev.dropKeyCopies v).Same v := by
  unfold Dev.dropKeyCopies
  simp [Dev.Same]
theorem Dev.fenceSettle_keeps (v : Dev) : (Dev.fenceSettle v).Same v := by
  unfold Dev.fenceSettle
  grind [Dev.holdPower_keeps, Dev.bayGatesOff_keeps, Dev.gatherAll_keeps]
theorem Dev.enterFenced_keeps (v : Dev) : (Dev.enterFenced v).winMem = v.winMem ∧ (Dev.enterFenced v).chip.servo = v.chip.servo ∧ (Dev.enterFenced v).regs.active = v.regs.active ∧ (Dev.enterFenced v).sec.lifecycle = v.sec.lifecycle ∧ (Dev.enterFenced v).sec.floor = v.sec.floor := by
  unfold Dev.enterFenced
  grind [Dev.bayGatesOff_keeps, Dev.stopJobs_keeps, Dev.freeze_keeps, Dev.holdStored_keeps, Dev.fenceSettle_keeps, Dev.dropKeyCopies_keeps, Dev.setMode_keeps, Security.lifecycle]
theorem Dev.adjBoot_keeps (v : Dev) (f : Boot → Boot) : (Dev.adjBoot v f).Same v := by
  unfold Dev.adjBoot
  simp [Dev.Same]
theorem Dev.blowFuses_keeps (v : Dev) (l : Lifecycle) : (Dev.blowFuses v l).winMem = v.winMem ∧ (Dev.blowFuses v l).clk = v.clk ∧ (Dev.blowFuses v l).chip.mode.mode = v.chip.mode.mode ∧ (Dev.blowFuses v l).chip.servo = v.chip.servo ∧ (Dev.blowFuses v l).regs.active = v.regs.active ∧ (Dev.blowFuses v l).sec.floor = v.sec.floor := by
  unfold Dev.blowFuses
  simp [Dev.Same, Security.lifecycle]
theorem Dev.readFuses_keeps (v : Dev) : (Dev.readFuses v).winMem = v.winMem ∧ (Dev.readFuses v).clk = v.clk ∧ (Dev.readFuses v).chip.mode.mode = v.chip.mode.mode ∧ (Dev.readFuses v).chip.servo = v.chip.servo ∧ (Dev.readFuses v).regs.active = v.regs.active ∧ (Dev.readFuses v).sec.floor = v.sec.floor := by
  unfold Dev.readFuses
  simp [Dev.Same, Dev.blowFuses_keeps]
theorem Dev.authFailed_keeps (v : Dev) (op : Nat) : (Dev.authFailed v op).Same v := by
  unfold Dev.authFailed
  grind [Dev.fault_keeps, Security.lifecycle]
theorem Dev.useChallenge_keeps (v : Dev) : (Dev.useChallenge v).Same v := by
  unfold Dev.useChallenge
  simp [Dev.Same, Security.lifecycle]
theorem Dev.offReady_keeps (v : Dev) : (Dev.offReady v).winMem = v.winMem ∧ (Dev.offReady v).chip.mode.mode = v.chip.mode.mode ∧ (Dev.offReady v).chip.servo = v.chip.servo ∧ (Dev.offReady v).regs.active = v.regs.active ∧ (Dev.offReady v).sec.lifecycle = v.sec.lifecycle ∧ (Dev.offReady v).sec.floor = v.sec.floor := by
  unfold Dev.offReady
  simp [Dev.Same, Dev.bayGatesOff_keeps]
theorem Dev.retireNow_keeps (v : Dev) (id : Nat) : (Dev.retireNow v id).winMem = v.winMem ∧ (Dev.retireNow v id).clk = v.clk ∧ (Dev.retireNow v id).chip.mode.mode = v.chip.mode.mode ∧ (Dev.retireNow v id).chip.servo = v.chip.servo ∧ (Dev.retireNow v id).regs.active = v.regs.active ∧ (Dev.retireNow v id).sec.floor = v.sec.floor := by
  unfold Dev.retireNow
  dsimp only
  have h1 : ∀ l : List Nat, (l.foldl (fun (x : Dev) n => if (x.keySlot n).state == .empty then x else x.emptySlot n) v).Same v := by
    intro l; refine foldl_same _ ?_ _ _
    intro x n; split
    · exact Dev.Same.rfl
    · exact Dev.emptySlot_keeps _ _
  have h2 : ∀ (x : Dev) (l : List Nat), (l.foldl (fun x q => x.releaseQp q) x).Same x := fun x l =>
    foldl_same _ (fun x q => Dev.releaseQp_keeps _ _) _ _
  have h3 : ∀ (x : Dev) (l : List Nat), (l.foldl (fun (x : Dev) b => (x.setBay b { x.bay b with sanitizing := some id, sanitize := none }).emit (.baySanitize b (x.activePort b))) x).Same x := by
    intro x l; refine foldl_same _ ?_ _ _
    intro y b; exact (Dev.emit_keeps _ _).trans (Dev.setBay_keeps _ _ _)
  have h4 := fun x : Dev => Dev.blowFuses_keeps x .retired
  refine ⟨(h3 _ _).1.trans ?_, (h3 _ _).2.1.trans ?_, (h3 _ _).2.2.1.trans ?_, (h3 _ _).2.2.2.1.trans ?_, (h3 _ _).2.2.2.2.1.trans ?_, (h3 _ _).2.2.2.2.2.2.trans ?_⟩
  · exact (h4 _).1.trans ((h2 _ _).1.trans (h1 _).1)
  · exact (h4 _).2.1.trans ((h2 _ _).2.1.trans (h1 _).2.1)
  · exact (h4 _).2.2.1.trans ((h2 _ _).2.2.1.trans (h1 _).2.2.1)
  · exact (h4 _).2.2.2.1.trans ((h2 _ _).2.2.2.1.trans (h1 _).2.2.2.1)
  · exact (h4 _).2.2.2.2.1.trans ((h2 _ _).2.2.2.2.1.trans (h1 _).2.2.2.2.1)
  · exact (h4 _).2.2.2.2.2.trans ((h2 _ _).2.2.2.2.2.2.trans (h1 _).2.2.2.2.2.2)
theorem Dev.retireEnd_keeps (v : Dev) (id : Nat) (bays : List Nat) : (Dev.retireEnd v id bays).winMem = v.winMem ∧ (Dev.retireEnd v id bays).chip.mode.mode = v.chip.mode.mode ∧ (Dev.retireEnd v id bays).chip.servo = v.chip.servo ∧ (Dev.retireEnd v id bays).regs.active = v.regs.active ∧ (Dev.retireEnd v id bays).sec.lifecycle = v.sec.lifecycle ∧ (Dev.retireEnd v id bays).sec.floor = v.sec.floor := by
  unfold Dev.retireEnd
  simp [Dev.Same, Dev.offReady_keeps, Dev.finishOk_keeps]
theorem Dev.free256_keeps (v : Dev) : (Dev.free256 v).2.Same v := by
  unfold Dev.free256
  simp [Dev.Same, Dev.free64_keeps]
theorem Dev.applyDebug_keeps (v : Dev) : (Dev.applyDebug v).Same v := by
  unfold Dev.applyDebug
  repeat' split
  all_goals grind [Dev.modeEvent_keeps, Dev.zeroizeAll_keeps, Security.lifecycle]
theorem Dev.setOther_keeps (v : Dev) (i : Image) : (Dev.setOther v i).Same v := by
  unfold Dev.setOther
  grind [Security.lifecycle]
theorem Dev.writeChunk_keeps (v : Dev) (old : List Byte) (off : Nat) (d : List Byte) : (Dev.writeChunk v old off d).2.Same v := by
  unfold Dev.writeChunk
  grind [Dev.freeBytes_keeps]
theorem Dev.endActivation_keeps (v : Dev) (st : Byte) (r0 r1 : Nat) : (Dev.endActivation v st r0 r1).Same v := by
  unfold Dev.endActivation
  grind [Dev.finish_keeps, Dev.modeEvent_keeps, Security.lifecycle]
theorem Dev.endSwap_keeps (v : Dev) : (Dev.endSwap v).Same v := by
  unfold Dev.endSwap
  grind [Dev.endActivation_keeps, Security.lifecycle]
theorem Dev.swapBell_keeps (v : Dev) : (Dev.swapBell v).Same v := by
  unfold Dev.swapBell
  grind [Dev.endSwap_keeps]
theorem Dev.inputLoss_keeps (v : Dev) : (Dev.inputLoss v).winMem = v.winMem ∧ (Dev.inputLoss v).chip.mode.mode = v.chip.mode.mode ∧ (Dev.inputLoss v).chip.servo = v.chip.servo ∧ (Dev.inputLoss v).regs.active = v.regs.active ∧ (Dev.inputLoss v).sec.lifecycle = v.sec.lifecycle ∧ (Dev.inputLoss v).sec.floor = v.sec.floor := by
  unfold Dev.inputLoss
  grind [Dev.modeEvent_keeps, Dev.detectLoss_keeps, Dev.stopAssay_keeps]
theorem Dev.regionPass_keeps (v : Dev) (s : Nat) : (Dev.regionPass v s).Same v := by
  unfold Dev.regionPass
  grind [Dev.stage_keeps, Dev.setSpire_keeps]
theorem Dev.chipPass_keeps (v : Dev) : (Dev.chipPass v).winMem = v.winMem ∧ (Dev.chipPass v).clk = v.clk ∧ (Dev.chipPass v).chip.mode.mode = v.chip.mode.mode ∧ (Dev.chipPass v).chip.servo = v.chip.servo ∧ (Dev.chipPass v).regs.active = v.regs.active ∧ (Dev.chipPass v).sec.floor = v.sec.floor := by
  unfold Dev.chipPass
  grind [Dev.adjBoot_keeps, Dev.modeEvent_keeps, Dev.stage_keeps, Dev.readFuses_keeps, Security.lifecycle]
theorem Dev.regionFail_keeps (v : Dev) (s : Nat) : (Dev.regionFail v s).Same v := by
  unfold Dev.regionFail
  grind [Dev.stage_keeps, Dev.setSpire_keeps]
theorem Dev.chipFail_keeps (v : Dev) (code : Byte) (part : Option Nat) : (Dev.chipFail v code part).Same v := by
  unfold Dev.chipFail
  grind [Dev.adjBoot_keeps, Dev.stage_keeps]
theorem Dev.markShort_keeps (v : Dev) (b : Nat) : (Dev.markShort v b).Same v := by
  unfold Dev.markShort
  simp [Dev.Same]
theorem Dev.enterP3_keeps (v : Dev) : (Dev.enterP3 v).winMem = v.winMem ∧ (Dev.enterP3 v).chip.mode.mode = v.chip.mode.mode ∧ (Dev.enterP3 v).regs.active = v.regs.active ∧ (Dev.enterP3 v).sec.lifecycle = v.sec.lifecycle ∧ (Dev.enterP3 v).sec.floor = v.sec.floor := by
  unfold Dev.enterP3
  simp [Dev.Same, Security.lifecycle]
theorem Dev.askedResets_keeps (v : Dev) : (Dev.askedResets v).winMem = v.winMem ∧ (Dev.askedResets v).chip.mode.mode = v.chip.mode.mode ∧ (Dev.askedResets v).regs.active = v.regs.active ∧ (Dev.askedResets v).sec.lifecycle = v.sec.lifecycle ∧ (Dev.askedResets v).sec.floor = v.sec.floor := by
  unfold Dev.askedResets
  grind [Dev.modeEvent_keeps, Dev.enterP3_keeps]
theorem Dev.allWritten_keeps (v : Dev) : (Dev.allWritten v).Same v := by
  unfold Dev.allWritten
  simp [Dev.Same, foldl_winMem, foldl_clk, foldl_chip_mode_mode, foldl_chip_servo, foldl_regs_active, foldl_sec_lifecycle, foldl_sec_floor, Dev.dropOp_keeps, Dev.opWritten_keeps]
theorem Dev.journalDone_keeps (v : Dev) : (Dev.journalDone v).Same v := by
  unfold Dev.journalDone
  simp [Dev.Same, Dev.journal_keeps]
theorem Dev.flushBays_keeps (v : Dev) : (Dev.flushBays v).Same v := by
  unfold Dev.flushBays
  simp [Dev.Same, Dev.emitAll_keeps]
theorem Dev.shutdownEnd_keeps (v : Dev) : (Dev.shutdownEnd v).winMem = v.winMem ∧ (Dev.shutdownEnd v).chip.mode.mode = v.chip.mode.mode ∧ (Dev.shutdownEnd v).chip.servo = v.chip.servo ∧ (Dev.shutdownEnd v).regs.active = v.regs.active ∧ (Dev.shutdownEnd v).sec.lifecycle = v.sec.lifecycle ∧ (Dev.shutdownEnd v).sec.floor = v.sec.floor := by
  unfold Dev.shutdownEnd
  grind [Dev.writeMarker_keeps, Dev.closeJournal_keeps, Dev.journalDone_keeps, Dev.allWritten_keeps, Dev.finishOk_keeps, Dev.startImage_keeps, Dev.writeImage_keeps, Dev.offReady_keeps, Dev.flushBays_keeps]
theorem Dev.setPhase_keeps (v : Dev) (p : VaultPhase) : (Dev.setPhase v p).Same v := by
  unfold Dev.setPhase
  simp [Dev.Same]
theorem Dev.vaultBell_keeps (v : Dev) : (Dev.vaultBell v).Same v := by
  unfold Dev.vaultBell
  grind [Dev.bayGatesOff_keeps, Dev.setPhase_keeps, Dev.humGatesOff_keeps]
theorem Dev.unhold_keeps (v : Dev) (covers : BitVec 32 → Bool) : (Dev.unhold v covers).Same v := by
  unfold Dev.unhold
  simp [Dev.Same]
theorem Dev.regionLease_keeps (v : Dev) (s : Nat) : (Dev.regionLease v s).Same v := by
  unfold Dev.regionLease
  simp [Dev.Same, Dev.takeRecov_keeps]
theorem Dev.startRegionReset_keeps (v : Dev) (s : Nat) : (Dev.startRegionReset v s).Same v := by
  unfold Dev.startRegionReset
  simp [Dev.Same, Dev.setSpire_keeps, Dev.stopSpire_keeps, Dev.resetCounters_keeps, Dev.regionLease_keeps]
theorem Dev.spireBack_keeps (v : Dev) (s : Nat) : (Dev.spireBack v s).Same v := by
  unfold Dev.spireBack
  simp [Dev.Same, foldl_winMem, foldl_clk, foldl_chip_mode_mode, foldl_chip_servo, foldl_regs_active, foldl_sec_lifecycle, foldl_sec_floor, Dev.fixActive_keeps, Dev.startCipher_keeps, Dev.setSpire_keeps]
theorem Dev.quarantineCell_keeps (v : Dev) (s : Spire) (block cell : Nat) : (Dev.quarantineCell v s block cell).Same v := by
  unfold Dev.quarantineCell
  grind [Dev.dropRecov_keeps, Dev.takeRecov_keeps, Dev.setSpire_keeps]
theorem Dev.resetCell_keeps (v : Dev) (s : Spire) (block cell : Nat) : (Dev.resetCell v s block cell).Same v := by
  unfold Dev.resetCell
  simp [Dev.Same, Dev.dropRecov_keeps, Dev.setSpire_keeps, Dev.partRepaired_keeps]
theorem Dev.cellRetry_keeps (v : Dev) (src : BitVec 32) : (Dev.cellRetry v src).Same v := by
  unfold Dev.cellRetry
  grind [Dev.takeRecov_keeps]
theorem Dev.leaseBell_keeps (v : Dev) : (Dev.leaseBell v).Same v := by
  unfold Dev.leaseBell
  simp [Dev.Same]
theorem Dev.reissueGroup_keeps (v : Dev) (s g : Nat) : (Dev.reissueGroup v s g).Same v := by
  unfold Dev.reissueGroup
  refine foldl_same _ ?_ _ _
  intro x o; split
  · split
    · exact Dev.resendOp_keeps _ _ _ _
    · exact Dev.Same.rfl
  · exact Dev.Same.rfl
theorem Dev.startBlockReset_keeps (v : Dev) (region block : Nat) : (Dev.startBlockReset v region block).Same v := by
  have hd : ∀ (n : Nat) (l : List Nat) (x : Dev), (l.foldl (fun z k => z.downPort n k) x).Same x :=
    fun n l x => foldl_same _ (fun x a => Dev.downPort_keeps _ _ _) l x
  have hl : ∀ (sp : Spire) (l : List (Nat × Nat)) (x : Dev), (l.foldl (fun z c => z.resetCell sp c.1 c.2) x).Same x :=
    fun sp l x => foldl_same _ (fun x a => Dev.resetCell_keeps _ _ _ _) l x
  have hk : ∀ (sp : Spire) (l : List Nat) (x : Dev), (l.foldl (fun z c => z.resetCell sp 0x60 c) x).Same x :=
    fun sp l x => foldl_same _ (fun x a => Dev.resetCell_keeps _ _ _ _) l x
  have ht : ∀ (x : Dev) (rs : List (LeaseRef × Nat)) l d, x.Same v → (({ x with recov := rs } : Dev).takeRecov l d).Same v :=
    fun x rs l d h => (Dev.takeRecov_keeps _ _ _).trans h
  have hp : ∀ (x : Dev) (t : Tab Sched), x.Same v → ({ x with hosts := { x.hosts with scheds := t } } : Dev).Same v := fun x t h => h
  unfold Dev.startBlockReset
  lift_lets
  intro v0
  have h0 : v0.Same v := by
    unfold v0
    repeat' split
    all_goals first | exact Dev.Same.rfl | exact Dev.restoreRegs_keeps _ _ _
  clear_value v0
  intro v1
  have h1 : v1.Same v := (Dev.resetCounters_keeps _ _ _).trans h0
  clear_value v1
  intro sp inside cells v2 x v3
  have h2 : v2.Same v := (hl _ _ _).trans h1
  clear_value v2
  have h3 : v3.Same v := (Dev.setSpire_keeps _ _ _).trans (ht _ _ _ _ h2)
  clear_value v3
  intro v4 n up v5
  repeat' split
  all_goals first
    | exact h1
    | exact h3
    | exact hp _ _ h3
    | exact (hk _ _ _).trans ((Dev.startCipher_keeps _ _ _ _).trans h3)
    | exact (Dev.sliceGoes_keeps _ _).trans h3
    | exact (Dev.reissueGroup_keeps _ _ _).trans h3
    | exact (hd _ _ _).trans ((Dev.setPort_keeps _ _ _).trans h3)
theorem Dev.abortComplex_keeps (v : Dev) (s : Nat) : (Dev.abortComplex v s).Same v := by
  unfold Dev.abortComplex
  dsimp only
  refine (foldl_same _ (fun x r => Dev.endRead_keeps _ _ _) _ _).trans ((foldl_same _ (fun x r => Dev.abandonFrom_keeps _ _ _ _) _ _).trans
    (foldl_same _ ?_ _ _))
  intro x c; split
  · exact Dev.Same.rfl
  · exact (Dev.refuseCtx_keeps _ _ _).trans (Dev.dropGrainsOf_keeps _ _)
theorem Dev.parkDone_keeps (v : Dev) (s : Nat) : (Dev.parkDone v s).Same v := by
  unfold Dev.parkDone
  simp [Dev.Same, Dev.finishOpt_keeps, Dev.handOver_keeps, Dev.setSpire_keeps]
theorem Dev.dueSpirePages_keeps (v : Dev) (s : Nat) : (Dev.dueSpirePages v s).winMem = v.winMem ∧ (Dev.dueSpirePages v s).clk = v.clk ∧ (Dev.dueSpirePages v s).chip.mode.mode = v.chip.mode.mode ∧ (Dev.dueSpirePages v s).sec.lifecycle = v.sec.lifecycle ∧ (Dev.dueSpirePages v s).sec.floor = v.sec.floor := by
  unfold Dev.dueSpirePages
  simp [Dev.Same, foldl_winMem, foldl_clk, foldl_chip_mode_mode, foldl_sec_lifecycle, foldl_sec_floor, Dev.takeDue_keeps]
theorem Dev.idleBell_keeps (v : Dev) (s : Nat) : (Dev.idleBell v s).Same v := by
  unfold Dev.idleBell
  grind [Dev.setSpire_keeps]
theorem Dev.portFault_keeps (v : Dev) (n k : Nat) : (Dev.portFault v n k).Same v := by
  unfold Dev.portFault
  grind [Dev.downPort_keeps, Dev.setPort_keeps, Dev.partFails_keeps]
theorem Dev.degrade_keeps (v : Dev) (src : BitVec 32) : (Dev.degrade v src).Same v := by
  unfold Dev.degrade
  grind [Dev.remirror_keeps, Dev.setSpire_keeps, Dev.partFails_keeps, Dev.portFault_keeps, Dev.dropBayPort_keeps, Dev.quarantineCell_keeps]
theorem Dev.severe_keeps (v : Dev) (r : FaultRec) : (Dev.severe v r).Same v := by
  unfold Dev.severe
  grind [Dev.isolateKeep_keeps, Dev.setPort_keeps, Dev.stopSpire_keeps, Dev.failBay_keeps, Dev.modeEvent_keeps, Dev.resetCell_keeps, Dev.noteFault_keeps]
theorem Dev.reactTo_keeps (v : Dev) (key : Nat) : (Dev.reactTo v key).Same v := by
  unfold Dev.reactTo
  repeat' split
  all_goals grind [Dev.severe_keeps, Dev.degrade_keeps, Dev.modeEvent_keeps]
theorem Dev.faultBell_keeps (v : Dev) : (Dev.faultBell v).Same v := by
  unfold Dev.faultBell
  dsimp only
  refine (foldl_same _ (fun x a => Dev.reactTo_keeps _ _) _ _).trans ?_
  refine foldl_same _ (fun x a => ?_) _ _
  split
  · exact Dev.Same.rfl
  · have hn : ∀ (y : Dev) a b, y.Same x → (y.noteFault a b).Same x := fun y a b h => (Dev.noteFault_keeps y a b).trans h
    split
    · exact (Dev.finishOk_keeps _ _ _ _ _).trans (hn _ _ _ Dev.Same.rfl)
    · exact hn _ _ _ Dev.Same.rfl
theorem Dev.eventLoss_keeps (v0 : Dev) (src : BitVec 32) : (Dev.eventLoss v0 src).Same v0 := by
  unfold Dev.eventLoss
  grind [Dev.loseBank_keeps, Dev.cellRetry_keeps]
theorem Dev.hbmBytes_keeps (v : Dev) (s start n : Nat) : (Dev.hbmBytes v s start n).2.Same v := by
  unfold Dev.hbmBytes
  simp [Dev.Same]
theorem Dev.scanRecords_keeps (v : Dev) (x : Scan) : (Dev.scanRecords v x).2.Same v := by
  unfold Dev.scanRecords
  grind [Dev.hbmBytes_keeps]
theorem Dev.scanBytes_keeps (v : Dev) (x : Scan) : (Dev.scanBytes v x).2.Same v := by
  unfold Dev.scanBytes
  grind [Dev.hbmBytes_keeps]
theorem Dev.checkPage_keeps (v : Dev) (key : Nat) : (Dev.checkPage v key).Same v := by
  unfold Dev.checkPage
  split
  · exact Dev.Same.rfl
  · dsimp only
    refine Dev.Same.trans (b := _) ⟨rfl, rfl, rfl, rfl, rfl, rfl, rfl⟩ (foldl_same3 _ ?_ _ _)
    intro x b
    exact Dev.freeBool_keeps _
theorem Dev.checkPages_keeps (v : Dev) (s : Nat) (keys : List Nat) : (Dev.checkPages v s keys).Same v := by
  unfold Dev.checkPages
  grind [foldl_winMem, foldl_clk, foldl_chip_mode_mode, foldl_chip_servo, foldl_regs_active, foldl_sec_lifecycle, foldl_sec_floor, Dev.checkPage_keeps, Dev.count_keeps]
theorem Dev.scrubGrain_keeps (v : Dev) (r : StripeRec) (seams : List (List (List Byte))) (key : List Byte) (g : RunGrain) (i : Nat) : (Dev.scrubGrain v r seams key g i).2.Same v := by
  unfold Dev.scrubGrain
  grind [Dev.rangeLost_keeps, Dev.needsRepair_keeps]
theorem Dev.scrubStripe_keeps (v : Dev) (t : Stripe) (seams : List (List (List Byte))) (key : List Byte) : (Dev.scrubStripe v t seams key).Same v := by
  unfold Dev.scrubStripe
  dsimp only
  refine (foldl_same _ (fun x g => ?_) _ _).trans (foldl_same3 _ (fun x a => ?_) _ _)
  · split
    · exact Dev.Same.rfl
    · refine (foldl_same _ (fun x g => Dev.needsRepair_keeps _ _ _ _ _) _ _).trans (foldl_same3 _ (fun y i => ?_) _ _)
      repeat' split
      · exact Dev.Same.rfl
      · exact Dev.scrubGrain_keeps _ _ _ _ _ _
      · exact Dev.Same.rfl
  · repeat' split
    · exact Dev.Same.rfl
    · exact (Dev.scrubGrain_keeps _ _ _ _ _ _).trans (Dev.count_keeps _ _ _ _ _ _)
    · exact Dev.Same.rfl
theorem Dev.scrubServed_keeps (v : Dev) (n stripe : Nat) (seams : List (List (List Byte))) : (Dev.scrubServed v n stripe seams).Same v := by
  unfold Dev.scrubServed
  grind [Dev.scrubStripe_keeps, Dev.endPass_keeps]
theorem Dev.scrubJudge_keeps (v : Dev) (n : Nat) (t : Stripe) (seams : List (List (List Byte))) : (Dev.scrubJudge v n t seams).Same v := by
  unfold Dev.scrubJudge
  grind [Dev.fault_keeps, Dev.scrubStripe_keeps, Dev.offerCipher_keeps, Dev.endPass_keeps, Dev.setScrub_keeps, Dev.count_keeps]
theorem Dev.cipherBack_keeps (v : Dev) (s : Nat) : (Dev.cipherBack v s).Same v := by
  unfold Dev.cipherBack
  dsimp only
  refine (foldl_same _ ?_ _ _).trans (Dev.drainCipher_keeps _ _)
  intro x w; split
  · exact Dev.resolveRead_keeps _ _
  · exact Dev.jobServed_keeps _ _
  · exact Dev.scrubServed_keeps _ _ _ _
theorem Dev.answerUr_keeps (v : Dev) (pf : Pf) (addr : Nat) : (Dev.answerUr v pf addr).Same v := by
  unfold Dev.answerUr
  simp [Dev.Same, Dev.free32_keeps, Dev.emit_keeps, Dev.fault_keeps]
theorem Dev.doorbell_keeps (v : Dev) (addr : Nat) (go : Dev) (hg : go.Same v) : (v.doorbell addr go).Same v := by
  unfold Dev.doorbell
  split
  · exact Dev.Same.rfl
  · split
    · exact Dev.answerUr_keeps _ _ _
    · split
      · exact Dev.Same.rfl
      · exact hg
theorem Dev.ringOn_keeps (v : Dev) (r : Nat) : (Dev.ringOn v r).Same v := by
  unfold Dev.ringOn
  grind [Dev.setRing_keeps, Dev.orphanRing_keeps, Dev.ringError_keeps]
theorem Dev.ringOff_keeps (v : Dev) (r : Nat) : (Dev.ringOff v r).Same v := by
  unfold Dev.ringOff
  grind [Dev.setRing_keeps, Dev.orphanRing_keeps]
theorem Dev.ringCommit_keeps (v : Dev) (r : Nat) (was : Bool) : (Dev.ringCommit v r was).Same v := by
  unfold Dev.ringCommit
  grind [Dev.ringOn_keeps, Dev.ringOff_keeps]
theorem Dev.pullSlots_keeps (v : Dev) (r : Nat) : (Dev.pullSlots v r).Same v := by
  unfold Dev.pullSlots
  simp [Dev.Same, Dev.setRing_keeps, Dev.skipHeads_keeps]
theorem Dev.issueFetches_keeps (v : Dev) (r : Nat) : (Dev.issueFetches v r).Same v := by
  unfold Dev.issueFetches
  refine foldl_same _ (fun x a => ?_) _ _
  split
  · exact Dev.Same.rfl
  · rename_i h
    exact (Dev.setRing_keeps _ _ _).trans (Dev.epRead_keeps _ _ _ h)
theorem Dev.sqTail_keeps (v : Dev) (r value : Nat) (slots : List (BitVec 16 × Packet)) : (Dev.sqTail v r value slots).Same v := by
  unfold Dev.sqTail
  grind [Dev.issueFetches_keeps, Dev.fresh_keeps, Dev.setRing_keeps, Dev.ringError_keeps]
theorem Dev.stHeadWrite_keeps (v : Dev) (r value : Nat) : (Dev.stHeadWrite v r value).Same v := by
  unfold Dev.stHeadWrite
  grind [Dev.setRing_keeps, Dev.ringError_keeps, Dev.skipHeads_keeps]
theorem Dev.ringSignal_keeps (v : Dev) (r : Nat) : (Dev.ringSignal v r).Same v := by
  unfold Dev.ringSignal
  simp [Dev.Same, Dev.setRing_keeps, Dev.raiseVec_keeps]
theorem Dev.writeRingReply_keeps (v : Dev) (r : Nat) (x : Reply) : (Dev.writeRingReply v r x).Same v := by
  unfold Dev.writeRingReply
  grind [Dev.ringSignal_keeps, Dev.emit_keeps, Dev.setRing_keeps]
theorem Dev.writeSessionReply_keeps (v : Dev) (qp : Nat) (x : Reply) : (Dev.writeSessionReply v qp x).Same v := by
  unfold Dev.writeSessionReply
  grind [Dev.build_keeps, Dev.postData_keeps]
theorem Dev.flushVectors_keeps (v : Dev) (pf : Pf) : (Dev.flushVectors v pf).Same v := by
  unfold Dev.flushVectors
  grind [Dev.setFunc_keeps, Dev.emitAll_keeps]
theorem Dev.epResume_keeps (v : Dev) : (Dev.epResume v).Same v := by
  unfold Dev.epResume
  simp [Dev.Same, foldl_winMem, foldl_clk, foldl_chip_mode_mode, foldl_chip_servo, foldl_regs_active, foldl_sec_lifecycle, foldl_sec_floor, Dev.issueFetches_keeps, Dev.skipHeads_keeps]
theorem Dev.abortData_keeps (v : Dev) (cmd : Nat) : (Dev.abortData v cmd).Same v := by
  unfold Dev.abortData
  grind [Dev.fail_keeps]
theorem Dev.readEnds_keeps (v : Dev) (r : EpRead) : (Dev.readEnds v r).Same v := by
  unfold Dev.readEnds
  grind [Dev.setRing_keeps, Dev.abortData_keeps]
theorem Dev.readFaults_keeps (v : Dev) (r : EpRead) : (Dev.readFaults v r).Same v := by
  unfold Dev.readFaults
  grind [Dev.readEnds_keeps, Dev.ringError_keeps]
theorem Dev.retireTag_keeps (v : Dev) (pf : Pf) (tag : Nat) : (Dev.retireTag v pf tag).Same v := by
  unfold Dev.retireTag
  simp [Dev.Same, Dev.setFunc_keeps]
theorem Dev.dropReads_keeps (v : Dev) (pf : Pf) : (Dev.dropReads v pf).Same v := by
  unfold Dev.dropReads
  simp [Dev.Same, Dev.setFunc_keeps]
theorem Dev.linkLost_keeps (v : Dev) (cause : Nat) : (Dev.linkLost v cause).Same v := by
  unfold Dev.linkLost
  simp [Dev.Same, Dev.free32_keeps, Dev.fault_keeps]
theorem Dev.releaseFreeze_keeps (v : Dev) (value : Word) : (Dev.releaseFreeze v value).Same v := by
  unfold Dev.releaseFreeze
  grind
theorem Dev.epBell_keeps (v : Dev) : (Dev.epBell v).Same v := by
  unfold Dev.epBell
  grind [Dev.raiseVec_keeps, Dev.flushVectors_keeps, Dev.epResume_keeps]
theorem Dev.stopRequests_keeps (v : Dev) (pf : Pf) : (Dev.stopRequests v pf).Same v := by
  unfold Dev.stopRequests
  grind [Dev.dropReads_keeps]
theorem Dev.allRingsOff_keeps (v : Dev) : (Dev.allRingsOff v).Same v := by
  unfold Dev.allRingsOff
  simp [Dev.Same, foldl_winMem, foldl_clk, foldl_chip_mode_mode, foldl_chip_servo, foldl_regs_active, foldl_sec_lifecycle, foldl_sec_floor, Dev.ringOff_keeps]
theorem Dev.clearRegs_keeps (v : Dev) (lo n : Nat) : (Dev.clearRegs v lo n).winMem = v.winMem ∧ (Dev.clearRegs v lo n).clk = v.clk ∧ (Dev.clearRegs v lo n).chip.mode.mode = v.chip.mode.mode ∧ (Dev.clearRegs v lo n).chip.servo = v.chip.servo ∧ (Dev.clearRegs v lo n).sec.lifecycle = v.sec.lifecycle ∧ (Dev.clearRegs v lo n).sec.floor = v.sec.floor := by
  unfold Dev.clearRegs
  simp [Dev.Same]
theorem Dev.dropRings_keeps (v : Dev) : (Dev.dropRings v).winMem = v.winMem ∧ (Dev.dropRings v).clk = v.clk ∧ (Dev.dropRings v).chip.mode.mode = v.chip.mode.mode ∧ (Dev.dropRings v).chip.servo = v.chip.servo ∧ (Dev.dropRings v).sec.lifecycle = v.sec.lifecycle ∧ (Dev.dropRings v).sec.floor = v.sec.floor := by
  unfold Dev.dropRings
  simp [Dev.Same, foldl_winMem, foldl_clk, foldl_chip_mode_mode, foldl_chip_servo, foldl_sec_lifecycle, foldl_sec_floor, Dev.orphanRing_keeps, Dev.abortData_keeps, Dev.clearRegs_keeps]
theorem Dev.retag_keeps (v : Dev) : (Dev.retag v).Same v := by
  unfold Dev.retag
  simp [Dev.Same, foldl_winMem, foldl_clk, foldl_chip_mode_mode, foldl_chip_servo, foldl_regs_active, foldl_sec_lifecycle, foldl_sec_floor, Dev.setFunc_keeps, Dev.retireTag_keeps, Dev.readEnds_keeps]
theorem Dev.showStatus_keeps (v : Dev) : (Dev.showStatus v).Same v := by
  delta Dev.showStatus
  exact Dev.shown_same _ _
theorem Dev.readReg_keeps (v : Dev) (r : Requester) (off : Nat) (w : Dev) (i : Word) (hw : Dev.readReg v r off = some (i, w)) : w.Same v := by
  unfold Dev.readReg at hw
  grind
theorem Dev.discardPage_keeps (v : Dev) (p : Nat) : (Dev.discardPage v p).Same v := by
  unfold Dev.discardPage
  simp [Dev.Same]
theorem Dev.writeCommit_keeps (v : Dev) (p : Nat) (w : Word) : (Dev.writeCommit v p w).Same v := by
  unfold Dev.writeCommit
  grind [Dev.discardPage_keeps, Dev.commit_keeps, Dev.setPage_keeps]
theorem Dev.writeStaged_keeps (v : Dev) (o : Nat) (mask : Word) (w : Word) : (Dev.writeStaged v o mask w).Same v := by
  unfold Dev.writeStaged
  grind [Dev.stage_keeps, Dev.setPage_keeps]
theorem Dev.writeTable_keeps (v : Dev) (pf : Pf) (o : Nat) (w : Word) : (Dev.writeTable v pf o w).Same v := by
  unfold Dev.writeTable
  simp [Dev.Same, Dev.setFunc_keeps, Dev.flushVectors_keeps]
theorem Dev.writeLive_keeps (v : Dev) (off : Nat) (w : Word) : (Dev.writeLive v off w).Same v := by
  unfold Dev.writeLive
  repeat' split
  all_goals grind [Dev.releaseFreeze_keeps, Dev.writeTable_keeps]
theorem Dev.writeReg_keeps (v : Dev) (off : Nat) (x : Word) (w : Dev) (hw : Dev.writeReg v off x = some w) : w.Same v := by
  unfold Dev.writeReg at hw
  dsimp only at hw
  repeat' split at hw
  all_goals first
    | (cases hw; done)
    | (cases hw; first
        | exact Dev.Same.rfl
        | exact Dev.writeCommit_keeps _ _ _
        | exact Dev.writeStaged_keeps _ _ _ _
        | exact Dev.writePmon_keeps _ _ _
        | exact Dev.writeLive_keeps _ _ _)
theorem Dev.readFor_keeps (v : Dev) (pf : Pf) (off : Nat) (bad : Bool) (addr : Nat) : (Dev.readFor v pf off bad addr).Same v := by
  unfold Dev.readFor
  grind [Dev.emit_keeps, Dev.answerUr_keeps, Dev.readReg_keeps]
theorem Dev.writeFor_keeps (v : Dev) (pf : Pf) (off : Nat) (w : Word) (addr : Nat) : (Dev.writeFor v pf off w addr).Same v := by
  unfold Dev.writeFor
  split
  · exact Dev.answerUr_keeps _ _ _
  · rename_i h
    split
    · exact Dev.fault_keeps _ _ _ _ _ _ _
    · exact Dev.writeReg_keeps _ _ _ _ h
theorem Dev.bar0Request_keeps (v : Dev) (r : MemReq) : (Dev.bar0Request v r).Same v := by
  have hw := Dev.writeFor_keeps
  have hr := Dev.readFor_keeps
  have ha := Dev.answerUr_keeps
  have hf : ∀ (w : Bool) (x : Dev) (p : Pf) (o a : Nat) (d : Word) (b : Bool),
      (if w then x.writeFor p o d a else x.readFor p o b a).Same x := by
    intro w x p o a d b
    cases w
    · exact hr _ _ _ _ _
    · exact hw _ _ _ _ _
  unfold Dev.bar0Request
  cases r.pf <;> dsimp only <;> split
  all_goals first
    | with_reducible exact ha _ _ _
    | exact foldl_same _ (fun x a => hf _ _ _ _ _ _ _) _ _
theorem Dev.bar2Request_keeps (v : Dev) (r : MemReq) : (Dev.bar2Request v r).Same v := by
  unfold Dev.bar2Request
  grind [Dev.answerUr_keeps, Dev.sqTail_keeps, Dev.stHeadWrite_keeps]
theorem Dev.busWrite_keeps (v : Dev) (r : Requester) (off : Nat) (w : Word) : (Dev.busWrite v r off w).Same v := by
  unfold Dev.busWrite
  dsimp only
  (repeat' split)
  all_goals first
    | exact Dev.Same.rfl
    | exact Dev.answerUr_keeps _ _ _
    | exact Dev.writeFor_keeps _ _ _ _ _
    | (cases hw : v.writeReg off w with
       | none => exact Dev.Same.rfl
       | some x => exact Dev.writeReg_keeps _ _ _ _ hw)
theorem Dev.busRead_keeps (v : Dev) (r : Requester) (off : Nat) : (Dev.busRead v r off).Same v := by
  unfold Dev.busRead
  grind [Dev.readFor_keeps, Dev.answerUr_keeps, Dev.emit_keeps, Dev.readReg_keeps]
theorem Dev.jtagReadByte_keeps (v : Dev) (s : Nat) (hbm : Bool) (addr : Nat) : (Dev.jtagReadByte v s hbm addr).Same v := by
  unfold Dev.jtagReadByte
  grind [Dev.freeBool_keeps, Dev.freeBytes_keeps, Dev.emit_keeps, Dev.hbmBytes_keeps, Dev.countKeep_keeps]
theorem Dev.jtagWriteByte_keeps (v : Dev) (s : Nat) (hbm : Bool) (addr : Nat) (b : Byte) : (Dev.jtagWriteByte v s hbm addr b).clk = v.clk ∧ (Dev.jtagWriteByte v s hbm addr b).chip.mode.mode = v.chip.mode.mode ∧ (Dev.jtagWriteByte v s hbm addr b).chip.servo = v.chip.servo ∧ (Dev.jtagWriteByte v s hbm addr b).regs.active = v.regs.active ∧ (Dev.jtagWriteByte v s hbm addr b).sec.lifecycle = v.sec.lifecycle ∧ (Dev.jtagWriteByte v s hbm addr b).sec.floor = v.sec.floor := by
  unfold Dev.jtagWriteByte
  grind [Dev.freeBool_keeps, Dev.countKeep_keeps, Dev.free64_keeps]
theorem Dev.planStep_keeps (v : Dev) (offset : Int) (ref : Option Nat) : (Dev.planStep v offset ref).winMem = v.winMem ∧ (Dev.planStep v offset ref).chip.mode.mode = v.chip.mode.mode ∧ (Dev.planStep v offset ref).regs.active = v.regs.active ∧ (Dev.planStep v offset ref).sec.lifecycle = v.sec.lifecycle ∧ (Dev.planStep v offset ref).sec.floor = v.sec.floor := by
  unfold Dev.planStep
  simp [Dev.Same, Dev.freeBool_keeps]
theorem Dev.slew_keeps (v : Dev) (offset : Int) : (Dev.slew v offset).winMem = v.winMem ∧ (Dev.slew v offset).clk = v.clk ∧ (Dev.slew v offset).chip.mode.mode = v.chip.mode.mode ∧ (Dev.slew v offset).regs.active = v.regs.active ∧ (Dev.slew v offset).sec.lifecycle = v.sec.lifecycle ∧ (Dev.slew v offset).sec.floor = v.sec.floor := by
  unfold Dev.slew
  simp [Dev.Same, Dev.free32_keeps]
theorem Dev.setServo_keeps (v : Dev) (x : Servo) : (Dev.setServo v x).winMem = v.winMem ∧ (Dev.setServo v x).clk = v.clk ∧ (Dev.setServo v x).chip.mode.mode = v.chip.mode.mode ∧ (Dev.setServo v x).regs.active = v.regs.active ∧ (Dev.setServo v x).sec.lifecycle = v.sec.lifecycle ∧ (Dev.setServo v x).sec.floor = v.sec.floor := by
  unfold Dev.setServo
  simp [Dev.Same]
theorem Dev.servoPeal_keeps (v : Dev) : (Dev.servoPeal v).winMem = v.winMem ∧ (Dev.servoPeal v).chip.mode.mode = v.chip.mode.mode ∧ (Dev.servoPeal v).regs.active = v.regs.active ∧ (Dev.servoPeal v).sec.lifecycle = v.sec.lifecycle ∧ (Dev.servoPeal v).sec.floor = v.sec.floor := by
  unfold Dev.servoPeal
  grind [Dev.slew_keeps, Dev.setServo_keeps, Dev.planStep_keeps]
theorem Dev.takeStaged_keeps (v : Dev) (p : Nat) : (Dev.takeStaged v p).winMem = v.winMem ∧ (Dev.takeStaged v p).clk = v.clk ∧ (Dev.takeStaged v p).chip.mode.mode = v.chip.mode.mode ∧ (Dev.takeStaged v p).sec.lifecycle = v.sec.lifecycle ∧ (Dev.takeStaged v p).sec.floor = v.sec.floor := by
  unfold Dev.takeStaged
  grind [Dev.switchGates_keeps, Dev.takePage_keeps, Dev.ringCommit_keeps]
theorem Dev.debugBell_keeps (v : Dev) : (Dev.debugBell v).Same v := by
  unfold Dev.debugBell
  grind [Dev.applyDebug_keeps]
theorem Dev.tick_keeps (v : Dev) : (Dev.tick v).winMem = v.winMem ∧ (Dev.tick v).chip.mode.mode = v.chip.mode.mode ∧ (Dev.tick v).regs.active = v.regs.active ∧ (Dev.tick v).sec.lifecycle = v.sec.lifecycle ∧ (Dev.tick v).sec.floor = v.sec.floor := by
  unfold Dev.tick
  simp [Dev.Same, Dev.assayBell_keeps]
theorem Dev.portBell_keeps (v : Dev) : (Dev.portBell v).Same v := by
  unfold Dev.portBell
  dsimp only
  refine (foldl_same _ ?_ _ _).trans ((foldl_same _ ?_ _ _).trans ((foldl_same _ ?_ _ _).trans ((Dev.refillAll_keeps _).trans (foldl_same _ ?_ _ _))))
  · intro x n
    refine foldl_same _ ?_ _ _
    intro y k; split
    · exact Dev.setEg_keeps _ _ _ _
    · exact Dev.Same.rfl
  · intro x e; exact Dev.launchQp_keeps _ _
  · intro x n; split
    · exact Dev.pfcCheck_keeps _ _
    · exact Dev.Same.rfl
  · intro x n; split
    · exact Dev.setPolicer_keeps _ _ _
    · exact Dev.Same.rfl
theorem Dev.grantBell_keeps (v : Dev) : (Dev.grantBell v).Same v := by
  unfold Dev.grantBell
  simp [Dev.Same, Dev.free32_keeps, Dev.setSched_keeps]
theorem Dev.spireBell_keeps (v : Dev) (s : Nat) : (Dev.spireBell v s).clk = v.clk ∧ (Dev.spireBell v s).chip.mode.mode = v.chip.mode.mode ∧ (Dev.spireBell v s).chip.servo = v.chip.servo ∧ (Dev.spireBell v s).regs.active = v.regs.active ∧ (Dev.spireBell v s).sec.lifecycle = v.sec.lifecycle ∧ (Dev.spireBell v s).sec.floor = v.sec.floor := by
  unfold Dev.spireBell
  grind [Dev.parkDone_keeps, Dev.dropRecov_keeps, Dev.loseSpire_keeps]
theorem Dev.closeBell_keeps (v : Dev) : (Dev.closeBell v).Same v := by
  unfold Dev.closeBell
  simp [Dev.Same, foldl_winMem, foldl_clk, foldl_chip_mode_mode, foldl_chip_servo, foldl_regs_active, foldl_sec_lifecycle, foldl_sec_floor, Dev.closeSession_keeps]
theorem Dev.readBell_keeps (v : Dev) : (Dev.readBell v).Same v := by
  unfold Dev.readBell
  simp [Dev.Same, foldl_winMem, foldl_clk, foldl_chip_mode_mode, foldl_chip_servo, foldl_regs_active, foldl_sec_lifecycle, foldl_sec_floor, Dev.progressRead_keeps]

end Sys2Proof.Machine
end

