-- ==== Sys2Proof/Laws/Commands.lean ====
section
/-! SUPPORT. What every command keeps, one lemma a command: the window memory, the clock, the mode, the servo, the active
registers, the lifecycle and the firmware floor, each where the command leaves it as it was. -/

namespace Sys2Proof.Machine

theorem execTableVersionSwitch_keeps (t : TableId) (key : Nat) (s s' : State) (h : execTableVersionSwitch t key s = .next s') : s'.dev.winMem = s.dev.winMem ∧ s'.dev.clk = s.dev.clk ∧ s'.dev.chip.mode.mode = s.dev.chip.mode.mode ∧ s'.dev.chip.servo = s.dev.chip.servo ∧ s'.dev.sec.lifecycle = s.dev.sec.lifecycle ∧ s'.dev.sec.floor = s.dev.sec.floor := by
  unfold execTableVersionSwitch at h
  simp only [State.on, Host.Outcome.next.injEq] at h
  subst h
  grind [Dev.switchEntry_keeps]
theorem execTableUpdateUnblock_keeps (t : TableId) (key : Nat) (s s' : State) (h : execTableUpdateUnblock t key s = .next s') : s'.dev.winMem = s.dev.winMem ∧ s'.dev.clk = s.dev.clk ∧ s'.dev.chip.mode.mode = s.dev.chip.mode.mode ∧ s'.dev.chip.servo = s.dev.chip.servo ∧ s'.dev.sec.lifecycle = s.dev.sec.lifecycle ∧ s'.dev.sec.floor = s.dev.sec.floor := by
  unfold execTableUpdateUnblock at h
  simp only [State.on, Host.Outcome.next.injEq] at h
  subst h
  grind [Dev.switchEntry_keeps]
theorem execTableUpdateTimeout_keeps (t : TableId) (key : Nat) (s s' : State) (h : execTableUpdateTimeout t key s = .next s') : s'.dev.Same s.dev := by
  unfold execTableUpdateTimeout at h
  simp only [State.on, Host.Outcome.next.injEq] at h
  subst h
  grind [Dev.timeoutEntry_keeps]
theorem execPolicerModeReturn_keeps (port : Port) (s s' : State) (h : execPolicerModeReturn port s = .next s') : s'.dev.Same s.dev := by
  unfold execPolicerModeReturn at h
  simp only [State.on, Host.Outcome.next.injEq] at h
  subst h
  grind [Dev.setPolicer_keeps]
theorem execTransmitOpportunity_keeps (port : Port) (sub : Sub) (s s' : State) (h : execTransmitOpportunity port sub s = .next s') : s'.dev.Same s.dev := by
  unfold execTransmitOpportunity at h
  simp only [State.on, Host.Outcome.next.injEq] at h
  subst h
  grind [Dev.sendFrame_keeps]
theorem execGateEntryAdvance_keeps (port : Port) (sub : Sub) (s s' : State) (h : execGateEntryAdvance port sub s = .next s') : s'.dev.Same s.dev := by
  unfold execGateEntryAdvance at h
  simp only [State.on, Host.Outcome.next.injEq] at h
  subst h
  grind [Dev.setEg_keeps]
theorem execGateListSwitch_keeps (port : Port) (sub : Sub) (s s' : State) (h : execGateListSwitch port sub s = .next s') : s'.dev.winMem = s.dev.winMem ∧ s'.dev.clk = s.dev.clk ∧ s'.dev.chip.mode.mode = s.dev.chip.mode.mode ∧ s'.dev.chip.servo = s.dev.chip.servo ∧ s'.dev.sec.lifecycle = s.dev.sec.lifecycle ∧ s'.dev.sec.floor = s.dev.sec.floor := by
  unfold execGateListSwitch at h
  simp only [State.on, Host.Outcome.next.injEq] at h
  subst h
  grind [Dev.setEg_keeps, Dev.switchGates_keeps]
theorem execPfcReceive_keeps (port : Port) (sub : Sub) (quanta : List (Nat × Nat)) (s s' : State) (h : execPfcReceive port sub quanta s = .next s') : s'.dev.Same s.dev := by
  unfold execPfcReceive at h
  simp only [State.on, Host.Outcome.next.injEq] at h
  subst h
  grind [Dev.received_keeps, Dev.setEg_keeps]
theorem execPfcRefresh_keeps (port : Port) (s s' : State) (h : execPfcRefresh port s = .next s') : s'.dev.Same s.dev := by
  unfold execPfcRefresh at h
  simp only [State.on, Host.Outcome.next.injEq] at h
  subst h
  grind [Dev.setPort_keeps, Dev.sendPfc_keeps]
theorem execMeterProfileSet_keeps (p : Packet) (s s' : State) (h : execMeterProfileSet p s = .next s') : s'.dev.Same s.dev := by
  unfold execMeterProfileSet at h
  simp only [State.on, Host.Outcome.next.injEq] at h
  subst h
  refine Dev.floderRun_keeps _ _ _ _ (fun i x => ?_)
  (repeat' split) <;> grind [Dev.fail_keeps, Dev.queueUpdate_keeps]
theorem execMeterProfileGet_keeps (p : Packet) (s s' : State) (h : execMeterProfileGet p s = .next s') : s'.dev.Same s.dev := by
  unfold execMeterProfileGet at h
  simp only [State.on, Host.Outcome.next.injEq] at h
  subst h
  refine Dev.floderRun_keeps _ _ _ _ (fun i x => ?_)
  (repeat' split) <;> grind [Dev.finish_keeps]
theorem execKeyLoad_keeps (p : Packet) (s s' : State) (h : execKeyLoad p s = .next s') : s'.dev.Same s.dev := by
  unfold execKeyLoad at h
  simp only [State.on, Host.Outcome.next.injEq] at h
  subst h
  refine Dev.floderRun_keeps _ _ _ _ (fun i x => ?_)
  (repeat' split) <;> grind [Dev.sendCopies_keeps, Dev.queueUpdate_keeps, Dev.setKeySlot_keeps, Dev.fail_keeps, Dev.finishOk_keeps]
theorem execKeyRevoke_keeps (p : Packet) (s s' : State) (h : execKeyRevoke p s = .next s') : s'.dev.Same s.dev := by
  unfold execKeyRevoke at h
  simp only [State.on, Host.Outcome.next.injEq] at h
  subst h
  refine Dev.floderRun_keeps _ _ _ _ (fun i x => ?_)
  (repeat' split) <;> grind [Dev.fail_keeps, Dev.setKeySlot_keeps, Dev.noticeEach_keeps, Dev.queueUpdate_keeps]
theorem execKeyZeroize_keeps (slot : Nat) (s s' : State) (h : execKeyZeroize slot s = .next s') : s'.dev.Same s.dev := by
  unfold execKeyZeroize at h
  simp only [State.on, Host.Outcome.next.injEq] at h
  subst h
  grind [Dev.emptySlot_keeps]
theorem execKeyQuery_keeps (p : Packet) (s s' : State) (h : execKeyQuery p s = .next s') : s'.dev.Same s.dev := by
  unfold execKeyQuery at h
  simp only [State.on, Host.Outcome.next.injEq] at h
  subst h
  refine Dev.floderRun_keeps _ _ _ _ (fun i x => ?_)
  (repeat' split) <;> grind [Dev.finishOk_keeps]
theorem execKeyEpochAdvance_keeps (p : Packet) (s s' : State) (h : execKeyEpochAdvance p s = .next s') : s'.dev.Same s.dev := by
  unfold execKeyEpochAdvance at h
  simp only [State.on, Host.Outcome.next.injEq] at h
  subst h
  refine Dev.floderRun_keeps _ _ _ _ (fun i x => ?_)
  (repeat' split) <;> grind [Dev.finishOk_keeps, Security.lifecycle]
theorem execConnKeyBind_keeps (p : Packet) (s s' : State) (h : execConnKeyBind p s = .next s') : s'.dev.Same s.dev := by
  unfold execConnKeyBind at h
  simp only [State.on, Host.Outcome.next.injEq] at h
  subst h
  refine Dev.floderRun_keeps _ _ _ _ (fun i x => ?_)
  (repeat' split) <;> grind [Dev.fail_keeps, Dev.setSession_keeps, Dev.finishOk_keeps]
theorem execLeaseGrant_keeps (sp : Spire) (slot : Nat) (nvOk : Bool) (s s' : State) (h : execLeaseGrant sp slot nvOk s = .next s') : s'.dev.Same s.dev := by
  unfold execLeaseGrant at h
  simp only [State.on, Host.Outcome.next.injEq] at h
  subst h
  grind [Dev.fault_keeps, Dev.takeLease_keeps, Dev.setLease_keeps]
theorem execRngSourceFail_keeps (k : KeepId) (test : BitVec 32) (s s' : State) (h : execRngSourceFail k test s = .next s') : s'.dev.Same s.dev := by
  unfold execRngSourceFail at h
  simp only [State.on, Host.Outcome.next.injEq] at h
  subst h
  grind [Dev.fault_keeps]
theorem execRngExhausted_keeps  (s s' : State) (h : execRngExhausted s = .next s') : s'.dev.Same s.dev := by
  unfold execRngExhausted at h
  simp only [State.on, Host.Outcome.next.injEq] at h
  subst h
  grind [Dev.fault_keeps]
theorem execCipherCoreFault_keeps (sp : Spire) (core : Fin 12) (s s' : State) (h : execCipherCoreFault sp core s = .next s') : s'.dev.Same s.dev := by
  unfold execCipherCoreFault at h
  simp only [State.on, Host.Outcome.next.injEq] at h
  subst h
  grind [Dev.free32_keeps, Dev.fault_keeps, Dev.setSpire_keeps, Dev.faultIn_keeps]
theorem execCmReq_keeps (r : CmReq) (s s' : State) (h : execCmReq r s = .next s') : s'.dev.Same s.dev := by
  unfold execCmReq at h
  simp only [State.on, Host.Outcome.next.injEq] at h
  subst h
  dsimp only
  (repeat' split) <;> grind [Dev.setSession_keeps, Dev.releaseQp_keeps, Dev.setQp_keeps, Dev.sendLocal_keeps, Dev.bound_keeps, Dev.fresh_keeps, Dev.receivedCm_keeps, Dev.sendAbout_keeps]
theorem execCmRtu_keeps (qp : Nat) (s s' : State) (h : execCmRtu qp s = .next s') : s'.dev.Same s.dev := by
  unfold execCmRtu at h
  simp only [State.on, Host.Outcome.next.injEq] at h
  subst h
  grind [Dev.takeProtLease_keeps, Dev.receivedAbout_keeps, Dev.adjSession_keeps, Dev.reissue_keeps]
theorem execPendingPathRelease_keeps (qp : Nat) (s s' : State) (h : execPendingPathRelease qp s = .next s') : s'.dev.Same s.dev := by
  unfold execPendingPathRelease at h
  simp only [State.on, Host.Outcome.next.injEq] at h
  subst h
  grind [Dev.releaseQp_keeps]
theorem execCmDreq_keeps (qp : Nat) (s s' : State) (h : execCmDreq qp s = .next s') : s'.dev.Same s.dev := by
  unfold execCmDreq at h
  simp only [State.on, Host.Outcome.next.injEq] at h
  subst h
  grind [Dev.receivedAbout_keeps, Dev.releaseQp_keeps, Dev.sendLocal_keeps]
theorem execArpNdRequest_keeps (port : Port) (sub : Sub) (target : ArpTarget) (s s' : State) (h : execArpNdRequest port sub target s = .next s') : s'.dev.Same s.dev := by
  unfold execArpNdRequest at h
  simp only [State.on, Host.Outcome.next.injEq] at h
  subst h
  grind [Dev.received_keeps, Dev.sendLocal_keeps]
theorem execUnsupportedFrame_keeps (port : Port) (len : Nat) (s s' : State) (h : execUnsupportedFrame port s len = .next s') : s'.dev.Same s.dev := by
  unfold execUnsupportedFrame at h
  simp only [State.on, Host.Outcome.next.injEq] at h
  subst h
  grind [Dev.received_keeps, Dev.countPort_keeps]
theorem execRequestPacket_keeps (p : ReqPacket) (s s' : State) (h : execRequestPacket p s = .next s') : s'.dev.Same s.dev := by
  unfold execRequestPacket at h
  simp only [State.on, Host.Outcome.next.injEq] at h
  subst h
  dsimp only
  (repeat' split) <;> grind [Dev.policed_keeps, Dev.deliver_keeps, Dev.pfcCheck_keeps, Dev.capsule_keeps, Dev.nextPsn_keeps, Dev.countPort_keeps, Dev.respond_keeps, Dev.packetSeen_keeps, Dev.offPsn_keeps, Dev.send_keeps]
theorem execMirrorContextHeld_keeps (qp : Nat) (psn : BitVec 24) (s s' : State) (h : execMirrorContextHeld qp psn s = .next s') : s'.dev.Same s.dev := by
  unfold execMirrorContextHeld at h
  simp only [State.on, Host.Outcome.next.injEq] at h
  subst h
  grind [Dev.adjQp_keeps, Dev.fresh_keeps, Dev.respond_keeps]
theorem execAckReceive_keeps (qp : Nat) (psn : BitVec 24) (s s' : State) (h : execAckReceive qp psn s = .next s') : s'.dev.Same s.dev := by
  unfold execAckReceive at h
  simp only [State.on, Host.Outcome.next.injEq] at h
  subst h
  grind [Dev.receivedOn_keeps, Dev.takeAck_keeps]
theorem execAckTimeout_keeps (qp : Nat) (s s' : State) (h : execAckTimeout qp s = .next s') : s'.dev.Same s.dev := by
  unfold execAckTimeout at h
  simp only [State.on, Host.Outcome.next.injEq] at h
  subst h
  grind [Dev.faultQp_keeps, Dev.resend_keeps, Dev.setQp_keeps]
theorem execCnpReceive_keeps (qp : Nat) (s s' : State) (h : execCnpReceive qp s = .next s') : s'.dev.Same s.dev := by
  unfold execCnpReceive at h
  simp only [State.on, Host.Outcome.next.injEq] at h
  subst h
  grind [Dev.setQp_keeps, Dev.receivedOn_keeps, Dev.adjQp_keeps, Dev.countPort_keeps]
theorem execHostRnrNak_keeps (qp : Nat) (psn : BitVec 24) (s s' : State) (h : execHostRnrNak qp psn s = .next s') : s'.dev.Same s.dev := by
  unfold execHostRnrNak at h
  simp only [State.on, Host.Outcome.next.injEq] at h
  subst h
  grind [Dev.faultQp_keeps, Dev.resend_keeps, Dev.setQp_keeps, Dev.receivedOn_keeps]
theorem execNetLinkDown_keeps (port : Port) (sub : Sub) (s s' : State) (h : execNetLinkDown port sub s = .next s') : s'.dev.Same s.dev := by
  unfold execNetLinkDown at h
  simp only [State.on, Host.Outcome.next.injEq] at h
  subst h
  grind [Dev.free32_keeps, Dev.setPort_keeps, Dev.fault_keeps, Dev.downPort_keeps]
theorem execNetLinkUp_keeps (port : Port) (sub : Sub) (s s' : State) (h : execNetLinkUp port sub s = .next s') : s'.dev.Same s.dev := by
  unfold execNetLinkUp at h
  simp only [State.on, Host.Outcome.next.injEq] at h
  subst h
  grind [Dev.setPort_keeps, Dev.upPaths_keeps]
theorem execPathHoldExpire_keeps (qp : Nat) (s s' : State) (h : execPathHoldExpire qp s = .next s') : s'.dev.Same s.dev := by
  unfold execPathHoldExpire at h
  simp only [State.on, Host.Outcome.next.injEq] at h
  subst h
  grind [Dev.releaseQp_keeps]
theorem execConsumerWordResponse_keeps (session : Nat) (word : BitVec 64) (s s' : State) (h : execConsumerWordResponse session word s = .next s') : s'.dev.Same s.dev := by
  unfold execConsumerWordResponse at h
  simp only [State.on, Host.Outcome.next.injEq] at h
  subst h
  grind [Dev.readAnswered_keeps, Dev.free32_keeps, Dev.setSession_keeps]
theorem execConsumerPollTimer_keeps (session : Nat) (s s' : State) (h : execConsumerPollTimer session s = .next s') : s'.dev.Same s.dev := by
  unfold execConsumerPollTimer at h
  simp only [State.on, Host.Outcome.next.injEq] at h
  subst h
  grind [Dev.readConsumer_keeps]
theorem execRingEntryWrite_keeps (session : Nat) (s s' : State) (h : execRingEntryWrite session s = .next s') : s'.dev.Same s.dev := by
  unfold execRingEntryWrite at h
  simp only [State.on, Host.Outcome.next.injEq] at h
  subst h
  dsimp only
  (repeat' split) <;> grind [Dev.setSession_keeps, Dev.post_keeps, Dev.readConsumer_keeps, Dev.closeSession_keeps]
theorem execNotifySend_keeps (qp : Nat) (s s' : State) (h : execNotifySend qp s = .next s') : s'.dev.Same s.dev := by
  unfold execNotifySend at h
  simp only [State.on, Host.Outcome.next.injEq] at h
  subst h
  grind [Dev.adjSession_keeps, Dev.post_keeps]
theorem execSessionCreate_keeps (p : Packet) (s s' : State) (h : execSessionCreate p s = .next s') : s'.dev.Same s.dev := by
  unfold execSessionCreate at h
  simp only [State.on, Host.Outcome.next.injEq] at h
  subst h
  refine Dev.floderRun_keeps _ _ _ _ (fun i x => ?_)
  (repeat' split) <;> grind [Dev.fail_keeps, Dev.setSession_keeps, Dev.finishOk_keeps]
theorem execSessionClose_keeps (p : Packet) (s s' : State) (h : execSessionClose p s = .next s') : s'.dev.Same s.dev := by
  unfold execSessionClose at h
  simp only [State.on, Host.Outcome.next.injEq] at h
  subst h
  refine Dev.floderRun_keeps _ _ _ _ (fun i x => ?_)
  try dsimp only
  split
  · exact Dev.fail_keeps _ _ _
  · split
    · exact Dev.fail_keeps _ _ _
    · refine (Dev.closeSession_keeps _ _).trans ((foldl_same _ (fun y a => Dev.revokeWindow_keeps _ _ _) _ _).trans ?_)
      exact (foldl_same _ (fun y a => Dev.fail_keeps _ _ _) _ _).trans (Dev.setSession_keeps _ _ _)
theorem execSessionQuery_keeps (p : Packet) (s s' : State) (h : execSessionQuery p s = .next s') : s'.dev.Same s.dev := by
  unfold execSessionQuery at h
  simp only [State.on, Host.Outcome.next.injEq] at h
  subst h
  refine Dev.floderRun_keeps _ _ _ _ (fun i x => ?_)
  (repeat' split) <;> grind [Dev.fail_keeps, Dev.finishOk_keeps]
theorem execWindowWritePacket_keeps (p : WritePacket) (s s' : State) (h : execWindowWritePacket p s = .next s') : s'.dev.clk = s.dev.clk ∧ s'.dev.chip.mode.mode = s.dev.chip.mode.mode ∧ s'.dev.chip.servo = s.dev.chip.servo ∧ s'.dev.regs.active = s.dev.regs.active ∧ s'.dev.sec.lifecycle = s.dev.sec.lifecycle ∧ s'.dev.sec.floor = s.dev.sec.floor := by
  unfold execWindowWritePacket at h
  simp only [State.on, Host.Outcome.next.injEq] at h
  subst h
  dsimp only
  (repeat' split) <;> grind [Dev.policed_keeps, Dev.serveCipher_keeps, Dev.endWrite_keeps, Dev.nextPsn_keeps, Dev.respond_keeps, Dev.packetSeen_keeps, Dev.offPsn_keeps, Dev.count_keeps, Dev.adjQp_keeps]
theorem execWindowCreate_keeps (p : Packet) (s s' : State) (h : execWindowCreate p s = .next s') : s'.dev.Same s.dev := by
  unfold execWindowCreate at h
  simp only [State.on, Host.Outcome.next.injEq] at h
  subst h
  refine Dev.floderRun_keeps _ _ _ _ (fun i x => ?_)
  (repeat' split) <;> grind [Dev.free64_keeps, Dev.fail_keeps, Dev.queueUpdate_keeps]
theorem execWindowRevoke_keeps (p : Packet) (s s' : State) (h : execWindowRevoke p s = .next s') : s'.dev.Same s.dev := by
  unfold execWindowRevoke at h
  simp only [State.on, Host.Outcome.next.injEq] at h
  subst h
  refine Dev.floderRun_keeps _ _ _ _ (fun i x => ?_)
  (repeat' split) <;> grind [Dev.revokeWindow_keeps, Dev.fail_keeps]
theorem execRevokeDrainComplete_keeps (n : Nat) (s s' : State) (h : execRevokeDrainComplete n s = .next s') : s'.dev.clk = s.dev.clk ∧ s'.dev.chip.mode.mode = s.dev.chip.mode.mode ∧ s'.dev.chip.servo = s.dev.chip.servo ∧ s'.dev.regs.active = s.dev.regs.active ∧ s'.dev.sec.lifecycle = s.dev.sec.lifecycle ∧ s'.dev.sec.floor = s.dev.sec.floor := by
  unfold execRevokeDrainComplete at h
  simp only [State.on, Host.Outcome.next.injEq] at h
  subst h
  grind [Dev.freeWindow_keeps, Dev.chainDone_keeps]
theorem execUnexpAged_keeps (session : Nat) (s s' : State) (h : execUnexpAged session s = .next s') : s'.dev.Same s.dev := by
  unfold execUnexpAged at h
  simp only [State.on, Host.Outcome.next.injEq] at h
  subst h
  grind [Dev.setSession_keeps, Dev.count_keeps]
theorem execImmediateSpentEnd_keeps (session grantTag : Nat) (s s' : State) (h : execImmediateSpentEnd session grantTag s = .next s') : s'.dev.Same s.dev := by
  unfold execImmediateSpentEnd at h
  simp only [State.on, Host.Outcome.next.injEq] at h
  subst h
  grind [Dev.adjSession_keeps]
theorem execTagWait_keeps (p : Packet) (s s' : State) (h : execTagWait p s = .next s') : s'.dev.Same s.dev := by
  unfold execTagWait at h
  simp only [State.on, Host.Outcome.next.injEq] at h
  subst h
  refine Dev.floderRun_keeps _ _ _ _ (fun i x => ?_)
  (repeat' split) <;> grind [Dev.setSession_keeps, Dev.fail_keeps, Dev.finishOk_keeps]
theorem execTagWaitTimeout_keeps (id : Nat) (s s' : State) (h : execTagWaitTimeout id s = .next s') : s'.dev.Same s.dev := by
  unfold execTagWaitTimeout at h
  simp only [State.on, Host.Outcome.next.injEq] at h
  subst h
  grind [Dev.fail_keeps]
theorem execChainQueueCreate_keeps (p : Packet) (s s' : State) (h : execChainQueueCreate p s = .next s') : s'.dev.Same s.dev := by
  unfold execChainQueueCreate at h
  simp only [State.on, Host.Outcome.next.injEq] at h
  subst h
  refine Dev.floderRun_keeps _ _ _ _ (fun i x => ?_)
  (repeat' split) <;> grind [Dev.fail_keeps, Dev.finishOk_keeps, Dev.setChain_keeps]
theorem execChainPost_keeps (p : Packet) (s s' : State) (h : execChainPost p s = .next s') : s'.dev.Same s.dev := by
  unfold execChainPost at h
  simp only [State.on, Host.Outcome.next.injEq] at h
  subst h
  refine Dev.floderRun_keeps _ _ _ _ (fun i x => ?_)
  (repeat' split) <;> grind [Dev.fail_keeps, Dev.skipHeads_keeps, Dev.finishOk_keeps, Dev.setChain_keeps]
theorem execChainQuery_keeps (p : Packet) (s s' : State) (h : execChainQuery p s = .next s') : s'.dev.Same s.dev := by
  unfold execChainQuery at h
  simp only [State.on, Host.Outcome.next.injEq] at h
  subst h
  refine Dev.floderRun_keeps _ _ _ _ (fun i x => ?_)
  (repeat' split) <;> grind [Dev.fail_keeps, Dev.finishOk_keeps]
theorem execChainQueueDestroy_keeps (p : Packet) (s s' : State) (h : execChainQueueDestroy p s = .next s') : s'.dev.Same s.dev := by
  have hw : ∀ (l : List Nat) (x : Dev), (l.foldl (fun x w => match x.chainCmd (Fin.ofNat 1024 w) with
        | some i => x.fail i stAborted
        | none => x) x).Same x := fun l x => foldl_same _ (fun y a => by
    split
    · exact Dev.fail_keeps _ _ _
    · exact Dev.Same.rfl) l x
  have he : ∀ (l : List (BitVec 16 × Packet)) (x : Dev), (l.foldl (fun x e => x.endElement e stAborted) x).Same x :=
    fun l x => foldl_same _ (fun y a => Dev.endElement_keeps _ _ _) l x
  have hf : ∀ (l : List Nat) (x : Dev), (l.foldl (fun x i => x.fail i stAborted) x).Same x :=
    fun l x => foldl_same _ (fun y a => Dev.fail_keeps _ _ _) l x
  unfold execChainQueueDestroy at h
  simp only [State.on, Host.Outcome.next.injEq] at h
  subst h
  refine Dev.floderRun_keeps _ _ _ _ (fun i x => ?_)
  try dsimp only
  cases x.chain (p.u16 0) with
  | none => exact Dev.fail_keeps _ _ _
  | some c =>
    refine (Dev.finishOk_keeps _ _ _ _ _).trans ?_
    refine Dev.Same.trans Dev.Same.rfl ?_
    exact (hw _ _).trans ((he _ _).trans (hf _ _))
theorem execWaitOnCount_keeps (p : Packet) (s s' : State) (h : execWaitOnCount p s = .next s') : s'.dev.Same s.dev := by
  unfold execWaitOnCount at h
  simp only [State.on, Host.Outcome.next.injEq] at h
  subst h
  refine Dev.floderRun_keeps _ _ _ _ (fun i x => ?_)
  (repeat' split) <;> grind [Dev.fail_keeps, Dev.finishOk_keeps]
theorem execWaitOnCountTimeout_keeps (q : Fin 1024) (s s' : State) (h : execWaitOnCountTimeout q s = .next s') : s'.dev.Same s.dev := by
  unfold execWaitOnCountTimeout at h
  simp only [State.on, Host.Outcome.next.injEq] at h
  subst h
  grind [Dev.fail_keeps]
theorem execChainElementComplete_keeps (q : Fin 1024) (status : Byte) (s s' : State) (h : execChainElementComplete q status s = .next s') : s'.dev.Same s.dev := by
  unfold execChainElementComplete at h
  simp only [State.on, Host.Outcome.next.injEq] at h
  subst h
  grind [Dev.wakeWaiters_keeps, Dev.skipHeads_keeps, Dev.setChain_keeps]
theorem execHeadframeSlot_keeps (slot : Fin 128) (offered : List Cell) (s s' : State) (h : execHeadframeSlot slot offered s = .next s') : s'.dev.winMem = s.dev.winMem ∧ s'.dev.chip.mode.mode = s.dev.chip.mode.mode ∧ s'.dev.chip.servo = s.dev.chip.servo ∧ s'.dev.regs.active = s.dev.regs.active ∧ s'.dev.sec.lifecycle = s.dev.sec.lifecycle ∧ s'.dev.sec.floor = s.dev.sec.floor := by
  have hr := Dev.reachNs_keeps s.dev (4 * slot.val)
  have hs : ∀ x : Dev, x.Same (s.dev.reachNs (4 * slot.val)) → x.winMem = s.dev.winMem ∧ x.chip.mode.mode = s.dev.chip.mode.mode ∧
      x.chip.servo = s.dev.chip.servo ∧ x.regs.active = s.dev.regs.active ∧ x.sec.lifecycle = s.dev.sec.lifecycle ∧ x.sec.floor = s.dev.sec.floor :=
    fun x h => ⟨h.1.trans hr.1, h.2.2.1.trans hr.2.1, h.2.2.2.1.trans hr.2.2.1, h.2.2.2.2.1.trans hr.2.2.2.1,
      h.2.2.2.2.2.1.trans hr.2.2.2.2.1, h.2.2.2.2.2.2.trans hr.2.2.2.2.2⟩
  unfold execHeadframeSlot at h
  simp only [State.on, Host.Outcome.next.injEq] at h
  subst h
  try dsimp only
  split
  · simp
  · refine hs _ ((Dev.setHf_keeps _ _).trans ?_)
    refine (foldl_same _ (fun y a => Dev.releaseFrom_keeps _ _) _ _).trans ?_
    refine (foldl_same _ (fun y a => ?_) _ _).trans ?_
    · split
      · exact Dev.injectFrom_keeps _ _ _ _
      · exact Dev.Same.rfl
    refine (foldl_same _ (fun y a => Dev.matchAt_keeps _ _ _ _ _) _ _).trans ?_
    exact foldl_same _ (fun y a => (Dev.offerCell_keeps _ _).trans (Dev.noteGroup_keeps _ _)) _ _
theorem execReseqTimeout_keeps (output : Fin 64) (mc : Bool) (dest from_ : Fin 64) (cls : Fin 8) (s s' : State) (h : execReseqTimeout output mc dest from_ cls s = .next s') : s'.dev.Same s.dev := by
  unfold execReseqTimeout at h
  simp only [State.on, Host.Outcome.next.injEq] at h
  subst h
  grind [Dev.setHf_keeps, Dev.fault_keeps, Dev.emitAll_keeps]
theorem execLostNotice_keeps (input : Fin 64) (msgTag : BitVec 16) (s s' : State) (h : execLostNotice input msgTag s = .next s') : s'.dev.Same s.dev := by
  unfold execLostNotice at h
  simp only [State.on, Host.Outcome.next.injEq] at h
  subst h
  try dsimp only
  repeat' split
  · exact Dev.Same.rfl
  · exact Dev.setHf_keeps _ _
  · exact (Dev.setHf_keeps _ _).trans ((foldl_same _ (fun y a => Dev.offerCell_keeps _ _) _ _).trans
      ((Dev.takeRecov_keeps _ _ _).trans (Dev.setHf_keeps _ _)))
theorem execHfIntermediateError_keeps (plane : Fin 8) (inter : Fin 64) (s s' : State) (h : execHfIntermediateError plane inter s = .next s') : s'.dev.Same s.dev := by
  unfold execHfIntermediateError at h
  simp only [State.on, Host.Outcome.next.injEq] at h
  subst h
  grind [Dev.faultAt_keeps, Dev.setHf_keeps, Dev.free64_keeps]
theorem execCreate_keeps (d : Delivered) (s s' : State) (h : execCreate d s = .next s') : s'.dev.Same s.dev := by
  unfold execCreate at h
  simp only [State.on, Host.Outcome.next.injEq] at h
  subst h
  grind [Dev.capsule_keeps]
theorem execAppend_keeps (d : Delivered) (s s' : State) (h : execAppend d s = .next s') : s'.dev.Same s.dev := by
  unfold execAppend at h
  simp only [State.on, Host.Outcome.next.injEq] at h
  subst h
  grind [Dev.capsule_keeps]
theorem execSeal_keeps (d : Delivered) (s s' : State) (h : execSeal d s = .next s') : s'.dev.Same s.dev := by
  unfold execSeal at h
  simp only [State.on, Host.Outcome.next.injEq] at h
  subst h
  grind [Dev.capsule_keeps]
theorem execDelete_keeps (d : Delivered) (s s' : State) (h : execDelete d s = .next s') : s'.dev.Same s.dev := by
  unfold execDelete at h
  simp only [State.on, Host.Outcome.next.injEq] at h
  subst h
  grind [Dev.capsule_keeps]
theorem execRead_keeps (d : Delivered) (s s' : State) (h : execRead d s = .next s') : s'.dev.Same s.dev := by
  unfold execRead at h
  simp only [State.on, Host.Outcome.next.injEq] at h
  subst h
  grind [Dev.capsule_keeps]
theorem execStat_keeps (d : Delivered) (s s' : State) (h : execStat d s = .next s') : s'.dev.Same s.dev := by
  unfold execStat at h
  simp only [State.on, Host.Outcome.next.injEq] at h
  subst h
  grind [Dev.capsule_keeps]
theorem execFlush_keeps (d : Delivered) (s s' : State) (h : execFlush d s = .next s') : s'.dev.Same s.dev := by
  unfold execFlush at h
  simp only [State.on, Host.Outcome.next.injEq] at h
  subst h
  grind [Dev.capsule_keeps]
theorem execCack_keeps (d : Delivered) (s s' : State) (h : execCack d s = .next s') : s'.dev.Same s.dev := by
  unfold execCack at h
  simp only [State.on, Host.Outcome.next.injEq] at h
  subst h
  grind [Dev.capsule_keeps]
theorem execPing_keeps (d : Delivered) (s s' : State) (h : execPing d s = .next s') : s'.dev.Same s.dev := by
  unfold execPing at h
  simp only [State.on, Host.Outcome.next.injEq] at h
  subst h
  grind [Dev.capsule_keeps]
theorem execFlushComplete_keeps (id : Nat) (s s' : State) (h : execFlushComplete id s = .next s') : s'.dev.Same s.dev := by
  unfold execFlushComplete at h
  simp only [State.on, Host.Outcome.next.injEq] at h
  subst h
  grind [Dev.answer_keeps]
theorem execAdmitBoundExpire_keeps (id : Nat) (s s' : State) (h : execAdmitBoundExpire id s = .next s') : s'.dev.Same s.dev := by
  unfold execAdmitBoundExpire at h
  simp only [State.on, Host.Outcome.next.injEq] at h
  subst h
  grind [Dev.refuseWait_keeps]
theorem execGrainsStored_keeps (id : Nat) (s s' : State) (h : execGrainsStored id s = .next s') : s'.dev.Same s.dev := by
  unfold execGrainsStored at h
  simp only [State.on, Host.Outcome.next.injEq] at h
  subst h
  grind [Dev.count_keeps, Dev.serveCipher_keeps, Dev.adjCtx_keeps, Dev.holdIfDue_keeps]
theorem execAppendHeld_keeps (id : Nat) (s s' : State) (h : execAppendHeld id s = .next s') : s'.dev.Same s.dev := by
  unfold execAppendHeld at h
  simp only [State.on, Host.Outcome.next.injEq] at h
  subst h
  grind [Dev.holdIfDue_keeps]
theorem execStagingSignal_keeps (qp : Nat) (imm : BitVec 32) (msgLen : Nat) (s s' : State) (h : execStagingSignal qp imm msgLen s = .next s') : s'.dev.Same s.dev := by
  unfold execStagingSignal at h
  simp only [State.on, Host.Outcome.next.injEq] at h
  subst h
  dsimp only
  (repeat' split) <;> grind [Dev.assign_keeps, Dev.adjCtx_keeps, Dev.refuseCtx_keeps]
theorem execGrantLifeExpire_keeps (session grantTag : Nat) (s s' : State) (h : execGrantLifeExpire session grantTag s = .next s') : s'.dev.Same s.dev := by
  unfold execGrantLifeExpire at h
  simp only [State.on, Host.Outcome.next.injEq] at h
  subst h
  grind [Dev.endGrant_keeps, Dev.refuseCtx_keeps]
theorem execRecordLifeExpire_keeps (session tally : Nat) (s s' : State) (h : execRecordLifeExpire session tally s = .next s') : s'.dev.Same s.dev := by
  unfold execRecordLifeExpire at h
  simp only [State.on, Host.Outcome.next.injEq] at h
  subst h
  grind [Dev.adjSession_keeps]
theorem execStripeClose_keeps (id : Nat) (cause : CloseCause) (s s' : State) (h : execStripeClose id cause s = .next s') : s'.dev.Same s.dev := by
  unfold execStripeClose at h
  simp only [State.on, Host.Outcome.next.injEq] at h
  subst h
  grind [Dev.closeStripe_keeps]
theorem execSettleAgeExpire_keeps (id : Nat) (s s' : State) (h : execSettleAgeExpire id s = .next s') : s'.dev.Same s.dev := by
  unfold execSettleAgeExpire at h
  simp only [State.on, Host.Outcome.next.injEq] at h
  subst h
  grind [Dev.closeStripe_keeps]
theorem execJournalWriteComplete_keeps (seq : Nat) (s s' : State) (h : execJournalWriteComplete seq s = .next s') : s'.dev.Same s.dev := by
  unfold execJournalWriteComplete at h
  simp only [State.on, Host.Outcome.next.injEq] at h
  subst h
  grind [Dev.journal_keeps]
theorem execGrainClean_keeps (stripe : Nat) (s s' : State) (h : execGrainClean stripe s = .next s') : s'.dev.Same s.dev := by
  unfold execGrainClean at h
  simp only [State.on, Host.Outcome.next.injEq] at h
  subst h
  grind [Dev.cleanStripe_keeps]
theorem execCheckpointStart_keeps  (s s' : State) (h : execCheckpointStart s = .next s') : s'.dev.Same s.dev := by
  unfold execCheckpointStart at h
  simp only [State.on, Host.Outcome.next.injEq] at h
  subst h
  grind [Dev.journal_keeps, Dev.checkpointStep_keeps, Dev.relabel_keeps, Dev.writePages_keeps]
theorem execRebuildPositionComplete_keeps (stripe position : Nat) (s s' : State) (h : execRebuildPositionComplete stripe position s = .next s') : s'.dev.Same s.dev := by
  unfold execRebuildPositionComplete at h
  simp only [State.on, Host.Outcome.next.injEq] at h
  subst h
  grind [Dev.finishJob_keeps]
theorem execCompactionComplete_keeps (stripe : Nat) (s s' : State) (h : execCompactionComplete stripe s = .next s') : s'.dev.Same s.dev := by
  unfold execCompactionComplete at h
  simp only [State.on, Host.Outcome.next.injEq] at h
  subst h
  grind [Dev.finishJob_keeps]
theorem execRelayPublish_keeps (_sp : Spire) (stripe : Nat) (s s' : State) (h : execRelayPublish _sp stripe s = .next s') : s'.dev.Same s.dev := by
  unfold execRelayPublish at h
  simp only [State.on, Host.Outcome.next.injEq] at h
  subst h
  grind [Dev.finishJob_keeps]
theorem execTombstoneReclaim_keeps (claim : Nat) (key : BitVec 128) (s s' : State) (h : execTombstoneReclaim claim key s = .next s') : s'.dev.Same s.dev := by
  unfold execTombstoneReclaim at h
  simp only [State.on, Host.Outcome.next.injEq] at h
  subst h
  dsimp only
  split
  · exact Dev.Same.rfl
  · split
    · exact (Dev.uncharge_keeps _ _ _).trans (Dev.Same.trans ⟨rfl, rfl, rfl, rfl, rfl, rfl, rfl⟩ (foldl_same _ (fun x p => Dev.freePage_keeps _ _) _ _))
    · exact Dev.Same.rfl
theorem execBayWriteComplete_keeps (op : Nat) (status : BitVec 32) (s s' : State) (h : execBayWriteComplete op status s = .next s') : s'.dev.Same s.dev := by
  unfold execBayWriteComplete at h
  simp only [State.on, Host.Outcome.next.injEq] at h
  subst h
  grind [Dev.faultAt_keeps, Dev.dropOp_keeps, Dev.pump_keeps, Dev.opWritten_keeps, Dev.opEnds_keeps]
theorem execBayReadComplete_keeps (op : Nat) (r : BayRead) (s s' : State) (h : execBayReadComplete op r s = .next s') : s'.dev.Same s.dev := by
  unfold execBayReadComplete at h
  simp only [State.on, Host.Outcome.next.injEq] at h
  subst h
  grind [Dev.faultAt_keeps, Dev.opRead_keeps, Dev.dropOp_keeps, Dev.pump_keeps, Dev.opEnds_keeps]
theorem execIoTimeout_keeps (op : Nat) (s s' : State) (h : execIoTimeout op s = .next s') : s'.dev.Same s.dev := by
  unfold execIoTimeout at h
  simp only [State.on, Host.Outcome.next.injEq] at h
  subst h
  dsimp only
  (repeat' split) <;> grind [Dev.takeTimeout_keeps, Dev.opUnresolved_keeps, Dev.fixActive_keeps, Dev.pump_keeps, Dev.resendOp_keeps]
theorem execLeaseCapExpire_keeps (l : LeaseRef) (s s' : State) (h : execLeaseCapExpire l s = .next s') : s'.dev.Same s.dev := by
  unfold execLeaseCapExpire at h
  simp only [State.on, Host.Outcome.next.injEq] at h
  subst h
  grind [Dev.passLease_keeps]
theorem execReadTimeout_keeps (id : Nat) (s s' : State) (h : execReadTimeout id s = .next s') : s'.dev.Same s.dev := by
  unfold execReadTimeout at h
  simp only [State.on, Host.Outcome.next.injEq] at h
  subst h
  grind [Dev.endRead_keeps]
theorem execLateCompletion_keeps (b : Bay) (cid : Nat) (s s' : State) (h : execLateCompletion b cid s = .next s') : s'.dev.Same s.dev := by
  unfold execLateCompletion at h
  simp only [State.on, Host.Outcome.next.injEq] at h
  subst h
  grind [Dev.fault_keeps]
theorem execQuarantineRelease_keeps (b : Bay) (cid : Nat) (s s' : State) (h : execQuarantineRelease b cid s = .next s') : s'.dev.Same s.dev := by
  unfold execQuarantineRelease at h
  simp only [State.on, Host.Outcome.next.injEq] at h
  subst h
  grind
theorem execBayPowerGood_keeps (b : Bay) (s s' : State) (h : execBayPowerGood b s = .next s') : s'.dev.Same s.dev := by
  unfold execBayPowerGood at h
  simp only [State.on, Host.Outcome.next.injEq] at h
  subst h
  grind [Dev.emitAll_keeps, Dev.setBay_keeps]
theorem execBayControllerReady_keeps (b : Bay) (info : DriveInfo) (s s' : State) (h : execBayControllerReady b info s = .next s') : s'.dev.Same s.dev := by
  unfold execBayControllerReady at h
  simp only [State.on, Host.Outcome.next.injEq] at h
  subst h
  grind [Dev.fresh_keeps, Dev.serveBay_keeps, Dev.noteDrive_keeps, Dev.emit_keeps, Dev.setBay_keeps]
theorem execBayFail_keeps (b : Bay) (cause : BayFailCause) (s s' : State) (h : execBayFail b cause s = .next s') : s'.dev.Same s.dev := by
  unfold execBayFail at h
  simp only [State.on, Host.Outcome.next.injEq] at h
  subst h
  grind [Dev.faultAt_keeps, Dev.failBay_keeps]
theorem execBayDriveReadyAgain_keeps (b : Bay) (info : DriveInfo) (s s' : State) (h : execBayDriveReadyAgain b info s = .next s') : s'.dev.Same s.dev := by
  unfold execBayDriveReadyAgain at h
  simp only [State.on, Host.Outcome.next.injEq] at h
  subst h
  grind [Dev.serveBay_keeps, Dev.noteDrive_keeps]
theorem execBayPortLinkChange_keeps (b : Bay) (p : BayPort) (up : Bool) (s s' : State) (h : execBayPortLinkChange b p up s = .next s') : s'.dev.Same s.dev := by
  unfold execBayPortLinkChange at h
  simp only [State.on, Host.Outcome.next.injEq] at h
  subst h
  grind [Dev.dropBayPort_keeps, Dev.partRepaired_keeps, Dev.fixActive_keeps, Dev.pump_keeps, Dev.setBay_keeps]
theorem execActivePortReturn_keeps (b : Bay) (s s' : State) (h : execActivePortReturn b s = .next s') : s'.dev.Same s.dev := by
  unfold execActivePortReturn at h
  simp only [State.on, Host.Outcome.next.injEq] at h
  subst h
  grind [Dev.setBay_keeps]
theorem execShelfLayout_keeps (p : Packet) (s s' : State) (h : execShelfLayout p s = .next s') : s'.dev.Same s.dev := by
  unfold execShelfLayout at h
  simp only [State.on, Host.Outcome.next.injEq] at h
  subst h
  refine Dev.floderRun_keeps _ _ _ _ (fun i x => ?_)
  try dsimp only
  split
  · exact Dev.fail_keeps _ _ _
  · refine (Dev.finishOk_keeps _ _ _ _ _).trans ?_
    refine (foldl_same _ (fun y a => ?_) _ _).trans Dev.Same.rfl
    split
    · exact Dev.issueWrite_keeps _ _ _ _ _
    · exact Dev.Same.rfl
theorem execBayAdopt_keeps (p : Packet) (s s' : State) (h : execBayAdopt p s = .next s') : s'.dev.Same s.dev := by
  unfold execBayAdopt at h
  simp only [State.on, Host.Outcome.next.injEq] at h
  subst h
  refine Dev.floderRun_keeps _ _ _ _ (fun i x => ?_)
  (repeat' split) <;> grind [Dev.finishOk_keeps, Dev.journal_keeps, Dev.serveBay_keeps, Dev.emit_keeps, Dev.setBay_keeps, Dev.issueWrite_keeps, Dev.fail_keeps]
theorem execBaySanitize_keeps (p : Packet) (s s' : State) (h : execBaySanitize p s = .next s') : s'.dev.Same s.dev := by
  unfold execBaySanitize at h
  simp only [State.on, Host.Outcome.next.injEq] at h
  subst h
  refine Dev.floderRun_keeps _ _ _ _ (fun i x => ?_)
  (repeat' split) <;> grind [Dev.fail_keeps, Dev.emit_keeps, Dev.setBay_keeps]
theorem execBayQuery_keeps (p : Packet) (s s' : State) (h : execBayQuery p s = .next s') : s'.dev.Same s.dev := by
  unfold execBayQuery at h
  simp only [State.on, Host.Outcome.next.injEq] at h
  subst h
  refine Dev.floderRun_keeps _ _ _ _ (fun i x => ?_)
  (repeat' split) <;> grind [Dev.finishOk_keeps]
theorem execBayPresenceConfirmed_keeps (b : Bay) (s s' : State) (h : execBayPresenceConfirmed b s = .next s') : s'.dev.Same s.dev := by
  unfold execBayPresenceConfirmed at h
  simp only [State.on, Host.Outcome.next.injEq] at h
  subst h
  grind [Dev.setChan_keeps]
theorem execInsertDelayEnd_keeps (b : Bay) (s s' : State) (h : execInsertDelayEnd b s = .next s') : s'.dev.Same s.dev := by
  unfold execInsertDelayEnd at h
  simp only [State.on, Host.Outcome.next.injEq] at h
  subst h
  grind [Dev.setChan_keeps]
theorem execHumSeated_keeps (h : Hum) (s s' : State) (h : execHumSeated h s = .next s') : s'.dev.Same s.dev := by
  unfold execHumSeated at h
  simp only [State.on, Host.Outcome.next.injEq] at h
  subst h
  grind [Dev.setChan_keeps]
theorem execRampStart_keeps (c : Chan) (s s' : State) (h : execRampStart c s = .next s') : s'.dev.Same s.dev := by
  unfold execRampStart at h
  simp only [State.on, Host.Outcome.next.injEq] at h
  subst h
  grind [Dev.startRamp_keeps]
theorem execRampComplete_keeps (c : Chan) (s s' : State) (h : execRampComplete c s = .next s') : s'.dev.Same s.dev := by
  unfold execRampComplete at h
  simp only [State.on, Host.Outcome.next.injEq] at h
  subst h
  grind [Dev.setChan_keeps, Dev.syncPower_keeps]
theorem execRampTimeout_keeps (c : Chan) (s s' : State) (h : execRampTimeout c s = .next s') : s'.dev.Same s.dev := by
  unfold execRampTimeout at h
  simp only [State.on, Host.Outcome.next.injEq] at h
  subst h
  grind [Dev.trip_keeps]
theorem execPerstRelease_keeps (b : Bay) (s s' : State) (h : execPerstRelease b s = .next s') : s'.dev.Same s.dev := by
  unfold execPerstRelease at h
  simp only [State.on, Host.Outcome.next.injEq] at h
  subst h
  grind [Dev.setChan_keeps]
theorem execFastTrip_keeps (c : Chan) (current : Int) (s s' : State) (h : execFastTrip c current s = .next s') : s'.dev.Same s.dev := by
  unfold execFastTrip at h
  simp only [State.on, Host.Outcome.next.injEq] at h
  subst h
  grind [Dev.trip_keeps]
theorem execBreakerTrip_keeps (c : Chan) (point : Fin 8) (s s' : State) (h : execBreakerTrip c point s = .next s') : s'.dev.Same s.dev := by
  unfold execBreakerTrip at h
  simp only [State.on, Host.Outcome.next.injEq] at h
  subst h
  grind [Dev.trip_keeps]
theorem execRetryDue_keeps (c : Chan) (s s' : State) (h : execRetryDue c s = .next s') : s'.dev.Same s.dev := by
  unfold execRetryDue at h
  simp only [State.on, Host.Outcome.next.injEq] at h
  subst h
  grind [Dev.startRamp_keeps]
theorem execTripCountClear_keeps (c : Chan) (s s' : State) (h : execTripCountClear c s = .next s') : s'.dev.Same s.dev := by
  unfold execTripCountClear at h
  simp only [State.on, Host.Outcome.next.injEq] at h
  subst h
  grind [Dev.setChan_keeps]
theorem execBayRemovalConfirmed_keeps (b : Bay) (s s' : State) (h : execBayRemovalConfirmed b s = .next s') : s'.dev.Same s.dev := by
  unfold execBayRemovalConfirmed at h
  simp only [State.on, Host.Outcome.next.injEq] at h
  subst h
  grind [Dev.setChan_keeps]
theorem execHumSeatingLoss_keeps (h : Hum) (s s' : State) (h : execHumSeatingLoss h s = .next s') : s'.dev.Same s.dev := by
  unfold execHumSeatingLoss at h
  simp only [State.on, Host.Outcome.next.injEq] at h
  subst h
  grind [Dev.setChan_keeps, Dev.loseSeat_keeps]
theorem execPassTransistorFault_keeps (c : Chan) (s s' : State) (h : execPassTransistorFault c s = .next s') : s'.dev.Same s.dev := by
  unfold execPassTransistorFault at h
  simp only [State.on, Host.Outcome.next.injEq] at h
  subst h
  grind [Dev.setChan_keeps, Dev.setBay_keeps, Dev.bayLeaves_keeps, Dev.fault_keeps, Dev.chanOff_keeps, Dev.syncPower_keeps, Dev.partFails_keeps]
theorem execHumIdRead_keeps (h : Hum) (serial : Option (BitVec 128)) (s s' : State) (h : execHumIdRead h serial s = .next s') : s'.dev.Same s.dev := by
  unfold execHumIdRead at h
  simp only [State.on, Host.Outcome.next.injEq] at h
  subst h
  grind [Dev.setHum_keeps, Dev.fault_keeps]
theorem execThermalCrit_keeps (sensor : Fin 12) (t0 t1 : BitVec 32) (s s' : State) (h : execThermalCrit sensor t0 t1 s = .next s') : s'.dev.Same s.dev := by
  unfold execThermalCrit at h
  simp only [State.on, Host.Outcome.next.injEq] at h
  subst h
  grind [Dev.fault_keeps]
theorem execChannelSet_keeps (p : Packet) (s s' : State) (h : execChannelSet p s = .next s') : s'.dev.Same s.dev := by
  unfold execChannelSet at h
  simp only [State.on, Host.Outcome.next.injEq] at h
  subst h
  refine Dev.floderRun_keeps _ _ _ _ (fun i x => ?_)
  (repeat' split) <;> grind [Dev.stageEnable_keeps, Dev.fail_keeps]
theorem execChannelRelease_keeps (p : Packet) (s s' : State) (h : execChannelRelease p s = .next s') : s'.dev.Same s.dev := by
  unfold execChannelRelease at h
  simp only [State.on, Host.Outcome.next.injEq] at h
  subst h
  refine Dev.floderRun_keeps _ _ _ _ (fun i x => ?_)
  (repeat' split) <;> grind [Dev.fail_keeps, Dev.setChan_keeps, Dev.finishOk_keeps]
theorem execCreditCompute_keeps  (s s' : State) (h : execCreditCompute s = .next s') : s'.dev.winMem = s.dev.winMem ∧ s'.dev.chip.mode.mode = s.dev.chip.mode.mode ∧ s'.dev.chip.servo = s.dev.chip.servo ∧ s'.dev.regs.active = s.dev.regs.active ∧ s'.dev.sec.lifecycle = s.dev.sec.lifecycle ∧ s'.dev.sec.floor = s.dev.sec.floor := by
  unfold execCreditCompute at h
  simp only [State.on, Host.Outcome.next.injEq] at h
  subst h
  grind [Dev.countKeep_keeps, Dev.reachNs_keeps]
theorem execAssayDue_keeps (h : Hum) (s s' : State) (h : execAssayDue h s = .next s') : s'.dev.Same s.dev := by
  unfold execAssayDue at h
  simp only [State.on, Host.Outcome.next.injEq] at h
  subst h
  grind [Dev.setHum_keeps]
theorem execAssayDischargeStart_keeps (h : Hum) (s s' : State) (h : execAssayDischargeStart h s = .next s') : s'.dev.Same s.dev := by
  unfold execAssayDischargeStart at h
  simp only [State.on, Host.Outcome.next.injEq] at h
  subst h
  grind [Dev.setChan_keeps, Dev.setHum_keeps]
theorem execAssayEnd_keeps (h : Hum) (s s' : State) (h : execAssayEnd h s = .next s') : s'.dev.Same s.dev := by
  unfold execAssayEnd at h
  simp only [State.on, Host.Outcome.next.injEq] at h
  subst h
  grind [Dev.fault_keeps, Dev.setECap_keeps, Dev.assayCap_keeps, Dev.setChan_keeps, Dev.setHum_keeps]
theorem execCounterSelect_keeps (p : Packet) (s s' : State) (h : execCounterSelect p s = .next s') : s'.dev.Same s.dev := by
  unfold execCounterSelect at h
  simp only [State.on, Host.Outcome.next.injEq] at h
  subst h
  refine Dev.floderRun_keeps _ _ _ _ (fun i x => ?_)
  (repeat' split) <;> grind [Dev.fail_keeps, Dev.selectCounter_keeps]
theorem execPmonSelWrite_keeps (off : Nat) (value : Word) (s s' : State) (h : execPmonSelWrite off value s = .next s') : s'.dev.Same s.dev := by
  unfold execPmonSelWrite at h
  simp only [State.on, Host.Outcome.next.injEq] at h
  subst h
  grind [Dev.writePmon_keeps]
theorem execCounterSelectionApply_keeps (region block k : Nat) (s s' : State) (h : execCounterSelectionApply region block k s = .next s') : s'.dev.Same s.dev := by
  unfold execCounterSelectionApply at h
  simp only [State.on, Host.Outcome.next.injEq] at h
  subst h
  grind [Dev.applySelection_keeps, Dev.takeSnapshot_keeps]
theorem execCounterRead_keeps (p : Packet) (s s' : State) (h : execCounterRead p s = .next s') : s'.dev.Same s.dev := by
  unfold execCounterRead at h
  simp only [State.on, Host.Outcome.next.injEq] at h
  subst h
  refine Dev.floderRun_keeps _ _ _ _ (fun i x => ?_)
  (repeat' split) <;> grind [Dev.fail_keeps, Dev.finishOk_keeps]
theorem execSnapshot_keeps (p : Packet) (s s' : State) (h : execSnapshot p s = .next s') : s'.dev.Same s.dev := by
  unfold execSnapshot at h
  simp only [State.on, Host.Outcome.next.injEq] at h
  subst h
  refine Dev.floderRun_keeps _ _ _ _ (fun i x => ?_)
  (repeat' split) <;> grind [Dev.askSnapshot_keeps]
theorem execSnapshotCopy_keeps  (s s' : State) (h : execSnapshotCopy s = .next s') : s'.dev.Same s.dev := by
  unfold execSnapshotCopy at h
  simp only [State.on, Host.Outcome.next.injEq] at h
  subst h
  grind [Dev.takeSnapshot_keeps]
theorem execSnapshotBufferWritten_keeps  (s s' : State) (h : execSnapshotBufferWritten s = .next s') : s'.dev.Same s.dev := by
  unfold execSnapshotBufferWritten at h
  simp only [State.on, Host.Outcome.next.injEq] at h
  subst h
  grind [Dev.raiseVec_keeps, Dev.emit_keeps]
theorem execProvision_keeps (p : Packet) (s s' : State) (h : execProvision p s = .next s') : s'.dev.winMem = s.dev.winMem ∧ s'.dev.clk = s.dev.clk ∧ s'.dev.chip.mode.mode = s.dev.chip.mode.mode ∧ s'.dev.chip.servo = s.dev.chip.servo ∧ s'.dev.regs.active = s.dev.regs.active ∧ s'.dev.sec.floor = s.dev.sec.floor := by
  unfold execProvision at h
  simp only [State.on, Host.Outcome.next.injEq] at h
  subst h
  refine ⟨Dev.floderRun_pi (·.winMem) (fun a b h => h.1) _ _ _ _ ?_, Dev.floderRun_pi (·.clk) (fun a b h => h.2.1) _ _ _ _ ?_, Dev.floderRun_pi (·.chip.mode.mode) (fun a b h => h.2.2.1) _ _ _ _ ?_, Dev.floderRun_pi (·.chip.servo) (fun a b h => h.2.2.2.1) _ _ _ _ ?_, Dev.floderRun_pi (·.regs.active) (fun a b h => h.2.2.2.2.1) _ _ _ _ ?_, Dev.floderRun_pi (·.sec.floor) (fun a b h => h.2.2.2.2.2.2) _ _ _ _ ?_⟩ <;> intro i x
  all_goals grind [Dev.blowFuses_keeps, Dev.finishOk_keeps, Dev.fail_keeps]
theorem execLifecycleQuery_keeps (p : Packet) (s s' : State) (h : execLifecycleQuery p s = .next s') : s'.dev.Same s.dev := by
  unfold execLifecycleQuery at h
  simp only [State.on, Host.Outcome.next.injEq] at h
  subst h
  refine Dev.floderRun_keeps _ _ _ _ (fun i x => ?_)
  (repeat' split) <;> grind [Dev.finish_keeps]
theorem execRetire_keeps (p : Packet) (s s' : State) (h : execRetire p s = .next s') : s'.dev.Same s.dev := by
  unfold execRetire at h
  simp only [State.on, Host.Outcome.next.injEq] at h
  subst h
  refine Dev.floderRun_keeps _ _ _ _ (fun i x => ?_)
  try dsimp only
  repeat' split
  · exact Dev.fail_keeps _ _ _
  · exact (Dev.fail_keeps _ _ _).trans ((Dev.authFailed_keeps _ _).trans (Dev.useChallenge_keeps _))
  · refine (foldl_same _ (fun y a => ?_) _ _).trans (Dev.Same.trans Dev.Same.rfl (Dev.useChallenge_keeps _))
    split
    · exact Dev.answer_keeps _ _ _ _ _ _ _
    · exact Dev.Same.rfl
  · exact (Dev.modeEvent_keeps _ _).trans (Dev.useChallenge_keeps _)
theorem execSanitizeComplete_keeps (b : Bay) (status : BitVec 32) (s s' : State) (h : execSanitizeComplete b status s = .next s') : s'.dev.winMem = s.dev.winMem ∧ s'.dev.chip.mode.mode = s.dev.chip.mode.mode ∧ s'.dev.chip.servo = s.dev.chip.servo ∧ s'.dev.regs.active = s.dev.regs.active ∧ s'.dev.sec.lifecycle = s.dev.sec.lifecycle ∧ s'.dev.sec.floor = s.dev.sec.floor := by
  unfold execSanitizeComplete at h
  simp only [State.on, Host.Outcome.next.injEq] at h
  subst h
  dsimp only
  (repeat' split) <;> grind [Dev.setBay_keeps, Dev.finishOk_keeps, Dev.retireEnd_keeps]
theorem execDebugChallenge_keeps (p : Packet) (s s' : State) (h : execDebugChallenge p s = .next s') : s'.dev.Same s.dev := by
  unfold execDebugChallenge at h
  simp only [State.on, Host.Outcome.next.injEq] at h
  subst h
  refine Dev.floderRun_keeps _ _ _ _ (fun i x => ?_)
  (repeat' split) <;> grind [Dev.free256_keeps, Dev.finish_keeps, Security.lifecycle]
theorem execDebugSet_keeps (p : Packet) (s s' : State) (h : execDebugSet p s = .next s') : s'.dev.Same s.dev := by
  unfold execDebugSet at h
  simp only [State.on, Host.Outcome.next.injEq] at h
  subst h
  refine Dev.floderRun_keeps _ _ _ _ (fun i x => ?_)
  (repeat' split) <;> grind [Dev.finishOk_keeps, Dev.useChallenge_keeps, Dev.authFailed_keeps, Dev.fail_keeps, Security.lifecycle]
theorem execImageStage_keeps (p : Packet) (s s' : State) (h : execImageStage p s = .next s') : s'.dev.Same s.dev := by
  unfold execImageStage at h
  simp only [State.on, Host.Outcome.next.injEq] at h
  subst h
  refine Dev.floderRun_keeps _ _ _ _ (fun i x => ?_)
  (repeat' split) <;> grind [Dev.setOther_keeps, Dev.fail_keeps, Dev.writeChunk_keeps, Dev.finishOk_keeps]
theorem execFloorAdvance_keeps (p : Packet) (s s' : State) (h : execFloorAdvance p s = .next s') : s'.dev.winMem = s.dev.winMem ∧ s'.dev.clk = s.dev.clk ∧ s'.dev.chip.mode.mode = s.dev.chip.mode.mode ∧ s'.dev.chip.servo = s.dev.chip.servo ∧ s'.dev.regs.active = s.dev.regs.active ∧ s'.dev.sec.lifecycle = s.dev.sec.lifecycle := by
  unfold execFloorAdvance at h
  simp only [State.on, Host.Outcome.next.injEq] at h
  subst h
  refine ⟨Dev.floderRun_pi (·.winMem) (fun a b h => h.1) _ _ _ _ ?_, Dev.floderRun_pi (·.clk) (fun a b h => h.2.1) _ _ _ _ ?_, Dev.floderRun_pi (·.chip.mode.mode) (fun a b h => h.2.2.1) _ _ _ _ ?_, Dev.floderRun_pi (·.chip.servo) (fun a b h => h.2.2.2.1) _ _ _ _ ?_, Dev.floderRun_pi (·.regs.active) (fun a b h => h.2.2.2.2.1) _ _ _ _ ?_, Dev.floderRun_pi (·.sec.lifecycle) (fun a b h => h.2.2.2.2.2.1) _ _ _ _ ?_⟩ <;> intro i x
  all_goals grind [Dev.finishOk_keeps, Dev.fail_keeps, Security.lifecycle]
theorem execImageQuery_keeps (p : Packet) (s s' : State) (h : execImageQuery p s = .next s') : s'.dev.Same s.dev := by
  unfold execImageQuery at h
  simp only [State.on, Host.Outcome.next.injEq] at h
  subst h
  refine Dev.floderRun_keeps _ _ _ _ (fun i x => ?_)
  (repeat' split) <;> grind [Dev.finishOk_keeps]
theorem execActivate_keeps (p : Packet) (s s' : State) (h : execActivate p s = .next s') : s'.dev.Same s.dev := by
  unfold execActivate at h
  simp only [State.on, Host.Outcome.next.injEq] at h
  subst h
  refine Dev.floderRun_keeps _ _ _ _ (fun i x => ?_)
  (repeat' split) <;> grind [Dev.fail_keeps, Security.lifecycle]
theorem execImageSwap_keeps  (s s' : State) (h : execImageSwap s = .next s') : s'.dev.Same s.dev := by
  unfold execImageSwap at h
  simp only [State.on, Host.Outcome.next.injEq] at h
  subst h
  grind [Security.lifecycle]
theorem execImageSwapComplete_keeps  (s s' : State) (h : execImageSwapComplete s = .next s') : s'.dev.Same s.dev := by
  unfold execImageSwapComplete at h
  simp only [State.on, Host.Outcome.next.injEq] at h
  subst h
  grind [Dev.endSwap_keeps]
theorem execActivationTimeout_keeps  (s s' : State) (h : execActivationTimeout s = .next s') : s'.dev.Same s.dev := by
  unfold execActivationTimeout at h
  simp only [State.on, Host.Outcome.next.injEq] at h
  subst h
  grind [Dev.endActivation_keeps]
theorem execPowerOn_keeps (straps : BitVec 3) (s s' : State) (h : execPowerOn straps s = .next s') : s'.dev.winMem = s.dev.winMem ∧ s'.dev.chip.servo = s.dev.chip.servo ∧ s'.dev.regs.active = s.dev.regs.active ∧ s'.dev.sec.lifecycle = s.dev.sec.lifecycle ∧ s'.dev.sec.floor = s.dev.sec.floor := by
  unfold execPowerOn at h
  simp only [State.on, Host.Outcome.next.injEq] at h
  subst h
  grind [Dev.setMode_keeps]
theorem execSupplyBelowThreshold_keeps  (s s' : State) (h : execSupplyBelowThreshold s = .next s') : s'.dev.Same s.dev := by
  unfold execSupplyBelowThreshold at h
  simp only [State.on, Host.Outcome.next.injEq] at h
  subst h
  grind [Dev.modeEvent_keeps]
theorem execResetNPulse_keeps (lowNs : Nat) (s s' : State) (h : execResetNPulse lowNs s = .next s') : s'.dev.Same s.dev := by
  unfold execResetNPulse at h
  simp only [State.on, Host.Outcome.next.injEq] at h
  subst h
  grind [Dev.freeze_keeps, Dev.modeEvent_keeps]
theorem execResetNLongLow_keeps  (s s' : State) (h : execResetNLongLow s = .next s') : s'.dev.winMem = s.dev.winMem ∧ s'.dev.chip.mode.mode = s.dev.chip.mode.mode ∧ s'.dev.chip.servo = s.dev.chip.servo ∧ s'.dev.regs.active = s.dev.regs.active ∧ s'.dev.sec.lifecycle = s.dev.sec.lifecycle ∧ s'.dev.sec.floor = s.dev.sec.floor := by
  unfold execResetNLongLow at h
  simp only [State.on, Host.Outcome.next.injEq] at h
  subst h
  grind [Dev.modeEvent_keeps, Dev.detectLoss_keeps]
theorem execInputPowerLoss_keeps  (s s' : State) (h : execInputPowerLoss s = .next s') : s'.dev.winMem = s.dev.winMem ∧ s'.dev.chip.mode.mode = s.dev.chip.mode.mode ∧ s'.dev.chip.servo = s.dev.chip.servo ∧ s'.dev.regs.active = s.dev.regs.active ∧ s'.dev.sec.lifecycle = s.dev.sec.lifecycle ∧ s'.dev.sec.floor = s.dev.sec.floor := by
  unfold execInputPowerLoss at h
  simp only [State.on, Host.Outcome.next.injEq] at h
  subst h
  grind [Dev.inputLoss_keeps]
theorem execHotSwapSample_keeps (m : Sample) (s s' : State) (h : execHotSwapSample m s = .next s') : s'.dev.winMem = s.dev.winMem ∧ s'.dev.chip.mode.mode = s.dev.chip.mode.mode ∧ s'.dev.chip.servo = s.dev.chip.servo ∧ s'.dev.regs.active = s.dev.regs.active ∧ s'.dev.sec.lifecycle = s.dev.sec.lifecycle ∧ s'.dev.sec.floor = s.dev.sec.floor := by
  unfold execHotSwapSample at h
  simp only [State.on, Host.Outcome.next.injEq] at h
  subst h
  grind [Dev.inputLoss_keeps, Dev.takeSample_keeps]
theorem execInputPresent_keeps  (s s' : State) (h : execInputPresent s = .next s') : s'.dev.Same s.dev := by
  unfold execInputPresent at h
  simp only [State.on, Host.Outcome.next.injEq] at h
  subst h
  grind [Dev.modeEvent_keeps]
theorem execBootStagePass_keeps (sp : Option Spire) (s s' : State) (h : execBootStagePass s sp = .next s') : s'.dev.winMem = s.dev.winMem ∧ s'.dev.clk = s.dev.clk ∧ s'.dev.chip.mode.mode = s.dev.chip.mode.mode ∧ s'.dev.chip.servo = s.dev.chip.servo ∧ s'.dev.regs.active = s.dev.regs.active ∧ s'.dev.sec.floor = s.dev.sec.floor := by
  unfold execBootStagePass at h
  simp only [State.on, Host.Outcome.next.injEq] at h
  subst h
  grind [Dev.regionPass_keeps, Dev.chipPass_keeps]
theorem execBootStageFail_keeps (code : Byte) (part : Option Nat) (sp : Option Spire) (s s' : State) (h : execBootStageFail code part s sp = .next s') : s'.dev.Same s.dev := by
  unfold execBootStageFail at h
  simp only [State.on, Host.Outcome.next.injEq] at h
  subst h
  grind [Dev.chipFail_keeps, Dev.regionFail_keeps]
theorem execBootBackoffExpire_keeps (sp : Option Spire) (s s' : State) (h : execBootBackoffExpire s sp = .next s') : s'.dev.Same s.dev := by
  unfold execBootBackoffExpire at h
  simp only [State.on, Host.Outcome.next.injEq] at h
  subst h
  grind [Dev.adjBoot_keeps, Dev.setSpire_keeps]
theorem execSmbusBootProgressRead_keeps (code : Byte) (s s' : State) (h : execSmbusBootProgressRead code s = .next s') : s'.dev.Same s.dev := by
  unfold execSmbusBootProgressRead at h
  simp only [State.on, Host.Outcome.next.injEq] at h
  subst h
  grind [Dev.emit_keeps]
theorem execSmbusWake_keeps (code data : Byte) (s s' : State) (h : execSmbusWake code data s = .next s') : s'.dev.Same s.dev := by
  unfold execSmbusWake at h
  simp only [State.on, Host.Outcome.next.injEq] at h
  subst h
  grind [Dev.modeEvent_keeps]
theorem execBayWaitExpire_keeps  (s s' : State) (h : execBayWaitExpire s = .next s') : s'.dev.Same s.dev := by
  unfold execBayWaitExpire at h
  simp only [State.on, Host.Outcome.next.injEq] at h
  subst h
  try dsimp only
  split
  · exact (foldl_same _ (fun y a => Dev.partFails_keeps _ _) _ _).trans Dev.Same.rfl
  · exact Dev.Same.rfl
theorem execSurveyComplete_keeps  (s s' : State) (h : execSurveyComplete s = .next s') : s'.dev.Same s.dev := by
  have h1 : ∀ (l : List Nat) (x : Dev), (l.foldl (fun x s => x.remirror s) x).Same x :=
    fun l x => foldl_same _ (fun y a => Dev.remirror_keeps _ _) l x
  have h2 : ∀ (l : List Nat) (x : Dev), (l.foldl (fun x b => x.partFails (.bay (Fin.ofNat 32 b))) x).Same x :=
    fun l x => foldl_same _ (fun y a => Dev.partFails_keeps _ _) l x
  unfold execSurveyComplete at h
  simp only [State.on, Host.Outcome.next.injEq] at h
  subst h
  try dsimp only
  split
  · exact (Dev.modeEvent_keeps _ _).trans ((Dev.fixExposure_keeps _).trans ((h2 _ _).trans ((h1 _ _).trans Dev.Same.rfl)))
  · exact Dev.Same.rfl
theorem execFaultRepaired_keeps (part : Part) (s s' : State) (h : execFaultRepaired part s = .next s') : s'.dev.Same s.dev := by
  unfold execFaultRepaired at h
  simp only [State.on, Host.Outcome.next.injEq] at h
  subst h
  grind [Dev.markShort_keeps, Dev.partRepaired_keeps]
theorem execExposedSettleComplete_keeps  (s s' : State) (h : execExposedSettleComplete s = .next s') : s'.dev.Same s.dev := by
  unfold execExposedSettleComplete at h
  simp only [State.on, Host.Outcome.next.injEq] at h
  subst h
  grind [Dev.noticeEach_keeps]
theorem execIdentify_keeps (p : Packet) (s s' : State) (h : execIdentify p s = .next s') : s'.dev.Same s.dev := by
  unfold execIdentify at h
  simp only [State.on, Host.Outcome.next.injEq] at h
  subst h
  refine Dev.floderRun_keeps _ _ _ _ (fun i x => ?_)
  (repeat' split) <;> grind [Dev.finish_keeps]
theorem execEcho_keeps (p : Packet) (s s' : State) (h : execEcho p s = .next s') : s'.dev.Same s.dev := by
  unfold execEcho at h
  simp only [State.on, Host.Outcome.next.injEq] at h
  subst h
  refine Dev.floderRun_keeps _ _ _ _ (fun i x => ?_)
  (repeat' split) <;> grind [Dev.finishOk_keeps]
theorem execModeQuery_keeps (p : Packet) (s s' : State) (h : execModeQuery p s = .next s') : s'.dev.Same s.dev := by
  unfold execModeQuery at h
  simp only [State.on, Host.Outcome.next.injEq] at h
  subst h
  refine Dev.floderRun_keeps _ _ _ _ (fun i x => ?_)
  (repeat' split) <;> grind [Dev.finishOk_keeps]
theorem execModeSet_keeps (p : Packet) (s s' : State) (h : execModeSet p s = .next s') : s'.dev.Same s.dev := by
  unfold execModeSet at h
  simp only [State.on, Host.Outcome.next.injEq] at h
  subst h
  refine Dev.floderRun_keeps _ _ _ _ (fun i x => ?_)
  (repeat' split) <;> grind [Dev.fail_keeps, Dev.modeEvent_keeps]
theorem execWarmReset_keeps (p : Packet) (s s' : State) (h : execWarmReset p s = .next s') : s'.dev.Same s.dev := by
  unfold execWarmReset at h
  simp only [State.on, Host.Outcome.next.injEq] at h
  subst h
  refine Dev.floderRun_keeps _ _ _ _ (fun i x => ?_)
  (repeat' split) <;> grind [Dev.finishOk_keeps]
theorem execStandby_keeps (p : Packet) (s s' : State) (h : execStandby p s = .next s') : s'.dev.Same s.dev := by
  unfold execStandby at h
  simp only [State.on, Host.Outcome.next.injEq] at h
  subst h
  refine Dev.floderRun_keeps _ _ _ _ (fun i x => ?_)
  (repeat' split) <;> grind [Dev.finishOk_keeps, Dev.fail_keeps, Security.lifecycle]
theorem execShutdown_keeps (p : Packet) (s s' : State) (h : execShutdown p s = .next s') : s'.dev.Same s.dev := by
  unfold execShutdown at h
  simp only [State.on, Host.Outcome.next.injEq] at h
  subst h
  refine Dev.floderRun_keeps _ _ _ _ (fun i x => ?_)
  (repeat' split) <;> grind [Dev.fail_keeps, Dev.modeEvent_keeps]
theorem execDrainWaitExpire_keeps (d : Delivered) (s s' : State) (h : execDrainWaitExpire d s = .next s') : s'.dev.Same s.dev := by
  unfold execDrainWaitExpire at h
  simp only [State.on, Host.Outcome.next.injEq] at h
  subst h
  grind [Dev.answer_keeps]
theorem execDrainComplete_keeps  (s s' : State) (h : execDrainComplete s = .next s') : s'.dev.winMem = s.dev.winMem ∧ s'.dev.chip.mode.mode = s.dev.chip.mode.mode ∧ s'.dev.chip.servo = s.dev.chip.servo ∧ s'.dev.regs.active = s.dev.regs.active ∧ s'.dev.sec.floor = s.dev.sec.floor := by
  unfold execDrainComplete at h
  simp only [State.on, Host.Outcome.next.injEq] at h
  subst h
  grind [Dev.retireNow_keeps, Dev.shutdownEnd_keeps, Dev.offReady_keeps, Dev.retireEnd_keeps, Dev.modeEvent_keeps]
theorem execVaultPhaseV1_keeps  (s s' : State) (h : execVaultPhaseV1 s = .next s') : s'.dev.Same s.dev := by
  unfold execVaultPhaseV1 at h
  simp only [State.on, Host.Outcome.next.injEq] at h
  subst h
  grind [Dev.setPhase_keeps]
theorem execVaultPhaseV2_keeps  (s s' : State) (h : execVaultPhaseV2 s = .next s') : s'.dev.Same s.dev := by
  unfold execVaultPhaseV2 at h
  simp only [State.on, Host.Outcome.next.injEq] at h
  subst h
  try dsimp only
  split
  · exact (foldl_same _ (fun y a => Dev.closeStripe_keeps _ _ _) _ _).trans ((Dev.setPhase_keeps _ _).trans (Dev.journal_keeps _ _))
  · exact Dev.Same.rfl
theorem execVaultSettleComplete_keeps (done : Unit) (s s' : State) (h : execVaultSettleComplete done s = .next s') : s'.dev.Same s.dev := by
  unfold execVaultSettleComplete at h
  simp only [State.on, Host.Outcome.next.injEq] at h
  subst h
  grind [Dev.measureSettle_keeps, Dev.setPhase_keeps, Dev.closeJournal_keeps]
theorem execVaultJournalClosed_keeps  (s s' : State) (h : execVaultJournalClosed s = .next s') : s'.dev.Same s.dev := by
  unfold execVaultJournalClosed at h
  simp only [State.on, Host.Outcome.next.injEq] at h
  subst h
  grind [Dev.journal_keeps, Dev.setPhase_keeps, Dev.startImage_keeps]
theorem execRecordImageWritten_keeps  (s s' : State) (h : execRecordImageWritten s = .next s') : s'.dev.Same s.dev := by
  unfold execRecordImageWritten at h
  simp only [State.on, Host.Outcome.next.injEq] at h
  subst h
  grind [Dev.setPhase_keeps, Dev.flushBays_keeps, Dev.writeImage_keeps]
theorem execVaultFlushComplete_keeps (done : Unit) (s s' : State) (h : execVaultFlushComplete done s = .next s') : s'.dev.Same s.dev := by
  unfold execVaultFlushComplete at h
  simp only [State.on, Host.Outcome.next.injEq] at h
  subst h
  grind [Dev.setPhase_keeps, Dev.writeMarker_keeps]
theorem execVaultMarkerWritten_keeps  (s s' : State) (h : execVaultMarkerWritten s = .next s') : s'.dev.Same s.dev := by
  unfold execVaultMarkerWritten at h
  simp only [State.on, Host.Outcome.next.injEq] at h
  subst h
  grind [Dev.humGatesOff_keeps, Dev.setPhase_keeps, Dev.bayGatesOff_keeps, Dev.modeEvent_keeps, Dev.writeMarker_keeps]
theorem execFencedSettleComplete_keeps  (s s' : State) (h : execFencedSettleComplete s = .next s') : s'.dev.Same s.dev := by
  unfold execFencedSettleComplete at h
  simp only [State.on, Host.Outcome.next.injEq] at h
  subst h
  grind [Dev.bayGatesOff_keeps]
theorem execSpireLoss_keeps (sp : Spire) (cause : BitVec 32) (s s' : State) (h : execSpireLoss sp cause s = .next s') : s'.dev.Same s.dev := by
  unfold execSpireLoss at h
  simp only [State.on, Host.Outcome.next.injEq] at h
  subst h
  grind [Dev.free32_keeps, Dev.regionLease_keeps, Dev.stopSpire_keeps, Dev.fault_keeps]
theorem execRegionReset_keeps (by_ : ResetBy Spire) (s s' : State) (h : execRegionReset by_ s = .next s') : s'.dev.Same s.dev := by
  unfold execRegionReset at h
  simp only [State.on, Host.Outcome.next.injEq] at h
  subst h
  cases by_ with
  | floder p =>
    exact Dev.floderRun_keeps _ _ _ _ (fun i x => (Dev.setSpire_keeps _ _ _).trans ((Dev.startRegionReset_keeps _ _).trans (Dev.unhold_keeps _ _)))
  | fault sp =>
    try dsimp only
    split
    · exact Dev.startRegionReset_keeps _ _
    · exact Dev.Same.rfl
theorem execRegionBootComplete_keeps (sp : Spire) (s s' : State) (h : execRegionBootComplete sp s = .next s') : s'.dev.Same s.dev := by
  unfold execRegionBootComplete at h
  simp only [State.on, Host.Outcome.next.injEq] at h
  subst h
  grind [Dev.spireBack_keeps, Dev.sliceBack_keeps, Dev.setPort_keeps, Dev.finishOpt_keeps, Dev.remirror_keeps, Dev.setSpire_keeps, Dev.resetsDone_keeps]
theorem execRemirrorComplete_keeps (sp : Spire) (s s' : State) (h : execRemirrorComplete sp s = .next s') : s'.dev.Same s.dev := by
  unfold execRemirrorComplete at h
  simp only [State.on, Host.Outcome.next.injEq] at h
  subst h
  dsimp only
  split
  · exact (foldl_same _ (fun x p => Dev.partRepaired_keeps _ _) _ _).trans ((Dev.setSpire_keeps _ _ _).trans (Dev.remirror_keeps _ _))
  · exact Dev.Same.rfl
theorem execRoleReturn_keeps (sp : Spire) (s s' : State) (h : execRoleReturn sp s = .next s') : s'.dev.Same s.dev := by
  unfold execRoleReturn at h
  simp only [State.on, Host.Outcome.next.injEq] at h
  subst h
  grind [Dev.remirror_keeps, Dev.setSpire_keeps]
theorem execBlockReset_keeps (by_ : ResetBy (BitVec 32)) (s s' : State) (h : execBlockReset by_ s = .next s') : s'.dev.Same s.dev := by
  unfold execBlockReset at h
  simp only [State.on, Host.Outcome.next.injEq] at h
  subst h
  cases by_ with
  | floder p =>
    refine Dev.floderRun_keeps _ _ _ _ (fun i x => ?_)
    try dsimp only
    split
    · exact (Dev.startBlockReset_keeps _ _ _).trans (Dev.unhold_keeps _ _)
    · exact Dev.fail_keeps _ _ _
  | fault src =>
    try dsimp only
    split
    · split
      · exact Dev.startBlockReset_keeps _ _ _
      · exact Dev.Same.rfl
    · exact Dev.Same.rfl
theorem execPark_keeps (p : Packet) (s s' : State) (h : execPark p s = .next s') : s'.dev.Same s.dev := by
  unfold execPark at h
  simp only [State.on, Host.Outcome.next.injEq] at h
  subst h
  refine Dev.floderRun_keeps _ _ _ _ (fun i x => ?_)
  (repeat' split) <;> grind [Dev.dropCopiesOf_keeps, Dev.setSpire_keeps, Dev.stopPorts_keeps, Dev.fail_keeps]
theorem execUnpark_keeps (by_ : ResetBy Spire) (s s' : State) (h : execUnpark by_ s = .next s') : s'.dev.Same s.dev := by
  unfold execUnpark at h
  simp only [State.on, Host.Outcome.next.injEq] at h
  subst h
  cases by_ with
  | floder p =>
    refine Dev.floderRun_keeps _ _ _ _ (fun i x => ?_)
    try dsimp only
    split
    · exact Dev.setSpire_keeps _ _ _
    · exact Dev.fail_keeps _ _ _
  | fault sp =>
    try dsimp only
    split
    · exact Dev.setSpire_keeps _ _ _
    · exact Dev.Same.rfl
theorem execUnparkRestartComplete_keeps (sp : Spire) (s s' : State) (h : execUnparkRestartComplete sp s = .next s') : s'.dev.winMem = s.dev.winMem ∧ s'.dev.clk = s.dev.clk ∧ s'.dev.chip.mode.mode = s.dev.chip.mode.mode ∧ s'.dev.sec.lifecycle = s.dev.sec.lifecycle ∧ s'.dev.sec.floor = s.dev.sec.floor := by
  unfold execUnparkRestartComplete at h
  simp only [State.on, Host.Outcome.next.injEq] at h
  subst h
  grind [Dev.spireBack_keeps, Dev.finishOpt_keeps, Dev.dueSpirePages_keeps, Dev.setSpire_keeps]
theorem execUnparkRoleReturn_keeps (sp : Spire) (s s' : State) (h : execUnparkRoleReturn sp s = .next s') : s'.dev.Same s.dev := by
  unfold execUnparkRoleReturn at h
  simp only [State.on, Host.Outcome.next.injEq] at h
  subst h
  grind [Dev.finishOpt_keeps, Dev.setSpire_keeps]
theorem execP1Entry_keeps (sp : Spire) (s s' : State) (h : execP1Entry sp s = .next s') : s'.dev.Same s.dev := by
  unfold execP1Entry at h
  simp only [State.on, Host.Outcome.next.injEq] at h
  subst h
  grind [Dev.setSpire_keeps]
theorem execP1Wake_keeps (sp : Spire) (s s' : State) (h : execP1Wake sp s = .next s') : s'.dev.Same s.dev := by
  unfold execP1Wake at h
  simp only [State.on, Host.Outcome.next.injEq] at h
  subst h
  grind [Dev.setSpire_keeps]
theorem execKeepSelfcheckMismatch_keeps (k : KeepId) (unit : BitVec 32) (s s' : State) (h : execKeepSelfcheckMismatch k unit s = .next s') : s'.dev.Same s.dev := by
  unfold execKeepSelfcheckMismatch at h
  simp only [State.on, Host.Outcome.next.injEq] at h
  subst h
  grind [Dev.fault_keeps, Dev.setKeep_keeps, Dev.modeEvent_keeps]
theorem execKeepOutputCompare_keeps (stroke : Fin 8) (miscompare : Bool) (output : BitVec 32) (s s' : State) (h : execKeepOutputCompare stroke miscompare output s = .next s') : s'.dev.winMem = s.dev.winMem ∧ s'.dev.chip.mode.mode = s.dev.chip.mode.mode ∧ s'.dev.chip.servo = s.dev.chip.servo ∧ s'.dev.regs.active = s.dev.regs.active ∧ s'.dev.sec.lifecycle = s.dev.sec.lifecycle ∧ s'.dev.sec.floor = s.dev.sec.floor := by
  unfold execKeepOutputCompare at h
  simp only [State.on, Host.Outcome.next.injEq] at h
  subst h
  grind [Dev.reachNs_keeps, Dev.fault_keeps]
theorem execKeepIsolation_keeps (k : KeepId) (s s' : State) (h : execKeepIsolation k s = .next s') : s'.dev.Same s.dev := by
  unfold execKeepIsolation at h
  simp only [State.on, Host.Outcome.next.injEq] at h
  subst h
  grind [Dev.isolateKeep_keeps]
theorem execFaultEvent_keeps (f : FaultInfo) (s s' : State) (h : execFaultEvent f s = .next s') : s'.dev.Same s.dev := by
  unfold execFaultEvent at h
  simp only [State.on, Host.Outcome.next.injEq] at h
  subst h
  grind [Dev.faultIn_keeps, Dev.eventLoss_keeps]
theorem execFaultRead_keeps (p : Packet) (s s' : State) (h : execFaultRead p s = .next s') : s'.dev.Same s.dev := by
  unfold execFaultRead at h
  simp only [State.on, Host.Outcome.next.injEq] at h
  subst h
  refine Dev.floderRun_keeps _ _ _ _ (fun i x => ?_)
  (repeat' split) <;> grind [Dev.fail_keeps, Dev.finish_keeps, Dev.count_keeps]
theorem execFaultClear_keeps (p : Packet) (s s' : State) (h : execFaultClear p s = .next s') : s'.dev.Same s.dev := by
  unfold execFaultClear at h
  simp only [State.on, Host.Outcome.next.injEq] at h
  subst h
  refine Dev.floderRun_keeps _ _ _ _ (fun i x => ?_)
  (repeat' split) <;> grind [Dev.fail_keeps, Dev.finishOk_keeps]
theorem execFaultList_keeps (p : Packet) (s s' : State) (h : execFaultList p s = .next s') : s'.dev.Same s.dev := by
  unfold execFaultList at h
  simp only [State.on, Host.Outcome.next.injEq] at h
  subst h
  refine Dev.floderRun_keeps _ _ _ _ (fun i x => ?_)
  (repeat' split) <;> grind [Dev.fail_keeps, Dev.finish_keeps]
theorem execFaultInject_keeps (p : Packet) (s s' : State) (h : execFaultInject p s = .next s') : s'.dev.Same s.dev := by
  unfold execFaultInject at h
  simp only [State.on, Host.Outcome.next.injEq] at h
  subst h
  refine Dev.floderRun_keeps _ _ _ _ (fun i x => ?_)
  (repeat' split) <;> grind [Dev.fail_keeps, Dev.finishOk_keeps, Dev.faultIn_keeps]
theorem execClaimSet_keeps (p : Packet) (s s' : State) (h : execClaimSet p s = .next s') : s'.dev.Same s.dev := by
  unfold execClaimSet at h
  simp only [State.on, Host.Outcome.next.injEq] at h
  subst h
  refine Dev.floderRun_keeps _ _ _ _ (fun i x => ?_)
  (repeat' split) <;> grind [Dev.fail_keeps, Dev.queueUpdate_keeps]
theorem execClaimGet_keeps (p : Packet) (s s' : State) (h : execClaimGet p s = .next s') : s'.dev.Same s.dev := by
  unfold execClaimGet at h
  simp only [State.on, Host.Outcome.next.injEq] at h
  subst h
  refine Dev.floderRun_keeps _ _ _ _ (fun i x => ?_)
  (repeat' split) <;> grind [Dev.finish_keeps, Dev.fail_keeps]
theorem execClaimStatus_keeps (p : Packet) (s s' : State) (h : execClaimStatus p s = .next s') : s'.dev.Same s.dev := by
  unfold execClaimStatus at h
  simp only [State.on, Host.Outcome.next.injEq] at h
  subst h
  refine Dev.floderRun_keeps _ _ _ _ (fun i x => ?_)
  (repeat' split) <;> grind [Dev.fail_keeps, Dev.finishOk_keeps]
theorem execClaimRemove_keeps (p : Packet) (s s' : State) (h : execClaimRemove p s = .next s') : s'.dev.Same s.dev := by
  unfold execClaimRemove at h
  simp only [State.on, Host.Outcome.next.injEq] at h
  subst h
  refine Dev.floderRun_keeps _ _ _ _ (fun i x => ?_)
  (repeat' split) <;> grind [Dev.fail_keeps, Dev.queueUpdate_keeps]
theorem execPortSet_keeps (p : Packet) (s s' : State) (h : execPortSet p s = .next s') : s'.dev.Same s.dev := by
  unfold execPortSet at h
  simp only [State.on, Host.Outcome.next.injEq] at h
  subst h
  refine Dev.floderRun_keeps _ _ _ _ (fun i x => ?_)
  try dsimp only
  split
  · exact Dev.fail_keeps _ _ _
  · refine (Dev.finishOk_keeps _ _ _ _ _).trans ((Dev.setPort_keeps _ _ _).trans ?_)
    split
    · exact Dev.Same.rfl
    · exact (foldl_same _ (fun y a => Dev.downPort_keeps _ _ _) _ _).trans (Dev.setPort_keeps _ _ _)
theorem execPortQuery_keeps (p : Packet) (s s' : State) (h : execPortQuery p s = .next s') : s'.dev.Same s.dev := by
  unfold execPortQuery at h
  simp only [State.on, Host.Outcome.next.injEq] at h
  subst h
  refine Dev.floderRun_keeps _ _ _ _ (fun i x => ?_)
  (repeat' split) <;> grind [Dev.fail_keeps, Dev.finishOk_keeps]
theorem execTraceRead_keeps (p : Packet) (s s' : State) (h : execTraceRead p s = .next s') : s'.dev.Same s.dev := by
  unfold execTraceRead at h
  simp only [State.on, Host.Outcome.next.injEq] at h
  subst h
  refine Dev.floderRun_keeps _ _ _ _ (fun i x => ?_)
  (repeat' split) <;> grind [Dev.finish_keeps, Dev.free32_keeps, Dev.freeBytes_keeps]
theorem execScanStart_keeps (p : Packet) (s s' : State) (h : execScanStart p s = .next s') : s'.dev.Same s.dev := by
  unfold execScanStart at h
  simp only [State.on, Host.Outcome.next.injEq] at h
  subst h
  dsimp only
  have hi : ∀ (c : Prop) [Decidable c] (x y : Dev), x.Same y → (if c then y else x).Same y := by
    intro c _ x y h; split
    · exact Dev.Same.rfl
    · exact h
  refine hi _ _ _ (Dev.floderRun_keeps _ _ _ _ (fun i x => ?_))
  split
  · exact Dev.fail_keeps _ _ _
  · rename_i y _
    have hb : (if !y.fromBay && x.windowsOn y.spire.val != 0 && x.sec.debug != .open_ then x.freeBool else (false, x)).2.Same x := by
      split
      · exact Dev.freeBool_keeps _
      · exact Dev.Same.rfl
    generalize (if !y.fromBay && x.windowsOn y.spire.val != 0 && x.sec.debug != .open_ then x.freeBool else (false, x)) = z at hb ⊢
    split
    · exact (Dev.fail_keeps _ _ _).trans hb
    · exact (Dev.scanNext_keeps _ _ _).trans (Dev.Same.trans ⟨rfl, rfl, rfl, rfl, rfl, rfl, rfl⟩ hb)
theorem execScanAbort_keeps (p : Packet) (s s' : State) (h : execScanAbort p s = .next s') : s'.dev.Same s.dev := by
  unfold execScanAbort at h
  simp only [State.on, Host.Outcome.next.injEq] at h
  subst h
  refine Dev.floderRun_keeps _ _ _ _ (fun i x => ?_)
  (repeat' split) <;> grind [Dev.fail_keeps, Dev.cutScan_keeps, Dev.finishOk_keeps]
theorem execScanComplete_keeps (sp : Spire) (tag : BitVec 16) (s s' : State) (h : execScanComplete sp tag s = .next s') : s'.dev.Same s.dev := by
  unfold execScanComplete at h
  simp only [State.on, Host.Outcome.next.injEq] at h
  subst h
  dsimp only
  (repeat' split) <;> grind [Dev.scanMismatch_keeps, Dev.finish_keeps, Dev.scanRecords_keeps, Dev.count_keeps, Dev.scanBytes_keeps]
theorem execScrubPassStart_keeps (sp : Spire) (s s' : State) (h : execScrubPassStart sp s = .next s') : s'.dev.Same s.dev := by
  unfold execScrubPassStart at h
  simp only [State.on, Host.Outcome.next.injEq] at h
  subst h
  grind [Dev.setScrub_keeps]
theorem execScrubPealQuota_keeps (sp : Spire) (s s' : State) (h : execScrubPealQuota sp s = .next s') : s'.dev.Same s.dev := by
  unfold execScrubPealQuota at h
  simp only [State.on, Host.Outcome.next.injEq] at h
  subst h
  grind [Dev.setScrub_keeps, Dev.checkPages_keeps, Dev.fault_keeps, Dev.endPass_keeps]
theorem execScrubStripeReadComplete_keeps (sp : Spire) (stripe : Nat) (done : Unit) (s s' : State) (h : execScrubStripeReadComplete sp stripe done s = .next s') : s'.dev.Same s.dev := by
  unfold execScrubStripeReadComplete at h
  simp only [State.on, Host.Outcome.next.injEq] at h
  subst h
  grind [Dev.setScrub_keeps, Dev.scrubJudge_keeps, Dev.endPass_keeps]
theorem execScrubDeferredRetry_keeps (sp : Spire) (stripe : Nat) (s s' : State) (h : execScrubDeferredRetry sp stripe s = .next s') : s'.dev.Same s.dev := by
  unfold execScrubDeferredRetry at h
  simp only [State.on, Host.Outcome.next.injEq] at h
  subst h
  grind [Dev.setScrub_keeps]
theorem execBlockResetComplete_keeps (source : BitVec 32) (resolved : Bool) (s s' : State) (h : execBlockResetComplete source resolved s = .next s') : s'.dev.Same s.dev := by
  have hi : ∀ (c : Prop) [Decidable c] (a b x : Dev), a.Same x → b.Same x → (if c then a else b).Same x := by
    intro c _ a b x ha hb; split
    · exact ha
    · exact hb
  unfold execBlockResetComplete at h
  simp only [State.on, Host.Outcome.next.injEq] at h
  subst h
  try dsimp only
  refine hi _ _ _ _ Dev.Same.rfl ?_
  refine (foldl_same _ (fun y a => hi _ _ _ _ (Dev.finishOk_keeps _ _ _ _ _) Dev.Same.rfl) _ _).trans ?_
  refine hi _ _ _ _ (hi _ _ _ _ ((Dev.dropRecov_keeps _ _).trans ?_) ((Dev.passLease_keeps _ _).trans ?_)) ?_
  all_goals refine hi _ _ _ _ ((Dev.resetsDone_keeps _ _).trans ?_) ?_
  all_goals refine hi _ _ _ _ ((Dev.setPort_keeps _ _ _).trans ?_) ?_
  all_goals refine hi _ _ _ _ ((Dev.sliceBack_keeps _ _).trans ?_) (hi _ _ _ _ ((Dev.cipherBack_keeps _ _).trans ?_) ?_)
  all_goals exact hi _ _ _ _ ((Dev.abortComplex_keeps _ _).trans (hi _ _ _ _ (Dev.setSpire_keeps _ _ _) Dev.Same.rfl)) (hi _ _ _ _ (Dev.setSpire_keeps _ _ _) Dev.Same.rfl)
theorem execSqTailDoorbell_keeps (r : Fin 256) (value : Word) (slots : List (BitVec 16 × Packet)) (s s' : State) (h : execSqTailDoorbell r value slots s = .next s') : s'.dev.Same s.dev := by
  unfold execSqTailDoorbell at h
  simp only [State.on, Host.Outcome.next.injEq] at h
  subst h
  grind [Dev.doorbell_keeps, Dev.sqTail_keeps]
theorem execStHeadDoorbell_keeps (r : Fin 256) (value : Word) (s s' : State) (h : execStHeadDoorbell r value s = .next s') : s'.dev.Same s.dev := by
  unfold execStHeadDoorbell at h
  simp only [State.on, Host.Outcome.next.injEq] at h
  subst h
  grind [Dev.doorbell_keeps, Dev.stHeadWrite_keeps]
theorem execFloderReplyWrite_keeps (src : Source) (s s' : State) (h : execFloderReplyWrite src s = .next s') : s'.dev.Same s.dev := by
  unfold execFloderReplyWrite at h
  simp only [State.on, Host.Outcome.next.injEq] at h
  subst h
  dsimp only
  (repeat' split) <;> grind [Dev.writeRingReply_keeps, Dev.writeSessionReply_keeps, Dev.emit_keeps, Dev.skipHeads_keeps]
theorem execRingIntTimer_keeps (r : Fin 256) (s s' : State) (h : execRingIntTimer r s = .next s') : s'.dev.Same s.dev := by
  unfold execRingIntTimer at h
  simp only [State.on, Host.Outcome.next.injEq] at h
  subst h
  grind [Dev.ringSignal_keeps]
theorem execRingDmaFault_keeps (r : Fin 256) (s s' : State) (h : execRingDmaFault r s = .next s') : s'.dev.Same s.dev := by
  unfold execRingDmaFault at h
  simp only [State.on, Host.Outcome.next.injEq] at h
  subst h
  grind [Dev.ringError_keeps]
theorem execRingDrained_keeps (r : Fin 256) (s s' : State) (h : execRingDrained r s = .next s') : s'.dev.Same s.dev := by
  unfold execRingDrained at h
  simp only [State.on, Host.Outcome.next.injEq] at h
  subst h
  grind [Dev.setRing_keeps]
theorem execEpLinkUp_keeps (speed width : Fin 16) (s s' : State) (h : execEpLinkUp speed width s = .next s') : s'.dev.Same s.dev := by
  unfold execEpLinkUp at h
  simp only [State.on, Host.Outcome.next.injEq] at h
  subst h
  grind [Dev.flushVectors_keeps, Dev.stage_keeps, Dev.epResume_keeps]
theorem execEpAerUncorrectable_keeps (cause : FreezeCause) (header : BitVec 32) (s s' : State) (h : execEpAerUncorrectable cause header s = .next s') : s'.dev.Same s.dev := by
  have hr : ∀ (l : List Nat) (x : Dev), (l.foldl (fun x r => x.ringError r 3) x).Same x :=
    fun l x => foldl_same _ (fun y a => Dev.ringError_keeps _ _ _) l x
  unfold execEpAerUncorrectable at h
  simp only [State.on, Host.Outcome.next.injEq] at h
  subst h
  try dsimp only
  repeat' split
  · exact Dev.Same.rfl
  all_goals first
    | exact (Dev.linkLost_keeps _ _).trans ((Dev.fault_keeps _ _ _ _ _ _ _).trans ((hr _ _).trans Dev.Same.rfl))
    | exact (Dev.fault_keeps _ _ _ _ _ _ _).trans ((hr _ _).trans Dev.Same.rfl)
theorem execEpFreezeRelease_keeps (value : Word) (s s' : State) (h : execEpFreezeRelease value s = .next s') : s'.dev.Same s.dev := by
  unfold execEpFreezeRelease at h
  simp only [State.on, Host.Outcome.next.injEq] at h
  subst h
  grind [Dev.answerUr_keeps, Dev.releaseFreeze_keeps]
theorem execEpCompletion_keeps (pf : Pf) (tag : BitVec 14) (st : CplStatus) (s s' : State) (h : execEpCompletion pf tag st s = .next s') : s'.dev.Same s.dev := by
  unfold execEpCompletion at h
  simp only [State.on, Host.Outcome.next.injEq] at h
  subst h
  grind [Dev.readFaults_keeps, Dev.setRing_keeps, Dev.readEnds_keeps, Dev.fault_keeps, Dev.pullSlots_keeps, Dev.retireTag_keeps, Dev.epResume_keeps]
theorem execEpCompletionTimeout_keeps (pf : Pf) (tag : BitVec 14) (s s' : State) (h : execEpCompletionTimeout pf tag s = .next s') : s'.dev.Same s.dev := by
  unfold execEpCompletionTimeout at h
  simp only [State.on, Host.Outcome.next.injEq] at h
  subst h
  grind [Dev.readFaults_keeps, Dev.setFunc_keeps, Dev.fault_keeps, Dev.retireTag_keeps, Dev.epResume_keeps]
theorem execEpTagQuarantineEnd_keeps (pf : Pf) (tag : BitVec 14) (s s' : State) (h : execEpTagQuarantineEnd pf tag s = .next s') : s'.dev.Same s.dev := by
  unfold execEpTagQuarantineEnd at h
  simp only [State.on, Host.Outcome.next.injEq] at h
  subst h
  grind [Dev.setFunc_keeps, Dev.epResume_keeps]
theorem execBusMasterDisable_keeps (pf : Pf) (why : MasterOff) (s s' : State) (h : execBusMasterDisable pf why s = .next s') : s'.dev.Same s.dev := by
  unfold execBusMasterDisable at h
  simp only [State.on, Host.Outcome.next.injEq] at h
  subst h
  grind [Dev.setFunc_keeps, Dev.stopRequests_keeps]
theorem execBusMasterEnable_keeps (pf : Pf) (s s' : State) (h : execBusMasterEnable pf s = .next s') : s'.dev.Same s.dev := by
  unfold execBusMasterEnable at h
  simp only [State.on, Host.Outcome.next.injEq] at h
  subst h
  grind [Dev.flushVectors_keeps, Dev.setFunc_keeps, Dev.epResume_keeps]
theorem execFlr_keeps (pf : Pf) (s s' : State) (h : execFlr pf s = .next s') : s'.dev.Same s.dev := by
  unfold execFlr at h
  simp only [State.on, Host.Outcome.next.injEq] at h
  subst h
  grind [Dev.setFunc_keeps, Dev.allRingsOff_keeps, Dev.stopRequests_keeps]
theorem execFlrComplete_keeps (pf : Pf) (s s' : State) (h : execFlrComplete pf s = .next s') : s'.dev.winMem = s.dev.winMem ∧ s'.dev.clk = s.dev.clk ∧ s'.dev.chip.mode.mode = s.dev.chip.mode.mode ∧ s'.dev.chip.servo = s.dev.chip.servo ∧ s'.dev.sec.lifecycle = s.dev.sec.lifecycle ∧ s'.dev.sec.floor = s.dev.sec.floor := by
  unfold execFlrComplete at h
  simp only [State.on, Host.Outcome.next.injEq] at h
  subst h
  grind [Dev.raiseVec_keeps, Dev.setFunc_keeps, Dev.dropRings_keeps]
theorem execEpReset_keeps (kind : EpResetKind) (s s' : State) (h : execEpReset kind s = .next s') : s'.dev.winMem = s.dev.winMem ∧ s'.dev.clk = s.dev.clk ∧ s'.dev.chip.mode.mode = s.dev.chip.mode.mode ∧ s'.dev.chip.servo = s.dev.chip.servo ∧ s'.dev.sec.lifecycle = s.dev.sec.lifecycle ∧ s'.dev.sec.floor = s.dev.sec.floor := by
  unfold execEpReset at h
  simp only [State.on, Host.Outcome.next.injEq] at h
  subst h
  grind [Dev.linkLost_keeps, Dev.dropRings_keeps]
theorem execEpFailover_keeps  (s s' : State) (h : execEpFailover s = .next s') : s'.dev.Same s.dev := by
  unfold execEpFailover at h
  simp only [State.on, Host.Outcome.next.injEq] at h
  subst h
  grind [Dev.retag_keeps]
theorem execEpFailoverComplete_keeps  (s s' : State) (h : execEpFailoverComplete s = .next s') : s'.dev.Same s.dev := by
  unfold execEpFailoverComplete at h
  simp only [State.on, Host.Outcome.next.injEq] at h
  subst h
  grind [Dev.flushVectors_keeps, Dev.raiseVec_keeps, Dev.fault_keeps, Dev.epResume_keeps]
theorem execEpMemoryRequest_keeps (r : MemReq) (s s' : State) (h : execEpMemoryRequest r s = .next s') : s'.dev.Same s.dev := by
  unfold execEpMemoryRequest at h
  simp only [State.on, Host.Outcome.next.injEq] at h
  subst h
  grind [Dev.bar2Request_keeps, Dev.bar0Request_keeps, Dev.answerUr_keeps, Dev.emit_keeps]
theorem execRegisterWrite_keeps (by_ : Requester) (off : Nat) (value : Word) (s s' : State) (h : execRegisterWrite by_ off value s = .next s') : s'.dev.Same s.dev := by
  unfold execRegisterWrite at h
  simp only [State.on, Host.Outcome.next.injEq] at h
  subst h
  grind [Dev.busWrite_keeps]
theorem execPageCommit_keeps (page : Nat) (value : Word) (s s' : State) (h : execPageCommit page value s = .next s') : s'.dev.Same s.dev := by
  unfold execPageCommit at h
  simp only [State.on, Host.Outcome.next.injEq] at h
  subst h
  grind [Dev.writeCommit_keeps]
theorem execPageDiscard_keeps (page : Nat) (value : Word) (s s' : State) (h : execPageDiscard page value s = .next s') : s'.dev.Same s.dev := by
  unfold execPageDiscard at h
  simp only [State.on, Host.Outcome.next.injEq] at h
  subst h
  grind [Dev.writeCommit_keeps]
theorem execBellNowRead_keeps (by_ : Requester) (s s' : State) (h : execBellNowRead by_ s = .next s') : s'.dev.Same s.dev := by
  unfold execBellNowRead at h
  simp only [State.on, Host.Outcome.next.injEq] at h
  subst h
  grind [Dev.busRead_keeps]
theorem execPmonLoRead_keeps (by_ : Requester) (off : Nat) (s s' : State) (h : execPmonLoRead by_ off s = .next s') : s'.dev.Same s.dev := by
  unfold execPmonLoRead at h
  simp only [State.on, Host.Outcome.next.injEq] at h
  subst h
  grind [Dev.busRead_keeps]
theorem execJtagDebugAccess_keeps (r : JtagReq) (s s' : State) (h : execJtagDebugAccess r s = .next s') : s'.dev.clk = s.dev.clk ∧ s'.dev.chip.mode.mode = s.dev.chip.mode.mode ∧ s'.dev.chip.servo = s.dev.chip.servo ∧ s'.dev.regs.active = s.dev.regs.active ∧ s'.dev.sec.lifecycle = s.dev.sec.lifecycle ∧ s'.dev.sec.floor = s.dev.sec.floor := by
  unfold execJtagDebugAccess at h
  simp only [State.on, Host.Outcome.next.injEq] at h
  subst h
  cases r <;> dsimp only
  case regRead off =>
    cases hr : s.dev.readReg .jtag off.toNat with
    | none => grind [Dev.emit_keeps]
    | some e => have := Dev.readReg_keeps s.dev .jtag off.toNat e.2 e.1 hr; grind [Dev.emit_keeps]
  case regWrite off w =>
    cases hr : s.dev.writeReg off.toNat w with
    | none => grind [Dev.emit_keeps]
    | some e => have := Dev.writeReg_keeps s.dev off.toNat w e hr; grind [Dev.emit_keeps]
  case counterRead off =>
    cases hr : s.dev.readReg .jtag off.toNat with
    | none => cases pmonAt off.toNat <;> grind [Dev.emit_keeps]
    | some e =>
      have := Dev.readReg_keeps s.dev .jtag off.toNat e.2 e.1 hr
      cases pmonAt off.toNat <;> grind [Dev.emit_keeps]
  case faultRecord src => cases s.dev.faultRec src <;> grind [Dev.emit_keeps]
  all_goals grind [Dev.emit_keeps, Dev.freeBytes_keeps, Dev.jtagReadByte_keeps, Dev.jtagWriteByte_keeps]
theorem execPealBoundary_keeps  (s s' : State) (h : execPealBoundary s = .next s') : s'.dev.winMem = s.dev.winMem ∧ s'.dev.chip.mode.mode = s.dev.chip.mode.mode ∧ s'.dev.regs.active = s.dev.regs.active ∧ s'.dev.sec.lifecycle = s.dev.sec.lifecycle ∧ s'.dev.sec.floor = s.dev.sec.floor := by
  unfold execPealBoundary at h
  simp only [State.on, Host.Outcome.next.injEq] at h
  subst h
  grind [Dev.setServo_keeps, Dev.servoPeal_keeps, Dev.humPeal_keeps, Dev.cipherPeal_keeps, Dev.emit_keeps, Dev.askSnapshot_keeps]
theorem execTimeStep_keeps  (s s' : State) (h : execTimeStep s = .next s') : s'.dev.winMem = s.dev.winMem ∧ s'.dev.chip.mode.mode = s.dev.chip.mode.mode ∧ s'.dev.regs.active = s.dev.regs.active ∧ s'.dev.sec.lifecycle = s.dev.sec.lifecycle ∧ s'.dev.sec.floor = s.dev.sec.floor := by
  unfold execTimeStep at h
  simp only [State.on, Host.Outcome.next.injEq] at h
  subst h
  grind [Dev.setServo_keeps, Dev.fault_keeps]
theorem execReferenceLostTimeout_keeps  (s s' : State) (h : execReferenceLostTimeout s = .next s') : s'.dev.winMem = s.dev.winMem ∧ s'.dev.clk = s.dev.clk ∧ s'.dev.chip.mode.mode = s.dev.chip.mode.mode ∧ s'.dev.regs.active = s.dev.regs.active ∧ s'.dev.sec.lifecycle = s.dev.sec.lifecycle ∧ s'.dev.sec.floor = s.dev.sec.floor := by
  unfold execReferenceLostTimeout at h
  simp only [State.on, Host.Outcome.next.injEq] at h
  subst h
  grind [Dev.setServo_keeps]
theorem execReferenceValidAgain_keeps  (s s' : State) (h : execReferenceValidAgain s = .next s') : s'.dev.winMem = s.dev.winMem ∧ s'.dev.clk = s.dev.clk ∧ s'.dev.chip.mode.mode = s.dev.chip.mode.mode ∧ s'.dev.regs.active = s.dev.regs.active ∧ s'.dev.sec.lifecycle = s.dev.sec.lifecycle ∧ s'.dev.sec.floor = s.dev.sec.floor := by
  unfold execReferenceValidAgain at h
  simp only [State.on, Host.Outcome.next.injEq] at h
  subst h
  grind [Dev.setServo_keeps]
theorem execHoldoverLimitExpire_keeps  (s s' : State) (h : execHoldoverLimitExpire s = .next s') : s'.dev.winMem = s.dev.winMem ∧ s'.dev.clk = s.dev.clk ∧ s'.dev.chip.mode.mode = s.dev.chip.mode.mode ∧ s'.dev.regs.active = s.dev.regs.active ∧ s'.dev.sec.lifecycle = s.dev.sec.lifecycle ∧ s'.dev.sec.floor = s.dev.sec.floor := by
  unfold execHoldoverLimitExpire at h
  simp only [State.on, Host.Outcome.next.injEq] at h
  subst h
  grind [Dev.setServo_keeps]
theorem execBellSyncEdge_keeps  (s s' : State) (h : execBellSyncEdge s = .next s') : s'.dev.winMem = s.dev.winMem ∧ s'.dev.clk = s.dev.clk ∧ s'.dev.chip.mode.mode = s.dev.chip.mode.mode ∧ s'.dev.regs.active = s.dev.regs.active ∧ s'.dev.sec.lifecycle = s.dev.sec.lifecycle ∧ s'.dev.sec.floor = s.dev.sec.floor := by
  unfold execBellSyncEdge at h
  simp only [State.on, Host.Outcome.next.injEq] at h
  subst h
  grind [Dev.countKeep_keeps, Dev.setServo_keeps]
theorem execPtpMessageReceive_keeps (m : PtpMessage) (s s' : State) (h : execPtpMessageReceive m s = .next s') : s'.dev.winMem = s.dev.winMem ∧ s'.dev.clk = s.dev.clk ∧ s'.dev.chip.mode.mode = s.dev.chip.mode.mode ∧ s'.dev.regs.active = s.dev.regs.active ∧ s'.dev.sec.lifecycle = s.dev.sec.lifecycle ∧ s'.dev.sec.floor = s.dev.sec.floor := by
  unfold execPtpMessageReceive at h
  simp only [State.on, Host.Outcome.next.injEq] at h
  subst h
  grind [Dev.setServo_keeps]
theorem execStagedCommitTakeEffect_keeps (page : Nat) (s s' : State) (h : execStagedCommitTakeEffect page s = .next s') : s'.dev.winMem = s.dev.winMem ∧ s'.dev.clk = s.dev.clk ∧ s'.dev.chip.mode.mode = s.dev.chip.mode.mode ∧ s'.dev.sec.lifecycle = s.dev.sec.lifecycle ∧ s'.dev.sec.floor = s.dev.sec.floor := by
  unfold execStagedCommitTakeEffect at h
  simp only [State.on, Host.Outcome.next.injEq] at h
  subst h
  grind [Dev.takeStaged_keeps]
theorem execDebugLevelApply_keeps  (s s' : State) (h : execDebugLevelApply s = .next s') : s'.dev.Same s.dev := by
  unfold execDebugLevelApply at h
  simp only [State.on, Host.Outcome.next.injEq] at h
  subst h
  grind [Dev.debugBell_keeps]

end Sys2Proof.Machine
end

