-- ==== Sys2Proof/Laws/Memory.lean ====
section
/-! SUPPORT. The laws of the window memory (R58): every operation keeps the canonical form, a byte written reads back, and
every other byte reads as before. -/

namespace Sys2Proof.Machine

/-- A list sorted from an address on lists nothing below it. -/
theorem memRead_below (m : List Host.Cell) (lo a : Nat) (h : memSortedFrom lo m = true) (ha : a < lo) : memRead m a = 0 := by
  induction m generalizing lo with
  | nil => rfl
  | cons c m ih =>
    obtain ⟨k, b⟩ := c
    simp only [memSortedFrom, Bool.and_eq_true, decide_eq_true_eq] at h
    have hk : k ≠ a := by omega
    simp only [memRead, if_neg hk]
    exact ih (k + 1) h.2 (by omega)

theorem memSortedFrom_mono (m : List Host.Cell) (lo lo' : Nat) (hl : lo' ≤ lo) (h : memSortedFrom lo m = true) :
    memSortedFrom lo' m = true := by
  cases m with
  | nil => rfl
  | cons c m => simp only [memSortedFrom, Bool.and_eq_true, decide_eq_true_eq] at h ⊢; exact ⟨⟨by omega, h.1.2⟩, h.2⟩

/-- Writing a byte keeps a list sorted from any address not above it. -/
theorem memWrite_sorted (m : List Host.Cell) (lo a : Nat) (b : Byte) (h : memSortedFrom lo m = true) (ha : lo ≤ a) :
    memSortedFrom lo (memWrite m a b) = true := by
  induction m generalizing lo with
  | nil =>
    simp only [memWrite]
    split
    · rfl
    · simpa [memSortedFrom, ha] using ‹¬b = 0›
  | cons c m ih =>
    obtain ⟨k, x⟩ := c
    simp only [memSortedFrom, Bool.and_eq_true, decide_eq_true_eq] at h
    simp only [memWrite]
    split
    · split
      · simp only [memSortedFrom, Bool.and_eq_true, decide_eq_true_eq]; exact h
      · simp only [memSortedFrom, Bool.and_eq_true, decide_eq_true_eq]
        exact ⟨⟨ha, by simpa using ‹¬b = 0›⟩, ⟨by omega, h.1.2⟩, h.2⟩
    · split
      · split
        · exact memSortedFrom_mono m (k + 1) lo (by omega) h.2
        · simp only [memSortedFrom, Bool.and_eq_true, decide_eq_true_eq]
          exact ⟨⟨ha, by simpa using ‹¬b = 0›⟩, memSortedFrom_mono m (k + 1) (a + 1) (by omega) h.2⟩
      · simp only [memSortedFrom, Bool.and_eq_true, decide_eq_true_eq]
        exact ⟨h.1, ih (k + 1) h.2 (by omega)⟩

/-- Writing a byte keeps the canonical form. -/
theorem memWrite_wf (m : List Host.Cell) (a : Nat) (b : Byte) (h : Memory.wf m = true) : Memory.wf (memWrite m a b) = true :=
  memWrite_sorted m 0 a b h (Nat.zero_le a)

/-- Writing bytes keeps the canonical form. -/
theorem memWriteBytes_wf (m : List Host.Cell) (a : Nat) (bs : List Byte) (h : Memory.wf m = true) :
    Memory.wf (memWriteBytes m a bs) = true := by
  induction bs generalizing m a with
  | nil => exact h
  | cons b bs ih => exact ih _ _ (memWrite_wf m a b h)

theorem memFilter_sorted (p : Host.Cell → Bool) (m : List Host.Cell) (lo : Nat) (h : memSortedFrom lo m = true) :
    memSortedFrom lo (m.filter p) = true := by
  induction m generalizing lo with
  | nil => rfl
  | cons c m ih =>
    obtain ⟨k, x⟩ := c
    simp only [memSortedFrom, Bool.and_eq_true, decide_eq_true_eq] at h
    simp only [List.filter_cons]
    split
    · simp only [memSortedFrom, Bool.and_eq_true, decide_eq_true_eq]; exact ⟨h.1, ih (k + 1) h.2⟩
    · exact memSortedFrom_mono _ (k + 1) lo (by omega) (ih (k + 1) h.2)

/-- Freeing a range keeps the canonical form. -/
theorem memClear_wf (m : List Host.Cell) (a n : Nat) (h : Memory.wf m = true) : Memory.wf (memClear m a n) = true :=
  memFilter_sorted _ m 0 h

/-- A byte written reads back, and every other byte reads as before. -/
theorem memRead_memWrite_from (m : List Host.Cell) (lo a c : Nat) (b : Byte) (h : memSortedFrom lo m = true) :
    memRead (memWrite m a b) c = if c = a then b else memRead m c := by
  induction m generalizing lo with
  | nil => by_cases hb : b = 0 <;> by_cases hc : c = a <;> simp_all [memWrite, memRead] <;> omega
  | cons e m ih =>
    obtain ⟨k, x⟩ := e
    simp only [memSortedFrom, Bool.and_eq_true, decide_eq_true_eq] at h
    have hi := ih (k + 1) h.2
    have hb := memRead_below m (k + 1) c h.2
    simp only [memWrite]
    split
    · split
      · by_cases hc : c = a
        · have hk : k ≠ c := by omega
          simp only [memRead, if_neg hk, if_pos hc, hb (by omega)]; simp_all
        · simp [hc]
      · by_cases hc : c = a
        · simp [memRead, hc]
        · have : a ≠ c := fun h => hc h.symm
          simp [memRead, hc, this]
    · split
      · split
        · by_cases hc : c = a
          · simp only [if_pos hc, hb (by omega)]; simp_all
          · have hk : k ≠ c := by omega
            simp [memRead, hc, hk]
        · by_cases hc : c = a
          · simp [memRead, hc]
          · have hk : k ≠ c := by omega
            have ha : a ≠ c := fun h => hc h.symm
            simp [memRead, hc, hk, ha]
      · by_cases hk : k = c
        · have hc : c ≠ a := by omega
          simp [memRead, hk, hc]
        · simp [memRead, hk, hi]

/-- A byte written reads back, and every other byte reads as before. -/
theorem memRead_memWrite (m : List Host.Cell) (a c : Nat) (b : Byte) (h : Memory.wf m = true) :
    memRead (memWrite m a b) c = if c = a then b else memRead m c := memRead_memWrite_from m 0 a c b h

/-- Writing bytes leaves every byte outside them as it was. -/
theorem memRead_memWriteBytes_out (m : List Host.Cell) (a c : Nat) (bs : List Byte) (h : Memory.wf m = true)
    (hc : c < a ∨ a + bs.length ≤ c) : memRead (memWriteBytes m a bs) c = memRead m c := by
  induction bs generalizing m a with
  | nil => rfl
  | cons b bs ih =>
    simp only [List.length_cons] at hc
    rw [memWriteBytes, ih _ _ (memWrite_wf m a b h) (by omega), memRead_memWrite m a c b h, if_neg (by omega)]

/-- Bytes written read back. -/
theorem memReadBytes_memWriteBytes (m : List Host.Cell) (a : Nat) (bs : List Byte) (h : Memory.wf m = true) :
    memReadBytes (memWriteBytes m a bs) a bs.length = bs := by
  induction bs generalizing m a with
  | nil => rfl
  | cons b bs ih =>
    have hw := memWrite_wf m a b h
    simp only [memWriteBytes, List.length_cons, memReadBytes, ih _ _ hw]
    rw [memRead_memWriteBytes_out _ _ _ _ hw (by omega), memRead_memWrite m a a b h, if_pos rfl]

/-- A freed range reads 0, and every other byte reads as before. -/
theorem memRead_memClear (m : List Host.Cell) (a n c : Nat) (h : Memory.wf m = true) :
    memRead (memClear m a n) c = if a ≤ c ∧ c < a + n then 0 else memRead m c := by
  have go : ∀ (m : List Host.Cell) (lo : Nat), memSortedFrom lo m = true →
      memRead (memClear m a n) c = if a ≤ c ∧ c < a + n then 0 else memRead m c := by
    intro m
    induction m with
    | nil => intro lo _; simp [memClear, memRead]
    | cons e m ih =>
      intro lo h
      obtain ⟨k, x⟩ := e
      simp only [memSortedFrom, Bool.and_eq_true, decide_eq_true_eq] at h
      have hi := ih (k + 1) h.2
      simp only [memClear, List.filter_cons] at hi ⊢
      split <;> simp only [memRead] <;> grind
  exact go m 0 h

end Sys2Proof.Machine
end

