-- ==== Sys2Proof/WellFormed.lean ====
section
/-! DEFINITION. Commands that can be formed: the bounds that the manual puts on what may arrive at the block. The meanings
are total and do not lean on it. -/

namespace Sys2Proof

/-- A queue pair number (R220). -/
def qpOk (n : Nat) : Bool := decide (n < 16384)

/-- A session number (R224). -/
def sessionOk (n : Nat) : Bool := decide (n < 8192)

/-- A register offset: inside BAR0 of PF0 or the page of PF1 above it, a multiple of 4 (R445). -/
def offsetOk (o : Nat) : Bool := decide (o < 0x4010000) && o % 4 == 0

/-- A Floder packet is 64 B: 48 of them parameters; its data area is 0 to 1,048,576 B, a multiple of 8 where there is one,
and brings no more bytes than it holds (R393). -/
def Packet.wf (p : Packet) : Bool :=
  p.params.length == 48 && decide (p.dataLen.toNat ≤ 1048576) && decide (p.data.length ≤ p.dataLen.toNat)
    && (p.dataLen.toNat == 0 || p.dataPtr.toNat % 8 == 0)
    && (match p.src with | .session q => qpOk q | _ => true)

/-- A message on a queue pair brings no more bytes than it is long (R117, R223, R325). -/
def Delivered.wf (d : Delivered) : Bool := qpOk d.qp && decide (d.bytes.length ≤ d.msgLen)

/-- A cell carries 1 to 240 bytes; a multicast cell of an allocated group has its outputs (R269, R279). -/
def Cell.wf (c : Cell) : Bool :=
  decide (1 ≤ c.len) && decide (c.len ≤ 240) && (if c.mc && 4 ≤ c.dest.val then !c.group.isEmpty else c.group.isEmpty)

/-- A packet carries at most an MTU of payload (R219). -/
def ReqPacket.wf (p : ReqPacket) : Bool := qpOk p.qp && decide (p.bytes ≤ 4096) && decide (p.bytes ≤ p.cost)

def WritePacket.wf (p : WritePacket) : Bool :=
  qpOk p.qp && decide (p.data.length ≤ 4096) && decide (p.data.length ≤ p.cost) && (p.imm.isNone || p.last)

/-- Channels and sensors that exist, each at most once (R350, R489). -/
def Sample.wf (m : Sample) : Bool :=
  m.chans.all (fun e => decide (e.1 < 34)) && m.temps.all (fun e => decide (e.1 < 6) || (decide (8 ≤ e.1) && decide (e.1 < 12)))
    && decide ((m.chans.map (·.1)).Nodup) && decide ((m.temps.map (·.1)).Nodup)

/-- A class is 0 to 4 (R376, R377). -/
def FaultInfo.wf (f : FaultInfo) : Bool := match f.cls with
  | none => true
  | some c => decide (c ≤ 4)

def MemReq.wf (r : MemReq) : Bool :=
  (r.bar == 0 || r.bar == 2 || r.bar == 6) && decide (1 ≤ r.length) && decide (r.length ≤ 4096)

def CmReq.wf (r : CmReq) : Bool := decide (r.mtu ≤ 4096)

def grainsWf (l : List (List Byte)) : Bool := l.all (fun g => g.length == 4160)

/-- A resource that a Floder command asks for, or a fault. -/
def ResetBy.wf {α : Type} : ResetBy α → Bool
  | .floder p => p.wf
  | .fault _ => true

/-- The command can be formed. -/
def Instr.wf : Instr → Bool
  | .create d | .append d | .sealOp d | .delete d | .read d | .stat d | .flush d | .cack d | .ping d
  | .drainWaitExpire d => d.wf
  | .identify p | .echo p | .modeQuery p | .modeSet p | .warmReset p | .shutdown p | .activate p | .scanStart p
  | .scanAbort p | .sessionCreate p | .sessionClose p | .sessionQuery p | .windowCreate p | .windowRevoke p | .tagWait p
  | .chainQueueCreate p | .chainPost p | .chainQuery p | .chainQueueDestroy p | .waitOnCount p | .meterProfileSet p
  | .meterProfileGet p | .keyLoad p | .keyRevoke p | .keyQuery p | .keyEpochAdvance p | .connKeyBind p | .provision p
  | .retire p | .lifecycleQuery p | .debugChallenge p | .debugSet p | .imageStage p | .floorAdvance p | .imageQuery p
  | .park p | .standby p | .channelSet p | .channelRelease p | .faultRead p | .faultClear p | .faultList p
  | .faultInject p | .claimSet p | .claimGet p | .claimStatus p | .claimRemove p | .shelfLayout p | .bayAdopt p
  | .baySanitize p | .bayQuery p | .portSet p | .portQuery p | .counterSelect p | .counterRead p | .snapshot p
  | .traceRead p => p.wf
  | .regionReset b | .unpark b => b.wf
  | .blockReset b => b.wf
  | .requestPacket p => p.wf
  | .windowWritePacket p => p.wf
  | .headframeSlot _ cs => cs.all Cell.wf
  | .hotSwapSample m => m.wf
  | .faultEvent f => f.wf
  | .epMemoryRequest r => r.wf
  | .cmReq r => r.wf
  | .pageCommit p _ | .pageDiscard p _ | .stagedCommitTakeEffect p => offsetOk p && p % 0x1000 == 0
  | .registerWrite _ o _ | .pmonLoRead _ o | .pmonSelWrite o _ => offsetOk o
  | .cmRtu q | .pendingPathRelease q | .cmDreq q | .mirrorContextHeld q _ | .ackReceive q _ | .ackTimeout q
  | .cnpReceive q | .hostRnrNak q _ | .pathHoldExpire q | .notifySend q | .stagingSignal q _ _ => qpOk q
  | .consumerWordResponse n _ | .consumerPollTimer n | .ringEntryWrite n | .unexpAged n => sessionOk n
  | .grantLifeExpire n g | .immediateSpentEnd n g => sessionOk n && decide (g < 65536)
  | .recordLifeExpire n t => sessionOk n && decide (t < 2 ^ 32)
  | .bayReadComplete _ r => (match r with | .data g => grainsWf g | .error _ => true)
  | .keyZeroize n => decide (n < 8192)
  | .leaseGrant _ n _ => decide (n < 8192)
  | .revokeDrainComplete w => decide (w < 16384)
  | .lateCompletion _ c | .quarantineRelease _ c => decide (c < 65536)
  | .pfcReceive _ _ qs => qs.all (fun (q : Nat × Nat) => decide (q.1 < 8) && decide (q.2 < 65536))
  | .counterSelectionApply r b k => decide (r < 6) && decide (b < 512) && decide (k < 8)
  | .tombstoneReclaim c _ => decide (c < 4096)
  | .ptpMessageReceive _ | .arpNdRequest _ _ _ | .jtagDebugAccess _ | .sqTailDoorbell _ _ _ | .stHeadDoorbell _ _
  | .floderReplyWrite _ | .ringIntTimer _ | .ringDmaFault _ | .ringDrained _ | .epLinkUp _ _ | .epAerUncorrectable _ _
  | .epFreezeRelease _ | .epCompletion _ _ _ | .epCompletionTimeout _ _ | .epTagQuarantineEnd _ _ | .busMasterDisable _ _
  | .busMasterEnable _ | .flr _ | .flrComplete _ | .epReset _ | .epFailover | .epFailoverComplete
  | .powerOn _ | .supplyBelowThreshold | .resetNPulse _ | .resetNLongLow | .inputPowerLoss | .inputPresent
  | .bellBoundary | .creditCompute | .keepOutputCompare _ _ _ | .keepSelfcheckMismatch _ _ | .keepIsolation _
  | .pealBoundary | .timeStep | .referenceLostTimeout | .referenceValidAgain | .holdoverLimitExpire | .bellSyncEdge
  | .bellNowRead _ | .tableVersionSwitch _ _ | .tableUpdateUnblock _ _ | .tableUpdateTimeout _ _ | .bootStagePass _
  | .bootStageFail _ _ _ | .bootBackoffExpire _ | .bayWaitExpire | .surveyComplete | .faultRepaired _
  | .exposedSettleComplete | .spireLoss _ _ | .regionBootComplete _ | .remirrorComplete _ | .roleReturn _
  | .blockResetComplete _ _ | .drainComplete | .activationDrainEnter | .imageSwap | .imageSwapComplete
  | .activationTimeout | .flushComplete _ | .admitBoundExpire _ | .grainsStored _ | .appendHeld _ | .assayDue _
  | .assayDischargeStart _ | .assayEnd _ | .stripeClose _ _ | .settleAgeExpire _ | .bayWriteComplete _ _
  | .journalWriteComplete _ | .grainClean _ | .checkpointStart | .vaultPhaseV1 | .vaultPhaseV2 | .vaultSettleComplete _
  | .vaultJournalClosed | .recordImageWritten | .vaultFlushComplete _ | .vaultMarkerWritten | .bayPowerGood _
  | .bayControllerReady _ _ | .bayFail _ _ | .bayDriveReadyAgain _ _ | .bayPortLinkChange _ _ _ | .activePortReturn _
  | .rebuildPositionComplete _ _ | .compactionComplete _ | .ioTimeout _ | .leaseCapExpire _ | .readTimeout _
  | .scrubStripeReadComplete _ _ _ | .scanComplete _ _ | .scrubPassStart _ | .scrubPealQuota _ | .scrubDeferredRetry _ _ | .relayPublish _ _
  | .unsupportedFrame _ _ | .netLinkDown _ _ | .netLinkUp _ _ | .tagWaitTimeout _ | .waitOnCountTimeout _
  | .chainElementComplete _ _ | .reseqTimeout _ _ _ _ _ | .lostNotice _ _ | .hfIntermediateError _ _
  | .policerModeReturn _ | .transmitOpportunity _ _ | .gateEntryAdvance _ _ | .gateListSwitch _ _ | .pfcRefresh _
  | .rngSourceFail _ _ | .rngExhausted | .cipherCoreFault _ _ | .sanitizeComplete _ _ | .debugLevelApply
  | .unparkRestartComplete _ | .unparkRoleReturn _ | .smbusWake _ _ | .smbusBootProgressRead _ | .p1Entry _ | .p1Wake _
  | .bayPresenceConfirmed _ | .humSeated _ | .insertDelayEnd _ | .rampStart _ | .rampComplete _ | .rampTimeout _
  | .perstRelease _ | .fastTrip _ _ | .breakerTrip _ _ | .retryDue _ | .tripCountClear _ | .bayRemovalConfirmed _
  | .humSeatingLoss _ | .passTransistorFault _ | .humIdRead _ _ | .thermalCrit _ _ _ | .fencedSettleComplete
  | .snapshotCopy | .snapshotBufferWritten => true

end Sys2Proof
end

