-- ==== Sys2Proof/Tests/Slice0.lean ====
section
/-! SUPPORT. Tests of the model: where the hypotheses of the statements are met, commands that cannot be formed, and the values
that the manual works out. -/

/-! ### Helpers: devices to test on -/

namespace Sys2Proof.Tests

open Sys2Proof Sys2Proof.Machine

-- One test at a time: each waits for the kernel's check of what stands before it, and a wait takes a thread.
set_option Elab.async false

/-- The device after reset, in a mode. -/
def inMode (m : Mode) : Dev :=
  { Dev.reset with chip := { Chip.reset with mode := { Chip.reset.mode with mode := m } } }

/-- A device in SERVICE. -/
def svc : Dev := inMode .service

/-- A device as the state of the machine. -/
def st (v : Dev) : State := ⟨[], v⟩

/-- A Floder packet from a source, with its first parameter bytes and its data area. -/
def packet (src : Source) (params : List Byte) (data : List Byte) : Packet :=
  ⟨src, 1, 0, BitVec.ofNat 24 data.length, 0, padTo 48 params, data, 0⟩

/-- A packet of ring 0 with parameters only. -/
def pk (params : List Byte) : Packet := packet (.ring 0) params []

/-- A packet of ring 0 that gives room for n bytes of Out data. -/
def pkOut (n : Nat) (params : List Byte) : Packet := { pk params with dataLen := BitVec.ofNat 24 n }

/-- A packet of ring 0 that brings a data area. -/
def pkIn (params : List Byte) (data : List Byte) : Packet := packet (.ring 0) params data

/-- A packet of the JTAG mailbox. -/
def pkBox (params : List Byte) (data : List Byte) : Packet := packet .mailbox params data

/-- The device with a command ready to start: at the head of its running ring, or with its data area read. -/
def fed (v : Dev) (op : Nat) (p : Packet) : Dev :=
  if needsRead op p then
    { v with floder := { v.floder with
        cmds := v.floder.cmds ++ [⟨77, p.src, p.tag, BitVec.ofNat 16 op, p.noInt, false, p, .ready, false⟩]
        rings := Tab.set v.floder.rings 0 { Ring.reset with state := .running } } }
  else { v with floder := { v.floder with
        rings := Tab.set v.floder.rings 0 { Ring.reset with state := .running, slots := [(BitVec.ofNat 16 op, p)] } } }

/-- Whether a command that is ready starts and passes the shared checks, with a condition on the device it started on. -/
def begins (v : Dev) (op : Nat) (p : Packet) (cond : Dev → Bool) : Bool :=
  match (fed v op p).floderStart op p with
  | some (w, _, none) => cond w
  | _ => false

/-- Where `begins` holds, the hypotheses of the statements about that command are met together. -/
theorem begins_starts (v : Dev) (op : Nat) (p : Packet) (cond : Dev → Bool) (h : begins v op p cond = true) :
    ∃ w id, Starts (fed v op p) op p w id ∧ cond w = true := by
  unfold begins at h
  split at h
  · exact ⟨_, _, ‹_›, h⟩
  · cases h

def onHosts (v : Dev) (f : Hosts → Hosts) : Dev := { v with hosts := f v.hosts }
def onChip (v : Dev) (f : Chip → Chip) : Dev := { v with chip := f v.chip }
def onStore (v : Dev) (f : Store → Store) : Dev := { v with store := f v.store }
def onSec (v : Dev) (f : Security → Security) : Dev := { v with sec := f v.sec }
def onVault (v : Dev) (f : Vault → Vault) : Dev := onChip v fun c => { c with vault := f c.vault }
def onDrain (v : Dev) (f : Drain → Drain) : Dev := onChip v fun c => { c with drain := f c.drain }
def onBoot (v : Dev) (f : Boot → Boot) : Dev := onChip v fun c => { c with boot := f c.boot }

/-- The device at a bell of the machine and of its peal. -/
def atTime (v : Dev) (bell ns : Nat) : Dev :=
  { v with clk := { v.clk with bell := bell, elapsed := bell, ns := ns, bellInPeal := bell % 15625, peals := bell / 15625 } }

/-- A claim with 1 data and 1 parity position, strict, protected and in use, with key slot 9. -/
def claim1 : ClaimDesc := ⟨true, true, true, true, 31, 1, 1, 9, 2 ^ 40, 100, 1, 1, 1, 1, 0, 100, 1000⟩

/-- A key slot that holds a connection key of claim 1. -/
def slot1 : KeySlot :=
  { KeySlot.reset with state := .loaded, generation := 1, claim := 1, conn := true, encrypt := true, key := zeros 32, usable := true }

/-- A live path of session 3 on queue pair 5, home spire 0. -/
def path1 : Path := ⟨0, 5, .live, 0, 0x77, 1, 0, 0, none, false, 0, false⟩

/-- A session of claim 1. -/
def sess1 : Session :=
  ⟨1, 0, 0x99, 100, 1, 0, [], some 0, 0x1000, 4096, 0, 0, false, none, [], [], 0, 0, 0, [], [], [], [path1], none, none⟩

def meter1 : MeterProfile := ⟨false, 100, 200, 1000, 1000, 100, 200, 1000, 1000⟩

/-- Queue pair 5 of session 3 on port 0. -/
def qp1 : Qp :=
  ⟨3, 0, 0, false, 0, 4096, 3, 10, 10, 10, false, none, 20, [], [], 65536, none, 0, none, 0, 0, none, 0, 0, meter1, 0, 0, 0, 0, none, 0⟩

/-- A device in SERVICE with its spires up, claim 1, session 3 and queue pair 5. -/
def linked : Dev :=
  let v := onChip svc fun c => { c with frozenIn := false, spires := [(0, { SpireRec.reset with state := .up }), (1, { SpireRec.reset with state := .up }),
    (2, { SpireRec.reset with state := .up }), (3, { SpireRec.reset with state := .up })] }
  let v1 := onHosts v fun h => { h with claims := [(1, ⟨some claim1, 1, 0⟩)], sessions := [(3, sess1)], qps := [(5, qp1)] }
  { v1 with keySlots := [(9, { slot1 with conn := false, decrypt := true })] }

/-! ### Where the hypotheses of the statements are met, clause by clause

Each theorem below shows devices and operands on which the hypotheses of one statement's clauses hold together. -/

theorem test_witness_queries :
    begins svc 0x0001 (pkOut 64 []) (fun _ => true) = true ∧ begins svc 0x0002 (pk []) (fun _ => true) = true ∧
    begins svc 0x0100 (pk []) (fun _ => true) = true ∧ begins svc 0x0022 (pkOut 113 []) (fun _ => true) = true ∧
    begins svc 0x0804 (pk []) (fun _ => true) = true := by decide +kernel

theorem test_witness_modeCommands :
    begins (inMode .survey) 0x0101 (pk [0]) (fun _ => true) = true ∧ begins (inMode .drain) 0x0101 (pk [1]) (fun _ => true) = true ∧
    begins svc 0x0101 (pk [2]) (fun _ => true) = true ∧ begins svc 0x0102 (pk []) (fun _ => true) = true ∧
    begins svc 0x0105 (pk []) (fun _ => true) = true ∧ begins (inMode .drain) 0x0108 (pk []) (fun _ => true) = true ∧
    begins svc 0x0802 (pk []) (fun _ => true) = true := by decide +kernel

def provisioned : Dev := onSec svc fun x => { x with fuseA := .provisioned, fuseB := .provisioned }

theorem test_witness_securityCommands :
    begins svc 0x0020 (pkBox [] (zeros 234)) (fun w => w.sec.lifecycle == .blank && w.sec.debug != .open_) = true ∧
    begins provisioned 0x0020 (pkBox [] (zeros 234)) (fun w => w.sec.lifecycle != .blank) = true ∧
    begins provisioned 0x0021 (pkBox [] (zeros 96)) (fun w => w.sec.lifecycle == .provisioned && decide (w.sec.authFails < 8)
      && w.mode != .drain) = true ∧
    begins svc 0x0A01 { pkBox [] [] with dataLen := 32 } (fun _ => true) = true ∧
    begins svc 0x0A02 (pkBox [1] []) (fun _ => levelOf 1 == some .observe) = true ∧
    begins svc 0x0A02 (pkBox [2] []) (fun w => levelOf 2 == some .open_ && decide (w.sec.authFails < 8)
      && w.sec.lifecycle != .provisioned) = true ∧
    begins provisioned 0x0A02 (pkBox [2] (zeros 96)) (fun w => decide (w.sec.authFails < 8) && w.sec.lifecycle == .provisioned) = true := by
  decide +kernel

theorem test_witness_powerEvents :
    (inMode .held).mode = .held ∧ svc.mode ≠ .held ∧ svc.obeysReset = true ∧ (inMode .vault).obeysReset = false ∧
    (svc.mode ≠ .boot ∧ svc.sec.p3 = false ∧ svc.chip.vault.phase = .none) ∧ (inMode .boot).mode = .boot ∧
    (let v := onChip (onVault (inMode .vault) fun x => { x with phase := .waiting }) fun c => { c with input := ⟨true, 12000, 244, true, 0, none⟩ }
     v.mode = .vault ∧ v.chip.vault.phase = .waiting ∧ v.inputPresent = true) := by decide +kernel

theorem test_witness_bootStages :
    (let v := inMode .boot
     v.mode = .boot ∧ v.chip.boot.backoffDue = none ∧ v.chip.boot.stage < 5 ∧ v.chip.boot.stage ≠ 1 ∧ v.chip.boot.wantVault = false ∧
       v.chip.boot.wantFenced = false ∧ .bootDone ∉ v.chip.mode.events) ∧
    (let v := onBoot (inMode .boot) fun b => { b with stage := 1 }
     v.chip.boot.stage = 1 ∧ v.imagePasses = true ∧ (onSec v fun x => { x with floor := 1 }).imagePasses = false) ∧
    (let v := onBoot (inMode .boot) fun b => { b with stage := 5 }
     v.chip.boot.stage = 5 ∧ v.clk.elapsed ≤ v.chip.boot.since + 125 * 15625 ∧
       v.chip.boot.since + 125 * 15625 < (atTime v (126 * 15625) 0).clk.elapsed) ∧
    (let b := (onBoot (inMode .boot) fun b => { b with stage := 2, partRuns := [(2, (1, 3))] }).chip.boot
     b.stage = 2 ∧ Tab.get b.partRuns b.stage = some (1, 3) ∧ b.backoffDue = none ∧ b.spireMissing = 0 ∧ b.keepMissing = 0) ∧
    (let x : RegionBoot := ⟨5, 0, none, 0⟩
     let v := onChip svc fun c => { c with spires := [(0, { SpireRec.reset with state := .resetting, boot := some x })] }
     (v.spire 0).state = .resetting ∧ (v.spire 0).boot = some x ∧ x.stage < 6 ∧ x.due = none ∧ v.clk.elapsed ≤ x.since + 125 * 15625) ∧
    (let x : RegionBoot := ⟨5, 0, some 7, 0⟩
     let v := atTime (onChip svc fun c => { c with spires := [(0, { SpireRec.reset with state := .resetting, boot := some x })] }) 7 0
     (v.spire 0).boot = some x ∧ x.due = some 7 ∧ v.atBell 7 = true) ∧
    (let v := atTime (onBoot (inMode .boot) fun b => { b with backoffDue := some 7 }) 7 0
     v.chip.boot.backoffDue = some 7 ∧ v.atBell 7 = true) := by decide +kernel

theorem test_witness_smbus :
    svc.mode ≠ .held ∧ svc.sec.p3 = false ∧ (onSec svc fun x => { x with p3 := true }).sec.p3 = true := by decide +kernel

theorem test_witness_survey :
    (let v := atTime (inMode .survey) (3750 * 15625) 0
     v.mode = .survey ∧ v.chip.survey.complete = false ∧ v.chip.survey.waitedOut = false ∧
       v.atBell (v.chip.survey.since + v.cfgBits 0x2008 15 0 * 15625) = true ∧ (∀ b < 32, v.bayAwaited b = false)) ∧
    (let v := onChip (inMode .survey) fun c => { c with survey := ⟨true, false, 0⟩ }
     v.mode = .survey ∧ v.chip.survey.complete = false ∧ v.chip.survey.waitedOut = true) ∧
    (let v := onChip (onStore linked fun x => { x with bays := [(0, { BayRec.reset with state := .serving, upA := true, ioA := 16, single := false })] })
        fun c => { c with unrepaired := [.bayPort 0 .A] }
     v.repairDone (.bayPort 0 .A) = true ∧ (∀ b, Part.bayPort 0 .A ≠ .bay b) ∧ Part.bayPort 0 .A ∈ v.chip.unrepaired ∧ v.repairDone (.bayPort 0 .B) = false) ∧
    (let v := onChip svc fun c => { c with exposure := ⟨true, 0, false⟩ }
     v.chip.exposure.active = true ∧ v.chip.exposure.settledOnce = false ∧ v.store.grains.any v.grainExposed = false) := by decide +kernel

/-- A device in a phase of the settle. -/
def inPhase (p : VaultPhase) : Dev := atTime (onVault (inMode .vault) fun x => { x with phase := p, detectBell := 5 }) 7 0

theorem test_witness_vaultPhases :
    ((atTime (inPhase .v0) 6 0).atBell 6 = true) ∧
    ((inPhase .v1).atBell 7 = true ∧ ((inPhase .v1).store.pend.all (·.closed.isSome)) = true) ∧
    ((inPhase .v2).chip.vault.phase = .v2 ∧ (inPhase .v2).store.grains = []) ∧
    (let v := onStore (inPhase .v3) fun x => { x with journal := { x.journal with nextSeq := 1, blocks := [⟨0, .close, [], true⟩] } }
     v.mode = .vault ∧ v.journaled (v.store.journal.nextSeq - 1) = true) ∧
    ((inPhase .v4).written .image = true ∧ (inPhase .v6).written .marker = true ∧ (inPhase .v6).inputPresent = false ∧
      (inPhase .v6).chip.input.seen = false ∧ (inPhase .v5).chip.vault.phase = .v5) ∧
    (let v := onStore (inPhase .v6) fun x => { x with ops := [⟨1, 0, .A, 0, 1, 1, .write, .marker, [], true, 0, none, 0, false⟩] }
     v.written .marker = false ∧ (onStore (inPhase .v4) fun x => { x with ops :=
       [⟨1, 0, .A, 0, 1, 1, .write, .image, [], true, 0, none, 0, false⟩] }).written .image = false) ∧
    (let v := onChip (inPhase .v6) fun c => { c with input := ⟨true, 12000, 244, true, 0, none⟩ }
     v.chip.vault.phase = .v6 ∧ v.inputPresent = true) ∧
    (let v := onVault (inMode .fenced) fun x => { x with phase := .waiting, fencedSettle := true }
     v.mode = .fenced ∧ v.chip.vault.fencedSettle = true ∧ v.chip.vault.phase = .waiting) := by decide +kernel

/-- The 64 B of a command capsule: opcode, flags, tally, extent key, offset and length (R117). -/
def capBytes (op : Byte) (flags : Nat) (tally key off len : Nat) : List Byte :=
  [op] ++ leBytes 1 flags ++ zeros 2 ++ leBytes 4 tally ++ leBytes 4 0x55 ++ zeros 4 ++ leBytes 16 key ++ leBytes 8 off ++ leBytes 4 len
    ++ zeros 20
/-- A capsule without payload on queue pair 5. -/
def msg0 : Delivered := ⟨5, capBytes 0x01 0 0 0x1234 0 0, 64, none, 0⟩

theorem test_witness_drain :
    (let v := atTime (onDrain { linked with chip := { linked.chip with mode := (inMode .drain).chip.mode } } fun d =>
        { d with purpose := .shutdown, waiting := [⟨msg0, 0, 0⟩] }) 0x9896 0
     v.chip.drain.waiting.find? (fun (x : Waiting) => x.msg == msg0) = some ⟨msg0, 0, 0⟩ ∧ v.sessionOf msg0.qp = some 3 ∧
       v.mode = .drain ∧ v.chip.drain.purpose = .shutdown ∧ v.atBell (0 + v.cfgBits 0x2004 25 0) = true) ∧
    (let v := onDrain (inMode .drain) fun d => { d with purpose := .debug }
     v.mode = .drain ∧ v.chip.drain.offReady = false ∧ v.chip.drain.purpose = .debug ∧ v.drained = true) ∧
    (let v := onDrain (inMode .drain) fun d => { d with purpose := .shutdown }
     v.mode = .drain ∧ v.chip.drain.offReady = false ∧ v.chip.drain.purpose = .shutdown ∧ v.chip.drain.retire = false ∧
       v.drained = true) := by decide +kernel

theorem test_witness_activation :
    (let v := atTime (onSec svc fun x => { x with act := .scheduled }) 15625 0
     v.sec.act = .scheduled ∧ v.atPeal = true ∧ v.mode = .service) ∧
    (let v := atTime (onSec (inMode .drain) fun x => { x with act := .draining 0 }) 15625 0
     v.sec.act = .draining 0 ∧ v.pealNow = 0 + 1 ∧ v.atPeal = true ∧ v.mode = .drain ∧ v.clk.ns < 448) ∧
    (let v := onSec (inMode .drain) fun x => { x with act := .swapping 3 3, actCmd := some 8 }
     v.sec.act = .swapping 3 3 ∧ v.sec.actCmd = some 8) ∧
    (let v := atTime (onSec (inMode .drain) fun x => { x with act := .draining 0, actCmd := some 8 }) 31250 0
     v.sec.act = .draining 0 ∧ v.sec.actCmd = some 8 ∧ 0 + 2 ≤ v.pealNow ∧ 0 < v.pealNow) := by decide +kernel

theorem test_witness_sanitize :
    (let c : Cmd := ⟨8, .ring 0, 1, 0x0403, false, false, pk [], .done, false⟩
     let v := { onStore svc fun x => { x with bays := [(2, { BayRec.reset with state := .serving, sanitizing := some 8 })] } with
       floder := { Floder.reset with cmds := [c] } }
     (v.bay 2).sanitizing = some 8 ∧ v.floder.cmds.find? (fun c => c.id == 8) = some c ∧ c.opcode = 0x0403) ∧
    (svc.bay 2).sanitizing = none ∧
    (let v := onSec svc fun x => { x with nextDebug := some .observe }
     v.mode ≠ .held ∧ v.sec.nextDebug = some .observe ∧ v.sec.debug ≠ .open_) ∧
    (let v := onSec svc fun x => { x with nextDebug := some .closed, debug := .open_ }
     v.mode ≠ .held ∧ v.sec.nextDebug = some .closed ∧ v.sec.debug = .open_) ∧
    (let v := onSec svc fun x => { x with nextDebug := some .open_ }
     v.mode ≠ .held ∧ v.sec.nextDebug = some .open_ ∧ v.sec.debug ≠ .open_ ∧ v.sec.lifecycle ≠ .provisioned) := by decide +kernel

theorem test_witness_images :
    begins svc 0x0803 (pk []) (fun w => w.sec.floor == 0 && w.activeImage.svn == 0 && w.otherImage.svn == 0) = true ∧
    begins (onSec svc fun x => { x with floor := 4 }) 0x0803 (pk [3]) (fun w => decide ((pk [3]).u32 0 < w.sec.floor.toNat)) = true ∧
    begins svc 0x0801 (pkIn [] (zeros 8)) (fun w => w.sec.act == .idle) = true ∧ bit ((pkIn [] (zeros 8)).u8 4) 0 = false ∧
    begins svc 0x0801 (pkIn [0, 0, 0, 0, 1] (zeros 8)) (fun w => w.sec.act == .idle) = true ∧
    bit ((pkIn [0, 0, 0, 0, 1] (zeros 8)).u8 4) 0 = true ∧
    begins svc 0x0801 (pkIn [8] (zeros 8)) (fun _ => (pkIn [8] (zeros 8)).u32 0 % 4096 != 0) = true := by decide +kernel

/-- A revoking or loaded slot 9 beside a claim that no session uses. -/
def withSlot (k : KeySlot) : Dev := { provisioned with keySlots := [(9, k)] }

/-- A key blob whose header passes every check: version 1, claim 1, decrypt, key id 5. -/
def blob1 : List Byte := padTo 104 [1, 0, 1, 0, 2, 0, 0, 0, 5]

theorem test_witness_keyCommands :
    begins svc 0x0301 (pkIn [] (zeros 104)) (fun w => w.sec.lifecycle != .provisioned) = true ∧
    begins svc 0x0302 (pk [9]) (fun w => (w.keySlot 9).state == .empty) = true ∧
    begins (withSlot slot1) 0x0302 (pk [9]) (fun w => (w.keySlot 9).state == .loaded && w.hosts.updates == [] && w.hosts.sessions == []) = true ∧
    begins svc 0x0303 (pk [9]) (fun _ => true) = true ∧ begins svc 0x0304 (pk []) (fun _ => true) = true ∧
    begins linked 0x0305 (pk [3]) (fun w => w.session 3 != none) = true ∧
    begins { onHosts linked (fun h => { h with sessions := [(3, { sess1 with paths := [] })] }) with keySlots := [(9, slot1)] } 0x0305
      (pk [3, 0, 9]) (fun w => w.session 3 == some { sess1 with paths := [] } && w.claimDesc 1 == some claim1
        && claim1.payloadProtect && (w.keySlot 9).state == .loaded && (w.keySlot 9).conn && (w.keySlot 9).claim == 1) = true ∧
    begins (onHosts linked (fun h => { h with sessions := [(3, { sess1 with paths := [] })] })) 0x0305 (pk [3, 0, 0, 0, 1])
      (fun w => w.session 3 == some { sess1 with paths := [] } && bit ((pk [3, 0, 0, 0, 1]).u8 4) 0) = true ∧
    begins svc 0x0305 (pk [3]) (fun w => w.session 3 == none) = true := by decide +kernel

theorem test_witness_keyLoad :
    begins provisioned 0x0301 (pkIn [9] blob1) (fun w => w.sec.lifecycle == .provisioned && w.sec.debug != .open_
      && (w.keySlot 9).state == .empty && blobFormOk w ((pkIn [9] blob1).bytes 104)
      && w.leaseOf (BitVec.ofNat 64 (field ((pkIn [9] blob1).bytes 104) 8 8)) == none) = true := by decide +kernel

theorem test_witness_keyEvents :
    (let v := withSlot { slot1 with state := .revoking }
     (v.keySlot 9).state = .revoking ∧ v.keyHolders 9 = 0 ∧ (v.keySlot 8).state ≠ .revoking ∧ (v.keySlot 8).state ≠ .loaded) ∧
    (let v := { onChip (withSlot slot1) (fun c => { c with spires := [(0, { SpireRec.reset with state := .up })] }) with
       leases := [(0, ⟨0, 5, 0⟩)] }
     (v.keySlot 9).state = .loaded ∧ (v.keySlot 9).encrypt = true ∧ v.sec.keyEpoch.toNat ≤ (v.keySlot 9).epoch.toNat ∧
       (v.spire 0).state = .up ∧ v.spireLease 0 9 = none ∧ v.leaseOf (v.keySlot 9).keyId = some (0, ⟨0, 5, 0⟩) ∧ 5 < 2 ^ 24) ∧
    (let v := onChip svc fun c => { c with rng := ⟨true, false, true, 0⟩ }
     v.keepSound .A = true ∧ v.chip.rng.source .A = true) ∧
    (let v := atTime (onChip svc fun c => { c with rng := ⟨false, false, true, 0⟩ }) (125 * 15625) 0
     v.mode ≠ .held ∧ v.chip.rng.rootOk = true ∧ v.chip.rng.srcA = false ∧ v.chip.rng.srcB = false ∧
       v.chip.rng.fedAt + 125 * 15625 ≤ v.clk.elapsed) ∧
    (svc.spire 0).cores.getLsbD 3 = false := by decide +kernel

theorem test_witness_claims :
    begins svc 0x0201 (pkIn [] (claim1.bytes 1)) (fun _ => parseClaim ((pkIn [] (claim1.bytes 1)).bytes 64) == some (1, claim1)) = true ∧
    begins svc 0x0201 (pkIn [] (zeros 64)) (fun _ => parseClaim ((pkIn [] (zeros 64)).bytes 64) == none) = true ∧
    begins linked 0x0202 (pkOut 64 [1]) (fun w => (w.claimEntry 1).desc == some claim1) = true ∧
    begins linked 0x0203 (pk [1]) (fun w => w.claimDesc 1 == some claim1) = true ∧
    begins (onHosts svc fun h => { h with claims := [(1, ⟨some claim1, 1, 0⟩)] }) 0x0204 (pk [1])
      (fun w => (w.claimDesc 1).isSome && w.hosts.extents == [] && w.hosts.sessions == [] && w.keySlots == []) = true ∧
    begins (onHosts svc fun h => { h with extents := [⟨1, 7, .open_, some .open_, 0, 0, 0, none, false, 0, 0, 0⟩] }) 0x0204 (pk [1])
      (fun w => w.hosts.extents.any (fun x => x.claim == 1)) = true := by decide +kernel

theorem test_witness_ports :
    begins svc 0x0501 (pk []) (fun w => (w.port 0).breakout == 0) = true ∧ begins svc 0x0501 (pk [0, 0, 3]) (fun _ => true) = true ∧
    begins svc 0x0502 (pk []) (fun w => decide (0 < subCount (w.port 0).breakout)) = true ∧
    begins svc 0x0604 (pk []) (fun _ => (pk []).u32 4 == 0) = true := by decide +kernel

theorem test_witness_shelf :
    (let p := pk [100, 0, 0, 0, 10, 0, 0, 0, 1, 2, 3]
     begins svc 0x0401 p (fun w => w.store.layout.used == false && decide (p.u32 0 ≤ 2 ^ 30) && decide (p.u32 4 + 4 ≤ p.u32 0)
       && decide (p.u8 8 < 32) && decide (p.u8 9 < 32) && decide (p.u8 10 < 32) && p.u8 8 != p.u8 9 && p.u8 8 != p.u8 10
       && p.u8 9 != p.u8 10 && (List.range 32).all (fun b => (w.bay b).state != .serving)) = true) ∧
    begins svc 0x0401 (pk []) (fun _ => decide ((pk []).u32 0 < (pk []).u32 4 + 4)) = true ∧
    begins (onStore svc fun x => { x with bays := [(2, { BayRec.reset with state := .foreign, lbas := slotLba 8, fit := true })], layout := ⟨8, 0, true, false⟩ })
      0x0402 (pk [2]) (fun w => (w.bay 2).state == .foreign && w.store.layout.set && decide (slotLba w.store.layout.rows ≤ (w.bay 2).lbas) && (w.bay 2).fit) = true ∧
    begins svc 0x0402 (pk [2]) (fun w => (w.bay 2).state != .foreign) = true ∧
    begins (onStore svc fun x => { x with bays := [(2, { BayRec.reset with state := .foreign })] })
      0x0403 (pk [2]) (fun w => (w.bay 2).state == .foreign && (w.bay 2).sanitizing == none) = true ∧
    begins svc 0x0404 (pk [2]) (fun _ => true) = true := by decide +kernel

theorem test_witness_counters :
    (let p := pk [0x10, 0, 0x40, 4, 1]
     begins svc 0x0601 p (fun _ => (counterParam p).isSome && eventOk 0x10 (p.u16 6)) = true ∧
     begins svc 0x0602 p (fun _ => (counterParam p).isSome) = true) ∧
    (let p := pk [0x10, 0, 0x40, 4, 1, 0, 255, 3]
     begins svc 0x0601 p (fun _ => (counterParam p).isSome && !(eventOk 0x10 (p.u16 6))) = true) ∧
    begins svc 0x0603 (pk []) (fun _ => true) = true ∧
    (svc.mode ≠ .held ∧ pmonAt 0x101004 = some (0, 0x10, 4) ∧ eventOk 0x10 0 = true ∧ bit (0 : Word).toNat 31 = false) ∧
    (let v := atTime { svc with pmon := { svc.pmon with counters := [(counterKey 0 0x10 1, { Counter.reset with next := some (0, 0) })] } } 1 0
     v.snapDue = false ∧ (v.counter (counterKey 0 0x10 1)).next = some (0, 0) ∧ (v.counter (counterKey 0 0x10 1)).cmds = [] ∧
       0 + 1 ≤ v.clk.elapsed) ∧
    (let v := atTime { svc with pmon := { svc.pmon with snap := { svc.pmon.snap with asked := some 0 } } } 1 0
     v.snapDue = true ∧ v.pmon.snap.cmds = []) ∧
    (let v := { svc with pmon := { svc.pmon with snap := { svc.pmon.snap with pendingWrites := [(1, [])] } }
                         regs := { svc.regs with active := [(0x400000C, 0x84000000)] }
                         ep := { svc.ep with pf1 := { Func.reset with busMaster := true, memSpace := true } } }
     v.pmon.snap.pendingWrites = (1, []) :: [] ∧ v.bufferOn = true) := by decide +kernel

/-- The source of both entropy sources of region 4. -/
def src80 : BitVec 32 := srcOf 0x080 4 0
def rec80 : FaultRec := newRecord src80 2 2
/-- A device with a record of that source in a class. -/
def faulty (r : FaultRec) : Dev := { svc with faults := [(src80.toNat, r)] }

theorem test_witness_faults :
    (let p := pkOut 64 [0, 0, 4, 0x20]
     BitVec.ofNat 32 (p.u32 0) = src80 ∧ begins svc 0x0701 p (fun w => w.faultRec src80 == some rec80) = true) ∧
    begins svc 0x0701 (pkOut 64 []) (fun w => w.faultRec 0 == none) = true ∧
    (let p := pk [0, 0, 4, 0x20]
     begins (faulty { rec80 with captured := true }) 0x0702 p (fun w => w.faultRec src80 == some { rec80 with captured := true }
       && decide (rec80.cls < 3) && rec80.clearing == none) = true ∧
     begins (faulty { rec80 with cls := 3, recovered := true }) 0x0702 p (fun w => w.faultRec src80 ==
       some { rec80 with cls := 3, recovered := true }) = true ∧
     begins (faulty { rec80 with cls := 4 }) 0x0702 p (fun w => w.faultRec src80 == some { rec80 with cls := 4 }) = true ∧
     begins svc 0x0704 p (fun w => (sourceClass src80).isSome && w.sec.lifecycle == .blank) = true ∧
     begins provisioned 0x0704 p (fun w => w.sec.debug != .open_ && w.sec.lifecycle != .blank) = true) ∧
    (let p := pkOut 8 [0, 0, 4, 0x20, 2]
     begins (faulty { rec80 with captured := true }) 0x0703 p (fun w =>
       decide (((w.faults.filter (fun (e : Nat × FaultRec) => e.2.captured && decide (p.u32 0 ≤ e.1))).map Prod.fst).length ≤ p.u16 4)) = true) := by
  decide +kernel

theorem test_witness_faultEvent :
    svc.mode ≠ .held ∧ srcType src80 ≠ 0x002 ∧ srcType src80 ≠ 0x004 ∧ svc.faultRec src80 = some rec80 ∧ rec80.clearing = none ∧ rec80.captured = false ∧
    (faulty { rec80 with captured := true }).faultRec src80 = some { rec80 with captured := true } := by decide +kernel

def spireUp : SpireRec := { SpireRec.reset with state := .up }
/-- A device in a mode with spire 0 as given and the others up. -/
def withSpire (m : Mode) (x : SpireRec) : Dev := onChip (inMode m) fun c => { c with spires := [(0, x), (1, spireUp), (2, spireUp), (3, spireUp)] }

theorem test_witness_spires :
    ((withSpire .service spireUp).spire 0).state = .up ∧
    begins (withSpire .service spireUp) 0x0103 (pk []) (fun _ => (pk []).u8 0 % 4 == 0) = true ∧
    (let v := { withSpire .service spireUp with recov := [(.region 0, 9)] }
     v.regionDue 0 = true ∧ (v.spire 0).state ≠ .resetting) ∧
    (let x := { spireUp with state := .resetting, rolesAway := true, boot := some ⟨6, 0, none, 0⟩ }
     (withSpire .service x).spire 0 = x ∧ x.state = .resetting ∧ x.rolesAway = true ∧ x.lost = false ∧ x.boot = some ⟨6, 0, none, 0⟩) ∧
    (let x := { spireUp with state := .resetting, boot := some ⟨2, 0, none, 0⟩ }
     (withSpire .service x).spire 0 = x ∧ x.boot = some ⟨2, 0, none, 0⟩ ∧ (2 : Nat) ≠ 6) ∧
    (let x := { spireUp with remirror := true }
     let v := withSpire .service x
     v.spire 0 = x ∧ x.remirror = true ∧ x.state = .up ∧ v.stackUp (partner 0) = true ∧ v.chip.unrepaired = []) ∧
    (let x := { spireUp with rolesAway := true }
     let v := withSpire .service x
     v.spire 0 = x ∧ v.atPeal = true ∧ x.rolesAway = true ∧ x.remirror = false ∧ x.unparked = false ∧ x.state = .up ∧
       v.singleCopies 0 = false) ∧
    (let x := { spireUp with idle := 2048 }
     let v := withSpire .service x
     v.spire 0 = x ∧ v.spireIdle 0 = true ∧ v.cfgBits 0x7004 31 31 = 1 ∧ v.cfgBits 0x7004 23 0 ≤ x.idle) ∧
    ({ spireUp with p1 := true }).p1 = true := by decide +kernel

theorem test_witness_parking :
    begins (withSpire .service spireUp) 0x0106 (pk []) (fun w => w.mode == .service && w.sec.debug != .open_ &&
      (List.range 4).all (fun i => (w.spire i).state == .up) && w.otherPortsUp 0) = true ∧
    begins (withSpire .degraded spireUp) 0x0106 (pk []) (fun w => w.mode != .service) = true ∧
    begins (withSpire .service { spireUp with state := .parked, rolesAway := true }) 0x0107 (pk [])
      (fun w => (w.spire 0).state == .parked && (w.spire 0).rolesAway) = true ∧
    (let v := withSpire .degraded { spireUp with state := .parked, rolesAway := true }
     (v.spire 0).state = .parked ∧ (v.spire 0).rolesAway = true ∧ v.mode = .degraded) ∧
    (let v := withSpire .service { spireUp with state := .unparking }
     (v.spire 0).state = .unparking ∧ v.stackUp (partner 0) = true ∧ v.regs.pages = []) ∧
    (let v := withSpire .service { spireUp with unparked := true, resetCmd := some 8 }
     v.atPeal = true ∧ (v.spire 0).unparked = true ∧ (v.spire 0).state = .up ∧ (v.spire 0).resetCmd = some 8) := by decide +kernel

theorem test_witness_blocks :
    (let p := pk [0x10, 0, 0x40, 4]
     begins svc 0x0104 p (fun _ => srcType (BitVec.ofNat 32 (p.u32 0)) == 0x011 && (sourceClass (BitVec.ofNat 32 (p.u32 0))).isSome) = true) ∧
    begins svc 0x0104 (pk []) (fun _ => srcType (BitVec.ofNat 32 ((pk []).u32 0)) != 0x011) = true ∧
    (let src := srcOf 0x011 0 0x60
     let r := { newRecord src 3 3 with resetDue := true }
     let v := { svc with faults := [(src.toNat, r)] }
     Tab.get v.faults src.toNat = some r ∧ blockLevel src = some 0x60 ∧ r.cls = 3 ∧ r.resetDue = true ∧ srcRegion src < 4) ∧
    (let src := srcOf 0x011 0 0x30
     let v := withSpire .service { spireUp with resets := [0x30] }
     srcRegion src = 0 ∧ srcType src = 0x011 ∧ srcInst src ∈ (v.spire 0).resets ∧ srcInst src ≠ 0x20 ∧
       srcInst src ≠ 0x90 ∧ srcInst src ≠ 0x60 ∧ srcInst src ≠ 0x10 ∧ srcInst src ≠ 0x11 ∧ v.cmdsOf 0x0104 = []) ∧
    (let src := srcOf 0x011 0 0x60
     let v := withSpire .service { spireUp with resets := [0x60] }
     srcRegion src = 0 ∧ srcType src = 0x011 ∧ srcInst src = 0x60 ∧ srcInst src ∈ (v.spire 0).resets ∧ v.cmdsOf 0x0104 = []) ∧
    srcType 0 ≠ 0x011 := by decide +kernel

theorem test_witness_keeps :
    (svc.mode ≠ .held ∧ svc.keepSound .A = true ∧ svc.keepSound .B = true ∧ svc.clk.ns ≤ 64 * 1) ∧
    (let v := onChip svc fun c => { c with keeps := ⟨⟨true, false, false⟩, .reset, true⟩ }
     v.keepSound .A = true ∧ v.keepSound (otherKeep .A) = true ∧ (v.keep (otherKeep .A)).flag = false ∧ (v.keep .A).flag = true ∧
       v.chip.keeps.holdOut = true ∧ v.ep.keepB = false) ∧
    (onChip svc fun c => { c with keeps := ⟨.reset, ⟨false, true, false⟩, false⟩ }).keepSound (otherKeep .A) = false := by decide +kernel

/-- A device in SERVICE with its input supply present and one channel as given. -/
def withChan (c : Nat) (x : Channel) : Dev :=
  let v := onChip svc fun y => { y with input := ⟨true, 12000, 244, true, 0, some svc.now⟩ }
  { v with chans := [(c, x)] }

def chan0 : Channel := { Channel.reset with seen := true, seenFor := 1000 }
def chanReady : Channel := { chan0 with present := true, ready := some 0 }

theorem test_witness_channelStart :
    ((withChan 2 chan0).sampling = true ∧ chan0.seen = true ∧ chan0.present = false ∧ (withChan 2 chan0).chanCfg 2 0x004 15 8 ≤ chan0.seenFor) ∧
    ((withChan 33 chan0).sampling = true ∧ (withChan 33 chan0).chanCfg (32 + 1) 0x004 15 8 ≤ chan0.seenFor) ∧
    (let x := { chan0 with present := true, insertFrom := some 0 }
     let v := atTime (withChan 2 x) (32 * 15625) 0
     v.chan 2 = x ∧ x.insertFrom = some 0 ∧ x.present = true ∧ v.measured 2 = true ∧ 0 + v.chanCfg 2 0x00C 31 16 * 15625 ≤ v.clk.elapsed) ∧
    (let x := { chanReady with state := .wait }
     (withChan 2 x).canRamp 2 = true ∧ (withChan 2 x).rampTurn 2 = true) ∧
    (let x := { chanReady with state := .tripped }
     (withChan 2 x).canRamp 2 = true ∧ (withChan 2 x).rampTurn 2 = true) ∧
    (withChan 2 chan0).canRamp 2 = false ∧
    (let x := { chanReady with state := .ramp, fullFor := 2 }
     ((withChan 32 x).chan 32 = x ∧ 2 ≤ x.fullFor) ∧ (withChan 2 x).chan 2 = x) ∧
    (let x := { chanReady with state := .on, pwrgd := true, pwrgdFor := 3052 }
     let v := withChan 2 x
     v.baysRun = true ∧ x.state = .on ∧ x.pwrgd = true ∧ x.offCmd = false ∧ 3052 ≤ x.pwrgdFor ∧ v.chanCfg 2 0x014 15 0 ≤ x.pwrgdFor) ∧
    chan0.pwrgdFor < 3052 := by decide +kernel

theorem test_witness_channelTrips :
    (let x := { chanReady with state := .ramp }
     (withChan 2 x).measured 2 = true ∧ (withChan 2 x).fastLimit 2 < (100000 : Int).natAbs) ∧
    (let x := { chanReady with state := .on, brk := [(0, 20000)] }
     let v := withChan 2 x
     v.measured 2 = true ∧ v.fastLimit 2 < (100000 : Int).natAbs ∧ v.chanCfg 2 (0x020 + 4 * 0) 31 16 ≠ 0xFFFF ∧
       v.chanCfg 2 (0x020 + 4 * 0) 15 0 < Tab.getD x.brk 0 0) ∧
    (let x := { chanReady with state := .ramp, rampFor := 2000 }
     let v := withChan 2 x
     x.fullFor < 2 ∧ 1 ≤ x.rampFor ∧ v.chanCfg 2 0x00C 15 0 ≤ x.rampFor) ∧
    (onChip svc fun c => { c with keeps := ⟨⟨false, true, false⟩, .reset, false⟩ }).measured 2 = false ∧
    (let x := { chanReady with state := .on }
     let v := atTime (withChan 2 x) (7500 * 15625) 0
     v.chan 2 = x ∧ v.atBell (x.onSince + v.cfgBits 0x8004 31 16 * 15625) = true) ∧
    (let x := { chanReady with state := .wait, shortFor := 4 }
     (withChan 32 x).measured 32 = true ∧ 4 ≤ x.shortFor) := by decide +kernel

theorem test_witness_tripEffect :
    (let v := withChan 2 { chanReady with state := .on }
     2 < 34 ∧ min 15 ((v.chan 2).tripCount + 1) ≤ v.chanCfg 2 0x004 30 28) ∧
    (let v := withChan 2 { chanReady with state := .on, tripCount := 14 }
     v.chanCfg 2 0x004 30 28 < min 15 ((v.chan 2).tripCount + 1)) := by decide +kernel

theorem test_witness_channelEvents :
    (let x := { Channel.reset with goneFor := 1000 }
     let v := withChan 2 x
     v.sampling = true ∧ v.chan 2 = x ∧ x.seen = false ∧ v.chanCfg 2 0x004 15 8 ≤ x.goneFor) ∧
    (let v := withChan 32 { chanReady with state := .on }
     v.sampling = true ∧ (v.chan 32).state = .on ∧ v.measured 32 = true ∧ v.mode ≠ .vault) ∧
    (1150 ≤ (1150 : BitVec 32).toInt ∧ (1149 : BitVec 32).toInt < 1150) ∧ (inMode .held).sampling = false ∧
    (let v := onChip (withChan 2 chan0) fun c => { c with input := { c.input with sampledAt := none } }
     v.sampleFalls = true ∧ v.mode ≠ .vault ∧ v.cfgBits 0x301C 15 0 ≤ 12000 ∧ 0 < v.cfgBits 0x301C 15 0 ∧
       (onChip v fun c => { c with input := { c.input with sampledAt := some 0 } }).chip.input.sampledAt = some 0) := by decide +kernel

theorem test_witness_channelCommands :
    begins svc 0x0410 (pk [2, 1]) (fun w => chanParam (pk [2, 1]) 2 == some 2 && (w.page 0x12000).due == none) = true ∧
    begins { svc with regs := { svc.regs with pages := [(0x12000, { PageState.reset with due := some 9 })] } } 0x0410 (pk [2, 1])
      (fun w => (w.page (0x10000 + 0x1000 * 2)).due.isSome) = true ∧
    begins svc 0x0410 (pk [34]) (fun _ => decide (34 ≤ (pk [34]).u8 0)) = true ∧
    begins (withChan 2 { chanReady with state := .lockedOff }) 0x0411 (pk [2]) (fun w => chanParam (pk [2]) 256 == some 2
      && (w.chan 2).state == .lockedOff && w.faults == []) = true ∧
    begins (withChan 2 { chanReady with state := .on }) 0x0411 (pk [2]) (fun w => (w.chan 2).state == .on) = true := by decide +kernel

/-- A device with two seated modules at 13,200 mV, module 1 healthy. -/
def withHums (u : HumState) : Dev :=
  let x := { chanReady with state := .on, vout := 13200, vin := 13200 }
  let v := onStore svc fun y => { y with hums := [(0, u), (1, { HumState.reset with serial := some 2 })], ecaps := [⟨2, some 5000000, 0, none⟩] }
  onChip { v with chans := [(32, x), (33, x)] } fun y => { y with input := ⟨true, 12000, 244, true, 0, none⟩ }

theorem test_witness_credit :
    ((withHums { HumState.reset with serial := some 1 }).assayWanted 0 = true) ∧ svc.assayWanted 0 = false ∧
    (let v := withHums { HumState.reset with serial := some 1, assay := .due }
     (v.hum 0).assay = .due ∧ v.inputPresent = true ∧ v.healthy (1 - 0) = true ∧ (v.hum (1 - 0)).assay.running = false ∧
       v.vCut < v.vAssayEnd ∧ v.vAssayEnd < v.vFull ∧ v.outGrains ≤ v.limitNow ∧ v.humUp 0 = true ∧ v.mode ≠ .vault ∧ v.mode ≠ .fenced) ∧
    (let v0 := withHums { HumState.reset with serial := some 1, assay := .discharging 13200 0 }
     let x := { chanReady with state := .on, vout := 12600, energyOut := 3000000000 }
     let v := { v0 with chans := Tab.set v0.chans 32 x }
     v.chan 32 = x ∧ (v.hum 0).serial = some 1 ∧ x.vout ≤ v.vAssayEnd ∧ v.vAssayEnd < 13200 ∧ v.ecap 0 = none ∧
       v.cfgBits 0x3018 31 0 ≤ (x.energyOut - 0) / 1000 * (v.vFull * v.vFull - v.vCut * v.vCut)
         / (13200 * 13200 - v.vAssayEnd * v.vAssayEnd)) ∧
    (svc.mode ≠ .held ∧ svc.chip.keeps.holdOut = false ∧ svc.outGrains ≤ svc.limitNow ∧ svc.clk.ns ≤ 448) := by decide +kernel

/-- A device in SERVICE whose endpoint is linked. -/
def epUp : Dev :=
  { svc with ep := { svc.ep with link := true, pf0 := { Func.reset with busMaster := true, memSpace := true }
                                 pf1 := { Func.reset with busMaster := true, memSpace := true } } }

theorem test_witness_stagedPages :
    (svc.mode ≠ .held ∧ stagedPage (canonOff 0x2000) = true ∧ svc.windowUp (canonOff 0x2000) = true ∧
      svc.pageResetting (canonOff 0x2000) = false ∧ (svc.page (canonOff 0x2000)).due = none ∧ (1 : Word).getLsbD 30 = false ∧
      (0 : Word).getLsbD 0 = false ∧ svc.clk.ns < 512) ∧
    (epUp.reachable .pf0 = true ∧ epUp.ep.frozen = false ∧ epUp.mode ≠ .vault ∧ epUp.mode ≠ .fenced ∧ epUp.pageResetting 0x2804 = false ∧
      (epUp.readWord .pf0 0x2804).isSome = true ∧ stagedPage 0x2000 = true ∧ cfgDesc (canonOff 0x2804 - 0x800) = some ⟨0xC3FFFFFF, true, 0x80009896⟩ ∧
      (5 : Word) &&& ~~~(0xC3FFFFFF : Word) = 0 ∧ onPage 0x2000 (canonOff 0x2804 - 0x800) = true ∧ (epUp.page 0x2000).due = none ∧
      (canonOff 0x2804 - 0x800) / 0x1000 * 0x1000 = 0x2000) ∧
    (let v := { epUp with regs := { epUp.regs with pages := [(0x2000, { PageState.reset with due := some 9 })] } }
     v.reachable .pf0 = true ∧ (v.readWord .pf0 0x2804).isSome = true ∧ (v.page 0x2000).due.isSome = true) ∧
    ((epUp.readWord .pf0 0x2004).isSome = true ∧ 0x2000 < canonOff 0x2004 ∧ canonOff 0x2004 < 0x2000 + 0x800) := by decide +kernel

theorem test_witness_commit :
    (let v := { svc with regs := { svc.regs with pages := [(0x2000, { PageState.reset with due := some 0 })], staged := [(0x2008, 7)] } }
     v.mode ≠ .held ∧ canonOff 0x2000 = 0x2000 ∧ (v.page 0x2000).due = some 0 ∧ 0 ≤ v.clk.elapsed ∧ (v.page 0x2000).owner = none ∧
       (0x2008, (7 : Word)) ∈ v.regs.staged) := by decide +kernel

theorem test_witness_latchedReads :
    (epUp.reachable .pf0 = true ∧ epUp.ep.frozen = false) ∧ svc.ep.link = false ∧
    (let v := { epUp with ep := { epUp.ep with pf0 := Func.reset } }
     v.ep.link = true ∧ v.reachable .pf0 = false) ∧
    (let v := { epUp with ep := { epUp.ep with frozen := true } }
     v.ep.link = true ∧ v.ep.frozen = true) ∧
    (pmonAt 0x101040 = some (0, 0x10, 0x40) ∧ (epUp.readWord .pf0 0x101040).isSome = true ∧
      ((epUp.readWord .pf0 0x101040).bind (·.2)).isSome = true) := by decide +kernel

theorem test_witness_jtag :
    (inMode .vault).mode = .vault ∧ (svc.mode ≠ .vault ∧ svc.sec.debug ≠ .open_ ∧ svc.sec.debug = .closed) ∧
    (let v := onSec svc fun x => { x with debug := .open_ }
     v.sec.debug = .open_ ∧ v.readWord .jtag 0x2004 = some (0x80009896, none)) ∧
    (let v := onSec svc fun x => { x with debug := .observe }
     v.sec.debug = .observe ∧ v.faultRec src80 = some rec80) := by decide +kernel

theorem test_witness_requests :
    svc.ep.link = false ∧
    (let v := { svc with ep := { svc.ep with link := true } }
     v.ep.link = true ∧ v.reachable .pf0 = false) ∧
    (epUp.reachable .pf0 = true ∧ epUp.ep.frozen = false ∧ epUp.readWord .pf0 0x2004 = some (0x80009896, none) ∧ 0x2004 % 4 = 0) ∧
    (let v := { epUp with ep := { epUp.ep with frozen := true } }
     v.reachable .pf0 = true ∧ v.ep.frozen = true) := by decide +kernel

/-- A device with its endpoint up and ring 0 as given. -/
def onRing (x : Ring) : Dev := { epUp with floder := { epUp.floder with rings := [(0, x)] } }

def run0 : Ring := { Ring.reset with state := .running }

theorem test_witness_rings :
    (let v := onRing run0
     v.reachable .pf0 = true ∧ v.ep.frozen = false ∧ v.ring 0 = run0 ∧ run0.state = .running ∧
       v.ringEntries 0 ≤ (0xFFFFFFFF : Word).toNat ∧ (0 : Word).toNat < v.ringEntries 0) ∧
    svc.ep.link = false ∧
    (let v := { epUp with ep := { epUp.ep with pf0 := Func.reset } }
     v.ep.link = true ∧ v.reachable .pf0 = false) ∧
    (svc.ring 0 = Ring.reset ∧ Ring.reset.state ≠ .running) ∧
    (let x := { run0 with counted := 1, firstAt := some 0 }
     let v := atTime (onRing x) 100000 0
     v.ring 0 = x ∧ x.state = .running ∧ v.strokesDue 0 = true) ∧
    (let x := { run0 with state := .draining }
     (onRing x).ring 0 = x ∧ (onRing x).floder.cmds = []) := by decide +kernel

def reply0 (src : Source) : Reply := ⟨src, 0, 1, 0x0101, 0, 0, 0, 0, false, 0, 0, 0, [], 0⟩

def replying (src : Source) : Dev := { epUp with floder := { epUp.floder with replies := [reply0 src] } }

theorem test_witness_replies :
    ((replying .mailbox).floder.replies.find? (fun y => (replying .mailbox).sameSource y.src .mailbox) = some (reply0 .mailbox)) ∧
    svc.floder.replies.find? (fun y => svc.sameSource y.src .mailbox) = none ∧
    (let v := { replying (.ring 0) with ep := svc.ep }
     v.floder.replies.find? (fun y => v.sameSource y.src (.ring 0)) = some (reply0 (.ring 0)) ∧ v.epCanIssue .pf0 = false) ∧
    (let v := replying (.ring 0)
     v.floder.replies.find? (fun y => v.sameSource y.src (.ring 0)) = some (reply0 (.ring 0)) ∧ v.epCanIssue .pf0 = true) := by
  decide +kernel

theorem test_witness_link :
    (svc.mode = .service ∧ svc.ep.link = false ∧ svc.ep.failing = none ∧ svc.sec.p3 = false) ∧
    (epUp.ep.link = true ∧ epUp.floder.rings = [] ∧ epUp.reachable .pf0 = true ∧ (0 : Word).getLsbD 0 = false) ∧
    (let v := atTime { epUp with ep := { epUp.ep with frozen := true, freezeBell := 3 } } 4 0
     v.reachable .pf0 = true ∧ v.ep.pf1.flr = none ∧ (1 : Word).getLsbD 0 = true ∧ v.ep.frozen = true ∧ v.ep.freezeBell ≠ v.clk.elapsed) ∧
    (let v := atTime { epUp with ep := { epUp.ep with failing := some 3 } } 4 0
     v.ep.failing = some 3 ∧ v.ep.driving = false ∧ 3 + 1 ≤ v.clk.elapsed) ∧
    (let v := { epUp with ep := { epUp.ep with failing := some 3, driving := true } }
     v.ep.failing = some 3 ∧ v.ep.driving = true ∧ v.floder.rings = []) := by decide +kernel

/-- A device whose functions stand as given. -/
def withFunc (f : Func) : Dev := { epUp with ep := { epUp.ep with pf0 := f, pf1 := f } }

def func0 : Func := { Func.reset with busMaster := true, memSpace := true }

theorem test_witness_reads :
    (epUp.func .pf0 = func0 ∧ func0.tags = [] ∧ func0.quarantine = [] ∧ func0.flr = none ∧ func0.pba = [] ∧ epUp.floder.rings = [] ∧
      epUp.ep.link = true ∧ (withFunc func0).func .pf1 = func0) ∧
    (let f := { func0 with tags := [⟨5, 0, .data 9, false⟩] }
     let v := atTime (withFunc f) 200000 0
     v.ep.pf0 = f ∧ f.tags = [⟨(5 : BitVec 14).toNat, 0, .data 9, false⟩] ∧ v.ep.frozen = false ∧ v.floder.rings = [] ∧ v.func .pf0 = f ∧
       f.tags.find? (fun y => y.tag == (5 : BitVec 14).toNat) = some ⟨5, 0, .data 9, false⟩ ∧ 0 + v.cto ≤ v.clk.elapsed) ∧
    (let f := { func0 with quarantine := [(5, 0)] }
     let v := atTime (withFunc f) 1000000 0
     v.func .pf0 = f ∧ f.quarantine = [((5 : BitVec 14).toNat, 0)] ∧ 0 + 4 * v.cto ≤ v.clk.elapsed ∧ v.floder.rings = []) ∧
    (let f := { func0 with flr := some 7 }
     let v := withFunc f
     v.func .pf0 = f ∧ v.func .pf1 = f ∧ f.flr = some 7 ∧ f.tags = []) ∧
    (svc.mode ≠ .held ∧ svc.ep.link = false) := by decide +kernel

/-- A device whose registers hold the values given. -/
def withRegs (v : Dev) (t : Tab Word) : Dev := { v with regs := { v.regs with active := t } }

/-- A device in SERVICE with port 0 as given and its spires up. -/
def withPort (p : NetPort) : Dev := onHosts linked fun h => { h with ports := [(0, p)] }

/-- A frame of class c with no queue pair. -/
def frame0 (c : Nat) : Frame := ⟨none, c, 64, none, .drep 5⟩

/-- A device with one frame waiting at port 0. -/
def queued (v : Dev) : Dev := onHosts v fun h => { h with egress := [(0, { Egress.reset with queue := [frame0 3] })] }

theorem test_witness_ports2 :
    (let v := withPort { NetPort.reset with policer := true }
     v.atPeal = true ∧ (v.port 0).policer = true ∧ v.boundQps 0 ≤ 960 ∧ v.policeForce 0 = false ∧
       (∃ e ∈ v.hosts.qps, e.2.port = 0) ∧ (∃ e ∈ v.hosts.qps, e.2.port ≠ 1)) ∧
    (atTime svc 5 0).atPeal = false ∧
    (let v := withRegs svc [(0x500004, 0x40000000), (0x501004, 1), (0x501100, 0x08000010)]
     v.gateEn 0 0 = true ∧ segsFrom (v.gateSegs 0 0 v.clk.pealLen) v.nearBell = (some 0, 8, 16) :: [(none, 0, 15609)]) ∧
    svc.gateEn 0 0 = false ∧
    (let v := { svc with regs := { svc.regs with pages := [(0x501000, { PageState.reset with due := some 0 })] } }
     v.atPeal = true ∧ (v.page (subBase 0 0 + 0x1000)).due = some 0 ∧ v.atBell 0 = true) ∧
    (let v := withPort { NetPort.reset with linkUp := 1 }
     v.linkUp 0 0 = true ∧ v.chip.frozenIn = false ∧ v.linkUp 0 1 = false ∧ (v.port 0).pfcSent = false) ∧
    (let v := withRegs (atTime (onHosts (withPort { NetPort.reset with pfcSent := true }) fun h => { h with
       inbox := [⟨⟨5, [], 2000, none, 0⟩, 0, 0⟩] }) 64 0) [(0x500004, 0x00000800), (0x50000C, 1)]
     (v.port 0).pfcSent = true ∧ v.atBell ((v.port 0).pfcAt + 64) = true ∧
       v.cfgBits (portBase 0 + 0x00C) 15 0 * 1024 < v.ingressBytes 0 (pfcPrios (v.cfgBits (portBase 0 + 0x004) 15 8))) := by
  decide +kernel

theorem test_witness_transmit :
    (let v := queued (withPort { NetPort.reset with linkUp := 1 })
     v.transportOn = true ∧ v.linkUp 0 0 = true ∧ v.chooseFrame 0 0 = some (frame0 3) ∧ v.shapeEn 0 0 3 = false ∧ (frame0 3).qp = none) ∧
    (let v := withRegs (queued (withPort { NetPort.reset with linkUp := 1 })) [(0x500004, 0x8)]
     v.transportOn = true ∧ v.linkUp 0 0 = true ∧ v.chooseFrame 0 0 = some (frame0 3) ∧ v.shapeEn 0 0 3 = true) ∧
    (svc.chooseFrame 0 0 = none ∧ svc.linkUp 0 0 = false) ∧
    (let v := queued (withPort { NetPort.reset with linkUp := 1 })
     v.headFrame (v.eg 0 0) 3 = some (frame0 3) ∧ v.gateAllows 0 0 (frame0 3) = true ∧
       Tab.getD (v.eg 0 0).paused 3 0 ≤ v.mono) ∧
    svc.gateAdmits 0 0 (frame0 3) = true ∧
    (let v := withRegs svc [(0x500004, 0x40000000), (0x501004, 1), (0x501100, 0x00003D09)]
     v.gateAdmits 0 0 (frame0 3) = false) := by decide +kernel

theorem test_witness_meters :
    (let p := pk ([7, 0, 0, 0] ++ leBytes 4 100 ++ leBytes 4 200)
     begins svc 0x0540 p (fun _ => profileOk p) = true) ∧
    begins svc 0x0540 (pk [0, 0, 2]) (fun _ => !profileOk (pk [0, 0, 2])) = true ∧
    begins svc 0x0541 (pkOut 64 [7]) (fun _ => true) = true ∧
    ((pk ([0, 0, 0, 0] ++ leBytes 4 2 ++ leBytes 4 1)).u32 8 < (pk ([0, 0, 0, 0] ++ leBytes 4 2 ++ leBytes 4 1)).u32 4) := by decide +kernel

/-- `linked` with the link of port 0 up. -/
def netUp : Dev := onHosts linked fun h => { h with ports := [(0, { NetPort.reset with linkUp := 1 })], meters := [(0, meter1)] }

/-- `netUp` with its path in a state, held since a time. -/
def pathIn (st : PathState) : Dev := onHosts netUp fun h => { h with sessions := [(3, { sess1 with paths := [{ path1 with state := st }] })] }

/-- `netUp` with its queue pair as given. -/
def qpAs (q : Qp) : Dev := onHosts netUp fun h => { h with qps := [(5, q)] }

/-- A correct REQ for session 3 on port 2. -/
def reqOf (version session cookie : Nat) : CmReq := ⟨2, 0, false, 0x5856, true, 4096, 1, 2, 3,
  leBytes 4 0x31505856 ++ leBytes 1 version ++ [1, 0, 0] ++ leBytes 2 session ++ [0, 0] ++ leBytes 4 0x77 ++ leBytes 8 cookie ++
  leBytes 8 0x1000 ++ leBytes 4 4096 ++ zeros 56⟩

def req0 : CmReq := reqOf 1 3 0x99

/-- The session with room for more paths. -/
def sess2 : Session := { sess1 with maxPaths := 4 }

/-- A device that REQ joins. -/
def joinable : Dev := onHosts netUp fun h => { h with sessions := [(3, sess2)], ports := [(0, { NetPort.reset with linkUp := 1 }), (2, { NetPort.reset with linkUp := 1 })] }

theorem test_witness_cm :
    (joinable.transportOn = true ∧ joinable.linkUp 2 0 = true ∧ joinable.rejectCode { req0 with mtu := 512 } = some 5) ∧
    svc.transportOn = false ∧
    (let v := pathIn .pending
     v.transportOn = true ∧ v.sessionOf 5 = some 3 ∧ v.pathState 5 = some .pending) ∧
    netUp.pathState 5 ≠ some .pending ∧ (netUp.transportOn = true ∧ (netUp.qp 5).isSome = true) ∧
    (let v := onHosts linked fun h => { h with ports := [(0, { NetPort.reset with linkUp := 1, ipv4 := [(0, 9)] })] }
     v.transportOn = true ∧ v.linkUp 0 0 = true ∧ Tab.get (v.port 0).ipv4 0 = some 9 ∧ v.chip.frozenIn = false) ∧
    (netUp.transportOn = true ∧ netUp.linkUp 0 0 = true ∧ Tab.get (netUp.port 0).ipv4 0 ≠ some 9) := by decide +kernel

theorem test_witness_rejects :
    (onDrain joinable fun d => { d with offReady := true }).chip.drain.offReady = true ∧ joinable.chip.drain.offReady = false ∧
    { req0 with rc := false }.rc = false ∧ (req0.serviceId = 0x5856 ∧ req0.rc = true ∧ 1024 ≤ req0.mtu ∧ joinOk req0 = true) ∧
    (reqOf 2 3 0x99).version ≠ 1 ∧ joinable.session ((reqOf 1 4 0x99).sessionWord.toNat % 8192) = none ∧
    (joinable.session (req0.sessionWord.toNat % 8192) = some sess2 ∧ sess2.cookie ≠ (reqOf 1 3 0).cookie) ∧
    sess2.cookie = req0.cookie ∧ (onHosts joinable fun h => { h with claims := [] }).claimDesc sess2.claim = none ∧
    (joinable.claimDesc sess2.claim = some claim1 ∧ claim1.enable = true ∧ joinable.heldOn sess2 (req0.port.val / 2) = none ∧
      sess2.paths.length < sess2.maxPaths) ∧
    (let v := onHosts joinable fun h => { h with sessions := [(3, sess1)] }
     v.session (req0.sessionWord.toNat % 8192) = some sess1 ∧ sess1.cookie = req0.cookie ∧ v.claimDesc sess1.claim = some claim1 ∧
       v.heldOn sess1 (req0.port.val / 2) = none ∧ sess1.maxPaths ≤ sess1.paths.length) ∧
    (∃ p ∈ sess2.paths, p.state ≠ .held ∧ joinable.pathHome p = (0 : Port).val / 2) := by decide +kernel

theorem test_witness_join :
    joinable.transportOn = true ∧ joinable.linkUp 2 0 = true ∧ joinable.rejectCode req0 = none ∧
    joinable.session (req0.sessionWord.toNat % 8192) = some sess2 ∧ joinable.heldOn sess2 (req0.port.val / 2) = none ∧
    joinable.gateAdmits 2 0 (joinable.localFrame 2 0 false (.rep 0 [])) = true := by decide +kernel

/-- A 64-byte SEND in order on queue pair 5. -/
def send0 : ReqPacket := ⟨5, 10, .send, true, true, 64, 150, 3, false, msg0⟩

/-- A ring entry that is not acknowledged. -/
def wrote0 : Unacked := ⟨10, 64, 0, ⟨some 5, 3, 200, some 10, .entry 0 0x77 0x1000 (zeros 64)⟩⟩

/-- The queue pair, with a profile that lets packets of a cost pass. -/
def qpIn : Qp := { qp1 with tcIn := 60000000, tpIn := 60000000, unacked := [wrote0] }

theorem test_witness_packets :
    svc.qpReady 5 = false ∧
    (let v := qpAs qp1
     let w := v.packetSeen 5 qp1 send0.cost send0.ce
     v.qpReady 5 = true ∧ v.qp 5 = some qp1 ∧ w.qp 5 = some qp1 ∧ (w.policed 5 qp1 150 64).2 = false) ∧
    (let v := qpAs qpIn
     let w := v.packetSeen 5 qpIn send0.cost send0.ce
     v.qpReady 5 = true ∧ v.qp 5 = some qpIn ∧ w.qp 5 = some qpIn ∧ (w.policed 5 qpIn 150 64).2 = true ∧ qpIn.nakSent = false ∧
       send0.psn = qpIn.rxPsn ∧ send0.op = .send ∧ (w.policed 5 qpIn 150 64).1.noSlot 5 = false ∧
       serialBefore (2 ^ 24) 9 qpIn.rxPsn.toNat = true ∧ serialBefore (2 ^ 24) 11 qpIn.rxPsn.toNat = false) ∧
    (let q := { qpIn with nakSent := true }
     let v := qpAs q
     let w := v.packetSeen 5 q send0.cost send0.ce
     v.qpReady 5 = true ∧ v.qp 5 = some q ∧ w.qp 5 = some q ∧ (w.policed 5 q 150 64).2 = true ∧ q.nakSent = true) ∧
    ((onHosts (qpAs qpIn) fun h => { h with inbox := List.replicate 4096 ⟨msg0, 0, 0⟩ }).noSlot 5 = true) ∧
    ((∀ i, ReqOp.atomic ≠ .sendImm i) ∧ ReqOp.atomic ≠ .send) := by
  refine ⟨by decide +kernel, by decide +kernel, by decide +kernel, by decide +kernel, by decide +kernel, by simp, by simp⟩

theorem test_witness_requester :
    (let q := { qpIn with rxPsn := 12 }
     (qpAs q).qp 5 = some q ∧ (qpAs q).qpReady 5 = true ∧ serialBefore (2 ^ 24) (10 : BitVec 24).toNat q.rxPsn.toNat = true ∧
       serialBefore (2 ^ 24) (10 : BitVec 24).toNat q.mirrorPsn.toNat = false) ∧
    ((qpAs qpIn).qp 5 = some qpIn ∧ (qpAs qpIn).qpReady 5 = true ∧ (coveredBy 10 qpIn.unacked).getLast? = some wrote0 ∧
      qpIn.unacked = wrote0 :: [] ∧ (∃ y ∈ qpIn.unacked, y.psn = 10)) ∧
    (netUp.qp 5 = some qp1 ∧ netUp.qpReady 5 = true ∧ coveredBy 10 qp1.unacked = [] ∧ qp1.unacked = []) ∧
    (let v := atTime (qpAs qpIn) 100000000 0
     v.qp 5 = some qpIn ∧ v.qpReady 5 = true ∧ 0 + v.ackTimeoutNs qpIn.home.val ≤ v.mono ∧
       qpIn.retries < v.spireCfg qpIn.home.val 6 0x30010 23 21 ∧ v.spireCfg qpIn.home.val 6 0x30010 15 13 = 7) ∧
    (let q := { qpIn with retries := 7, rnrRetries := 7 }
     let v := withRegs (atTime (qpAs q) 100000000 0) [(0x1630010, 0x00F4E000)]
     v.spireCfg q.home.val 6 0x30010 23 21 ≤ q.retries) ∧
    (let v := withRegs netUp [(0x1630010, 0x00E02000), (0x163000C, 0)]
     v.qpReady 5 = true ∧ v.spireCfg 0 6 0x3000C 31 31 = 0 ∧ v.spireCfg 0 6 0x30010 15 13 = 1) ∧ svc.qpReady 5 = false := by decide +kernel

theorem test_witness_links :
    ((netUp.port 0).subUp 0 = true ∧ 0 < subCount (netUp.port 0).breakout ∧ netUp.spireUp (0 / 2) = true ∧ netUp.mode ≠ .held) ∧
    (∀ e ∈ netUp.hosts.sessions, ∀ a ∈ e.2.paths, ∀ b ∈ e.2.paths, a.qp ∈ netUp.qpsOn 0 0 → b.qp ∈ netUp.qpsOn 0 0 → a = b) ∧
    (svc.port 0).subUp 0 = false ∧
    (let x := { sess1 with paths := [{ path1 with state := .held }] }
     let v0 := onHosts netUp fun h => { h with sessions := [(3, x)] }
     let v := { v0 with clk := { v0.clk with aging := 100 * 15625 } }
     v.sessionOf 5 = some 3 ∧ v.session 3 = some x ∧ x.pathOf 5 = some { path1 with state := .held } ∧ 0 + x.pathHold * pealBells ≤ v.clk.aging) ∧
    (netUp.sessionOf 5 = some 3 ∧ netUp.session 3 = some sess1 ∧ sess1.pathOf 5 = some path1 ∧ path1.state ≠ .held) ∧
    netUp.qp 5 = some qp1 := by decide +kernel

theorem test_witness_congestion :
    svc.spireCfg 0 6 0x3000C 31 31 = 1 ∧ (1 : Nat) ≤ svc.spireCfg 0 6 0x30004 15 0 ∧ svc.spireCfg 0 6 0x30004 15 0 < 100000000 ∧
    qp1.mtu ≤ qp1.wnd ∧ qp1.wnd ≤ svc.maxWnd 0 4096 ∧ (withRegs svc [(0x163000C, 0)]).spireCfg 0 6 0x3000C 31 31 = 0 := by
  decide +kernel

/-- `netUp` with session 3 as given. -/
def sessAs (x : Session) : Dev := onHosts netUp fun h => { h with sessions := [(3, x)] }

def entry0 : Built := ⟨.notice ⟨4, 0, 0, 0, 0⟩, none, none, false, none, false⟩

theorem test_witness_consumer :
    (let x := { sess1 with consumerBusy := true, nextSeq := 10 }
     (sessAs x).transportOn = true ∧ (sessAs x).session 3 = some x ∧ x.consumerBusy = true ∧ (8 : BitVec 64).toNat < 2 ^ 24 ∧
       (x.nextSeq + 2 ^ 24 - (8 : BitVec 64).toNat) % 2 ^ 24 ≤ x.ringEntries ∧ 2 ^ 24 ≤ (2 ^ 24 : BitVec 64).toNat) ∧
    ((sessAs sess1).session 3 = some sess1 ∧ sess1.consumerBusy = false ∧ 64 ≤ sess1.ringFree) ∧
    (let x := { sess1 with nextSeq := 4090, polledAt := some 0 }
     let v := atTime (sessAs x) 64 0
     v.transportOn = true ∧ v.session 3 = some x ∧ x.ringFree < 64 ∧ v.atBell (0 + 64) = true ∧ x.lowestLive = some path1) ∧
    netUp.session 4 = none := by decide +kernel

theorem test_witness_entryWrite :
    (let x := { sess1 with built := [entry0] }
     let v := sessAs x
     v.transportOn = true ∧ v.session 3 = some x ∧ x.built = [entry0] ∧ x.pathFor entry0 = some path1 ∧ v.qp path1.qp = some qp1 ∧
       x.ringFree ≠ 0 ∧ x.issued = [] ∧ x.closing = none ∧
       v.mayPost 5 (x.entryWire path1 ⟨x.nextSeq, 0, 0, entry0.leaving v.mono⟩) = true) ∧
    (let x := { sess1 with built := [entry0], nextSeq := 4096 }
     (sessAs x).session 3 = some x ∧ x.ringFree = 0) ∧ sess1.built = [] := by decide +kernel

theorem test_witness_notification :
    (let p := { path1 with written := 1 }
     let x := { sess1 with paths := [p] }
     let v := sessAs x
     v.transportOn = true ∧ v.qp 5 = some qp1 ∧ v.session qp1.session = some x ∧ x.pathOf 5 = some p ∧ p.state = .live ∧
       p.notifyDue v.mono = true ∧ v.mayPost 5 (.notify 0) = true ∧ p.notifyUnacked = false ∧
       p.notifyCount ≤ p.written) ∧
    (netUp.qp 5 = some qp1 ∧ netUp.session qp1.session = some sess1 ∧ sess1.pathOf 5 = some path1 ∧ path1.notifyDue netUp.mono = false ∧
      path1.written = 0) := by decide +kernel

theorem test_witness_sessionCommands :
    (let p := pk ([4, 0, 1, 0] ++ zeros 12 ++ [100, 0, 2])
     begins linked 0x0510 p (fun w => decide (p.u16 0 < 8192) && decide (p.u16 2 < 4096) && decide (1 ≤ p.u8 18) && decide (p.u8 18 ≤ 4)
       && allZero (slice p.params 19 13) && (w.claimDesc (p.u16 2)).isSome && w.session (p.u16 0) == none) = true) ∧
    (let p := pk [4, 0, 1, 0]
     begins linked 0x0510 p (fun _ => p.u8 18 == 0) = true) ∧
    begins linked 0x0511 (pk [4]) (fun w => (w.session ((pk [4]).u16 0 % 8192)).isNone) = true ∧
    begins linked 0x0511 (pk [3]) (fun w => w.session ((pk [3]).u16 0 % 8192) == some sess1 && sess1.closing == none && sess1.contexts == []
      && w.hosts.windows == []) = true ∧
    begins linked 0x0512 (pk [4]) (fun w => (w.session ((pk [4]).u16 0 % 8192)).isNone) = true ∧
    (let x := { sess1 with anchor := none }
     begins (onHosts linked fun h => { h with sessions := [(3, x)] }) 0x0512 (pk [3]) (fun w => w.session 3 == some x) = true) ∧
    begins linked 0x0512 (pk [3]) (fun w => w.session 3 == some sess1 && sess1.anchor == some 0) = true := by decide +kernel

theorem test_witness_close :
    (let x := { sess1 with closing := some 9 }
     let v := sessAs x
     v.session 3 = some x ∧ x.closing = some 9 ∧ v.floder.cmds = [] ∧ v.inFlightSession 3 = 0) ∧
    (let x := { sess1 with closing := some 9 }
     let v := onHosts (sessAs x) fun h => { h with inbox := [⟨msg0, 0, 0⟩] }
     v.session 3 = some x ∧ x.closing = some 9 ∧ v.floder.cmds = [] ∧ 0 < v.inFlightSession 3) := by decide +kernel

theorem test_witness_tallies :
    (tallyClass 105 100 = .inWindow ∧ (105 : BitVec 32) ≠ 100) ∧ Tab.get sess1.tallies sess1.floor.toNat ≠ some .released ∧
    (let x := { sess1 with tallies := [(100, .released)], floor := 100 }
     Tab.get x.tallies (x.floor + BitVec.ofNat 32 0).toNat = some .released ∧
       Tab.get x.tallies (x.floor + BitVec.ofNat 32 1).toNat ≠ some .released) := by decide +kernel

theorem test_witness_window :
    (let q := { qp1 with waiting := [qp1.request 5 (.notify 1)] }
     let v := onHosts netUp fun h => { h with qps := [(5, q)] }
     v.qp 5 = some q ∧ v.pathState 5 = some .live ∧ q.unackedBytes ≤ q.wnd) ∧
    (netUp.qp 5 = some qp1 ∧ (pathIn .held).pathState 5 ≠ some .live) := by decide +kernel

/-- R223: 4,160 B at an MTU of 4,096 take two packets; R300: a packet with its RETH costs 4,218 B over
IPv6 and 4,198 B over IPv4, one without 4,182 B (the worked example of chapter 12). -/
theorem test_dataWires : (dataWires 7 4096 4160 true 0 (zeros 4160)).map Wire.payload = [4096, 64] ∧
    frameCost ((Wire.data true 7 0 (zeros 4096)).len true) = 4218 ∧ frameCost ((Wire.data true 7 0 (zeros 4096)).len false) = 4198 ∧
    frameCost ((Wire.data false 7 0 (zeros 4096)).len false) = 4182 := by decide +kernel

/-- R237: an entry in doubt on a path that is HELD is written again on the LIVE path, under its sequence number, and an empty write takes
its place. -/
theorem test_heldWrites : (({ qp1 with unacked := [wrote0] } : Qp).heldWrites.unacked.map (fun u => (u.psn, u.bytes, u.frame.what))) =
    [(10, 0, .empty)] := by decide +kernel

/-- Whether a command that is ready on a device starts and passes the shared checks, with a condition on the device then. -/
def startsOn (v : Dev) (op : Nat) (p : Packet) (cond : Dev → Bool) : Bool :=
  match v.floderStart op p with
  | some (w, _, none) => cond w
  | _ => false

def win1 : Window := ⟨3, none, 0, 16, 1, .live, true, [], 0, 0, []⟩
def grant1 : Grant := ⟨3, 7, 2, 0, 4096, .granted, 0, 100, 9, 0, 0, 0⟩

/-- Queue pair 5 with tokens, window 2 and grant 7 of session 3. -/
def staged : Dev := onHosts (qpAs qpIn) fun h => { h with windows := [(2, win1)], grants := [grant1] }

/-- A write of two bytes to offset 8 of window 2. -/
def write0 : WritePacket := ⟨5, 10, 0x4002, BitVec.ofNat 64 (stageAddr 2 7 8), 10, [1, 2], true, false, 100, 3, false, none⟩

theorem test_witness_windowWrite :
    svc.qpReady 5 = false ∧
    (let v := qpAs qp1
     v.qpReady 5 = true ∧ v.qp 5 = some qp1 ∧ ((v.packetSeen 5 qp1 100 false).policed 5 qp1 100 2).2 = false) ∧
    (let w := ((staged.packetSeen 5 qpIn 100 false).policed 5 qpIn 100 2).1
     staged.qpReady 5 = true ∧ staged.qp 5 = some qpIn ∧ ((staged.packetSeen 5 qpIn 100 false).policed 5 qpIn 100 2).2 = true ∧
       write0.psn = qpIn.rxPsn ∧ qpIn.writeMsg write0 = ⟨0x4002, BitVec.ofNat 64 (stageAddr 2 7 8), 10, 0, []⟩ ∧ (qpIn.writeMsg write0).span false 2 = (0, 2) ∧
       w.checkWrite 3 0x4002 (stageAddr 2 7 8) 2 = .place (2 * 2 ^ 30 + 8) ∧ write0.last = false ∧ Memory.wf staged.winMem = true ∧
       w.checkWrite 3 0x4002 (stageAddr 2 7 4095) 2 = .refuse 3 ∧
       w.checkWrite 3 0x4002 (stageAddr 2 7 4094) 2 = .place (2 * 2 ^ 30 + 4094) ∧
       w.checkWrite 3 0x8002 (stageAddr 2 7 8) 2 = .refuse 1) ∧ (11 : BitVec 24) ≠ qpIn.rxPsn := by decide +kernel

theorem test_witness_windowCommands :
    begins linked 0x0520 (pk [3]) (fun _ => (pk [3]).u32 8 == 0) = true ∧
    (let p := pk ([3, 0, 0, 0, 0, 0, 0, 0] ++ leBytes 4 1024)
     begins linked 0x0520 p (fun w => windowFieldsOk p && p.u8 2 == 0 && (w.session (p.u16 0)).isSome && w.spireShown (p.u8 3)
       && decide (w.hosts.windows.length < 16384) && decide (w.windowsOn (p.u8 3) < 4096)
       && decide (w.stageUsed (p.u8 3) + p.u32 8 ≤ w.stageLimit (p.u8 3))) = true ∧
     begins (onHosts linked fun h => { h with windows := (List.range 8).map (fun i => (i, { win1 with sizeMib := 2 ^ 20 })) }) 0x0520 p
       (fun w => windowFieldsOk p && p.u8 2 == 0 && (w.session (p.u16 0)).isSome && w.spireShown (p.u8 3)
         && decide (w.stageLimit (p.u8 3) < w.stageUsed (p.u8 3) + p.u32 8)) = true) ∧
    begins linked 0x0521 (pk [2]) (fun w => (Tab.get w.hosts.windows ((pk [2]).u16 0 % 16384)).isNone) = true ∧
    begins staged 0x0521 (pk [2]) (fun w => Tab.get w.hosts.windows 2 == some win1 && win1.usable && win1.state == .live && w.hosts.updates == []) = true ∧
    (let x := { win1 with state := .revoking }
     begins (onHosts linked fun h => { h with windows := [(2, x)] }) 0x0521 (pk [2]) (fun w => Tab.get w.hosts.windows 2 == some x) = true) ∧
    (let x := { win1 with state := .revoking, endBell := 3 }
     let v := atTime (onHosts linked fun h => { h with windows := [(2, x)] }) 4 0
     Tab.get v.hosts.windows 2 = some x ∧ x.state = .revoking ∧ v.atBell (x.endBell + 1) = true ∧ v.hosts.grants = []) ∧
    Tab.get staged.hosts.windows 2 = some win1 := by decide +kernel

/-- A management session. -/
def sess9 : Session := { sess1 with connKey := some 9 }

/-- A device where it is session 3. -/
def managed : Dev := onHosts linked fun h => { h with sessions := [(3, sess9)] }

theorem test_witness_tagWaits :
    begins linked 0x0535 (pk [4]) (fun w => (w.session ((pk [4]).u16 0)).isNone) = true ∧
    (let p := pk [3]
     p.u16 0 ≤ 8191 ∧ p.u16 2 = 0 ∧ allZero (slice p.params 16 32) = true ∧
     begins linked 0x0535 p (fun w => w.session (p.u16 0) == some sess1 && !(w.mgmtSession (p.u16 0))) = true ∧
     begins managed 0x0535 p (fun w => w.session (p.u16 0) == some sess9 && w.mgmtSession (p.u16 0) && sess9.closing == none
       && sess9.unexpected == [] && sess9.contexts == [] && p.u32 12 == 0) = true) ∧
    (let p := pk ([3, 0, 0, 0] ++ leBytes 4 0x30007 ++ leBytes 4 0 ++ leBytes 4 100)
     let x := { sess9 with unexpected := [⟨0x30007, 5, 0, 0⟩] }
     p.u16 0 ≤ 8191 ∧ p.u16 2 = 0 ∧ allZero (slice p.params 16 32) = true ∧ p.u32 12 ≠ 0 ∧
     begins managed 0x0535 p (fun w => w.session (p.u16 0) == some sess9 && w.mgmtSession (p.u16 0)) = true ∧
     begins (onHosts linked fun h => { h with sessions := [(3, x)] }) 0x0535 p (fun w => w.session (p.u16 0) == some x
       && w.mgmtSession (p.u16 0)) = true ∧
     ((0x30007 : BitVec 32) ^^^ BitVec.ofNat 32 (p.u32 4)) &&& ~~~(BitVec.ofNat 32 (p.u32 8)) = 0) ∧
    (let c : RecvCtx := ⟨7, 0, .tagWait 9 100⟩
     let x := { sess1 with contexts := [c] }
     let v := atTime (sessAs x) 100 0
     v.hosts.sessions = [(3, x)] ∧ x.contexts = [c] ∧ c.kind = .tagWait 9 100 ∧ v.atBell 100 = true) ∧
    (netUp.session 3 = some sess1 ∧ ∀ e ∈ netUp.hosts.sessions, e.2.contexts = []) := by decide +kernel

def chain1 : ChainQ := ⟨none, 16, 5, .running, [], none, none, none⟩

/-- A device with queues 1 and 2 as given. -/
def withChains (c d : ChainQ) : Dev := onHosts svc fun h => { h with chains := [(1, c), (2, d)] }

theorem test_witness_chainCommands :
    begins svc 0x0530 (pk []) (fun _ => (pk []).u16 2 == 0) = true ∧
    begins svc 0x0530 (pk [0, 0, 16]) (fun w => w.hosts.chains == []) = true ∧
    begins svc 0x0531 (pkIn [7, 0, 1] (zeros 64)) (fun w => (w.chain 7).isNone) = true ∧
    (let p := pkIn [1, 0, 1] (zeros 64)
     begins (withChains chain1 chain1) 0x0531 p (fun w => w.chain (p.u16 0) == some chain1 && p.u8 2 == 1 &&
       (readPacket p.src (slice p.data 0 64)).1 != 0x0534 && decide (chain1.elements.length + b2n chain1.running.isSome < chain1.depth)) = true) ∧
    begins (withChains chain1 chain1) 0x0532 (pk [1]) (fun w => w.chain ((pk [1]).u16 0) == some chain1) = true ∧
    begins svc 0x0533 (pk [1]) (fun w => (w.chain ((pk [1]).u16 0)).isNone) = true ∧
    begins (withChains chain1 chain1) 0x0533 (pk [1]) (fun w => w.chain ((pk [1]).u16 0) == some chain1 && chain1.state != .waiting
      && chain1.elements == [] && w.hosts.chains.all (fun e => e.2.waitOn == none)) = true := by decide +kernel

/-- A WAIT-ON-COUNT of queue 1 for a count of queue 2. -/
def waitFor (n lim : Nat) : Packet := packet (.chain 1) ([2, 0, 0, 0] ++ leBytes 4 n ++ leBytes 4 lim) []

/-- Queue 1 with that element at its head. -/
def waiting (n lim : Nat) : Dev := withChains { chain1 with elements := [(0x0534, { waitFor n lim with src := .ring 0 })] } chain1

theorem test_witness_chainElements :
    begins svc 0x0534 (pk []) (fun _ => true) = true ∧
    startsOn (waiting 5 0) 0x0534 (waitFor 5 0) (fun w => w.chain ((waitFor 5 0).u16 0) == some chain1
      && countReached chain1.counter (BitVec.ofNat 32 ((waitFor 5 0).u32 4))) = true ∧
    startsOn (waiting 6 0) 0x0534 (waitFor 6 0) (fun w => w.chain ((waitFor 6 0).u16 0) == some chain1
      && !(countReached chain1.counter (BitVec.ofNat 32 ((waitFor 6 0).u32 4))) && (waitFor 6 0).u32 8 == 0) = true ∧
    startsOn (waiting 6 9) 0x0534 (waitFor 6 9) (fun w => w.chain ((waitFor 6 9).u16 0) == some chain1
      && !(countReached chain1.counter (BitVec.ofNat 32 ((waitFor 6 9).u32 4))) && (waitFor 6 9).u32 8 == 9) = true ∧
    (let c := { chain1 with waitOn := some (2, 6, some 100) }
     let p := waitFor 6 9
     let v := atTime { withChains c chain1 with floder := { svc.floder with cmds := [⟨8, p.src, 1, 0x0534, false, false, p, .done, false⟩] } } 100 0
     v.chain 1 = some c ∧ c.waitOn = some (2, 6, some 100) ∧ v.chainCmd 1 = some 8 ∧ v.atBell 100 = true) ∧
    ((withChains chain1 chain1).chain 1 = some chain1 ∧ chain1.waitOn = none ∧ chain1.finished ≠ some stOk) ∧
    (let c := { chain1 with finished := some stOk }
     (withChains c chain1).chain 1 = some c) ∧
    (let c := { chain1 with finished := some stTimeout }
     (withChains c chain1).chain 1 = some c ∧ stTimeout ≠ stOk) := by decide +kernel

/-- The claim without payload protection, and its key slot with room to encrypt. -/
def claim2 : ClaimDesc := { claim1 with payloadProtect := false }
def slot2 : KeySlot := { slot1 with conn := false, decrypt := true, keyId := 4, limit := 1000000 }

/-- A device on which a capsule is the only work: session, extents and grains as given. -/
def soleDev (d : Delivered) (x : Session) (es : List Extent) (gs : List Grain) : Dev :=
  let v := onHosts netUp fun h => { h with
    claims := [(1, ⟨some claim2, 1, 0⟩)], sessions := [(3, x)], inbox := [⟨d, 0, 0⟩], extents := es
    scheds := [(0, { Sched.reset with grants := 5 })] }
  let v1 := onStore v fun y => { y with grains := gs, credit := { y.credit with limit := 100, allot := [(0, 50)] } }
  { v1 with keySlots := [(9, slot2)] }

/-- The checks of `Sole`, decided, for a capsule as `soleDev` holds it. -/
def sole (v : Dev) (k : CmdKind) (d : Delivered) (sn : Nat) (x : Session) : Bool :=
  let m : Waiting := ⟨d, 0, 0⟩
  v.hosts.inbox == [m] && d.opcode == k.opcode && v.hosts.ctxs == [] && v.hosts.dups == [] && v.sessionOf d.qp == some sn &&
  v.session sn == some x && v.serving && capsuleOk k d.cap (v.plainLen x d) && v.forwardable x k d &&
  (!k.tallied || x.tallyStep d.cap.tally == .fresh) && v.spireUp (v.homeOf d.qp) && (v.sched (v.homeOf d.qp)).grants != 0 &&
  decide (d.cap.cmdClass < 4) &&
  (match v.accessCheck x k d with
    | .ok desc => (match v.reserveNonce (Fin.ofNat 4 (v.homeOf d.qp)) desc.keySlot (kindGrains k d.cap) with
      | (some nonce, _) => v.extentCheck (v.newCtx v.nextId sn x k m desc nonce) == none
      | _ => false)
    | .error _ => false)

theorem sole_sole (v : Dev) (k : CmdKind) (d : Delivered) (sn : Nat) (x : Session) (h : sole v k d sn x = true) :
    ∃ desc nonce w, Sole v k ⟨d, 0, 0⟩ sn x desc nonce w := by
  simp only [sole, Bool.and_eq_true, beq_iff_eq, bne_iff_ne, decide_eq_true_eq, Bool.or_eq_true, Bool.not_eq_true'] at h
  obtain ⟨⟨⟨⟨⟨⟨⟨⟨⟨⟨⟨⟨⟨a, b⟩, c⟩, e⟩, f⟩, g⟩, i⟩, j⟩, k'⟩, l⟩, m⟩, n⟩, o⟩, p⟩ := h
  split at p
  · rename_i desc hd
    split at p
    · rename_i nonce w hn
      simp only [beq_iff_eq] at p
      exact ⟨desc, nonce, w, a, b, c, e, f, g, i, j, k', by rcases l with l | l <;> simp_all, hd, hn, p, m, n, o⟩
    · cases p
  · cases p

/-- An open extent of claim 1. -/
def ext0 : Extent := ⟨1, 0x1234, .open_, some .open_, 0, 0, 1, none, true, 0, 0, 0⟩

/-- A capsule of an opcode with tally 100 on queue pair 5. -/
def msgOf (op : Byte) : Delivered := ⟨5, capBytes op 0 100 0x1234 0 0, 64, none, 0⟩
def msg1 : Delivered := msgOf 0x01

/-- An inline APPEND of 5 bytes. -/
def msgA : Delivered := ⟨5, capBytes 0x02 1 100 0x1234 0 5 ++ [1, 2, 3, 4, 5], 69, none, 0⟩

/-- A held grain of session 3, and an append in progress. -/
def grain0 : Grain := 
  ⟨30, 8, 3, 1, 1, 1, 1, 0x1234, 0, 5, 0, some [1], some [1], true, 0, 0, false, none⟩
def ctx0 : Ctx := 
  ⟨8, .append, msgA, 5, 3, 1, 1, claim2, 9, 1, 0, .queued, 0, 0, 0, 1, 0, 0, none, 0, 0, 0, none, false, none, false, false, none, 0⟩

/-- A device with that command in a phase. -/
def busy (c : Ctx) : Dev := onHosts netUp fun h => { h with ctxs := [c], extents := [ext0] }

def rec0 : Record := ⟨⟨0, 3, false, 0, 0, 100, 0, 0, 0, 0, 0, 0, 0, 0, 0, []⟩, 0x01, 64 * pealBells, false⟩

/-- A device on which a CREATE with a tally meets a session. -/
def createDev (d : Delivered) (x : Session) : Dev := soleDev d x [] []

theorem test_witness_capsuleChecks :
    svc.hosts.inbox.find? (fun y => y.is 0x01 msg1) = none ∧
    (let v := createDev msg1 sess1
     v.hosts.inbox.find? (fun y => y.is 0x01 msg1) = some ⟨msg1, 0, 0⟩ ∧ v.qp msg1.qp = some qp1 ∧ qp1.session = 3 ∧ v.session 3 = some sess1 ∧
       (let u := ({ v with hosts := { v.hosts with inbox := dropFirst (fun y => y.is 0x01 msg1) v.hosts.inbox } } : Dev).pfcCheck 0
        u.serving = true ∧ capsuleOk .create msg1.cap (u.plainLen sess1 msg1) = true) ∧ v.forwardable sess1 .create msg1 = true) ∧
    (let d := { msg1 with msgLen := 65 }
     let v := createDev d sess1
     v.serving = true ∧ capsuleOk .create d.cap (v.plainLen sess1 d) = false ∧ sess1.tallyStep d.cap.tally = .fresh) ∧
    (let v := onChip (createDev msg1 { sess1 with anchor := some 1 }) fun c => { c with spires := Tab.set c.spires 1 SpireRec.reset }
     let w := { createDev msg1 { sess1 with anchor := some 1 } with hf := { Headframe.reset with sliceDown := 15 } }
     v.serving = true ∧ w.serving = true ∧ w.forwardable { sess1 with anchor := some 1 } .create msg1 = false) ∧
    sess1.tallyStep 4096 ≠ .fresh ∧ (inMode .drain).serving = false ∧ tallyClass 0xFFFFFFFF sess1.floor = .below ∧
    tallyClass 4096 sess1.floor = .ahead ∧ tallyClass 4095 sess1.floor = .inWindow ∧
    Tab.get { sess1 with tallies := [(100, .inFlight)] }.tallies 100 = some .inFlight ∧
    Tab.get { sess1 with tallies := [(100, .recorded rec0)] }.tallies 100 = some (.recorded rec0) := by decide +kernel

theorem test_witness_extentCommands :
    sole (soleDev msg1 sess1 [] []) .create msg1 3 sess1 = true ∧
    (let v := soleDev (msgOf 0x03) sess1 [ext0] []
     sole v .sealOp (msgOf 0x03) 3 sess1 = true ∧ v.ext 1 0x1234 = some ext0) ∧
    (let v := soleDev (msgOf 0x05) sess1 [ext0] []
     sole v .delete (msgOf 0x05) 3 sess1 = true ∧ v.ext 1 0x1234 = some ext0) := by decide +kernel

theorem test_witness_append :
    (let d := msgOf 0x02
     let v := soleDev d sess1 [ext0] []
     sole v .append d 3 sess1 = true ∧ v.ext 1 0x1234 = some ext0 ∧ d.cap.crc = false ∧ d.cap.expect = false ∧ d.cap.length = 0) ∧
    (let v := soleDev msgA sess1 [ext0] []
     sole v .append msgA 3 sess1 = true ∧ v.ext 1 0x1234 = some ext0 ∧ msgA.cap.crc = false ∧ msgA.cap.expect = false ∧ msgA.cap.length ≠ 0 ∧
       msgA.cap.inline = true ∧ grainsOf msgA.cap.length.toNat = 1 ∧
       1 ≤ Tab.getD v.store.credit.allot 0 0 ∧ 1 + v.outHeld ≤ v.store.credit.limit ∧ 1 ≤ v.roomFor 0) := by decide +kernel

theorem test_witness_untallied :
    (let v := soleDev (msgOf 0x06) sess1 [ext0] []
     sole v .stat (msgOf 0x06) 3 sess1 = true ∧ v.ext 1 0x1234 = some ext0) ∧
    sole (soleDev (msgOf 0x0A) sess1 [] []) .ping (msgOf 0x0A) 3 sess1 = true ∧
    sole (soleDev (msgOf 0x07) sess1 [] []) .flush (msgOf 0x07) 3 sess1 = true ∧
    (let v := soleDev (msgOf 0x07) sess1 [] [grain0]
     sole v .flush (msgOf 0x07) 3 sess1 = true ∧ grain0 ∈ v.store.grains ∧ grain0.held = true ∧ grain0.session = 3) ∧
    (let x := { sess1 with tallies := [(100, .recorded rec0)] }
     let d := msgOf 0x09
     sole (soleDev d x [] []) .cack d 3 x = true ∧ tallyClass d.cap.tally x.floor = .inWindow ∧
       Tab.get x.tallies d.cap.tally.toNat = some (.recorded rec0) ∧ (∀ t ∈ x.tallies, t.2 ≠ .inFlight)) ∧
    (let d : Delivered := ⟨5, capBytes 0x09 0 4196 0x1234 0 0, 64, none, 0⟩
     sole (soleDev d sess1 [] []) .cack d 3 sess1 = true ∧ tallyClass d.cap.tally sess1.floor = .ahead) ∧
    (let d := msgOf 0x04
     let v := soleDev d sess1 [ext0] []
     sole v .read d 3 sess1 = true ∧ v.ext 1 0x1234 = some ext0 ∧ d.cap.length = 0) ∧
    (let d : Delivered := ⟨5, capBytes 0x04 0 100 0x1234 0 9, 64, none, 0⟩
     let v := soleDev d sess1 [ext0] []
     sole v .read d 3 sess1 = true ∧ v.ext 1 0x1234 = some ext0 ∧ d.cap.length ≠ 0 ∧ ext0.len < d.cap.offset.toNat + d.cap.length.toNat) := by
  decide +kernel

theorem test_witness_commandEvents :
    (let f : FlushCtx := ⟨4, msg1, 5, 3, 1, 1, [], [30], 5, 0, false⟩
     let v := onHosts netUp fun h => { h with flushes := [f] }
     let w := onStore v fun y => { y with grains := [grain0] }
     v.hosts.flushes.find? (fun y => y.id == 4) = some f ∧ v.store.grains = [] ∧
       w.hosts.flushes.find? (fun y => y.id == 4) = some f ∧ (∃ y ∈ w.store.grains, y.id ∈ f.grains)) ∧
    (let c := { ctx0 with phase := .waitRoom }
     let v := atTime (busy c) 1000000 0
     v.ctx 8 = some c ∧ c.phase = .waitRoom ∧ v.atBell (c.waitFrom + c.desc.admitBound) = true ∧ c.credit < c.grains ∧
       { c with credit := 1 }.grains ≤ { c with credit := 1 }.credit) ∧
    (let c := { ctx0 with phase := .committing }
     let v := busy c
     v.ctx 8 = some c ∧ c.phase = .committing ∧ v.spireUp c.arrival.val = true ∧ v.cipherUp c.arrival.val = true ∧
       v.sliceUp c.arrival.val = true ∧ v.reaches c.arrival.val (partner c.arrival.val) = true ∧ v.twoCopies c = true ∧
       v.chip.frozenIn = false) ∧
    (busy ctx0).ctx 8 = some ctx0 ∧ (ctx0.phase ≠ .committing ∧ ctx0.phase ≠ .stored) ∧
    (let c := { ctx0 with phase := .stored, order := some 1 }
     (busy c).ctx 8 = some c ∧ c.kind = .append ∧ c.phase = .stored ∧ (busy c).earlierUnheld c = false ∧ c.waited = false) ∧
    (let c := { ctx0 with phase := .granted, grantTag := some 7 }
     let g := { grant1 with ctx := 8, state := .signalled }
     let v := onHosts (busy c) fun h => { h with grants := [g] }
     v.sessionOf 5 = some 3 ∧ v.hosts.grants.find? (fun y => y.session == 3 && y.tag == (0x30007 : BitVec 32).toNat % 65536 && y.state == .signalled) = some g ∧
       v.ctx g.ctx = some c ∧ c.phase = .granted ∧ (0x30007 : BitVec 32).toNat / 65536 = 3 ∧ g.sigLen = 0) ∧
    { grant1 with sigLen := 5 }.sigLen ≠ 0 ∧
    (let c := { ctx0 with phase := .granted, grantTag := some 7 }
     let g := { grant1 with ctx := 8 }
     let v := atTime (onHosts (busy c) fun h => { h with grants := [g] }) 100 0
     v.hosts.grants.find? (fun y => y.session == 3 && y.tag == 7) = some g ∧ g.state = .granted ∧ v.atBell (g.bell + g.life) = true ∧
       v.ctx g.ctx = some c) ∧
    svc.hosts.grants.find? (fun y => y.session == 3 && y.tag == 7) = none ∧
    (let x := { sess1 with tallies := [(100, .recorded rec0)] }
     let v0 := sessAs x
     let v := { v0 with clk := { v0.clk with aging := 64 * pealBells } }
     v.session 3 = some x ∧ Tab.get x.tallies 100 = some (.recorded rec0) ∧ rec0.ends ≤ v.clk.aging ∧
       v0.session 3 = some x ∧ v0.clk.aging < rec0.ends) := by decide +kernel

def pend0 : Pending := ⟨4, 0, 1, 1, 1, 1, [30], 0, none, none, [], none, []⟩
def gran0 : Grain := { grain0 with stripe := some 4 }

/-- A bay that serves. -/
def bay0 : BayRec := { BayRec.reset with
  state := .serving, upA := true, upB := true, powerGood := true, generation := 1, fit := true, queues := 8, depth := 256, ioA := 64, ioB := 64 }

/-- A device with a layout, bays 0 to 3 serving, and the pending stripes and grains given. -/
def shelf (ps : List Pending) (gs : List Grain) : Dev := onStore netUp fun y => { y with
  layout := ⟨1000, 10, true, false⟩, bays := [(0, bay0), (1, bay0), (2, bay0), (3, bay0)], pend := ps, grains := gs
  journal := { y.journal with isOpen := true, bays := [0, 1, 2] } }

theorem test_witness_stripesClose :
    (let v := shelf [pend0] [gran0]
     v.maySettle = true ∧ v.store.pend.find? (fun y => y.id == 4) = some pend0 ∧ pend0.closed = none ∧ v.causeHolds pend0 .vault = false ∧
       v.aged pend0 = false) ∧
    (let v := atTime (shelf [pend0] [gran0]) 100000000 0
     v.maySettle = true ∧ v.store.pend.find? (fun y => y.id == 4) = some pend0 ∧ pend0.closed = none ∧ v.causeHolds pend0 .age = true ∧
       v.aged pend0 = true) ∧
    (let p := { pend0 with closed := some .age }
     (shelf [p] [gran0]).store.pend.find? (fun y => y.id == 4) = some p ∧ p.closed.isSome = true) ∧
    (let v := onChip (shelf [pend0] [gran0]) fun c => { c with mode := { c.mode with mode := .survey } }
     v.mode = .survey ∧ v.maySettle = false ∧ v.store.pend.find? (fun y => y.id == 4) = some pend0) := by decide +kernel

theorem test_witness_closeLaysOut :
    (let v := shelf [pend0] [gran0]
     pend0.grains = [gran0].map (·.id) ∧ [gran0] ≠ [] ∧ (∀ g ∈ [gran0], v.store.grains.find? (fun y => y.id == g.id) = some g) ∧
       [gran0].length ≤ 16 * v.seamGoal pend0.k ∧ (v.newStripe pend0.spire.val pend0.claim pend0.m 1).isSome = true ∧
       v.store.pend.find? (fun y => y.id == pend0.id) = some pend0) := by decide +kernel

/-- A stripe of one data and one parity position on bays 0 and 1, row 0. -/
def rec1 : StripeRec := ⟨77, 1, 1, 0, 3, 0, 0, 0, 1, 1, [], 1⟩
def run1 : RunGrain := ⟨1, 0x1234, 0, 5, true⟩
def stripe1 : Stripe := ⟨rec1, [run1], 1, 1, false⟩

/-- The settle write of position 0. -/
def op0 : BayOp := ⟨50, 0, .A, 0, 4194304, 1, .write, .settle 4 0, [[1]], true, 0, none, 0, false⟩
def closed0 : Pending := { pend0 with closed := some .age, rec_ := some rec1, writes := [50], runs := [run1] }

/-- A device with bay operations. -/
def withOps (os : List BayOp) : Dev := onStore (shelf [closed0] [gran0]) fun y => { y with ops := os }

/-- A device whose journal has the blocks given. -/
def withBlocks (bs : List JournalBlock) : Dev :=
  onStore (shelf [] []) fun y => { y with journal := { y.journal with blocks := bs, nextSeq := 10, ringBlocks := journalRing } }

theorem test_witness_settle :
    svc.op 50 = none ∧
    ((withOps [op0]).op 50 = some op0 ∧ op0.cmd = .write ∧ op0.sent = true ∧ op0.use = .settle 4 0 ∧ (1 : BitVec 32) ≠ 0) ∧
    (let o := { op0 with sent := false }
     (withOps [o]).op 50 = some o ∧ o.sent = false) ∧
    (op0.lba = slotLba 0 ∧ op0.blocks[0]? = some [1] ∧ op0.blocks.length ≤ 16) ∧
    (let o := { op0 with cmd := .zeroes, lba := slotLba 0 + 1, count := 15, blocks := [] }
     o.cmd = .zeroes ∧ o.lba = slotLba 0 + 1 ∧ 0 < o.count ∧ 1 + o.count ≤ 16) ∧
    (let b : JournalBlock := ⟨9, .open_, [2], false⟩
     (withBlocks [b]).store.journal.blocks.find? (fun y => y.seq == 9) = some b ∧ b.left ≠ [] ∧
       (withBlocks [b]).store.journal.blocks.find? (fun y => y.seq == 8) = none) ∧
    (let b : JournalBlock := ⟨9, .open_, [], false⟩
     (withBlocks [b]).store.journal.blocks.find? (fun y => y.seq == 9) = some b ∧ b.left = []) ∧
    (let b : JournalBlock := ⟨9, .checkpoint 5, [], false⟩
     (withBlocks [b]).store.journal.blocks.find? (fun y => y.seq == 9) = some b ∧ b.left = [] ∧ b.rec_ = .checkpoint 5) ∧
    (journalRing ≤ 2 * (withBlocks []).store.journal.ringBlocks ∧ (withBlocks []).store.journal.checking = none ∧
      (withBlocks []).store.journal.blocks = []) ∧
    (let v := onStore (withBlocks []) fun y => { y with journal := { y.journal with checking := some 5 } }
     v.store.journal.checking = some 5 ∧ v.store.ops = []) ∧
    (let o := { op0 with use := .mapPage 6 }
     o ∈ (withOps [o]).store.ops ∧ o.use = .mapPage 6) ∧
    2 * svc.store.journal.ringBlocks < journalRing ∧
    (let p := { closed0 with writes := [], journal := some 9 }
     let v := onStore (withBlocks [⟨9, .stripe rec1 [], [], true⟩]) fun y => { y with pend := [p] }
     v.store.pend.find? (fun y => match y.rec_ with | some x => x.id == 77 | none => false) = some p ∧ p.rec_ = some rec1 ∧ p.writes = [] ∧
       p.journal = some 9 ∧ v.journaled 9 = true) ∧
    (closed0.writes ≠ [] ∧ (withOps []).store.pend.find? (fun y => match y.rec_ with | some x => x.id == 77 | none => false) = some closed0) := by
  decide +kernel

theorem test_witness_open : ∀ n, JournalRec.open_ ≠ .checkpoint n := by intro n; simp

/-- A device with bay 0 as given. -/
def withBay (x : BayRec) : Dev :=
  { onStore netUp fun y => { y with bays := [(0, x)], journal := { y.journal with bays := [] } } with chans := [(0, { Channel.reset with pwrgd := true, perstRel := true })] }

/-- The label of bay 0. -/
def label0 : Label := ⟨Config.shelfIdentity, 0, 1, 1000, 10, [0, 1, 2]⟩

/-- A drive that meets R185. -/
def drive0 : DriveInfo := ⟨some label0, 9, true, false, true, true, true, 8, 256, 1 <<< 20, true, true, true⟩

theorem labelCurrent_label0 (x : BayRec) (hs : x.stale = false) (hg : x.generation = 1) : (withBay x).labelCurrent 0 label0 = true := by
  have h : (withBay x).bay 0 = x := rfl
  simp [Dev.labelCurrent, h, hs, hg, label0]

theorem test_witness_bays :
    ((withBay BayRec.reset).baysRun = true ∧ ((withBay BayRec.reset).bay 0).state = .absent ∧
      (Tab.getD (withBay BayRec.reset).chans 0 .reset).pwrgd = true ∧ (Tab.getD (withBay BayRec.reset).chans 0 .reset).perstRel = true) ∧
    ((withBay bay0).bay 0).state ≠ .absent ∧
    (let x := { bay0 with state := .enumerating }
     (withBay x).baysRun = true ∧ ((withBay x).bay 0).state = .enumerating ∧ (withBay x).sec.lifecycle ≠ .retired ∧ x.stale = false ∧ x.generation = 1) ∧
    (let x := { bay0 with upA := false, upB := false }
     (withBay x).baysRun = true ∧ ((withBay x).bay 0).state = .serving ∧ ((withBay x).bay 0).upA = false ∧ ((withBay x).bay 0).upB = false) ∧
    (let x := { bay0 with state := .failed }
     (withBay x).baysRun = true ∧ ((withBay x).bay 0).state = .failed ∧ (withBay x).store.ops = [] ∧
       ((withBay x).store.journal.bays.contains 0 = false) ∧ x.stale = false ∧ x.generation = 1) ∧
    ((withBay bay0).atPeal = true ∧ (withBay bay0).bayPortUp 0 .A = true ∧ (withBay bay0).portLeased 0 .A = false) ∧
    (withBay BayRec.reset).bayPortUp 0 .A = false ∧ meets185 drive0 = true := by decide +kernel

/-- A device with stripe 1 published, as given, and bay 1 gone or not. -/
def withStripe (t : Stripe) (gone : Bool) : Dev := onStore (shelf [] []) fun y => { y with
  stripes := [t], bays := [(0, bay0), (1, if gone then { bay0 with state := .failed } else bay0), (2, bay0), (3, bay0)] }

/-- A job on stripe 77 whose writes and journal records are complete. -/
def job1 (k : JobKind) : Job := ⟨60, 0, 77, k, [], some (2, 990, true), [], true, [9]⟩

/-- A device with stripe 1 and a job. -/
def withJob (k : JobKind) : Dev := onStore (withStripe stripe1 true) fun y => { y with
  jobs := [job1 k], journal := { y.journal with nextSeq := 10, blocks := [⟨9, .relocate 77 ⟨2, 1, 990⟩, [], true⟩] } }

/-- The job of stripe 77 of a kind that is done, if any. -/
def picked (v : Dev) (k : JobKind) : Option Job := v.store.jobs.find? (fun y => y.stripe == 77 && y.kind == k && v.jobDone y)

theorem test_witness_space :
    (svc.stripe 77 = none ∧ picked svc .compact = none ∧ picked svc .repair = none ∧ picked svc (.rebuild 1) = none) ∧
    (let v := withJob (.rebuild 1)
     v.stripe 77 = some stripe1 ∧ picked v (.rebuild 1) = some (job1 (.rebuild 1)) ∧ (job1 (.rebuild 1)).target = some (2, 990, true)) ∧
    (let v := withJob .compact
     v.stripe 77 = some stripe1 ∧ picked v .compact = some (job1 .compact)) ∧
    (let v := withJob .repair
     v.stripe 77 = some stripe1 ∧ picked v .repair = some (job1 .repair) ∧ v.jobDone (job1 .repair) = true) ∧
    (let e := { ext0 with st := .deleted, heldSt := some .deleted }
     let v := onHosts svc fun h => { h with extents := [e] }
     v.ext 1 0x1234 = some e ∧ e.heldSt = some .deleted ∧ e.journaled = true ∧ v.hasGrains 1 0x1234 = false ∧ v.store.journal.blocks = []) ∧
    ext0.heldSt ≠ some .deleted := by decide +kernel

/-- A read of stripe 77. -/
def opR : BayOp := { op0 with cmd := .read, use := .read 6 77 0 0 1, blocks := [] }
def read0 : ReadCtx := ⟨6, msg1, 5, 3, 1, 1, 9, 1, 0, 5, 0, [], [], [50], [], 0, some 0⟩

theorem test_witness_bayCommands :
    (let v := withOps [opR]
     v.op 50 = some opR ∧ opR.cmd = .read ∧ opR.sent = true ∧ v.dataReaches opR = true ∧ opR.use = .read 6 77 0 0 1) ∧
    ((withOps [op0]).op 50 = some op0 ∧ op0.cmd ≠ .read) ∧ svc.op 50 = none ∧
    ((withOps [op0]).op 50 = some op0 ∧ (withOps [op0]).atBell (op0.issued + max 1 ((withOps [op0]).ioTimeout op0)) = false) ∧
    (let o := { op0 with sent := false }
     (withOps [o]).op 50 = some o ∧ o.sent = false ∧ (withOps [o]).stalled o = false) ∧
    (let v := withRegs (atTime (withOps [op0]) 100000000 0) ((List.range 4).map fun i => (spireBase i + 0x31000C, 0x0A01F424))
     v.op 50 = some op0 ∧ v.atBell (op0.issued + max 1 (v.ioTimeout op0)) = true ∧ op0.sent = true ∧ op0.lease = none ∧
       op0.use = .settle 4 0 ∧ 0 < v.leaseCap op0 ∧ op0.switched = false ∧ op0.retries < v.sameRetries op0) ∧
    (let o := { op0 with lease := some (.A, 9) }
     let v := atTime (withOps [o]) 9 0
     v.op 50 = some o ∧ o.lease = some (.A, 9) ∧ v.atBell 9 = true) ∧
    (let v := atTime { svc with recov := [(.cell 0 3 1, 9), (.block 0 4, 9)] } 9 0
     v.recov.find? (fun e => e.1 == .cell 0 3 1) = some (.cell 0 3 1, 9) ∧
       v.recov.find? (fun e => e.1 == .block 0 4) = some (.block 0 4, 9) ∧ v.atBell 9 = true) ∧
    (let v := atTime (onHosts netUp fun h => { h with reads := [read0] }) 100000000 0
     v.readCtx 6 = some read0 ∧ read0.runFrom.isSome = true ∧
       max 1 (v.spireCfg (v.homeOf read0.qp % 4) 3 0x1000C 31 24 * pealBells) ≤ v.readRan read0) ∧
    (let r := { read0 with runFrom := none }
     (onHosts netUp fun h => { h with reads := [r] }).readCtx 6 = some r) ∧
    (let q : Quarantine := ⟨0, .A, 3, 0⟩
     let v := onStore svc fun y => { y with quar := [q] }
     v.store.quar.find? (fun y => y.bay == 0 && y.cid == 3) = some q) ∧
    svc.store.quar.find? (fun y => y.bay == 0 && y.cid == 3) = none := by decide +kernel

/-- A STREAM scan of 2 blocks of bay 0 on port A. -/
def scanParams : List Byte := [0, 0, 4, 0x20] ++ zeros 4 ++ leBytes 8 4194304 ++ leBytes 8 2
def scanP : Packet := pk scanParams
def scanHbm : Packet := pk ([0, 0, 0, 0] ++ zeros 4 ++ leBytes 8 64 ++ leBytes 8 64)

/-- A device on which those scans may start. -/
def scannable : Dev := onStore (shelf [] []) fun y => { y with bays := [(0, { bay0 with lbas := 10000000 })] }

def scan0 : Scan := ⟨0, 5, 9, false, false, 32, 0, 0, false, false, 0, false, true, 1, 0, 4194304, 2, 0, 0, []⟩

/-- A device with one scan. -/
def scanning (x : Scan) : Dev := onStore scannable fun y => { y with scans := [x] }

/-- A grain record whose CRC-64 is right. -/
def goodImage : List Byte := imgFixCrc (zeros 4160)

theorem test_witness_scans :
    ((fed svc 0x0901 (pk [0xFF])).parseScan (pk [0xFF]) = none ∧ begins svc 0x0901 (pk [0xFF]) (fun w => w.parseScan (pk [0xFF]) == none) = true) ∧
    ((((fed scannable 0x0901 scanHbm).parseScan scanHbm).any (fun x => !x.fromBay && decide ((fed scannable 0x0901 scanHbm).scansOn x.spire.val < 64))) = true ∧
      begins scannable 0x0901 scanHbm (fun w => w.parseScan scanHbm == (fed scannable 0x0901 scanHbm).parseScan scanHbm && w.windowsOn 0 == 0) = true) ∧
    ((((fed scannable 0x0901 scanP).parseScan scanP).any (fun x => x.fromBay && x.length != 0 && decide ((fed scannable 0x0901 scanP).scansOn x.spire.val < 64))) = true ∧
      begins scannable 0x0901 scanP (fun w => w.parseScan scanP == (fed scannable 0x0901 scanP).parseScan scanP && w.store.scans == []) = true) ∧
    (let v := onStore scannable fun y => { y with scans := List.replicate 64 scan0 }
     (v.parseScan scanHbm).any (fun x => decide (64 ≤ v.scansOn x.spire.val)) = true) ∧
    begins svc 0x0902 (pk [5]) (fun w => w.store.scans == []) = true ∧
    begins (scanning scan0) 0x0902 (pk [5]) (fun w => w.store.scans.find? (fun y => y.tag.toNat == (pk [5]).u16 0) == some scan0) = true ∧
    ((scanning scan0).store.scans.find? (fun y => y.spire == 0 && y.tag == 5) = some scan0 ∧ (scanning scan0).store.ops = [] ∧
      scan0.fromBay = true ∧ { scan0 with length := 0 }.length ≤ scan0.got.length ∧ scan0.grain = false ∧ scan0.compare = false) ∧
    (let v := withOps [{ op0 with cmd := .read, use := .scan 0 5 }]
     ∃ o ∈ v.store.ops, o.use = .scan 0 5) := by decide +kernel

theorem test_witness_grainScan :
    (let x := { scan0 with grain := true, got := [goodImage] }
     x.fromBay = true ∧ { x with length := 1 }.length ≤ x.got.length ∧ x.grain = true ∧ ∀ g ∈ x.got, crcMatches g = true) :=
  ⟨rfl, by decide, rfl, by intro g hg; simp at hg; subst hg; exact crcMatches_imgFixCrc _⟩

/-- A device with stripe 77 of spire 0 and scrub of that spire as given. -/
def scrubbed (x : Scrub) : Dev :=
  onStore (withRegs (withStripe stripe1 false) [(0x1510008, 0x80000000)]) fun y => { y with scrubs := [(0, x)] }

def pass0 : Scrub := { Scrub.reset with running := true, items := [77], total := 1, quota := 1 }

/-- The stripe is being read, and a grain of it has come back wrong. -/
def pass1 : Scrub := { pass0 with reading := some 77, got := [(gotKey 77 0 0, [1])] }

theorem test_witness_scrub :
    ((scrubbed Scrub.reset).atPeal = true ∧ (scrubbed Scrub.reset).scrubOn 0 = true ∧ ((scrubbed Scrub.reset).scrub 0).running = false) ∧
    svc.scrubOn 0 = false ∧
    (let x := { pass0 with late := true }
     (scrubbed x).atPeal = true ∧ (scrubbed x).scrubOn 0 = true ∧ (scrubbed x).scrub 0 = x ∧ x.running = true ∧ x.pages = [] ∧ x.late = true ∧
       x.items ≠ [] ∧ ∀ i ∈ x.items, i ∈ (scrubbed x).scrubItems 0) ∧
    ((scrubbed pass0).stripe 77 = some stripe1 ∧ (scrubbed pass0).scrubOn 0 = true ∧ (scrubbed pass0).scrub 0 = pass0 ∧
      pass0.reading = none ∧ pass0.quota ≠ 0 ∧ pass0.items.head? = some 77 ∧ (∀ p, p < rec1.width → (rec1.placeOf p).all (fun e => ((scrubbed pass0).bay e.1).state == .serving) = true)) ∧
    (let x := pass1
     (scrubbed x).stripe 77 = some stripe1 ∧ (scrubbed x).spireUp 0 = true ∧ (scrubbed x).serving = true ∧ (scrubbed x).scrub 0 = x ∧
       x.reading = some 77 ∧ (scrubbed x).scrubBusy 0 77 = false ∧ (∀ e ∈ x.got, e.2 ≠ [])) ∧
    (let x := { pass0 with items := [], deferred := [77] }
     let v0 := scrubbed x
     let v := { v0 with keySlots := [(9, slot2)] }
     v.scrub 0 = x ∧ v.scrubOn 0 = true ∧ 77 ∈ x.deferred ∧ (v.stripeKey rec1).isSome = true) ∧ 77 ∉ pass0.deferred ∧
    (let v0 := scrubbed pass1
     let v := { v0 with keySlots := [(9, slot2)] }
     let taken := ((v.setScrub 0 { pass1 with reading := none, got := [], items := [] }).count 0 0x07 0 0x001 1).count 0 0x07 0 0x003 1
     (taken.stripeKey rec1).isSome = true ∧ (taken.offerCipher 0 4 1 (.scrub 77 (pass1.seams rec1))).1 = true) := by decide +kernel

theorem test_witness_scrubKey : scrubNeedsKey stripe1 (pass1.seams rec1) = true := by
  simp only [scrubNeedsKey, Bool.or_eq_true]; right; decide +kernel

/-- A stripe without parity, and its grain read right. -/
def rec2 : StripeRec := { rec1 with m := 0 }
def stripe2 : Stripe := ⟨rec2, [run1], 1, 1, false⟩
def pass2 : Scrub := { pass1 with got := [(gotKey 77 0 0, goodImage)] }

theorem test_witness_scrubClean :
    (let v := onStore (scrubbed pass2) fun y => { y with stripes := [stripe2] }
     v.stripe 77 = some stripe2 ∧ v.spireUp 0 = true ∧ v.serving = true ∧ (v.scrub 0).reading = some 77 ∧ v.scrubBusy 0 77 = false) ∧
    (∀ e ∈ pass2.got, e.2 ≠ []) ∧ scrubNeedsKey stripe2 (pass2.seams rec2) = false := by
  refine ⟨by decide +kernel, ?_, ?_⟩
  · intro e he h
    simp only [pass2, List.mem_singleton] at he
    subst he
    have := congrArg List.length h
    simp [goodImage, length_imgFixCrc] at this
  · have h : readSeam rec2 (pass2.seams rec2) 0 0 = goodImage := by
      simp [readSeam, Scrub.seams, pass2, rec2, rec1, StripeRec.filler, StripeRec.width, padTo, goodImage, length_imgFixCrc, Tab.get]
    simp [scrubNeedsKey, stripe2, run1, rec2]
    rw [show ({ rec1 with m := 0 } : StripeRec) = rec2 from rfl, h]; exact crcMatches_imgFixCrc _

def upd0 : Update := ⟨.claim, 1, .claimSet claim1, 5, none⟩

/-- A device with that update waiting, at a bell. -/
def updating (b : Nat) : Dev := atTime (onHosts linked fun h => { h with updates := [upd0] }) b 0

theorem test_witness_updates :
    ((updating 6).firstUpdate .claim 1 = some upd0 ∧ (updating 6).atBell (upd0.arrived + 1) = true ∧ (updating 6).oldHolders .claim 1 = 0 ∧
      (updating 6).switchedAt .claim 1 ((updating 6).switchBell upd0) = false ∧ (updating 6).now ≤ upd0.arrived + 1 ∧ (updating 6).now < upd0.arrived + 4 * pealBells) ∧
    ((updating 7).firstUpdate .claim 1 = some upd0 ∧ upd0.arrived + 1 < (updating 7).now ∧ (updating 7).oldHolders .claim 1 = 0) ∧
    (let v := onHosts (updating 7) fun h => { h with switched := [((.claim, 1), 7)] }
     v.firstUpdate .claim 1 = some upd0 ∧ v.switchedAt .claim 1 (v.switchBell upd0) = true) ∧
    ((updating 5).firstUpdate .claim 1 = some upd0 ∧ (updating 5).atBell (upd0.arrived + 1) = false) ∧
    (let v := onHosts (updating 7) fun h => { h with ctxs := [{ ctx0 with claimVer := 0 }] }
     v.firstUpdate .claim 1 = some upd0 ∧ v.oldHolders .claim 1 ≠ 0) ∧
    ((updating 62505).firstUpdate .claim 1 = some upd0 ∧ upd0.arrived + 4 * pealBells ≤ (updating 62505).now) ∧
    svc.firstUpdate .claim 1 = none ∧ upd0.key = 1 := by decide +kernel

/-- A cell from buffer port 48 to buffer port 50, and its message at its sender. -/
def cell0 : Cell := ⟨false, 50, 48, 3, true, true, 64, 0, 7, 0, [], false, []⟩
def sent0 : SentMsg := ⟨seqKey cell0, 48, 7, [cell0], [50], false⟩

/-- A device with the Headframe as given. -/
def withHf (f : Headframe → Headframe) : Dev := { linked with hf := f { linked.hf with sliceDown := 0 } }

theorem test_witness_headframe :
    ((withHf id).planeUp 0 = true ∧ (0, 0) ∉ (withHf id).hf.quarantined) ∧
    (0, 0) ∈ (withHf fun h => { h with quarantined := [(0, 0)] }).hf.quarantined ∧
    ((48, (7 : BitVec 16)) ∉ (withHf id).hf.notices) ∧
    (let v := withHf fun h => { h with notices := [(48, 7)] }
     (48, (7 : BitVec 16)) ∈ v.hf.notices ∧ v.hf.sent = []) ∧
    (let v := withHf fun h => { h with notices := [(48, 7)], sent := [sent0] }
     v.hf.notices = [(48, 7)] ∧ v.hf.sent = [sent0] ∧ sent0.src = 48 ∧ sent0.tag = 7 ∧ sent0.cells = [cell0] ∧ cell0.src = 48 ∧ cell0.first = true ∧
       v.hfPort 48 = 48 ∧ v.hfPortUp 48 = true) ∧
    (withHf id).hf.reorder = [] ∧
    (let e : OutCell := ⟨50, 0, { cell0 with seq := 1 }, 1, 0, false⟩
     let v := withHf fun h => { h with reorder := [e], sent := [sent0], slotNo := 100000 }
     v.hf.reorder = [e] ∧ e.output = 50 ∧ seqKey e.cell = seqKeyOf false 50 48 3 ∧ e.pos = v.hf.next 50 (seqKey e.cell) + 1 ∧
       e.cell.first = true ∧ v.hf.sent = [sent0] ∧ sent0.key = seqKey e.cell ∧ 50 ∈ sent0.owed ∧
       (∃ c ∈ sent0.cells, c.seq = v.hf.next 50 (seqKey e.cell)) ∧ e.at_ + 1 + v.cfgBits 0x400010 15 0 ≤ v.hf.slotNo) ∧
    ((inMode .held).mode = .held ∧ svc.mode ≠ .held ∧ svc.hf.slotNo ≤ svc.now * 128 + (0 : Fin 128).val ∧
      svc.now * 128 + (0 : Fin 128).val < { svc.hf with slotNo := 9 }.slotNo) := by decide +kernel

/-- A device whose servo is as given, with the selection of its reference. -/
def withServo (f : Servo → Servo) (bellSrc : Word) : Dev :=
  withRegs (onChip (onHosts netUp id) fun c => { c with servo := f c.servo }) [(0x5004, bellSrc)]

theorem test_witness_time :
    (inMode .held).mode = .held ∧ (svc.mode ≠ .held ∧ svc.sec.p3 = false ∧ svc.mode ≠ .vault) ∧ (onSec svc fun x => { x with p3 := true }).sec.p3 = true ∧
    (atTime svc 5 0).clk.bellInPeal ≠ 0 ∧ (svc.clk.bellInPeal = 0 ∧ svc.chip.servo.measured ≠ some svc.now) ∧
    (let v := atTime (withServo (fun x => { x with stepDue := some ⟨some 9, 3, none⟩ }) 0) 9 0
     v.mode ≠ .vault ∧ v.atBell 9 = true ∧ v.chip.servo.stepDue = some ⟨some 9, 3, none⟩) ∧ svc.chip.servo.stepDue = none ∧
    (let v := atTime (withServo (fun x => { x with state := .locked, lostSince := some 0 }) 0) (125 * 15625) 0
     v.chip.servo.state = .locked ∧ v.chip.servo.lostSince = some 0 ∧ v.atBell (0 + 125 * pealBells) = true) ∧ svc.chip.servo.state ≠ .locked ∧
    (let v := atTime (withServo (fun x => { x with state := .holdover, refValid := true }) 2) (2 * 15625) 0
     v.chip.servo.state = .holdover ∧ v.chip.servo.refValid = true ∧ v.atBell (v.chip.servo.holdSince + v.cfgBits 0x5004 15 0 * pealBells) = true) ∧
    svc.chip.servo.state ≠ .holdover ∧
    (let v := withServo id 0x80000000
     v.mode ≠ .held ∧ v.sec.p3 = false ∧ v.srcSync = true ∧ v.srcPtp = false ∧ v.chip.servo.lastSync = none) ∧
    (let v := atTime (withServo (fun x => { x with lastSync := some 0 }) 0x80000000) 10 0
     v.srcSync = true ∧ v.srcPtp = false ∧ v.chip.servo.lastSync = some 0 ∧ v.mono - 0 < 7999000) ∧
    (let v := atTime (withServo (fun x => { x with lastSync := some 0 }) 0x80000000) 15625 0
     v.srcSync = true ∧ v.srcPtp = false ∧ v.chip.servo.lastSync = some 0 ∧ 7999000 ≤ v.mono - 0 ∧ (v.mono - 0) % 8000000 ≤ 1000) ∧
    (let v := atTime (withServo (fun x => { x with lastSync := some 0 }) 0x80000000) 20000 0
     v.srcSync = true ∧ v.srcPtp = false ∧ v.chip.servo.lastSync = some 0 ∧ 1000 < (v.mono - 0) % 8000000 ∧ (v.mono - 0) % 8000000 < 7999000) ∧
    (withServo id 0).srcSync = false ∧
    (let v := withServo id 0x40070000
     v.mode ≠ .held ∧ v.sec.p3 = false ∧ v.ptpRef 0 = true ∧ v.linkUp 0 0 = true ∧ v.cfgBits 0x5004 23 16 = (7 : Byte).toNat) ∧
    (withServo id 0).ptpRef 0 = false := by decide +kernel

theorem test_witness_step : (⟨[.checkpointStart], svc⟩ : State).pending = .checkpointStart :: [] ∧ (st svc).pending = [] := ⟨rfl, rfl⟩

/-- The modes and conditions that the mode table names. -/
theorem test_witness_modes :
    ((inMode .survey).mode = .survey ∧ (inMode .vault).mode = .vault ∧ (inMode .held).mode = .held ∧ (inMode .fenced).mode = .fenced ∧
      svc.dirty = 0 ∧ svc.sec.p3 = false) ∧
    ((shelf [] [grain0]).mode = .service ∧ (shelf [] [grain0]).dirty ≠ 0) ∧
    (let v := onBoot (inMode .boot) fun b => { b with stage := 1, dirtyAtStart := true, wantVault := true }
     v.mode = .boot ∧ v.chip.boot.stage ≠ 0 ∧ v.chip.boot.dirtyAtStart = true ∧ v.chip.boot.wantVault = true) ∧
    (let v := onBoot (inMode .boot) fun b => { b with stage := 5 }
     v.mode = .boot ∧ v.chip.boot.stage = 5 ∧ v.chip.boot.wantVault = false ∧
       (onBoot v fun b => { b with wantVault := true }).chip.boot.wantVault = true) ∧
    ((inMode .boot).mode = .boot ∧ (inMode .boot).chip.boot.stage = 0 ∧ (inMode .boot).chip.boot.dirtyAtStart = false ∧
      (inMode .boot).chip.boot.wantVault = false) ∧
    (let v := withRegs (onStore (onSec (onChip (inMode .survey) fun c => { c with survey := { c.survey with complete := true } })
         fun x => { x with fuseA := .provisioned, fuseB := .provisioned }) fun y => { y with layout := ⟨8, 0, true, false⟩ }) [(0x2004, 0x80000000)]
     v.mode = .survey ∧ v.mayServe = true ∧ v.cfgBits 0x2004 31 31 = 1) ∧ (inMode .survey).mayServe = false ∧
    (onVault (inMode .vault) fun x => { x with phase := .waiting }).chip.vault.phase = .waiting ∧
    (let v := onDrain (inMode .drain) fun d => { d with returnMode := .survey }
     v.mode = .drain ∧ v.chip.drain.offReady = false ∧ v.chip.drain.returnMode = .survey) ∧
    (let v := onDrain (inMode .drain) fun d => { d with returnMode := .service }
     v.mode = .drain ∧ v.chip.drain.offReady = false ∧ v.chip.drain.returnMode ≠ .survey ∧ v.sec.debug ≠ .open_) ∧
    (onDrain (inMode .drain) fun d => { d with offReady := true }).chip.drain.offReady = true ∧
    ((onChip svc fun c => { c with unrepaired := [.bay 0] }).mode = .service ∧ (onChip svc fun c => { c with unrepaired := [.bay 0] }).chip.unrepaired ≠ []) ∧
    ((inMode .degraded).mode = .degraded ∧ (inMode .degraded).chip.unrepaired = []) := by decide +kernel

/-- A command that the whole-machine statements speak about, taken in HELD and in SERVICE. -/
theorem test_witness_wholeMachine :
    (∃ t, exec .checkpointStart State.reset = .next t ∧ State.reset.dev.mode = .held) ∧ Instr.checkpointStart ≠ .bellBoundary ∧
    Instr.checkpointStart ≠ .timeStep ∧ (∀ straps, Instr.checkpointStart ≠ .powerOn straps) ∧ (∀ p, Instr.checkpointStart ≠ .windowWritePacket p) ∧
    (∀ j, Instr.checkpointStart ≠ .jtagDebugAccess j) ∧ (∃ t, step ⟨[.checkpointStart], svc⟩ = .next t) ∧
    Memory.wf svc.winMem = true ∧ svc.clk.ns < 512 ∧ svc.clk.bellInPeal < svc.clk.pealLen ∧ 7813 ≤ svc.clk.pealLen ∧ svc.clk.pealLen ≤ 23437 :=
  ⟨⟨_, rfl, rfl⟩, by simp, by simp, by simp, by simp, by simp, ⟨_, rfl⟩, by decide +kernel, by decide +kernel, by decide +kernel,
    by decide +kernel, by decide +kernel⟩

theorem test_witness_resetN : (5 : Nat) < 1000 ∧ (st (inMode .vault)).dev.mode = .vault ∧ (inMode .fenced).mode = .fenced ∧
    ModeEvent.fatal ≠ .supplyBelow := by decide +kernel

/-! ### Commands that cannot be formed -/

def msgOk : Delivered := ⟨5, zeros 64 ++ [1, 2, 3], 67, none, 0⟩
def reqOk : ReqPacket := ⟨5, 1, .send, true, true, 64, 200, 0, false, msgOk⟩
def wrOk : WritePacket := ⟨5, 1, 0x113, 0, 2, [1, 2], true, true, 200, 0, false, some 1⟩
def cellOk : Cell := ⟨false, 1, 0, 0, true, true, 240, 0, 0, 0, [], false, []⟩
def memOk : MemReq := ⟨.pf0, 0, 0, false, 4, true, 0, false, false, []⟩
def cmOk : CmReq := ⟨0, 0, false, 0, true, 4096, 0, 0, 0, []⟩
def chanOk : ChanSample := ⟨0, 12000, 12000, true, true⟩
def sampleOk : Sample := ⟨true, 12000, [(0, chanOk), (33, chanOk)], [(5, 300), (8, 300)]⟩
def faultOk : FaultInfo := ⟨0x04420011, some 4, 0, 0, 0, 0, 0, 0⟩

theorem test_wf_packet :
    (Instr.identify (pk [])).wf = true ∧ (Instr.identify { pk [] with params := zeros 47 }).wf = false ∧
    (Instr.identify { pk [] with dataLen := 1048577 }).wf = false ∧ (Instr.imageStage { pk [] with data := [0] }).wf = false ∧
    (Instr.imageStage { pk [] with dataLen := 8, dataPtr := 4 }).wf = false ∧ (Instr.echo { pk [] with dataPtr := 4 }).wf = true ∧
    (Instr.create msgOk).wf = true ∧ (Instr.sessionClose { pk [] with src := .session 16384 }).wf = false ∧
    (Instr.regionReset (.floder { pk [] with params := [] })).wf = false ∧ (Instr.unpark (.floder { pk [] with params := [] })).wf = false ∧
    (Instr.blockReset (.floder { pk [] with params := [] })).wf = false ∧ (Instr.blockReset (.fault 0)).wf = true := by decide +kernel

theorem test_wf_messages :
    (Instr.append { msgOk with qp := 16384 }).wf = false ∧ (Instr.append { msgOk with msgLen := 66 }).wf = false ∧
    (Instr.requestPacket reqOk).wf = true ∧ (Instr.requestPacket { reqOk with bytes := 4097, cost := 5000 }).wf = false ∧
    (Instr.requestPacket { reqOk with cost := 63 }).wf = false ∧ (Instr.requestPacket { reqOk with qp := 16384 }).wf = false ∧
    (Instr.windowWritePacket wrOk).wf = true ∧ (Instr.windowWritePacket { wrOk with last := false }).wf = false ∧
    (Instr.windowWritePacket { wrOk with cost := 1 }).wf = false ∧ (Instr.windowWritePacket { wrOk with qp := 16384 }).wf = false ∧
    (Instr.windowWritePacket { wrOk with data := zeros 4097, cost := 5000 }).wf = false ∧
    (Instr.cmReq cmOk).wf = true ∧ (Instr.cmReq { cmOk with mtu := 4097 }).wf = false := by decide +kernel

theorem test_wf_cells :
    (Instr.headframeSlot 0 [cellOk]).wf = true ∧ (Instr.headframeSlot 0 [{ cellOk with len := 0 }]).wf = false ∧
    (Instr.headframeSlot 0 [{ cellOk with len := 241 }]).wf = false ∧ (Instr.headframeSlot 0 [{ cellOk with group := [1] }]).wf = false ∧
    (Instr.headframeSlot 0 [{ cellOk with mc := true, dest := 4 }]).wf = false ∧
    (Instr.headframeSlot 0 [{ cellOk with mc := true, dest := 3 }]).wf = true := by decide +kernel

theorem test_wf_events :
    (Instr.hotSwapSample sampleOk).wf = true ∧ (Instr.hotSwapSample { sampleOk with chans := [(34, chanOk)] }).wf = false ∧
    (Instr.hotSwapSample { sampleOk with temps := [(6, 0)] }).wf = false ∧ (Instr.hotSwapSample { sampleOk with temps := [(12, 0)] }).wf = false ∧
    (Instr.hotSwapSample { sampleOk with chans := [(1, chanOk), (1, chanOk)] }).wf = false ∧
    (Instr.hotSwapSample { sampleOk with temps := [(8, 0), (8, 1)] }).wf = false ∧
    (Instr.faultEvent faultOk).wf = true ∧ (Instr.faultEvent { faultOk with cls := some 5 }).wf = false ∧
    (Instr.faultEvent { faultOk with cls := none }).wf = true ∧
    (Instr.epMemoryRequest memOk).wf = true ∧ (Instr.epMemoryRequest { memOk with bar := 3 }).wf = false ∧
    (Instr.epMemoryRequest { memOk with length := 0 }).wf = false ∧ (Instr.epMemoryRequest { memOk with length := 4097 }).wf = false ∧
    (Instr.pfcReceive 0 0 [(7, 65535)]).wf = true ∧ (Instr.pfcReceive 0 0 [(8, 0)]).wf = false ∧
    (Instr.pfcReceive 0 0 [(0, 65536)]).wf = false := by decide +kernel

theorem test_wf_offsets :
    (Instr.registerWrite .pf0 0x400FFFC 0).wf = true ∧ (Instr.registerWrite .pf0 0x4010000 0).wf = false ∧
    (Instr.registerWrite .pf0 2 0).wf = false ∧ (Instr.pageCommit 0x2000 1).wf = true ∧ (Instr.pageCommit 0x2004 1).wf = false ∧
    (Instr.pageDiscard 0x4010000 1).wf = false ∧ (Instr.stagedCommitTakeEffect 0x2004).wf = false ∧
    (Instr.pmonLoRead .pf0 0x101002).wf = false ∧ (Instr.pmonSelWrite 0x101002 0).wf = false := by decide +kernel

theorem test_wf_numbers :
    (Instr.cmRtu 16383).wf = true ∧ (Instr.cmRtu 16384).wf = false ∧ (Instr.ackReceive 16384 0).wf = false ∧
    (Instr.stagingSignal 16384 0 0).wf = false ∧ (Instr.ringEntryWrite 8192).wf = false ∧ (Instr.consumerWordResponse 8192 0).wf = false ∧
    (Instr.grantLifeExpire 8191 65535).wf = true ∧ (Instr.grantLifeExpire 3 65536).wf = false ∧ (Instr.immediateSpentEnd 8192 0).wf = false ∧
    (Instr.recordLifeExpire 3 (2 ^ 32)).wf = false ∧ (Instr.keyZeroize 8192).wf = false ∧ (Instr.leaseGrant 0 8192 true).wf = false ∧
    (Instr.revokeDrainComplete 16384).wf = false ∧ (Instr.lateCompletion 0 65536).wf = false ∧ (Instr.quarantineRelease 0 65536).wf = false ∧
    (Instr.counterSelectionApply 6 0 0).wf = false ∧ (Instr.counterSelectionApply 0 512 0).wf = false ∧
    (Instr.counterSelectionApply 0 0 8).wf = false ∧ (Instr.counterSelectionApply 5 511 7).wf = true ∧
    (Instr.tombstoneReclaim 4096 0).wf = false ∧ (Instr.bayReadComplete 0 (.data [zeros 4159])).wf = false ∧
    (Instr.bayReadComplete 0 (.data [zeros 4160])).wf = true := by decide +kernel

/-! ### Values that the manual works out

Each expected value stands in the manual; the comment names the place. -/

/-- The ASCII digits "123456789". -/
def digits : List Byte := [0x31, 0x32, 0x33, 0x34, 0x35, 0x36, 0x37, 0x38, 0x39]

-- R205: the check values of profiles 0 and 1, and of the empty message.
theorem test_crc_checkValues : crcOf crc32c digits = 0xE3069283 ∧ crcOf crc64 digits = 0xAE8B14860A799888 ∧
    crcOf crc32c [] = 0 ∧ crcOf crc64 [] = 0 := by decide +kernel

-- 07, after R176: a(0, 0) is the inverse of 0x08, 0xAD.
theorem test_parity_coefficient : rsCoef 0 0 = 0xAD ∧ gfMul rsPoly 0x08 0xAD = 1 := by decide +kernel

-- 07, after R176: 0x01 in position 0 gives 0xAD at the same byte of parity position 0; any lost position comes back.
theorem test_parity_recovers :
    (let d : List (List Byte) := [[1, 0], [7, 9]]
     let p : List Byte := (d.zip (List.range 2)).foldl (fun acc e => rsAddMul (rsCoef 0 e.2) acc e.1) [0, 0]
     rsAddMul (rsCoef 0 0) [0, 0] [1, 0] = [0xAD, 0] ∧ rsDecode 2 [(1, [7, 9]), (2, p)] = some d ∧
       rsDecode 2 [(0, [1, 0]), (2, p)] = some d) := by decide +kernel

/-- Spire 1 with gang lead 11 and lease 3 of slot 0x211, generation 0x41D (13, worked example). -/
def leased (lease next : Nat) : Dev :=
  let v := onChip svc fun c => { c with spires := [(1, { SpireRec.reset with state := .up, gangLead := 11 })] }
  { v with keySlots := [(0x211, { slot1 with conn := false, generation := 0x41D, limit := 0x100000000000 })],
           leases := [(0, ⟨slot1.keyId, 16, slot1.epoch⟩)], spireLeases := [⟨1, 0x211, 0x41D, lease, next, none, false⟩] }

-- 13, worked example: NONCE_FIXED and NONCE_FIRST of two appends that follow each other on Spire 1.
theorem test_nonce_run :
    (let r := (leased 3 0x300A1F00000).reserveNonce 1 0x211 2048
     r.1 = some (0x00041D1B, 0x00000300A1F00000) ∧
       (r.2.reserveNonce 1 0x211 1).1 = some (0x00041D1B, 0x00000300A1F00800)) := by decide +kernel

-- 13, worked example: an append whose run would reach the invocation limit completes KEY_TIRED.
theorem test_nonce_tired :
    ((leased 15 0xFFFFFFFFFFF).reserveNonce 1 0x211 1).1.isSome = true ∧
    ((leased 15 0xFFFFFFFFFFF).reserveNonce 1 0x211 2).1 = none := by decide +kernel

-- 10, worked example: the base of window 0x113 plus grant tag 0x3A07, and WINDOW_KEY of GEN 0x278EB.
theorem test_window_address : stageAddr 0x113 0x3A07 0 = 0x044C000000000000 + 0x0000E81C00000000 ∧
    0x278EB * 2 ^ 14 + 0x113 = 0x9E3AC113 := by decide

-- 11, worked example: input 32 to output 52 in slot 20 waits 3 on plane 5, through intermediate 28; half 1 waits 4.
theorem test_headframe_wait : waitOf 32 52 20 5 = 3 ∧ interOf 32 20 5 = 28 ∧ waitOf 32 52 22 4 = 7 ∧ interOf 32 22 4 = 22 ∧
    waitOf 33 54 20 5 = 4 := by decide

-- 12, worked example: the longest window of class 3 is one bell, 6,400 B of cost at 100 Gb/s.
theorem test_gate_window : longestWindow 3 [(some 0, 0x08, 1), (some 1, 0xF7, 15623), (some 2, 0x08, 1)] 0 = 1 ∧
    lineRate 2 = 100 ∧ fitsTime (6400 - 20) (lineRate 2) 512 = true ∧ fitsTime (6401 - 20) (lineRate 2) 512 = false := by decide

-- 19, worked example: block 0x11 of Spire 2. 16, worked example: bank 0x1A2 of stack 3.
theorem test_source : srcOf 0x11 2 0x11 = 0x04420011 ∧ srcOf 3 3 0x1A2 = 0x00C301A2 := by decide

-- 20, worked example: the active view of CJE_CC_WND of Spire 2.
theorem test_spire_offset : spireBase 2 + 6 * 0x100000 + 0x30008 = 0x2E30008 := by decide

/-- Two seated modules at V_FULL, of these capacities in mJ and with assays of this age. -/
def withCaps (a b age1 : Nat) : Dev :=
  let v := withHums { HumState.reset with serial := some 1, agrees := true }
  onStore v fun y => { y with hums := [(0, { HumState.reset with serial := some 1, agrees := true }),
                                       (1, { HumState.reset with serial := some 2, agrees := true })],
                              ecaps := [⟨1, some a, 0, none⟩, ⟨2, some b, age1, none⟩] }

-- 06, worked example: 300 J alone buys 2,457,600 grains; 200 J and more of two buy 1,092,266; 256.8 J reach the cap.
theorem test_credit_limit : (withCaps 300000 410000 (2 * svc.assayInterval * pealBells)).limitNow = 2457600 ∧
    (withCaps 200000 215000 0).limitNow = 1092266 ∧ (withCaps 256800 277000 0).limitNow = 4194304 ∧
    (withCaps 150000 160000 0).limitNow = 0 := by decide +kernel

-- 06, worked example: 112.875 J from 13.20 V to 12.60 V give a capacity of 420.0 J.
theorem test_assay_capacity : (svc.assayCap 13200 5000000 117875000).1 = 420000 := by decide +kernel

-- 22, worked example: the shunts at reset give a bay channel a full scale of 40,000 mA.
theorem test_full_scale : svc.fullScale 7 = 40000 := by decide +kernel

-- 15, worked example: the fast threshold is 15,000 mA in ON and 4,000 mA in RAMP.
theorem test_fast_threshold : (withChan 7 { chanReady with state := .on }).fastLimit 7 = 15000 ∧
    (withChan 7 { chanReady with state := .ramp }).fastLimit 7 = 4000 := by decide +kernel

-- 08, worked example: 226,800,000 items over 75,600,000 peals make a quota of exactly 3.
theorem test_scrub_quota : scrubQuota 226800000 75600000 41000 = 3 ∧ scrubQuota 226800000 75600000 1 = 3 := by decide

-- 11, the format table's header check: the CRC of "123456789" under polynomial 0x1021 from 0xFFFF is 0x29B1.
theorem test_crc16 : crc16 [0x31, 0x32, 0x33, 0x34, 0x35, 0x36, 0x37, 0x38, 0x39] = 0x29B1 := by decide +kernel

-- 11: a whole grain takes 18 cells, nine on each cipher port; an append of up to 1 KiB takes three and two.
theorem test_grain_cells : grainCells 4096 = (9, 9) ∧ grainCells 1024 = (3, 2) := by decide

end Sys2Proof.Tests
end

section
/-! SUPPORT. The mode table (R85, R86): what each entry into a mode leaves as the mode, then one equation for each mode
event, and from these equations the statement. -/

namespace Sys2Proof.Machine

/-! ### The mode that each operation leaves -/

theorem Dev.Same.mode_eq {a b : Dev} (h : a.Same b) : a.mode = b.mode := by
  obtain ⟨-, -, hmode, -⟩ := h
  exact hmode

@[simp] theorem Dev.adjBoot_mode (v : Dev) (f : Boot → Boot) : (v.adjBoot f).mode = v.mode := rfl

@[simp] theorem Dev.humGatesOff_mode (v : Dev) : v.humGatesOff.mode = v.mode := (Dev.humGatesOff_keeps v).mode_eq

@[simp] theorem Dev.fenceSettle_mode (v : Dev) : v.fenceSettle.mode = v.mode := (Dev.fenceSettle_keeps v).mode_eq

@[simp] theorem Dev.dropKeyCopies_mode (v : Dev) : v.dropKeyCopies.mode = v.mode := rfl

@[simp] theorem Dev.startSpires_mode (v : Dev) : v.startSpires.mode = v.mode := (Dev.startSpires_keeps v).mode_eq

@[simp] theorem Dev.replay_mode (v : Dev) : v.replay.mode = v.mode := by
  obtain ⟨-, -, hmode, -⟩ := Dev.replay_keeps v
  exact hmode

@[simp] theorem Dev.setMode_mode (v : Dev) (m : Mode) : (v.setMode m).mode = m := by
  unfold Dev.setMode
  dsimp only
  split
  · exact (Dev.noticeAll_keeps _ _ _).mode_eq
  · rfl

@[simp] theorem Dev.enterHeld_mode (v : Dev) : v.enterHeld.mode = .held := rfl

@[simp] theorem Dev.warmReset_mode (v : Dev) : v.warmReset.mode = .boot := Dev.setMode_mode _ _

@[simp] theorem Dev.enterVault_mode (v : Dev) : v.enterVault.mode = .vault := Dev.setMode_mode _ _

@[simp] theorem Dev.enterFenced_mode (v : Dev) : v.enterFenced.mode = .fenced := by
  unfold Dev.enterFenced
  dsimp only
  split
  · exact Dev.setMode_mode _ _
  · split
    · exact Dev.setMode_mode _ _
    · rw [Dev.fenceSettle_mode, Dev.setMode_mode]

@[simp] theorem Dev.enterSurvey_mode (v : Dev) : v.enterSurvey.mode = .survey := by
  unfold Dev.enterSurvey
  dsimp only
  refine (foldl_same _ (fun x n => foldl_same _ (fun y k => Dev.upPaths_keeps y n k) _ _) _ _).mode_eq.trans ?_
  rw [(Dev.gatherAll_keeps _ _).mode_eq, (Dev.severeDone_keeps _).mode_eq, Dev.setMode_mode]

/-- The serving mode is chosen before the journal is opened, from the parts that are not repaired. -/
@[simp] theorem Dev.enterServing_mode (v : Dev) : v.enterServing.mode = v.servingMode := Dev.setMode_mode _ _

@[simp] theorem Dev.enterDrain_mode (v : Dev) (p : DrainPurpose) (retire : Bool) (cmd : Option Nat) :
    (v.enterDrain p retire cmd).mode = .drain := by
  unfold Dev.enterDrain
  refine (foldl_same _ (fun x w => ?_) _ _).mode_eq.trans (Dev.setMode_mode _ _)
  split
  · exact Dev.arrive_keeps _ _ _
  · exact Dev.Same.rfl

/-- DRAIN goes back to SURVEY where it came from SURVEY or debug is OPEN, and else to the mode that serves now. -/
@[simp] theorem Dev.leaveDrain_mode (v : Dev) :
    v.leaveDrain.mode = if v.chip.drain.returnMode = .survey ∨ v.sec.debug = .open_ then .survey else v.servingMode := by
  unfold Dev.leaveDrain
  refine (foldl_same _ (fun x w => ?_) _ _).mode_eq.trans ?_
  · split
    · exact Dev.arrive_keeps _ _ _
    · exact Dev.Same.rfl
  · simp only [Bool.or_eq_true, beq_iff_eq]
    split
    · exact Dev.setMode_mode _ _
    · exact Dev.enterServing_mode _

theorem Dev.servingMode_eq (v : Dev) : v.servingMode = if v.chip.unrepaired = [] then .service else .degraded := by
  simp [Dev.servingMode]

/-! ### The mode after each event (R85) -/

/-- SURVEY, SERVICE and DEGRADED. -/
abbrev Mode.Up (m : Mode) : Prop := m = .survey ∨ m = .service ∨ m = .degraded

/-- SURVEY, SERVICE, DEGRADED and DRAIN. -/
abbrev Mode.Runs (m : Mode) : Prop := m = .survey ∨ m = .service ∨ m = .degraded ∨ m = .drain

theorem Mode.boot_not_runs {m : Mode} (h : m = .boot) : ¬ m.Runs := by
  subst h
  decide

/-- The modes in which RESET_N and WARM_RESET have no row: VAULT, FENCED and HELD. -/
abbrev Mode.Idle (m : Mode) : Prop := m = .vault ∨ m = .fenced ∨ m = .held

theorem Mode.Idle.not_runs_or_boot {m : Mode} (h : m.Idle) : ¬ (m.Runs ∨ m = .boot) := by
  rcases h with rfl | rfl | rfl <;> decide

section Events
variable (v : Dev)

theorem Dev.takeEvent_supplyBelow_mode : (v.takeEvent .supplyBelow).mode = .held := by
  simp only [Dev.takeEvent, beq_iff_eq]
  split
  · assumption
  · exact Dev.enterHeld_mode v

theorem Dev.takeEvent_fatal_mode : (v.takeEvent .fatal).mode =
    if v.mode.Runs ∨ v.mode = .vault ∨ (v.mode = .boot ∧ v.chip.boot.stage ≠ 0) then .fenced else v.mode := by
  simp [Dev.takeEvent, apply_ite Dev.mode, or_assoc]

/-- While BOOT has dirty data, and in P3, a power loss is noted without a change of mode. -/
theorem Dev.takeEvent_powerLoss_mode : (v.takeEvent .powerLoss).mode =
    if v.sec.p3 = false ∧ v.mode.Runs then .vault else v.mode := by
  cases hp3 : v.sec.p3 <;> simp [Dev.takeEvent, apply_ite Dev.mode, or_assoc, hp3]

theorem Dev.takeEvent_resetLong_mode : (v.takeEvent .resetLong).mode =
    if v.mode.Runs then (if v.dirty = 0 then .held else .vault)
    else if v.mode = .boot ∧ v.chip.boot.dirtyAtStart = false then .held else v.mode := by
  cases hdirty : v.chip.boot.dirtyAtStart <;> simp [Dev.takeEvent, apply_ite Dev.mode, or_assoc, hdirty]

theorem Dev.takeEvent_resetLong_mode_of_idle (h : v.mode.Idle) : (v.takeEvent .resetLong).mode = v.mode := by
  obtain ⟨hrun, hboot⟩ := not_or.mp h.not_runs_or_boot
  rw [v.takeEvent_resetLong_mode, if_neg hrun, if_neg fun hb => hboot hb.1]

theorem Dev.takeEvent_resetLong_wantVault (hboot : v.mode = .boot) (hdirty : v.chip.boot.dirtyAtStart = true) :
    (v.takeEvent .resetLong).chip.boot.wantVault = true := by
  simp [Dev.takeEvent, hboot, hdirty, Dev.adjBoot]

theorem Dev.takeEvent_warmReset_mode : (v.takeEvent .warmReset).mode =
    if v.mode.Runs ∨ v.mode = .boot then .boot else v.mode := by
  simp [Dev.takeEvent, apply_ite Dev.mode, or_assoc]

theorem Dev.takeEvent_warmReset_mode_of_idle (h : v.mode.Idle) : (v.takeEvent .warmReset).mode = v.mode := by
  rw [v.takeEvent_warmReset_mode, if_neg h.not_runs_or_boot]

/-- In FENCED the end of BOOT starts the settle and leaves the mode. -/
theorem Dev.takeEvent_bootDone_mode : (v.takeEvent .bootDone).mode =
    if v.mode = .boot ∧ v.chip.boot.stage = 5 then (if v.chip.boot.wantVault = true then .vault else .survey) else v.mode := by
  simp [Dev.takeEvent, apply_ite Dev.mode]

theorem Dev.takeEvent_toService_mode : (v.takeEvent .toService).mode =
    if v.mode = .survey ∧ v.mayServe = true then v.servingMode else v.mode := by
  simp [Dev.takeEvent, apply_ite Dev.mode]

theorem Dev.takeEvent_surveyDone_mode : (v.takeEvent .surveyDone).mode =
    if (v.mode = .survey ∧ v.mayServe = true) ∧ v.cfgBits 0x2004 31 31 = 1 then v.servingMode else v.mode := by
  simp [Dev.takeEvent, apply_ite Dev.mode]

theorem Dev.takeEvent_vaultDone_mode : (v.takeEvent .vaultDone).mode =
    if v.mode = .vault ∧ v.chip.vault.phase = .waiting then .boot else v.mode := by
  simp [Dev.takeEvent, apply_ite Dev.mode]

theorem Dev.takeEvent_endDrain_mode : (v.takeEvent .endDrain).mode =
    if v.mode = .drain ∧ v.chip.drain.offReady = false then v.leaveDrain.mode else v.mode := by
  simp only [Dev.takeEvent, apply_ite Dev.mode, Bool.and_eq_true, beq_iff_eq, Bool.not_eq_true']

theorem Dev.takeEvent_resume : v.takeEvent .resume = v.takeEvent .endDrain := rfl

theorem Dev.takeEvent_partFault_mode : (v.takeEvent .partFault).mode =
    if v.mode = .service ∧ v.chip.unrepaired ≠ [] then .degraded else v.mode := by
  simp [Dev.takeEvent, apply_ite Dev.mode]

theorem Dev.takeEvent_repaired_mode : (v.takeEvent .repaired).mode =
    if v.mode = .degraded ∧ v.chip.unrepaired = [] then .service else v.mode := by
  simp [Dev.takeEvent, apply_ite Dev.mode]

theorem Dev.takeEvent_debugOpen_mode : (v.takeEvent .debugOpen).mode =
    if v.mode = .service ∨ v.mode = .degraded then .drain else v.mode := by
  simp [Dev.takeEvent, apply_ite Dev.mode]

theorem Dev.takeEvent_shutdown_mode : (v.takeEvent .shutdown).mode = if v.mode.Up then .drain else v.mode := by
  simp [Dev.takeEvent, apply_ite Dev.mode, or_assoc]

theorem Dev.takeEvent_activate_mode : (v.takeEvent .activate).mode = if v.mode.Up then .drain else v.mode := by
  simp [Dev.takeEvent, apply_ite Dev.mode, or_assoc]

/-- R86: no event but the supply leaves FENCED. -/
theorem Dev.takeEvent_mode_of_fenced (e : ModeEvent) (hm : v.mode = .fenced) (he : e ≠ .supplyBelow) :
    (v.takeEvent e).mode = .fenced := by
  cases e with
  | supplyBelow => contradiction
  | fatal => simp [takeEvent_fatal_mode, hm]
  | powerLoss => simp [takeEvent_powerLoss_mode, hm]
  | resetLong => exact (v.takeEvent_resetLong_mode_of_idle (.inr (.inl hm))).trans hm
  | warmReset => exact (v.takeEvent_warmReset_mode_of_idle (.inr (.inl hm))).trans hm
  | bootDone => simp [takeEvent_bootDone_mode, hm]
  | surveyDone => simp [takeEvent_surveyDone_mode, hm]
  | vaultDone => simp [takeEvent_vaultDone_mode, hm]
  | endDrain => simp [takeEvent_endDrain_mode, hm]
  | partFault => simp [takeEvent_partFault_mode, hm]
  | repaired => simp [takeEvent_repaired_mode, hm]
  | debugOpen => simp [takeEvent_debugOpen_mode, hm]
  | toService => simp [takeEvent_toService_mode, hm]
  | resume => simp [takeEvent_resume, takeEvent_endDrain_mode, hm]
  | shutdown => simp [takeEvent_shutdown_mode, hm]
  | activate => simp [takeEvent_activate_mode, hm]

end Events

/-! ### RESET_N (R86) -/

theorem Dev.obeysReset_of_vault_or_fenced {v : Dev} (h : v.mode = .vault ∨ v.mode = .fenced) : v.obeysReset = false := by
  rcases h with h | h <;> simp [Dev.obeysReset, Dev.inMode, h]

theorem exec_resetNPulse_short (s : State) {n : Nat} (h : n < 1000) : exec (.resetNPulse n) s = .next s := by
  simp [exec, execResetNPulse, State.withDev, Nat.not_le.mpr h]

theorem exec_resetNPulse_of_not_obeysReset (s : State) (n : Nat) (h : s.dev.obeysReset = false) :
    exec (.resetNPulse n) s = .next s := by
  simp [exec, execResetNPulse, State.withDev, h]

theorem exec_resetNLongLow_of_vault_or_fenced (s : State) (h : s.dev.mode = .vault ∨ s.dev.mode = .fenced) :
    exec .resetNLongLow s = .next s := by
  have hboot : s.dev.mode ≠ .boot := by rcases h with h | h <;> simp [h]
  simp [exec, execResetNLongLow, State.withDev, hboot, Dev.obeysReset_of_vault_or_fenced h]

end Sys2Proof.Machine

open Sys2Proof.Machine

/-- Settles O3. With every event replaced by its equation, a row says which branch its guard takes. -/
theorem modeTable : Obligations.ModeTable := by
  unfold Obligations.ModeTable
  refine ⟨fun v => ?_, fun s n v e => ?_⟩
  · simp only [Dev.takeEvent_fatal_mode, Dev.takeEvent_powerLoss_mode, Dev.takeEvent_resetLong_mode, Dev.takeEvent_warmReset_mode,
      Dev.takeEvent_bootDone_mode, Dev.takeEvent_toService_mode, Dev.takeEvent_surveyDone_mode, Dev.takeEvent_vaultDone_mode,
      Dev.takeEvent_resume, Dev.takeEvent_endDrain_mode, Dev.takeEvent_partFault_mode, Dev.takeEvent_repaired_mode,
      Dev.takeEvent_debugOpen_mode, Dev.takeEvent_shutdown_mode, Dev.takeEvent_activate_mode, Dev.leaveDrain_mode,
      Dev.servingMode_eq]
    refine ⟨v.takeEvent_supplyBelow_mode,
      -- a FATAL fault, the loss of input power
      fun h => if_pos h, fun h => if_neg ?fatalIgnored,
      fun hp3 hrun => if_pos ⟨hp3, hrun⟩, fun _ hrun => if_neg fun h => hrun h.2,
      -- RESET_N for more than 100 ms, a warm reset
      fun hrun hclean => (if_pos hrun).trans (if_pos hclean), fun hrun hdirty => (if_pos hrun).trans (if_neg hdirty),
      fun hboot hclean => ?longCleanBoot, fun hboot hdirty => ⟨?longDirtyBoot, v.takeEvent_resetLong_wantVault hboot hdirty⟩,
      fun h => ⟨v.takeEvent_resetLong_mode.symm.trans (v.takeEvent_resetLong_mode_of_idle h),
        v.takeEvent_warmReset_mode.symm.trans (v.takeEvent_warmReset_mode_of_idle h)⟩,
      fun h => if_pos h,
      -- the end of BOOT
      fun hboot hstage hvault => (if_pos ⟨hboot, hstage⟩).trans (if_neg (by simp [hvault])),
      fun hboot hstage hvault => (if_pos ⟨hboot, hstage⟩).trans (if_pos hvault),
      fun _ hstage => if_neg fun h => hstage h.2, fun hboot => if_neg fun h => hboot h.1,
      -- the end of SURVEY, by MODE_SET or by itself
      fun hsurvey hserve => if_pos ⟨hsurvey, hserve⟩, fun h => ⟨if_neg ?noService, if_neg fun hs => ?noService hs.1⟩,
      fun hsurvey hserve hauto => (if_pos ⟨⟨hsurvey, hserve⟩, hauto⟩).trans (if_pos ⟨hsurvey, hserve⟩).symm,
      -- the vault marker
      fun hvault hwait => if_pos ⟨hvault, hwait⟩, fun hvault => if_neg fun h => hvault h.1,
      -- the end of DRAIN
      fun hdrain hoff hback => ⟨?toSurvey, ?toSurvey⟩,
      fun hdrain hoff hback hdebug => (if_pos ⟨hdrain, hoff⟩).trans (if_neg (not_or.mpr ⟨hback, hdebug⟩)),
      fun h => ⟨if_neg ?staysDrain, if_neg ?staysDrain⟩,
      -- between SERVICE and DEGRADED
      fun hservice hparts => if_pos ⟨hservice, hparts⟩, fun hservice => if_neg fun h => hservice h.1,
      fun hdegraded hparts => if_pos ⟨hdegraded, hparts⟩, fun hdegraded => if_neg fun h => hdegraded h.1,
      -- into DRAIN
      fun h => if_pos h, fun hup => ⟨if_pos hup, if_pos hup⟩, fun hup => ⟨if_neg hup, if_neg hup⟩⟩
    case fatalIgnored => rcases h with h | h | h <;> simp [h]
    case longCleanBoot => rw [if_neg (Mode.boot_not_runs hboot), if_pos ⟨hboot, hclean⟩]
    case longDirtyBoot =>
      have hnot : ¬ (v.mode = .boot ∧ v.chip.boot.dirtyAtStart = false) := fun h => Bool.noConfusion (hdirty.symm.trans h.2)
      rw [if_neg (Mode.boot_not_runs hboot), if_neg hnot, hboot]
    case noService => rintro ⟨hsurvey, hserve⟩; simp [hsurvey, hserve] at h
    case toSurvey => exact (if_pos ⟨hdrain, hoff⟩).trans (if_pos (.inl hback))
    case staysDrain => rintro ⟨hdrain, hoff⟩; simp [hdrain, hoff] at h
  · refine ⟨exec_resetNPulse_short s, fun h => ⟨?_, exec_resetNLongLow_of_vault_or_fenced s h⟩,
      v.takeEvent_mode_of_fenced e, v.takeEvent_supplyBelow_mode⟩
    exact exec_resetNPulse_of_not_obeysReset s n (Dev.obeysReset_of_vault_or_fenced h)

end

section
/-! SUPPORT. The published algorithms as a sealed grain uses them (R170, R322): the lengths of what SHA-384 and AES-256
give, and GCM, whose text is its own inverse under one key stream. -/

namespace Sys2Proof.Machine

/-! ### Lengths of byte strings -/

@[simp] theorem length_beBytes (n x : Nat) : (beBytes n x).length = n := by
  rw [beBytes, List.length_reverse, length_leBytes]

@[simp] theorem length_zeros (n : Nat) : (zeros n).length = n := List.length_replicate

theorem length_padTo {n : Nat} {l : List Byte} (h : l.length ≤ n) : (padTo n l).length = n := by
  simp only [padTo, List.length_append, List.length_replicate]; omega

@[simp] theorem length_xorBytes (a b : List Byte) : (xorBytes a b).length = min a.length b.length := List.length_zipWith

/-! ### The length of SHA-384 and of the extent-key hash -/

/-- Both halves of a hash value hold four words. -/
def ShaFull (x : List (BitVec 64) × List (BitVec 64)) : Prop := x.1.length = 4 ∧ x.2.length = 4

theorem shaStep_full {p q : List (BitVec 64)} (h : ShaFull (p, q)) (kw : BitVec 64) : ShaFull (shaStep p q kw) := by
  obtain ⟨hp, hq⟩ := h
  exact ⟨by simp [shaStep, hp], by simp [shaStep, hq]⟩

theorem shaSteps_full (ks w : List (BitVec 64)) {x : List (BitVec 64) × List (BitVec 64)} (h : ShaFull x) :
    ShaFull (shaSteps ks w x) := by
  induction ks generalizing w x with
  | nil => exact h
  | cons k ks ih => exact ih (shaSlide w) (shaStep_full h _)

theorem shaRun_full (n : Nat) (m : List Byte) {x : List (BitVec 64) × List (BitVec 64)} (h : ShaFull x) :
    ShaFull (shaRun n m x) := by
  induction n generalizing m x with
  | zero => exact h
  | succ n ih =>
    obtain ⟨hy1, hy2⟩ := shaSteps_full shaRoundWords (wordsOf 16 (beNat (slice m 0 128))) h
    obtain ⟨hx1, hx2⟩ := h
    exact ih (m.drop 128) ⟨by simp [hx1, hy1], by simp [hx2, hy2]⟩

theorem length_flatMap_beBytes (l : List (BitVec 64)) :
    (l.flatMap fun w => beBytes 8 w.toNat).length = 8 * l.length := by
  induction l with
  | nil => rfl
  | cons w l ih => rw [List.flatMap_cons, List.length_append, length_beBytes, ih, List.length_cons]; omega

theorem length_sha384 (m : List Byte) : (sha384 m).length = 48 := by
  have hstart : ShaFull shaStartAE := ⟨by simp [shaStartAE, wordsOf], by simp [shaStartAE, wordsOf]⟩
  unfold sha384
  extract_lets p
  obtain ⟨ha, he⟩ := shaRun_full (p.length / 128) p hstart
  simp only [length_flatMap_beBytes, List.length_append, List.length_take, ha, he]
  rfl

@[simp] theorem length_extHash (claim : Nat) (key : BitVec 128) : (extHash claim key).length = 16 := by
  simp [extHash, length_sha384]

/-! ### The length of an AES-256 block -/

/-- A key schedule under way: at least eight words, each of 4 B. -/
def KeyWords (ws : List (List Byte)) : Prop := 8 ≤ ws.length ∧ ∀ w ∈ ws, w.length = 4

theorem KeyWords.length_getD {ws : List (List Byte)} (h : KeyWords ws) {i : Nat} (hi : i < ws.length) :
    (ws.getD i []).length = 4 := by
  rw [List.getD_eq_getElem?_getD, List.getElem?_eq_getElem hi, Option.getD_some]
  exact h.2 _ (List.getElem_mem hi)

theorem KeyWords.length_headD {ws : List (List Byte)} (h : KeyWords ws) : (ws.headD []).length = 4 := by
  obtain ⟨hlen, hwords⟩ := h
  cases ws with
  | nil => simp at hlen
  | cons w ws => exact hwords w List.mem_cons_self

theorem KeyWords.cons {ws : List (List Byte)} (h : KeyWords ws) {w : List Byte} (hw : w.length = 4) : KeyWords (w :: ws) :=
  ⟨Nat.le_succ_of_le h.1, List.forall_mem_cons.mpr ⟨hw, h.2⟩⟩

theorem aesExpandGo_keyWords (n i : Nat) {ws : List (List Byte)} (h : KeyWords ws) : KeyWords (aesExpandGo n i ws) := by
  induction n generalizing i ws with
  | zero => exact h
  | succ n ih =>
    have hold : (ws.getD 7 []).length = 4 := h.length_getD h.1
    have hlast : (ws.headD []).length = 4 := h.length_headD
    refine ih (i + 1) (h.cons ?_)
    rw [length_xorBytes, hold]
    split
    · simp only [length_xorBytes, List.length_map, List.length_append, List.length_drop, List.length_take,
        List.length_cons, List.length_nil, hlast]
      rfl
    · split
      · rw [List.length_map, hlast, Nat.min_self]
      · rw [hlast, Nat.min_self]

theorem length_aesExpandGo (n i : Nat) (ws : List (List Byte)) : (aesExpandGo n i ws).length = n + ws.length := by
  induction n generalizing i ws with
  | zero => simp [aesExpandGo]
  | succ n ih => simp only [aesExpandGo, ih, List.length_cons]; omega

/-- The last of the fifteen round keys of AES-256 has the 16 B of a block. -/
theorem length_aesRoundKeys_last (key : List Byte) : ((aesRoundKeys key).getD 14 []).length = 16 := by
  unfold aesRoundKeys
  extract_lets k ws0 ws
  have hstart : KeyWords ws0 := by
    refine ⟨by simp [ws0], fun w hw => ?_⟩
    obtain ⟨i, -, rfl⟩ := List.mem_map.mp (List.mem_reverse.mp hw)
    exact length_slice _ _ _
  have hgrown : KeyWords (aesExpandGo 52 8 ws0) := aesExpandGo_keyWords 52 8 hstart
  have hlen : ws.length = 60 := by simp [ws, ws0, length_aesExpandGo]
  have hws : KeyWords ws := ⟨by omega, fun w hw => hgrown.2 w (List.mem_reverse.mp hw)⟩
  have hword (i : Nat) (hi : i < 4) : (ws.getD (4 * 14 + i) []).length = 4 := hws.length_getD (by omega)
  change ((List.range 4).flatMap fun i => ws.getD (4 * 14 + i) []).length = 16
  rw [List.length_flatMap, List.map_congr_left fun i hi => hword i (List.mem_range.mp hi)]
  rfl

theorem length_shiftRows (s : List Byte) : (shiftRows s).length = 16 := by
  simp [shiftRows]

theorem length_aesEncryptWith (key b : List Byte) : (aesEncryptWith (aesRoundKeys key) b).length = 16 := by
  rw [aesEncryptWith, length_xorBytes, length_aesRoundKeys_last, length_shiftRows, Nat.min_self]

/-! ### Counter mode: a text is XORed with a key stream -/

theorem xorBytes_append_right (l a b : List Byte) :
    xorBytes l (a ++ b) = xorBytes (l.take a.length) a ++ xorBytes (l.drop a.length) b := by
  induction a generalizing l with
  | nil => simp [xorBytes]
  | cons x a ih => cases l with
    | nil => simp [xorBytes]
    | cons y l => simpa [xorBytes] using ih l

theorem xorBytes_xorBytes_right {l k : List Byte} (h : l.length ≤ k.length) : xorBytes (xorBytes l k) k = l := by
  induction l generalizing k with
  | nil => simp [xorBytes]
  | cons x l ih => cases k with
    | nil => simp at h
    | cons y k =>
      have hrest := ih (k := k) (by simpa using h)
      simp only [xorBytes, List.zipWith_cons_cons, List.cons.injEq] at hrest ⊢
      exact ⟨by rw [BitVec.xor_assoc, BitVec.xor_self, BitVec.xor_zero], hrest⟩

/-- The key stream of n blocks, counters from c. -/
def keyStream (rk : List (List Byte)) (nonce : List Byte) : Nat → Nat → List Byte
  | _, 0 => []
  | c, n + 1 => aesEncryptWith rk (nonce ++ beBytes 4 c) ++ keyStream rk nonce (c + 1) n

theorem length_keyStream (key nonce : List Byte) (c n : Nat) : (keyStream (aesRoundKeys key) nonce c n).length = 16 * n := by
  induction n generalizing c with
  | zero => rfl
  | succ n ih => simp only [keyStream, List.length_append, length_aesEncryptWith, ih]; omega

theorem le_sixteen_mul_ceilDiv (n : Nat) : n ≤ 16 * ceilDiv n 16 := by
  simp only [ceilDiv, if_neg (by decide : ¬ 16 = 0)]; omega

theorem take_xorBytes (n : Nat) (a b : List Byte) : (xorBytes a b).take n = xorBytes (a.take n) b := by
  induction n generalizing a b with
  | zero => simp [xorBytes]
  | succ n ih => cases a with
    | nil => simp [xorBytes]
    | cons x a => cases b with
      | nil => simp [xorBytes]
      | cons y b => simpa [xorBytes] using ih a b

/-- The zeros that fill a last block are cut off with the text's length. -/
theorem take_length_slice (l : List Byte) (n : Nat) : (slice l 0 n).take l.length = l.take n := by
  rw [slice, List.drop_zero]
  rcases Nat.le_total l.length n with h | h
  · rw [List.take_of_length_le h, List.take_left]
  · rw [List.length_take, Nat.min_eq_left h, Nat.sub_self, List.replicate_zero, List.append_nil,
      List.take_of_length_le (List.length_take_le' _ _)]

theorem take_gctr_blocks16 (key nonce : List Byte) (c n : Nat) (l : List Byte) (h : l.length ≤ 16 * n) :
    (gctr (aesRoundKeys key) nonce c (blocks16 n l)).take l.length = xorBytes l (keyStream (aesRoundKeys key) nonce c n) := by
  induction n generalizing c l with
  | zero =>
    have hnil : l = [] := List.eq_nil_of_length_eq_zero (by omega)
    simp [hnil, xorBytes]
  | succ n ih =>
    have hrest := ih (c + 1) (l.drop 16) (by rw [List.length_drop]; omega)
    rw [List.length_drop] at hrest
    simp only [blocks16, gctr, keyStream]
    rw [xorBytes_append_right, List.take_append, take_xorBytes, take_length_slice, length_xorBytes, length_slice,
      length_aesEncryptWith, Nat.min_self, hrest]

/-- What counter mode makes of a text: the text XORed with its key stream. -/
theorem take_gctr (key nonce : List Byte) (c : Nat) (l : List Byte) :
    (gctr (aesRoundKeys key) nonce c (blocksOf l)).take l.length =
      xorBytes l (keyStream (aesRoundKeys key) nonce c (ceilDiv l.length 16)) :=
  take_gctr_blocks16 key nonce c _ l (le_sixteen_mul_ceilDiv _)

/-! ### GCM (R322, R323) -/

theorem length_gcmTag (key nonce aad ct : List Byte) : (gcmTag (aesRoundKeys key) nonce aad ct).length = 16 := by
  simp [gcmTag, length_aesEncryptWith]

theorem gcmEncrypt_eq (key nonce aad pt : List Byte) : gcmEncrypt key nonce aad pt =
    let ct := xorBytes pt (keyStream (aesRoundKeys key) nonce 2 (ceilDiv pt.length 16))
    (ct, gcmTag (aesRoundKeys key) nonce aad ct) := by
  simp only [gcmEncrypt, take_gctr]

@[simp] theorem length_gcmEncrypt_fst (key nonce aad pt : List Byte) :
    (gcmEncrypt key nonce aad pt).1.length = pt.length := by
  rw [gcmEncrypt_eq, length_xorBytes, length_keyStream]
  exact Nat.min_eq_left (le_sixteen_mul_ceilDiv _)

@[simp] theorem length_gcmEncrypt_snd (key nonce aad pt : List Byte) : (gcmEncrypt key nonce aad pt).2.length = 16 :=
  length_gcmTag _ _ _ _

/-- The tag is that of the same ciphertext, and the same key stream gives the text back. -/
theorem gcmDecrypt_gcmEncrypt (key nonce aad pt : List Byte) :
    gcmDecrypt key nonce aad (gcmEncrypt key nonce aad pt).1 (gcmEncrypt key nonce aad pt).2 = some pt := by
  have hlen := length_gcmEncrypt_fst key nonce aad pt
  rw [gcmDecrypt, take_gctr, hlen, gcmEncrypt_eq, if_pos rfl, xorBytes_xorBytes_right]
  rw [length_keyStream]
  exact le_sixteen_mul_ceilDiv _

end Sys2Proof.Machine
end

section
/-! SUPPORT. The 4,160 B of a sealed grain read back field by field (R169), and from these the statement. -/

namespace Sys2Proof.Machine

/-! ### Parts of a byte string -/

theorem slice_append_skip {a : List Byte} (b : List Byte) {i n : Nat} (h : a.length ≤ i) :
    slice (a ++ b) i n = slice b (i - a.length) n := by
  simp [slice, List.drop_append, List.drop_of_length_le h]

theorem slice_append_add {a : List Byte} (b : List Byte) {k : Nat} (h : a.length = k) (i n : Nat) :
    slice (a ++ b) (k + i) n = slice b i n := by
  rw [slice_append_skip _ (by omega), h, Nat.add_sub_cancel_left]

theorem slice_append_front {a : List Byte} (b : List Byte) {n : Nat} (h : a.length = n) : slice (a ++ b) 0 n = a := by
  simp [slice, ← h]

theorem slice_self {a : List Byte} {n : Nat} (h : a.length = n) : slice a 0 n = a := by
  simp [slice, ← h]

theorem leNat_replicate_zero (n : Nat) : leNat (List.replicate n 0) = 0 := by
  induction n with
  | zero => rfl
  | succ n ih =>
    rw [List.replicate_succ, leNat, ih]
    rfl

theorem leNat_append_zeros (l : List Byte) (n : Nat) : leNat (l ++ List.replicate n 0) = leNat l := by
  induction l with
  | nil => exact leNat_replicate_zero n
  | cons b l ih => rw [List.cons_append, leNat, leNat, ih]

theorem field_eq_leNat_slice (l : List Byte) (a n : Nat) : field l a n = leNat (slice l a n) :=
  (leNat_append_zeros _ _).symm

theorem leNat_leBytes_of_lt {n x : Nat} (h : x < 256 ^ n) : leNat (leBytes n x) = x := by
  rw [leNat_leBytes, Nat.mod_eq_of_lt h]

theorem crcOf_crc64_lt (m : List Byte) : crcOf crc64 m < 2 ^ 64 := by
  simp only [crcOf, crc64, if_true]
  exact Nat.xor_lt_two_pow (reflectBits_lt _ _) (by decide)

/-! ### The last word of the metadata: NONCE_FIXED, FORMAT, VALID_BYTES and LAST (R169) -/

/-- Bytes 56 to 63 of a data grain's metadata, as a number (R169). -/
def grainWord (valid : Nat) (fixed : BitVec 32) (last : Bool) : Nat :=
  fixed.toNat * 2 ^ 32 + 2 ^ 24 + valid * 2 ^ 8 + b2n last

theorem b2n_le_one (b : Bool) : b2n b ≤ 1 := by cases b <;> decide

section
variable {valid : Nat} (h : valid ≤ 4096) (fixed : BitVec 32) (last : Bool)
include h

theorem grainWord_lt : grainWord valid fixed last < 256 ^ 8 := by
  have := b2n_le_one last
  have := fixed.isLt
  unfold grainWord; omega

theorem grainWord_fixed : grainWord valid fixed last / 2 ^ 32 = fixed.toNat := by
  have := b2n_le_one last
  unfold grainWord; omega

theorem grainWord_valid : bits (grainWord valid fixed last) 20 8 = valid := by
  have := b2n_le_one last
  unfold bits grainWord; omega

end

theorem grainAad_eq (claim : Nat) (key : BitVec 128) (off valid : Nat) (fixed : BitVec 32) (last : Bool) :
    grainAad claim key off valid fixed last =
      extHash claim key ++ leBytes 8 off ++ leBytes 8 (grainWord valid fixed last) := rfl

@[simp] theorem length_grainAad (claim : Nat) (key : BitVec 128) (off valid : Nat) (fixed : BitVec 32) (last : Bool) :
    (grainAad claim key off valid fixed last).length = 32 := by
  simp [grainAad_eq, length_leBytes]

/-! ### The fields of a sealed grain (R169) -/

section
variable (aesKey : List Byte) (fixed : BitVec 32) (counter claim : Nat) (key : BitVec 128) (off : Nat) (last : Bool)
  (plain : List Byte)

/-- Ciphertext and tag of a data grain. -/
def grainCipher : List Byte × List Byte :=
  gcmEncrypt aesKey (dataNonce fixed counter) (grainAad claim key off plain.length fixed last) plain

theorem length_grainCipher_fst :
    (grainCipher aesKey fixed counter claim key off last plain).1.length = plain.length :=
  length_gcmEncrypt_fst _ _ _ _

theorem length_grainCipher_snd : (grainCipher aesKey fixed counter claim key off last plain).2.length = 16 :=
  length_gcmEncrypt_snd _ _ _ _

/-- The data bytes of a sealed grain: the ciphertext, then zeros. -/
def grainData : List Byte := padTo 4096 (grainCipher aesKey fixed counter claim key off last plain).1

/-- The metadata of a sealed grain. -/
def grainMeta : List Byte :=
  (grainCipher aesKey fixed counter claim key off last plain).2 ++ (leBytes 8 counter
    ++ (leBytes 8 (crcOf crc64 (grainData aesKey fixed counter claim key off last plain))
    ++ grainAad claim key off plain.length fixed last))

theorem sealGrain_eq : sealGrain aesKey fixed counter claim key off last plain =
    grainData aesKey fixed counter claim key off last plain ++ grainMeta aesKey fixed counter claim key off last plain := by
  simp only [grainMeta, ← List.append_assoc]
  rfl

theorem length_grainMeta : (grainMeta aesKey fixed counter claim key off last plain).length = 64 := by
  simp [grainMeta, length_grainCipher_snd, length_leBytes]

/-- The authenticated data are the metadata from byte 32 on. -/
theorem slice_grainMeta_aad (i n : Nat) : slice (grainMeta aesKey fixed counter claim key off last plain) (32 + i) n =
    slice (grainAad claim key off plain.length fixed last) i n := by
  have hlen : ((grainCipher aesKey fixed counter claim key off last plain).2 ++ leBytes 8 counter
      ++ leBytes 8 (crcOf crc64 (grainData aesKey fixed counter claim key off last plain))).length = 32 := by
    simp only [List.length_append, length_grainCipher_snd, length_leBytes]
  rw [grainMeta, ← List.append_assoc, ← List.append_assoc, slice_append_add _ hlen]

theorem slice_sealGrain_ciphertext : slice (sealGrain aesKey fixed counter claim key off last plain) 0 plain.length =
    (grainCipher aesKey fixed counter claim key off last plain).1 := by
  rw [sealGrain_eq, grainData, padTo, List.append_assoc, slice_append_front _ (length_grainCipher_fst ..)]

variable {aesKey fixed counter claim key off last plain} (h : plain.length ≤ 4096)
include h

theorem length_grainData : (grainData aesKey fixed counter claim key off last plain).length = 4096 :=
  length_padTo (Nat.le_trans (Nat.le_of_eq (length_grainCipher_fst ..)) h)

theorem imgData_sealGrain : imgData (sealGrain aesKey fixed counter claim key off last plain) =
    grainData aesKey fixed counter claim key off last plain := by
  rw [imgData, sealGrain_eq, slice_append_front _ (length_grainData h)]

theorem slice_sealGrain_metadata (i n : Nat) : slice (sealGrain aesKey fixed counter claim key off last plain) (4096 + i) n =
    slice (grainMeta aesKey fixed counter claim key off last plain) i n := by
  rw [sealGrain_eq, slice_append_add _ (length_grainData h)]

theorem slice_sealGrain_aad (i n : Nat) : slice (sealGrain aesKey fixed counter claim key off last plain) (4128 + i) n =
    slice (grainAad claim key off plain.length fixed last) i n := by
  rw [Nat.add_assoc 4096 32 i, slice_sealGrain_metadata h, slice_grainMeta_aad]

theorem imgMeta_sealGrain : imgMeta (sealGrain aesKey fixed counter claim key off last plain) =
    grainMeta aesKey fixed counter claim key off last plain := by
  rw [imgMeta, slice_sealGrain_metadata h 0, slice_self (length_grainMeta ..)]

theorem imgTag_sealGrain : imgTag (sealGrain aesKey fixed counter claim key off last plain) =
    (grainCipher aesKey fixed counter claim key off last plain).2 := by
  rw [imgTag, slice_sealGrain_metadata h 0, grainMeta, slice_append_front _ (length_grainCipher_snd ..)]

theorem imgCounter_sealGrain (hcounter : counter < 2 ^ 64) :
    imgCounter (sealGrain aesKey fixed counter claim key off last plain) = counter := by
  rw [imgCounter, field_eq_leNat_slice, slice_sealGrain_metadata h 16, grainMeta]
  simp only [slice_append_skip, slice_append_front, length_grainCipher_snd, length_leBytes, Nat.sub_self, Nat.le_refl]
  exact leNat_leBytes_of_lt hcounter

theorem imgCrc_sealGrain : imgCrc (sealGrain aesKey fixed counter claim key off last plain) =
    crcOf crc64 (grainData aesKey fixed counter claim key off last plain) := by
  rw [imgCrc, field_eq_leNat_slice, slice_sealGrain_metadata h 24, grainMeta]
  simp only [slice_append_skip, slice_append_front, length_grainCipher_snd, length_leBytes, Nat.reduceSub, Nat.reduceLeDiff]
  exact leNat_leBytes_of_lt (crcOf_crc64_lt _)

theorem crcMatches_sealGrain : crcMatches (sealGrain aesKey fixed counter claim key off last plain) = true := by
  rw [crcMatches, imgData_sealGrain h, imgCrc_sealGrain h, beq_self_eq_true]

theorem imgHash_sealGrain : imgHash (sealGrain aesKey fixed counter claim key off last plain) = extHash claim key := by
  rw [imgHash, slice_sealGrain_aad h 0, grainAad_eq, List.append_assoc, slice_append_front _ (length_extHash ..)]

theorem imgOffset_sealGrain (hoff : off < 2 ^ 64) :
    imgOffset (sealGrain aesKey fixed counter claim key off last plain) = off := by
  rw [imgOffset, field_eq_leNat_slice, slice_sealGrain_aad h 16, grainAad_eq, List.append_assoc]
  simp only [slice_append_skip, slice_append_front, length_extHash, length_leBytes, Nat.reduceSub, Nat.le_refl]
  exact leNat_leBytes_of_lt hoff

theorem imgWord_sealGrain : imgWord (sealGrain aesKey fixed counter claim key off last plain) =
    grainWord plain.length fixed last := by
  rw [imgWord, field_eq_leNat_slice, slice_sealGrain_aad h 24, grainAad_eq,
    slice_append_skip _ (by simp [length_leBytes])]
  simp only [List.length_append, length_extHash, length_leBytes, Nat.reduceAdd, Nat.sub_self]
  rw [slice_self (length_leBytes _ _), leNat_leBytes_of_lt (grainWord_lt h fixed last)]

theorem imgFixed_sealGrain : imgFixed (sealGrain aesKey fixed counter claim key off last plain) = fixed.toNat := by
  rw [imgFixed, imgWord_sealGrain h, grainWord_fixed h]

theorem imgValid_sealGrain : imgValid (sealGrain aesKey fixed counter claim key off last plain) = plain.length := by
  rw [imgValid, imgWord_sealGrain h, grainWord_valid h]

/-- The metadata ends with the authenticated data (R169, R170). -/
theorem slice_imgMeta_sealGrain : slice (imgMeta (sealGrain aesKey fixed counter claim key off last plain)) 32 32 =
    grainAad claim key off plain.length fixed last := by
  rw [imgMeta_sealGrain h, slice_grainMeta_aad (i := 0), slice_self (length_grainAad ..)]

/-! ### Opening and judging a sealed grain (R171, R214, R323) -/

/-- The map's expectation holds of the fields read back, and GCM opens what it sealed. -/
theorem openGrain_sealGrain (hcounter : counter < 2 ^ 64) (hoff : off < 2 ^ 64) :
    openGrain aesKey claim key off (sealGrain aesKey fixed counter claim key off last plain) = some plain := by
  have hexpect : (imgHash (sealGrain aesKey fixed counter claim key off last plain) == extHash claim key
      && imgOffset (sealGrain aesKey fixed counter claim key off last plain) == off && decide (plain.length ≤ 4096)) = true := by
    simp [imgHash_sealGrain h, imgOffset_sealGrain h hoff, h]
  have haad : slice (sealGrain aesKey fixed counter claim key off last plain) 4128 32 = _ :=
    (slice_sealGrain_aad h 0 32).trans (slice_self (length_grainAad ..))
  rw [openGrain, imgValid_sealGrain h, if_pos hexpect, imgFixed_sealGrain h,
    imgCounter_sealGrain h hcounter, haad, slice_sealGrain_ciphertext,
    imgTag_sealGrain h]
  exact gcmDecrypt_gcmEncrypt aesKey (dataNonce fixed counter) _ plain

theorem judge_sealGrain (hcounter : counter < 2 ^ 64) (hoff : off < 2 ^ 64) :
    judge aesKey claim key off (sealGrain aesKey fixed counter claim key off last plain) = .sound plain := by
  simp only [judge, openGrain_sealGrain h hcounter hoff, crcMatches_sealGrain h, if_true]

end

end Sys2Proof.Machine

open Sys2Proof.Machine

/-- Settles O55, from the fields of the sealed grain and from GCM's own inverse. -/
theorem sealedGrainOpens : Obligations.SealedGrainOpens := by
  unfold Obligations.SealedGrainOpens
  refine ⟨fun aesKey fixed counter claim off key last plain h hcounter hoff => ⟨?_, ?_⟩,
    fun claim off counter key aesKey plain fixed last => ⟨?_, rfl, rfl, fun h => ?_⟩⟩
  · exact openGrain_sealGrain h hcounter hoff
  · exact judge_sealGrain h hcounter hoff
  · rw [List.length_append, length_leBytes, length_leBytes]
  · exact slice_imgMeta_sealGrain h

end

section
/-! SUPPORT. The class of a tally as conditions on its distance from the floor (R226), and the floor passing released
tallies one by one (R227); from these the statement. -/

namespace Sys2Proof.Machine

/-! ### The class of a tally (R226) -/

theorem tallyClass_eq (t f : BitVec 32) : tallyClass t f =
    if (t - f).toNat < 4096 then .inWindow else if 2 ^ 31 ≤ (t - f).toNat then .below else .ahead := rfl

theorem tallyClass_eq_inWindow_iff (t f : BitVec 32) : tallyClass t f = .inWindow ↔ (t - f).toNat < 4096 := by
  rw [tallyClass_eq]
  by_cases hwindow : (t - f).toNat < 4096
  · exact iff_of_true (if_pos hwindow) hwindow
  · rw [if_neg hwindow]
    refine iff_of_false (fun heq => ?_) hwindow
    split at heq <;> cases heq

theorem tallyClass_eq_below_iff (t f : BitVec 32) : tallyClass t f = .below ↔ 2 ^ 31 ≤ (t - f).toNat := by
  rw [tallyClass_eq]
  by_cases hwindow : (t - f).toNat < 4096
  · rw [if_pos hwindow]
    exact iff_of_false (fun heq => by cases heq) (by omega)
  · rw [if_neg hwindow]
    by_cases hbelow : 2 ^ 31 ≤ (t - f).toNat
    · exact iff_of_true (if_pos hbelow) hbelow
    · rw [if_neg hbelow]
      exact iff_of_false (fun heq => by cases heq) hbelow

@[simp] theorem tallyClass_self (f : BitVec 32) : tallyClass f f = .inWindow := by
  simp [tallyClass_eq_inWindow_iff]

/-- The two distances between different tallies add up to `2 ^ 32`, so where one is short the other is long. -/
theorem tallyClass_eq_below_of_inWindow {t f : BitVec 32} (h : tallyClass t f = .inWindow) (hne : t ≠ f) :
    tallyClass f t = .below := by
  rw [tallyClass_eq_inWindow_iff] at h
  rw [tallyClass_eq_below_iff]
  bv_omega

/-! ### The floor (R227) -/

/-- The session with its floor one further: the tally the floor passes is no longer listed. -/
def Session.passFloor (s : Session) : Session :=
  { s with tallies := Tab.del s.tallies s.floor.toNat, floor := s.floor + 1 }

theorem advanceFloor_of_not_released (n : Nat) {s : Session} (h : Tab.get s.tallies s.floor.toNat ≠ some .released) :
    advanceFloor n s = s := by
  cases n with
  | zero => rfl
  | succ n =>
    unfold advanceFloor
    split
    · contradiction
    · rfl

theorem advanceFloor_succ_of_released (n : Nat) {s : Session} (h : Tab.get s.tallies s.floor.toNat = some .released) :
    advanceFloor (n + 1) s = advanceFloor n s.passFloor := by
  rw [advanceFloor, h]
  rfl

theorem Session.passFloor_floor_add (s : Session) (k : Nat) :
    s.passFloor.floor + BitVec.ofNat 32 k = s.floor + BitVec.ofNat 32 (k + 1) := by
  rw [passFloor, BitVec.add_assoc, BitVec.add_comm 1, BitVec.ofNat_add]
  rfl

/-- Short of a whole turn of the tallies, what the floor has not reached stands as it did, one nearer. -/
theorem Session.get_passFloor (s : Session) {k : Nat} (hk : k + 1 < 2 ^ 32) :
    Tab.get s.passFloor.tallies (s.passFloor.floor + BitVec.ofNat 32 k).toNat =
      Tab.get s.tallies (s.floor + BitVec.ofNat 32 (k + 1)).toNat := by
  have hne : (s.floor + BitVec.ofNat 32 (k + 1)).toNat ≠ s.floor.toNat := by bv_omega
  rw [passFloor_floor_add, passFloor, Tab.get_del, if_neg hne]

/-- The floor stops at the first tally that is not released. Each step passes one tally, so the number of released
tallies ahead of the floor falls with it. -/
theorem floor_advanceFloor {m n : Nat} (x : Session) (hmn : m < n) (hm : m < 2 ^ 32)
    (hreleased : ∀ k, k < m → Tab.get x.tallies (x.floor + BitVec.ofNat 32 k).toNat = some .released)
    (hstop : Tab.get x.tallies (x.floor + BitVec.ofNat 32 m).toNat ≠ some .released) :
    (advanceFloor n x).floor = x.floor + BitVec.ofNat 32 m := by
  induction m generalizing n x with
  | zero =>
    simp only [BitVec.add_zero] at hstop ⊢
    rw [advanceFloor_of_not_released n hstop]
  | succ m ih =>
    obtain ⟨n, rfl⟩ := Nat.exists_eq_add_one_of_ne_zero (Nat.ne_zero_of_lt hmn)
    have hfloor : Tab.get x.tallies x.floor.toNat = some .released := by
      simpa using hreleased 0 m.succ_pos
    rw [advanceFloor_succ_of_released n hfloor, ← x.passFloor_floor_add]
    refine ih x.passFloor (by omega) (by omega) (fun k hk => ?_) ?_
    · rw [x.get_passFloor (by omega)]
      exact hreleased (k + 1) (by omega)
    · rwa [x.get_passFloor hm]

end Sys2Proof.Machine

open Sys2Proof.Machine

/-- Settles O46, by induction on the number of released tallies at the floor. -/
theorem tallyWindow : Obligations.TallyWindow := by
  unfold Obligations.TallyWindow
  refine fun t f n x => ⟨tallyClass_eq_inWindow_iff t f, tallyClass_eq_below_iff t f, tallyClass_self f,
    tallyClass_eq_below_of_inWindow, advanceFloor_of_not_released n, fun m hmn hreleased hstop hn => ?_⟩
  exact floor_advanceFloor x hmn (by omega) hreleased hstop

end


section
/-! SUPPORT. What holds across every command: how the clock may move, that the window memory stays canonical, that the
lifecycle and the firmware floor never go back; operation by operation, then one arm for every command. -/

namespace Sys2Proof.Machine

/-! ### The clock between bells -/

/-- The clock may go on within the bell, and a peal may get another length, but no bell is counted. -/
def Clock.Holds (c d : Clock) : Prop :=
  d.bell = c.bell ∧ d.elapsed = c.elapsed ∧ d.bellInPeal = c.bellInPeal ∧ c.ns ≤ d.ns ∧ (c.Sound → d.Sound)

theorem Clock.Holds.refl (c : Clock) : c.Holds c := ⟨rfl, rfl, rfl, (Nat.le_refl _), id⟩

theorem Clock.Holds.trans {c d e : Clock} (h : c.Holds d) (k : d.Holds e) : c.Holds e := by
  obtain ⟨hbell, helapsed, hpeal, hns, hsound⟩ := h
  obtain ⟨kbell, kelapsed, kpeal, kns, ksound⟩ := k
  exact ⟨kbell.trans hbell, kelapsed.trans helapsed, kpeal.trans hpeal, Nat.le_trans hns kns, ksound ∘ hsound⟩

theorem Clock.Holds.of_eq {c d : Clock} (h : d = c) : c.Holds d := h ▸ .refl c

theorem Clock.holds_ages (c : Clock) (b : Bool) : c.Holds { c with ages := b } := ⟨rfl, rfl, rfl, (Nat.le_refl _), id⟩

/-- A peal that gets a length it may have, and that holds the bell in progress. -/
theorem Clock.holds_pealLen (c : Clock) {n : Nat} (h : c.Sound → c.bellInPeal < n ∧ 7813 ≤ n ∧ n ≤ 23437) :
    c.Holds { c with pealLen := n } :=
  ⟨rfl, rfl, rfl, (Nat.le_refl _), fun hc => ⟨hc.1, h hc⟩⟩

theorem Clock.tick_sound {c : Clock} (b : Bool) (h : c.Sound) : (c.tick b).Sound := by
  obtain ⟨-, hpeal, hmin, hmax⟩ := h
  simp only [Clock.tick, Clock.Sound, pealBells]
  grind

/-- No bell is counted between two states of the device. -/
def Dev.Holds (v w : Dev) : Prop := v.clk.Holds w.clk

theorem Dev.Holds.refl (v : Dev) : v.Holds v := Clock.Holds.refl _

theorem Dev.Holds.trans {v w x : Dev} (h : v.Holds w) (k : w.Holds x) : v.Holds x := Clock.Holds.trans h k

theorem Dev.Holds.of_eq {v w : Dev} (h : w.clk = v.clk) : v.Holds w := Clock.Holds.of_eq h

theorem Dev.Holds.of_ages {v w : Dev} {b : Bool} (h : w.clk = { v.clk with ages := b }) : v.Holds w := by
  rw [Dev.Holds, h]
  exact v.clk.holds_ages b

/-- Peels an operation that leaves the clock alone. -/
theorem Dev.Holds.same {v w x : Dev} (h : v.Holds w) (k : x.Same w) : v.Holds x := h.trans (.of_eq k.2.1)

theorem Dev.Holds.setMode {v w : Dev} (h : v.Holds w) (m : Mode) : v.Holds (w.setMode m) :=
  h.trans (.of_eq (w.setMode_keeps m).2.1)

theorem Dev.reachNs_holds (v : Dev) (n : Nat) : v.Holds (v.reachNs n) := by
  refine ⟨rfl, rfl, rfl, Nat.le_max_left _ _, fun hc => ⟨?_, hc.2⟩⟩
  have := hc.1
  simp only [Dev.reachNs]
  omega

theorem Dev.enterServing_holds (v : Dev) : v.Holds v.enterServing := by
  refine .of_ages (b := true) ?_
  unfold Dev.enterServing
  simp [Dev.setMode_keeps, Dev.openJournal_keeps]

theorem Dev.detectLoss_holds (v : Dev) : v.Holds v.detectLoss := by
  refine .of_ages (b := false) ?_
  unfold Dev.detectLoss
  simp [Dev.holdPower_keeps, Dev.stopJobs_keeps, Dev.endFloder_keeps, Dev.freeze_keeps, Dev.holdStored_keeps]

theorem Dev.offReady_clk (v : Dev) : v.offReady.clk = { v.clk with ages := false } := by
  unfold Dev.offReady
  simp [Dev.bayGatesOff_keeps]

theorem Dev.enterVault_holds (v : Dev) : v.Holds v.enterVault := by
  unfold Dev.enterVault
  dsimp only
  refine .setMode ?_ _
  refine .trans ?_ (.of_eq (v := Dev.gatherAll _ _) rfl)
  refine .same ?_ (Dev.gatherAll_keeps _ _)
  split
  · exact v.detectLoss_holds
  · exact .refl _

theorem Dev.enterFenced_clk (v : Dev) : v.enterFenced.clk = v.clk ∨ v.enterFenced.clk = { v.clk with ages := false } := by
  unfold Dev.enterFenced
  grind [Dev.bayGatesOff_keeps, Dev.stopJobs_keeps, Dev.freeze_keeps, Dev.holdStored_keeps, Dev.fenceSettle_keeps,
    Dev.dropKeyCopies_keeps, Dev.setMode_keeps]

theorem Dev.enterFenced_holds (v : Dev) : v.Holds v.enterFenced := v.enterFenced_clk.elim .of_eq .of_ages

theorem Dev.leaveDrain_holds (v : Dev) : v.Holds v.leaveDrain := by
  unfold Dev.leaveDrain
  dsimp only
  refine .same ?_ (foldl_same _ (fun x w => ?_) _ _)
  · split
    · exact .setMode (.of_eq rfl) _
    · exact .trans (.of_eq rfl) (Dev.enterServing_holds _)
  · split
    · exact Dev.arrive_keeps _ _ _
    · exact .rfl

theorem Dev.retireEnd_holds (v : Dev) (id : Nat) (bays : List Nat) : v.Holds (v.retireEnd id bays) := by
  unfold Dev.retireEnd
  dsimp only
  exact .same (.of_ages v.offReady_clk) (Dev.finishOk_keeps _ _ _ _ _)

theorem Dev.inputLoss_holds (v : Dev) : v.Holds v.inputLoss := by
  unfold Dev.inputLoss
  split
  · exact .same (.same (.refl _) (foldl_same _ (fun x c => Dev.stopAssay_keeps x c) _ v)) (Dev.modeEvent_keeps _ _)
  · split
    · exact v.detectLoss_holds.same (Dev.modeEvent_keeps _ _)
    · exact .refl _

theorem Dev.shutdownEnd_holds (v : Dev) : v.Holds v.shutdownEnd := by
  refine .of_ages (b := false) ?_
  unfold Dev.shutdownEnd
  grind [Dev.finishOk_keeps, Dev.offReady_clk, Dev.allWritten_keeps, Dev.writeMarker_keeps, Dev.flushBays_keeps,
    Dev.writeImage_keeps, Dev.journalDone_keeps, Dev.startImage_keeps, Dev.closeJournal_keeps]

theorem Dev.enterP3_holds (v : Dev) : v.Holds v.enterP3 := by
  refine Clock.Holds.trans (v.clk.holds_ages false) (Clock.holds_pealLen _ fun h => ?_)
  obtain ⟨-, hpeal, -, hmax⟩ := h
  simp only [pealBells] at *
  omega

theorem Dev.askedResets_holds (v : Dev) : v.Holds v.askedResets := by
  have hstandby : ∀ w : Dev, v.Holds w → v.Holds
      (if w.sec.standbyAsked && w.replyGone 0x0108 && w.mode == .drain && w.chip.drain.offReady then w.enterP3 else w) := by
    intro w hw
    split
    · exact hw.trans w.enterP3_holds
    · exact hw
  unfold Dev.askedResets
  refine hstandby _ ?_
  split
  · exact .of_eq rfl
  · exact .refl v

/-! ### What every command upholds -/

/-- The window memory stays canonical and the clock sound, and neither the lifecycle nor the firmware floor goes back. -/
def Dev.Upholds (v w : Dev) : Prop :=
  (Memory.wf v.winMem = true → Memory.wf w.winMem = true) ∧ (v.clk.Sound → w.clk.Sound) ∧
  v.sec.lifecycle.code ≤ w.sec.lifecycle.code ∧ v.sec.floor.toNat ≤ w.sec.floor.toNat

theorem Dev.Upholds.refl (v : Dev) : v.Upholds v := ⟨id, id, Nat.le_refl _, Nat.le_refl _⟩

theorem Dev.Upholds.trans {v w x : Dev} (h : v.Upholds w) (k : w.Upholds x) : v.Upholds x := by
  obtain ⟨hmem, hclk, hlife, hfloor⟩ := h
  obtain ⟨kmem, kclk, klife, kfloor⟩ := k
  exact ⟨kmem ∘ hmem, kclk ∘ hclk, Nat.le_trans hlife klife, Nat.le_trans hfloor kfloor⟩

/-- What leaves the window memory, the lifecycle and the floor alone and only holds the clock. -/
theorem Dev.Upholds.of_holds {v w : Dev} (hmem : w.winMem = v.winMem) (hclk : v.Holds w)
    (hlife : w.sec.lifecycle = v.sec.lifecycle) (hfloor : w.sec.floor = v.sec.floor) : v.Upholds w :=
  ⟨fun h => hmem ▸ h, hclk.2.2.2.2, hlife ▸ Nat.le_refl _, hfloor ▸ Nat.le_refl _⟩

theorem Dev.Same.upholds {v w : Dev} (h : w.Same v) : v.Upholds w := by
  obtain ⟨hmem, hclk, -, -, -, hlife, hfloor⟩ := h
  exact .of_holds hmem (.of_eq hclk) hlife hfloor

/-- Peels an operation that leaves all of this alone. -/
theorem Dev.Upholds.same {v w x : Dev} (h : v.Upholds w) (k : x.Same w) : v.Upholds x := h.trans k.upholds

theorem foldl_upholds {α : Type} {f : Dev → α → Dev} (h : ∀ (x : Dev) a, x.Upholds (f x a)) (l : List α) (v : Dev) :
    v.Upholds (l.foldl f v) := by
  induction l generalizing v with
  | nil => exact .refl v
  | cons a l ih => exact (h v a).trans (ih (f v a))

theorem Lifecycle.code_le_two (l : Lifecycle) : l.code ≤ 2 := by cases l <;> decide

/-- A fuse blown to a state no earlier than the lifecycle moves it forward at most. -/
theorem Dev.blowFuses_lifecycle (v : Dev) {l : Lifecycle} (h : v.sec.lifecycle.code ≤ l.code) :
    v.sec.lifecycle.code ≤ (v.blowFuses l).sec.lifecycle.code := by
  simp only [Security.lifecycle, Dev.blowFuses] at *
  grind

theorem Dev.freeWindow_winMem_wf (v : Dev) (n : Nat) (h : Memory.wf v.winMem = true) :
    Memory.wf (v.freeWindow n).winMem = true := by
  unfold Dev.freeWindow
  split
  · exact h
  · dsimp only
    rw [foldl_winMem _ (fun x c => (Dev.finishOk_keeps x c _ _ _).1), foldl_winMem _ (fun x c => (Dev.fail_keeps x c _).1)]
    exact memClear_wf _ _ _ h

theorem Dev.freeWindow_upholds (v : Dev) (n : Nat) : v.Upholds (v.freeWindow n) := by
  obtain ⟨hclk, -, -, -, hlife, hfloor⟩ := v.freeWindow_keeps n
  exact ⟨v.freeWindow_winMem_wf n, fun h => hclk ▸ h, hlife ▸ Nat.le_refl _, hfloor ▸ Nat.le_refl _⟩

theorem Dev.freeWindows_upholds (ws : List Nat) (v : Dev) : v.Upholds (ws.foldl (fun x w => x.freeWindow w) v) :=
  foldl_upholds Dev.freeWindow_upholds ws v

theorem Dev.loseSpire_upholds (v : Dev) (s : Nat) : v.Upholds (v.loseSpire s) := by
  unfold Dev.loseSpire
  dsimp only
  refine .same ?_ (Dev.partFails_keeps _ _)
  refine .same ?_ (Dev.sliceGoes_keeps _ _)
  refine .same ?_ (Dev.setScrub_keeps _ _ _)
  refine .same ?_ (Dev.setSpire_keeps _ _ _)
  refine .same ?_ (Dev.handOver_keeps _ _)
  refine .trans ?_ (Dev.freeWindows_upholds _ _)
  exact .same (.of_holds rfl (.of_eq rfl) rfl rfl) (Dev.loseStack_keeps _ _)

theorem Dev.spireBell_upholds (v : Dev) (s : Nat) : v.Upholds (v.spireBell s) := by
  unfold Dev.spireBell
  split
  · exact .refl v
  · dsimp only
    split
    · exact (Dev.parkDone_keeps _ _).upholds
    · split
      · refine (v.loseSpire_upholds s).trans ?_
        split
        · exact (Dev.dropRecov_keeps _ _).upholds
        · exact .refl _
      · exact .refl v

/-! ### Mode changes -/

theorem Dev.setMode_upholds (v : Dev) (m : Mode) : v.Upholds (v.setMode m) := by
  obtain ⟨hmem, hclk, -, -, hlife, hfloor⟩ := v.setMode_keeps m
  exact .of_holds hmem (.of_eq hclk) hlife hfloor

theorem Dev.enterServing_upholds (v : Dev) : v.Upholds v.enterServing := by
  obtain ⟨hmem, -, -, hlife, hfloor⟩ := v.enterServing_keeps
  exact .of_holds hmem v.enterServing_holds hlife hfloor

theorem Dev.enterVault_upholds (v : Dev) : v.Upholds v.enterVault := by
  obtain ⟨hmem, -, -, hlife, hfloor⟩ := v.enterVault_keeps
  exact .of_holds hmem v.enterVault_holds hlife hfloor

theorem Dev.enterFenced_upholds (v : Dev) : v.Upholds v.enterFenced := by
  obtain ⟨hmem, -, -, hlife, hfloor⟩ := v.enterFenced_keeps
  exact .of_holds hmem v.enterFenced_holds hlife hfloor

theorem Dev.enterDrain_upholds (v : Dev) (p : DrainPurpose) (retire : Bool) (cmd : Option Nat) :
    v.Upholds (v.enterDrain p retire cmd) := by
  obtain ⟨hmem, hclk, -, -, hlife, hfloor⟩ := v.enterDrain_keeps p retire cmd
  exact .of_holds hmem (.of_eq hclk) hlife hfloor

theorem Dev.leaveDrain_upholds (v : Dev) : v.Upholds v.leaveDrain := by
  obtain ⟨hmem, -, -, hlife, hfloor⟩ := v.leaveDrain_keeps
  exact .of_holds hmem v.leaveDrain_holds hlife hfloor

theorem Clock.reset_sound : Clock.reset.Sound := by
  simp [Clock.Sound, Clock.reset]

theorem Dev.enterHeld_upholds (v : Dev) : v.Upholds v.enterHeld := by
  obtain ⟨hmem, hclk, -, -, hlife, hfloor⟩ := v.enterHeld_keeps
  exact ⟨fun _ => hmem ▸ rfl, fun _ => hclk ▸ Clock.reset_sound, hlife ▸ Nat.le_refl _, hfloor ▸ Nat.le_refl _⟩

theorem Dev.applyUpdate_upholds (v : Dev) (u : Update) : v.Upholds (v.applyUpdate u) := by
  obtain ⟨hmem, hclk, -, -, hlife, hfloor⟩ := v.applyUpdate_keeps u
  exact .of_holds hmem (.of_eq hclk) hlife hfloor

theorem Dev.dropUpdates_upholds (v : Dev) : v.Upholds v.dropUpdates := by
  unfold Dev.dropUpdates
  refine .trans (w := List.foldl _ (List.foldl _ v _) _) ?_ (.of_holds rfl (.of_eq rfl) rfl rfl)
  exact (foldl_upholds Dev.applyUpdate_upholds _ v).trans (Dev.freeWindows_upholds _ _)

/-- What a warm chip reset frees before it resets the blocks. -/
theorem Dev.warmReset_upholds (v : Dev) : v.Upholds v.warmReset := by
  have hfree : ∀ ws qs : List Nat, v.Upholds (qs.foldl (fun x q => x.releaseQp q)
      (ws.foldl (fun x w => x.freeWindow w) v.freeze.endFloder.stopSettling.dropUpdates)).holdAll := fun ws qs => by
    refine .same ?_ (Dev.holdAll_keeps _)
    refine .same ?_ (foldl_same _ (fun x q => Dev.releaseQp_keeps x q) _ _)
    refine .trans ?_ (Dev.freeWindows_upholds _ _)
    refine .trans ?_ (Dev.dropUpdates_upholds _)
    refine .same ?_ (Dev.stopSettling_keeps _)
    exact .same (.same (.refl v) (Dev.freeze_keeps _)) (Dev.endFloder_keeps _)
  obtain ⟨hlife, hfloor⟩ := v.warmReset_keeps
  refine ⟨fun h => ?_, fun h => ?_, hlife ▸ Nat.le_refl _, hfloor ▸ Nat.le_refl _⟩
  · unfold Dev.warmReset
    rw [(Dev.setMode_keeps _ _).1]
    exact (hfree _ _).1 h
  · unfold Dev.warmReset
    rw [(Dev.setMode_keeps _ _).2.1]
    exact (hfree _ _).2.1 h

theorem Dev.replay_sec (v : Dev) : v.replay.sec.floor = v.sec.floor := by
  unfold Dev.replay
  have hj := v.replayJournal_keeps.2.2.2.2.2.2
  dsimp only
  split
  · split <;> rfl
  · split
    · exact hj
    · rfl

theorem Dev.replay_upholds (v : Dev) : v.Upholds v.replay := by
  obtain ⟨hmem, hclk, -, -, -, hlife⟩ := v.replay_keeps
  exact .of_holds hmem (.of_eq hclk) hlife v.replay_sec

theorem Dev.enterSurvey_upholds (v : Dev) : v.Upholds v.enterSurvey := by
  have hpaths : ∀ (ns ks : List Nat) (x : Dev), (ns.foldl (fun x n => ks.foldl (fun y k => y.upPaths n k) x) x).Same x :=
    fun ns ks x => foldl_same _ (fun x n => foldl_same _ (fun y k => Dev.upPaths_keeps y n k) ks x) ns x
  unfold Dev.enterSurvey
  dsimp only
  refine .same ?_ (hpaths _ _ _)
  refine .same ?_ (Dev.gatherAll_keeps _ _)
  refine .same ?_ (Dev.severeDone_keeps _)
  refine .trans ?_ (Dev.setMode_upholds _ _)
  have hopen := (Dev.startSpires_keeps v).upholds.trans (Dev.replay_upholds _)
  exact hopen.trans (Dev.freeWindows_upholds _ _)

theorem Dev.takeEvent_upholds (v : Dev) (e : ModeEvent) : v.Upholds (v.takeEvent e) := by
  cases e <;> simp only [Dev.takeEvent]
  case supplyBelow =>
    split
    · exact .refl v
    · exact v.enterHeld_upholds
  case fatal =>
    split
    · exact v.enterFenced_upholds
    · exact .refl v
  case powerLoss =>
    split
    · exact (Dev.humGatesOff_keeps v).upholds
    · split
      · exact v.enterVault_upholds
      · split
        · exact (Dev.adjBoot_keeps _ _).upholds
        · exact .refl v
  case resetLong =>
    split
    · split
      · exact v.enterHeld_upholds
      · exact v.enterVault_upholds
    · split
      · split
        · exact (Dev.adjBoot_keeps _ _).upholds
        · exact v.enterHeld_upholds
      · exact .refl v
  case warmReset =>
    split
    · exact v.warmReset_upholds
    · exact .refl v
  case bootDone =>
    split
    · split
      · exact v.enterSurvey_upholds.trans (Dev.enterVault_upholds _)
      · exact v.enterSurvey_upholds
    · split
      · refine .same ?_ (Dev.fenceSettle_keeps _)
        refine .same ?_ (Dev.dropKeyCopies_keeps _)
        refine .same ?_ (Dev.adjBoot_keeps _ _)
        exact (Dev.startSpires_keeps v).upholds.trans (Dev.replay_upholds _)
      · exact .refl v
  case surveyDone =>
    split
    · exact v.enterServing_upholds
    · exact .refl v
  case vaultDone =>
    split
    · exact v.warmReset_upholds
    · exact .refl v
  case endDrain =>
    split
    · exact v.leaveDrain_upholds
    · exact .refl v
  case partFault =>
    split
    · exact v.setMode_upholds _
    · exact .refl v
  case repaired =>
    split
    · exact v.setMode_upholds _
    · exact .refl v
  case debugOpen =>
    split
    · exact v.enterDrain_upholds _ _ _
    · exact .refl v
  case toService =>
    split
    · exact v.enterServing_upholds
    · exact .refl v
  case resume =>
    split
    · exact v.leaveDrain_upholds
    · exact .refl v
  case shutdown =>
    split
    · exact v.enterDrain_upholds _ _ _
    · exact .refl v
  case activate =>
    split
    · exact v.enterDrain_upholds _ _ _
    · exact .refl v

theorem Dev.takeEvents_upholds (v : Dev) : v.Upholds v.takeEvents := by
  unfold Dev.takeEvents
  refine .same ?_ (foldl_same _ (fun x c => ?_) _ _)
  · refine .same ?_ (foldl_same _ (fun x c => Dev.finishOk_keeps _ _ _ _ _) _ _)
    refine .trans ?_ (foldl_upholds Dev.takeEvent_upholds _ _)
    exact .of_holds rfl (.of_eq rfl) rfl rfl
  · split
    · exact .rfl
    · exact Dev.fail_keeps _ _ _

/-! ### The bell -/

theorem Dev.tick_upholds (v : Dev) : v.Upholds v.tick := by
  obtain ⟨hmem, -, -, hlife, hfloor⟩ := v.tick_keeps
  exact ⟨fun h => hmem ▸ h, Clock.tick_sound _, hlife ▸ Nat.le_refl _, hfloor ▸ Nat.le_refl _⟩

theorem Dev.takeStaged_upholds (v : Dev) (p : Nat) : v.Upholds (v.takeStaged p) := by
  obtain ⟨hmem, hclk, -, hlife, hfloor⟩ := v.takeStaged_keeps p
  exact .of_holds hmem (.of_eq hclk) hlife hfloor

theorem Dev.switchAll_upholds (v : Dev) : v.Upholds v.switchAll := by
  obtain ⟨hmem, hclk, -, -, hlife, hfloor⟩ := v.switchAll_keeps
  exact .of_holds hmem (.of_eq hclk) hlife hfloor

theorem Dev.creditBell_upholds (v : Dev) : v.Upholds v.creditBell := by
  obtain ⟨hmem, hclk, -, -, hlife, hfloor⟩ := v.creditBell_keeps
  exact .of_holds hmem (.of_eq hclk) hlife hfloor

theorem Dev.askedResets_upholds (v : Dev) : v.Upholds v.askedResets := by
  obtain ⟨hmem, -, -, hlife, hfloor⟩ := v.askedResets_keeps
  exact .of_holds hmem v.askedResets_holds hlife hfloor

theorem Dev.strokeZero_upholds (v : Dev) : v.Upholds v.strokeZero := by
  unfold Dev.strokeZero
  refine .same ?_ (Dev.showStatus_keeps _)
  refine .same ?_ (Dev.hfBell_keeps _)
  refine .same ?_ (Dev.epBell_keeps _)
  refine .same ?_ (Dev.bayBell_keeps _)
  refine .same ?_ (Dev.reap_keeps _)
  refine .same ?_ (Dev.readBell_keeps _)
  refine .same ?_ (Dev.closeBell_keeps _)
  refine .same ?_ (foldl_same _ (fun x s => (Dev.idleBell_keeps _ s).trans ((Dev.serveRoom_keeps _ s).trans
    (Dev.runSched_keeps x s))) _ _)
  refine .same ?_ (Dev.grantBell_keeps _)
  refine .trans ?_ (Dev.takeEvents_upholds _)
  refine .trans ?_ (Dev.askedResets_upholds _)
  refine .same ?_ (Dev.swapBell_keeps _)
  refine .same ?_ (Dev.debugBell_keeps _)
  refine .same ?_ (Dev.fixHums_keeps _)
  refine .same ?_ (Dev.vaultBell_keeps _)
  refine .trans ?_ (foldl_upholds Dev.spireBell_upholds _ _)
  refine .same ?_ (Dev.faultBell_keeps _)
  refine .same ?_ (Dev.leaseBell_keeps _)
  refine .same ?_ (Dev.portBell_keeps _)
  refine .same ?_ (Dev.holdBell_keeps _)
  refine .trans ?_ (Dev.creditBell_upholds _)
  refine .same ?_ (Dev.takeReturns_keeps _)
  refine .trans ?_ (Dev.switchAll_upholds _)
  refine .trans ?_ (foldl_upholds Dev.takeStaged_upholds _ _)
  exact (Dev.counterBell_keeps _).upholds

end Sys2Proof.Machine
end


section
/-! SUPPORT. The frame of every command: what it may touch of the window memory, the clock, the mode and the values in force,
and that it upholds the rest. Each family of commands that leave out one part has one lemma. -/

namespace Sys2Proof.Machine

/-! ### What a command may touch -/

/-- Commands that write window memory (R250, R252, R343), and those whose resets clear it. -/
def writesWindows : Instr → Bool
  | .windowWritePacket _ | .revokeDrainComplete _ | .jtagDebugAccess _ | .bellBoundary | .activationDrainEnter => true
  | _ => false

/-- Commands that set the clock (R61, R68, R84). -/
def setsClock : Instr → Bool
  | .bellBoundary | .timeStep | .powerOn _ | .activationDrainEnter => true
  | _ => false

/-- Commands that change the mode (R85, R87). -/
def changesMode : Instr → Bool
  | .bellBoundary | .powerOn _ | .activationDrainEnter => true
  | _ => false

/-- Commands that change a value in force (R75, R77, R80). -/
def changesRegs : Instr → Bool
  | .bellBoundary | .activationDrainEnter | .stagedCommitTakeEffect _ | .gateListSwitch _ _ | .epReset _ | .flrComplete _
  | .unparkRestartComplete _ | .tableVersionSwitch _ _ | .tableUpdateUnblock _ _ => true
  | _ => false

/-- What a command leaves of the device, each part where the command may not touch it. -/
structure Leaves (c : Instr) (v w : Dev) : Prop where
  winMem : writesWindows c = false → w.winMem = v.winMem
  clk : setsClock c = false → v.Holds w
  mode : changesMode c = false → w.mode = v.mode
  active : changesRegs c = false → w.regs.active = v.regs.active
  upholds : v.Upholds w

/-! ### Families of commands -/

section
variable {c : Instr} {v w : Dev}

theorem Leaves.of_same (h : w.Same v) : Leaves c v w where
  winMem _ := h.1
  clk _ := .of_eq h.2.1
  mode _ := h.2.2.1
  active _ := h.2.2.2.2.1
  upholds := h.upholds

/-- Commands of the servo. -/
theorem Leaves.of_servo (h : w.winMem = v.winMem ∧ w.clk = v.clk ∧ w.chip.mode.mode = v.chip.mode.mode ∧
    w.regs.active = v.regs.active ∧ w.sec.lifecycle = v.sec.lifecycle ∧ w.sec.floor = v.sec.floor) : Leaves c v w := by
  obtain ⟨hmem, hclk, hmode, hregs, hlife, hfloor⟩ := h
  exact ⟨fun _ => hmem, fun _ => .of_eq hclk, fun _ => hmode, fun _ => hregs, .of_holds hmem (.of_eq hclk) hlife hfloor⟩

/-- Commands that say where in the bell the clock stands, or that end the ageing of records. -/
theorem Leaves.of_clock (h : w.winMem = v.winMem ∧ w.chip.mode.mode = v.chip.mode.mode ∧ w.chip.servo = v.chip.servo ∧
    w.regs.active = v.regs.active ∧ w.sec.lifecycle = v.sec.lifecycle ∧ w.sec.floor = v.sec.floor)
    (hclk : v.Holds w) : Leaves c v w := by
  obtain ⟨hmem, hmode, -, hregs, hlife, hfloor⟩ := h
  exact ⟨fun _ => hmem, fun _ => hclk, fun _ => hmode, fun _ => hregs, .of_holds hmem hclk hlife hfloor⟩

/-- Commands that bring values in force. -/
theorem Leaves.of_page (hc : changesRegs c = true) (h : w.winMem = v.winMem ∧ w.clk = v.clk ∧
    w.chip.mode.mode = v.chip.mode.mode ∧ w.sec.lifecycle = v.sec.lifecycle ∧ w.sec.floor = v.sec.floor) : Leaves c v w := by
  obtain ⟨hmem, hclk, hmode, hlife, hfloor⟩ := h
  exact ⟨fun _ => hmem, fun _ => .of_eq hclk, fun _ => hmode, fun hn => absurd (hc.symm.trans hn) (by decide),
    .of_holds hmem (.of_eq hclk) hlife hfloor⟩

theorem Leaves.of_regs (hc : changesRegs c = true) (h : w.winMem = v.winMem ∧ w.clk = v.clk ∧
    w.chip.mode.mode = v.chip.mode.mode ∧ w.chip.servo = v.chip.servo ∧ w.sec.lifecycle = v.sec.lifecycle ∧
    w.sec.floor = v.sec.floor) : Leaves c v w := by
  obtain ⟨hmem, hclk, hmode, -, hlife, hfloor⟩ := h
  exact .of_page hc ⟨hmem, hclk, hmode, hlife, hfloor⟩

/-- Commands that write window memory. -/
theorem Leaves.of_window (hc : writesWindows c = true) (h : w.clk = v.clk ∧ w.chip.mode.mode = v.chip.mode.mode ∧
    w.chip.servo = v.chip.servo ∧ w.regs.active = v.regs.active ∧ w.sec.lifecycle = v.sec.lifecycle ∧
    w.sec.floor = v.sec.floor) (hwf : Memory.wf v.winMem = true → Memory.wf w.winMem = true) : Leaves c v w := by
  obtain ⟨hclk, hmode, -, hregs, hlife, hfloor⟩ := h
  exact ⟨fun hn => absurd (hc.symm.trans hn) (by decide), fun _ => .of_eq hclk, fun _ => hmode, fun _ => hregs,
    hwf, fun h => hclk ▸ h, hlife ▸ Nat.le_refl _, hfloor ▸ Nat.le_refl _⟩

end

/-! ### The commands that hold the clock -/

/-- A command is a change of the device alone. -/
theorem State.on_dev {s t : State} {f : Dev → Dev} (h : s.on f = .next t) : t.dev = f s.dev := by
  rw [State.on, Host.Outcome.next.injEq] at h
  exact h ▸ rfl

section
variable (s t : State)

theorem execResetNLongLow_clock (h : execResetNLongLow s = .next t) : s.dev.Holds t.dev := by
  rw [State.on_dev h]
  split
  · exact .of_eq (Dev.modeEvent_keeps _ _).2.1
  · split
    · refine .same ?_ (Dev.modeEvent_keeps _ _)
      split
      · exact .refl _
      · exact s.dev.detectLoss_holds
    · exact .refl _

theorem execInputPowerLoss_clock (h : execInputPowerLoss s = .next t) : s.dev.Holds t.dev := by
  rw [State.on_dev h]
  exact s.dev.inputLoss_holds

theorem execCreditCompute_clock (h : execCreditCompute s = .next t) : s.dev.Holds t.dev := by
  rw [State.on_dev h]
  dsimp only
  split
  · exact s.dev.reachNs_holds 448
  · split
    · exact (s.dev.reachNs_holds 448).trans (.of_eq (Dev.countKeep_keeps _ _ _ _).2.1)
    · exact s.dev.reachNs_holds 448

theorem execKeepOutputCompare_clock (stroke : Fin 8) (miscompare : Bool) (output : BitVec 32)
    (h : execKeepOutputCompare stroke miscompare output s = .next t) : s.dev.Holds t.dev := by
  rw [State.on_dev h]
  dsimp only
  have hns := s.dev.reachNs_holds (64 * stroke.val)
  split
  · exact hns
  · split
    · exact hns.trans (.of_eq (Dev.fault_keeps _ _ _ _ _ _ _).2.1)
    · exact hns

theorem execHotSwapSample_clock (m : Sample) (h : execHotSwapSample m s = .next t) : s.dev.Holds t.dev := by
  have hloss : s.dev.Holds (if m.vsnsMv < s.dev.cfgBits 0x301C 15 0 then (s.dev.takeSample m).inputLoss
      else s.dev.takeSample m) := by
    split
    · exact (Dev.Holds.of_eq (Dev.takeSample_keeps s.dev m).2.1).trans (Dev.inputLoss_holds _)
    · exact .of_eq (Dev.takeSample_keeps s.dev m).2.1
  have hgate : ∀ w : Dev, s.dev.Holds w → s.dev.Holds
      (if w.mode == .vault && w.chip.vault.phase == .waiting && !w.chip.input.seen then
        { w with chip := { w.chip with vault := { w.chip.vault with phase := .gating } } } else w) := by
    intro w hw
    split
    · exact hw.trans (.of_eq rfl)
    · exact hw
  rw [State.on_dev h]
  dsimp only
  split
  · exact .refl _
  · exact hgate _ hloss

theorem execHeadframeSlot_clock (slot : Fin 128) (offered : List Cell) (h : execHeadframeSlot slot offered s = .next t) :
    s.dev.Holds t.dev := by
  rw [State.on_dev h]
  dsimp only
  split
  · exact .refl _
  · refine .same ?_ (Dev.setHf_keeps _ _)
    refine .same ?_ (foldl_same _ (fun x o => Dev.releaseFrom_keeps x o) _ _)
    refine .same ?_ (foldl_same _ (fun x i => ?_) _ _)
    · refine .same ?_ (foldl_same _ (fun x e => Dev.matchAt_keeps x _ _ _ _) _ _)
      refine .same ?_ (foldl_same _ (fun x c => (Dev.offerCell_keeps _ _).trans (Dev.noteGroup_keeps x c)) _ _)
      exact s.dev.reachNs_holds _
    · split
      · exact Dev.injectFrom_keeps _ _ _ _
      · exact .rfl

theorem execSanitizeComplete_clock (b : Bay) (status : BitVec 32) (h : execSanitizeComplete b status s = .next t) :
    s.dev.Holds t.dev := by
  have hend : ∀ (w : Dev) (id : Nat) (bays : List Nat) (o : Option Cmd), w.clk = s.dev.clk → s.dev.Holds (match o with
      | none => w
      | some c =>
        if c.opcode == 0x0403 then w.finishOk id status.toNat 0 0
        else if (w.sanitizingFor id).isEmpty then w.retireEnd id bays
        else w) := by
    intro w id bays o hw
    have hw := Dev.Holds.of_eq hw
    split
    · exact hw
    · split
      · exact hw.same (Dev.finishOk_keeps _ _ _ _ _)
      · split
        · exact hw.trans (w.retireEnd_holds _ _)
        · exact hw
  rw [State.on_dev h]
  dsimp only
  split
  · exact .refl _
  · refine hend _ _ _ _ ?_
    grind [Dev.setBay_keeps]

end

/-! ### The commands with a meaning of their own -/

section
variable (s t : State)

theorem execPowerOn_leaves (straps : BitVec 3) (h : execPowerOn straps s = .next t) : Leaves (.powerOn straps) s.dev t.dev := by
  obtain ⟨hmem, -, hregs, hlife, hfloor⟩ := execPowerOn_keeps straps s t h
  refine ⟨fun _ => hmem, nofun, nofun, fun _ => hregs, fun hw => hmem ▸ hw, fun hc => ?_, hlife ▸ Nat.le_refl _, hfloor ▸ Nat.le_refl _⟩
  rw [State.on_dev h]
  split
  · exact hc
  · rw [(Dev.setMode_keeps _ _).2.1]
    exact Clock.reset_sound

theorem stepPeal_bounds (b : Int) : 7813 ≤ stepPeal b ∧ stepPeal b ≤ 23437 := by
  unfold stepPeal; omega

/-- A step is planned at bell 0 of a peal, so the new length holds the bell in progress. -/
theorem Dev.Holds.planStep {v w : Dev} (h : v.Holds w) (offset : Int) (ref : Option Nat) (h0 : w.clk.bellInPeal = 0) :
    v.Holds (w.planStep offset ref) := by
  have hclk : (w.planStep offset ref).clk = { w.clk with
      pealLen := if w.mode == .vault then w.clk.pealLen else stepPeal (stepBells offset w.freeBool.1) } := rfl
  refine Clock.Holds.trans h (hclk ▸ Clock.holds_pealLen _ fun hc => ?_)
  obtain ⟨-, hpeal, hmin, hmax⟩ := hc
  have := stepPeal_bounds (stepBells offset w.freeBool.1)
  split <;> omega

theorem Dev.servoPeal_holds (v : Dev) (h0 : v.clk.bellInPeal = 0) : v.Holds v.servoPeal := by
  unfold Dev.servoPeal
  dsimp only
  split
  · exact .refl _
  · split
    · exact .refl _
    · split
      · exact .refl _
      · split
        · exact .refl _
        · split
          · refine .planStep ?_ _ _ h0
            exact .of_eq rfl
          · split <;> exact .refl _
      · exact .refl _
      · exact .refl _

theorem execPealBoundary_clock (h : execPealBoundary s = .next t) : s.dev.Holds t.dev := by
  rw [State.on_dev h]
  dsimp only
  split
  · exact .refl _
  · rename_i hstart
    have h0 : s.dev.clk.bellInPeal = 0 := by
      simp only [Bool.or_eq_true, bne_iff_ne, not_or, Classical.not_not] at hstart
      exact hstart.1.2
    split
    · exact .of_eq rfl
    · have hservo : s.dev.Holds (s.dev.setServo { s.dev.chip.servo with measured := some s.dev.now }).servoPeal :=
        .trans (.of_eq rfl) (Dev.servoPeal_holds _ h0)
      have hend : ∀ w : Dev, s.dev.Holds w → s.dev.Holds (((w.emit .bellSync).cipherPeal.humPeal 0).humPeal 1) := by
        intro w hw
        refine .same ?_ (Dev.humPeal_keeps _ _)
        refine .same ?_ (Dev.humPeal_keeps _ _)
        refine .same ?_ (Dev.cipherPeal_keeps _)
        exact hw.same (Dev.emit_keeps _ _)
      split
      · refine .same ?_ (Dev.askSnapshot_keeps _ _ _)
        refine hend _ ?_
        exact hservo.trans (.of_eq rfl)
      · refine hend _ ?_
        exact hservo.trans (.of_eq rfl)

theorem execPealBoundary_leaves (h : execPealBoundary s = .next t) : Leaves .pealBoundary s.dev t.dev := by
  obtain ⟨hmem, hmode, hregs, hlife, hfloor⟩ := execPealBoundary_keeps s t h
  have hclk := execPealBoundary_clock s t h
  exact ⟨fun _ => hmem, fun _ => hclk, fun _ => hmode, fun _ => hregs, .of_holds hmem hclk hlife hfloor⟩

theorem execTimeStep_leaves (h : execTimeStep s = .next t) : Leaves .timeStep s.dev t.dev := by
  obtain ⟨hmem, hmode, hregs, hlife, hfloor⟩ := execTimeStep_keeps s t h
  refine ⟨fun _ => hmem, nofun, fun _ => hmode, fun _ => hregs, fun hw => hmem ▸ hw, fun hc => ?_, hlife ▸ Nat.le_refl _, hfloor ▸ Nat.le_refl _⟩
  rw [State.on_dev h]
  dsimp only
  split
  · split
    · exact hc
    · rw [(Dev.fault_keeps _ _ _ _ _ _ _).2.1]
      exact hc
  · exact hc

/-- A spire's own boot leaves the fuses alone; the device's own reads them in stage B0. -/
theorem Dev.chipPass_lifecycle (v : Dev) : v.sec.lifecycle.code ≤ v.chipPass.sec.lifecycle.code := by
  have hfuses := fun w : Dev => w.blowFuses_lifecycle (l := w.sec.lifecycle) (Nat.le_refl _)
  unfold Dev.chipPass
  dsimp only
  split
  · exact Nat.le_refl _
  · split
    · exact Nat.le_refl _
    · split
      · exact Nat.le_refl _
      · split
        · exact hfuses v
        · split <;> exact Nat.le_refl _

theorem execBootStagePass_leaves (sp : Option Spire) (h : execBootStagePass s sp = .next t) :
    Leaves (.bootStagePass sp) s.dev t.dev := by
  obtain ⟨hmem, hclk, hmode, -, hregs, hfloor⟩ := execBootStagePass_keeps sp s t h
  refine ⟨fun _ => hmem, fun _ => .of_eq hclk, fun _ => hmode, fun _ => hregs, fun hw => hmem ▸ hw, fun hc => hclk ▸ hc, ?_,
    hfloor ▸ Nat.le_refl _⟩
  rw [State.on_dev h]
  cases sp with
  | none => exact s.dev.chipPass_lifecycle
  | some n => exact (Dev.regionPass_keeps s.dev n.val).upholds.2.2.1

/-- RETIRE blows the last fuse: no lifecycle state is later (R335). -/
theorem Dev.retireNow_lifecycle (v : Dev) (id : Nat) : v.sec.lifecycle.code ≤ (v.retireNow id).sec.lifecycle.code := by
  unfold Dev.retireNow
  dsimp only
  rw [foldl_sec_lifecycle _ (fun x b => ((Dev.emit_keeps _ _).trans (Dev.setBay_keeps x _ _)).2.2.2.2.2.1)]
  refine Nat.le_trans (Nat.le_of_eq ?_) (Dev.blowFuses_lifecycle _ (Lifecycle.code_le_two _))
  rw [foldl_sec_lifecycle _ (fun x q => (Dev.releaseQp_keeps x q).2.2.2.2.2.1), foldl_sec_lifecycle]
  intro x n
  split
  · rfl
  · exact (Dev.emptySlot_keeps x n).2.2.2.2.2.1

theorem execDrainComplete_leaves (h : execDrainComplete s = .next t) : Leaves .drainComplete s.dev t.dev := by
  obtain ⟨hmem, hmode, -, hregs, hfloor⟩ := execDrainComplete_keeps s t h
  have hsec : s.dev.Holds t.dev ∧ s.dev.sec.lifecycle.code ≤ t.dev.sec.lifecycle.code := by
    rw [State.on_dev h]
    dsimp only
    split
    · exact ⟨.refl _, (Nat.le_refl _)⟩
    · split
      · split
        · split
          · rename_i id _
            split
            · have hclk : (s.dev.retireNow id).clk = s.dev.clk := (s.dev.retireNow_keeps id).2.1
              split
              · refine ⟨.trans (.of_eq hclk) (Dev.retireEnd_holds _ _ _), ?_⟩
                rw [(Dev.retireEnd_keeps _ _ _).2.2.2.2.1]
                exact s.dev.retireNow_lifecycle id
              · exact ⟨.of_eq hclk, s.dev.retireNow_lifecycle id⟩
            · exact ⟨.refl _, (Nat.le_refl _)⟩
          · exact ⟨.refl _, (Nat.le_refl _)⟩
        · split
          · exact ⟨s.dev.shutdownEnd_holds, (Dev.shutdownEnd_keeps s.dev).2.2.2.2.1 ▸ Nat.le_refl _⟩
          · exact ⟨.refl _, (Nat.le_refl _)⟩
      · split
        · exact ⟨.refl _, (Nat.le_refl _)⟩
        · exact ⟨.refl _, (Nat.le_refl _)⟩
      · exact ⟨.refl _, (Nat.le_refl _)⟩
  obtain ⟨hclk, hlife⟩ := hsec
  exact ⟨fun _ => hmem, fun _ => hclk, fun _ => hmode, fun _ => hregs, fun hw => hmem ▸ hw, hclk.2.2.2.2, hlife, hfloor ▸ Nat.le_refl _⟩

/-- What a Floder command's body upholds, the command upholds. -/
theorem Dev.floderRun_upholds (v : Dev) (op : Nat) (p : Packet) (body : Nat → Dev → Dev) (hb : ∀ id w, Dev.Upholds w (body id w)) :
    v.Upholds (v.floderRun op p body) := by
  unfold Dev.floderRun
  split
  · exact .refl v
  · rename_i h
    exact .same (.same (Dev.floderStart_keeps _ _ _ _ _ _ h).upholds (Dev.fail_keeps _ _ _)) (Dev.skipHeads_keeps _ _)
  · rename_i h
    exact .same ((Dev.floderStart_keeps _ _ _ _ _ _ h).upholds.trans (hb _ _)) (Dev.skipHeads_keeps _ _)

/-- PROVISION starts from BLANK: no lifecycle state is earlier (R333). -/
theorem execProvision_leaves (p : Packet) (h : execProvision p s = .next t) : Leaves (.provision p) s.dev t.dev := by
  obtain ⟨hmem, hclk, hmode, -, hregs, -⟩ := execProvision_keeps p s t h
  refine ⟨fun _ => hmem, fun _ => .of_eq hclk, fun _ => hmode, fun _ => hregs, ?_⟩
  rw [State.on_dev h]
  refine Dev.floderRun_upholds _ _ _ _ fun cmd w => ?_
  split
  · exact (Dev.fail_keeps _ _ _).upholds
  · rename_i hblank
    have hstate : w.sec.lifecycle = .blank := by
      simp only [Bool.or_eq_true, bne_iff_ne, not_or, Classical.not_not] at hblank
      exact hblank.1
    split
    · exact (Dev.fail_keeps _ _ _).upholds
    · dsimp only
      refine .same ?_ (Dev.finishOk_keeps _ _ _ _ _)
      refine ⟨id, id, ?_, (Nat.le_refl _)⟩
      exact w.blowFuses_lifecycle (l := .provisioned) (by rw [hstate]; decide)

/-- FLOOR_ADVANCE refuses a floor below the one in force (R338). -/
theorem execFloorAdvance_leaves (p : Packet) (h : execFloorAdvance p s = .next t) : Leaves (.floorAdvance p) s.dev t.dev := by
  obtain ⟨hmem, hclk, hmode, -, hregs, -⟩ := execFloorAdvance_keeps p s t h
  refine ⟨fun _ => hmem, fun _ => .of_eq hclk, fun _ => hmode, fun _ => hregs, ?_⟩
  rw [State.on_dev h]
  refine Dev.floderRun_upholds _ _ _ _ fun cmd w => ?_
  dsimp only
  split
  · exact (Dev.fail_keeps _ _ _).upholds
  · rename_i hfloor
    refine .same ?_ (Dev.finishOk_keeps _ _ _ _ _)
    refine ⟨id, id, Nat.le_refl _, ?_⟩
    simp only [Bool.or_eq_true, decide_eq_true_eq, not_or, Nat.not_lt] at hfloor
    obtain ⟨⟨hold, hsvn⟩, -⟩ := hfloor
    rwa [BitVec.toNat_ofNat, Nat.mod_eq_of_lt (Nat.lt_of_le_of_lt hsvn (BitVec.isLt _))]

theorem execBellBoundary_leaves (h : execBellBoundary s = .next t) : Leaves .bellBoundary s.dev t.dev := by
  refine ⟨nofun, nofun, nofun, nofun, ?_⟩
  rw [State.on_dev h]
  split
  · exact .refl _
  · split
    · exact s.dev.tick_upholds.trans (Dev.takeEvents_upholds _)
    · exact s.dev.tick_upholds.trans (Dev.strokeZero_upholds _)

theorem execActivationDrainEnter_leaves (h : execActivationDrainEnter s = .next t) : Leaves .activationDrainEnter s.dev t.dev := by
  refine ⟨nofun, nofun, nofun, nofun, ?_⟩
  rw [State.on_dev h]
  split
  · refine .trans ?_ (Dev.takeEvent_upholds _ _)
    exact .of_holds rfl (.of_eq rfl) rfl rfl
  · exact .refl _

/-! ### Window memory stays canonical -/

theorem execWindowWritePacket_wf (p : WritePacket) (h : execWindowWritePacket p s = .next t)
    (hw : Memory.wf s.dev.winMem = true) : Memory.wf t.dev.winMem = true := by
  rw [State.on_dev h]
  (repeat' split) <;> grind [Dev.policed_keeps, Dev.serveCipher_keeps, Dev.endWrite_keeps, Dev.nextPsn_keeps, Dev.respond_keeps,
    Dev.packetSeen_keeps, Dev.offPsn_keeps, Dev.count_keeps, Dev.adjQp_keeps, memWriteBytes_wf]

theorem execRevokeDrainComplete_wf (n : Nat) (h : execRevokeDrainComplete n s = .next t)
    (hw : Memory.wf s.dev.winMem = true) : Memory.wf t.dev.winMem = true := by
  rw [State.on_dev h]
  split
  · exact hw
  · split
    · rw [(Dev.chainDone_keeps _ _).1]
      exact s.dev.freeWindow_winMem_wf n hw
    · exact hw

theorem Dev.jtagWriteByte_wf (v : Dev) (sp : Nat) (hbm : Bool) (addr : Nat) (b : Byte) (hw : Memory.wf v.winMem = true) :
    Memory.wf (v.jtagWriteByte sp hbm addr b).winMem = true := by
  unfold Dev.jtagWriteByte
  grind [Dev.freeBool_keeps, Dev.countKeep_keeps, Dev.free64_keeps, memWrite_wf]

/-- A register or a byte behind the debug port, but for a byte written, leaves window memory alone. -/
theorem execJtagDebugAccess_wf (r : JtagReq) (h : execJtagDebugAccess r s = .next t)
    (hw : Memory.wf s.dev.winMem = true) : Memory.wf t.dev.winMem = true := by
  rw [State.on_dev h]
  cases r <;> dsimp only
  case memWrite sp hbm addr b => grind [Dev.emit_keeps, Dev.jtagWriteByte_wf]
  case regRead off =>
    cases hr : s.dev.readReg .jtag off.toNat with
    | none => grind [Dev.emit_keeps]
    | some e => have := Dev.readReg_keeps s.dev .jtag off.toNat e.2 e.1 hr; grind [Dev.emit_keeps]
  case regWrite off w =>
    cases hr : s.dev.writeReg off.toNat w with
    | none => grind [Dev.emit_keeps]
    | some e => have := Dev.writeReg_keeps s.dev off.toNat w e hr; grind [Dev.emit_keeps]
  case counterRead off =>
    cases hr : s.dev.readReg .jtag off.toNat with
    | none => cases pmonAt off.toNat <;> grind [Dev.emit_keeps]
    | some e =>
      have := Dev.readReg_keeps s.dev .jtag off.toNat e.2 e.1 hr
      cases pmonAt off.toNat <;> grind [Dev.emit_keeps]
  case faultRecord src => cases s.dev.faultRec src <;> grind [Dev.emit_keeps]
  all_goals grind [Dev.emit_keeps, Dev.freeBytes_keeps, Dev.jtagReadByte_keeps]

end

/-! ### Every command -/

/-- One arm for every command. -/
theorem exec_leaves (c : Instr) (s s' : State) (hs : exec c s = .next s') : Leaves c s.dev s'.dev :=
  match c, hs with
  | .powerOn straps, hs => execPowerOn_leaves s s' straps hs
  | .supplyBelowThreshold, hs => .of_same (execSupplyBelowThreshold_keeps s s' hs)
  | .resetNPulse lowNs, hs => .of_same (execResetNPulse_keeps lowNs s s' hs)
  | .resetNLongLow, hs => .of_clock (execResetNLongLow_keeps s s' hs) (execResetNLongLow_clock s s' hs)
  | .inputPowerLoss, hs => .of_clock (execInputPowerLoss_keeps s s' hs) (execInputPowerLoss_clock s s' hs)
  | .inputPresent, hs => .of_same (execInputPresent_keeps s s' hs)
  | .creditCompute, hs => .of_clock (execCreditCompute_keeps s s' hs) (execCreditCompute_clock s s' hs)
  | .keepOutputCompare stroke miscompare output, hs => .of_clock (execKeepOutputCompare_keeps stroke miscompare output s s' hs) (execKeepOutputCompare_clock s s' stroke miscompare output hs)
  | .keepSelfcheckMismatch k unit, hs => .of_same (execKeepSelfcheckMismatch_keeps k unit s s' hs)
  | .keepIsolation k, hs => .of_same (execKeepIsolation_keeps k s s' hs)
  | .pealBoundary, hs => execPealBoundary_leaves s s' hs
  | .timeStep, hs => execTimeStep_leaves s s' hs
  | .referenceLostTimeout, hs => .of_servo (execReferenceLostTimeout_keeps s s' hs)
  | .referenceValidAgain, hs => .of_servo (execReferenceValidAgain_keeps s s' hs)
  | .holdoverLimitExpire, hs => .of_servo (execHoldoverLimitExpire_keeps s s' hs)
  | .bellSyncEdge, hs => .of_servo (execBellSyncEdge_keeps s s' hs)
  | .pageCommit page value, hs => .of_same (execPageCommit_keeps page value s s' hs)
  | .pageDiscard page value, hs => .of_same (execPageDiscard_keeps page value s s' hs)
  | .stagedCommitTakeEffect page, hs => .of_page rfl (execStagedCommitTakeEffect_keeps page s s' hs)
  | .registerWrite by_ off value, hs => .of_same (execRegisterWrite_keeps by_ off value s s' hs)
  | .bellNowRead by_, hs => .of_same (execBellNowRead_keeps by_ s s' hs)
  | .pmonLoRead by_ off, hs => .of_same (execPmonLoRead_keeps by_ off s s' hs)
  | .tableVersionSwitch t key, hs => .of_regs rfl (execTableVersionSwitch_keeps t key s s' hs)
  | .tableUpdateUnblock t key, hs => .of_regs rfl (execTableUpdateUnblock_keeps t key s s' hs)
  | .tableUpdateTimeout t key, hs => .of_same (execTableUpdateTimeout_keeps t key s s' hs)
  | .bootStagePass sp, hs => execBootStagePass_leaves s s' sp hs
  | .bootStageFail code part sp, hs => .of_same (execBootStageFail_keeps code part sp s s' hs)
  | .bootBackoffExpire sp, hs => .of_same (execBootBackoffExpire_keeps sp s s' hs)
  | .bayWaitExpire, hs => .of_same (execBayWaitExpire_keeps s s' hs)
  | .surveyComplete, hs => .of_same (execSurveyComplete_keeps s s' hs)
  | .faultRepaired part, hs => .of_same (execFaultRepaired_keeps part s s' hs)
  | .exposedSettleComplete, hs => .of_same (execExposedSettleComplete_keeps s s' hs)
  | .spireLoss sp cause, hs => .of_same (execSpireLoss_keeps sp cause s s' hs)
  | .regionReset by_, hs => .of_same (execRegionReset_keeps by_ s s' hs)
  | .regionBootComplete sp, hs => .of_same (execRegionBootComplete_keeps sp s s' hs)
  | .remirrorComplete sp, hs => .of_same (execRemirrorComplete_keeps sp s s' hs)
  | .roleReturn sp, hs => .of_same (execRoleReturn_keeps sp s s' hs)
  | .blockReset by_, hs => .of_same (execBlockReset_keeps by_ s s' hs)
  | .blockResetComplete source resolved, hs => .of_same (execBlockResetComplete_keeps source resolved s s' hs)
  | .identify p, hs => .of_same (execIdentify_keeps p s s' hs)
  | .echo p, hs => .of_same (execEcho_keeps p s s' hs)
  | .modeQuery p, hs => .of_same (execModeQuery_keeps p s s' hs)
  | .modeSet p, hs => .of_same (execModeSet_keeps p s s' hs)
  | .warmReset p, hs => .of_same (execWarmReset_keeps p s s' hs)
  | .shutdown p, hs => .of_same (execShutdown_keeps p s s' hs)
  | .drainWaitExpire d, hs => .of_same (execDrainWaitExpire_keeps d s s' hs)
  | .drainComplete, hs => execDrainComplete_leaves s s' hs
  | .activate p, hs => .of_same (execActivate_keeps p s s' hs)
  | .imageSwap, hs => .of_same (execImageSwap_keeps s s' hs)
  | .imageSwapComplete, hs => .of_same (execImageSwapComplete_keeps s s' hs)
  | .activationTimeout, hs => .of_same (execActivationTimeout_keeps s s' hs)
  | .create d, hs => .of_same (execCreate_keeps d s s' hs)
  | .append d, hs => .of_same (execAppend_keeps d s s' hs)
  | .sealOp d, hs => .of_same (execSeal_keeps d s s' hs)
  | .delete d, hs => .of_same (execDelete_keeps d s s' hs)
  | .read d, hs => .of_same (execRead_keeps d s s' hs)
  | .stat d, hs => .of_same (execStat_keeps d s s' hs)
  | .flush d, hs => .of_same (execFlush_keeps d s s' hs)
  | .flushComplete id, hs => .of_same (execFlushComplete_keeps id s s' hs)
  | .cack d, hs => .of_same (execCack_keeps d s s' hs)
  | .ping d, hs => .of_same (execPing_keeps d s s' hs)
  | .admitBoundExpire id, hs => .of_same (execAdmitBoundExpire_keeps id s s' hs)
  | .grainsStored id, hs => .of_same (execGrainsStored_keeps id s s' hs)
  | .appendHeld id, hs => .of_same (execAppendHeld_keeps id s s' hs)
  | .stagingSignal qp imm msgLen, hs => .of_same (execStagingSignal_keeps qp imm msgLen s s' hs)
  | .grantLifeExpire session grantTag, hs => .of_same (execGrantLifeExpire_keeps session grantTag s s' hs)
  | .recordLifeExpire session tally, hs => .of_same (execRecordLifeExpire_keeps session tally s s' hs)
  | .assayDue h, hs => .of_same (execAssayDue_keeps h s s' hs)
  | .assayDischargeStart h, hs => .of_same (execAssayDischargeStart_keeps h s s' hs)
  | .assayEnd h, hs => .of_same (execAssayEnd_keeps h s s' hs)
  | .stripeClose id cause, hs => .of_same (execStripeClose_keeps id cause s s' hs)
  | .settleAgeExpire id, hs => .of_same (execSettleAgeExpire_keeps id s s' hs)
  | .bayWriteComplete op status, hs => .of_same (execBayWriteComplete_keeps op status s s' hs)
  | .journalWriteComplete seq, hs => .of_same (execJournalWriteComplete_keeps seq s s' hs)
  | .grainClean stripe, hs => .of_same (execGrainClean_keeps stripe s s' hs)
  | .checkpointStart, hs => .of_same (execCheckpointStart_keeps s s' hs)
  | .vaultPhaseV1, hs => .of_same (execVaultPhaseV1_keeps s s' hs)
  | .vaultPhaseV2, hs => .of_same (execVaultPhaseV2_keeps s s' hs)
  | .vaultSettleComplete done, hs => .of_same (execVaultSettleComplete_keeps done s s' hs)
  | .vaultJournalClosed, hs => .of_same (execVaultJournalClosed_keeps s s' hs)
  | .recordImageWritten, hs => .of_same (execRecordImageWritten_keeps s s' hs)
  | .vaultFlushComplete done, hs => .of_same (execVaultFlushComplete_keeps done s s' hs)
  | .vaultMarkerWritten, hs => .of_same (execVaultMarkerWritten_keeps s s' hs)
  | .bayPowerGood b, hs => .of_same (execBayPowerGood_keeps b s s' hs)
  | .bayControllerReady b info, hs => .of_same (execBayControllerReady_keeps b info s s' hs)
  | .bayFail b cause, hs => .of_same (execBayFail_keeps b cause s s' hs)
  | .bayDriveReadyAgain b info, hs => .of_same (execBayDriveReadyAgain_keeps b info s s' hs)
  | .bayPortLinkChange b p up, hs => .of_same (execBayPortLinkChange_keeps b p up s s' hs)
  | .activePortReturn b, hs => .of_same (execActivePortReturn_keeps b s s' hs)
  | .bayReadComplete op r, hs => .of_same (execBayReadComplete_keeps op r s s' hs)
  | .rebuildPositionComplete stripe position, hs => .of_same (execRebuildPositionComplete_keeps stripe position s s' hs)
  | .compactionComplete stripe, hs => .of_same (execCompactionComplete_keeps stripe s s' hs)
  | .tombstoneReclaim claim key, hs => .of_same (execTombstoneReclaim_keeps claim key s s' hs)
  | .ioTimeout op, hs => .of_same (execIoTimeout_keeps op s s' hs)
  | .leaseCapExpire l, hs => .of_same (execLeaseCapExpire_keeps l s s' hs)
  | .readTimeout id, hs => .of_same (execReadTimeout_keeps id s s' hs)
  | .lateCompletion b cid, hs => .of_same (execLateCompletion_keeps b cid s s' hs)
  | .quarantineRelease b cid, hs => .of_same (execQuarantineRelease_keeps b cid s s' hs)
  | .scanStart p, hs => .of_same (execScanStart_keeps p s s' hs)
  | .scanAbort p, hs => .of_same (execScanAbort_keeps p s s' hs)
  | .scanComplete sp tag, hs => .of_same (execScanComplete_keeps sp tag s s' hs)
  | .scrubPassStart sp, hs => .of_same (execScrubPassStart_keeps sp s s' hs)
  | .scrubPealQuota sp, hs => .of_same (execScrubPealQuota_keeps sp s s' hs)
  | .scrubStripeReadComplete sp stripe done, hs => .of_same (execScrubStripeReadComplete_keeps sp stripe done s s' hs)
  | .scrubDeferredRetry sp stripe, hs => .of_same (execScrubDeferredRetry_keeps sp stripe s s' hs)
  | .relayPublish sp stripe, hs => .of_same (execRelayPublish_keeps sp stripe s s' hs)
  | .cmReq r, hs => .of_same (execCmReq_keeps r s s' hs)
  | .cmRtu qp, hs => .of_same (execCmRtu_keeps qp s s' hs)
  | .pendingPathRelease qp, hs => .of_same (execPendingPathRelease_keeps qp s s' hs)
  | .cmDreq qp, hs => .of_same (execCmDreq_keeps qp s s' hs)
  | .requestPacket p, hs => .of_same (execRequestPacket_keeps p s s' hs)
  | .unsupportedFrame port len, hs => .of_same (execUnsupportedFrame_keeps port len s s' hs)
  | .mirrorContextHeld qp psn, hs => .of_same (execMirrorContextHeld_keeps qp psn s s' hs)
  | .ackReceive qp psn, hs => .of_same (execAckReceive_keeps qp psn s s' hs)
  | .ackTimeout qp, hs => .of_same (execAckTimeout_keeps qp s s' hs)
  | .cnpReceive qp, hs => .of_same (execCnpReceive_keeps qp s s' hs)
  | .hostRnrNak qp psn, hs => .of_same (execHostRnrNak_keeps qp psn s s' hs)
  | .netLinkDown port sub, hs => .of_same (execNetLinkDown_keeps port sub s s' hs)
  | .netLinkUp port sub, hs => .of_same (execNetLinkUp_keeps port sub s s' hs)
  | .pathHoldExpire qp, hs => .of_same (execPathHoldExpire_keeps qp s s' hs)
  | .consumerWordResponse session word, hs => .of_same (execConsumerWordResponse_keeps session word s s' hs)
  | .consumerPollTimer session, hs => .of_same (execConsumerPollTimer_keeps session s s' hs)
  | .ringEntryWrite session, hs => .of_same (execRingEntryWrite_keeps session s s' hs)
  | .notifySend qp, hs => .of_same (execNotifySend_keeps qp s s' hs)
  | .sessionCreate p, hs => .of_same (execSessionCreate_keeps p s s' hs)
  | .sessionClose p, hs => .of_same (execSessionClose_keeps p s s' hs)
  | .sessionQuery p, hs => .of_same (execSessionQuery_keeps p s s' hs)
  | .windowWritePacket p, hs => .of_window rfl (execWindowWritePacket_keeps p s s' hs) (execWindowWritePacket_wf s s' p hs)
  | .unexpAged session, hs => .of_same (execUnexpAged_keeps session s s' hs)
  | .immediateSpentEnd session grantTag, hs => .of_same (execImmediateSpentEnd_keeps session grantTag s s' hs)
  | .windowCreate p, hs => .of_same (execWindowCreate_keeps p s s' hs)
  | .windowRevoke p, hs => .of_same (execWindowRevoke_keeps p s s' hs)
  | .revokeDrainComplete w, hs => .of_window rfl (execRevokeDrainComplete_keeps w s s' hs) (execRevokeDrainComplete_wf s s' w hs)
  | .tagWait p, hs => .of_same (execTagWait_keeps p s s' hs)
  | .tagWaitTimeout id, hs => .of_same (execTagWaitTimeout_keeps id s s' hs)
  | .chainQueueCreate p, hs => .of_same (execChainQueueCreate_keeps p s s' hs)
  | .chainPost p, hs => .of_same (execChainPost_keeps p s s' hs)
  | .chainQuery p, hs => .of_same (execChainQuery_keeps p s s' hs)
  | .chainQueueDestroy p, hs => .of_same (execChainQueueDestroy_keeps p s s' hs)
  | .waitOnCount p, hs => .of_same (execWaitOnCount_keeps p s s' hs)
  | .waitOnCountTimeout q, hs => .of_same (execWaitOnCountTimeout_keeps q s s' hs)
  | .chainElementComplete q status, hs => .of_same (execChainElementComplete_keeps q status s s' hs)
  | .headframeSlot slot offered, hs => .of_clock (execHeadframeSlot_keeps slot offered s s' hs) (execHeadframeSlot_clock s s' slot offered hs)
  | .reseqTimeout output mc dest from_ cls, hs => .of_same (execReseqTimeout_keeps output mc dest from_ cls s s' hs)
  | .lostNotice input msgTag, hs => .of_same (execLostNotice_keeps input msgTag s s' hs)
  | .hfIntermediateError plane inter, hs => .of_same (execHfIntermediateError_keeps plane inter s s' hs)
  | .policerModeReturn port, hs => .of_same (execPolicerModeReturn_keeps port s s' hs)
  | .transmitOpportunity port sub, hs => .of_same (execTransmitOpportunity_keeps port sub s s' hs)
  | .gateEntryAdvance port sub, hs => .of_same (execGateEntryAdvance_keeps port sub s s' hs)
  | .gateListSwitch port sub, hs => .of_regs rfl (execGateListSwitch_keeps port sub s s' hs)
  | .pfcReceive port sub quanta, hs => .of_same (execPfcReceive_keeps port sub quanta s s' hs)
  | .pfcRefresh port, hs => .of_same (execPfcRefresh_keeps port s s' hs)
  | .meterProfileSet p, hs => .of_same (execMeterProfileSet_keeps p s s' hs)
  | .meterProfileGet p, hs => .of_same (execMeterProfileGet_keeps p s s' hs)
  | .keyLoad p, hs => .of_same (execKeyLoad_keeps p s s' hs)
  | .keyRevoke p, hs => .of_same (execKeyRevoke_keeps p s s' hs)
  | .keyZeroize slot, hs => .of_same (execKeyZeroize_keeps slot s s' hs)
  | .keyQuery p, hs => .of_same (execKeyQuery_keeps p s s' hs)
  | .keyEpochAdvance p, hs => .of_same (execKeyEpochAdvance_keeps p s s' hs)
  | .connKeyBind p, hs => .of_same (execConnKeyBind_keeps p s s' hs)
  | .leaseGrant sp slot nvOk, hs => .of_same (execLeaseGrant_keeps sp slot nvOk s s' hs)
  | .rngSourceFail k test, hs => .of_same (execRngSourceFail_keeps k test s s' hs)
  | .rngExhausted, hs => .of_same (execRngExhausted_keeps s s' hs)
  | .cipherCoreFault sp core, hs => .of_same (execCipherCoreFault_keeps sp core s s' hs)
  | .provision p, hs => execProvision_leaves s s' p hs
  | .retire p, hs => .of_same (execRetire_keeps p s s' hs)
  | .sanitizeComplete b status, hs => .of_clock (execSanitizeComplete_keeps b status s s' hs) (execSanitizeComplete_clock s s' b status hs)
  | .lifecycleQuery p, hs => .of_same (execLifecycleQuery_keeps p s s' hs)
  | .debugChallenge p, hs => .of_same (execDebugChallenge_keeps p s s' hs)
  | .debugSet p, hs => .of_same (execDebugSet_keeps p s s' hs)
  | .debugLevelApply, hs => .of_same (execDebugLevelApply_keeps s s' hs)
  | .jtagDebugAccess r, hs => .of_window rfl (execJtagDebugAccess_keeps r s s' hs) (execJtagDebugAccess_wf s s' r hs)
  | .imageStage p, hs => .of_same (execImageStage_keeps p s s' hs)
  | .floorAdvance p, hs => execFloorAdvance_leaves s s' p hs
  | .imageQuery p, hs => .of_same (execImageQuery_keeps p s s' hs)
  | .park p, hs => .of_same (execPark_keeps p s s' hs)
  | .unpark by_, hs => .of_same (execUnpark_keeps by_ s s' hs)
  | .unparkRestartComplete sp, hs => .of_page rfl (execUnparkRestartComplete_keeps sp s s' hs)
  | .unparkRoleReturn sp, hs => .of_same (execUnparkRoleReturn_keeps sp s s' hs)
  | .standby p, hs => .of_same (execStandby_keeps p s s' hs)
  | .smbusWake code data, hs => .of_same (execSmbusWake_keeps code data s s' hs)
  | .smbusBootProgressRead code, hs => .of_same (execSmbusBootProgressRead_keeps code s s' hs)
  | .p1Entry sp, hs => .of_same (execP1Entry_keeps sp s s' hs)
  | .p1Wake sp, hs => .of_same (execP1Wake_keeps sp s s' hs)
  | .hotSwapSample m, hs => .of_clock (execHotSwapSample_keeps m s s' hs) (execHotSwapSample_clock s s' m hs)
  | .bayPresenceConfirmed b, hs => .of_same (execBayPresenceConfirmed_keeps b s s' hs)
  | .humSeated h, hs => .of_same (execHumSeated_keeps h s s' hs)
  | .insertDelayEnd b, hs => .of_same (execInsertDelayEnd_keeps b s s' hs)
  | .rampStart c, hs => .of_same (execRampStart_keeps c s s' hs)
  | .rampComplete c, hs => .of_same (execRampComplete_keeps c s s' hs)
  | .rampTimeout c, hs => .of_same (execRampTimeout_keeps c s s' hs)
  | .perstRelease b, hs => .of_same (execPerstRelease_keeps b s s' hs)
  | .fastTrip c current, hs => .of_same (execFastTrip_keeps c current s s' hs)
  | .breakerTrip c point, hs => .of_same (execBreakerTrip_keeps c point s s' hs)
  | .retryDue c, hs => .of_same (execRetryDue_keeps c s s' hs)
  | .tripCountClear c, hs => .of_same (execTripCountClear_keeps c s s' hs)
  | .bayRemovalConfirmed b, hs => .of_same (execBayRemovalConfirmed_keeps b s s' hs)
  | .humSeatingLoss h, hs => .of_same (execHumSeatingLoss_keeps h s s' hs)
  | .passTransistorFault c, hs => .of_same (execPassTransistorFault_keeps c s s' hs)
  | .humIdRead h serial, hs => .of_same (execHumIdRead_keeps h serial s s' hs)
  | .channelSet p, hs => .of_same (execChannelSet_keeps p s s' hs)
  | .channelRelease p, hs => .of_same (execChannelRelease_keeps p s s' hs)
  | .thermalCrit sensor t0 t1, hs => .of_same (execThermalCrit_keeps sensor t0 t1 s s' hs)
  | .faultEvent f, hs => .of_same (execFaultEvent_keeps f s s' hs)
  | .fencedSettleComplete, hs => .of_same (execFencedSettleComplete_keeps s s' hs)
  | .faultRead p, hs => .of_same (execFaultRead_keeps p s s' hs)
  | .faultClear p, hs => .of_same (execFaultClear_keeps p s s' hs)
  | .faultList p, hs => .of_same (execFaultList_keeps p s s' hs)
  | .faultInject p, hs => .of_same (execFaultInject_keeps p s s' hs)
  | .claimSet p, hs => .of_same (execClaimSet_keeps p s s' hs)
  | .claimGet p, hs => .of_same (execClaimGet_keeps p s s' hs)
  | .claimStatus p, hs => .of_same (execClaimStatus_keeps p s s' hs)
  | .claimRemove p, hs => .of_same (execClaimRemove_keeps p s s' hs)
  | .shelfLayout p, hs => .of_same (execShelfLayout_keeps p s s' hs)
  | .bayAdopt p, hs => .of_same (execBayAdopt_keeps p s s' hs)
  | .baySanitize p, hs => .of_same (execBaySanitize_keeps p s s' hs)
  | .bayQuery p, hs => .of_same (execBayQuery_keeps p s s' hs)
  | .portSet p, hs => .of_same (execPortSet_keeps p s s' hs)
  | .portQuery p, hs => .of_same (execPortQuery_keeps p s s' hs)
  | .counterSelect p, hs => .of_same (execCounterSelect_keeps p s s' hs)
  | .pmonSelWrite off value, hs => .of_same (execPmonSelWrite_keeps off value s s' hs)
  | .counterSelectionApply region block k, hs => .of_same (execCounterSelectionApply_keeps region block k s s' hs)
  | .counterRead p, hs => .of_same (execCounterRead_keeps p s s' hs)
  | .snapshot p, hs => .of_same (execSnapshot_keeps p s s' hs)
  | .snapshotCopy, hs => .of_same (execSnapshotCopy_keeps s s' hs)
  | .snapshotBufferWritten, hs => .of_same (execSnapshotBufferWritten_keeps s s' hs)
  | .traceRead p, hs => .of_same (execTraceRead_keeps p s s' hs)
  | .sqTailDoorbell r value slots, hs => .of_same (execSqTailDoorbell_keeps r value slots s s' hs)
  | .stHeadDoorbell r value, hs => .of_same (execStHeadDoorbell_keeps r value s s' hs)
  | .floderReplyWrite src, hs => .of_same (execFloderReplyWrite_keeps src s s' hs)
  | .ringIntTimer r, hs => .of_same (execRingIntTimer_keeps r s s' hs)
  | .ringDmaFault r, hs => .of_same (execRingDmaFault_keeps r s s' hs)
  | .ringDrained r, hs => .of_same (execRingDrained_keeps r s s' hs)
  | .epMemoryRequest r, hs => .of_same (execEpMemoryRequest_keeps r s s' hs)
  | .epLinkUp speed width, hs => .of_same (execEpLinkUp_keeps speed width s s' hs)
  | .epAerUncorrectable cause header, hs => .of_same (execEpAerUncorrectable_keeps cause header s s' hs)
  | .epFreezeRelease value, hs => .of_same (execEpFreezeRelease_keeps value s s' hs)
  | .epCompletion pf tag st, hs => .of_same (execEpCompletion_keeps pf tag st s s' hs)
  | .epCompletionTimeout pf tag, hs => .of_same (execEpCompletionTimeout_keeps pf tag s s' hs)
  | .epTagQuarantineEnd pf tag, hs => .of_same (execEpTagQuarantineEnd_keeps pf tag s s' hs)
  | .busMasterDisable pf why, hs => .of_same (execBusMasterDisable_keeps pf why s s' hs)
  | .busMasterEnable pf, hs => .of_same (execBusMasterEnable_keeps pf s s' hs)
  | .flr pf, hs => .of_same (execFlr_keeps pf s s' hs)
  | .flrComplete pf, hs => .of_regs rfl (execFlrComplete_keeps pf s s' hs)
  | .epReset kind, hs => .of_regs rfl (execEpReset_keeps kind s s' hs)
  | .epFailover, hs => .of_same (execEpFailover_keeps s s' hs)
  | .epFailoverComplete, hs => .of_same (execEpFailoverComplete_keeps s s' hs)
  | .ptpMessageReceive m, hs => .of_servo (execPtpMessageReceive_keeps m s s' hs)
  | .arpNdRequest port sub target, hs => .of_same (execArpNdRequest_keeps port sub target s s' hs)
  | .bellBoundary, hs => execBellBoundary_leaves s s' hs
  | .activationDrainEnter, hs => execActivationDrainEnter_leaves s s' hs

end Sys2Proof.Machine
end


section
/-! SUPPORT. From the frame of every command: the statements over every step. -/

namespace Sys2Proof.Machine

/-- A command that is none of those that write window memory. -/
theorem writesWindows_eq_false {c : Instr} (hwrite : ∀ p, c ≠ .windowWritePacket p) (hfree : ∀ n, c ≠ .revokeDrainComplete n)
    (hjtag : ∀ j, c ≠ .jtagDebugAccess j) (hbell : c ≠ .bellBoundary) (hdrain : c ≠ .activationDrainEnter) :
    writesWindows c = false := by
  unfold writesWindows
  split
  case h_1 p => exact absurd rfl (hwrite p)
  case h_2 n => exact absurd rfl (hfree n)
  case h_3 j => exact absurd rfl (hjtag j)
  case h_4 => exact absurd rfl hbell
  case h_5 => exact absurd rfl hdrain
  case h_6 => rfl

theorem setsClock_eq_false {c : Instr} (hbell : c ≠ .bellBoundary) (hstep : c ≠ .timeStep)
    (hpower : ∀ straps, c ≠ .powerOn straps) (hdrain : c ≠ .activationDrainEnter) : setsClock c = false := by
  unfold setsClock
  split
  case h_1 => exact absurd rfl hbell
  case h_2 => exact absurd rfl hstep
  case h_3 straps => exact absurd rfl (hpower straps)
  case h_4 => exact absurd rfl hdrain
  case h_5 => rfl

theorem changesMode_eq_false {c : Instr} (hbell : c ≠ .bellBoundary) (hpower : ∀ straps, c ≠ .powerOn straps)
    (hdrain : c ≠ .activationDrainEnter) : changesMode c = false := by
  unfold changesMode
  split
  case h_1 => exact absurd rfl hbell
  case h_2 straps => exact absurd rfl (hpower straps)
  case h_3 => exact absurd rfl hdrain
  case h_4 => rfl

/-- In HELD no bell is counted (R83). -/
theorem execBellBoundary_of_held {s t : State} (h : execBellBoundary s = .next t) (hm : s.dev.mode = .held) : t.dev = s.dev := by
  rw [State.on_dev h]
  simp [hm]

/-- The entry of an activation DRAIN takes one event, in the modes that serve; it leaves the clock as it was. -/
theorem execActivationDrainEnter_cases {s t : State} (h : execActivationDrainEnter s = .next t) :
    t.dev = s.dev ∨ (s.dev.mode.Up ∧ ∃ a, t.dev = ({ s.dev with sec := { s.dev.sec with act := a } } : Dev).takeEvent .activate) := by
  rw [State.on_dev h]
  split
  · rename_i hstart
    simp only [Bool.and_eq_true, Dev.inMode, List.contains_eq_mem, List.mem_cons, List.not_mem_nil, or_false,
      decide_eq_true_eq] at hstart
    exact .inr ⟨hstart.2, _, rfl⟩
  · exact .inl rfl

theorem Dev.takeEvent_activate_clk (v : Dev) : (v.takeEvent .activate).clk = v.clk := by
  simp only [Dev.takeEvent]
  split
  · exact (Dev.enterDrain_keeps _ _ _ _).2.1
  · rfl

/-- A step with a command at the front of the queue. -/
theorem step_of_pending {s : State} {c : Instr} {rest : List Instr} (h : s.pending = c :: rest) :
    step s = exec c { s with pending := rest } := by
  rw [step, h]

theorem step_of_empty {s : State} (h : s.pending = []) : step s = .next s := by
  rw [step, h]

theorem step_upholds {s t : State} (h : step s = .next t) : s.dev.Upholds t.dev := by
  cases hq : s.pending with
  | nil =>
    rw [step_of_empty hq, Host.Outcome.next.injEq] at h
    exact h ▸ .refl _
  | cons c rest =>
    rw [step_of_pending hq] at h
    exact (exec_leaves c _ t h).upholds

theorem exec_eq_next (c : Instr) (s : State) : ∃ v : Dev, exec c s = .next (s.withDev v) := by
  cases c <;> exact ⟨_, rfl⟩

end Sys2Proof.Machine

open Sys2Proof Sys2Proof.Machine

/-- Settles O1: every command is a change of the device alone. -/
theorem stepTakesFrontCommand : Obligations.StepTakesFrontCommand := by
  unfold Obligations.StepTakesFrontCommand
  exact ⟨fun s c rest => ⟨step_of_pending, step_of_empty⟩, exec_eq_next⟩

/-- Settles O4, from the frame of every command and the three that change the mode. -/
theorem modeChangesAtBells : Obligations.ModeChangesAtBells := by
  unfold Obligations.ModeChangesAtBells
  have hkept : ∀ (c : Instr) (s t : State), exec c s = .next t → c ≠ .bellBoundary → c ≠ .activationDrainEnter →
      (∀ straps, c ≠ .powerOn straps) → t.dev.mode = s.dev.mode := fun c s t h hbell hdrain hpower =>
    (exec_leaves c s t h).mode (changesMode_eq_false hbell hpower hdrain)
  refine ⟨fun c s t h hm hpower => ?_, hkept⟩
  by_cases hbell : c = .bellBoundary
  · subst hbell
    rw [execBellBoundary_of_held h hm, hm]
  · by_cases hdrain : c = .activationDrainEnter
    · subst hdrain
      rcases execActivationDrainEnter_cases h with hsame | ⟨hup, -⟩
      · rw [hsame, hm]
      · rw [hm] at hup
        exact absurd hup (by decide)
    · rw [hkept c s t h hbell hdrain hpower, hm]

/-- Settles O5. -/
theorem whatNeverGoesBack : Obligations.WhatNeverGoesBack := by
  unfold Obligations.WhatNeverGoesBack
  exact ⟨fun s t h => (step_upholds h).2.2.1, fun s t h => (step_upholds h).2.2.2⟩

/-- Settles O6. -/
theorem windowMemoryStaysCanonical : Obligations.WindowMemoryStaysCanonical := by
  unfold Obligations.WindowMemoryStaysCanonical
  exact fun s t h => (step_upholds h).1

/-- Settles O7. -/
theorem windowMemoryWriters : Obligations.WindowMemoryWriters := by
  unfold Obligations.WindowMemoryWriters
  intro c s t a h hwrite hfree hjtag hbell hdrain
  rw [(exec_leaves c s t h).winMem (writesWindows_eq_false hwrite hfree hjtag hbell hdrain)]

/-- Settles O8. -/
theorem clockStaysSound : Obligations.ClockStaysSound := by
  unfold Obligations.ClockStaysSound
  exact fun s t h => (step_upholds h).2.1

/-- Settles O9. Of the commands that set the clock, the entry of an activation DRAIN leaves it as it was. -/
theorem onlyTheBellCounts : Obligations.OnlyTheBellCounts := by
  unfold Obligations.OnlyTheBellCounts
  intro c s t h hbell hstep hpower
  have hholds : s.dev.Holds t.dev := by
    by_cases hdrain : c = .activationDrainEnter
    · subst hdrain
      rcases execActivationDrainEnter_cases h with hsame | ⟨-, a, hevent⟩
      · exact .of_eq (by rw [hsame])
      · exact .of_eq (by rw [hevent, Dev.takeEvent_activate_clk])
    · exact (exec_leaves c s t h).clk (setsClock_eq_false hbell hstep hpower hdrain)
  obtain ⟨hcount, helapsed, hpeal, hns, -⟩ := hholds
  exact ⟨hcount, helapsed, hpeal, hns⟩

/-- Settles O10. -/
theorem valuesInForce : Obligations.ValuesInForce := by
  unfold Obligations.ValuesInForce
  intro c s t o h hbell hdrain hcommit hgate hreset hflr hunpark hswitch hunblock
  have hregs : changesRegs c = false := by
    unfold changesRegs
    split
    case h_1 => exact absurd rfl hbell
    case h_2 => exact absurd rfl hdrain
    case h_3 p => exact absurd rfl (hcommit p)
    case h_4 p k => exact absurd rfl (hgate p k)
    case h_5 k => exact absurd rfl (hreset k)
    case h_6 p => exact absurd rfl (hflr p)
    case h_7 p => exact absurd rfl (hunpark p)
    case h_8 u k => exact absurd rfl (hswitch u k)
    case h_9 u k => exact absurd rfl (hunblock u k)
    case h_10 => rfl
  rw [Dev.cfg, (exec_leaves c s t h).active hregs, Dev.cfg]

end


section
/-! SUPPORT. The completion of a Floder command (R395, R398): what it leaves of the commands in progress, of the replies
and of the rest. -/

namespace Sys2Proof.Machine

section
variable (v : Dev) (id : Nat) (st : Byte) (r0 r1 r2 : Nat) (data : List Byte)

/-- The command is no longer in progress; where there was none of that name nothing goes. -/
theorem Dev.finish_cmds : (v.finish id st r0 r1 r2 data).floder.cmds = v.floder.cmds.filter (fun c => c.id != id) := by
  unfold Dev.finish
  split
  · rename_i hnone
    rw [List.find?_eq_none] at hnone
    exact (List.filter_eq_self.mpr fun c hc => by simpa using hnone c hc).symm
  · dsimp only
    split <;> rfl

/-- The data of a reply to a ring may not be issued (R427). -/
def Dev.replyCut (c : Cmd) : Bool := match c.replyTo with
  | .ring _ => !data.isEmpty && !v.ep.pf0.canIssue
  | _ => false

/-- Where the head of the command's ring stands. -/
def Dev.replyHead (c : Cmd) : Nat := match c.replyTo with
  | .ring r => (v.ring r.val).head
  | _ => 0

/-- The reply that a completion makes (R398). -/
def Dev.replyOf (c : Cmd) : Reply :=
  if v.replyCut data c then ⟨c.replyTo, c.p.dataPtr, c.tag, c.opcode, stMasterDisable, 0, 0, 0, c.noInt, v.replyHead c,
    v.stamp, v.step16, [], c.p.at_⟩
  else ⟨c.replyTo, c.p.dataPtr, c.tag, c.opcode, st, BitVec.ofNat 32 r0, BitVec.ofNat 32 r1, BitVec.ofNat 32 r2, c.noInt,
    v.replyHead c, v.stamp, v.step16, data, c.p.at_⟩

theorem Dev.replyOf_fields (c : Cmd) : ((v.replyOf st r0 r1 r2 data c).tag = c.tag ∧
    (v.replyOf st r0 r1 r2 data c).opcode = c.opcode ∧ (v.replyOf st r0 r1 r2 data c).src = c.replyTo) ∧
    ((v.replyOf st r0 r1 r2 data c).status = st ∨ (v.replyOf st r0 r1 r2 data c).status = stMasterDisable) ∧
    (v.replyOf st r0 r1 r2 data c).step = v.step16 ∧ (v.replyOf st r0 r1 r2 data c).stamp = v.stamp := by
  unfold Dev.replyOf
  split
  · exact ⟨⟨rfl, rfl, rfl⟩, .inr rfl, rfl, rfl⟩
  · exact ⟨⟨rfl, rfl, rfl⟩, .inl rfl, rfl, rfl⟩

theorem Dev.finish_replies_of_find {c : Cmd} (h : v.floder.cmds.find? (fun c => c.id == id) = some c) :
    (v.finish id st r0 r1 r2 data).floder.replies =
      if v.takesReplies c.replyTo && !c.orphan then v.floder.replies ++ [v.replyOf st r0 r1 r2 data c] else v.floder.replies := by
  simp only [Dev.finish, h]
  split <;> rfl

theorem Dev.finish_replies : (v.finish id st r0 r1 r2 data).floder.replies = v.floder.replies ∨
    ∃ x, (v.finish id st r0 r1 r2 data).floder.replies = v.floder.replies ++ [x] ∧
      (∃ c ∈ v.floder.cmds, c.id = id ∧ x.tag = c.tag ∧ x.opcode = c.opcode ∧ x.src = c.replyTo) ∧
      (x.status = st ∨ x.status = stMasterDisable) ∧ x.step = v.step16 ∧ x.stamp = v.stamp := by
  cases hfind : v.floder.cmds.find? (fun c => c.id == id) with
  | none => exact .inl (by simp only [Dev.finish, hfind])
  | some c =>
    have hid : c.id = id := by simpa using List.find?_some hfind
    obtain ⟨hcmd, hrest⟩ := v.replyOf_fields st r0 r1 r2 data c
    rw [v.finish_replies_of_find id st r0 r1 r2 data hfind]
    split
    · exact .inr ⟨_, rfl, ⟨c, List.mem_of_find?_eq_some hfind, hid, hcmd⟩, hrest⟩
    · exact .inl rfl

/-- Nothing but the Floder routes and the maintenance queues changes. -/
theorem Dev.finish_frame : v.finish id st r0 r1 r2 data = { v with
    floder := (v.finish id st r0 r1 r2 data).floder
    hosts := { v.hosts with chains := (v.finish id st r0 r1 r2 data).hosts.chains } } := by
  unfold Dev.finish
  split
  · rfl
  · dsimp only
    split <;> rfl

/-- Other commands stay. -/
theorem Dev.fail_find_other {i : Nat} (h : i ≠ id) :
    (v.fail id st).floder.cmds.find? (fun c => c.id == i) = v.floder.cmds.find? (fun c => c.id == i) := by
  rw [Dev.fail, Dev.finish_cmds, List.find?_filter]
  congr 1
  funext c
  by_cases hc : c.id = i
  · simp [hc, h]
  · simp [hc]

end

end Sys2Proof.Machine

open Sys2Proof.Machine

/-- Settles O11. -/
theorem completionAddsOneReply : Obligations.CompletionAddsOneReply := by
  unfold Obligations.CompletionAddsOneReply
  intro v id r0 r1 r2 st data
  refine ⟨fun c hc => ?_, v.finish_replies id st r0 r1 r2 data, v.finish_frame id st r0 r1 r2 data,
    fun i hi => v.fail_find_other id st hi⟩
  rw [Dev.finish_cmds, List.mem_filter] at hc
  simpa using hc.2

end


section
/-! SUPPORT. Staged pages (R75 to R77, R460): the commit register, the staging view over the bus, and a commit that takes
effect, as facts about the tables of values in force and staged. -/

namespace Sys2Proof.Machine

theorem bit_toNat {n : Nat} (w : BitVec n) (i : Nat) : bit w.toNat i = w.getLsbD i := by
  rw [bit, BitVec.getLsbD, Nat.testBit_eq_decide_div_mod_eq]
  rfl

/-! ### The commit register -/

section
variable (v : Dev) (p : Nat) {w : Word}

theorem Dev.commitDue_eq : v.commitDue = if 448 ≤ v.clk.ns ∧ v.clk.ns < 512 then v.clk.elapsed + 2 else v.clk.elapsed + 1 := by
  have hstroke : v.stroke = 7 ↔ 448 ≤ v.clk.ns ∧ v.clk.ns < 512 := by
    unfold Dev.stroke; omega
  simp only [Dev.commitDue, Dev.now, hstroke]

/-- COMMIT without BLOCKED (R76). -/
theorem Dev.writeCommit_commit (h30 : w.getLsbD 30 = false) (hdue : (v.page p).due = none) :
    v.writeCommit p (w ||| 1) = v.setPage p { v.page p with due := some v.commitDue, owner := none } := by
  have hblocked : bit (w ||| 1).toNat 30 = false := by rw [bit_toNat, BitVec.getLsbD_or, h30]; rfl
  have hcommit : bit (w ||| 1).toNat 0 = true := by rw [bit_toNat]; simp
  simp only [Dev.writeCommit, hblocked, hcommit, Dev.commit, hdue, Option.isSome_none, Bool.false_eq_true, if_true, if_false]

/-- DISCARD without COMMIT and BLOCKED (R77). -/
theorem Dev.writeCommit_discard (h30 : w.getLsbD 30 = false) (h0 : w.getLsbD 0 = false) (hdue : (v.page p).due = none) :
    v.writeCommit p (w ||| 2) = v.discardPage p := by
  have hblocked : bit (w ||| 2).toNat 30 = false := by rw [bit_toNat, BitVec.getLsbD_or, h30]; rfl
  have hcommit : bit (w ||| 2).toNat 0 = false := by rw [bit_toNat, BitVec.getLsbD_or, h0]; rfl
  have hdiscard : bit (w ||| 2).toNat 1 = true := by rw [bit_toNat]; simp
  simp only [Dev.writeCommit, hblocked, hcommit, hdiscard, hdue, Option.isNone_none, Bool.and_self, Bool.false_eq_true, if_true,
    if_false]

end

/-! ### The staging view over the bus -/

section
variable (v : Dev) (off : Nat) (w : Word)

/-- A write that the bus brings to a register that reads. -/
theorem Dev.busWrite_pf0 (hreach : v.reachable .pf0 = true) (hfrozen : v.ep.frozen = false)
    (hmode : v.mode ≠ .vault ∧ v.mode ≠ .fenced) {x : Dev} (hwrite : v.writeReg off w = some x) :
    v.busWrite .pf0 off w = x := by
  have hlink : v.ep.link = true := by
    simp only [Dev.reachable, Bool.and_eq_true] at hreach
    exact hreach.1.1.1
  simp [Dev.busWrite, hlink, hreach, hfrozen, Dev.writeFor, hwrite, Dev.writeBlocked, hmode]

/-- Within a page, offsets from its base. -/
theorem pageBase_of_onPage {p o : Nat} (hp : p % 0x1000 = 0) (h : onPage p o = true) : o / 0x1000 * 0x1000 = p := by
  simp only [onPage, Bool.and_eq_true, decide_eq_true_eq] at h
  omega

/-- A write to the staging view of a register. -/
theorem Dev.writeReg_staged {d : RegDesc} (hreset : v.pageResetting off = false) (hread : (v.readWord .pf0 off).isSome = true)
    (hpage : stagedPage (canonOff off / 0x1000 * 0x1000) = true)
    (hview : canonOff off / 0x1000 * 0x1000 + 0x800 ≤ canonOff off) (hd : cfgDesc (canonOff off - 0x800) = some d) :
    v.writeReg off w = some (v.writeStaged (canonOff off - 0x800) d.mask w) := by
  obtain ⟨x, hx⟩ := Option.isSome_iff_exists.mp hread
  have hne : ¬ canonOff off = canonOff off / 0x1000 * 0x1000 := by omega
  have hle : 0x800 ≤ canonOff off - canonOff off / 0x1000 * 0x1000 := by omega
  simp only [Dev.writeReg, hx, hreset, hpage, if_true, if_neg hne, if_pos hle, hd, Bool.false_eq_true, if_false]

/-- A write to the active view of a staged page. -/
theorem Dev.writeReg_active (hread : (v.readWord .pf0 off).isSome = true)
    (hpage : stagedPage (canonOff off / 0x1000 * 0x1000) = true) (hlo : canonOff off / 0x1000 * 0x1000 < canonOff off)
    (hhi : canonOff off < canonOff off / 0x1000 * 0x1000 + 0x800) : v.writeReg off w = some v := by
  obtain ⟨x, hx⟩ := Option.isSome_iff_exists.mp hread
  have hne : ¬ canonOff off = canonOff off / 0x1000 * 0x1000 := by omega
  have hle : ¬ 0x800 ≤ canonOff off - canonOff off / 0x1000 * 0x1000 := by omega
  simp only [Dev.writeReg, hx, hpage, if_true, if_neg hne, if_neg hle, ite_self]

theorem Dev.writeStaged_free (v : Dev) (o : Nat) (mask w : Word) {p : Nat} (hp : o / 0x1000 * 0x1000 = p)
    (hdue : (v.page p).due = none) : v.writeStaged o mask w =
      { v with regs := { v.regs with staged := Tab.set v.regs.staged o (w &&& mask) } } := by
  subst hp
  simp [Dev.writeStaged, hdue, Dev.stage]

theorem Dev.writeStaged_due (v : Dev) (o : Nat) (mask w : Word) {p : Nat} (hp : o / 0x1000 * 0x1000 = p)
    (hdue : (v.page p).due.isSome = true) : v.writeStaged o mask w = v.setPage p { v.page p with blocked := true } := by
  subst hp
  simp [Dev.writeStaged, hdue]

end

/-! ### A commit takes effect -/

/-- Induction on a list by its last element: the last step of a `foldl` is the one split off. -/
theorem snocInduction {α : Type} {motive : List α → Prop} (l : List α) (nil : motive [])
    (append_singleton : ∀ l a, motive l → motive (l ++ [a])) : motive l := by
  have hreverse : ∀ r : List α, motive r.reverse := fun r => by
    induction r with
    | nil => exact nil
    | cons a r ih =>
      rw [List.reverse_cons]
      exact append_singleton _ a ih
  exact l.reverse_reverse ▸ hreverse l.reverse

/-- Staged values put in force one after another: an offset that is staged once, or always with one value, gets it. -/
theorem Tab.get_foldl_set {α : Type} (l : Tab α) (t : Tab α) (o : Nat) (x : α) (hmem : (o, x) ∈ l)
    (huniq : ∀ y, (o, y) ∈ l → y = x) : Tab.get (l.foldl (fun a e => Tab.set a e.1 e.2) t) o = some x := by
  induction l using snocInduction with
  | nil => cases hmem
  | append_singleton l e ih =>
    rw [List.foldl_append, List.foldl_cons, List.foldl_nil]
    by_cases he : o = e.1
    · rw [he, Tab.get_set, huniq e.2 (by simp [he])]
    · rw [Tab.get_set_ne _ _ he]
      refine ih ?_ fun y hy => huniq y (by simp [hy])
      rcases List.mem_append.mp hmem with h | h
      · exact h
      · rw [List.mem_singleton] at h
        exact absurd (congrArg Prod.fst h) he

theorem Tab.get_foldl_set_of_notMem {α : Type} (l : Tab α) (t : Tab α) (o : Nat) (h : ∀ x, (o, x) ∉ l) :
    Tab.get (l.foldl (fun a e => Tab.set a e.1 e.2) t) o = Tab.get t o := by
  induction l generalizing t with
  | nil => rfl
  | cons e l ih =>
    have hne : o ≠ e.1 := fun he => h e.2 (by simp [he])
    rw [List.foldl_cons, ih _ fun x hx => h x (List.mem_cons_of_mem _ hx), Tab.get_set_ne _ _ hne]

/-- What a filter on keys keeps reads as it did. -/
theorem Tab.get_filter {α : Type} (t : Tab α) (f : Nat → Bool) {o : Nat} (h : f o = true) :
    Tab.get (t.filter (fun e => f e.1)) o = Tab.get t o := by
  induction t with
  | nil => rfl
  | cons e t ih =>
    obtain ⟨k, x⟩ := e
    simp only [List.filter_cons]
    grind [Tab.get]

section
variable (v : Dev) (p : Nat)

theorem onPage_iff {p o : Nat} : onPage p o = true ↔ p ≤ o ∧ o < p + 0x1000 := by
  simp only [onPage, Bool.and_eq_true, decide_eq_true_eq]

theorem Dev.applyPage_cfg_staged {o : Nat} {x : Word} (ho : onPage p o = true) (hmem : (o, x) ∈ v.regs.staged)
    (huniq : ∀ y, (o, y) ∈ v.regs.staged → y = x) : (v.applyPage p).cfg o = x := by
  have hget := Tab.get_foldl_set (v.regs.staged.filter (fun e => onPage p e.1)) v.regs.active o x
    (List.mem_filter.mpr ⟨hmem, ho⟩) fun y hy => huniq y (List.mem_filter.mp hy).1
  simp only [Dev.cfg, Dev.applyPage, Tab.getD, hget, Option.getD_some]

theorem Dev.applyPage_cfg_of_notMem {o : Nat} (h : onPage p o = false ∨ ∀ x, (o, x) ∉ v.regs.staged) :
    (v.applyPage p).cfg o = v.cfg o := by
  have hget := Tab.get_foldl_set_of_notMem (v.regs.staged.filter (fun e => onPage p e.1)) v.regs.active o fun x hx => by
    obtain ⟨hmem, hon⟩ := List.mem_filter.mp hx
    rcases h with hoff | hnone
    · exact absurd (hoff.symm.trans hon) (by decide)
    · exact hnone x hmem
  simp only [Dev.cfg, Dev.applyPage, Tab.getD, hget]

theorem Dev.applyPage_stagedCfg {o : Nat} (h : onPage p o = false) : (v.applyPage p).stagedCfg o = v.stagedCfg o := by
  have hget := Tab.get_filter v.regs.staged (fun e => !onPage p e) (o := o) (by simp [h])
  rw [Dev.stagedCfg, v.applyPage_cfg_of_notMem p (.inl h)]
  simp only [Dev.applyPage, Tab.getD, hget, Dev.stagedCfg]

/-- The staged pages of the blocks that stand alone: all but those of the channels, of the ports, of the rings, of the
spires, of forwarding modes and of the servo. -/
def plainPage (p : Nat) : Prop :=
  p = 0x2000 ∨ p = 0x3000 ∨ p = 0x7000 ∨ p = 0x8000 ∨ p = 0x40000 ∨ p = 0x400000 ∨ p = 0x4000000

theorem Dev.takeVersions_plain (h : plainPage p) : v.takeVersions p = v := by
  have hsub : ((List.range 8).flatMap (fun n => (List.range 4).map (fun k => (n, k)))).find? (fun e => subBase e.1 e.2 == p)
      = none := by
    rcases h with rfl | rfl | rfl | rfl | rfl | rfl | rfl <;> decide
  have hne : p ≠ 0x401000 := by
    rcases h with rfl | rfl | rfl | rfl | rfl | rfl | rfl <;> decide
  rw [Dev.takeVersions, if_neg hne, hsub]

theorem Dev.takePage_plain (h : plainPage p) (howner : (v.page p).owner = none) :
    v.takePage p = (v.applyPage p).setPage p { (v.applyPage p).page p with owner := none } := by
  have hchan : ¬ (0x10000 ≤ p ∧ p < 0x32000) ∧ p ≠ 0x5000 := by unfold plainPage at h; omega
  obtain ⟨hchan, hservo⟩ := hchan
  simp [Dev.takePage, v.takeVersions_plain p h, howner, hservo, if_neg hchan]

theorem Dev.takeStaged_plain (h : plainPage p) {d : Nat} (hdue : (v.page p).due = some d) (hd : d ≤ v.clk.elapsed) :
    v.takeStaged p = v.takePage p := by
  have hbell : v.atBell d = true := by simp [Dev.atBell, Dev.now, hd]
  have hparked : v.pageParked p = false := by
    have hw : windowOf p = none := by
      rcases h with rfl | rfl | rfl | rfl | rfl | rfl | rfl <;> decide
    simp [Dev.pageParked, hw]
  have hgate : gatePage p = none := by
    rcases h with rfl | rfl | rfl | rfl | rfl | rfl | rfl <;> decide
  have hring : (decide (0xC00000 ≤ p) && decide (p < 0xD00000)) = false := by
    rcases h with rfl | rfl | rfl | rfl | rfl | rfl | rfl <;> decide
  simp [Dev.takeStaged, hdue, hbell, hparked, hgate, hring]

theorem Dev.applyPage_page : (v.applyPage p).page p = { v.page p with due := none, count := (v.page p).count + 1 } :=
  Tab.getD_set _ _ _ _

end

end Sys2Proof.Machine

open Sys2Proof Sys2Proof.Machine

/-- Settles O32. -/
theorem stagedPages : Obligations.StagedPages := by
  unfold Obligations.StagedPages
  refine ⟨fun s page off value d => ⟨?_, ?_, ?_, ?_, ?_⟩, fun s p d hmode hcanon hdue hd howner hp => ?_⟩
  · intro hmode hstaged hup hreset hdue h30 hns
    have hc := s.dev.writeCommit_commit (canonOff page) h30 hdue
    simp only [Dev.commitDue_eq, hns, and_true] at hc
    have hguard : (s.dev.mode != .held && stagedPage (canonOff page) && s.dev.windowUp (canonOff page)
        && !s.dev.pageResetting (canonOff page)) = true := by simp [hmode, hstaged, hup, hreset]
    simp only [exec, execPageCommit, State.on, hguard, if_true, hc]
  · intro hmode hstaged hup hreset hdue h30 h0
    have hguard : (s.dev.mode != .held && stagedPage (canonOff page) && s.dev.windowUp (canonOff page)
        && !s.dev.pageResetting (canonOff page)) = true := by simp [hmode, hstaged, hup, hreset]
    simp only [exec, execPageDiscard, State.on, hguard, if_true, s.dev.writeCommit_discard (canonOff page) h30 h0 hdue,
      Dev.discardPage]
  · intro hreach hfrozen hvault hfenced hreset hread hpage hview hd hon hdue
    have hbase := pageBase_of_onPage (by omega) hon
    have hw := s.dev.writeReg_staged off value hreset hread hpage hview hd
    rw [s.dev.writeStaged_free _ _ _ hbase hdue] at hw
    simp [exec, execRegisterWrite, State.on, s.dev.busWrite_pf0 off value hreach hfrozen ⟨hvault, hfenced⟩ hw]
  · intro hreach hfrozen hvault hfenced hreset hread hpage hview hd hbase hdue
    have hw := s.dev.writeReg_staged off value hreset hread hpage hview hd
    rw [s.dev.writeStaged_due _ _ _ hbase hdue] at hw
    simp [exec, execRegisterWrite, State.on, s.dev.busWrite_pf0 off value hreach hfrozen ⟨hvault, hfenced⟩ hw]
  · intro hreach hfrozen hvault hfenced hread hpage hlo hhi
    have hw := s.dev.writeReg_active off value hread hpage hlo hhi
    simp [exec, execRegisterWrite, State.on, s.dev.busWrite_pf0 off value hreach hfrozen ⟨hvault, hfenced⟩ hw]
  · have hexec : exec (.stagedCommitTakeEffect p) s = .next (s.withDev ((s.dev.applyPage p).setPage p
        { (s.dev.applyPage p).page p with owner := none })) := by
      simp [exec, execStagedCommitTakeEffect, State.on, hmode, hcanon, s.dev.takeStaged_plain p hp hdue hd,
        s.dev.takePage_plain p hp howner]
    refine ⟨_, hexec, rfl, fun o x hlo hhi hmem huniq => s.dev.applyPage_cfg_staged p (onPage_iff.mpr ⟨hlo, hhi⟩) hmem huniq,
      fun o hnone => s.dev.applyPage_cfg_of_notMem p (.inr hnone), fun o hout => ?_, ?_, ?_, rfl⟩
    · have hoff : onPage p o = false := by
        rw [Bool.eq_false_iff, ne_eq, onPage_iff]; omega
      exact ⟨s.dev.applyPage_cfg_of_notMem p (.inl hoff), s.dev.applyPage_stagedCfg p hoff⟩
    · simp [Dev.page, Dev.setPage]
      exact congrArg PageState.due (s.dev.applyPage_page p)
    · simp [Dev.page, Dev.setPage]
      exact congrArg PageState.count (s.dev.applyPage_page p)

end


section
/-! SUPPORT. Transmission (R299, R300): the head frame of a class, the choice among the classes as the last one of a list,
and what the frame sent leaves and debits. -/

namespace Sys2Proof.Machine

/-! ### The head frame of a class -/

theorem mem_headsOf {c : Nat} {fs : List Frame} {seen : List Nat} {f : Frame} (h : f ∈ headsOf c fs seen) : f ∈ fs ∧ f.cls = c := by
  induction fs generalizing seen with
  | nil => cases h
  | cons g fs ih =>
    unfold headsOf at h
    split at h
    · rename_i hg
      rcases List.mem_cons.mp h with rfl | h
      · simp only [Bool.and_eq_true, beq_iff_eq] at hg
        exact ⟨List.mem_cons_self, hg.1⟩
      · exact ⟨List.mem_cons_of_mem _ (ih h).1, (ih h).2⟩
    · exact ⟨List.mem_cons_of_mem _ (ih h).1, (ih h).2⟩

/-- The frame of a list whose queue pair has the lowest number, the first of them. -/
def leastFrame (l : List Frame) : Option Frame := l.foldl (fun a f => match a with
  | none => some f
  | some b => if rrKey f < rrKey b then some f else some b) none

theorem mem_of_leastFrame {l : List Frame} {f : Frame} (h : leastFrame l = some f) : f ∈ l := by
  induction l using snocInduction generalizing f with
  | nil => cases h
  | append_singleton l g ih =>
    simp only [leastFrame, List.foldl_append, List.foldl_cons, List.foldl_nil] at h ih
    rw [List.mem_append, List.mem_singleton]
    split at h
    · exact .inr (Option.some.inj h).symm
    · rename_i b hb
      split at h
      · exact .inr (Option.some.inj h).symm
      · exact .inl (Option.some.inj h ▸ ih hb)

theorem Dev.headFrame_eq (v : Dev) (e : Egress) (c : Nat) : v.headFrame e c =
    (leastFrame (((headsOf c e.queue []).filter v.qpPasses).filter (fun f => decide (Tab.getD e.rrNext c 65536 < rrKey f)))).or
      (leastFrame ((headsOf c e.queue []).filter v.qpPasses)) := by
  unfold Dev.headFrame
  dsimp only
  split
  · rename_i h
    exact (congrArg (Option.or · _) h).symm
  · rename_i h
    exact (congrArg (Option.or · _) h).symm

theorem Dev.headFrame_mem (v : Dev) {e : Egress} {c : Nat} {g : Frame} (h : v.headFrame e c = some g) :
    g ∈ e.queue ∧ g.cls = c ∧ v.qpPasses g = true := by
  have hcand : g ∈ (headsOf c e.queue []).filter v.qpPasses := by
    rw [v.headFrame_eq, Option.or_eq_some_iff] at h
    rcases h with h | ⟨-, h⟩
    · exact (List.mem_filter.mp (mem_of_leastFrame h)).1
    · exact mem_of_leastFrame h
  obtain ⟨hhead, hpasses⟩ := List.mem_filter.mp hcand
  exact ⟨(mem_headsOf hhead).1, (mem_headsOf hhead).2, hpasses⟩

/-! ### The class that sends -/

/-- The last value that a function gives over the numbers below `n`. -/
theorem getLast?_filterMap_range {α : Type} {f : Nat → Option α} {n : Nat} {x : α}
    (h : ((List.range n).filterMap f).getLast? = some x) :
    ∃ c, c < n ∧ f c = some x ∧ ∀ d, c < d → d < n → f d = none := by
  induction n with
  | zero => cases h
  | succ n ih =>
    rw [List.range_succ, List.filterMap_append] at h
    cases hn : f n with
    | some y =>
      simp only [List.filterMap_cons, hn, List.filterMap_nil, List.getLast?_append, List.getLast?_singleton, Option.some_or] at h
      exact ⟨n, n.lt_succ_self, hn.trans h, fun d hd hd' => by omega⟩
    | none =>
      simp only [List.filterMap_cons, hn, List.filterMap_nil, List.append_nil] at h
      obtain ⟨c, hc, hfc, hlast⟩ := ih h
      refine ⟨c, by omega, hfc, fun d hd hd' => ?_⟩
      rcases Nat.lt_succ_iff_lt_or_eq.mp hd' with hd' | rfl
      · exact hlast d hd hd'
      · exact hn

theorem filterMap_range_eq_none {α : Type} {f : Nat → Option α} {n : Nat}
    (h : ((List.range n).filterMap f).getLast? = none) {c : Nat} (hc : c < n) : f c = none := by
  rw [List.getLast?_eq_none_iff, List.filterMap_eq_nil_iff] at h
  exact h c (List.mem_range.mpr hc)

section
variable (v : Dev) (n k : Nat)

/-- A class may send its head frame (R299): its gate is open, it is not paused and its peak bucket is not negative. -/
def Dev.Eligible (c : Nat) (g : Frame) : Prop :=
  v.headFrame (v.eg n k) c = some g ∧ v.gateAllows n k g = true ∧ Tab.getD (v.eg n k).paused c 0 ≤ v.mono ∧
  (v.shapeEn n k c = true → 0 ≤ v.peakOf n k c (v.eg n k))

/-- A class is within its committed rate (R299). -/
def Dev.Committed (c : Nat) : Prop := v.shapeEn n k c = false ∨ 0 ≤ v.commitOf n k c (v.eg n k)

/-- What a class offers at a transmit opportunity: its frame and whether it is within its committed rate. -/
def Dev.offer (c : Nat) : Option (Frame × Bool) :=
  match v.headFrame (v.eg n k) c with
  | none => none
  | some f =>
    if v.gateAllows n k f && decide (Tab.getD (v.eg n k).paused c 0 ≤ v.mono)
        && (!v.shapeEn n k c || decide (0 ≤ v.peakOf n k c (v.eg n k))) then
      some (f, !v.shapeEn n k c || decide (0 ≤ v.commitOf n k c (v.eg n k)))
    else none

theorem Dev.offer_eq_some_iff {c : Nat} {f : Frame} {b : Bool} :
    v.offer n k c = some (f, b) ↔ v.Eligible n k c f ∧ (b = true ↔ v.Committed n k c) := by
  unfold Dev.offer Dev.Eligible Dev.Committed
  cases v.headFrame (v.eg n k) c with
  | none => simp
  | some g => cases v.shapeEn n k c <;> grind

/-- An eligible class makes an offer. -/
theorem Dev.offer_ne_none {c : Nat} {f : Frame} (h : v.Eligible n k c f) : v.offer n k c ≠ none := by
  classical
  rw [(v.offer_eq_some_iff n k (b := decide (v.Committed n k c))).mpr ⟨h, decide_eq_true_iff⟩]
  exact Option.some_ne_none _

theorem Dev.chooseFrame_eq : v.chooseFrame n k =
    ((((List.range 8).filterMap fun c => (v.offer n k c).filter (·.2)).getLast?).or
      ((List.range 8).filterMap (v.offer n k)).getLast?).map (·.1) := by
  have hsplit : ∀ a b : Option (Frame × Bool), (match a with
      | some x => some x.1
      | none => b.map (·.1)) = (a.or b).map (·.1) := by
    intro a b
    cases a <;> rfl
  rw [← List.filter_filterMap]
  exact hsplit _ _

/-- Whoever is offered within the committed rate passes the filter. -/
theorem Dev.not_committed_of_filter_eq_none {c : Nat} {g : Frame} (h : (v.offer n k c).filter (·.2) = none)
    (hg : v.Eligible n k c g) : ¬ v.Committed n k c := by
  intro hc
  rw [(v.offer_eq_some_iff n k (b := true)).mpr ⟨hg, iff_of_true rfl hc⟩] at h
  cases h

theorem Dev.chooseFrame_eq_some {f : Frame} (h : v.chooseFrame n k = some f) : ∃ c, c < 8 ∧ v.Eligible n k c f ∧
    (∀ c' g, c < c' → c' < 8 → v.Eligible n k c' g → ¬ v.Committed n k c') ∧
    (v.Committed n k c ∨ ∀ c' g, c' < 8 → v.Eligible n k c' g → c' ≤ c ∧ ¬ v.Committed n k c') := by
  rw [v.chooseFrame_eq, Option.map_eq_some_iff] at h
  obtain ⟨⟨_, b⟩, h, rfl⟩ := h
  rcases Option.or_eq_some_iff.mp h with h | ⟨hnone, h⟩
  · obtain ⟨c, hc, hoffer, hlast⟩ := getLast?_filterMap_range h
    rw [Option.filter_eq_some_iff] at hoffer
    obtain ⟨hoffer, rfl⟩ := hoffer
    obtain ⟨heligible, hcommitted⟩ := (v.offer_eq_some_iff n k).mp hoffer
    exact ⟨c, hc, heligible, fun c' g hlt hlt' hg => v.not_committed_of_filter_eq_none n k (hlast c' hlt hlt') hg,
      .inl (hcommitted.mp rfl)⟩
  · have hnot : ∀ c' g, c' < 8 → v.Eligible n k c' g → ¬ v.Committed n k c' := fun c' g hlt hg =>
      v.not_committed_of_filter_eq_none n k (filterMap_range_eq_none hnone hlt) hg
    obtain ⟨c, hc, hoffer, hlast⟩ := getLast?_filterMap_range h
    refine ⟨c, hc, ((v.offer_eq_some_iff n k).mp hoffer).1, fun c' g _ hlt hg => hnot c' g hlt hg,
      .inr fun c' g hlt hg => ⟨?_, hnot c' g hlt hg⟩⟩
    refine Nat.not_lt.mp fun hgt => ?_
    exact v.offer_ne_none n k hg (hlast c' (by omega) hlt)

theorem Dev.chooseFrame_eq_none (h : v.chooseFrame n k = none) {c : Nat} (g : Frame) (hc : c < 8) : ¬ v.Eligible n k c g := by
  intro hg
  rw [v.chooseFrame_eq, Option.map_eq_none_iff, Option.or_eq_none_iff] at h
  exact v.offer_ne_none n k hg (filterMap_range_eq_none h.2 hc)

end

/-! ### The frame sent -/

section
variable (v : Dev) (n k : Nat) (f : Frame)

/-- The egress queues and buckets after a frame is sent (R299). -/
def Dev.egAfter (e : Egress) : Egress :=
  { e with
    queue := dropFirst (fun x => x == f) e.queue
    rrNext := Tab.set e.rrNext f.cls (rrKey f)
    peak := if v.shapeEn n k f.cls then Tab.set e.peak f.cls (v.peakOf n k f.cls e - (f.len + 20) * 65536) else e.peak
    commit := if v.shapeEn n k f.cls then Tab.set e.commit f.cls (v.commitOf n k f.cls e - (f.len + 20) * 65536) else e.commit }

/-- Before the queue pair's own buckets are debited. -/
def Dev.framed : Dev :=
  (((v.setEg n k (v.egAfter n k f (v.eg n k))).countPort n 0x002 f.len).countPort n 0x004 1).emit
    (.frame (Fin.ofNat 8 n) (Fin.ofNat 4 k) f)

theorem Dev.sendFrame_cases : v.sendFrame n k f = v.framed n k f ∧ f.qp = none ∨
    ∃ q g, f.qp = some q ∧ v.sendFrame n k f = (v.framed n k f).adjQp q g := by
  have hcost : ((frameCost f.len : Nat) : Int) = f.len + 20 := by simp [frameCost]
  unfold Dev.sendFrame
  simp only [hcost]
  cases hq : f.qp with
  | none => exact .inl ⟨rfl, rfl⟩
  | some q => exact .inr ⟨q, _, rfl, rfl⟩

/-- A count moves counters only. -/
theorem Dev.count_frame (v : Dev) (region cls idx ev n : Nat) : ∃ p, v.count region cls idx ev n = { v with pmon := p } := by
  unfold Dev.count
  split
  · exact ⟨v.pmon, rfl⟩
  · exact ⟨_, rfl⟩

/-- Only the egress of the port, the counters and the outputs change. -/
theorem Dev.framed_frame : ∃ p, v.framed n k f =
    ({ v.setEg n k (v.egAfter n k f (v.eg n k)) with pmon := p } : Dev).emit (.frame (Fin.ofNat 8 n) (Fin.ofNat 4 k) f) := by
  obtain ⟨p, hp⟩ := (v.setEg n k (v.egAfter n k f (v.eg n k))).count_frame (portSpire n) 0x01 (n % 2) 0x002 f.len
  obtain ⟨p', hp'⟩ := Dev.count_frame { v.setEg n k (v.egAfter n k f (v.eg n k)) with pmon := p } (portSpire n) 0x01 (n % 2) 0x004 1
  refine ⟨p', ?_⟩
  rw [Dev.framed, Dev.countPort, Dev.countPort, hp, hp']

/-- What a port does when it sends: the frame is among the outputs, its queue and buckets are debited, and everything
but the hosts' queues, the counters and the outputs is as it was. -/
theorem Dev.sendFrame_frame : ∃ p qps, v.sendFrame n k f =
      ({ v with hosts := { v.hosts with egress := Tab.set v.hosts.egress (egKey n k) (v.egAfter n k f (v.eg n k)), qps := qps }
                pmon := p } : Dev).emit (.frame (Fin.ofNat 8 n) (Fin.ofNat 4 k) f) ∧
    (f.qp = none → qps = v.hosts.qps) := by
  obtain ⟨p, hp⟩ := v.framed_frame n k f
  rcases v.sendFrame_cases n k f with ⟨hs, -⟩ | ⟨q, g, hq, hs⟩
  · exact ⟨p, v.hosts.qps, hs.trans hp, fun _ => rfl⟩
  · exact ⟨p, Tab.adjust v.hosts.qps q g, by rw [hs, hp]; rfl, fun h => absurd (hq.symm.trans h) (Option.some_ne_none q)⟩

theorem Dev.sendFrame_eg : (v.sendFrame n k f).eg n k = v.egAfter n k f (v.eg n k) := by
  obtain ⟨p, qps, hs, -⟩ := v.sendFrame_frame n k f
  rw [hs]
  exact Tab.getD_set ..

end

theorem execTransmitOpportunity_of_chosen {s : State} {port : Port} {sub : Sub} {f : Frame} (htransport : s.dev.transportOn = true)
    (hlink : s.dev.linkUp port.val sub.val = true) (hchosen : s.dev.chooseFrame port.val sub.val = some f) :
    exec (.transmitOpportunity port sub) s = .next (s.withDev (s.dev.sendFrame port.val sub.val f)) := by
  simp only [exec, execTransmitOpportunity, State.on_eq, htransport, hlink, hchosen, Bool.and_self, if_true]

theorem execTransmitOpportunity_of_none {s : State} (port : Port) (sub : Sub)
    (h : s.dev.linkUp port.val sub.val = false ∨ s.dev.chooseFrame port.val sub.val = none) :
    exec (.transmitOpportunity port sub) s = .next s := by
  rcases h with h | h
  · simp only [exec, execTransmitOpportunity, State.on_eq, h, Bool.and_false, Bool.false_eq_true, if_false]
  · simp only [exec, execTransmitOpportunity, State.on_eq, h, ite_self]

end Sys2Proof.Machine

open Sys2Proof Sys2Proof.Machine

/-- Settles O38: what a transmit opportunity sends is what `Dev.chooseFrame` names, and the choice is the last offer of the classes. -/
theorem transmission : Obligations.Transmission := by
  refine ⟨fun s port sub f => ⟨fun htransport hlink hchosen => ?_, fun h => ?_, fun h => ?_,
      fun h => execTransmitOpportunity_of_none port sub (.inr h), fun h => execTransmitOpportunity_of_none port sub (.inl h)⟩,
    fun v n k => ⟨fun c g => v.headFrame_mem, fun f => v.chooseFrame_eq_some n k, fun h c g => v.chooseFrame_eq_none n k h g⟩⟩
  · refine ⟨s.dev.sendFrame port.val sub.val f, execTransmitOpportunity_of_chosen htransport hlink hchosen, ?_⟩
    rw [Dev.sendFrame_eg]
    obtain ⟨p, qps, hs, hqps⟩ := s.dev.sendFrame_frame port.val sub.val f
    rw [hs]
    refine ⟨?_, rfl, fun h => ?_, fun h => ?_, hqps, rfl, rfl, rfl, rfl, rfl, rfl⟩
    · rw [show Fin.ofNat 8 port.val = port from Fin.ofNat_val_eq_self port, show Fin.ofNat 4 sub.val = sub from Fin.ofNat_val_eq_self sub]
      exact List.mem_append_right _ (List.mem_singleton_self _)
    · simp only [Dev.egAfter, h, if_true, Tab.get_set, and_self]
    · simp only [Dev.egAfter, h, Bool.false_eq_true, if_false, and_self]
  · simp only [Dev.enqueue, h, if_true, Dev.eg_setEg]
  · simp only [Dev.enqueue, h, Bool.false_eq_true, if_false]

end


section
/-! SUPPORT. What the queues of a port and the receipt of a packet leave alone; the congestion window (R234); and the
request packets that a queue pair lets go, by the invariant `Qp.Launched` of the loop that sends them. -/

namespace Sys2Proof.Machine

/-! ### Frames -/

/-- A frame that joins a queue, or finds no room, changes the port's queues and counters only. -/
theorem Dev.enqueue_frame (v : Dev) (n k : Nat) (f : Frame) : ∃ eg p,
    v.enqueue n k f = { v with hosts := { v.hosts with egress := eg }, pmon := p } := by
  unfold Dev.enqueue
  split
  · exact ⟨_, v.pmon, rfl⟩
  · obtain ⟨p, hp⟩ := v.count_frame (portSpire n) 0x01 (n % 2) 0x014 1
    exact ⟨v.hosts.egress, p, hp⟩

/-- The receipt of a packet changes counters and the idle time of the port's spire only. -/
theorem Dev.received_frame (v : Dev) (n len : Nat) : ∃ sp p,
    v.received n len = { v with chip := { v.chip with spires := sp }, pmon := p } := by
  obtain ⟨p, hp⟩ := v.count_frame (portSpire n) 0x01 (n % 2) 0x001 len
  obtain ⟨p', hp'⟩ := Dev.count_frame { v with pmon := p } (portSpire n) 0x01 (n % 2) 0x003 1
  unfold Dev.received
  dsimp only
  rw [Dev.countPort, Dev.countPort, hp, hp']
  split
  · exact ⟨v.chip.spires, p', rfl⟩
  · exact ⟨_, p', rfl⟩

@[simp] theorem Dev.qp_enqueue (v : Dev) (n k : Nat) (f : Frame) (m : Nat) : (v.enqueue n k f).qp m = v.qp m := by
  obtain ⟨eg, p, h⟩ := v.enqueue_frame n k f
  rw [h]
  rfl

@[simp] theorem Dev.qp_received (v : Dev) (n len m : Nat) : (v.received n len).qp m = v.qp m := by
  obtain ⟨sp, p, h⟩ := v.received_frame n len
  rw [h]
  rfl

/-- The congestion control reads the registers and the time, which the receipt of a packet leaves alone. -/
theorem Dev.congestion_received (v : Dev) (n len : Nat) (q : Qp) (rtt acked : Nat) :
    (v.received n len).congestion q rtt acked = v.congestion q rtt acked := by
  obtain ⟨sp, p, h⟩ := v.received_frame n len
  rw [h]
  rfl

theorem Dev.receivedOn_eq {v : Dev} {qp : Nat} {q : Qp} (hq : v.qp qp = some q) (n : Nat) :
    v.receivedOn qp n = v.received q.port.val (roceLen q.ipv6 n) := by
  simp only [Dev.receivedOn, hq]

/-! ### The congestion window -/

/-- What the window is lowered to lies between half of it and itself, and is at least one MTU. -/
theorem lowered_bounds {q : Qp} (hmtu : q.mtu ≤ q.wnd) (num den : Nat) :
    q.mtu ≤ lowered q num den ∧ q.wnd / 2 ≤ lowered q num den ∧ lowered q num den ≤ q.wnd := by
  have := Nat.div_le_self q.wnd 2
  unfold lowered
  omega

section
variable (v : Dev) (q : Qp) (rtt acked : Nat)

/-- The smoothed round trip (R234). -/
def Qp.smoothed : Nat := match q.srtt with
  | none => rtt
  | some x => (7 * x + rtt) / 8

theorem Dev.congestion_off (h : v.spireCfg q.home.val 6 0x3000C 31 31 = 0) : v.congestion q rtt acked =
    { q with srtt := some (q.smoothed rtt), wnd := v.maxWnd q.home.val q.mtu, pacing := none } := by
  unfold Dev.congestion
  exact if_pos h

/-- With the control on, the window and the time of the last decrease follow the round trip; the pacing follows the window. -/
theorem Dev.congestion_on (h : v.spireCfg q.home.val 6 0x3000C 31 31 ≠ 0) : ∃ w t, v.congestion q rtt acked =
      { q with srtt := some (q.smoothed rtt), wnd := w, lastDecrease := t, pacing := paceOf w (q.smoothed rtt) } ∧
    (rtt ≤ v.spireCfg q.home.val 6 0x30004 15 0 → t = q.lastDecrease ∧ ∃ g, w = min (v.maxWnd q.home.val q.mtu) (q.wnd + g)) ∧
    (v.spireCfg q.home.val 6 0x30004 15 0 < rtt → w = q.wnd ∨ ∃ num den, w = lowered q num den) := by
  unfold Dev.congestion Qp.smoothed
  dsimp only
  rw [if_neg h]
  cases q.srtt
  all_goals
    dsimp only
    split
    · rename_i hle
      exact ⟨_, q.lastDecrease, rfl, fun _ => ⟨rfl, _, rfl⟩, fun hlt => absurd hle (Nat.not_le.mpr hlt)⟩
    · rename_i hgt
      split
      · exact ⟨_, v.mono, rfl, fun hle => absurd hle hgt, fun _ => .inr ⟨_, _, rfl⟩⟩
      · exact ⟨q.wnd, q.lastDecrease, rfl, fun hle => absurd hle hgt, fun _ => .inl rfl⟩

/-- What the control never touches. -/
theorem Dev.congestion_frame : ∃ w t p, v.congestion q rtt acked =
    { q with srtt := some (q.smoothed rtt), wnd := w, lastDecrease := t, pacing := p } := by
  by_cases h : v.spireCfg q.home.val 6 0x3000C 31 31 = 0
  · exact ⟨_, _, _, v.congestion_off q rtt acked h⟩
  · obtain ⟨w, t, heq, -⟩ := v.congestion_on q rtt acked h
    exact ⟨w, t, _, heq⟩

end

/-! ### The packets let go -/

/-- `z` is `q` after its first `k` waiting packets were sent under consecutive PSNs (R234). -/
structure Qp.Launched (q z : Qp) (k : Nat) : Prop where
  waiting : z.waiting = q.waiting.drop k
  txPsn : z.txPsn = q.txPsn + BitVec.ofNat 24 k
  atMost : k ≤ q.waiting.length
  count : z.unacked.length = q.unacked.length + k
  wnd : z.wnd = q.wnd
  psns : ∀ i u, z.unacked[q.unacked.length + i]? = some u → u.psn = q.txPsn + BitVec.ofNat 24 i
  fits : q.unackedBytes ≤ q.wnd → z.unackedBytes ≤ z.wnd

/-- A queue pair after the packet at the front of its waiting ones is sent. -/
def Qp.launched (q : Qp) (f : Frame) (t : Nat) : Qp :=
  { q with waiting := q.waiting.drop 1, txPsn := q.txPsn + 1,
           unacked := q.unacked ++ [⟨q.txPsn, f.what.payload, t, { f with psn := some q.txPsn }⟩] }

theorem Qp.unackedBytes_launched (q : Qp) (f : Frame) (t : Nat) :
    (q.launched f t).unackedBytes = q.unackedBytes + f.what.payload := by
  simp only [Qp.unackedBytes, Qp.launched, sumMap, List.foldl_append, List.foldl_cons, List.foldl_nil]

theorem Qp.Launched.refl (q : Qp) : q.Launched q 0 where
  waiting := rfl
  txPsn := (BitVec.add_zero _).symm
  atMost := Nat.zero_le _
  count := rfl
  wnd := rfl
  psns i u h := by
    rw [List.getElem?_eq_none (Nat.le_add_right _ _)] at h
    cases h
  fits := id

theorem Qp.Launched.step {q z : Qp} {k : Nat} {f : Frame} {rest : List Frame} (h : q.Launched z k)
    (hwaiting : z.waiting = f :: rest) (hfits : z.fitsWnd f.what.payload = true) (t : Nat) : q.Launched (z.launched f t) (k + 1) where
  waiting := by simp only [Qp.launched, h.waiting, List.drop_drop]
  txPsn := by
    simp only [Qp.launched, h.txPsn, BitVec.add_assoc, BitVec.ofNat_add]
    rfl
  atMost := by
    refine Nat.not_lt.mp fun hgt => ?_
    have hnil : z.waiting = [] := by rw [h.waiting, List.drop_eq_nil_iff]; omega
    exact List.cons_ne_nil f rest (hwaiting.symm.trans hnil)
  count := by simp only [Qp.launched, List.length_append, List.length_singleton, h.count, Nat.add_assoc]
  wnd := h.wnd
  psns i u hu := by
    simp only [Qp.launched] at hu
    rcases Nat.lt_or_ge (q.unacked.length + i) z.unacked.length with hlt | hge
    · rw [List.getElem?_append_left hlt] at hu
      exact h.psns i u hu
    · rw [List.getElem?_append_right hge, List.getElem?_singleton] at hu
      split at hu
      · rename_i hzero
        obtain rfl : i = k := by have := h.count; omega
        exact (Option.some.inj hu) ▸ h.txPsn
      · cases hu
  fits _ := by
    rw [Qp.unackedBytes_launched]
    exact of_decide_eq_true hfits

theorem Dev.qp_launch (v : Dev) (n : Nat) (q : Qp) (f : Frame) : (v.launch n q f).qp n = some (q.launched f v.mono) := by
  simp only [Dev.launch, Dev.qp_enqueue, Dev.qp_setQp]
  rfl

/-- The loop stops where nothing waits or the next packet has no room. -/
theorem Dev.launchN_spec {q : Qp} (m : Nat) : ∀ {v : Dev} {n k : Nat} {z : Qp}, v.qp n = some z → q.Launched z k → z.waiting.length ≤ m →
    ∃ z' k', (Dev.launchN m v n).qp n = some z' ∧ q.Launched z' k' ∧
      ∀ f, z'.waiting.head? = some f → z'.wnd < z'.unackedBytes + f.what.payload := by
  induction m with
  | zero =>
    intro v n k z hz h hlen
    refine ⟨z, k, hz, h, fun f hf => ?_⟩
    rw [List.length_eq_zero_iff.mp (Nat.le_zero.mp hlen)] at hf
    cases hf
  | succ m ih =>
    intro v n k z hz h hlen
    simp only [Dev.launchN, hz]
    cases hw : z.waiting with
    | nil => exact ⟨z, k, hz, h, fun f hf => by rw [hw] at hf; cases hf⟩
    | cons f rest =>
      dsimp only
      split
      · rename_i hfits
        refine ih (v.qp_launch n z f) (h.step hw hfits v.mono) ?_
        simp only [Qp.launched, List.length_drop]
        omega
      · rename_i hfits
        refine ⟨z, k, hz, h, fun g hg => ?_⟩
        obtain rfl : f = g := by rw [hw] at hg; exact Option.some.inj hg
        simpa only [Qp.fitsWnd, decide_eq_true_eq, Nat.not_le] using hfits

/-! ### The events of the requester -/

section
variable {s : State} {qp : Nat} {psn : BitVec 24} {q : Qp}

theorem execMirrorContextHeld_fresh (hq : s.dev.qp qp = some q) (hready : s.dev.qpReady qp = true)
    (hbefore : serialBefore (2 ^ 24) psn.toNat q.rxPsn.toNat = true)
    (hfresh : serialBefore (2 ^ 24) psn.toNat q.mirrorPsn.toNat = false) : exec (.mirrorContextHeld qp psn) s = .next (s.withDev <|
      (s.dev.adjQp qp (fun x => { x with mirrorPsn := psn + 1, ackedPsn := psn + 1 })).respond qp (.ack psn)) := by
  simp only [exec, execMirrorContextHeld, State.on_eq, hq, hready, hbefore, hfresh, Bool.not_false, Bool.and_self, if_true]

theorem execAckReceive_ready (hq : s.dev.qp qp = some q) (hready : s.dev.qpReady qp = true) : exec (.ackReceive qp psn) s =
    .next (s.withDev ((s.dev.received q.port.val (roceLen q.ipv6 4)).takeAck qp psn)) := by
  simp only [exec, execAckReceive, State.on_eq, hready, if_true, Dev.receivedOn_eq hq]

theorem execAckTimeout_due {u : Unacked} {rest : List Unacked} (hq : s.dev.qp qp = some q) (hu : q.unacked = u :: rest)
    (hready : s.dev.qpReady qp = true) (hdue : u.sentAt + s.dev.ackTimeoutNs q.home.val ≤ s.dev.mono) : exec (.ackTimeout qp) s =
      .next (s.withDev (if s.dev.spireCfg q.home.val 6 0x30010 23 21 ≤ q.retries then s.dev.faultQp qp else
        (s.dev.setQp qp { q with retries := q.retries + 1
                                 unacked := q.unacked.map (fun (x : Unacked) => { x with sentAt := s.dev.mono }) }).resend qp
          (fun _ => true))) := by
  simp only [exec, execAckTimeout, State.on_eq, hq, hu, hready, hdue, decide_true, Bool.and_self, if_true]

theorem execCnpReceive_off (hq : s.dev.qp qp = some q) (hready : s.dev.qpReady qp = true)
    (hoff : s.dev.spireCfg q.home.val 6 0x3000C 31 31 = 0) : exec (.cnpReceive qp) s = .next (s.withDev <|
      ((s.dev.received q.port.val (roceLen q.ipv6 16)).countPort q.port.val 0x019 1).setQp qp { q with cnpCount := q.cnpCount + 1 }) := by
  simp only [exec, execCnpReceive, State.on_eq, hq, hready, if_true, Dev.receivedOn_eq hq, hoff, Nat.zero_ne_one, decide_false,
    Bool.and_false, Bool.false_and, Bool.false_eq_true, if_false]

theorem execHostRnrNak_known (hq : s.dev.qp qp = some q) (hready : s.dev.qpReady qp = true) (hknown : ∃ y ∈ q.unacked, y.psn = psn) :
    exec (.hostRnrNak qp psn) s = .next (s.withDev (
      if s.dev.spireCfg q.home.val 6 0x30010 15 13 ≠ 7 ∧ s.dev.spireCfg q.home.val 6 0x30010 15 13 ≤ q.rnrRetries then
        (s.dev.received q.port.val (roceLen q.ipv6 4)).faultQp qp
      else ((s.dev.received q.port.val (roceLen q.ipv6 4)).setQp qp { q with rnrRetries := q.rnrRetries + 1 }).resend qp
        (fun y => !(serialBefore (2 ^ 24) y.psn.toNat psn.toNat)))) := by
  have hany : q.unacked.any (fun u => u.psn == psn) = true := by simpa only [List.any_eq_true, beq_iff_eq] using hknown
  simp only [exec, execHostRnrNak, State.on_eq, hq, hready, hany, Bool.and_self, if_true, Dev.receivedOn_eq hq, Bool.and_eq_true,
    decide_eq_true_eq, ne_eq, and_self]

/-- A queue pair that is not ready hears none of these events. -/
theorem requester_idle (h : s.dev.qpReady qp = false) : exec (.mirrorContextHeld qp psn) s = .next s ∧
    exec (.ackReceive qp psn) s = .next s ∧ exec (.ackTimeout qp) s = .next s ∧ exec (.cnpReceive qp) s = .next s ∧
    exec (.hostRnrNak qp psn) s = .next s := by
  simp only [exec, execMirrorContextHeld, execAckReceive, execAckTimeout, execCnpReceive, execHostRnrNak, State.on_eq, h,
    Bool.false_and, Bool.false_eq_true, if_false]
  cases s.dev.qp qp with
  | none => simp only [and_self]
  | some q => cases hu : q.unacked <;> simp only [hu, and_self]

end

theorem Dev.takeAck_of_covered {v : Dev} {qp : Nat} {psn : BitVec 24} {q : Qp} {l : Unacked} (hq : v.qp qp = some q)
    (hl : (coveredBy psn q.unacked).getLast? = some l) (hpsn : l.psn = psn) : v.takeAck qp psn =
      ((v.setQp qp (v.congestion { q with unacked := q.unacked.drop (coveredBy psn q.unacked).length, retries := 0, rnrRetries := 0 }
        (v.mono - l.sentAt) (sumMap (·.bytes) (coveredBy psn q.unacked)))).adjSession q.session
          (fun x => x.acked qp (coveredBy psn q.unacked))).launchQp qp := by
  simp only [Dev.takeAck, hq, hl, hpsn, BEq.rfl, if_true]

theorem Dev.takeAck_of_nothing {v : Dev} {qp : Nat} {psn : BitVec 24} {q : Qp} (hq : v.qp qp = some q)
    (h : coveredBy psn q.unacked = []) : v.takeAck qp psn = v := by
  simp only [Dev.takeAck, hq, h, List.getLast?_nil]

theorem Dev.received_mono (v : Dev) (n len : Nat) : (v.received n len).mono = v.mono := by
  obtain ⟨sp, p, h⟩ := v.received_frame n len
  rw [h]
  rfl

end Sys2Proof.Machine

open Sys2Proof Sys2Proof.Machine

/-- Settles O41: each event by its guard; the window by the bounds of what it is raised or lowered to; the packets let go by
the invariant of the loop that sends them. -/
theorem requesterEvents : Obligations.RequesterEvents := by
  refine ⟨fun s qp psn q u rest => ⟨execMirrorContextHeld_fresh, fun l hq hready hl hpsn => ?_, fun hq hready hnil => ?_,
      fun hq hu hready hdue => ⟨fun h => ?_, fun h => ?_⟩, fun hq hu => ?_, execCnpReceive_off,
      fun hq hready hknown => ⟨fun h h' => ?_, fun h => ?_⟩, requester_idle⟩, fun v q rtt acked => ?_,
    fun v n q hq => ⟨fun h => ?_, fun h => ?_⟩⟩
  · rw [execAckReceive_ready hq hready, Dev.takeAck_of_covered ((Dev.qp_received ..).trans hq) hl hpsn, Dev.congestion_received,
      Dev.received_mono]
  · rw [execAckReceive_ready hq hready, Dev.takeAck_of_nothing ((Dev.qp_received ..).trans hq) hnil]
  · rw [execAckTimeout_due hq hu hready hdue, if_pos h]
  · rw [execAckTimeout_due hq hu hready hdue, if_neg (Nat.not_le.mpr h)]
  · simp only [exec, execAckTimeout, State.on_eq, hq, hu]
  · rw [execHostRnrNak_known hq hready hknown, if_pos ⟨h, h'⟩]
  · rw [execHostRnrNak_known hq hready hknown, if_neg (by omega)]
  · obtain ⟨w, t, p, hframe⟩ := v.congestion_frame q rtt acked
    refine ⟨fun hoff => ?_, fun hon hle hwnd => ?_, fun hon hgt hmtu => ?_, fun h => ?_, fun x h => ?_, ?_⟩
    · rw [v.congestion_off q rtt acked hoff]
      exact ⟨rfl, rfl⟩
    · obtain ⟨w, t, h, hgrow, -⟩ := v.congestion_on q rtt acked (hon ▸ Nat.one_ne_zero)
      obtain ⟨rfl, g, rfl⟩ := hgrow hle
      rw [h]
      exact ⟨Nat.le_min_of_le_of_le hwnd (Nat.le_add_right _ _), Nat.min_le_left _ _, rfl⟩
    · obtain ⟨w, t, h, -, hfall⟩ := v.congestion_on q rtt acked (hon ▸ Nat.one_ne_zero)
      rw [h]
      rcases hfall hgt with rfl | ⟨num, den, rfl⟩
      · exact ⟨hmtu, Nat.div_le_self _ _, (Nat.le_refl _)⟩
      · exact lowered_bounds hmtu num den
    · simp only [hframe, Qp.smoothed, h]
    · simp only [hframe, Qp.smoothed, h]
    · rw [hframe]
      exact ⟨rfl, rfl, rfl, rfl⟩
  · simp only [Dev.launchQp, hq, beq_eq_false_iff_ne.mpr h, Bool.false_eq_true, if_false]
  · obtain ⟨z, k, hz, hlaunched, hhead⟩ := Dev.launchN_spec q.waiting.length hq (.refl q) (Nat.le_refl _)
    refine ⟨z, k, ?_, hlaunched.waiting, hlaunched.txPsn, hlaunched.atMost, hlaunched.count, hlaunched.wnd, hlaunched.psns,
      hlaunched.fits, hhead⟩
    rw [← hz]
    simp only [Dev.launchQp, hq, h, BEq.rfl, if_true]

end


section
/-! SUPPORT. What the release of queue pairs and the close of a session only take away: `Dev.Sheds`, one lemma an operation. -/

namespace Sys2Proof.Machine

/-! ### The relation -/

/-- `w` has no queue pair, message, read, command or path of a session that `v` has not, and its queues hold every frame
of no queue pair that those of `v` hold. -/
structure Dev.Sheds (v w : Dev) : Prop where
  qps : ∀ n, v.qp n = none → w.qp n = none
  queues : ∀ n k f, f.qp = none → f ∈ (v.eg n k).queue → f ∈ (w.eg n k).queue
  cmds : w.floder.cmds ⊆ v.floder.cmds
  inbox : w.hosts.inbox ⊆ v.hosts.inbox
  reads : w.hosts.reads ⊆ v.hosts.reads
  paths : ∀ sn x, w.session sn = some x → ∃ y, v.session sn = some y ∧ ∀ p ∈ x.paths, ∃ p' ∈ y.paths, p'.qp = p.qp

namespace Dev.Sheds

variable {u v w : Dev}

theorem refl (v : Dev) : v.Sheds v where
  qps _ := id
  queues _ _ _ _ := id
  cmds := List.Subset.refl _
  inbox := List.Subset.refl _
  reads := List.Subset.refl _
  paths _ x h := ⟨x, h, fun p hp => ⟨p, hp, rfl⟩⟩

theorem trans (h : u.Sheds v) (k : v.Sheds w) : u.Sheds w where
  qps n hn := k.qps n (h.qps n hn)
  queues n i f hf hm := k.queues n i f hf (h.queues n i f hf hm)
  cmds := List.Subset.trans k.cmds h.cmds
  inbox := List.Subset.trans k.inbox h.inbox
  reads := List.Subset.trans k.reads h.reads
  paths sn x hx := by
    obtain ⟨y, hy, hpaths⟩ := k.paths sn x hx
    obtain ⟨z, hz, hpaths'⟩ := h.paths sn y hy
    refine ⟨z, hz, fun p hp => ?_⟩
    obtain ⟨p', hp', heq⟩ := hpaths p hp
    obtain ⟨p'', hp'', heq'⟩ := hpaths' p' hp'
    exact ⟨p'', hp'', heq'.trans heq⟩

theorem foldl {α : Type} {f : Dev → α → Dev} (h : ∀ (v : Dev) a, v.Sheds (f v a)) (l : List α) (v : Dev) : v.Sheds (l.foldl f v) := by
  induction l generalizing v with
  | nil => exact refl v
  | cons a l ih => exact (h v a).trans (ih (f v a))

/-- An operation that leaves the parts the relation speaks of alone. -/
theorem of_eq (hqps : w.hosts.qps = v.hosts.qps) (hegress : w.hosts.egress = v.hosts.egress) (hcmds : w.floder.cmds = v.floder.cmds)
    (hinbox : w.hosts.inbox = v.hosts.inbox) (hreads : w.hosts.reads = v.hosts.reads) (hsessions : w.hosts.sessions = v.hosts.sessions) :
    v.Sheds w where
  qps n hn := (congrArg (Tab.get · n) hqps).trans hn
  queues n k f _ hf := (congrArg (fun t => (Tab.getD t (egKey n k) Egress.reset).queue) hegress) ▸ hf
  cmds := hcmds ▸ List.Subset.refl _
  inbox := hinbox ▸ List.Subset.refl _
  reads := hreads ▸ List.Subset.refl _
  paths sn x hx := ⟨x, (congrArg (Tab.get · sn) hsessions).symm.trans hx, fun p hp => ⟨p, hp, rfl⟩⟩

/-- The parts of the relation in which the sessions do not stand. -/
theorem of_sessions (hqps : w.hosts.qps = v.hosts.qps) (hegress : w.hosts.egress = v.hosts.egress)
    (hcmds : w.floder.cmds = v.floder.cmds) (hinbox : w.hosts.inbox = v.hosts.inbox) (hreads : w.hosts.reads = v.hosts.reads)
    (hpaths : ∀ sn x, w.session sn = some x → ∃ y, v.session sn = some y ∧ ∀ p ∈ x.paths, ∃ p' ∈ y.paths, p'.qp = p.qp) :
    v.Sheds w :=
  { of_eq (w := { w with hosts := { w.hosts with sessions := v.hosts.sessions } }) hqps hegress hcmds hinbox hreads rfl with
    paths := hpaths }

end Dev.Sheds

/-! ### One lemma an operation -/

theorem Dev.adjSession_sheds (v : Dev) (sn : Nat) {f : Session → Session}
    (h : ∀ x, ∀ p ∈ (f x).paths, ∃ p' ∈ x.paths, p'.qp = p.qp) : v.Sheds (v.adjSession sn f) := by
  refine .of_sessions rfl rfl rfl rfl rfl fun m x hx => ?_
  rw [Dev.session, Dev.adjSession, Tab.get_adjust] at hx
  split at hx
  · obtain ⟨y, hy, rfl⟩ := Option.map_eq_some_iff.mp hx
    exact ⟨y, hy, h y⟩
  · exact ⟨x, hx, fun p hp => ⟨p, hp, rfl⟩⟩

theorem Dev.adjSession_sheds_of_paths (v : Dev) (sn : Nat) {f : Session → Session} (h : ∀ x, (f x).paths = x.paths) :
    v.Sheds (v.adjSession sn f) :=
  v.adjSession_sheds sn fun x p hp => ⟨p, h x ▸ hp, rfl⟩

theorem Dev.count_sheds (v : Dev) (region cls idx ev n : Nat) : v.Sheds (v.count region cls idx ev n) := by
  obtain ⟨p, h⟩ := v.count_frame region cls idx ev n
  rw [h]
  exact .of_eq rfl rfl rfl rfl rfl rfl

theorem Dev.countKeep_sheds (v : Dev) (cls ev n : Nat) : v.Sheds (v.countKeep cls ev n) := by
  have key : ∀ (w : Dev) (k : KeepId) (r : Nat), w.Sheds (if w.keepSound k then w.count r cls 0 ev n else w) := by
    intro w k r
    split
    · exact w.count_sheds ..
    · exact .refl w
  exact (key v .A 4).trans (key _ .B 5)

theorem Dev.build_sheds (v : Dev) (sn : Nat) (e : Entry) (qp tally from_ : Option Nat) : v.Sheds (v.build sn e qp tally from_) :=
  v.adjSession_sheds_of_paths sn fun _ => rfl

theorem Dev.answer_sheds (v : Dev) (sn : Nat) (d : Delivered) (st : Byte) (x : ExtInfo) (off len : Nat) :
    v.Sheds (v.answer sn d st x off len) :=
  v.build_sheds ..

theorem Dev.answerRecord_sheds (v : Dev) (sn : Nat) (d : Delivered) (r : Record) : v.Sheds (v.answerRecord sn d r) := by
  refine Dev.Sheds.trans ?_ (Dev.build_sheds ..)
  cases v.session sn with
  | none => exact .refl v
  | some s =>
    dsimp only
    split
    · exact v.count_sheds ..
    · exact .refl v

theorem Dev.releaseDups_sheds (v : Dev) (sn : Nat) (t : BitVec 32) : v.Sheds (v.releaseDups sn t) := by
  unfold Dev.releaseDups
  refine Dev.Sheds.trans ?_ (.foldl (fun w e => ?_) _ _)
  · exact .of_eq rfl rfl rfl rfl rfl rfl
  split
  · exact w.answerRecord_sheds ..
  · exact w.answer_sheds ..

theorem Dev.dropTally_sheds (v : Dev) (sn : Nat) (t : BitVec 32) : v.Sheds (v.dropTally sn t) := by
  refine Dev.Sheds.trans ?_ (Dev.releaseDups_sheds ..)
  exact v.adjSession_sheds_of_paths sn fun _ => rfl

theorem Dev.endGrant_sheds (v : Dev) (sn tag : Nat) : v.Sheds (v.endGrant sn tag) := by
  have key : ∀ (w : Dev) (f : Session → Session) (l : List Grant), (∀ x, (f x).paths = x.paths) → v.Sheds w →
      v.Sheds { w.adjSession sn f with hosts := { (w.adjSession sn f).hosts with grants := l } } := fun w f l hf hw =>
    (hw.trans (w.adjSession_sheds_of_paths sn hf)).trans (.of_eq rfl rfl rfl rfl rfl rfl)
  refine key _ _ _ (fun _ => rfl) ?_
  split
  · exact .refl v
  · exact .of_eq rfl rfl rfl rfl rfl rfl

theorem Dev.uncharge_sheds (v : Dev) (claim n : Nat) : v.Sheds (v.uncharge claim n) := .of_eq rfl rfl rfl rfl rfl rfl

theorem Dev.dropCtx_sheds (v : Dev) (c : Ctx) : v.Sheds (v.dropCtx c) := by
  have hend : ∀ w : Dev, w.Sheds (match c.grantTag with | some t => w.endGrant c.session t | none => w) := by
    intro w
    split
    · exact w.endGrant_sheds ..
    · exact .refl w
  have hcredit : ∀ w : Dev, w.Sheds (if c.credit = 0 then w else w.countKeep 0x10 0x002 c.credit) := by
    intro w
    split
    · exact .refl w
    · exact w.countKeep_sheds ..
  refine Dev.Sheds.trans (Dev.Sheds.trans ?_ (hcredit _)) (hend _)
  split
  · exact .of_eq rfl rfl rfl rfl rfl rfl
  · split <;> exact .of_eq rfl rfl rfl rfl rfl rfl

theorem Dev.discardCtx_sheds (v : Dev) (c : Ctx) : v.Sheds (v.discardCtx c) := by
  unfold Dev.discardCtx
  split
  · exact (v.dropCtx_sheds c).trans (Dev.dropTally_sheds ..)
  · exact v.dropCtx_sheds c

theorem Dev.discardInbox_sheds (v : Dev) (q : Nat) : v.Sheds (v.discardInbox q) :=
  (Dev.Sheds.foldl Dev.discardCtx_sheds _ v).trans
    { Dev.Sheds.refl _ with inbox := List.filter_sublist.subset }

theorem Dev.abortReads_sheds (v : Dev) (q : Nat) : v.Sheds (v.abortReads q) :=
  Dev.Sheds.trans (v := { v with hosts := { v.hosts with reads := v.hosts.reads.filter (fun r => r.qp != q) } })
    { Dev.Sheds.refl v with reads := List.filter_sublist.subset }
    (.foldl (fun w r => w.answer_sheds ..) _ _)

/-- A queue that keeps the frames of no queue pair. -/
theorem Dev.setEg_sheds (v : Dev) (n k : Nat) (e : Egress) (h : ∀ f, f.qp = none → f ∈ (v.eg n k).queue → f ∈ e.queue) :
    v.Sheds (v.setEg n k e) :=
  { Dev.Sheds.refl v with
    queues := fun m i f hf hm => by
      by_cases hkey : egKey m i = egKey n k
      · simp only [Dev.eg, Dev.setEg, hkey, Tab.getD_set] at hm ⊢
        exact h f hf hm
      · simp only [Dev.eg, Dev.setEg, Tab.getD_set_ne _ _ _ hkey] at hm ⊢
        exact hm }

theorem Dev.unqueue_sheds (v : Dev) (n : Nat) : v.Sheds (v.unqueue n) := by
  unfold Dev.unqueue
  split
  · exact .refl v
  · dsimp only
    split
    · refine v.setEg_sheds _ _ _ fun f hf hm => List.mem_map.mpr ⟨f, hm, if_neg ?_⟩
      simp only [hf, reduceCtorEq, beq_iff_eq, not_false_eq_true]
    · exact .refl v

theorem Dev.enqueue_sheds (v : Dev) (n k : Nat) (f : Frame) : v.Sheds (v.enqueue n k f) := by
  unfold Dev.enqueue
  split
  · exact v.setEg_sheds _ _ _ fun g _ hg => List.mem_append_left _ hg
  · exact v.count_sheds ..

/-- A queue pair that is there stays there. -/
theorem Dev.setQp_sheds {v : Dev} {n : Nat} {q : Qp} (hq : v.qp n = some q) (x : Qp) : v.Sheds (v.setQp n x) :=
  { Dev.Sheds.refl v with
    qps := fun m hm => by
      have hne : m ≠ n := by
        rintro rfl
        exact Option.some_ne_none q (hq.symm.trans hm)
      rw [Dev.qp_setQp_ne v x hne, hm] }

theorem Dev.launchN_sheds (m : Nat) (v : Dev) (n : Nat) : v.Sheds (Dev.launchN m v n) := by
  induction m generalizing v with
  | zero => exact .refl v
  | succ m ih =>
    unfold Dev.launchN
    split
    · exact .refl v
    · rename_i q hq
      split
      · exact .refl v
      · split
        · exact ((Dev.setQp_sheds hq _).trans (Dev.enqueue_sheds ..)).trans (ih _)
        · exact .refl v

theorem Dev.post_sheds (v : Dev) (n : Nat) (ws : List Wire) : v.Sheds (v.post n ws) := by
  have hadj : v.Sheds (v.adjQp n (fun q => { q with waiting := q.waiting ++ ws.map (q.request n) })) :=
    { Dev.Sheds.refl v with
      qps := fun m hm => by
        rw [Dev.qp] at hm
        rw [Dev.qp, Dev.adjQp, Tab.get_adjust, hm]
        split <;> rfl }
  refine hadj.trans ?_
  rw [Dev.post]
  unfold Dev.launchQp
  split
  · exact .refl _
  · split
    · exact Dev.launchN_sheds ..
    · exact .refl _

theorem Path.wrote_qp (p : Path) (now : Nat) (is : List Issued) : (p.wrote now is).qp = p.qp := by
  unfold Path.wrote
  split <;> rfl

/-- A change of one path that keeps its queue pair. -/
theorem Session.adjPath_paths (s : Session) (qp : Nat) {f : Path → Path} (hf : ∀ p, (f p).qp = p.qp) {p : Path}
    (hp : p ∈ (s.adjPath qp f).paths) : ∃ p' ∈ s.paths, p'.qp = p.qp := by
  obtain ⟨p', hp', rfl⟩ := List.mem_map.mp hp
  refine ⟨p', hp', ?_⟩
  split
  · exact (hf p').symm
  · rfl

theorem Dev.setSession_sheds {v : Dev} {sn : Nat} {s x : Session} (hs : v.session sn = some s)
    (h : ∀ p ∈ x.paths, ∃ p' ∈ s.paths, p'.qp = p.qp) : v.Sheds (v.setSession sn x) := by
  refine .of_sessions rfl rfl rfl rfl rfl fun m y hy => ?_
  by_cases hm : m = sn
  · subst hm
    rw [Dev.session_setSession] at hy
    cases hy
    exact ⟨s, hs, h⟩
  · rw [Dev.session_setSession_ne v x hm] at hy
    exact ⟨y, hy, fun p hp => ⟨p, hp, rfl⟩⟩

theorem Dev.reissue_sheds (v : Dev) (sn : Nat) : v.Sheds (v.reissue sn) := by
  unfold Dev.reissue
  split
  · exact .refl v
  · rename_i s hs
    split
    · exact .refl v
    · refine Dev.Sheds.trans (Dev.setSession_sheds hs fun p hp => ?_) (Dev.post_sheds ..)
      exact Session.adjPath_paths _ _ (fun p => p.wrote_qp _ _) hp

theorem Dev.revokeWindow_sheds (v : Dev) (w : Nat) (cmd : Option Nat) : v.Sheds (v.revokeWindow w cmd) := by
  unfold Dev.revokeWindow
  dsimp only
  split
  · exact .refl v
  · split
    · exact .of_eq rfl rfl rfl rfl rfl rfl
    · exact .refl v

theorem Dev.finish_sheds (v : Dev) (id : Nat) (st : Byte) (r0 r1 r2 : Nat) (data : List Byte) :
    v.Sheds (v.finish id st r0 r1 r2 data) := by
  have hcmds := v.finish_cmds id st r0 r1 r2 data
  rw [v.finish_frame id st r0 r1 r2 data]
  exact { Dev.Sheds.refl v with cmds := hcmds ▸ List.filter_sublist.subset }

/-! ### A queue pair released -/

/-- The table of queue pairs without one of them. -/
def Dev.dropQp (v : Dev) (qp : Nat) : Dev := { v with hosts := { v.hosts with qps := Tab.del v.hosts.qps qp } }

theorem Dev.dropQp_sheds (v : Dev) (qp : Nat) : v.Sheds (v.dropQp qp) :=
  { Dev.Sheds.refl v with
    qps := fun m hm => by
      rw [Dev.qp] at hm
      rw [Dev.qp, Dev.dropQp, Tab.get_del, hm, ite_self] }

/-- The paths of a session without those of a queue pair (R239). -/
def Session.lostPath (s : Session) (qp : Nat) : Session :=
  { s with paths := s.paths.filter (fun p => p.qp != qp), built := s.built.map (fun b => b.lostPath qp) }

theorem Dev.lostPath_sheds (v : Dev) (sn qp : Nat) : v.Sheds (v.adjSession sn (fun s => s.lostPath qp)) :=
  v.adjSession_sheds sn fun _ p hp => ⟨p, (List.mem_filter.mp hp).1, rfl⟩

section
variable {v : Dev} {qp : Nat} {q : Qp}

/-- A release begins with the messages received, then the reads, the queue, the table and the path. -/
theorem Dev.releaseQp_eq (hq : v.qp qp = some q) : ∃ ws : List Nat, v.releaseQp qp = ws.foldl (fun y w => y.revokeWindow w none)
    ((((((v.discardInbox qp).abortReads qp).unqueue qp).dropQp qp).adjSession q.session (fun s => s.lostPath qp)).reissue q.session) := by
  simp only [Dev.releaseQp, hq]
  exact ⟨_, rfl⟩

/-- What follows a step of a release only takes away: every step is followed by steps that shed. -/
theorem Dev.releaseQp_steps (hq : v.qp qp = some q) : ∃ v1 v2 v3 : Dev,
    v.Sheds v1 ∧ (∀ m ∈ v1.hosts.inbox, m.msg.qp ≠ qp) ∧ v1.Sheds v2 ∧ (∀ r ∈ v2.hosts.reads, r.qp ≠ qp) ∧ v2.Sheds v3 ∧
      v3.qp qp = none ∧ (∀ x, v3.session q.session = some x → ∀ p ∈ x.paths, p.qp ≠ qp) ∧ v3.Sheds (v.releaseQp qp) := by
  obtain ⟨ws, h⟩ := Dev.releaseQp_eq hq
  refine ⟨v.discardInbox qp, (v.discardInbox qp).abortReads qp,
    ((((v.discardInbox qp).abortReads qp).unqueue qp).dropQp qp).adjSession q.session (fun s => s.lostPath qp),
    v.discardInbox_sheds qp, fun m hm => ?_, Dev.abortReads_sheds _ qp, fun r hr => ?_,
    ((Dev.unqueue_sheds _ qp).trans (Dev.dropQp_sheds _ qp)).trans (Dev.lostPath_sheds _ _ qp), ?_, fun x hx p hp => ?_,
    h ▸ (Dev.reissue_sheds _ _).trans (.foldl (fun y w => y.revokeWindow_sheds w none) _ _)⟩
  · exact bne_iff_ne.mp (List.mem_filter.mp hm).2
  · have hsub := (Dev.Sheds.foldl (fun (w : Dev) (r : ReadCtx) => w.answer_sheds r.session r.msg stAborted noExt 0 0) _ _).reads hr
    exact bne_iff_ne.mp (List.mem_filter.mp hsub).2
  · exact (Tab.get_del ..).trans (if_pos rfl)
  · rw [Dev.session, Dev.adjSession, Tab.get_adjust, if_pos rfl] at hx
    obtain ⟨y, -, rfl⟩ := Option.map_eq_some_iff.mp hx
    exact bne_iff_ne.mp (List.mem_filter.mp hp).2

theorem Dev.releaseQp_sheds (v : Dev) (qp : Nat) : v.Sheds (v.releaseQp qp) := by
  cases hq : v.qp qp with
  | none =>
    rw [Dev.releaseQp, hq]
    exact .refl v
  | some q =>
    obtain ⟨v1, v2, v3, h1, -, h2, -, h3, -, -, h4⟩ := Dev.releaseQp_steps hq
    exact ((h1.trans h2).trans h3).trans h4

theorem Dev.releaseQp_gone (v : Dev) (qp : Nat) : (v.releaseQp qp).qp qp = none := by
  cases hq : v.qp qp with
  | none => exact (v.releaseQp_sheds qp).qps qp hq
  | some q =>
    obtain ⟨v1, v2, v3, -, -, -, -, -, hgone, -, h⟩ := Dev.releaseQp_steps hq
    exact h.qps qp hgone

/-- Of the session of a queue pair released no path is left on it. -/
theorem Dev.releaseQp_paths (hq : v.qp qp = some q) {x : Session} (hx : (v.releaseQp qp).session q.session = some x) {p : Path}
    (hp : p ∈ x.paths) : p.qp ≠ qp := by
  obtain ⟨v1, v2, v3, -, -, -, -, -, -, hpaths, h⟩ := Dev.releaseQp_steps hq
  obtain ⟨y, hy, hsub⟩ := h.paths _ x hx
  obtain ⟨p', hp', heq⟩ := hsub p hp
  exact heq ▸ hpaths y hy p' hp'

theorem Dev.releaseQp_inbox (hq : v.qp qp = some q) {m : Waiting} (hm : m ∈ (v.releaseQp qp).hosts.inbox) : m.msg.qp ≠ qp := by
  obtain ⟨v1, v2, v3, -, hinbox, h2, -, h3, -, -, h4⟩ := Dev.releaseQp_steps hq
  exact hinbox m (((h2.trans h3).trans h4).inbox hm)

theorem Dev.releaseQp_reads (hq : v.qp qp = some q) {r : ReadCtx} (hr : r ∈ (v.releaseQp qp).hosts.reads) : r.qp ≠ qp := by
  obtain ⟨v1, v2, v3, -, -, -, hreads, h3, -, -, h4⟩ := Dev.releaseQp_steps hq
  exact hreads r ((h3.trans h4).reads hr)

end

/-! ### A session closed -/

/-- A frame that leaves about a queue pair changes the queues and counters of its port. -/
theorem Dev.sendAbout_frame (v : Dev) (n : Nat) (w : Wire) : ∃ eg p,
    v.sendAbout n w = { v with hosts := { v.hosts with egress := eg }, pmon := p } := by
  unfold Dev.sendAbout
  split
  · exact ⟨v.hosts.egress, v.pmon, rfl⟩
  · exact v.enqueue_frame ..

/-- The DREQs of a close (R224). -/
def Dev.sendDreqs (v : Dev) (ps : List Path) : Dev := ps.foldl (fun x p => x.sendAbout p.qp (.dreq p.qp)) v

theorem Dev.sendDreqs_frame (v : Dev) (ps : List Path) : ∃ eg p,
    v.sendDreqs ps = { v with hosts := { v.hosts with egress := eg }, pmon := p } := by
  induction ps generalizing v with
  | nil => exact ⟨v.hosts.egress, v.pmon, rfl⟩
  | cons a ps ih =>
    obtain ⟨eg, p, h⟩ := v.sendAbout_frame a.qp (.dreq a.qp)
    obtain ⟨eg', p', h'⟩ := ih (v.sendAbout a.qp (.dreq a.qp))
    exact ⟨eg', p', by rw [Dev.sendDreqs, List.foldl_cons, ← Dev.sendDreqs, h', h]⟩

theorem Dev.sendAbout_sheds (v : Dev) (n : Nat) (w : Wire) : v.Sheds (v.sendAbout n w) := by
  unfold Dev.sendAbout
  split
  · exact .refl v
  · exact v.enqueue_sheds ..

theorem Dev.sendDreqs_sheds (v : Dev) (ps : List Path) : v.Sheds (v.sendDreqs ps) :=
  .foldl (fun _ _ => Dev.sendAbout_sheds ..) _ _

/-- The DREQ of every path listed stands in the queue of its port if a window has room for it. -/
theorem Dev.sendDreqs_mem {v : Dev} {ps : List Path} {p : Path} (hp : p ∈ ps) {q : Qp} (hq : v.qp p.qp = some q)
    (hroom : v.gateAdmits q.port.val q.sub.val (v.localFrame q.port.val q.sub.val q.ipv6 (.dreq p.qp)) = true) :
    v.localFrame q.port.val q.sub.val q.ipv6 (.dreq p.qp) ∈ ((v.sendDreqs ps).eg q.port.val q.sub.val).queue := by
  obtain ⟨before, after, rfl⟩ := List.append_of_mem hp
  rw [Dev.sendDreqs, List.foldl_append, List.foldl_cons, ← Dev.sendDreqs, ← Dev.sendDreqs]
  refine (Dev.sendDreqs_sheds _ after).queues _ _ _ rfl ?_
  obtain ⟨eg, c, h⟩ := v.sendDreqs_frame before
  have hq' : (v.sendDreqs before).qp p.qp = some q := by rw [h]; exact hq
  have hroom' : (v.sendDreqs before).gateAdmits q.port.val q.sub.val (v.localFrame q.port.val q.sub.val q.ipv6 (.dreq p.qp)) = true := by
    rw [h]
    exact hroom
  have hframe : (v.sendDreqs before).localFrame q.port.val q.sub.val q.ipv6 (.dreq p.qp) =
      v.localFrame q.port.val q.sub.val q.ipv6 (.dreq p.qp) := by
    rw [h]
    rfl
  simp only [Dev.sendAbout, hq', Dev.sendLocal, hframe, Dev.enqueue, hroom', if_true, Dev.eg_setEg]
  exact List.mem_append_right _ (List.mem_singleton_self _)

/-- The release of the queue pairs of a session. -/
def Dev.releasePaths (v : Dev) (ps : List Path) : Dev := ps.foldl (fun x p => x.releaseQp p.qp) v

theorem Dev.releasePaths_sheds (v : Dev) (ps : List Path) : v.Sheds (v.releasePaths ps) :=
  .foldl (fun _ _ => Dev.releaseQp_sheds ..) _ _

theorem Dev.releasePaths_gone (v : Dev) {ps : List Path} {p : Path} (hp : p ∈ ps) : (v.releasePaths ps).qp p.qp = none := by
  obtain ⟨before, after, rfl⟩ := List.append_of_mem hp
  rw [Dev.releasePaths, List.foldl_append, List.foldl_cons, ← Dev.releasePaths, ← Dev.releasePaths]
  exact (Dev.releasePaths_sheds _ after).qps _ (Dev.releaseQp_gone _ _)

section
variable {v : Dev} {sn cmd : Nat} {x : Session}

/-- A close by a command that no session sent waits for what is in flight (R224). -/
theorem Dev.closeSession_eq (hx : v.session sn = some x) (hclosing : x.closing = some cmd)
    (hown : ∀ c ∈ v.floder.cmds, c.id = cmd → ∀ q, c.src ≠ .session q) : v.closeSession sn =
      if v.inFlightSession sn = 0 then
        (fun w : Dev => { w with hosts := { w.hosts with sessions := Tab.del w.hosts.sessions sn } })
          (((v.sendDreqs x.livePaths).finishOk cmd 0 0 0).releasePaths x.paths)
      else v := by
  simp only [Dev.closeSession, hx, hclosing]
  rw [(List.filter_eq_nil_iff (l := v.floder.cmds)).mpr, List.length_nil]
  · simp only [Nat.le_zero]
    rfl
  · intro c hc h
    rw [Bool.and_eq_true, beq_iff_eq] at h
    obtain ⟨hid, h⟩ := h
    split at h
    · rename_i q hq
      exact hown c hc hid q hq
    · cases h

end

end Sys2Proof.Machine

open Sys2Proof Sys2Proof.Machine

/-- Settles O43: what is gone after one step of a release or a close stays gone, since every later step only takes away. -/
theorem releasedPathsAndSessions : Obligations.ReleasedPathsAndSessions := by
  refine ⟨fun v qp q hq => ⟨v.releaseQp_gone qp, fun x hx p => Dev.releaseQp_paths hq hx, fun m => Dev.releaseQp_inbox hq,
    fun r => Dev.releaseQp_reads hq⟩, fun v sn cmd x hx hclosing hown => ⟨fun h => ?_, fun h => ?_⟩⟩
  · rw [Dev.closeSession_eq hx hclosing hown, if_neg (Nat.pos_iff_ne_zero.mp h)]
  · rw [Dev.closeSession_eq hx hclosing hown, if_pos h]
    have hrelease := Dev.releasePaths_sheds ((v.sendDreqs x.livePaths).finishOk cmd 0 0 0) x.paths
    refine ⟨(Tab.get_del ..).trans (if_pos rfl), fun p hp q hlive hq hroom => ?_, fun p hp => Dev.releasePaths_gone _ hp,
      fun c hc => ?_⟩
    · have hmem : p ∈ x.livePaths := List.mem_filter.mpr ⟨hp, beq_iff_eq.mpr hlive⟩
      exact ((Dev.finish_sheds ..).trans hrelease).queues _ _ _ rfl (Dev.sendDreqs_mem hmem hq hroom)
    · have hmem := hrelease.cmds hc
      rw [Dev.finishOk, Dev.finish_cmds] at hmem
      exact bne_iff_ne.mp (List.mem_filter.mp hmem).2

end


section
/-! SUPPORT. What a packet heard changes (`Dev.Hears`); where a window write places its bytes; the window commands, and
what the freeing of a window leaves. -/

namespace Sys2Proof.Machine

/-! ### What a packet heard changes -/

/-- Only counters, the idle times of spires, ciphers, queues and queue pairs differ. -/
def Dev.Hears (v w : Dev) : Prop := ∃ sp p ci eg qps, w =
  { v with chip := { v.chip with spires := sp }, pmon := p, ciphers := ci, hosts := { v.hosts with egress := eg, qps := qps } }

namespace Dev.Hears

variable {u v w : Dev}

theorem refl (v : Dev) : v.Hears v := ⟨v.chip.spires, v.pmon, v.ciphers, v.hosts.egress, v.hosts.qps, rfl⟩

theorem trans (h : u.Hears v) (k : v.Hears w) : u.Hears w := by
  obtain ⟨sp, p, ci, eg, qps, rfl⟩ := h
  obtain ⟨sp', p', ci', eg', qps', rfl⟩ := k
  exact ⟨sp', p', ci', eg', qps', rfl⟩

end Dev.Hears

theorem Dev.received_hears (v : Dev) (n len : Nat) : v.Hears (v.received n len) := by
  obtain ⟨sp, p, h⟩ := v.received_frame n len
  exact ⟨sp, p, _, _, _, h⟩

theorem Dev.count_hears (v : Dev) (region cls idx ev n : Nat) : v.Hears (v.count region cls idx ev n) := by
  obtain ⟨p, h⟩ := v.count_frame region cls idx ev n
  exact ⟨_, p, _, _, _, h⟩

theorem Dev.sendAbout_hears (v : Dev) (n : Nat) (w : Wire) : v.Hears (v.sendAbout n w) := by
  obtain ⟨eg, p, h⟩ := v.sendAbout_frame n w
  exact ⟨_, p, _, eg, _, h⟩

theorem Dev.setQp_hears (v : Dev) (n : Nat) (q : Qp) : v.Hears (v.setQp n q) := ⟨_, _, _, _, _, rfl⟩

theorem Dev.adjQp_hears (v : Dev) (n : Nat) (f : Qp → Qp) : v.Hears (v.adjQp n f) := ⟨_, _, _, _, _, rfl⟩

theorem Dev.respond_hears (v : Dev) (n : Nat) (w : Wire) : v.Hears (v.respond n w) := by
  unfold Dev.respond
  split
  · exact .refl v
  · obtain ⟨eg, p, h⟩ := v.enqueue_frame ..
    exact ⟨_, p, _, eg, _, h⟩

/-- A packet is received, and a CNP answers one that is marked and due (R241). -/
theorem Dev.packetSeen_eq (v : Dev) (n : Nat) (q : Qp) (cost : Nat) (ce : Bool) : ∃ due : Bool, v.packetSeen n q cost ce =
    if due then (((v.received q.port.val (cost - 20)).adjQp n (fun x => { x with lastCnp := some v.now })).sendAbout n .cnp).countPort
      q.port.val 0x018 1
    else v.received q.port.val (cost - 20) := ⟨_, rfl⟩

theorem Dev.packetSeen_hears (v : Dev) (n : Nat) (q : Qp) (cost : Nat) (ce : Bool) : v.Hears (v.packetSeen n q cost ce) := by
  refine (v.received_hears q.port.val (cost - 20)).trans ?_
  obtain ⟨due, h⟩ := v.packetSeen_eq n q cost ce
  rw [h]
  split
  · exact ((Dev.adjQp_hears ..).trans (Dev.sendAbout_hears ..)).trans (Dev.count_hears ..)
  · exact .refl _

theorem Dev.policed_hears (v : Dev) (n : Nat) (q : Qp) (cost bytes : Nat) : v.Hears (v.policed n q cost bytes).1 := by
  unfold Dev.policed
  split
  · exact v.setQp_hears ..
  · exact (v.setQp_hears ..).trans (Dev.count_hears ..)

/-- A packet seen and policed. -/
theorem Dev.hears_of_policed {v w : Dev} {n m : Nat} {q q' : Qp} {cost cost' bytes : Nat} {ce b : Bool}
    (h : (v.packetSeen n q cost ce).policed m q' cost' bytes = (w, b)) : v.Hears w := by
  have hw := (v.packetSeen_hears n q cost ce).trans (Dev.policed_hears _ m q' cost' bytes)
  rwa [h] at hw

theorem Dev.offPsn_hears (v : Dev) (n : Nat) (q : Qp) (c : PsnClass) : v.Hears (v.offPsn n q c) := by
  unfold Dev.offPsn
  split
  · exact v.respond_hears ..
  · split
    · exact .refl v
    · exact (v.adjQp_hears ..).trans (Dev.respond_hears ..)

/-! ### The queue pair of a packet let pass -/

/-- Two states of a queue pair in which its expected PSN is the same. -/
theorem Dev.police_rxPsn (v : Dev) (q : Qp) (cost bytes : Nat) : (v.police q cost bytes).2.rxPsn = q.rxPsn := by
  unfold Dev.police
  dsimp only
  split
  · split <;> rfl
  · split
    · rfl
    · split
      · split
        · rfl
        · split <;> rfl
      · split <;> rfl

theorem Dev.policed_qp {v w : Dev} {n : Nat} {q : Qp} {cost bytes : Nat} (h : v.policed n q cost bytes = (w, true)) :
    ∃ y, w.qp n = some y ∧ y.rxPsn = q.rxPsn := by
  have hrx := v.police_rxPsn q cost bytes
  unfold Dev.policed at h
  split at h
  · rename_i q1 hpolice
    obtain rfl : v.setQp n q1 = w := congrArg Prod.fst h
    exact ⟨q1, Dev.qp_setQp .., by rw [← hrx, hpolice]⟩
  · exact absurd (congrArg Prod.snd h) Bool.false_ne_true

@[simp] theorem Dev.qp_count (v : Dev) (region cls idx ev n m : Nat) : (v.count region cls idx ev n).qp m = v.qp m := by
  obtain ⟨p, h⟩ := v.count_frame region cls idx ev n
  rw [h]
  rfl

@[simp] theorem Dev.qp_sendAbout (v : Dev) (n : Nat) (w : Wire) (m : Nat) : (v.sendAbout n w).qp m = v.qp m := by
  obtain ⟨eg, p, h⟩ := v.sendAbout_frame n w
  rw [h]
  rfl

theorem Dev.qp_congr {v w : Dev} (h : w.hosts.qps = v.hosts.qps) (n : Nat) : w.qp n = v.qp n := congrArg (Tab.get · n) h

theorem Dev.qp_adjQp (v : Dev) (n : Nat) (f : Qp → Qp) : (v.adjQp n f).qp n = (v.qp n).map f :=
  (Tab.get_adjust ..).trans (if_pos rfl)

/-- A packet seen leaves the expected PSN of its queue pair alone. -/
theorem Dev.packetSeen_rxPsn {v : Dev} {n : Nat} {q : Qp} (hq : v.qp n = some q) (cost : Nat) (ce : Bool) :
    (((v.packetSeen n q cost ce).qp n).getD q).rxPsn = q.rxPsn := by
  obtain ⟨due, h⟩ := v.packetSeen_eq n q cost ce
  rw [h]
  split
  · simp only [Dev.countPort, Dev.qp_count, Dev.qp_sendAbout, Dev.qp_adjQp, Dev.qp_received, hq, Option.map_some, Option.getD_some]
  · simp only [Dev.qp_received, hq, Option.getD_some]

/-! ### Window writes -/

theorem Qp.psnClass_inOrder_iff (q : Qp) (psn : BitVec 24) : q.psnClass psn = .inOrder ↔ psn = q.rxPsn := by
  unfold Qp.psnClass
  split
  · exact iff_of_true rfl ‹_›
  · split <;> exact iff_of_false PsnClass.noConfusion ‹_›

section
variable {s : State} {p : WritePacket} {q : Qp} {w : Dev}

theorem execWindowWritePacket_notReady (h : s.dev.qpReady p.qp = false) : exec (.windowWritePacket p) s = .next s := by
  simp only [exec, execWindowWritePacket, State.on_eq, h, Bool.not_false, if_true]

theorem execWindowWritePacket_dropped (hready : s.dev.qpReady p.qp = true) (hq : s.dev.qp p.qp = some q)
    (hdropped : (s.dev.packetSeen p.qp q p.cost p.ce).policed p.qp (((s.dev.packetSeen p.qp q p.cost p.ce).qp p.qp).getD q)
      p.cost p.data.length = (w, false)) : exec (.windowWritePacket p) s = .next (s.withDev w) := by
  simp only [exec, execWindowWritePacket, State.on_eq, hready, Bool.not_true, Bool.false_eq_true, if_false, hq, hdropped]

theorem execWindowWritePacket_offPsn (hready : s.dev.qpReady p.qp = true) (hq : s.dev.qp p.qp = some q)
    (hpassed : (s.dev.packetSeen p.qp q p.cost p.ce).policed p.qp (((s.dev.packetSeen p.qp q p.cost p.ce).qp p.qp).getD q)
      p.cost p.data.length = (w, true)) (hpsn : p.psn ≠ q.rxPsn) :
    ∃ c, exec (.windowWritePacket p) s = .next (s.withDev (w.offPsn p.qp q c)) := by
  simp only [exec, execWindowWritePacket, State.on_eq, hready, Bool.not_true, Bool.false_eq_true, if_false, hq, hpassed]
  cases hclass : q.psnClass p.psn with
  | duplicate => exact ⟨_, rfl⟩
  | ahead => exact ⟨_, rfl⟩
  | inOrder => exact absurd ((q.psnClass_inOrder_iff p.psn).mp hclass) hpsn

section
variable (hready : s.dev.qpReady p.qp = true) (hq : s.dev.qp p.qp = some q)
  (hpassed : (s.dev.packetSeen p.qp q p.cost p.ce).policed p.qp (((s.dev.packetSeen p.qp q p.cost p.ce).qp p.qp).getD q)
      p.cost p.data.length = (w, true)) (hpsn : p.psn = q.rxPsn)
include hready hq hpassed hpsn

theorem execWindowWritePacket_refused {ev : Nat} (hcheck : w.checkWrite q.session (q.writeMsg p).rkey
      ((q.writeMsg p).va.toNat + ((q.writeMsg p).span (s.dev.safeSession q.session) p.data.length).1)
      ((q.writeMsg p).span (s.dev.safeSession q.session) p.data.length).2 = .refuse ev) :
    exec (.windowWritePacket p) s = .next (s.withDev
      (((w.adjQp p.qp (fun x => { x with nakSent := true })).respond p.qp (.nakAccess p.psn)).count q.home.val 0x08 0 ev 1)) := by
  simp only [exec, execWindowWritePacket, State.on_eq, hready, Bool.not_true, Bool.false_eq_true, if_false, hq, hpassed,
    (q.psnClass_inOrder_iff p.psn).mpr hpsn, hcheck]

theorem execWindowWritePacket_placed {a : Nat} (hcheck : w.checkWrite q.session (q.writeMsg p).rkey
      ((q.writeMsg p).va.toNat + ((q.writeMsg p).span (s.dev.safeSession q.session) p.data.length).1)
      ((q.writeMsg p).span (s.dev.safeSession q.session) p.data.length).2 = .place a) (hlast : p.last = false) :
    ∃ v2, w.Hears v2 ∧ v2.hosts.qps = w.hosts.qps ∧ exec (.windowWritePacket p) s = .next (s.withDev
      ((({ v2 with winMem := memWriteBytes v2.winMem a (w.placedBytes q (q.writeMsg p) (s.dev.safeSession q.session) p) }).nextPsn
        p.qp).adjQp p.qp (fun x => { x with write := (q.writeMsg p).after (s.dev.safeSession q.session) p }))) := by
  refine ⟨if s.dev.safeSession q.session then w.serveCipher q.home.val 2 (ceilDiv p.data.length 4096) else w, ?_, ?_, ?_⟩
  · split
    · exact ⟨_, _, _, _, _, rfl⟩
    · exact .refl w
  · split <;> rfl
  · simp only [exec, execWindowWritePacket, State.on_eq, hready, Bool.not_true, Bool.false_eq_true, if_false, hq, hpassed,
      (q.psnClass_inOrder_iff p.psn).mpr hpsn, hcheck, hlast]

end

theorem memReadBytes_getElem? (m : List Host.Cell) (a n i : Nat) : (memReadBytes m a n)[i]? = if i < n then some (memRead m (a + i)) else none := by
  induction n generalizing a i with
  | zero => rfl
  | succ n ih =>
    cases i with
    | zero => rfl
    | succ i =>
      rw [memReadBytes, List.getElem?_cons_succ, ih, Nat.add_right_comm, Nat.add_assoc]
      simp only [Nat.add_lt_add_iff_right]

/-- Bytes written read back one by one. -/
theorem memRead_memWriteBytes_in {m : List Host.Cell} (h : Memory.wf m = true) (a : Nat) {bs : List Byte} {i : Nat} {b : Byte}
    (hb : bs[i]? = some b) : memRead (memWriteBytes m a bs) (a + i) = b := by
  have hread := memReadBytes_getElem? (memWriteBytes m a bs) a bs.length i
  rw [memReadBytes_memWriteBytes m a bs h, hb] at hread
  split at hread
  · exact (Option.some.inj hread).symm
  · cases hread

/-- What a write that passes meets (R246, R250). -/
theorem Dev.checkWrite_place {v : Dev} {sn : Nat} {rkey : BitVec 32} {va n a : Nat} (h : v.checkWrite sn rkey va n = .place a) :
    ∃ (w : Window) (g : Grant), Tab.get v.hosts.windows (rkey.toNat % 2 ^ 14) = some w ∧ g ∈ v.hosts.grants ∧
      w.usable = true ∧ w.state = .live ∧ w.session = sn ∧ w.key (rkey.toNat % 2 ^ 14) = rkey.toNat ∧
      g.session = sn ∧ g.window = rkey.toNat % 2 ^ 14 ∧ g.tag = va / 2 ^ 34 % 2 ^ 16 ∧ va / 2 ^ 50 = rkey.toNat % 2 ^ 14 ∧
      va / 2 ^ 30 % 16 = 0 ∧ g.offset ≤ va % 2 ^ 30 ∧ va % 2 ^ 30 + n ≤ g.offset + g.length ∧
      a = winAddr (rkey.toNat % 2 ^ 14) (va % 2 ^ 30) := by
  unfold Dev.checkWrite at h
  dsimp only at h
  split at h
  · cases h
  · rename_i w hw
    split at h
    · cases h
    · rename_i husable
      split at h
      · cases h
      · rename_i hsession
        split at h
        · cases h
        · rename_i hlive
          split at h
          · cases h
          · rename_i g hg
            split at h
            · rename_i hrange
              have hfound := List.find?_some hg
              simp only [Bool.and_eq_true, beq_iff_eq, decide_eq_true_eq, Bool.or_eq_true, not_or, Bool.not_eq_true', Bool.not_eq_false,
                Classical.not_not, bne_iff_ne, ne_eq] at hrange hfound husable hsession hlive
              obtain ⟨⟨hgs, hgw⟩, hgt⟩ := hfound
              obtain ⟨⟨⟨hwindow, hzero⟩, hlo⟩, hhi⟩ := hrange
              exact ⟨w, g, hw, List.mem_of_find?_eq_some hg, husable.1, hlive, hsession, husable.2, hgs, hgw, hgt, hwindow, hzero, hlo,
                hhi, (WinCheck.place.inj h).symm⟩
            · cases h

end

/-! ### The life of a window -/

section
variable {s : State} {p : Packet} {w : Dev} {id op : Nat}

/-- A Floder command that starts runs its body. -/
theorem Dev.floderRun_of_starts {v : Dev} (h : Starts v op p w id) (body : Nat → Dev → Dev) :
    v.floderRun op p body = (body id w).skipHeads p.src := by
  simp only [Dev.floderRun, show v.floderStart op p = some (w, id, none) from h]

theorem execWindowCreate_invalid (h : Starts s.dev 0x0520 p w id)
    (hbad : p.u32 8 = 0 ∨ 1024 < p.u32 8 ∨ w.session (p.u16 0) = none) :
    exec (.windowCreate p) s = .next (s.withDev <| (w.fail id stInvalidField).skipHeads p.src) := by
  have hcond : (!(windowFieldsOk p) || (w.session (p.u16 0)).isNone) = true := by
    rcases hbad with hbad | hbad | hbad
    · simp [windowFieldsOk, hbad]
    · simp [windowFieldsOk, Nat.not_le.mpr hbad]
    · simp [hbad]
  simp only [exec, execWindowCreate, State.on_eq, Dev.floderRun_of_starts h, hcond, Bool.true_or, if_true]

/-- The window that a WINDOW_CREATE of a session asks for, under a generation (R243). -/
def Packet.newWindow (p : Packet) (g : BitVec 18) : Window :=
  ⟨p.u16 0, none, Fin.ofNat 4 (p.u8 3), p.u32 8, g, .live, false, [], 0, 0, []⟩

/-- A window under the free number, its generation drawn. -/
def Dev.addWindow (v : Dev) (x : Window) : Dev :=
  { v with
    freeTick := v.freeTick + 1
    hosts := { v.hosts with windows := Tab.set v.hosts.windows (Tab.freeKey v.hosts.windows) x } }

section
variable (h : Starts s.dev 0x0520 p w id) (hfields : windowFieldsOk p = true) (hscope : p.u8 2 = 0)
  (hsession : (w.session (p.u16 0)).isSome = true) (hspire : w.spireShown (p.u8 3) = true)
include h hfields hscope hsession hspire

/-- WINDOW_CREATE of a window of a session on a spire that is shown. -/
theorem execWindowCreate_valid : exec (.windowCreate p) s = .next (s.withDev (Dev.skipHeads (
    if 16384 ≤ w.hosts.windows.length ∨ 4096 ≤ w.windowsOn (p.u8 3) ∨ w.stageLimit (p.u8 3) < w.stageUsed (p.u8 3) + p.u32 8 then
      w.fail id stQuota
    else
      (w.addWindow (Packet.newWindow p (w.free64.1.setWidth 18))).queueUpdate .window (Tab.freeKey w.hosts.windows) .windowLive
        (some id)) p.src)) := by
  have hhome : p.u8 3 % 4 = p.u8 3 := by
    simp only [windowFieldsOk, Bool.and_eq_true, decide_eq_true_eq] at hfields
    omega
  have hpresent : (w.session (p.u16 0)).isNone = false := by rw [← Option.not_isSome, hsession]; rfl
  simp only [exec, execWindowCreate, State.on_eq, Dev.floderRun_of_starts h, hfields, hscope, hpresent, Fin.val_ofNat, hhome, hspire,
    Bool.not_true, Bool.or_false, Bool.false_or, Bool.or_eq_true, decide_eq_true_eq, Bool.false_and, Nat.zero_ne_one,
    Nat.reduceBEq, Bool.false_eq_true, if_false, or_assoc]
  rfl

end

section
variable (h : Starts s.dev 0x0521 p w id)
include h

theorem execWindowRevoke_unknown (hnone : Tab.get w.hosts.windows (p.u16 0 % 16384) = none) :
    exec (.windowRevoke p) s = .next (s.withDev <| (w.fail id stInvalidField).skipHeads p.src) := by
  simp only [exec, execWindowRevoke, State.on_eq, Dev.floderRun_of_starts h, hnone]

theorem execWindowRevoke_live {x : Window} (hx : Tab.get w.hosts.windows (p.u16 0 % 16384) = some x) (husable : x.usable = true)
    (hlive : x.state = .live) (hupdates : ∀ u ∈ w.hosts.updates, u.table ≠ .window) :
    exec (.windowRevoke p) s = .next (s.withDev <|
      ({ w with hosts := { w.hosts with updates := w.hosts.updates ++ [Update.mk .window (p.u16 0 % 16384) .windowRevoke
        (if w.stroke = 7 then w.now + 1 else w.now) (some id)] } }).skipHeads p.src) := by
  have hnone : w.hosts.updates.any (fun u => u.table == .window && u.key == p.u16 0 % 16384 && u.act == .windowRevoke) = false := by
    rw [List.any_eq_false]
    intro u hu
    simp only [beq_eq_false_iff_ne.mpr (hupdates u hu), Bool.false_and, Bool.false_eq_true, not_false_eq_true]
  simp only [exec, execWindowRevoke, State.on_eq, Dev.floderRun_of_starts h, hx, husable, hlive, hnone, Dev.revokeWindow,
    Bool.not_true, Bool.not_false, Bool.false_eq_true, if_false, BEq.rfl, Bool.and_self, if_true]

theorem execWindowRevoke_revoking {x : Window} (hx : Tab.get w.hosts.windows (p.u16 0 % 16384) = some x) (husable : x.usable = true)
    (hstate : x.state ≠ .live) : exec (.windowRevoke p) s = .next (s.withDev <| ({ w with hosts := { w.hosts with
      windows := Tab.set w.hosts.windows (p.u16 0 % 16384) { x with revokeCmds := x.revokeCmds ++ [id] } } }).skipHeads p.src) := by
  simp only [exec, execWindowRevoke, State.on_eq, Dev.floderRun_of_starts h, hx, husable, beq_eq_false_iff_ne.mpr hstate,
    Bool.not_true, Bool.false_eq_true, if_false, Bool.false_and]

end

end

/-- Clearing removes every entry of the range and no other. -/
theorem memRead_filter (m : List Host.Cell) (f : Nat → Bool) (a : Nat) :
    memRead (m.filter (fun c => f c.1)) a = if f a then memRead m a else 0 := by
  induction m with
  | nil => simp only [List.filter_nil, memRead, ite_self]
  | cons c m ih =>
    obtain ⟨k, b⟩ := c
    by_cases hk : k = a
    · subst hk
      cases hf : f k
      · simpa only [List.filter_cons, hf, Bool.false_eq_true, if_false] using ih
      · simp only [List.filter_cons, hf, if_true, memRead]
    · cases hf : f k
      · simpa only [List.filter_cons, hf, Bool.false_eq_true, if_false, memRead, if_neg hk] using ih
      · simpa only [List.filter_cons, hf, if_true, memRead, if_neg hk] using ih

theorem memRead_memClear_in (m : List Host.Cell) {a n c : Nat} (hlo : a ≤ c) (hhi : c < a + n) : memRead (memClear m a n) c = 0 := by
  rw [memClear, memRead_filter m (fun k => decide (k < a) || decide (a + n ≤ k)) c, if_neg]
  simp only [Bool.or_eq_true, decide_eq_true_eq]
  omega

theorem memRead_memClear_out (m : List Host.Cell) {a n c : Nat} (h : c < a ∨ a + n ≤ c) :
    memRead (memClear m a n) c = memRead m c := by
  rw [memClear, memRead_filter m (fun k => decide (k < a) || decide (a + n ≤ k)) c, if_pos]
  simpa only [Bool.or_eq_true, decide_eq_true_eq] using h

/-! What completing a list of commands leaves. -/

section
variable {f : Dev → Nat → Dev} (hf : ∀ v id, ∃ st r0 r1 r2 data, f v id = v.finish id st r0 r1 r2 data)
include hf

theorem foldl_finish_frame (ids : List Nat) (v : Dev) : ∃ fl ch, ids.foldl f v =
    { v with floder := fl, hosts := { v.hosts with chains := ch } } := by
  induction ids generalizing v with
  | nil => exact ⟨v.floder, v.hosts.chains, rfl⟩
  | cons i ids ih =>
    obtain ⟨st, r0, r1, r2, data, h⟩ := hf v i
    obtain ⟨fl, ch, hrest⟩ := ih (f v i)
    rw [h, v.finish_frame] at hrest
    exact ⟨fl, ch, by rw [List.foldl_cons, h, v.finish_frame]; exact hrest⟩

theorem foldl_finish_cmds (ids : List Nat) (v : Dev) :
    (ids.foldl f v).floder.cmds ⊆ v.floder.cmds ∧ ∀ c ∈ (ids.foldl f v).floder.cmds, c.id ∉ ids := by
  induction ids generalizing v with
  | nil => exact ⟨List.Subset.refl _, fun _ _ => List.not_mem_nil⟩
  | cons i ids ih =>
    obtain ⟨st, r0, r1, r2, data, h⟩ := hf v i
    have hcmds : (f v i).floder.cmds = v.floder.cmds.filter (fun c => c.id != i) := h ▸ v.finish_cmds ..
    obtain ⟨hsub, hids⟩ := ih (f v i)
    rw [hcmds] at hsub
    refine ⟨fun c hc => (List.mem_filter.mp (hsub hc)).1, fun c hc hmem => ?_⟩
    rcases List.mem_cons.mp hmem with hi | hmem
    · exact bne_iff_ne.mp (List.mem_filter.mp (hsub hc)).2 hi
    · exact hids c hc hmem

end

section
variable {s : State} {n : Nat}

theorem execRevokeDrainComplete_live (h : ∀ w, Tab.get s.dev.hosts.windows n = some w → w.state = .live) :
    exec (.revokeDrainComplete n) s = .next s := by
  simp only [exec, execRevokeDrainComplete, State.on_eq]
  cases hw : Tab.get s.dev.hosts.windows n with
  | none => rfl
  | some w =>
    have hstate : (w.state == WinState.revoking) = false := by rw [h w hw]; rfl
    simp only [hstate, Bool.false_and, Bool.false_eq_true, if_false]

theorem execRevokeDrainComplete_drained {w : Window} (hw : Tab.get s.dev.hosts.windows n = some w) (hstate : w.state = .revoking)
    (hbell : s.dev.atBell (w.endBell + 1) = true) (hgrants : ∀ g ∈ s.dev.hosts.grants, g.window ≠ n) :
    exec (.revokeDrainComplete n) s = .next (s.withDev ((s.dev.freeWindow n).chainDone w.home.val)) := by
  have hnone : s.dev.hosts.grants.any (fun g => g.window == n) = false := by
    rw [List.any_eq_false]
    exact fun g hg => by simpa only [beq_iff_eq] using hgrants g hg
  simp only [exec, execRevokeDrainComplete, State.on_eq, hw, hstate, hbell, hnone, BEq.rfl, Bool.not_false, Bool.and_self, if_true]

end

/-- The freeing of a window clears its memory, takes it and its updates away and completes the commands on it. -/
theorem Dev.freeWindow_frame {v : Dev} {n : Nat} {w : Window} (hw : Tab.get v.hosts.windows n = some w) :
    ∃ fl ch up, v.freeWindow n = { v with
        winMem := memClear v.winMem (winAddr n 0) (2 ^ 30)
        floder := fl
        hosts := { v.hosts with windows := Tab.del v.hosts.windows n, updates := up, chains := ch } } ∧
      ∀ c ∈ fl.cmds, c.id ∉ w.revokeCmds := by
  have hfail : ∀ (x : Dev) (c : Nat), ∃ st r0 r1 r2 data, x.fail c stAborted = x.finish c st r0 r1 r2 data :=
    fun x c => ⟨_, _, _, _, _, rfl⟩
  have hok : ∀ (x : Dev) (c : Nat), ∃ st r0 r1 r2 data, x.finishOk c w.ended 0 0 = x.finish c st r0 r1 r2 data :=
    fun x c => ⟨_, _, _, _, _, rfl⟩
  unfold Dev.freeWindow
  simp only [hw]
  generalize hv1 : ({ v with winMem := _, hosts := { v.hosts with windows := _, updates := _ } } : Dev) = v1
  generalize List.filterMap (fun u : Update => u.cmd) (List.filter _ v.hosts.updates) = failed
  obtain ⟨fl, ch, h⟩ := foldl_finish_frame hfail failed v1
  rw [h, ← hv1]
  obtain ⟨fl', ch', h'⟩ := foldl_finish_frame hok _ _
  refine ⟨fl', ch', _, h', fun c hc hmem => ?_⟩
  exact (foldl_finish_cmds hok _ _).2 c (by rw [h']; exact hc) (List.mem_append_left _ hmem)

end Sys2Proof.Machine

open Sys2Proof Sys2Proof.Machine

/-- Settles O47: by the verdict on the packet; the bytes placed read back, and the window's checks are those of `Dev.checkWrite`. -/
theorem windowWrites : Obligations.WindowWrites := by
  refine ⟨fun s p q w => ⟨execWindowWritePacket_notReady, execWindowWritePacket_dropped,
    fun a hready hq hpassed hpsn hcheck hlast hwf => ?_, fun ev hready hq hpassed hpsn hcheck =>
      execWindowWritePacket_refused hready hq hpassed hpsn hcheck, fun hready hq hpassed hpsn => ?_⟩,
    fun v sn rkey va n a h => ?_⟩
  · obtain ⟨v2, hears, hqps, hrun⟩ := execWindowWritePacket_placed hready hq hpassed hpsn hcheck hlast
    obtain ⟨y, hy, hrx⟩ := Dev.policed_qp hpassed
    rw [Dev.packetSeen_rxPsn hq] at hrx
    have hmem : v2.winMem = s.dev.winMem := by
      obtain ⟨_, _, _, _, _, h⟩ := (Dev.hears_of_policed hpassed).trans hears
      rw [h]
    refine ⟨_, hrun, fun h => ?_, fun i b hb => ?_, fun b hb => ?_, ?_, ?_⟩
    · simp only [Dev.placedBytes, h, Bool.false_eq_true, if_false]
    · exact memRead_memWriteBytes_in (hmem ▸ hwf) a hb
    · exact (memRead_memWriteBytes_out v2.winMem a b _ (hmem ▸ hwf) hb).trans (by rw [hmem])
    · refine ⟨{ y with rxPsn := y.rxPsn + 1, nakSent := false, write := (q.writeMsg p).after (s.dev.safeSession q.session) p },
        ?_, by rw [hrx], rfl, ?_⟩
      · have hv2 : v2.qp p.qp = some y := (Dev.qp_congr hqps p.qp).trans hy
        rw [Dev.qp_adjQp, Dev.nextPsn, Dev.qp_adjQp]
        exact congrArg (fun o : Option Qp => (o.map (fun x => { x with rxPsn := x.rxPsn + 1, nakSent := false })).map
          (fun x => { x with write := (q.writeMsg p).after (s.dev.safeSession q.session) p })) hv2
      · simp only [WriteMsg.after, hlast, Bool.false_eq_true, if_false]
    · obtain ⟨sp, _, _, _, _, h⟩ := (Dev.hears_of_policed hpassed).trans hears
      rw [h]
      exact ⟨rfl, rfl, rfl, rfl, rfl, rfl, rfl, rfl⟩
  · obtain ⟨c, hrun⟩ := execWindowWritePacket_offPsn hready hq hpassed hpsn
    obtain ⟨_, _, _, _, _, h⟩ := (Dev.hears_of_policed hpassed).trans (w.offPsn_hears p.qp q c)
    exact ⟨_, hrun, by rw [h]⟩
  · obtain ⟨w, g, hw, hg, husable, hlive, hsession, hkey, hgs, hgw, hgt, hwindow, hzero, hlo, hhi, ha⟩ := Dev.checkWrite_place h
    refine ⟨w, g, hw, hg, husable, hlive, hsession, hkey, hgs, hgw, hgt, ?_, hlo, hhi, by rw [ha, hgw]; rfl⟩
    rw [stageAddr, hgw, hgt]
    omega

/-- Settles O48: the commands by the window they name; the freeing by what clearing a range and completing commands leave. -/
theorem windowLife : Obligations.WindowLife := by
  refine ⟨fun s p w id => ⟨execWindowCreate_invalid, fun h hfields hscope hsession hspire hfull => ?_,
    fun h hfields hscope hsession hspire hcount hhome hroom => ?_, execWindowRevoke_unknown, fun h x hx => execWindowRevoke_live h hx,
    fun h x hx => execWindowRevoke_revoking h hx⟩, fun s n w => ⟨fun hw hstate hbell hgrants => ?_, execRevokeDrainComplete_live⟩⟩
  · rw [execWindowCreate_valid h hfields hscope hsession hspire, if_pos hfull]
  · rw [execWindowCreate_valid h hfields hscope hsession hspire, if_neg (by rw [not_or, not_or]; exact ⟨Nat.not_le.mpr hcount, Nat.not_le.mpr hhome, Nat.not_lt.mpr hroom⟩)]
    have hmod : p.u8 3 % 4 = p.u8 3 := by
      simp only [windowFieldsOk, Bool.and_eq_true, decide_eq_true_eq] at hfields
      omega
    exact ⟨_, _, rfl, rfl, rfl, hmod, rfl, rfl, rfl, rfl, rfl⟩
  · refine ⟨_, execRevokeDrainComplete_drained hw hstate hbell hgrants, ?_⟩
    obtain ⟨fl, ch, up, h, hcmds⟩ := Dev.freeWindow_frame hw
    rw [winAddr, Nat.add_zero] at h
    obtain ⟨pm, hcount⟩ := (s.dev.freeWindow n).count_frame w.home.val 0x08 0 0x008 1
    rw [Dev.chainDone, hcount, h]
    exact ⟨(Tab.get_del ..).trans (if_pos rfl), fun a hlo hhi => memRead_memClear_in _ hlo hhi,
      fun a hout => memRead_memClear_out _ hout, hcmds, rfl, rfl, rfl, rfl, rfl⟩

end


section
/-! SUPPORT. A slot of the Headframe that ends a frame raises a fault (R278); where the record of its source stands below
its BASE, the class rises with the event and the fault vector becomes pending in the endpoint (R387). -/

namespace Sys2Proof.Machine

/-- The record of a frame ended by a gap, stored at class 0 under a BASE of 1. -/
def recordBelowBase : FaultRec := { newRecord (srcOf 0x063 0 0) 0 0 with base := 1 }

/-- A device in SERVICE whose output 0 is in the middle of a message and holds no cell of it. -/
def midMessageDev : Dev := { Dev.reset with
  chip := { Chip.reset with
    mode := { Chip.reset.mode with mode := .service }
    spires := [(0, { SpireRec.reset with state := .up })] }
  hf := { Headframe.reset with sliceDown := 0, mid := [(0, 0)] }
  hosts := { Dev.reset.hosts with ports := [(0, { NetPort.reset with linkUp := 1 })] }
  faults := [((srcOf 0x063 0 0).toNat, recordBelowBase)] }

/-- The vectors pending in the endpoint after a slot that offers nothing. -/
def pendingAfterSlot (v : Dev) : List Nat :=
  match exec (.headframeSlot 0 []) ⟨[], v⟩ with
  | .next t => t.dev.ep.pf0.pba
  | _ => []

theorem pendingAfterSlot_midMessage : pendingAfterSlot midMessageDev = [256] ∧ midMessageDev.ep.pf0.pba = [] := by decide +kernel

end Sys2Proof.Machine

open Sys2Proof Sys2Proof.Machine

/-- Refutes O60: slot 0 of `midMessageDev` ends the frame of output 0, and the fault it raises leaves vector 256 pending
in the endpoint, which the statement says a slot leaves unchanged. -/
theorem not_headframeEvents : ¬ Obligations.HeadframeEvents := by
  intro h
  obtain ⟨u, hrun, -, -, -, -, -, -, hep, -⟩ :=
    (h.2 ⟨[], midMessageDev⟩ 0 []).2 (by decide +kernel) (by decide +kernel)
  have hpending : pendingAfterSlot midMessageDev = u.ep.pf0.pba := by rw [pendingAfterSlot, hrun]
  rw [hep, pendingAfterSlot_midMessage.1] at hpending
  exact absurd (hpending.trans pendingAfterSlot_midMessage.2) (List.cons_ne_nil _ _)

end


section
/-! SUPPORT. The commands that wait at bays: one that was issued stands in the list, with what it asks, until its
completion takes it away, whatever else is issued or submitted (`Dev.Waits`). -/

namespace Sys2Proof.Machine

/-! ### Lists -/

theorem mem_insertBy {α : Type} {key : α → Nat} {a x : α} {l : List α} : x ∈ insertBy key a l ↔ x = a ∨ x ∈ l := by
  induction l with
  | nil => simp only [insertBy, List.mem_singleton, List.not_mem_nil, or_false]
  | cons b l ih =>
    unfold insertBy
    split
    · exact List.mem_cons
    · rw [List.mem_cons, ih, List.mem_cons, or_left_comm]

theorem mem_sortBy {α : Type} {key : α → Nat} {x : α} {l : List α} : x ∈ sortBy key l ↔ x ∈ l := by
  induction l using snocInduction with
  | nil => exact Iff.rfl
  | append_singleton l a ih =>
    simp only [sortBy, List.foldl_append, List.foldl_cons, List.foldl_nil] at ih ⊢
    rw [mem_insertBy, ih, List.mem_append, List.mem_singleton, or_comm]

theorem updFirst_append {α : Type} (p : α → Bool) (f : α → α) (l m : List α) :
    updFirst p f (l ++ m) = if l.any p then updFirst p f l ++ m else l ++ updFirst p f m := by
  induction l with
  | nil => rfl
  | cons a l ih =>
    cases ha : p a with
    | true => simp only [List.cons_append, updFirst, ha, if_true, List.any_cons, Bool.true_or]
    | false =>
      simp only [List.cons_append, updFirst, ha, Bool.false_eq_true, if_false, List.any_cons, Bool.false_or, ih]
      split <;> rfl

theorem mem_updFirst {α : Type} {p : α → Bool} {f : α → α} {l : List α} {y : α} (h : y ∈ updFirst p f l) :
    y ∈ l ∨ ∃ x ∈ l, p x = true ∧ y = f x := by
  induction l with
  | nil => cases h
  | cons a l ih =>
    unfold updFirst at h
    split at h
    · rename_i ha
      rcases List.mem_cons.mp h with rfl | h
      · exact .inr ⟨a, List.mem_cons_self, ha, rfl⟩
      · exact .inl (List.mem_cons_of_mem _ h)
    · rcases List.mem_cons.mp h with rfl | h
      · exact .inl List.mem_cons_self
      · rcases ih h with h | ⟨x, hx, hp, heq⟩
        · exact .inl (List.mem_cons_of_mem _ h)
        · exact .inr ⟨x, List.mem_cons_of_mem _ hx, hp, heq⟩

/-! ### A command that waits -/

/-- Two records of one command to a bay, whatever its submission has changed. -/
structure BayOp.Like (o e : BayOp) : Prop where
  id : o.id = e.id
  bay : o.bay = e.bay
  lba : o.lba = e.lba
  count : o.count = e.count
  cmd : o.cmd = e.cmd
  use : o.use = e.use

/-- The command `e` stands in the list, and no later one has its name. -/
def Dev.Waits (v : Dev) (e : BayOp) : Prop :=
  ∃ pre x post, v.store.ops = pre ++ x :: post ∧ x.Like e ∧ e.id < v.nextId ∧ ∀ y ∈ post, y.id ≠ e.id

theorem Dev.Waits.exists {v : Dev} {e : BayOp} (h : v.Waits e) : ∃ o ∈ v.store.ops, o.Like e := by
  obtain ⟨pre, x, post, hops, hlike, -⟩ := h
  exact ⟨x, hops ▸ List.mem_append_right _ List.mem_cons_self, hlike⟩

/-- A command submitted. -/
def Dev.submitted (v : Dev) (o : BayOp) : BayOp :=
  { o with port := v.sendPort o, cid := v.freeCid o.bay, issued := v.now, sent := true }

theorem Dev.submitted_like (v : Dev) {o e : BayOp} (h : o.Like e) : (v.submitted o).Like e :=
  ⟨h.id, h.bay, h.lba, h.count, h.cmd, h.use⟩

theorem Dev.send_frame (v : Dev) (o : BayOp) : ∃ moved p out, v.send o =
    { v with
      store := { v.store with ops := updFirst (fun x => x.id == o.id) (fun _ => v.submitted o) v.store.ops, moved := moved }
      pmon := p
      out := out } := by
  have hcount : ∀ (b : Bool) (w : Dev), ∃ p, (if b then w.countBay o.bay (v.sendPort o) 0x003 1 else w) = { w with pmon := p } := by
    intro b w
    cases b
    · exact ⟨w.pmon, rfl⟩
    · exact w.count_frame ..
  unfold Dev.send
  dsimp only
  obtain ⟨p, hp⟩ := hcount _ _
  rw [hp]
  exact ⟨_, p, _, rfl⟩

theorem Dev.send_waits {v : Dev} {o e : BayOp} (ho : o ∈ v.store.ops) (h : v.Waits e) : (v.send o).Waits e := by
  obtain ⟨pre, x, post, hops, hlike, hid, hpost⟩ := h
  obtain ⟨moved, p, out, hsend⟩ := v.send_frame o
  rw [hsend]
  dsimp only [Dev.Waits]
  rw [hops, updFirst_append]
  split
  · exact ⟨_, x, post, rfl, hlike, hid, hpost⟩
  · rename_i hpre
    by_cases hx : x.id = o.id
    · have hox : o = x := by
        rw [hops] at ho
        rcases List.mem_append.mp ho with ho | ho
        · have hany : pre.any (fun x => x.id == o.id) = true := List.any_eq_true.mpr ⟨o, ho, beq_iff_eq.mpr rfl⟩
          exact absurd hany hpre
        · rcases List.mem_cons.mp ho with ho | ho
          · exact ho
          · exact absurd (hx.symm.trans hlike.id) (hpost o ho)
      refine ⟨pre, v.submitted o, post, ?_, v.submitted_like (hox ▸ hlike), hid, hpost⟩
      simp only [updFirst, beq_iff_eq.mpr hx, if_true]
    · refine ⟨pre, x, updFirst (fun x => x.id == o.id) (fun _ => v.submitted o) post, ?_, hlike, hid, fun y hy => ?_⟩
      · simp only [updFirst, beq_eq_false_iff_ne.mpr hx, Bool.false_eq_true, if_false]
      · rcases mem_updFirst hy with hy | ⟨z, hz, hzo, rfl⟩
        · exact hpost y hy
        · exact (beq_iff_eq.mp hzo) ▸ hpost z hz

theorem Dev.nextOp_mem {v : Dev} {b : Nat} {o : BayOp} (h : v.nextOp b = some o) : o ∈ v.store.ops :=
  (List.mem_filter.mp (mem_sortBy.mp (List.mem_of_mem_head? h))).1

theorem Dev.pumpN_waits {e : BayOp} (b n : Nat) {v : Dev} (h : v.Waits e) : (v.pumpN b n).Waits e := by
  induction n generalizing v with
  | zero => exact h
  | succ n ih =>
    unfold Dev.pumpN
    split
    · rename_i o ho
      exact ih (Dev.send_waits (Dev.nextOp_mem ho) h)
    · exact h

/-- The submissions of a bay change its commands, what ports have moved, counters and outputs. -/
theorem Dev.pumpN_frame (v : Dev) (b n : Nat) : ∃ ops moved p out,
    v.pumpN b n = { v with store := { v.store with ops := ops, moved := moved }, pmon := p, out := out } := by
  induction n generalizing v with
  | zero => exact ⟨v.store.ops, v.store.moved, v.pmon, v.out, rfl⟩
  | succ n ih =>
    unfold Dev.pumpN
    split
    · rename_i o _
      obtain ⟨moved, p, out, h⟩ := v.send_frame o
      obtain ⟨ops', moved', p', out', h'⟩ := ih (v.send o)
      exact ⟨ops', moved', p', out', by rw [h', h]⟩
    · exact ⟨v.store.ops, v.store.moved, v.pmon, v.out, rfl⟩

/-- Only the commands of bays, what ports have moved, counters, outputs and the names given out differ. -/
def Dev.Issues (v w : Dev) : Prop := ∃ ops moved p out n,
  w = { v with store := { v.store with ops := ops, moved := moved }, pmon := p, out := out, nextId := n }

theorem Dev.Issues.refl (v : Dev) : v.Issues v := ⟨v.store.ops, v.store.moved, v.pmon, v.out, v.nextId, rfl⟩

theorem Dev.Issues.trans {u v w : Dev} (h : u.Issues v) (k : v.Issues w) : u.Issues w := by
  obtain ⟨ops, moved, p, out, n, rfl⟩ := h
  obtain ⟨ops', moved', p', out', n', rfl⟩ := k
  exact ⟨ops', moved', p', out', n', rfl⟩

section
variable (v : Dev) (b : Nat) (p : BayPort) (lba count : Nat) (cmd : BayCmd) (use : OpUse) (blocks : List (List Byte))

/-- The command that an issue adds. -/
def Dev.issued : BayOp := ⟨v.nextId, b, p, 0, lba, count, cmd, use, blocks, false, v.now, none, 0, false⟩

theorem Dev.issueOp_eq : v.issueOp b p lba count cmd use blocks =
    (v.nextId, ({ v with nextId := v.nextId + 1, store := { v.store with
      ops := v.store.ops ++ [v.issued b p lba count cmd use blocks] } } : Dev).pump b) := rfl

theorem Dev.issueOp_issues : v.Issues (v.issueOp b p lba count cmd use blocks).2 := by
  obtain ⟨ops, moved, pm, out, h⟩ := Dev.pumpN_frame { v with nextId := v.nextId + 1, store := { v.store with
      ops := v.store.ops ++ [v.issued b p lba count cmd use blocks] } } b _
  exact ⟨ops, moved, pm, out, v.nextId + 1, (congrArg Prod.snd (v.issueOp_eq ..)).trans h⟩

/-- The command just issued waits. -/
theorem Dev.issueOp_waits_new : (v.issueOp b p lba count cmd use blocks).2.Waits (v.issued b p lba count cmd use blocks) :=
  Dev.pumpN_waits b _ ⟨v.store.ops, _, [], rfl, ⟨rfl, rfl, rfl, rfl, rfl, rfl⟩, Nat.lt_succ_self _, fun _ h => absurd h List.not_mem_nil⟩

variable {v}

/-- One that waits still does. -/
theorem Dev.issueOp_waits {e : BayOp} (h : v.Waits e) : (v.issueOp b p lba count cmd use blocks).2.Waits e := by
  obtain ⟨pre, x, post, hops, hlike, hid, hpost⟩ := h
  refine Dev.pumpN_waits b _ ⟨pre, x, post ++ [v.issued b p lba count cmd use blocks], ?_, hlike, Nat.lt_succ_of_lt hid, fun y hy => ?_⟩
  · simp only [hops, List.append_assoc, List.cons_append]
    rfl
  · rcases List.mem_append.mp hy with hy | hy
    · exact hpost y hy
    · rw [List.mem_singleton.mp hy]
      exact Nat.ne_of_gt hid

end

end Sys2Proof.Machine
end


section
/-! SUPPORT. Closing a stripe (R174 to R177): the layout that a new stripe gets, and the writes that wait for its places. -/

namespace Sys2Proof.Machine

/-! ### The layout -/

section
variable {v w : Dev} {s claim m grains : Nat} {r : StripeRec}

theorem Dev.freeRow_spec {bays : List Nat} {lo step hi row : Nat} (h : v.freeRow bays lo step hi = some row) :
    row < hi ∧ ∃ i, row = lo + step * i := by
  unfold Dev.freeRow at h
  dsimp only at h
  have hfound := List.find?_some h
  obtain ⟨i, -, hi⟩ := List.mem_map.mp (List.mem_of_find?_eq_some h)
  simp only [Bool.and_eq_true, decide_eq_true_eq] at hfound
  exact ⟨hfound.1, i, hi.symm⟩

/-- A new stripe takes the lowest row of its spire's fourth that its bays have free, and the next name of its spire. -/
theorem Dev.newStripe_spec (h : v.newStripe s claim m grains = some (r, w)) :
    r.k = max 1 (ceilDiv grains 16) ∧ r.m = m ∧ r.claim = claim ∧ r.live = grains ∧ r.row % 4 = s % 4 ∧
      r.row < v.store.layout.rows - v.store.layout.spareRows ∧ r.lastGrains = grains - 16 * (r.k - 1) - 1 ∧
      ∃ seq, w = { v with store := { v.store with stripeSeq := seq } } := by
  unfold Dev.newStripe at h
  dsimp only at h
  split at h
  · cases h
  · split at h
    · cases h
    · rename_i row hrow
      obtain ⟨hlt, i, hi⟩ := Dev.freeRow_spec hrow
      obtain ⟨rfl, rfl⟩ := Prod.mk.inj (Option.some.inj h)
      exact ⟨rfl, rfl, rfl, rfl, by dsimp only; omega, hlt, rfl, _, rfl⟩

end

/-! ### The writes of a stripe -/

section
variable (r : StripeRec) (imgs : List (List Byte)) (use : Nat → OpUse)

/-- The images of one position are written to its place: its write is among the commands that this leaves. -/
theorem Dev.issueSeam_spec (v : Dev) (p bay row : Nat) (seam : List (List Byte)) (u : OpUse) :
    v.Issues (v.issueSeam r p bay row seam u).2 ∧ (∀ e, v.Waits e → (v.issueSeam r p bay row seam u).2.Waits e) ∧
      ∃ e : BayOp, (v.issueSeam r p bay row seam u).2.Waits e ∧ e.id ∈ (v.issueSeam r p bay row seam u).1 ∧ e.bay = bay ∧
        e.lba = slotLba row ∧ e.cmd = .write ∧ e.use = u := by
  unfold Dev.issueSeam
  dsimp only [Dev.issueWrite]
  generalize (if p + 1 = r.k then min 16 (r.lastGrains + 1) else 16) = n
  have hnew := v.issueOp_waits_new bay (v.activePort bay) (slotLba row) (seam.take n).length .write u (seam.take n)
  split
  · exact ⟨v.issueOp_issues .., fun e he => Dev.issueOp_waits _ _ _ _ _ _ _ he, _, hnew, List.mem_singleton_self _, rfl, rfl, rfl, rfl⟩
  · exact ⟨(v.issueOp_issues ..).trans (Dev.issueOp_issues ..), fun e he => Dev.issueOp_waits _ _ _ _ _ _ _ (Dev.issueOp_waits _ _ _ _ _ _ _ he),
      _, Dev.issueOp_waits _ _ _ _ _ _ _ hnew, List.mem_cons_self, rfl, rfl, rfl, rfl⟩

/-- What the writes of the positions below `n` leave. -/
structure Dev.Written (v : Dev) (n : Nat) (a : List Nat × Dev) : Prop where
  issues : v.Issues a.2
  waits : ∀ i b row, i < n → r.placeOf i = some (b, row) →
    ∃ e : BayOp, a.2.Waits e ∧ e.id ∈ a.1 ∧ e.bay = b ∧ e.lba = slotLba row ∧ e.cmd = .write ∧ e.use = use i

/-- The writes of one position more. -/
def Dev.writePosition (a : List Nat × Dev) (p : Nat) : List Nat × Dev :=
  match r.placeOf p with
  | none => a
  | some (b, row) => (a.1 ++ (a.2.issueSeam r p b row (r.seam imgs p) (use p)).1, (a.2.issueSeam r p b row (r.seam imgs p) (use p)).2)

theorem Dev.Written.step {v : Dev} {n : Nat} {a : List Nat × Dev} (h : v.Written r use n a) :
    v.Written r use (n + 1) (Dev.writePosition r imgs use a n) := by
  unfold Dev.writePosition
  split
  · rename_i hnone
    refine ⟨h.issues, fun i b row hi hplace => ?_⟩
    rcases Nat.lt_succ_iff_lt_or_eq.mp hi with hi | rfl
    · exact h.waits i b row hi hplace
    · cases hnone.symm.trans hplace
  · rename_i bay row' hsome
    obtain ⟨hissues, hkept, e', hnew, hid, hplaced⟩ := a.2.issueSeam_spec r n bay row' (r.seam imgs n) (use n)
    refine ⟨h.issues.trans hissues, fun i b row hi hplace => ?_⟩
    rcases Nat.lt_succ_iff_lt_or_eq.mp hi with hi | rfl
    · obtain ⟨e, he, hmem, hrest⟩ := h.waits i b row hi hplace
      exact ⟨e, hkept e he, List.mem_append_left _ hmem, hrest⟩
    · obtain ⟨rfl, rfl⟩ := Prod.mk.inj (Option.some.inj (hsome.symm.trans hplace))
      exact ⟨e', hnew, List.mem_append_right _ hid, hplaced⟩

theorem Dev.issueStripe_written (v : Dev) : v.Written r use r.width (v.issueStripe r imgs use) := by
  have key : ∀ n, v.Written r use n ((List.range n).foldl (Dev.writePosition r imgs use) ([], v)) := by
    intro n
    induction n with
    | zero => exact ⟨.refl v, fun i _ _ hi => absurd hi (Nat.not_lt_zero i)⟩
    | succ n ih =>
      rw [List.range_succ, List.foldl_append]
      exact ih.step r imgs use
  exact key r.width

end

/-! ### A pending stripe -/

theorem Dev.Waits.congr {v w : Dev} {e : BayOp} (h : v.Waits e) (hops : w.store.ops = v.store.ops) (hid : w.nextId = v.nextId) : w.Waits e := by
  unfold Dev.Waits at h ⊢
  rwa [hops, hid]

theorem find?_updFirst_const {α : Type} {f : α → Bool} {x y : α} (l : List α) (hx : l.find? f = some x) (hy : f y = true) :
    (updFirst f (fun _ => y) l).find? f = some y := by
  induction l with
  | nil => cases hx
  | cons a l ih =>
    cases ha : f a with
    | true => simp only [updFirst, ha, if_true, List.find?_cons, hy]
    | false =>
      rw [List.find?_cons, ha] at hx
      simp only [updFirst, ha, Bool.false_eq_true, if_false, List.find?_cons, ih hx]

theorem Dev.setPend_find {v : Dev} {p q : Pending} {id : Nat} (hid : q.id = id)
    (hp : v.store.pend.find? (fun y => y.id == id) = some p) : (v.setPend q).store.pend.find? (fun y => y.id == id) = some q := by
  subst hid
  exact find?_updFirst_const _ hp (beq_iff_eq.mpr rfl)

section
variable {v w : Dev} {p : Pending} {gs : List Grain} {r : StripeRec}

/-- The grains named by a stripe are found again, in order. -/
theorem filterMap_find_grains (hfound : ∀ g ∈ gs, v.store.grains.find? (fun y => y.id == g.id) = some g) :
    (gs.map (·.id)).filterMap (fun id => v.store.grains.find? (fun g => g.id == id)) = gs := by
  induction gs with
  | nil => rfl
  | cons g gs ih =>
    simp only [List.map_cons, List.filterMap_cons, hfound g List.mem_cons_self]
    exact congrArg (g :: ·) (ih fun g hg => hfound g (List.mem_cons_of_mem _ hg))

/-- The pending stripe as it is closed. -/
def Pending.closing (p : Pending) (gs : List Grain) (r : StripeRec) (cause : CloseCause) : Pending :=
  { p with grains := gs.map (·.id), closed := some cause, rec_ := some r, runs := gs.map (fun g => ⟨g.claim, g.key, g.offset, g.valid, true⟩) }

/-- A stripe all of whose grains fit its layout is written whole. -/
theorem Dev.closeStripe_eq (cause : CloseCause) (hgrains : p.grains = gs.map (·.id)) (hne : gs ≠ [])
    (hfound : ∀ g ∈ gs, v.store.grains.find? (fun y => y.id == g.id) = some g) (hroom : gs.length ≤ 16 * v.seamGoal p.k)
    (hnew : v.newStripe p.spire.val p.claim p.m gs.length = some (r, w)) : ∃ imgs, v.closeStripe p cause =
      ((((w.setPend (p.closing gs r cause)).issueStripe r imgs (fun pos => .settle p.id pos)).2.setPend
        { p.closing gs r cause with
            writes := ((w.setPend (p.closing gs r cause)).issueStripe r imgs (fun pos => .settle p.id pos)).1 }).count
        p.spire.val 0x04 0 0x001 1) := by
  have hempty : gs.isEmpty = false := by
    cases gs with
    | nil => exact absurd rfl hne
    | cons => rfl
  simp only [Dev.closeStripe, hgrains, filterMap_find_grains hfound, List.take_of_length_le hroom, List.drop_of_length_le hroom, hempty,
    Bool.false_eq_true, if_false, hnew]
  exact ⟨_, rfl⟩

end

end Sys2Proof.Machine

open Sys2Proof Sys2Proof.Machine

/-- Settles O56: by the guards of the two commands; the layout is that of `Dev.newStripe`, the writes those of `Dev.Written`. -/
theorem stripesClose : Obligations.StripesClose := by
  refine ⟨fun s id cause p => ⟨fun hmay hp hopen hcause => ?_, fun hmay hp hopen haged => ?_, fun hp h => ?_, fun hp h => ?_,
    fun h => ?_, fun h => ?_⟩, fun v p cause gs r w hgrains hne hfound hroom hnew hp => ?_⟩
  · simp only [exec, execStripeClose, State.on_eq, hp, hmay, hopen, hcause, Option.isNone_none, Bool.and_self, if_true]
  · simp only [exec, execSettleAgeExpire, State.on_eq, hp, hmay, hopen, haged, Option.isNone_none, Bool.and_self, if_true]
  · have hguard : (s.dev.maySettle && p.closed.isNone && s.dev.causeHolds p cause) = false := by
      rcases h with h | h | h
      · rw [h, Bool.false_and, Bool.false_and]
      · rw [← Option.not_isSome, h, Bool.not_true, Bool.and_false, Bool.false_and]
      · rw [h, Bool.and_false]
    simp only [exec, execStripeClose, State.on_eq, hp, hguard, Bool.false_eq_true, if_false]
  · have hguard : (s.dev.maySettle && p.closed.isNone && s.dev.aged p) = false := by
      rcases h with h | h | h
      · rw [h, Bool.false_and, Bool.false_and]
      · rw [← Option.not_isSome, h, Bool.not_true, Bool.and_false, Bool.false_and]
      · rw [h, Bool.and_false]
    simp only [exec, execSettleAgeExpire, State.on_eq, hp, hguard, Bool.false_eq_true, if_false]
  · simp only [Dev.maySettle, Dev.serving, Dev.settling, h]
    rfl
  · simp only [Dev.maySettle, Dev.serving, h]
    rfl
  · obtain ⟨imgs, hclose⟩ := Dev.closeStripe_eq cause hgrains hne hfound hroom hnew
    obtain ⟨hk, hm, hclaim, hlive, hrow, hlt, hlast, seq, hw⟩ := Dev.newStripe_spec hnew
    obtain ⟨hissues, hwaits⟩ := (w.setPend (p.closing gs r cause)).issueStripe_written r imgs (fun pos => .settle p.id pos)
    generalize (w.setPend (p.closing gs r cause)).issueStripe r imgs (fun pos => .settle p.id pos) = written at hclose hissues hwaits
    obtain ⟨pm, hcount⟩ := (written.2.setPend { p.closing gs r cause with writes := written.1 }).count_frame p.spire.val 0x04 0 0x001 1
    obtain ⟨ops, moved, pm', out, n, hdev⟩ := hissues
    refine ⟨⟨{ p.closing gs r cause with writes := written.1 }, ?_, rfl, rfl, hgrains.symm, ?_, fun i b row hi hplace => ?_⟩, hk, hm, hclaim,
      hlive, hrow, hlt, ?_, ?_, ?_⟩
    · have hpend : w.store.pend = v.store.pend := by rw [hw]
      have hfirst : (w.setPend (p.closing gs r cause)).store.pend.find? (fun y => y.id == p.id) = some (p.closing gs r cause) :=
        Dev.setPend_find rfl (hpend ▸ hp)
      have hsecond : written.2.store.pend.find? (fun y => y.id == p.id) = some (p.closing gs r cause) := by
        rw [hdev]
        exact hfirst
      rw [hclose, hcount]
      exact Dev.setPend_find (q := { p.closing gs r cause with writes := written.1 }) rfl hsecond
    · simp only [Pending.closing, List.map_map]
      rfl
    · obtain ⟨e, he, hid, hbay, hlba, hcmd, huse⟩ := hwaits i b row hi hplace
      rw [hclose, hcount]
      obtain ⟨o, ho, hlike⟩ := (he.congr (w := { written.2.setPend { p.closing gs r cause with writes := written.1 } with pmon := pm }) rfl rfl).exists
      exact ⟨o, ho, hlike.id ▸ hid, hlike.bay.trans hbay, hlike.lba.trans hlba, hlike.cmd.trans hcmd, hlike.use.trans huse⟩
    · have hpos : 0 < gs.length := List.length_pos_iff.mpr hne
      have hceil : ceilDiv gs.length 16 = (gs.length + 15) / 16 := rfl
      omega
    · rw [hclose, hcount, Dev.setPend, hdev, hw]
      rfl
    · rw [hclose, hcount, Dev.setPend, hdev, hw]
      rfl

end


section
/-! SUPPORT. Scans and the scrub pass (R206, R209 to R213): the reads of a stripe, the judgement of what they bring, and
the quotas of the peals of a pass. -/

namespace Sys2Proof.Machine

theorem Tab.set_set {α : Type} (t : Tab α) (n : Nat) (x y : α) : Tab.set (Tab.set t n x) n y = Tab.set t n y := by
  induction t with
  | nil => simp only [Tab.set, Nat.lt_irrefl, if_false, if_true]
  | cons e t ih =>
    obtain ⟨k, z⟩ := e
    by_cases hlt : n < k
    · simp only [Tab.set, hlt, Nat.lt_irrefl, if_true, if_false]
    · by_cases heq : n = k
      · simp only [Tab.set, heq, Nat.lt_irrefl, if_true, if_false]
      · simp only [Tab.set, hlt, heq, if_false, ih]

/-! ### Scans -/

section
variable {s : State} {p : Packet} {w : Dev} {id : Nat} {x : Scan} {sp : Spire} {tag : BitVec 16}

/-- A scan begins with nothing read. -/
theorem Dev.parseScan_got {v : Dev} (h : v.parseScan p = some x) : x.got = [] := by
  unfold Dev.parseScan at h
  dsimp only at h
  split at h
  · cases h
  · obtain ⟨-, h⟩ := Option.ite_none_right_eq_some.mp h
    rw [← Option.some.inj h]

theorem execScanStart_full (hx : s.dev.parseScan p = some x) (hfull : 64 ≤ s.dev.scansOn x.spire.val) :
    exec (.scanStart p) s = .next s := by
  simp only [exec, execScanStart, State.on_eq, hx, hfull, decide_true, if_true]

theorem execScanStart_invalid (h : Starts s.dev 0x0901 p w id) (hv : s.dev.parseScan p = none) (hw : w.parseScan p = none) :
    exec (.scanStart p) s = .next (s.withDev <| (w.fail id stInvalidField).skipHeads p.src) := by
  simp only [exec, execScanStart, State.on_eq, hv, Bool.false_eq_true, if_false, Dev.floderRun_of_starts h, hw]

/-- A scan that its spire has room for and the debug level allows joins the scans and reads its first blocks. -/
theorem execScanStart_valid (h : Starts s.dev 0x0901 p w id) (hx : s.dev.parseScan p = some x) (hroom : s.dev.scansOn x.spire.val < 64)
    (hw : w.parseScan p = some x) (hallowed : x.fromBay = true ∨ w.windowsOn x.spire.val = 0 ∨ w.sec.debug = .open_) :
    exec (.scanStart p) s = .next (s.withDev <|
      (({ w with store := { w.store with scans := w.store.scans ++ [{ x with cmd := id }] } }).scanNext x.spire x.tag).skipHeads p.src) := by
  have hasks : (!x.fromBay && w.windowsOn x.spire.val != 0 && w.sec.debug != .open_) = false := by
    rcases hallowed with h | h | h <;> simp [h]
  simp only [exec, execScanStart, State.on_eq, hx, Nat.not_le.mpr hroom, decide_false, Bool.false_eq_true, if_false,
    Dev.floderRun_of_starts h, hw, hasks]

/-- The reads of a scan change no scan. -/
theorem Dev.scanNext_scans (v : Dev) (sp : Spire) (tag : BitVec 16) : (v.scanNext sp tag).store.scans = v.store.scans := by
  unfold Dev.scanNext
  split
  · rfl
  · dsimp only
    split
    · obtain ⟨_, _, _, _, _, h⟩ := v.issueOp_issues ..
      rw [Dev.issueRead, h]
    · rfl

/-- A scan of a bay with nothing read reads its first blocks, at most 16. -/
theorem Dev.scanNext_reads {v : Dev} {y : Scan} (hy : v.store.scans.find? (fun x => x.spire == sp && x.tag == tag) = some y)
    (hbay : y.fromBay = true) (hgot : y.got = []) (hlen : y.length ≠ 0) :
    ∃ o ∈ (v.scanNext sp tag).store.ops, o.bay = y.bay ∧ o.lba = y.start ∧ o.count = min 16 y.length ∧ o.cmd = .read ∧ o.use = .scan sp tag := by
  simp only [Dev.scanNext, hy, hbay, hgot, List.length_nil, Bool.true_and, decide_eq_true (Nat.pos_of_ne_zero hlen), if_true, Nat.add_zero,
    Nat.sub_zero, Dev.issueRead]
  obtain ⟨o, ho, hlike⟩ := (v.issueOp_waits_new y.bay (if baySpire y.bay .A = y.spire.val then .A else .B) y.start (min 16 y.length)
    .read (.scan sp tag) []).exists
  exact ⟨o, ho, hlike.bay, hlike.lba, hlike.count, hlike.cmd, hlike.use⟩

theorem execScanAbort_unknown (h : Starts s.dev 0x0902 p w id) (hx : w.store.scans.find? (fun y => y.tag.toNat == p.u16 0) = none) :
    exec (.scanAbort p) s = .next (s.withDev <| (w.fail id stInvalidField).skipHeads p.src) := by
  simp only [exec, execScanAbort, State.on_eq, Dev.floderRun_of_starts h, hx]

theorem execScanAbort_known (h : Starts s.dev 0x0902 p w id) (hx : w.store.scans.find? (fun y => y.tag.toNat == p.u16 0) = some x) :
    exec (.scanAbort p) s = .next (s.withDev <| ((w.cutScan x.spire.val x.tag stAborted).finishOk id 0 0 0).skipHeads p.src) := by
  simp only [exec, execScanAbort, State.on_eq, Dev.floderRun_of_starts h, hx]

theorem execScanComplete_reading (h : ∃ o ∈ s.dev.store.ops, o.use = .scan sp tag) : exec (.scanComplete sp tag) s = .next s := by
  have hany : s.dev.store.ops.any (fun o => o.use == OpUse.scan sp tag) = true := by
    simpa only [List.any_eq_true, beq_iff_eq] using h
  simp only [exec, execScanComplete, State.on_eq, hany, Bool.true_or, if_true]
  cases s.dev.store.scans.find? (fun x => x.spire == sp && x.tag == tag) <;> rfl

/-- The scans without one of them. -/
def Dev.dropScan (v : Dev) (sp : Spire) (tag : BitVec 16) : Dev :=
  { v with store := { v.store with scans := v.store.scans.filter (fun y => !(y.spire == sp && y.tag == tag)) } }

section
variable (hx : s.dev.store.scans.find? (fun y => y.spire == sp && y.tag == tag) = some x)
  (hops : ∀ o ∈ s.dev.store.ops, o.use ≠ .scan sp tag) (hbay : x.fromBay = true) (hlen : x.length ≤ x.got.length)
include hx hops hbay hlen

theorem execScanComplete_stream (hgrain : x.grain = false) (hcompare : x.compare = false) : exec (.scanComplete sp tag) s =
    .next (s.withDev <| (s.dev.dropScan sp tag).finish x.cmd stOk
      (crcOf x.crc (x.got.flatMap (fun g => if x.inclMeta then slice g 0 4160 else slice g 0 4096)) % 2 ^ 32)
      (crcOf x.crc (x.got.flatMap (fun g => if x.inclMeta then slice g 0 4160 else slice g 0 4096)) / 2 ^ 32) 0 []) := by
  have hnone : s.dev.store.ops.any (fun o => o.use == OpUse.scan sp tag) = false := by
    simpa only [List.any_eq_false, beq_iff_eq] using hops
  simp only [exec, execScanComplete, State.on_eq, hx, hnone, hbay, Nat.not_lt.mpr hlen, decide_false, Bool.and_false, Bool.or_false,
    Bool.false_eq_true, if_false, hgrain, Dev.scanBytes, if_true, hcompare, Bool.false_and]
  rfl

theorem execScanComplete_grains (hgrain : x.grain = true) (hgood : ∀ g ∈ x.got, crcMatches g = true) :
    exec (.scanComplete sp tag) s = .next (s.withDev <| (s.dev.dropScan sp tag).finish x.cmd stOk x.got.length 0 0xFFFFFFFF []) := by
  have hnone : s.dev.store.ops.any (fun o => o.use == OpUse.scan sp tag) = false := by
    simpa only [List.any_eq_false, beq_iff_eq] using hops
  have hbad : badRecords x.got = [] := by
    rw [badRecords, List.filter_eq_nil_iff]
    intro i hi
    rw [List.getD_eq_getElem?_getD, List.getElem?_eq_getElem (List.mem_range.mp hi), Option.getD_some, hgood _ (List.getElem_mem _)]
    exact Bool.false_ne_true
  simp only [exec, execScanComplete, State.on_eq, hx, hnone, hbay, Nat.not_lt.mpr hlen, decide_false, Bool.and_false, Bool.or_false,
    Bool.false_eq_true, if_false, hgrain, Dev.scanRecords, if_true, hbad]
  rfl

end

end

/-! ### The scrub pass -/

theorem Dev.setScrub_setScrub (v : Dev) (n : Nat) (x y : Scrub) : (v.setScrub n x).setScrub n y = v.setScrub n y := by
  simp only [Dev.setScrub, Tab.set_set]

section
variable {s : State} {sp : Spire} {id : Nat}

theorem execScrubPassStart_starts (hpeal : s.dev.atPeal = true) (hon : s.dev.scrubOn sp.val = true)
    (hidle : (s.dev.scrub sp.val).running = false) : exec (.scrubPassStart sp) s = .next (s.withDev <| s.dev.setScrub sp.val
      { s.dev.scrub sp.val with
        running := true, items := s.dev.scrubItems sp.val, pages := s.dev.scrubPages sp.val
        total := (s.dev.scrubItems sp.val).length + (s.dev.scrubPages sp.val).length, pealNo := 0, quota := 0, late := false }) := by
  simp only [exec, execScrubPassStart, State.on_eq, hpeal, hon, hidle, Bool.not_false, Bool.and_self, if_true]

theorem execScrubPassStart_idle (h : s.dev.atPeal = false ∨ s.dev.scrubOn sp.val = false ∨ (s.dev.scrub sp.val).running = true) :
    exec (.scrubPassStart sp) s = .next s := by
  have hguard : (s.dev.atPeal && s.dev.scrubOn sp.val && !(s.dev.scrub sp.val).running) = false := by
    rcases h with h | h | h <;> simp [h]
  simp only [exec, execScrubPassStart, State.on_eq, hguard, Bool.false_eq_true, if_false]

theorem execScrubPealQuota_idle (h : s.dev.atPeal = false ∨ s.dev.scrubOn sp.val = false ∨ (s.dev.scrub sp.val).running = false) :
    exec (.scrubPealQuota sp) s = .next s := by
  have hguard : (s.dev.atPeal && s.dev.scrubOn sp.val && (s.dev.scrub sp.val).running) = false := by
    rcases h with h | h | h <;> simp [h]
  simp only [exec, execScrubPealQuota, State.on_eq, hguard, Bool.false_eq_true, if_false]

/-- A pass whose listed stripes are all still there and of which something is left goes on. -/
theorem Dev.endPass_of_left {v : Dev} {n : Nat} (hpages : (v.scrub n).pages = []) (hleft : (v.scrub n).items ≠ [])
    (hheld : ∀ i ∈ (v.scrub n).items, i ∈ v.scrubItems n) : v.endPass n = v.setScrub n (v.scrub n) := by
  have hitems : (v.scrub n).items.filter (fun i => (v.scrubItems n).contains i) = (v.scrub n).items := by
    rw [List.filter_eq_self]
    exact fun i hi => List.contains_iff_mem.mpr (hheld i hi)
  have hempty : (v.scrub n).items.isEmpty = false := by simpa only [List.isEmpty_eq_false_iff] using hleft
  simp only [Dev.endPass, hitems, hpages, List.filter_nil, hempty, Bool.and_false, Bool.false_and, Bool.false_eq_true, if_false]
  rw [← hpages]

theorem execScrubPealQuota_adds (hpeal : s.dev.atPeal = true) (hon : s.dev.scrubOn sp.val = true)
    (hrunning : (s.dev.scrub sp.val).running = true) (hpages : (s.dev.scrub sp.val).pages = []) (hlate : (s.dev.scrub sp.val).late = true)
    (hleft : (s.dev.scrub sp.val).items ≠ []) (hheld : ∀ i ∈ (s.dev.scrub sp.val).items, i ∈ s.dev.scrubItems sp.val) :
    exec (.scrubPealQuota sp) s = .next (s.withDev <| s.dev.setScrub sp.val { s.dev.scrub sp.val with
      pealNo := (s.dev.scrub sp.val).pealNo + 1
      quota := (s.dev.scrub sp.val).quota + scrubQuota (s.dev.scrub sp.val).total
        (s.dev.cfgBits (spireBase sp.val + 0x51000C) 31 0) ((s.dev.scrub sp.val).pealNo + 1) }) := by
  simp only [exec, execScrubPealQuota, State.on_eq, hpeal, hon, hrunning, Bool.and_self, if_true, hpages, List.filter_nil, List.take_nil,
    List.drop_nil, List.length_nil, Nat.sub_zero, hlate, Bool.true_or, Bool.not_true, Bool.and_false, Bool.false_eq_true, if_false,
    Dev.checkPages, List.isEmpty_nil]
  rw [Dev.endPass_of_left (by rw [Dev.scrub_setScrub]) (by rwa [Dev.scrub_setScrub]) (by rwa [Dev.scrub_setScrub]),
    Dev.scrub_setScrub, Dev.setScrub_setScrub, ← hpages, ← hlate]

/-- No bay of a stripe is left out of the pass. -/
theorem Dev.scrubSkips_eq_false {v : Dev} {r : StripeRec}
    (h : ∀ p b row, p < r.width → r.placeOf p = some (b, row) → (v.bay b).state = .serving) : v.scrubSkips r = false := by
  rw [Dev.scrubSkips, List.any_eq_false]
  intro p hp
  split
  · rename_i b row hplace
    rw [h p b row (List.mem_range.mp hp) hplace]
    exact Bool.false_ne_true
  · exact Bool.false_ne_true

/-- What the reads of the positions below `n` leave. -/
structure Dev.ReadsFor (v : Dev) (sp : Spire) (r : StripeRec) (n : Nat) (w : Dev) : Prop where
  issues : v.Issues w
  waits : ∀ p b row, p < n → r.placeOf p = some (b, row) →
    ∃ e : BayOp, w.Waits e ∧ e.bay = b ∧ e.lba = slotLba row ∧ e.cmd = .read ∧ e.use = .scrubRead sp r.id p

theorem Dev.ReadsFor.step {v w : Dev} {r : StripeRec} {n : Nat} (h : v.ReadsFor sp r n w) :
    v.ReadsFor sp r (n + 1) (w.scrubRead sp r n) := by
  unfold Dev.scrubRead
  split
  · rename_i hnone
    refine ⟨h.issues, fun p b row hp hplace => ?_⟩
    rcases Nat.lt_succ_iff_lt_or_eq.mp hp with hp | rfl
    · exact h.waits p b row hp hplace
    · cases hnone.symm.trans hplace
  · rename_i bay row' hsome
    refine ⟨h.issues.trans (Dev.issueOp_issues ..), fun p b row hp hplace => ?_⟩
    rcases Nat.lt_succ_iff_lt_or_eq.mp hp with hp | rfl
    · obtain ⟨e, he, hrest⟩ := h.waits p b row hp hplace
      exact ⟨e, Dev.issueOp_waits _ _ _ _ _ _ _ he, hrest⟩
    · obtain ⟨rfl, rfl⟩ := Prod.mk.inj (Option.some.inj (hsome.symm.trans hplace))
      exact ⟨_, Dev.issueOp_waits_new .., rfl, rfl, rfl, rfl⟩

theorem Dev.scrubReads_readsFor (v : Dev) (sp : Spire) (r : StripeRec) (n : Nat) :
    v.ReadsFor sp r n ((List.range n).foldl (fun y p => y.scrubRead sp r p) v) := by
  induction n with
  | zero => exact ⟨.refl v, fun p _ _ hp => absurd hp (Nat.not_lt_zero p)⟩
  | succ n ih =>
    rw [List.range_succ, List.foldl_append]
    exact ih.step

theorem Dev.stripe_id {v : Dev} {t : Stripe} (h : v.stripe id = some t) : t.rec_.id = id := by
  have hfound := List.find?_some h
  rw [Bool.and_eq_true, beq_iff_eq] at hfound
  exact hfound.1

/-- The next stripe of a pass is read from every bay that holds a position of it. -/
theorem Dev.scrubNext_reads {v : Dev} {t : Stripe} (hon : v.scrubOn sp.val = true) (hreading : (v.scrub sp.val).reading = none)
    (hquota : (v.scrub sp.val).quota ≠ 0) (hitems : (v.scrub sp.val).items.head? = some id) (ht : v.stripe id = some t)
    (hserves : ∀ p b row, p < t.rec_.width → t.rec_.placeOf p = some (b, row) → (v.bay b).state = .serving) :
    (v.setScrub sp.val { v.scrub sp.val with reading := some id, got := [], quota := (v.scrub sp.val).quota - 1 }).ReadsFor sp t.rec_
      t.rec_.width (Dev.scrubNext (v.scrub sp.val).items.length v sp) := by
  obtain ⟨rest, hrest⟩ : ∃ rest, (v.scrub sp.val).items = id :: rest := List.head?_eq_some_iff.mp hitems
  have hstep : Dev.scrubNext (v.scrub sp.val).items.length v sp = (List.range t.rec_.width).foldl (fun y p => y.scrubRead sp t.rec_ p)
      (v.setScrub sp.val { v.scrub sp.val with reading := some id, got := [], quota := (v.scrub sp.val).quota - 1 }) := by
    rw [hrest, List.length_cons, Dev.scrubNext]
    simp only [hon, hreading, hquota, hrest, ht, Dev.scrubSkips_eq_false hserves, Bool.not_true, Option.isSome_none, Bool.false_or,
      decide_false, Bool.false_eq_true, if_false]
  rw [hstep]
  exact Dev.scrubReads_readsFor ..

/-! ### What the reads of a stripe bring -/

theorem execScrubStripeReadComplete_idle
    (h : (s.dev.scrub sp.val).reading ≠ some id ∨ s.dev.scrubBusy sp id = true) : exec (.scrubStripeReadComplete sp id ()) s = .next s := by
  have hguard : (!(s.dev.spireUp sp.val && s.dev.serving) || (s.dev.scrub sp.val).reading != some id || s.dev.scrubBusy sp id) = true := by
    rcases h with h | h
    · rw [bne_iff_ne.mpr h, Bool.or_true, Bool.true_or]
    · rw [h, Bool.or_true]
  simp only [exec, execScrubStripeReadComplete, State.on_eq, hguard, if_true]

/-- A stripe read from bays that all serve is judged by what they brought. -/
theorem execScrubStripeReadComplete_read {t : Stripe} (ht : s.dev.stripe id = some t) (hup : s.dev.spireUp sp.val = true)
    (hserving : s.dev.serving = true) (hreading : (s.dev.scrub sp.val).reading = some id) (hbusy : s.dev.scrubBusy sp id = false)
    (hserves : ∀ p b row, p < t.rec_.width → t.rec_.placeOf p = some (b, row) → (s.dev.bay b).state = .serving)
    (hgot : ∀ e ∈ (s.dev.scrub sp.val).got, e.2 ≠ []) : exec (.scrubStripeReadComplete sp id ()) s = .next (s.withDev <|
      (s.dev.setScrub sp.val { s.dev.scrub sp.val with
        reading := none, got := [], items := dropFirst (fun i => i == id) (s.dev.scrub sp.val).items }).scrubJudge sp.val t
          ((s.dev.scrub sp.val).seams t.rec_)) := by
  have hread : (s.dev.scrub sp.val).got.any (fun e => e.2.isEmpty) = false := by
    rw [List.any_eq_false]
    exact fun e he => by simpa only [List.isEmpty_iff] using hgot e he
  have hskips := Dev.scrubSkips_eq_false (v := s.dev.setScrub sp.val { s.dev.scrub sp.val with
    reading := none, got := [], items := dropFirst (fun i => i == id) (s.dev.scrub sp.val).items }) hserves
  simp only [exec, execScrubStripeReadComplete, State.on_eq, hup, hserving, hreading, hbusy, bne_self_eq_false, Bool.and_self,
    Bool.not_true, Bool.or_self, Bool.false_eq_true, if_false, ht, hread, hskips]

section
variable {v : Dev} {n : Nat} {t : Stripe} {seams : List (List (List Byte))}

theorem Dev.scrubJudge_sound (h : scrubNeedsKey t seams = false) : v.scrubJudge n t seams =
    ((v.count n 0x07 0 0x001 t.runs.length).count n 0x07 0 0x003 1).endPass n := by
  simp only [Dev.scrubJudge, h, Bool.not_false, if_true]

theorem Dev.scrubJudge_served {k : List Byte} {taken : Dev} (htaken : (v.count n 0x07 0 0x001 t.runs.length).count n 0x07 0 0x003 1 = taken)
    (h : scrubNeedsKey t seams = true) (hk : taken.stripeKey t.rec_ = some k)
    (hgo : (taken.offerCipher n 4 t.runs.length (.scrub t.rec_.id seams)).1 = true) : v.scrubJudge n t seams =
      ((taken.offerCipher n 4 t.runs.length (.scrub t.rec_.id seams)).2.scrubStripe t seams k).endPass n := by
  simp only [Dev.scrubJudge, htaken, h, Bool.not_true, Bool.false_eq_true, if_false, hk, hgo, if_true]

end

theorem execScrubDeferredRetry_retried {t : Stripe} (ht : s.dev.store.stripes.find? (fun y => y.rec_.id == id && !y.dead) = some t)
    (hon : s.dev.scrubOn sp.val = true) (hdeferred : id ∈ (s.dev.scrub sp.val).deferred) (hkey : (s.dev.stripeKey t.rec_).isSome = true) :
    exec (.scrubDeferredRetry sp id) s = .next (s.withDev <| s.dev.setScrub sp.val { s.dev.scrub sp.val with
      deferred := (s.dev.scrub sp.val).deferred.filter (fun i => i != id), items := (s.dev.scrub sp.val).items ++ [id]
      quota := (s.dev.scrub sp.val).quota + 1 }) := by
  simp only [exec, execScrubDeferredRetry, State.on_eq, ht, hon, List.contains_iff_mem.mpr hdeferred, hkey, Bool.and_self, if_true]

theorem execScrubDeferredRetry_unknown (h : id ∉ (s.dev.scrub sp.val).deferred) : exec (.scrubDeferredRetry sp id) s = .next s := by
  have hnone : (s.dev.scrub sp.val).deferred.contains id = false := by
    rw [Bool.eq_false_iff, ne_eq, List.contains_iff_mem]
    exact h
  simp only [exec, execScrubDeferredRetry, State.on_eq, hnone, Bool.and_false, Bool.false_and, Bool.false_eq_true, if_false]
  cases s.dev.store.stripes.find? (fun y => y.rec_.id == id && !y.dead) <;> rfl

end

/-! ### The quotas of a pass -/

theorem ceilDiv_mono {a b : Nat} (h : a ≤ b) (u : Nat) : ceilDiv a u ≤ ceilDiv b u := by
  unfold ceilDiv
  split
  · exact Nat.le_refl _
  · exact Nat.div_le_div_right (by omega)

theorem ceilDiv_add_le (a b u : Nat) : ceilDiv (a + b) u ≤ ceilDiv a u + ceilDiv b u := by
  unfold ceilDiv
  split
  · exact Nat.zero_le _
  · rename_i hu
    have hpos : 0 < u := Nat.pos_of_ne_zero hu
    have ha := Nat.div_add_mod (a + (u - 1)) u
    have hb := Nat.div_add_mod (b + (u - 1)) u
    have hra := Nat.mod_lt (a + (u - 1)) hpos
    have hrb := Nat.mod_lt (b + (u - 1)) hpos
    refine Nat.lt_succ_iff.mp ((Nat.div_lt_iff_lt_mul hpos).mpr ?_)
    rw [Nat.succ_mul, Nat.add_mul, Nat.mul_comm _ u, Nat.mul_comm _ u]
    omega

theorem ceilDiv_mul_self (a : Nat) {u : Nat} (h : 0 < u) : ceilDiv (a * u) u = a := by
  rw [ceilDiv, if_neg (Nat.pos_iff_ne_zero.mp h), Nat.add_comm, Nat.add_mul_div_right _ _ h, Nat.div_eq_of_lt (by omega), Nat.zero_add]

theorem sumMap_range_succ (f : Nat → Nat) (n : Nat) : sumMap f (List.range (n + 1)) = sumMap f (List.range n) + f n := by
  simp only [sumMap, List.range_succ, List.foldl_append, List.foldl_cons, List.foldl_nil]

section
variable (items : Nat) {peals : Nat} (hpeals : 0 < peals)
include hpeals

theorem scrubQuota_eq (n : Nat) : scrubQuota items peals n = ceilDiv (items * n) peals - ceilDiv (items * (n - 1)) peals := by
  rw [scrubQuota, Nat.max_eq_right (Nat.succ_le_of_lt hpeals)]

/-- The quotas of the first peals of a pass add up to their share of its items. -/
theorem sumMap_scrubQuota (n : Nat) : sumMap (fun i => scrubQuota items peals (i + 1)) (List.range n) = ceilDiv (items * n) peals := by
  induction n with
  | zero =>
    rw [Nat.mul_zero, ceilDiv, if_neg (Nat.pos_iff_ne_zero.mp hpeals), Nat.zero_add, Nat.div_eq_of_lt (by omega)]
    rfl
  | succ n ih =>
    rw [sumMap_range_succ, ih, scrubQuota_eq items hpeals, Nat.add_sub_cancel]
    exact Nat.add_sub_of_le (ceilDiv_mono (Nat.mul_le_mul_left items n.le_succ) peals)

theorem scrubQuota_le (n : Nat) : scrubQuota items peals n ≤ ceilDiv items peals := by
  rw [scrubQuota_eq items hpeals]
  cases n with
  | zero => exact Nat.le_trans (Nat.sub_le_of_le_add (Nat.le_add_left _ _)) (Nat.zero_le _)
  | succ n =>
    rw [Nat.add_sub_cancel, Nat.mul_succ]
    exact Nat.sub_le_of_le_add (Nat.le_trans (ceilDiv_add_le _ _ _) (Nat.le_of_eq (Nat.add_comm _ _)))

end

end Sys2Proof.Machine

open Sys2Proof Sys2Proof.Machine

/-- Settles O59: each command by its guard; the reads of a stripe by the invariant of the loop that issues them; the
quotas by a telescoping sum. -/
theorem scansAndScrub : Obligations.ScansAndScrub := by
  refine ⟨fun s p w id x sp tag => ⟨execScanStart_invalid, execScanStart_full, fun h hx hroom hw _ hallowed => ?_,
      fun h hx hroom hw hbay hlen htags => ?_, execScanAbort_unknown, execScanAbort_known, execScanComplete_stream, execScanComplete_grains,
      execScanComplete_reading⟩,
    fun s sp id t k => ⟨fun hpeal hon hidle => ?_, execScrubPassStart_idle, execScrubPealQuota_adds, execScrubPealQuota_idle,
      fun hon hreading hquota hitems ht hserves => ?_, fun hread hneeds => ?_, fun hread hneeds hk hgo => ?_,
      execScrubStripeReadComplete_idle, execScrubDeferredRetry_retried, execScrubDeferredRetry_unknown⟩,
    fun items peals hpeals => ⟨?_, fun n _ _ => sumMap_scrubQuota items hpeals n, scrubQuota_le items hpeals⟩⟩
  · exact execScanStart_valid h hx hroom hw (.inr hallowed)
  · have hfind : (w.store.scans ++ [{ x with cmd := id }]).find? (fun y => y.spire == x.spire && y.tag == x.tag) =
        some { x with cmd := id } := by
      rw [List.find?_append, List.find?_eq_none.mpr]
      · simp only [List.find?_cons, BEq.rfl, Bool.and_self, Option.none_or]
      · intro y hy
        simp only [beq_eq_false_iff_ne.mpr (htags y hy), Bool.and_false, Bool.false_eq_true, not_false_eq_true]
    have hgot : x.got = [] := Dev.parseScan_got hx
    refine ⟨_, execScanStart_valid h hx hroom hw (.inl hbay), Dev.scanNext_scans .., ?_⟩
    exact Dev.scanNext_reads (v := { w with store := { w.store with scans := w.store.scans ++ [{ x with cmd := id }] } })
      (y := { x with cmd := id }) hfind hbay hgot hlen
  · exact ⟨_, _, execScrubPassStart_starts hpeal hon hidle, Dev.scrub_setScrub .., rfl, rfl, rfl, rfl, rfl, rfl, rfl, rfl, rfl, rfl⟩
  · obtain ⟨⟨_, _, _, _, _, hissues⟩, hwaits⟩ := Dev.scrubNext_reads hon hreading hquota hitems ht hserves
    refine ⟨?_, fun p b row hp hplace => ?_⟩
    · rw [hissues]
      exact Dev.scrub_setScrub ..
    · obtain ⟨e, he, hbay, hlba, hcmd, huse⟩ := hwaits p b row hp hplace
      obtain ⟨o, ho, hlike⟩ := he.exists
      rw [Dev.stripe_id ht] at huse
      exact ⟨o, ho, hlike.bay.trans hbay, hlike.lba.trans hlba, hlike.cmd.trans hcmd, hlike.use.trans huse⟩
  · obtain ⟨ht, hup, hserving, hreading, hbusy, hserves, hgot⟩ := hread
    rw [execScrubStripeReadComplete_read ht hup hserving hreading hbusy hserves hgot, Dev.scrubJudge_sound hneeds]
  · obtain ⟨ht, hup, hserving, hreading, hbusy, hserves, hgot⟩ := hread
    obtain rfl := Dev.stripe_id ht
    rw [execScrubStripeReadComplete_read ht hup hserving hreading hbusy hserves hgot, Dev.scrubJudge_served rfl hneeds hk hgo]
  · rw [sumMap_scrubQuota items hpeals, ceilDiv_mul_self items hpeals]

end


section
/-! SUPPORT. A capsule that nothing stands in the way of (`Sole`): it passes the checks of R119, is the only command at the
scheduler of its spire (R133), and is admitted there. -/

namespace Sys2Proof.Machine

/-! ### What its checks leave -/

theorem Dev.sendLocal_frame (v : Dev) (n k : Nat) (ipv6 : Bool) (w : Wire) : ∃ eg p,
    v.sendLocal n k ipv6 w = { v with hosts := { v.hosts with egress := eg }, pmon := p } := v.enqueue_frame ..

theorem Dev.sendPfc_frame (v : Dev) (n prios quanta : Nat) : ∃ eg p,
    v.sendPfc n prios quanta = { v with hosts := { v.hosts with egress := eg }, pmon := p } := by
  have hfold : ∀ (l : List Nat) (w : Dev), ∃ eg p,
      l.foldl (fun x k => x.sendLocal n k false (.pfc (BitVec.ofNat 8 prios) quanta)) w =
        { w with hosts := { w.hosts with egress := eg }, pmon := p } := by
    intro l
    induction l with
    | nil => exact fun w => ⟨w.hosts.egress, w.pmon, rfl⟩
    | cons k l ih =>
      intro w
      obtain ⟨eg, p, h⟩ := w.sendLocal_frame n k false (.pfc (BitVec.ofNat 8 prios) quanta)
      obtain ⟨eg', p', h'⟩ := ih (w.sendLocal n k false (.pfc (BitVec.ofNat 8 prios) quanta))
      exact ⟨eg', p', by rw [List.foldl_cons, h', h]⟩
  unfold Dev.sendPfc
  obtain ⟨eg, p, h⟩ := hfold _ v
  obtain ⟨p', h'⟩ := Dev.count_frame { v with hosts := { v.hosts with egress := eg }, pmon := p } (portSpire n) 0x01 (n % 2) 0x017 1
  exact ⟨eg, p', by rw [h, Dev.countPort, h']⟩

/-- The PFC of a port changes its record, its queues and counters. -/
theorem Dev.pfcCheck_frame (v : Dev) (n : Nat) : ∃ pt eg p,
    v.pfcCheck n = { v with hosts := { v.hosts with ports := pt, egress := eg }, pmon := p } := by
  have hport : ∀ (x : NetPort) (prios quanta : Nat), ∃ pt eg p, (v.setPort n x).sendPfc n prios quanta =
      { v with hosts := { v.hosts with ports := pt, egress := eg }, pmon := p } := by
    intro x prios quanta
    obtain ⟨eg, p, h⟩ := (v.setPort n x).sendPfc_frame n prios quanta
    exact ⟨_, eg, p, h⟩
  unfold Dev.pfcCheck
  dsimp only
  split
  · exact ⟨v.hosts.ports, v.hosts.egress, v.pmon, rfl⟩
  · split
    · exact hport ..
    · split
      · exact hport ..
      · exact ⟨v.hosts.ports, v.hosts.egress, v.pmon, rfl⟩

/-- Other hosts' state, counters and names given out. -/
def Dev.beside (v : Dev) (h : Hosts) (p : Pmon) (n : Nat) : Dev := { v with hosts := h, pmon := p, nextId := n }

/-- The same device with other lease records. -/
def Dev.withLeases (v : Dev) (ls : Tab LeaseRec) (sl : List SpireLease) : Dev := { v with leases := ls, spireLeases := sl }

section
variable {v : Dev} (h : Hosts) (p : Pmon) (n : Nat)

theorem Dev.takeLease_some {k : KeySlot} {m : Nat} {w : Dev} (htake : v.takeLease k = (some m, w)) : ∃ ls,
    (v.beside h p n).takeLease k = (some m, (v.beside h p n).withLeases ls v.spireLeases) := by
  have hlease : (v.beside h p n).leaseOf k.keyId = v.leaseOf k.keyId := rfl
  unfold Dev.takeLease at htake ⊢
  rw [hlease]
  cases hl : v.leaseOf k.keyId with
  | none =>
    rw [hl] at htake
    dsimp only at htake ⊢
    split at htake
    · rename_i hroom
      rw [if_pos (show (v.beside h p n).leases.length < 16384 from hroom)]
      exact ⟨_, congrArg (·, _) (congrArg Prod.fst htake)⟩
    · exact absurd (congrArg Prod.fst htake) (Option.some_ne_none _).symm
  | some e =>
    rw [hl] at htake
    dsimp only at htake ⊢
    split at htake
    · rename_i hroom
      rw [if_pos hroom]
      exact ⟨_, congrArg (·, _) (congrArg Prod.fst htake)⟩
    · exact absurd (congrArg Prod.fst htake) (Option.some_ne_none _).symm

theorem Dev.roomyLease_some {s : Spire} {slot g : Nat} {l : SpireLease} {w : Dev} (hroomy : v.roomyLease s slot g = (some l, w)) :
    ∃ ls, (v.beside h p n).roomyLease s slot g = (some l, (v.beside h p n).withLeases ls v.spireLeases) := by
  have hspire : (v.beside h p n).spireLease s.val slot = v.spireLease s.val slot := rfl
  have hslot : (v.beside h p n).keySlot slot = v.keySlot slot := rfl
  have hfresh : ∀ {w : Dev}, (match v.takeLease (v.keySlot slot) with
      | (some m, v1) => (some (⟨s, slot, (v.keySlot slot).generation, m, m * leaseSpan, none, false⟩ : SpireLease), v1)
      | (none, v1) => (none, v1)) = (some l, w) → ∃ ls, (match (v.beside h p n).takeLease (v.keySlot slot) with
      | (some m, v1) => (some (⟨s, slot, (v.keySlot slot).generation, m, m * leaseSpan, none, false⟩ : SpireLease), v1)
      | (none, v1) => (none, v1)) = (some l, (v.beside h p n).withLeases ls v.spireLeases) := by
    intro w hw
    split at hw
    · rename_i m v1 htake
      obtain ⟨ls, htake'⟩ := Dev.takeLease_some h p n htake
      rw [htake']
      exact ⟨ls, congrArg (·, _) (congrArg Prod.fst hw)⟩
    · exact absurd (congrArg Prod.fst hw) (Option.some_ne_none _).symm
  unfold Dev.roomyLease at hroomy ⊢
  rw [hspire, hslot]
  cases hl : v.spireLease s.val slot with
  | none =>
    rw [hl] at hroomy
    exact hfresh hroomy
  | some e =>
    rw [hl] at hroomy
    dsimp only at hroomy ⊢
    split at hroomy
    · rename_i hroom
      rw [if_pos hroom]
      exact ⟨v.leases, congrArg (·, _) (congrArg Prod.fst hroomy)⟩
    · rename_i hroom
      rw [if_neg hroom]
      split at hroomy
      · exact ⟨v.leases, congrArg (·, _) (congrArg Prod.fst hroomy)⟩
      · split at hroomy
        · exact absurd (congrArg Prod.fst hroomy) (Option.some_ne_none _).symm
        · rename_i hfailed
          rw [if_neg hfailed]
          exact hfresh hroomy

/-- The counter values of an append are those of its spire's lease, whatever waits at the hosts. -/
theorem Dev.reserveNonce_some {s : Spire} {slot g : Nat} {nonce : BitVec 32 × BitVec 64} {w : Dev}
    (hreserve : v.reserveNonce s slot g = (some nonce, w)) : ∃ ls sl,
      (v.beside h p n).reserveNonce s slot g = (some nonce, (v.beside h p n).withLeases ls sl) := by
  have hslot : (v.beside h p n).keySlot slot = v.keySlot slot := rfl
  have hencrypts : (v.beside h p n).slotEncrypts (v.keySlot slot) = v.slotEncrypts (v.keySlot slot) := rfl
  unfold Dev.reserveNonce at hreserve ⊢
  dsimp only at hreserve ⊢
  rw [hslot, hencrypts]
  split at hreserve
  · rename_i hzero
    rw [if_pos hzero]
    exact ⟨v.leases, v.spireLeases, congrArg (·, _) (congrArg Prod.fst hreserve)⟩
  · rename_i hpos
    rw [if_neg hpos]
    split at hreserve
    · exact absurd (congrArg Prod.fst hreserve) (Option.some_ne_none _).symm
    · rename_i hkey
      rw [if_neg hkey]
      split at hreserve
      · exact absurd (congrArg Prod.fst hreserve) (Option.some_ne_none _).symm
      · rename_i l v1 hroomy
        obtain ⟨ls, hroomy'⟩ := Dev.roomyLease_some h p n hroomy
        rw [hroomy']
        dsimp only
        split at hreserve
        · exact absurd (congrArg Prod.fst hreserve) (Option.some_ne_none _).symm
        · rename_i hlimit
          rw [if_neg hlimit]
          exact ⟨ls, _, congrArg (·, _) (congrArg Prod.fst hreserve)⟩

end

/-! ### The scheduler with one command (R133) -/

/-- Of one name with work, that name is served, whatever its weight. -/
theorem drr_singleton (a w cur : Nat) (deficit : Tab Nat) : ∃ d, drr [(a, w)] cur deficit = some (a, d) := by
  have hafter : (([(a, w)] : List (Nat × Nat)).find? (fun e => decide (cur < e.1))).orElse (fun _ => ([(a, w)] : List (Nat × Nat)).head?) =
      some (a, w) := by
    rw [List.find?_cons]
    split <;> rfl
  by_cases hw : w = 0
  · refine ⟨deficit.filter (fun _ => false), ?_⟩
    simp only [drr, hw, List.filter_cons, List.filter_nil, bne_self_eq_false, Bool.false_eq_true, if_false, List.any_nil,
      Bool.false_and, List.find?_nil, List.head?_nil, Option.orElse_none]
    rw [hw] at hafter
    rw [hafter]
    rfl
  · have hnz : ([(a, w)] : List (Nat × Nat)).filter (fun e => e.2 != 0) = [(a, w)] := by
      simp only [List.filter_cons, bne_iff_ne.mpr hw, if_true, List.filter_nil]
    unfold drr
    rw [hnz]
    dsimp only
    split
    · rename_i hcur
      rw [Bool.and_eq_true, List.any_cons, List.any_nil, Bool.or_false, beq_iff_eq] at hcur
      obtain ⟨rfl, -⟩ := hcur
      exact ⟨_, rfl⟩
    · rw [hafter]
      exact ⟨_, rfl⟩

section
variable {v : Dev} {c : Ctx}

theorem Dev.queued_single (hctxs : v.hosts.ctxs = [c]) (hphase : c.phase = .queued) : v.queued c.arrival.val = [c] := by
  simp only [Dev.queued, hctxs, hphase, List.filter_cons, BEq.rfl, Bool.and_self, if_true, List.filter_nil]

/-- Nothing of class U waits. -/
theorem Dev.demote_single (hctxs : v.hosts.ctxs = [c]) (hphase : c.phase = .queued) (hcls : c.cls < 4) :
    v.demote c.arrival.val = v := by
  have hnone : (c.cls == 4) = false := beq_eq_false_iff_ne.mpr (Nat.ne_of_lt hcls)
  unfold Dev.demote
  split
  · rfl
  · simp only [Dev.queued_single hctxs hphase, List.filter_cons, hnone, Bool.false_eq_true, if_false, List.filter_nil, List.isEmpty_nil,
      if_true]

theorem Dev.pick_single (hctxs : v.hosts.ctxs = [c]) (hphase : c.phase = .queued) (hcls : c.cls < 4) :
    ∃ x, v.pick c.arrival.val = some (c, x) := by
  have hnone : (c.cls == 4) = false := beq_eq_false_iff_ne.mpr (Nat.ne_of_lt hcls)
  have hbehind : v.behindWaiter c = false := by
    simp only [Dev.behindWaiter, hctxs, List.any_cons, hphase, List.any_nil]
    rfl
  have hclasses : (List.range 4).filter (fun i => c.cls == i) = [c.cls] := by
    generalize c.cls = n at hcls
    revert n
    decide
  have hclaims : sortBy (fun n => n) [c.claim].eraseDups = [c.claim] := by
    rw [List.eraseDups_cons, List.filter_nil, List.eraseDups_nil]
    rfl
  unfold Dev.pick
  simp only [Dev.queued_single hctxs hphase, List.filter_cons, hbehind, Bool.not_false, if_true, List.filter_nil, List.find?_cons, hnone,
    List.find?_nil, List.any_cons, List.any_nil, Bool.or_false, hclasses, List.map_cons, List.map_nil]
  obtain ⟨d, hd⟩ := drr_singleton c.cls (v.classWeight c.arrival.val c.cls) (v.sched c.arrival.val).clsNext (v.sched c.arrival.val).clsDef
  rw [hd]
  simp only [BEq.rfl, if_true, List.map_cons, List.map_nil, hclaims]
  obtain ⟨d', hd'⟩ := drr_singleton c.claim (v.claimWeight c.claim c.cls) (Tab.getD (v.sched c.arrival.val).claimNext c.cls 0)
    (((v.sched c.arrival.val).claimDef.filter (fun e => e.1 / 4096 == c.cls)).map (fun e => (e.1 % 4096, e.2)))
  rw [hd']
  simp only [List.find?_cons, BEq.rfl, Option.map_some]
  exact ⟨_, rfl⟩

/-- The scheduler of a spire admits the one command that waits there. -/
theorem Dev.runSched_single (hctxs : v.hosts.ctxs = [c]) (hphase : c.phase = .queued) (hcls : c.cls < 4) (hserving : v.serving = true)
    (hup : v.spireUp c.arrival.val = true) (hgrants : (v.sched c.arrival.val).grants ≠ 0) :
    ∃ x, v.runSched c.arrival.val = (v.setSched c.arrival.val x).admitted c := by
  obtain ⟨x, hx⟩ := Dev.pick_single hctxs hphase hcls
  simp only [Dev.runSched, hserving, hup, Bool.and_self, if_true, Dev.queued_single hctxs hphase, List.length_singleton, Dev.spendGrants,
    Dev.demote_single hctxs hphase hcls, if_neg hgrants, hx]
  exact ⟨_, rfl⟩

end

/-! ### A capsule alone -/

/-- The device in which the one command `c` of a session is admitted: what only it and its way there changed. -/
structure Dev.Admitting (v : Dev) (c : Ctx) (z : Dev) : Prop where
  frame : ∃ se pt eg sc ls sl p n, z = { v with
    hosts := { v.hosts with ctxs := [c], inbox := [], sessions := se, ports := pt, egress := eg, scheds := sc }
    leases := ls, spireLeases := sl, pmon := p, nextId := n }
  sessions : z.hosts.sessions = if c.kind.tallied then
    Tab.adjust v.hosts.sessions c.session (fun y => y.setTally c.msg.cap.tally .inFlight) else v.hosts.sessions

/-- A counted command differs in its counters. -/
theorem Dev.Admitting.count {v z : Dev} {c : Ctx} (h : v.Admitting c z) (region cls idx ev n : Nat) :
    v.Admitting c (z.count region cls idx ev n) := by
  obtain ⟨⟨se, pt, eg, sc, ls, sl, p, m, hz⟩, hsessions⟩ := h
  obtain ⟨p', hp'⟩ := z.count_frame region cls idx ev n
  rw [hp']
  exact ⟨⟨se, pt, eg, sc, ls, sl, p', m, by rw [hz]⟩, hsessions⟩

theorem Dev.countForward_frame (v : Dev) (s : Session) (k : CmdKind) (d : Delivered) :
    ∃ p, v.countForward s k d = { v with pmon := p } := by
  unfold Dev.countForward
  dsimp only
  split
  · exact ⟨v.pmon, rfl⟩
  · exact v.count_frame ..

theorem Waiting.is_self (m : Waiting) : m.is m.msg.opcode m.msg = true := by
  simp only [Waiting.is, Delivered.same, BEq.rfl, Bool.and_self]

/-- The device when the only message at ingress is evaluated. -/
def Dev.evaluating (v : Dev) (pt : Tab NetPort) (eg : Tab Egress) (p : Pmon) : Dev :=
  v.beside { v.hosts with inbox := [], ports := pt, egress := eg } p v.nextId

section
variable {v : Dev} {k : CmdKind} {m : Waiting} {sn : Nat} {x : Session} {desc : ClaimDesc} {nonce : BitVec 32 × BitVec 64} {w : Dev}

theorem Dev.homeOf_lt {v : Dev} {q sn : Nat} (h : v.sessionOf q = some sn) : v.homeOf q < 4 := by
  unfold Dev.homeOf
  obtain ⟨y, hy, -⟩ := Option.map_eq_some_iff.mp h
  rw [hy]
  exact y.home.isLt

/-- The command joins those in progress. -/
def Dev.joined (v : Dev) (c : Ctx) : Dev :=
  let z := if c.kind.tallied then v.adjSession c.session (fun y => y.setTally c.msg.cap.tally .inFlight) else v
  { z with hosts := { z.hosts with ctxs := z.hosts.ctxs ++ [c] } }

theorem Dev.joined_admitting {c : Ctx} (hctxs : v.hosts.ctxs = []) (pt : Tab NetPort) (eg : Tab Egress) (p : Pmon) (n : Nat)
    (ls : Tab LeaseRec) (sl : List SpireLease) : v.Admitting c
      (((v.beside { v.hosts with inbox := [], ports := pt, egress := eg } p n).withLeases ls sl).joined c) ∧
    (((v.beside { v.hosts with inbox := [], ports := pt, egress := eg } p n).withLeases ls sl).joined c).hosts.scheds = v.hosts.scheds := by
  unfold Dev.joined
  cases htallied : c.kind.tallied
  · refine ⟨⟨⟨v.hosts.sessions, pt, eg, v.hosts.scheds, ls, sl, p, n, ?_⟩, ?_⟩, rfl⟩
    · simp only [Bool.false_eq_true, if_false, Dev.beside, Dev.withLeases, hctxs, List.nil_append]
    · simp only [htallied, Bool.false_eq_true, if_false, Dev.beside, Dev.withLeases]
  · refine ⟨⟨⟨Tab.adjust v.hosts.sessions c.session (fun y => y.setTally c.msg.cap.tally .inFlight), pt, eg, v.hosts.scheds, ls, sl, p, n, ?_⟩,
      ?_⟩, rfl⟩
    · simp only [if_true, Dev.adjSession, Dev.beside, Dev.withLeases, hctxs, List.nil_append]
    · simp only [htallied, if_true, Dev.adjSession, Dev.beside, Dev.withLeases]

/-- The command as it queues, alone: its tally is in flight where it has one, and its counter values are reserved. -/
theorem Dev.queueCapsule_of_sole (h : Sole v k m sn x desc nonce w) (pt : Tab NetPort) (eg : Tab Egress) (p : Pmon) :
    ∃ z, v.Admitting (v.newCtx v.nextId sn x k m desc nonce) z ∧
      (v.evaluating pt eg p).queueCapsule sn x k m = z.admitted (v.newCtx v.nextId sn x k m desc nonce) := by
  obtain ⟨-, -, hctxs, -, hsn, -, hserving, -, -, -, haccess, hnonce, hcheck, hup, hgrants, hcls⟩ := h
  obtain ⟨ls, sl, hreserve⟩ := Dev.reserveNonce_some { v.hosts with inbox := [], ports := pt, egress := eg } p (v.nextId + 1) hnonce
  have hhome : (v.newCtx v.nextId sn x k m desc nonce).arrival.val = v.homeOf m.msg.qp := Nat.mod_eq_of_lt (Dev.homeOf_lt hsn)
  have haccess' : (v.beside { v.hosts with inbox := [], ports := pt, egress := eg } p (v.nextId + 1)).accessCheck x k m.msg = .ok desc := haccess
  have hcheck' : ((v.beside { v.hosts with inbox := [], ports := pt, egress := eg } p (v.nextId + 1)).withLeases ls sl).extentCheck
      (v.newCtx v.nextId sn x k m desc nonce) = none := hcheck
  have hqueue : (v.evaluating pt eg p).queueCapsule sn x k m =
      ((((v.beside { v.hosts with inbox := [], ports := pt, egress := eg } p (v.nextId + 1)).withLeases ls sl).joined
        (v.newCtx v.nextId sn x k m desc nonce)).countForward x k m.msg).runSched
        (v.newCtx v.nextId sn x k m desc nonce).arrival.val := by
    have hfresh : (v.evaluating pt eg p).fresh = (v.nextId, v.beside { v.hosts with inbox := [], ports := pt, egress := eg } p (v.nextId + 1)) := rfl
    have harrival : (v.beside { v.hosts with inbox := [], ports := pt, egress := eg } p (v.nextId + 1)).homeOf m.msg.qp = v.homeOf m.msg.qp := rfl
    have hctx : ((v.beside { v.hosts with inbox := [], ports := pt, egress := eg } p (v.nextId + 1)).withLeases ls sl).newCtx v.nextId sn x k m
      desc nonce = v.newCtx v.nextId sn x k m desc nonce := rfl
    unfold Dev.queueCapsule
    dsimp only
    rw [hfresh]
    dsimp only
    rw [haccess']
    dsimp only
    rw [harrival, hreserve]
    dsimp only
    rw [hctx, hcheck']
    rfl
  obtain ⟨hadmitting, hscheds⟩ := Dev.joined_admitting (c := v.newCtx v.nextId sn x k m desc nonce) hctxs pt eg p (v.nextId + 1) ls sl
  generalize ((v.beside { v.hosts with inbox := [], ports := pt, egress := eg } p (v.nextId + 1)).withLeases ls sl).joined
    (v.newCtx v.nextId sn x k m desc nonce) = z at hqueue hadmitting hscheds
  obtain ⟨p', hp'⟩ := z.countForward_frame x k m.msg
  have hz := hadmitting.frame
  obtain ⟨se, pt', eg', sc, ls', sl', p'', n, hz⟩ := hz
  have hsched : ({ z with pmon := p' } : Dev).sched (v.newCtx v.nextId sn x k m desc nonce).arrival.val = v.sched (v.homeOf m.msg.qp) := by
    rw [hhome, Dev.sched, hscheds]
    rfl
  have hserving' : ({ z with pmon := p' } : Dev).serving = true := by rw [hz]; exact hserving
  have hup' : ({ z with pmon := p' } : Dev).spireUp (v.newCtx v.nextId sn x k m desc nonce).arrival.val = true := by
    rw [hhome, hz]
    exact hup
  obtain ⟨y, hy⟩ := Dev.runSched_single (v := { z with pmon := p' }) (c := v.newCtx v.nextId sn x k m desc nonce)
    (by rw [hz]) rfl hcls hserving' hup' (by rw [hsched]; exact hgrants)
  refine ⟨({ z with pmon := p' } : Dev).setSched (v.newCtx v.nextId sn x k m desc nonce).arrival.val y, ⟨⟨se, pt', eg',
    Tab.set z.hosts.scheds (v.newCtx v.nextId sn x k m desc nonce).arrival.val y, ls', sl', p', n, ?_⟩, hadmitting.sessions⟩, by rw [hqueue, hp', hy]⟩
  rw [Dev.setSched, hz]

/-- A capsule alone is the one command in progress when it is admitted. -/
theorem Dev.capsule_of_sole (h : Sole v k m sn x desc nonce w) : ∃ z, v.Admitting (v.newCtx v.nextId sn x k m desc nonce) z ∧
    v.capsule k.opcode k m.msg = z.admitted (v.newCtx v.nextId sn x k m desc nonce) := by
  have hsole := h
  obtain ⟨hinbox, hopcode, -, -, hsn, hx, hserving, hok, hforward, hfresh, -⟩ := h
  have his : m.is k.opcode m.msg = true := hopcode ▸ m.is_self
  obtain ⟨q, hq, -⟩ := Option.map_eq_some_iff.mp hsn
  have hq' : ({ v with hosts := { v.hosts with inbox := [] } } : Dev).qp m.msg.qp = some q := hq
  obtain ⟨pt, eg, p, hpfc⟩ : ∃ pt eg p, ({ v with hosts := { v.hosts with inbox := [] } } : Dev).pfcCheck q.port.val =
      v.evaluating pt eg p := Dev.pfcCheck_frame _ _
  have hdrop : dropFirst (fun y : Waiting => y.is k.opcode m.msg) [m] = [] := by
    simp only [dropFirst, his, if_true]
  have hsn' : ({ v with hosts := { v.hosts with inbox := [] } } : Dev).sessionOf m.msg.qp = some sn := hsn
  have hx' : ({ v with hosts := { v.hosts with inbox := [] } } : Dev).session sn = some x := hx
  have hserving' : (v.evaluating pt eg p).serving = true := hserving
  have hok' : capsuleOk k m.msg.cap ((v.evaluating pt eg p).plainLen x m.msg) = true := hok
  have hcapsule : v.capsule k.opcode k m.msg = (v.evaluating pt eg p).queueCapsule sn x k m := by
    unfold Dev.capsule
    simp only [hinbox, List.find?_cons, his, hdrop, hsn', hx', hq', hpfc, hserving', hok', hforward, Bool.not_true, Bool.false_eq_true, if_false]
    split
    · rename_i htallied
      rw [hfresh htallied]
    · rfl
  rw [hcapsule]
  exact Dev.queueCapsule_of_sole hsole pt eg p

end

end Sys2Proof.Machine
end


section
/-! SUPPORT. Completions: what the completion of a command in progress leaves, and the commands without a tally (R46, R102,
R118, R121, R130, R131, R228). -/

namespace Sys2Proof.Machine

/-! ### Admission -/

/-- What a command does at its admission, by its kind. -/
def Dev.admitAs (v : Dev) (k : CmdKind) (c : Ctx) : Dev :=
  match k with
  | .create => v.admitCreate c
  | .append => v.admitAppend c
  | .sealOp => v.admitChange c .sealed_
  | .delete => v.admitChange c .deleted
  | .read => v.admitRead c
  | .stat => v.admitStat c
  | .flush => v.admitFlush c
  | .cack => v.admitCack c
  | .ping => v.completeCtx c stOk false c.msg.cap.offset.toNat 0 0

theorem Dev.admitted_eq {v : Dev} {c : Ctx} (hcheck : (v.count c.arrival.val 0x02 0 0x001 1).extentCheck c = none) :
    v.admitted c = (v.count c.arrival.val 0x02 0 0x001 1).admitAs c.kind c := by
  cases hk : c.kind <;> simp only [Dev.admitted, hcheck, hk, Dev.admitAs]

section
variable {v : Dev} {k : CmdKind} {m : Waiting} {sn : Nat} {x : Session} {desc : ClaimDesc} {nonce : BitVec 32 × BitVec 64} {w : Dev}

theorem Dev.capsule_admits (h : Sole v k m sn x desc nonce w) : ∃ z, v.Admitting (v.newCtx v.nextId sn x k m desc nonce) z ∧
    v.capsule k.opcode k m.msg = z.admitAs k (v.newCtx v.nextId sn x k m desc nonce) := by
  obtain ⟨z, hz, hcapsule⟩ := Dev.capsule_of_sole h
  obtain ⟨-, -, -, -, -, -, -, -, -, -, -, -, hcheck, -⟩ := h
  have hcounted := hz.count (v.newCtx v.nextId sn x k m desc nonce).arrival.val 0x02 0 0x001 1
  refine ⟨_, hcounted, hcapsule.trans (Dev.admitted_eq ?_)⟩
  obtain ⟨_, _, _, _, _, _, _, _, hframe⟩ := hcounted.frame
  rw [hframe]
  exact hcheck

end

/-! ### The completion of a command -/

/-- A command that holds no grant, credit or quota leaves the list only. -/
theorem Dev.dropCtx_plain (v : Dev) {c : Ctx} (htag : c.grantTag = none) (hcredit : c.credit = 0) (hcharged : c.charged = 0) :
    v.dropCtx c = { v with hosts := { v.hosts with ctxs := v.hosts.ctxs.filter (fun x => x.id != c.id) } } := by
  simp only [Dev.dropCtx, htag, hcredit, hcharged, Option.isSome_none, Bool.false_and, Bool.false_eq_true, if_false, if_true]

/-- A command completed: its session has the completion, and it is gone. -/
structure Answered (v u : Dev) (c : Ctx) (y : Session) (st : Byte) (off len grains : Nat) (comp : Completion) : Prop where
  answer : HasAnswer u c.session y c.msg st (if c.kind.tallied then some c.msg.cap.tally.toNat else none) comp
  resOffset : comp.resOffset = off
  resLength : comp.resLength = len
  grainCount : comp.grainCount = grains
  floor : ∃ y', u.session c.session = some y' ∧ y'.floor = y.floor
  record : c.kind.tallied = true → keepsRecord st = true → ∃ y' r, u.session c.session = some y' ∧
    Tab.get y'.tallies c.msg.cap.tally.toNat = some (.recorded r) ∧ r.comp = comp
  noExtent : (c.kind == .flush || c.kind == .cack || c.kind == .ping) = true → comp.extState = 3 ∧ comp.owner = 0
  frame : ∃ se, u = { v with hosts := { v.hosts with ctxs := v.hosts.ctxs.filter (fun x => x.id != c.id), sessions := se } }

theorem Dev.session_adjSession (v : Dev) (sn : Nat) (f : Session → Session) : (v.adjSession sn f).session sn = (v.session sn).map f :=
  (Tab.get_adjust ..).trans (if_pos rfl)

/-- Nothing waits for the original of a tally. -/
theorem Dev.releaseDups_none {v : Dev} (hdups : v.hosts.dups = []) (sn : Nat) (t : BitVec 32) : v.releaseDups sn t = v := by
  simp only [Dev.releaseDups, hdups, List.filter_nil, List.foldl_nil]
  rw [← hdups]

/-- The device without a command that was in progress. -/
def Dev.without (v : Dev) (c : Ctx) : Dev := { v with hosts := { v.hosts with ctxs := v.hosts.ctxs.filter (fun x => x.id != c.id) } }

/-- The tally of a session after its command completed: its record, or nothing where the status keeps none (R227). -/
def Session.answered (s : Session) (t : BitVec 32) (rec_ : Record) : Session :=
  if keepsRecord rec_.comp.status then s.setTally t (.recorded rec_) else { s with tallies := Tab.del s.tallies t.toNat }

theorem Session.answered_frame (s : Session) (t : BitVec 32) (rec_ : Record) : ∃ ts, s.answered t rec_ = { s with tallies := ts } := by
  unfold Session.answered
  split <;> exact ⟨_, rfl⟩

theorem Session.answered_record (s : Session) (t : BitVec 32) {rec_ : Record} (h : keepsRecord rec_.comp.status = true) :
    Tab.get (s.answered t rec_).tallies t.toNat = some (.recorded rec_) := by
  rw [Session.answered, if_pos h]
  exact Tab.get_set ..

theorem Dev.session_build {v : Dev} {sn : Nat} {y : Session} (hy : v.session sn = some y) (e : Entry) (qp tally from_ : Option Nat) :
    (v.build sn e qp tally from_).session sn = some { y with built := y.built ++ [⟨e, qp, tally, false, from_, false⟩] } := by
  rw [Dev.build, Dev.session_adjSession, hy]
  rfl

section
variable {v : Dev} {c : Ctx} {y : Session} (st : Byte) (settled : Bool) (off len grains : Nat) (hqp : c.qp = c.msg.qp)
  (htag : c.grantTag = none) (hy : v.session c.session = some y) (hdups : v.hosts.dups = [])
include hqp htag hy hdups

theorem Dev.completeCtx_answered : ∃ comp, Answered v (v.completeCtx c st settled off len grains) c y st off len grains comp := by
  have hdrop : v.dropCtx { c with charged := 0, credit := 0 } = v.without c := v.dropCtx_plain htag rfl rfl
  have hnone : (c.kind == .flush || c.kind == .cack || c.kind == .ping) = true → (v.without c).infoFor c = noExt := fun h => if_pos h
  unfold Dev.completeCtx
  rw [hdrop]
  dsimp only
  cases htallied : c.kind.tallied
  · refine ⟨(v.without c).completionOf c.session c.msg st ((v.without c).infoFor c) settled off len 0 0 grains, ?_⟩
    rw [if_neg Bool.false_ne_true]
    have hsession := Dev.session_build (v := v.without c) hy (.completion ((v.without c).completionOf c.session c.msg st
      ((v.without c).infoFor c) settled off len 0 0 grains)) (some c.qp) none (some c.msg.at_)
    exact ⟨⟨rfl, rfl, rfl, _, hsession, by rw [hqp, htallied]; rfl, rfl⟩, rfl, rfl, rfl, ⟨_, hsession, rfl⟩,
      fun h => absurd (htallied.symm.trans h) Bool.false_ne_true, fun h => by rw [hnone h]; exact ⟨rfl, rfl⟩, _, rfl⟩
  · refine ⟨(v.without c).completionOf c.session c.msg st ((v.without c).infoFor c) settled off len c.nonceFixed c.nonceFirst grains, ?_⟩
    rw [if_pos rfl, Dev.completeTallied, Dev.releaseDups_none (by exact hdups)]
    generalize hcomp : (v.without c).completionOf c.session c.msg st ((v.without c).infoFor c) settled off len c.nonceFixed c.nonceFirst grains = comp
    have hstatus : comp.status = st := by rw [← hcomp]; rfl
    obtain ⟨rec_, hrec, hadj⟩ : ∃ rec_ : Record, rec_.comp = comp ∧ ((v.without c).adjSession c.session (fun s =>
        if keepsRecord comp.status then
          s.setTally c.msg.cap.tally (.recorded ⟨comp, c.kind.opcode, (v.without c).clk.aging + 64 * pealBells, false⟩)
        else { s with tallies := Tab.del s.tallies c.msg.cap.tally.toNat })).session c.session = some (y.answered c.msg.cap.tally rec_) :=
      ⟨⟨comp, c.kind.opcode, (v.without c).clk.aging + 64 * pealBells, false⟩, rfl, by
        rw [Dev.session_adjSession]
        exact congrArg (Option.map _) hy⟩
    have hsession := Dev.session_build hadj (.completion comp) (some c.msg.qp) (some c.msg.cap.tally.toNat) (some c.msg.at_)
    obtain ⟨ts, hts⟩ := y.answered_frame c.msg.cap.tally rec_
    refine ⟨⟨hstatus, ?_, ?_, _, hsession, ?_, ?_⟩, ?_, ?_, ?_, ⟨_, hsession, ?_⟩, fun _ hkeeps => ⟨_, rec_, hsession, ?_, hrec⟩, fun h => ?_, _, rfl⟩
    · rw [← hcomp]; rfl
    · rw [← hcomp]; rfl
    · rw [hts, htallied]; rfl
    · rw [hts]
    · rw [← hcomp]; rfl
    · rw [← hcomp]; rfl
    · rw [← hcomp]; rfl
    · rw [hts]
    · exact y.answered_record c.msg.cap.tally (by rw [hrec, hstatus]; exact hkeeps)
    · rw [← hcomp, hnone h]
      exact ⟨rfl, rfl⟩

end

/-! ### What admission leaves -/

namespace Dev.Admitting

variable {v z : Dev} {c : Ctx} (h : v.Admitting c z)
include h

theorem ctxs : z.hosts.ctxs = [c] := by
  obtain ⟨_, _, _, _, _, _, _, _, hz⟩ := h.frame
  rw [hz]

theorem inbox : z.hosts.inbox = [] := by
  obtain ⟨_, _, _, _, _, _, _, _, hz⟩ := h.frame
  rw [hz]

theorem dups : z.hosts.dups = v.hosts.dups := by
  obtain ⟨_, _, _, _, _, _, _, _, hz⟩ := h.frame
  rw [hz]

theorem extents : z.hosts.extents = v.hosts.extents := by
  obtain ⟨_, _, _, _, _, _, _, _, hz⟩ := h.frame
  rw [hz]

theorem reads : z.hosts.reads = v.hosts.reads := by
  obtain ⟨_, _, _, _, _, _, _, _, hz⟩ := h.frame
  rw [hz]

theorem flushes : z.hosts.flushes = v.hosts.flushes := by
  obtain ⟨_, _, _, _, _, _, _, _, hz⟩ := h.frame
  rw [hz]

theorem store : z.store = v.store := by
  obtain ⟨_, _, _, _, _, _, _, _, hz⟩ := h.frame
  rw [hz]

theorem ext (claim : Nat) (key : BitVec 128) : z.ext claim key = v.ext claim key :=
  congrArg (fun l => List.find? (fun e : Extent => e.is claim key) l) h.extents

theorem session_untallied (hk : c.kind.tallied = false) (sn : Nat) : z.session sn = v.session sn := by
  have hsessions := h.sessions
  rw [hk] at hsessions
  exact congrArg (Tab.get · sn) hsessions

end Dev.Admitting

/-! ### The commands without a tally -/

section
variable {v : Dev} {k : CmdKind} {m : Waiting} {sn : Nat} {x : Session} {desc : ClaimDesc} {nonce : BitVec 32 × BitVec 64} {w : Dev}

/-- An untallied command alone that completes at its admission. -/
theorem Dev.capsule_completes (h : Sole v k m sn x desc nonce w) (hk : k.tallied = false) {st : Byte} {off len grains : Nat}
    (hadmit : ∀ z, v.Admitting (v.newCtx v.nextId sn x k m desc nonce) z →
      z.admitAs k (v.newCtx v.nextId sn x k m desc nonce) = z.completeCtx (v.newCtx v.nextId sn x k m desc nonce) st false off len grains) :
    ∃ comp, HasAnswer (v.capsule k.opcode k m.msg) sn x m.msg st none comp ∧ comp.resOffset = off ∧ comp.resLength = len ∧
      comp.grainCount = grains ∧ ((k == .flush || k == .cack || k == .ping) = true → comp.extState = 3 ∧ comp.owner = 0) ∧
      (∃ y, (v.capsule k.opcode k m.msg).session sn = some y ∧ y.floor = x.floor) ∧
      (v.capsule k.opcode k m.msg).hosts.extents = v.hosts.extents ∧ (v.capsule k.opcode k m.msg).hosts.reads = v.hosts.reads ∧
      (v.capsule k.opcode k m.msg).hosts.flushes = v.hosts.flushes ∧ (v.capsule k.opcode k m.msg).store = v.store := by
  obtain ⟨z, hz, hcapsule⟩ := Dev.capsule_admits h
  obtain ⟨-, -, -, hdups, -, hx, -⟩ := h
  have hsession : z.session sn = some x := (hz.session_untallied hk sn).trans hx
  rw [hcapsule, hadmit z hz]
  obtain ⟨comp, hcomp⟩ := Dev.completeCtx_answered (v := z) (c := v.newCtx v.nextId sn x k m desc nonce) st false off len grains rfl rfl
    hsession (hz.dups.trans hdups)
  have hanswer := hcomp.answer
  rw [if_neg (by rw [show (v.newCtx v.nextId sn x k m desc nonce).kind = k from rfl, hk]; exact Bool.false_ne_true)] at hanswer
  obtain ⟨se, hframe⟩ := hcomp.frame
  refine ⟨comp, hanswer, hcomp.resOffset, hcomp.resLength, hcomp.grainCount, hcomp.noExtent, hcomp.floor, ?_, ?_, ?_, ?_⟩
  · rw [hframe]; exact hz.extents
  · rw [hframe]; exact hz.reads
  · rw [hframe]; exact hz.flushes
  · rw [hframe]; exact hz.store

end

theorem Dev.admitStat_of_ext {z : Dev} {c : Ctx} {e : Extent} (h : z.ext c.claim c.msg.cap.key = some e) :
    z.admitStat c = z.completeCtx c stOk false 0 e.len e.grains := by
  simp only [Dev.admitStat, h]

theorem Dev.admitRead_empty {z : Dev} {c : Ctx} {e : Extent} (h : z.ext c.claim c.msg.cap.key = some e) (hlen : c.msg.cap.length = 0) :
    z.admitRead c = z.completeCtx c stOk false c.msg.cap.offset.toNat e.len 0 := by
  have hzero : c.msg.cap.length.toNat = 0 := by rw [hlen]; rfl
  simp only [Dev.admitRead, h, hzero, if_true]

theorem Dev.admitRead_beyond {z : Dev} {c : Ctx} {e : Extent} (h : z.ext c.claim c.msg.cap.key = some e) (hlen : c.msg.cap.length ≠ 0)
    (hbeyond : e.len < c.msg.cap.offset.toNat + c.msg.cap.length.toNat) :
    z.admitRead c = z.completeCtx c stBeyondEnd false c.msg.cap.offset.toNat e.len 0 := by
  have hpos : c.msg.cap.length.toNat ≠ 0 := fun hzero => hlen (BitVec.eq_of_toNat_eq hzero)
  simp only [Dev.admitRead, h, hpos, if_false, hbeyond, if_true]

/-- The grains that a FLUSH covers. -/
def Dev.flushed (v : Dev) (sn : Nat) : List Grain := v.dirtyGrains.filter (fun g => g.session == sn)

theorem Dev.mem_flushed {v : Dev} {sn : Nat} {g : Grain} : g ∈ v.flushed sn ↔ g ∈ v.store.grains ∧ g.held = true ∧ g.session = sn := by
  rw [Dev.flushed, List.mem_filter, Dev.dirtyGrains, List.mem_filter, beq_iff_eq, and_assoc]

theorem Dev.admitFlush_none {z : Dev} {c : Ctx} (h : z.flushed c.session = []) : z.admitFlush c = z.completeCtx c stOk false 0 0 0 := by
  have hempty : (z.dirtyGrains.filter (fun g => g.session == c.session)).isEmpty = true := List.isEmpty_iff.mpr h
  simp only [Dev.admitFlush, hempty, if_true]

theorem Dev.admitFlush_some {z : Dev} {c : Ctx} (h : z.flushed c.session ≠ []) (htag : c.grantTag = none) (hcredit : c.credit = 0)
    (hcharged : c.charged = 0) : z.admitFlush c = { z.without c with hosts := { (z.without c).hosts with
      flushes := (z.without c).hosts.flushes ++ [⟨c.id, c.msg, c.qp, c.session, c.claim, c.claimVer,
        (z.flushed c.session).map (fun (g : Grain) => (g.claim, g.key, g.offset)), (z.flushed c.session).map (·.id),
        sumMap (·.valid) (z.flushed c.session), c.arrived, false⟩] } } := by
  have hempty : (z.dirtyGrains.filter (fun g => g.session == c.session)).isEmpty = false := by
    rw [List.isEmpty_eq_false_iff]
    exact h
  simp only [Dev.admitFlush, hempty, Bool.false_eq_true, if_false, z.dropCtx_plain htag hcredit hcharged]
  rfl

/-- The tallies of a session that a CACK up to `t` does not release. -/
def Session.keptAbove (s : Session) (t : BitVec 32) : Tab TallyState :=
  s.tallies.filter (fun (e : Nat × TallyState) => decide ((t - s.floor).toNat < (BitVec.ofNat 32 e.1 - s.floor).toNat))

theorem Tab.mem_of_get {α : Type} {t : Tab α} {n : Nat} {x : α} (h : Tab.get t n = some x) : (n, x) ∈ t := by
  induction t with
  | nil => cases h
  | cons e t ih =>
    obtain ⟨k, y⟩ := e
    simp only [Tab.get] at h
    split at h
    · rename_i hk
      cases h
      exact hk ▸ List.mem_cons_self
    · exact List.mem_cons_of_mem _ (ih h)

theorem Dev.admitCack_recorded {z : Dev} {c : Ctx} {s : Session} {r : Record} (hs : z.session c.session = some s)
    (hclass : tallyClass c.msg.cap.tally s.floor = .inWindow) (hrec : Tab.get s.tallies c.msg.cap.tally.toNat = some (.recorded r))
    (hidle : ∀ t ∈ s.tallies, t.2 ≠ .inFlight) : z.admitCack c =
      (z.setSession c.session { s with floor := c.msg.cap.tally + 1, tallies := s.keptAbove c.msg.cap.tally }).completeCtx c stOk false
        (c.msg.cap.tally + 1).toNat 0 0 := by
  have hbusy : s.tallies.any (fun e => e.2 == .inFlight && decide ((BitVec.ofNat 32 e.1 - s.floor).toNat ≤ (c.msg.cap.tally - s.floor).toNat)) =
      false := by
    rw [List.any_eq_false]
    intro e he
    rw [beq_eq_false_iff_ne.mpr (hidle e he), Bool.false_and]
    exact Bool.false_ne_true
  have hbelow : (TallyClass.inWindow == TallyClass.below) = false := rfl
  have hahead : (TallyClass.inWindow == TallyClass.ahead) = false := rfl
  unfold Dev.admitCack
  simp only [hs, hclass, hbelow, hahead, Bool.false_eq_true, if_false, Bool.false_or, hbusy, Bool.or_false]
  rw [if_neg]
  · rfl
  · rw [Bool.not_eq_true', Bool.not_eq_false, List.any_eq_true]
    refine ⟨(c.msg.cap.tally - s.floor).toNat, List.mem_filterMap.mpr ⟨_, Tab.mem_of_get hrec, ?_⟩, decide_eq_true (Nat.le_refl _)⟩
    simp only [BitVec.ofNat_toNat, BitVec.setWidth_eq]

theorem Dev.admitCack_ahead {z : Dev} {c : Ctx} {s : Session} (hs : z.session c.session = some s)
    (hclass : tallyClass c.msg.cap.tally s.floor = .ahead) : z.admitCack c = z.completeCtx c stInvalidField false 0 0 0 := by
  have hbelow : (TallyClass.ahead == TallyClass.below) = false := rfl
  simp only [Dev.admitCack, hs, hclass, hbelow, Bool.false_eq_true, if_false, BEq.rfl, Bool.true_or, if_true]

/-- What a FLUSH waits for, of the store it was admitted over: each held grain of its session, read by `f`. -/
theorem Dev.mem_flushed_map {z v : Dev} {sn : Nat} {α : Type} {f : Grain → α} {a : α} (hstore : z.store = v.store) :
    a ∈ (z.flushed sn).map f ↔ ∃ y ∈ v.store.grains, y.held = true ∧ y.session = sn ∧ f y = a := by
  rw [List.mem_map, ← hstore]
  exact ⟨fun ⟨y, hy, hf⟩ => have ⟨hmem, hheld, hs⟩ := Dev.mem_flushed.mp hy; ⟨y, hmem, hheld, hs, hf⟩,
    fun ⟨y, hmem, hheld, hs, hf⟩ => ⟨y, Dev.mem_flushed.mpr ⟨hmem, hheld, hs⟩, hf⟩⟩

end Sys2Proof.Machine

open Sys2Proof Sys2Proof.Machine

/-- Settles O53: each command is admitted alone, and completes by what its admission finds. -/
theorem untalliedCommands : Obligations.UntalliedCommands := by
  intro s m sn x e k nonce w
  refine ⟨fun h he => ?_, fun h => ?_, fun h hnone => ?_, fun g h hg hheld hgs => ?_, fun r h hclass hrec hidle => ?_, fun h hclass => ?_,
    fun h he hlen => ?_, fun h he hlen hbeyond => ?_⟩
  · obtain ⟨comp, hanswer, -, hlen, hgrains, -, -, hextents, -, -, hstore⟩ :=
      Dev.capsule_completes h rfl fun z hz => Dev.admitStat_of_ext ((hz.ext _ _).trans he)
    exact ⟨_, comp, rfl, hanswer, hlen, hgrains, hextents, hstore⟩
  · obtain ⟨comp, hanswer, hoff, -, -, hnoExt, -, hextents, -, -, hstore⟩ := Dev.capsule_completes h rfl fun z hz => rfl
    exact ⟨_, comp, rfl, hanswer, hoff, (hnoExt rfl).1, (hnoExt rfl).2, hextents, hstore⟩
  · obtain ⟨comp, hanswer, -, hlen, -, -, -, -, -, hflushes, hstore⟩ := Dev.capsule_completes h rfl fun z hz =>
      Dev.admitFlush_none (List.eq_nil_iff_forall_not_mem.mpr fun g hg => by
        obtain ⟨hmem, hheld, hsession⟩ := Dev.mem_flushed.mp hg
        exact hnone g (hz.store ▸ hmem) hheld hsession)
    exact ⟨_, comp, rfl, hanswer, hlen, hflushes, hstore⟩
  · obtain ⟨z, hz, hcapsule⟩ := Dev.capsule_admits h
    have hsome : z.flushed sn ≠ [] := List.ne_nil_of_mem (Dev.mem_flushed.mpr ⟨hz.store ▸ hg, hheld, hgs⟩)
    have hflush := hcapsule.trans (Dev.admitFlush_some (c := s.dev.newCtx s.dev.nextId sn x .flush m k nonce) hsome rfl rfl rfl)
    refine ⟨_, _, congrArg (fun u => Host.Outcome.next (s.withDev u)) hflush, congrArg (· ++ _) hz.flushes, rfl, rfl, rfl, fun i => ?_,
      fun a => ?_, hz.store, hz.sessions⟩
    · exact Dev.mem_flushed_map hz.store
    · exact Dev.mem_flushed_map hz.store
  · obtain ⟨-, -, -, hdups, -, hx, -⟩ := id h
    obtain ⟨z, hz, hcapsule⟩ := Dev.capsule_admits h
    have hadmit := hcapsule.trans (Dev.admitCack_recorded (c := s.dev.newCtx s.dev.nextId sn x .cack m k nonce)
      ((hz.session_untallied rfl sn).trans hx) hclass hrec hidle)
    obtain ⟨comp, hcomp⟩ := Dev.completeCtx_answered (c := s.dev.newCtx s.dev.nextId sn x .cack m k nonce) stOk false
      (m.msg.cap.tally + 1).toNat 0 0 rfl rfl (z.session_setSession sn { x with floor := m.msg.cap.tally + 1, tallies := x.keptAbove m.msg.cap.tally })
      (hz.dups.trans hdups)
    obtain ⟨y, hy, hfloor⟩ := hcomp.floor
    obtain ⟨se, hframe⟩ := hcomp.frame
    refine ⟨_, comp, y, congrArg (fun u => Host.Outcome.next (s.withDev u)) hadmit, hcomp.answer, hcomp.resOffset, hy, hfloor, ?_, ?_⟩
    · refine Eq.trans (congrArg Dev.store hframe) hz.store
    · refine Eq.trans (congrArg (fun u : Dev => u.hosts.extents) hframe) hz.extents
  · obtain ⟨-, -, -, -, -, hx, -⟩ := id h
    obtain ⟨comp, hanswer, -, -, -, -, ⟨y, hy, hfloor⟩, -⟩ := Dev.capsule_completes h rfl fun z hz =>
      Dev.admitCack_ahead ((hz.session_untallied rfl sn).trans hx) hclass
    exact ⟨_, comp, y, rfl, hanswer, hy, hfloor⟩
  · obtain ⟨comp, hanswer, hoff, hreslen, -, -, -, -, hreads, -, hstore⟩ := Dev.capsule_completes h rfl fun z hz =>
      Dev.admitRead_empty ((hz.ext _ _).trans he) hlen
    exact ⟨_, comp, rfl, hanswer, hoff, hreslen, hreads, hstore⟩
  · obtain ⟨comp, hanswer, -, hreslen, -, -, -, -, hreads, -, hstore⟩ := Dev.capsule_completes h rfl fun z hz =>
      Dev.admitRead_beyond ((hz.ext _ _).trans he) hlen hbeyond
    exact ⟨_, comp, rfl, hanswer, hreslen, hreads, hstore⟩
end


section
/-! SUPPORT. The store's bookkeeping leaves the hosts but for the mark that a deleted extent is in the journal, and the
commands with a tally: CREATE, SEAL, DELETE and APPEND (R115, R116, R118, R126, R134, R208, R227, R320). -/

namespace Sys2Proof.Machine

/-! ### What the journal, the stripes and the gather leave -/

theorem Dev.issueOp_hosts (v : Dev) (b : Nat) (p : BayPort) (lba count : Nat) (cmd : BayCmd) (use : OpUse) (blocks : List (List Byte)) :
    (v.issueOp b p lba count cmd use blocks).2.hosts = v.hosts := by
  obtain ⟨ops, moved, pm, out, n, h⟩ := v.issueOp_issues b p lba count cmd use blocks
  rw [h]

theorem Dev.copyBlock_hosts (v : Dev) (b : JournalBlock) (n : Nat) : (v.copyBlock b n).hosts = v.hosts := by
  unfold Dev.copyBlock
  split
  · exact v.issueOp_hosts ..
  · rfl

theorem Dev.journal_hosts (v : Dev) (r : JournalRec) : (v.journal r).2.hosts = v.hosts :=
  foldl_pi (β := Dev) (·.hosts) _ (fun x n => x.copyBlock_hosts _ n) _ _

theorem Dev.journalExt_hosts (v : Dev) (claim : Nat) (key : BitVec 128) : (v.journalExt claim key).hosts = v.hosts := by
  unfold Dev.journalExt
  split
  · exact v.journal_hosts _
  · exact v.journal_hosts _

theorem Dev.deallocSlot_hosts (v : Dev) (bay row : Nat) : (v.deallocSlot bay row).hosts = v.hosts := by
  unfold Dev.deallocSlot
  dsimp only
  split
  · exact Dev.issueOp_hosts ..
  · rfl

theorem Dev.release_hosts (v : Dev) (t : Stripe) : (v.release t).hosts = v.hosts :=
  (foldl_pi (β := Dev) (·.hosts) _ (fun x (p : Nat × Nat) => x.deallocSlot_hosts p.1 p.2) _ _).trans (Dev.journal_hosts _ _)

theorem Dev.count_hosts (v : Dev) (region cls idx ev n : Nat) : (v.count region cls idx ev n).hosts = v.hosts := by
  obtain ⟨p, hp⟩ := v.count_frame region cls idx ev n
  rw [hp]

theorem Dev.gather_hosts (v : Dev) (g : Grain) : (v.gather g).hosts = v.hosts := by
  unfold Dev.gather
  dsimp only
  split
  · rfl
  · rfl

theorem Dev.gatherAll_hosts (v : Dev) (gs : List Grain) : (v.gatherAll gs).hosts = v.hosts :=
  foldl_pi (β := Dev) (·.hosts) _ Dev.gather_hosts _ _

/-- An extent but for the mark that its removal is in the journal. -/
def Extent.unmarked (e : Extent) : Extent := { e with journaled := false }

/-- The hosts are as they were but for those marks. -/
def Dev.Marks (v w : Dev) : Prop :=
  ∃ es, w.hosts = { v.hosts with extents := es } ∧ es.map Extent.unmarked = v.hosts.extents.map Extent.unmarked

namespace Dev.Marks

theorem of_hosts {v w : Dev} (h : w.hosts = v.hosts) : v.Marks w := ⟨v.hosts.extents, h, rfl⟩

theorem trans {u v w : Dev} (h : u.Marks v) (k : v.Marks w) : u.Marks w := by
  obtain ⟨es, hhosts, hmap⟩ := h
  obtain ⟨es', hhosts', hmap'⟩ := k
  rw [hhosts] at hhosts' hmap'
  exact ⟨es', hhosts', hmap'.trans hmap⟩

theorem foldl {α : Type} {f : Dev → α → Dev} (h : ∀ (v : Dev) a, v.Marks (f v a)) (l : List α) (v : Dev) : v.Marks (l.foldl f v) := by
  induction l generalizing v with
  | nil => exact of_hosts rfl
  | cons a l ih => exact (h v a).trans (ih (f v a))

theorem ext {v w : Dev} (h : v.Marks w) (claim : Nat) (key : BitVec 128) :
    (w.ext claim key).map Extent.unmarked = (v.ext claim key).map Extent.unmarked := by
  obtain ⟨es, hhosts, hmap⟩ := h
  have hfind : ∀ l : List Extent, (l.find? (fun e => e.is claim key)).map Extent.unmarked =
      (l.map Extent.unmarked).find? (fun e => e.is claim key) := fun l => by
    rw [List.find?_map]
    rfl
  unfold Dev.ext
  rw [hfind, hfind, hhosts, hmap]

end Dev.Marks

theorem Dev.writeRemovals_marks (v : Dev) : v.Marks v.writeRemovals := by
  refine Dev.Marks.foldl (fun x e => ?_) _ v
  refine (Dev.Marks.of_hosts (x.journal_hosts (.extent e.claim e.key none e.len))).trans ?_
  refine ⟨_, rfl, ?_⟩
  induction (x.journal (.extent e.claim e.key none e.len)).2.hosts.extents with
  | nil => rfl
  | cons a l ih =>
    unfold updFirst
    split
    · rfl
    · rw [List.map_cons, List.map_cons, ih]

theorem Dev.reap_marks (v : Dev) : v.Marks v.reap := by
  unfold Dev.reap
  split
  · exact (Dev.Marks.foldl (fun x t => .of_hosts (x.release_hosts t)) _ v).trans (Dev.writeRemovals_marks _)
  · exact .of_hosts rfl

theorem Dev.freeStripe_marks (v : Dev) (id : Nat) : v.Marks (v.freeStripe id) := by
  unfold Dev.freeStripe
  split
  · refine Dev.Marks.trans (.of_hosts ?_) (Dev.reap_marks _)
    dsimp only
    split
    · exact foldl_pi (β := Dev) (·.hosts) _ Dev.dropJob_hosts _ _
    · exact foldl_pi (β := Dev) (·.hosts) _ Dev.dropJob_hosts _ _
  · exact .of_hosts rfl

theorem Dev.freeEmpty_marks (v : Dev) : v.Marks v.freeEmpty :=
  (Dev.Marks.foldl (fun x (t : Stripe) => x.freeStripe_marks t.rec_.id) _ v).trans (Dev.writeRemovals_marks _)

/-! ### Extents -/

theorem find?_updFirst {α : Type} {p : α → Bool} {f : α → α} (hf : ∀ x, p x = true → p (f x) = true) (l : List α) :
    (updFirst p f l).find? p = (l.find? p).map f := by
  induction l with
  | nil => rfl
  | cons a l ih =>
    cases ha : p a with
    | true => simp only [updFirst, ha, if_true, List.find?_cons_of_pos (hf a ha), List.find?_cons_of_pos ha, Option.map_some]
    | false => simp only [updFirst, ha, Bool.false_eq_true, if_false, List.find?_cons, ih]

theorem Dev.ext_adjExt (v : Dev) (claim : Nat) (key : BitVec 128) {f : Extent → Extent} (hf : ∀ x, (f x).is claim key = x.is claim key) :
    (v.adjExt claim key f).ext claim key = (v.ext claim key).map f :=
  find?_updFirst (fun x hx => (hf x).trans hx) _

theorem Extent.is_of_ext {v : Dev} {claim : Nat} {key : BitVec 128} {e : Extent} (h : v.ext claim key = some e) :
    e.claim = claim ∧ e.key = key := by
  have his := List.find?_some h
  rwa [Extent.is, Bool.and_eq_true, beq_iff_eq, beq_iff_eq] at his

theorem Dev.ext_setExt_new {v : Dev} {e : Extent} (h : v.ext e.claim e.key = none) : (v.setExt e).ext e.claim e.key = some e := by
  have hall : v.hosts.extents.any (fun x => x.is e.claim e.key) = false :=
    List.any_eq_false.mpr (List.find?_eq_none.mp h)
  have hself : e.is e.claim e.key = true := by simp only [Extent.is, BEq.rfl, Bool.and_self]
  unfold Dev.setExt Dev.ext
  rw [hall, if_neg Bool.false_ne_true, List.find?_append, show v.hosts.extents.find? (fun x => x.is e.claim e.key) = none from h,
    Option.none_or]
  exact List.find?_cons_of_pos hself

theorem Dev.ext_setExt {v : Dev} {claim : Nat} {key : BitVec 128} {e f : Extent} (h : v.ext claim key = some e) (hf : f.claim = claim)
    (hk : f.key = key) : (v.setExt f).ext claim key = some f := by
  subst hf hk
  have hany : v.hosts.extents.any (fun x => x.is f.claim f.key) = true :=
    List.any_eq_true.mpr ⟨e, List.mem_of_find?_eq_some h, List.find?_some (p := fun x : Extent => x.is f.claim f.key) h⟩
  unfold Dev.setExt Dev.ext
  rw [hany, if_pos rfl]
  refine (find?_updFirst (fun _ _ => ?_) _).trans ?_
  · simp only [Extent.is, BEq.rfl, Bool.and_self]
  · rw [show v.hosts.extents.find? (fun x => x.is f.claim f.key) = some e from h]
    rfl

/-! ### The one command in progress -/

/-- The only command in progress is `c`, nothing is at ingress and nothing waits for an original; its session is `y`. -/
structure Dev.Alone (v : Dev) (c : Ctx) (y : Session) : Prop where
  ctxs : v.hosts.ctxs = [c]
  inbox : v.hosts.inbox = []
  dups : v.hosts.dups = []
  session : v.session c.session = some y

theorem Dev.Alone.congr {v w : Dev} {c : Ctx} {y : Session} (h : v.Alone c y) {es : List Extent} (hhosts : w.hosts = { v.hosts with extents := es }) :
    w.Alone c y := by
  obtain ⟨hctxs, hinbox, hdups, hsession⟩ := h
  exact ⟨by rw [hhosts]; exact hctxs, by rw [hhosts]; exact hinbox, by rw [hhosts]; exact hdups,
    by rw [Dev.session, hhosts]; exact hsession⟩

theorem Dev.Alone.of_hosts {v w : Dev} {c : Ctx} {y : Session} (h : v.Alone c y) (hhosts : w.hosts = v.hosts) : w.Alone c y :=
  h.congr hhosts

theorem Dev.Alone.adjExt {v : Dev} {c : Ctx} {y : Session} (h : v.Alone c y) (claim : Nat) (key : BitVec 128) (f : Extent → Extent) :
    (v.adjExt claim key f).Alone c y :=
  h.congr (w := v.adjExt claim key f) rfl

theorem Dev.Alone.marks {v w : Dev} {c : Ctx} {y : Session} (h : v.Alone c y) (hmarks : v.Marks w) : w.Alone c y := by
  obtain ⟨es, hhosts, -⟩ := hmarks
  exact h.congr hhosts

theorem Dev.Alone.ctx {v : Dev} {c : Ctx} {y : Session} (h : v.Alone c y) : v.ctx c.id = some c := by
  rw [Dev.ctx, h.ctxs]
  exact List.find?_cons_of_pos (p := fun x : Ctx => x.id == c.id) (beq_iff_eq.mpr rfl)

theorem Dev.Alone.adjCtx {v : Dev} {c : Ctx} {y : Session} (h : v.Alone c y) (f : Ctx → Ctx) (hs : (f c).session = c.session) :
    (v.adjCtx c.id f).Alone (f c) y := by
  obtain ⟨hctxs, hinbox, hdups, hsession⟩ := h
  refine ⟨?_, hinbox, hdups, hs ▸ hsession⟩
  simp only [Dev.adjCtx, hctxs, updFirst, BEq.rfl, if_true]

/-- A stored command that waits for nothing is held, where it is the only one. -/
theorem Dev.Alone.holdIfDue {v : Dev} {c : Ctx} {y : Session} (h : v.Alone c y) (hphase : c.phase = .stored) (hwaited : c.waited = false) :
    v.holdIfDue c.id = v.markHeld c := by
  have hearlier : v.earlierUnheld c = false := by
    rw [Dev.earlierUnheld, List.any_eq_false]
    intro x hx
    have hxc : x ∈ [c] := h.ctxs ▸ (List.mem_filter.mp hx).1
    rw [List.mem_singleton.mp hxc, decide_eq_false (Nat.lt_irrefl _), Bool.false_and]
    exact Bool.false_ne_true
  simp only [Dev.holdIfDue, h.ctx, Dev.holdable, hphase, BEq.rfl, hearlier, Bool.not_false, hwaited, Bool.true_or, Bool.and_self, if_true]

theorem Dev.Alone.holdIfDue_committing {v : Dev} {c : Ctx} {y : Session} (h : v.Alone c y) (hphase : c.phase = .committing) :
    v.holdIfDue c.id = v := by
  simp only [Dev.holdIfDue, h.ctx, Dev.holdable, hphase, show (Phase.committing == Phase.stored) = false from rfl, Bool.false_and,
    Bool.false_eq_true, if_false]

/-- A command of a session is done: its answer is built and its record kept, and no command is in progress or at ingress. -/
def Dev.Done (u : Dev) (sn : Nat) (x : Session) (d : Delivered) : Prop :=
  ∃ c, HasAnswer u sn x d stOk (some d.cap.tally.toNat) c ∧
    (∃ y r, u.session sn = some y ∧ Tab.get y.tallies d.cap.tally.toNat = some (.recorded r) ∧ r.comp = c) ∧
    u.hosts.ctxs = [] ∧ u.hosts.inbox = []

theorem Dev.Alone.completeCtx {v : Dev} {b c : Ctx} {y : Session} (h : v.Alone b y) (hid : b.id = c.id) (hsession : b.session = c.session)
    (hqp : c.qp = c.msg.qp) (htag : c.grantTag = none) (hk : c.kind.tallied = true) (settled : Bool) (off len grains : Nat) :
    (v.completeCtx c stOk settled off len grains).Done c.session y c.msg ∧
    (v.completeCtx c stOk settled off len grains).hosts.extents = v.hosts.extents ∧
    ∃ comp, HasAnswer (v.completeCtx c stOk settled off len grains) c.session y c.msg stOk (some c.msg.cap.tally.toNat) comp ∧
      comp.resOffset = off ∧ comp.resLength = len := by
  obtain ⟨comp, hcomp⟩ := Dev.completeCtx_answered stOk settled off len grains hqp htag (hsession ▸ h.session) h.dups
  have hanswer := hcomp.answer
  rw [if_pos hk] at hanswer
  obtain ⟨se, hframe⟩ := hcomp.frame
  have hnone : v.hosts.ctxs.filter (fun x => x.id != c.id) = [] := by
    rw [h.ctxs, List.filter_cons_of_neg (by rw [hid, bne_self_eq_false]; exact Bool.false_ne_true), List.filter_nil]
  refine ⟨⟨comp, hanswer, hcomp.record hk rfl, ?_, ?_⟩, ?_, comp, hanswer, hcomp.resOffset, hcomp.resLength⟩
  · rw [hframe]; exact hnone
  · rw [hframe]; exact h.inbox
  · rw [hframe]

/-! ### CREATE, SEAL and DELETE -/

section
variable {v : Dev} {k : CmdKind} {m : Waiting} {sn : Nat} {x : Session} {desc : ClaimDesc} {nonce : BitVec 32 × BitVec 64} {w : Dev}

theorem Dev.Admitting.mono {v z : Dev} {c : Ctx} (h : v.Admitting c z) : z.mono = v.mono := by
  obtain ⟨_, _, _, _, _, _, _, _, hz⟩ := h.frame
  rw [hz]
  rfl

/-- A command with a tally is the one in progress at its admission, its tally in flight. -/
theorem Dev.Admitting.alone {z : Dev} {c : Ctx} (h : v.Admitting c z) (hk : c.kind.tallied = true) (hdups : v.hosts.dups = [])
    (hx : v.session c.session = some x) : z.Alone c (x.setTally c.msg.cap.tally .inFlight) := by
  refine ⟨h.ctxs, h.inbox, h.dups.trans hdups, ?_⟩
  have hsessions := h.sessions
  rw [if_pos hk] at hsessions
  rw [Dev.session, hsessions, Tab.get_adjust, if_pos rfl, show Tab.get v.hosts.sessions c.session = some x from hx]
  rfl

theorem Dev.Admitting.extentCheck_none {z : Dev} {c : Ctx} (h : v.Admitting c z) (hcheck : v.extentCheck c = none) : z.extentCheck c = none := by
  obtain ⟨_, _, _, _, _, _, _, _, hz⟩ := h.frame
  rw [hz]
  exact hcheck

/-- A CREATE that passes its check creates. -/
theorem Dev.ext_of_create {c : Ctx} (hk : c.kind = .create) (hcheck : v.extentCheck c = none) : v.ext c.claim c.msg.cap.key = none := by
  unfold Dev.extentCheck at hcheck
  rw [hk] at hcheck
  dsimp only at hcheck
  cases hsome : v.ext c.claim c.msg.cap.key with
  | none => rfl
  | some e =>
  rw [hsome] at hcheck
  split at hcheck <;> cases hcheck

theorem Dev.admitCreate_done {z : Dev} {c : Ctx} {y : Session} (hz : z.Alone c y) (hqp : c.qp = c.msg.qp) (htag : c.grantTag = none)
    (hk : c.kind.tallied = true) (hnone : z.ext c.claim c.msg.cap.key = none) : (z.admitCreate c).Done c.session y c.msg ∧
      (z.admitCreate c).ext c.claim c.msg.cap.key = some ⟨c.claim, c.msg.cap.key, .open_, some .open_, 0, 0, 1, none, false, 0, z.mono, 0⟩ := by
  have hhosts := (z.fresh.2.setExt ⟨c.claim, c.msg.cap.key, .open_, some .open_, 0, 0, 1, none, false, 0, z.mono, 0⟩).journalExt_hosts c.claim
    c.msg.cap.key
  have halone := hz.congr hhosts
  obtain ⟨hdone, hextents, -⟩ := halone.completeCtx rfl rfl hqp htag hk false 0 0 0
  refine ⟨hdone, ?_⟩
  refine (congrArg (fun l => List.find? (fun e : Extent => e.is c.claim c.msg.cap.key) l) (hextents.trans (congrArg Hosts.extents hhosts))).trans ?_
  exact Dev.ext_setExt_new (v := z.fresh.2) (e := ⟨c.claim, c.msg.cap.key, .open_, some .open_, 0, 0, 1, none, false, 0, z.mono, 0⟩) hnone

/-- A command at its place in the order of its extent, stored. -/
def Ctx.storedAt (c : Ctx) (place : Nat) : Ctx := { c with order := some place, phase := .stored, waited := false }

/-- The device once a SEAL or DELETE has its place. -/
def Dev.changing (v : Dev) (c : Ctx) (st : ExtState) : Dev :=
  (v.nextPlace.2.adjExt c.claim c.msg.cap.key (fun e => { e with st := st })).adjCtx c.id (fun y => y.storedAt v.nextId)

theorem Dev.changing_ext {z : Dev} {c : Ctx} {e : Extent} (st : ExtState) (he : z.ext c.claim c.msg.cap.key = some e) :
    (z.changing c st).ext c.claim c.msg.cap.key = some { e with st := st } := by
  refine (z.nextPlace.2.ext_adjExt c.claim c.msg.cap.key (f := fun e => { e with st := st }) fun _ => rfl).trans ?_
  rw [show z.nextPlace.2.ext c.claim c.msg.cap.key = some e from he]
  rfl

theorem Dev.Alone.admitChange {z : Dev} {c : Ctx} {y : Session} (hz : z.Alone c y) (horder : c.order = none) (st : ExtState) :
    (z.changing c st).Alone (c.storedAt z.nextId) y ∧ z.admitChange c st = (z.changing c st).markHeld (c.storedAt z.nextId) := by
  have halone : (z.changing c st).Alone (c.storedAt z.nextId) y :=
    Dev.Alone.adjCtx (v := z.nextPlace.2.adjExt c.claim c.msg.cap.key (fun e => { e with st := st })) (hz.congr rfl) (·.storedAt z.nextId) rfl
  have hearlier : z.nextPlace.2.earlierUnheld { c with order := some z.nextId } = false := by
    have hnone : z.nextPlace.2.extCtxs c.claim c.msg.cap.key = [] := by
      unfold Dev.extCtxs
      rw [show z.nextPlace.2.hosts.ctxs = [c] from hz.ctxs,
        List.filter_cons_of_neg (by simp only [horder, Option.isSome_none, Bool.and_false]; exact Bool.false_ne_true), List.filter_nil]
    unfold Dev.earlierUnheld
    dsimp only
    rw [hnone, List.any_nil]
  refine ⟨halone, ?_⟩
  rw [← halone.holdIfDue rfl rfl]
  unfold Dev.admitChange
  dsimp only
  rw [show z.nextPlace.1 = z.nextId from rfl, hearlier]
  rfl

/-- An extent whose SEAL is held. -/
def Extent.sealHeld (e : Extent) (at_ : Nat) : Extent := { e with heldSt := some .sealed_, lastHeld := at_ }

/-- An extent whose DELETE is held. -/
def Extent.deleteHeld (e : Extent) (at_ bell : Nat) : Extent :=
  { e with heldSt := some .deleted, lastHeld := at_, deletedAt := some bell }

theorem Dev.markHeld_seal {z : Dev} {c : Ctx} {y : Session} {e : Extent} (hz : z.Alone c y) (hqp : c.qp = c.msg.qp) (htag : c.grantTag = none)
    (hk : c.kind = .sealOp) (he : z.ext c.claim c.msg.cap.key = some e) : (z.markHeld c).Done c.session y c.msg ∧
      (z.markHeld c).ext c.claim c.msg.cap.key = some (e.sealHeld z.mono) := by
  have hhosts := (z.adjExt c.claim c.msg.cap.key (·.sealHeld z.mono)).journalExt_hosts c.claim
    c.msg.cap.key
  obtain ⟨len, hheld⟩ : ∃ len, z.markHeld c = ((z.adjExt c.claim c.msg.cap.key (·.sealHeld z.mono)).journalExt c.claim c.msg.cap.key).completeCtx c stOk false 0 len 0 := by
    unfold Dev.markHeld
    rw [hk]
    exact ⟨_, rfl⟩
  obtain ⟨hdone, hextents, -⟩ := (hz.congr hhosts).completeCtx rfl rfl hqp htag (by rw [hk]; rfl) false 0 len 0
  rw [hheld]
  refine ⟨hdone, ?_⟩
  refine (congrArg (fun l => List.find? (fun e : Extent => e.is c.claim c.msg.cap.key) l) (hextents.trans (congrArg Hosts.extents hhosts))).trans ?_
  refine (z.ext_adjExt c.claim c.msg.cap.key (f := (·.sealHeld z.mono)) fun _ => rfl).trans ?_
  rw [he]
  rfl

theorem Dev.markHeld_delete {z : Dev} {c : Ctx} {y : Session} {e : Extent} (hz : z.Alone c y) (hqp : c.qp = c.msg.qp) (htag : c.grantTag = none)
    (hk : c.kind = .delete) (he : z.ext c.claim c.msg.cap.key = some e) : (z.markHeld c).Done c.session y c.msg ∧
      ∃ f, (z.markHeld c).ext c.claim c.msg.cap.key = some f ∧ f.st = e.st ∧ f.heldSt = some .deleted ∧ f.len = e.len := by
  have halone : (z.adjExt c.claim c.msg.cap.key (·.deleteHeld z.mono z.now)).Alone c y := hz.congr rfl
  have hmarks : (z.adjExt c.claim c.msg.cap.key (·.deleteHeld z.mono z.now)).Marks
      ((((z.adjExt c.claim c.msg.cap.key (·.deleteHeld z.mono z.now)).lowerLive
        c.claim c.msg.cap.key).journalExt c.claim c.msg.cap.key).freeEmpty) :=
    Dev.Marks.trans (.of_hosts (Dev.journalExt_hosts ((z.adjExt c.claim c.msg.cap.key (·.deleteHeld z.mono z.now)).lowerLive c.claim
      c.msg.cap.key) c.claim c.msg.cap.key)) (Dev.freeEmpty_marks _)
  obtain ⟨len, hheld⟩ : ∃ len, z.markHeld c = (((z.adjExt c.claim c.msg.cap.key (·.deleteHeld z.mono z.now)).lowerLive c.claim c.msg.cap.key).journalExt c.claim
        c.msg.cap.key).freeEmpty.completeCtx c stOk false 0 len 0 := by
    unfold Dev.markHeld
    rw [hk]
    exact ⟨_, rfl⟩
  obtain ⟨hdone, hextents, -⟩ := (Dev.Alone.marks halone hmarks).completeCtx rfl rfl hqp htag (by rw [hk]; rfl) false 0 len 0
  have hext := hmarks.ext c.claim c.msg.cap.key
  rw [z.ext_adjExt c.claim c.msg.cap.key (f := (·.deleteHeld z.mono z.now)) fun _ => rfl, he] at hext
  obtain ⟨f, hf, hfe⟩ := Option.map_eq_some_iff.mp hext
  rw [hheld]
  refine ⟨hdone, f, (congrArg (fun l => List.find? (fun e : Extent => e.is c.claim c.msg.cap.key) l) hextents).trans hf, ?_, ?_, ?_⟩
  · exact congrArg (·.st) hfe
  · exact congrArg (·.heldSt) hfe
  · exact congrArg (·.len) hfe

/-! ### APPEND -/

/-- The check of an APPEND reads its claim's charge, its own and its extent only. -/
theorem Dev.extentCheck_congr {z u : Dev} {c d : Ctx} {e : Extent} (hk : c.kind = .append) (he : z.ext c.claim c.msg.cap.key = some e)
    (hkind : d.kind = c.kind) (hclaim : d.claim = c.claim) (hmsg : d.msg = c.msg) (hdesc : d.desc = c.desc)
    (hext : u.ext c.claim c.msg.cap.key = some e)
    (hused : (u.claimEntry c.claim).charged - d.charged = (z.claimEntry c.claim).charged - c.charged) : u.extentCheck d = z.extentCheck c := by
  unfold Dev.extentCheck
  rw [hkind, hk, hclaim, hmsg, hdesc]
  dsimp only
  rw [hext, he, hused]

/-- An APPEND with its bytes assigned. -/
def Ctx.assignedAt (c : Ctx) (grains off place : Nat) : Ctx :=
  { c with offset := off, order := some place, waited := false, phase := if grains = 0 then .stored else .committing }

/-- The device once an APPEND's bytes are assigned. -/
def Dev.assigning (v : Dev) (c : Ctx) (e : Extent) : Dev :=
  (v.nextPlace.2.setExt { e with assigned := e.assigned + c.msg.cap.length.toNat }).adjCtx c.id (fun y => y.assignedAt c.grains e.assigned v.nextId)

theorem Dev.Alone.assign {z : Dev} {c : Ctx} {y : Session} {e : Extent} (hz : z.Alone c y) (horder : c.order = none)
    (hcheck : z.extentCheck c = none) (he : z.ext c.claim c.msg.cap.key = some e) (hcrc : c.msg.cap.crc = false) (hexpect : c.msg.cap.expect = false) :
    (z.assigning c e).Alone (c.assignedAt c.grains e.assigned z.nextId) y ∧ z.assign c = (z.assigning c e).holdIfDue c.id := by
  refine ⟨Dev.Alone.adjCtx (v := z.nextPlace.2.setExt { e with assigned := e.assigned + c.msg.cap.length.toNat }) (hz.congr rfl)
    (·.assignedAt c.grains e.assigned z.nextId) rfl, ?_⟩
  have hwaited : c.grains = 0 → z.nextPlace.2.earlierUnheld { c with order := some z.nextId } = false := fun _ => by
    have hnone : z.nextPlace.2.extCtxs c.claim c.msg.cap.key = [] := by
      unfold Dev.extCtxs
      rw [show z.nextPlace.2.hosts.ctxs = [c] from hz.ctxs,
        List.filter_cons_of_neg (by simp only [horder, Option.isSome_none, Bool.and_false]; exact Bool.false_ne_true), List.filter_nil]
    unfold Dev.earlierUnheld
    dsimp only
    rw [hnone, List.any_nil]
  have hboth : (decide (c.grains = 0) && z.nextPlace.2.earlierUnheld { c with order := some z.nextId }) = false := by
    by_cases hgrains : c.grains = 0
    · rw [hwaited hgrains, Bool.and_false]
    · rw [decide_eq_false hgrains, Bool.false_and]
  unfold Dev.assign
  simp only [hcheck, he, hcrc, hexpect, Bool.false_and, Bool.false_eq_true, if_false, show z.nextPlace.1 = z.nextId from rfl, hboth]
  rfl

/-- An APPEND that waits for credit and room. -/
def Ctx.waitingRoom (c : Ctx) (bell : Nat) : Ctx := { c with phase := .waitRoom, charged := c.grains, waitFrom := bell }

/-- The device once the grains of an APPEND are charged. -/
def Dev.chargingCtx (v : Dev) (c : Ctx) : Dev :=
  { v with hosts := { v.hosts with
      claims := if c.grains = 0 then v.hosts.claims else
        Tab.adjust v.hosts.claims c.claim (fun (e : ClaimEntry) => { e with charged := e.charged + c.grains })
      ctxs := v.hosts.ctxs.filter (fun (x : Ctx) => x.id != c.id) ++ [c.waitingRoom v.now] } }

theorem Dev.Alone.charging {z : Dev} {c : Ctx} {y : Session} (hz : z.Alone c y) : (z.chargingCtx c).Alone (c.waitingRoom z.now) y := by
  obtain ⟨hctxs, hinbox, hdups, hsession⟩ := hz
  refine ⟨?_, hinbox, hdups, hsession⟩
  simp only [Dev.chargingCtx, hctxs, List.filter_cons, bne_self_eq_false, Bool.false_eq_true, if_false, List.filter_nil, List.nil_append]

/-- What the claim was charged before, whatever the APPEND adds to it. -/
theorem Dev.charging_used (z : Dev) {c : Ctx} (hcharged : c.charged = 0) : ((z.chargingCtx c).claimEntry c.claim).charged - (c.waitingRoom z.now).charged =
    (z.claimEntry c.claim).charged - c.charged := by
  have hcharged' : (c.waitingRoom z.now).charged = c.grains := rfl
  rw [hcharged', hcharged, Nat.sub_zero]
  unfold Dev.claimEntry Dev.chargingCtx Tab.getD
  dsimp only
  split
  · rename_i hgrains
    rw [hgrains, Nat.sub_zero]
  · rw [Tab.get_adjust, if_pos rfl]
    cases Tab.get z.hosts.claims c.claim with
    | none => exact Nat.zero_sub _
    | some e => exact Nat.add_sub_cancel ..

theorem Dev.charging_extentCheck {z : Dev} {c : Ctx} {e : Extent} (hk : c.kind = .append) (hcharged : c.charged = 0)
    (he : z.ext c.claim c.msg.cap.key = some e) : (z.chargingCtx c).extentCheck (c.waitingRoom z.now) = z.extentCheck c :=
  Dev.extentCheck_congr (d := c.waitingRoom z.now) hk he rfl rfl rfl rfl he (z.charging_used hcharged)

/-- The grains of the staging buffers once an APPEND's are held. -/
def Dev.heldGrains (v : Dev) (c : Ctx) : List Grain :=
  v.store.grains.map (fun (g : Grain) => if g.ctx = c.id then { g with held := true, dirtyAt := v.now } else g)

/-- The device once an APPEND is held, before it completes. -/
def Dev.appendHeld (v : Dev) (c : Ctx) : Dev :=
  ((((((({ v with store := { v.store with grains := v.heldGrains c } } : Dev).adjCtx c.id (fun y =>
    { y with credit := 0, charged := 0, phase := .heldWaitSettle, heldAt := some v.mono })).adjExt c.claim c.msg.cap.key (fun e =>
      { e with len := c.offset + c.msg.cap.length.toNat, lastHeld := v.mono, grains := e.grains + c.grains })).count c.arrival.val 0x02 0 0x002
        1).count c.arrival.val 0x03 0 0x001 c.grains).chainDone c.arrival.val).gatherAll ((v.heldGrains c).filter (fun g => g.ctx == c.id)))

theorem Dev.markHeld_append_empty {z : Dev} {c : Ctx} (hk : c.kind = .append) (hgrains : c.grains = 0) (htag : c.grantTag = none) :
    z.markHeld c = (z.appendHeld c).completeCtx { c with grantTag := none } stOk false c.offset c.msg.cap.length.toNat 0 := by
  unfold Dev.markHeld
  simp only [hk, htag, hgrains, ne_eq, not_true_eq_false, decide_false, Bool.false_and, Bool.false_eq_true, if_false]
  rw [Dev.appendHeld, hgrains]
  rfl

theorem Dev.Alone.appendHeld {z : Dev} {c : Ctx} {y : Session} (hz : z.Alone c y) :
    (z.appendHeld c).Alone { c with credit := 0, charged := 0, phase := .heldWaitSettle, heldAt := some z.mono } y := by
  have hmarked : ({ z with store := { z.store with grains := z.heldGrains c } } : Dev).Alone c y := hz.of_hosts rfl
  have hctx := hmarked.adjCtx (fun y => { y with credit := 0, charged := 0, phase := .heldWaitSettle, heldAt := some z.mono }) rfl
  have hext := hctx.adjExt c.claim c.msg.cap.key (fun e =>
    { e with len := c.offset + c.msg.cap.length.toNat, lastHeld := z.mono, grains := e.grains + c.grains })
  exact hext.of_hosts (w := z.appendHeld c) ((Dev.gatherAll_hosts _ _).trans ((Dev.count_hosts ..).trans ((Dev.count_hosts ..).trans (Dev.count_hosts ..))))

/-- An APPEND of no bytes is held at once. -/
theorem Dev.admitAppend_empty {z : Dev} {c : Ctx} {y : Session} {e : Extent} (hz : z.Alone c y) (hk : c.kind = .append) (hgrains : c.grains = 0)
    (horder : c.order = none) (hcharged : c.charged = 0) (htag : c.grantTag = none) (hcheck : z.extentCheck c = none)
    (he : z.ext c.claim c.msg.cap.key = some e) (hcrc : c.msg.cap.crc = false) (hexpect : c.msg.cap.expect = false) :
    ∃ (u : Dev) (b d : Ctx), z.admitAppend c = u.completeCtx d stOk false e.assigned c.msg.cap.length.toNat 0 ∧ u.Alone b y ∧ b.id = d.id ∧
      b.session = d.session ∧ d.msg = c.msg ∧ d.qp = c.qp ∧ d.session = c.session ∧ d.grantTag = none ∧ d.kind = .append := by
  have hcharging : (z.chargingCtx c).Alone (c.waitingRoom z.now) y := hz.charging
  obtain ⟨hassigning, hassign⟩ := hcharging.assign (e := e) horder ((Dev.charging_extentCheck hk hcharged he).trans hcheck) he hcrc hexpect
  have hadmit : z.admitAppend c = (z.chargingCtx c).assign (c.waitingRoom z.now) := by
    unfold Dev.admitAppend
    dsimp only
    rw [if_pos hgrains]
    show (match (z.chargingCtx c).ctx c.id with
      | some y => (z.chargingCtx c).assign y
      | none => z.chargingCtx c) = _
    rw [show (z.chargingCtx c).ctx c.id = some (c.waitingRoom z.now) from hcharging.ctx]
  have hhold := hassigning.holdIfDue (if_pos hgrains) rfl
  have hheld := Dev.markHeld_append_empty (z := (z.chargingCtx c).assigning (c.waitingRoom z.now) e)
    (c := (c.waitingRoom z.now).assignedAt (c.waitingRoom z.now).grains e.assigned (z.chargingCtx c).nextId) hk hgrains htag
  exact ⟨_, _, _, hadmit.trans (hassign.trans (hhold.trans hheld)), hassigning.appendHeld, rfl, rfl, rfl, rfl, rfl, rfl, hk⟩

/-- An APPEND with credit for all its grains. -/
def Ctx.credited (c : Ctx) : Ctx := { c with credit := c.grains }

/-- The credit once a home has taken some. -/
def Credit.take (k : Credit) (s n : Nat) : Credit :=
  { k with allot := Tab.set k.allot s (Tab.getD k.allot s 0 - n), taken := Tab.set k.taken s (Tab.getD k.taken s 0 + n) }

/-- The device once the only command in progress has taken its credit. -/
def Dev.crediting (v : Dev) (c : Ctx) : Dev :=
  { v with store := { v.store with credit := v.store.credit.take c.arrival.val c.grains }, hosts := { v.hosts with ctxs := [c.credited] } }

theorem Dev.countKeep_frame (v : Dev) (cls ev n : Nat) : ∃ p, v.countKeep cls ev n = { v with pmon := p } := by
  unfold Dev.countKeep
  dsimp only
  split
  · split
    · obtain ⟨p, hp⟩ := v.count_frame 4 cls 0 ev n
      rw [hp]
      exact Dev.count_frame _ 5 cls 0 ev n
    · exact v.count_frame 4 cls 0 ev n
  · split
    · exact v.count_frame 5 cls 0 ev n
    · exact ⟨v.pmon, rfl⟩

/-- An APPEND takes credit for its grains where its home has as much, the limit leaves it and there is room. -/
theorem Dev.takeCredit_all {z : Dev} {c : Ctx} (hctxs : z.hosts.ctxs = [c]) (hcredit : c.credit = 0) (hpos : c.grains ≠ 0)
    (hallot : c.grains ≤ Tab.getD z.store.credit.allot c.arrival.val 0) (hlimit : c.grains + z.outHeld ≤ z.store.credit.limit)
    (hroom : c.grains ≤ z.roomFor c.arrival.val) :
    ∃ p, z.takeCredit c = { z.crediting c with pmon := p } := by
  have hn : min (min (c.grains - c.credit) (Tab.getD z.store.credit.allot c.arrival.val 0))
      (min (z.store.credit.limit - z.outHeld) (z.roomFor c.arrival.val)) = c.grains := by omega
  unfold Dev.takeCredit
  dsimp only
  rw [hn, if_neg hpos]
  have hctx : ({ z with store := { z.store with credit := z.store.credit.take c.arrival.val c.grains } } : Dev).adjCtx c.id (fun y =>
      { y with credit := y.credit + c.grains }) = z.crediting c := by
    simp only [Dev.adjCtx, hctxs, updFirst, BEq.rfl, if_true, hcredit, Nat.zero_add]
    rfl
  obtain ⟨p, hp⟩ := (z.crediting c).countKeep_frame 0x10 0x001 c.grains
  exact ⟨p, (congrArg (fun u : Dev => u.countKeep 0x10 0x001 c.grains) hctx).trans hp⟩

/-- The room for an APPEND that has no credit yet is the room without it. -/
theorem Dev.chargingCtx_room {v z : Dev} {c : Ctx} (h : v.Admitting c z) (hctxs : v.hosts.ctxs = []) (hcredit : c.credit = 0) :
    (z.chargingCtx c).outHeld = v.outHeld ∧ ∀ s, (z.chargingCtx c).roomFor s = v.roomFor s := by
  have hlist : (z.chargingCtx c).hosts.ctxs = [c.waitingRoom z.now] := by
    simp only [Dev.chargingCtx, h.ctxs, List.filter_cons, bne_self_eq_false, Bool.false_eq_true, if_false, List.filter_nil, List.nil_append]
  have hzero : (c.waitingRoom z.now).credit = 0 := hcredit
  obtain ⟨se, pt, eg, sc, ls, sl, p, n, hz⟩ := h.frame
  have hused : ∀ s, (z.chargingCtx c).slotsUsed s = v.slotsUsed s := fun s => by
    unfold Dev.slotsUsed
    rw [hlist, hctxs]
    simp only [sumMap, List.foldl_cons, List.foldl_nil, hzero, ite_self, Nat.zero_add]
    rw [hz]
    rfl
  refine ⟨?_, fun s => ?_⟩
  · unfold Dev.outHeld Dev.outGrains
    rw [hlist, hctxs]
    simp only [sumMap, List.foldl_cons, List.foldl_nil, hzero, Nat.zero_add]
    rw [hz]
    rfl
  · unfold Dev.roomFor
    simp only [hused]
    rw [hz]
    rfl

/-- An inline APPEND with credit and room takes the next bytes of its extent and goes to the commit path. -/
theorem Dev.admitAppend_inline {z : Dev} {c : Ctx} {y : Session} {e : Extent} (hz : z.Alone c y) (hk : c.kind = .append) (hgrains : c.grains ≠ 0)
    (horder : c.order = none) (hcharged : c.charged = 0) (hcredit : c.credit = 0) (hcheck : z.extentCheck c = none)
    (he : z.ext c.claim c.msg.cap.key = some e) (hcrc : c.msg.cap.crc = false) (hexpect : c.msg.cap.expect = false)
    (hinline : c.msg.cap.inline = true) (hallot : c.grains ≤ Tab.getD z.store.credit.allot c.arrival.val 0)
    (hlimit : c.grains + (z.chargingCtx c).outHeld ≤ z.store.credit.limit) (hroom : c.grains ≤ (z.chargingCtx c).roomFor c.arrival.val) :
    (z.admitAppend c).Alone ((c.waitingRoom z.now).credited.assignedAt c.grains e.assigned z.nextId) y ∧
    (z.admitAppend c).ext c.claim c.msg.cap.key = some { e with assigned := e.assigned + c.msg.cap.length.toNat } ∧
    (z.admitAppend c).store.grains = z.store.grains := by
  have hcharging := hz.charging
  obtain ⟨p, htake⟩ := Dev.takeCredit_all (z := z.chargingCtx c) hcharging.ctxs hcredit hgrains hallot hlimit hroom
  generalize hu : ({ (z.chargingCtx c).crediting (c.waitingRoom z.now) with pmon := p } : Dev) = u at htake
  have halone : u.Alone (c.waitingRoom z.now).credited y := by
    rw [← hu]
    exact ⟨rfl, hcharging.inbox, hcharging.dups, hcharging.session⟩
  have hue : u.ext c.claim c.msg.cap.key = some e := by rw [← hu]; exact he
  have hucheck : u.extentCheck (c.waitingRoom z.now).credited = none := by
    rw [← hcheck]
    refine Dev.extentCheck_congr (d := (c.waitingRoom z.now).credited) hk he rfl rfl rfl rfl hue ?_
    rw [← hu]
    exact z.charging_used hcharged
  obtain ⟨hassigning, hassign⟩ := halone.assign (e := e) horder hucheck hue hcrc hexpect
  have hstep : u.stepRoom (c.waitingRoom z.now).credited = u.assigning (c.waitingRoom z.now).credited e := by
    unfold Dev.stepRoom
    rw [if_neg (show ¬(c.waitingRoom z.now).credited.credit < (c.waitingRoom z.now).credited.grains from Nat.lt_irrefl c.grains),
      if_pos (show (c.waitingRoom z.now).credited.msg.cap.inline = true from hinline), hassign]
    exact hassigning.holdIfDue_committing (if_neg hgrains)
  have hadmit : z.admitAppend c = u.assigning (c.waitingRoom z.now).credited e := by
    have hfilter : (z.chargingCtx c).hosts.ctxs.filter (fun b => b.phase == .waitRoom && b.arrival.val == c.arrival.val) =
        [c.waitingRoom z.now] := by
      rw [hcharging.ctxs, List.filter_cons_of_pos, List.filter_nil]
      simp only [Ctx.waitingRoom, BEq.rfl, Bool.and_self]
    have hlt : (c.waitingRoom z.now).credit < (c.waitingRoom z.now).grains := by
      show c.credit < c.grains
      omega
    unfold Dev.admitAppend
    refine (if_neg hgrains).trans ?_
    show (z.chargingCtx c).serveRoom c.arrival.val = _
    unfold Dev.serveRoom
    dsimp only
    rw [hfilter, List.foldl_cons, List.foldl_nil, if_pos hlt, if_neg Bool.false_ne_true, htake,
      show u.ctx (c.waitingRoom z.now).id = some (c.waitingRoom z.now).credited from halone.ctx]
    exact hstep
  have hnext : u.nextId = z.nextId := by rw [← hu]; rfl
  rw [hadmit, ← hnext]
  refine ⟨hassigning, Dev.ext_setExt (v := u.nextPlace.2) hue (Extent.is_of_ext he).1 (Extent.is_of_ext he).2, ?_⟩
  rw [← hu]
  rfl

end

theorem kindGrains_append_eq_zero {c : Capsule} : kindGrains .append c = 0 ↔ c.length = 0 := by
  have hceil : kindGrains .append c = (c.length.toNat + 4095) / 4096 := rfl
  have hlen : c.length = 0 ↔ c.length.toNat = 0 := ⟨fun h => by rw [h]; rfl, fun h => BitVec.eq_of_toNat_eq h⟩
  rw [hceil, hlen]
  omega

end Sys2Proof.Machine

open Sys2Proof Sys2Proof.Machine

/-- Settles O52: each command is the only one in progress at its admission, and is held or goes to the commit path there. -/
theorem talliedCommands : Obligations.TalliedCommands := by
  refine ⟨fun s m sn x k nonce w => ⟨fun h => ?_, fun e h he => ?_, fun e h he => ?_⟩,
    fun s m sn x e k f g w => ⟨fun h he hcrc hexpect hlen => ?_, fun h he hcrc hexpect hlen hinline hallot hlimit hroom => ?_⟩⟩
  · obtain ⟨z, hz, hcapsule⟩ := Dev.capsule_admits h
    obtain ⟨-, -, -, hdups, -, hx, -, -, -, -, -, -, hcheck, -⟩ := h
    have hnone : z.ext x.claim m.msg.cap.key = none := (hz.ext _ _).trans (Dev.ext_of_create rfl hcheck)
    obtain ⟨hdone, hext⟩ := Dev.admitCreate_done (hz.alone rfl hdups hx) rfl rfl rfl hnone
    rw [hz.mono] at hext
    exact ⟨_, congrArg (fun u => Host.Outcome.next (s.withDev u)) hcapsule, hdone, hext⟩
  · obtain ⟨z, hz, hcapsule⟩ := Dev.capsule_admits h
    obtain ⟨-, -, -, hdups, -, hx, -⟩ := h
    obtain ⟨hchanging, hadmit⟩ := (hz.alone (x := x) rfl hdups hx).admitChange rfl .sealed_
    obtain ⟨hdone, hext⟩ := Dev.markHeld_seal hchanging rfl rfl rfl (Dev.changing_ext .sealed_ ((hz.ext _ _).trans he))
    exact ⟨_, _, congrArg (fun u => Host.Outcome.next (s.withDev u)) (hcapsule.trans hadmit), hdone, hext, rfl, rfl, rfl, rfl⟩
  · obtain ⟨z, hz, hcapsule⟩ := Dev.capsule_admits h
    obtain ⟨-, -, -, hdups, -, hx, -⟩ := h
    obtain ⟨hchanging, hadmit⟩ := (hz.alone (x := x) rfl hdups hx).admitChange rfl .deleted
    obtain ⟨hdone, f, hf, hst, hheld, hlen⟩ := Dev.markHeld_delete hchanging rfl rfl rfl (Dev.changing_ext .deleted ((hz.ext _ _).trans he))
    exact ⟨_, f, congrArg (fun u => Host.Outcome.next (s.withDev u)) (hcapsule.trans hadmit), hdone, hf, hst, hheld, hlen⟩
  · obtain ⟨z, hz, hcapsule⟩ := Dev.capsule_admits h
    obtain ⟨-, -, -, hdups, -, hx, -, -, -, -, -, -, hcheck, -⟩ := h
    obtain ⟨u, b, d, hadmit, hu, hid, hs, hmsg, hqp, hsn, htag, hk⟩ := Dev.admitAppend_empty (hz.alone (x := x) rfl hdups hx) rfl
      (kindGrains_append_eq_zero.mpr hlen) rfl rfl rfl (hz.extentCheck_none hcheck) ((hz.ext _ _).trans he) hcrc hexpect
    obtain ⟨⟨comp', -, -, hctxs, -⟩, -, comp, hanswer, hoff, hreslen⟩ := hu.completeCtx hid hs (hqp.trans (congrArg (·.qp) hmsg).symm) htag
      (by rw [hk]; rfl) false e.assigned m.msg.cap.length.toNat 0
    rw [hmsg, hsn] at hanswer
    have hzero : m.msg.cap.length.toNat = 0 := by rw [hlen]; rfl
    exact ⟨_, comp, congrArg (fun u => Host.Outcome.next (s.withDev u)) (hcapsule.trans hadmit), hanswer, hoff, hreslen.trans hzero, hctxs⟩
  · obtain ⟨z, hz, hcapsule⟩ := Dev.capsule_admits h
    obtain ⟨-, -, hctxs, hdups, -, hx, -, -, -, -, -, -, hcheck, -⟩ := h
    obtain ⟨houtHeld, hroomFor⟩ := Dev.chargingCtx_room hz hctxs rfl
    obtain ⟨halone, hext, hgrains⟩ := Dev.admitAppend_inline (hz.alone (x := x) rfl hdups hx) rfl (fun h0 => hlen (kindGrains_append_eq_zero.mp h0)) rfl rfl rfl
      (hz.extentCheck_none hcheck) ((hz.ext _ _).trans he) hcrc hexpect hinline (by rw [hz.store]; exact hallot)
      (by rw [houtHeld, hz.store]; exact hlimit) (by rw [hroomFor]; exact hroom)
    exact ⟨_, _, _, _, congrArg (fun u => Host.Outcome.next (s.withDev u)) hcapsule, halone.ctxs, rfl, if_neg (fun h0 => hlen (kindGrains_append_eq_zero.mp h0)), rfl, rfl, rfl,
      rfl, rfl, hext, rfl,
      rfl, halone.session, Tab.get_set .., rfl, hgrains.trans (by rw [hz.store])⟩

end


section
open Sys2Proof Sys2Proof.Machine

/-- Refutes O2: no source has a recorded fault, but the record of a source that the manual lists reads as a clear one, not as
none; source word 0x08870000 (type 0x022 of region 7, number 0) is such a one. -/
theorem not_resetState : ¬ Obligations.ResetState := by
  intro h
  obtain ⟨-, -, -, -, -, -, -, -, -, -, -, -, -, hfaults⟩ := h
  have hlisted : State.reset.dev.faultRec 0x08870000 ≠ none := by decide
  exact hlisted (hfaults _)

end


section
/-! SUPPORT. The shape of a clause about one command: what `exec` answers is the device that its body leaves. -/

namespace Sys2Proof.Machine

theorem ite_iff_congr {α : Type} {p q : Prop} [Decidable p] [Decidable q] {a b c d : α} (h : p ↔ q) (hac : a = c) (hbd : b = d) :
    (if p then a else b) = if q then c else d :=
  ite_congr (propext h) (fun _ => hac) (fun _ => hbd)

theorem State.next_congr {s : State} {a u : Dev} (h : a = u) :
    (Host.Outcome.next (s.withDev a) : Host.Outcome State Fault Refusal) = .next (s.withDev u) := by
  rw [h]

/-- A command whose body leaves the device leaves the state. -/
theorem State.next_same {s : State} {a : Dev} (h : a = s.dev) : (Host.Outcome.next (s.withDev a) : Host.Outcome State Fault Refusal) = .next s :=
  (State.next_congr h).trans rfl

/-- A Floder command that starts answers what its body leaves, its later commands let in. -/
theorem State.next_starts {s : State} {op : Nat} {p : Packet} {w : Dev} {id : Nat} (h : Starts s.dev op p w id) {body : Nat → Dev → Dev}
    {u : Dev} (hbody : body id w = u) : (Host.Outcome.next (s.withDev (s.dev.floderRun op p body)) : Host.Outcome State Fault Refusal) =
      .next (s.withDev (u.skipHeads p.src)) :=
  State.next_congr (by rw [Dev.floderRun_of_starts h, hbody])

end Sys2Proof.Machine
end

section
/-! SUPPORT. Versioned updates (R79, R80). -/

namespace Sys2Proof.Machine

theorem Dev.switchEntry_due {v : Dev} {t : TableId} {key : Nat} {x : Update} (hx : v.firstUpdate t key = some x)
    (hbell : v.atBell (x.arrived + 1) = true) (hold : v.oldHolders t key = 0) (hfree : v.switchedAt t key (v.switchBell x) = false) :
    v.switchEntry t key = ({ v.dropUpdate t key with hosts := { (v.dropUpdate t key).hosts with
      switched := (v.dropUpdate t key).hosts.switched ++ [((t, key), v.switchBell x)] } } : Dev).applyUpdate x := by
  simp only [Dev.switchEntry, hx, hbell, hold, hfree, BEq.rfl, Bool.not_false, Bool.and_self, if_true]

theorem Dev.switchEntry_waits {v : Dev} {t : TableId} {key : Nat} {x : Update} (hx : v.firstUpdate t key = some x)
    (h : v.atBell (x.arrived + 1) = false ∨ v.oldHolders t key ≠ 0 ∨ v.switchedAt t key (v.switchBell x) = true) :
    v.switchEntry t key = v := by
  have hcond : (v.atBell (x.arrived + 1) && v.oldHolders t key == 0 && !v.switchedAt t key (v.switchBell x)) = false := by
    rcases h with h | h | h
    · rw [h, Bool.false_and, Bool.false_and]
    · rw [beq_eq_false_iff_ne.mpr h, Bool.and_false, Bool.false_and]
    · rw [h, Bool.not_true, Bool.and_false]
  simp only [Dev.switchEntry, hx, hcond, Bool.false_eq_true, if_false]

theorem Dev.finishOpt_claims (v : Dev) (cmd : Option Nat) (st : Byte) (r0 r1 r2 : Nat) :
    (v.finishOpt cmd st r0 r1 r2).hosts.claims = v.hosts.claims := by
  cases cmd with
  | none => rfl
  | some id => rw [Dev.finishOpt, Dev.finish_frame]

theorem execTableUpdateUnblock_of_late {s : State} {t : TableId} {key : Nat} {x : Update} {u : Dev} (hx : s.dev.firstUpdate t key = some x)
    (hlate : x.arrived + 1 < s.dev.now) (hu : s.dev.switchEntry t key = u) : exec (.tableUpdateUnblock t key) s = .next (s.withDev u) :=
  State.next_congr (by simp only [hx, hlate, if_true, hu])

theorem execTableUpdateUnblock_early {s : State} {t : TableId} {key : Nat} {x : Update} (hx : s.dev.firstUpdate t key = some x)
    (hearly : s.dev.now ≤ x.arrived + 1) : exec (.tableUpdateUnblock t key) s = .next s :=
  State.next_same (by simp only [hx, Nat.not_lt.mpr hearly, if_false])

/-- A new claim descriptor raises the version of its claim and touches no other. -/
theorem Dev.applyUpdate_claimSet {v : Dev} {x : Update} {d : ClaimDesc} (hx : x.act = .claimSet d) :
    ((v.applyUpdate x).claimEntry x.key).version = (v.claimEntry x.key).version + 1 ∧ (v.applyUpdate x).claimDesc x.key = some d ∧
      ∀ m, m ≠ x.key → (v.applyUpdate x).claimEntry m = v.claimEntry m := by
  have hclaims : (v.applyUpdate x).hosts.claims = Tab.set v.hosts.claims x.key
      { v.claimEntry x.key with desc := some d, version := (v.claimEntry x.key).version + 1 } := by
    simp only [Dev.applyUpdate, hx]
    exact Dev.finishOpt_claims ..
  have hentry : (v.applyUpdate x).claimEntry x.key =
      { v.claimEntry x.key with desc := some d, version := (v.claimEntry x.key).version + 1 } := by
    rw [Dev.claimEntry, hclaims, Tab.getD, Tab.get_set, Option.getD_some]
  refine ⟨by rw [hentry], by rw [Dev.claimDesc, hentry], fun m hm => ?_⟩
  rw [Dev.claimEntry, hclaims, Tab.getD, Tab.get_set_ne _ _ hm]
  rfl

end Sys2Proof.Machine

open Sys2Proof Sys2Proof.Machine

/-- Settles O20: a switch by what stands in its way; the others by the bell. -/
theorem versionedUpdates : Obligations.VersionedUpdates := by
  intro s t key x
  refine ⟨fun hx hbell hold hfree => ?_, fun hx h => ?_, execTableUpdateUnblock_early, fun hx hdue => ?_, fun hx hearly => ?_, fun hnone => ?_,
    fun n d hact hkey => ?_⟩
  · have hswitch := Dev.switchEntry_due hx hbell hold hfree
    exact ⟨State.next_congr hswitch, fun hlate => execTableUpdateUnblock_of_late hx hlate hswitch⟩
  · have hwaits := Dev.switchEntry_waits hx h
    refine ⟨State.next_same hwaits, ?_⟩
    rcases Nat.lt_or_ge (x.arrived + 1) s.dev.now with hlate | hearly
    · exact execTableUpdateUnblock_of_late hx hlate hwaits
    · exact execTableUpdateUnblock_early hx hearly
  · exact State.next_congr (by simp only [Dev.timeoutEntry, hx, hdue, if_true])
  · exact State.next_same (by simp only [Dev.timeoutEntry, hx, Nat.not_le.mpr hearly, if_false])
  · exact ⟨State.next_same (by simp only [Dev.switchEntry, hnone]), State.next_same (by simp only [hnone]),
      State.next_same (by simp only [Dev.timeoutEntry, hnone])⟩
  · obtain ⟨hversion, hdesc, hother⟩ := Dev.applyUpdate_claimSet (v := s.dev) hact
    exact ⟨_, rfl, hkey ▸ hversion, hkey ▸ hdesc, hkey ▸ hother⟩

end

section
/-! SUPPORT. Claim commands (R109, R110, R112, R412). -/

namespace Sys2Proof.Machine

theorem b2n_beq_zero_mul (n k : Nat) : b2n (n == 0) * k = if n = 0 then k else 0 := by
  cases n with
  | zero => exact Nat.one_mul k
  | succ n => exact Nat.zero_mul k

end Sys2Proof.Machine

open Sys2Proof Sys2Proof.Machine

/-- Settles O19: each command by its parameters, once it starts. -/
theorem claimCommands : Obligations.ClaimCommands := by
  intro s p w id
  refine ⟨fun n d h hparse => ?_, fun h hparse => ?_, fun e d h he hd => ?_, fun d g h hd hg => ?_, fun h hset hexts hsessions hkeys => ?_,
    fun x h hx hclaim => ?_⟩
  · exact State.next_starts h (by simp only [hparse, Dev.queueUpdate, Dev.now])
  · exact State.next_starts h (by simp only [hparse])
  · subst he
    exact State.next_starts h (by simp only [Dev.claimDesc, claimParam, hd])
  · subst hg
    refine State.next_starts h ?_
    simp only [claimParam, hd, b2n_beq_zero_mul]
  · refine State.next_starts h ?_
    have hnone : w.extentsOf (claimParam p) = [] :=
      List.filter_eq_nil_iff.mpr fun e he hclaim => hexts e he (beq_iff_eq.mp hclaim)
    have hunused : w.hosts.sessions.any (fun e => e.2.claim == claimParam p) = false :=
      List.any_eq_false.mpr fun e he hclaim => hsessions e he (beq_iff_eq.mp hclaim)
    have hunset : (w.claimDesc (claimParam p)).isNone = false := by rw [Option.isNone_eq_false_iff]; exact hset
    have hkeyless : w.keySlots.any (fun e => e.2.state == .loaded && e.2.claim == claimParam p) = false := by rw [hkeys]; rfl
    simp only [hnone, hunused, hunset, hkeyless, List.isEmpty_nil, Bool.not_true, Bool.or_self, Bool.false_eq_true, if_false]
    rfl
  · refine State.next_starts h ?_
    have hsome : (w.extentsOf (claimParam p)).isEmpty = false := by
      rw [List.isEmpty_eq_false_iff]
      exact List.ne_nil_of_mem (List.mem_filter.mpr ⟨hx, beq_iff_eq.mpr hclaim⟩)
    simp only [hsome, Bool.not_false, Bool.true_or, Bool.or_true, if_true]

end


section
/-! SUPPORT. Ports, traces and meter profiles (R218, R291, R412). -/

namespace Sys2Proof.Machine

section
variable {s : State} {p : Packet} {w : Dev} {id : Nat}

/-- A profile above a bound, with a rate above its peak, or of a number past the table breaks a rule. -/
theorem profileOk_eq_false (h : p.u32 8 < p.u32 4 ∨ p.u32 24 < p.u32 20 ∨ 0x64000000 < p.u32 8 ∨ 8192 ≤ p.u16 0) : profileOk p = false := by
  rw [Bool.eq_false_iff]
  intro hok
  simp only [profileOk, readProfile, Bool.and_eq_true, decide_eq_true_eq] at hok
  obtain ⟨⟨⟨⟨⟨⟨⟨⟨hkept, -⟩, hpir⟩, -⟩, -⟩, hcir⟩, -⟩, hecir⟩, -⟩ := hok
  have hpir := of_decide_eq_true hpir
  have hcir := of_decide_eq_true hcir
  have hecir := of_decide_eq_true hecir
  omega

theorem execTraceRead_none (h : Starts s.dev 0x0604 p w id) (hcount : p.u32 4 = 0) : ∃ v : Dev, exec (.traceRead p) s = .next (s.withDev <|
    (v.finish id stOk 0 (p.u32 0) 0 []).skipHeads p.src) ∧ v = { w with freeTick := v.freeTick } := by
  refine ⟨{ w with freeTick := w.freeTick + 1 + 1 }, ?_, rfl⟩
  refine State.next_starts h ?_
  simp only [hcount, if_true, Nat.mul_zero, Nat.add_zero]
  rfl

end

end Sys2Proof.Machine

open Sys2Proof Sys2Proof.Machine

/-- Settles O21: each command by its parameters, once it starts. -/
theorem portAndMeterCommands : Obligations.PortAndMeterCommands := by
  refine ⟨fun s p w id => ⟨fun h hmode hport hsub => ?_, fun h hmode => ?_, fun x n k h hn hk hx hlt => ?_, execTraceRead_none⟩,
    fun s p w id => ⟨fun h hbad => ?_, fun h hok => ?_, fun h => ?_, profileOk_eq_false⟩⟩
  · have hcount : ¬ subCount 0 ≤ 0 := Nat.not_succ_le_zero 0
    refine State.next_starts h ?_
    simp only [hmode, hport, hsub, hcount, decide_false, ne_eq, not_true_eq_false, Bool.false_and, Bool.or_self, Nat.reduceEqDiff,
      Bool.false_eq_true, if_false, if_true]
  · refine State.next_starts h ?_
    simp only [hmode, decide_true, Bool.true_or, if_true]
  · subst hn hk hx
    refine State.next_starts h ?_
    simp only [Nat.not_le.mpr hlt, if_false]
  · refine State.next_starts h ?_
    simp only [hbad, Bool.false_eq_true, if_false]
  · refine State.next_starts h ?_
    simp only [hok, if_true]
    rfl
  · exact State.next_starts h rfl

end

section
/-! SUPPORT. Parking (R345, R346). -/

namespace Sys2Proof.Machine

theorem Dev.startCipher_frame (v : Dev) (s : Nat) (keys : Bool) (queue : List CipherJob) :
    ∃ ci ft, v.startCipher s keys queue = { v with ciphers := ci, freeTick := ft } := by
  have hcopies : ∀ (l : Tab KeySlot) (u : Dev), ∃ ci, l.foldl (fun x (e : Nat × KeySlot) =>
      if e.2.state == .empty then x else x.setCipher s ((x.cipher s).addCopy e.1 e.2.key)) u = { u with ciphers := ci } := by
    intro l
    induction l with
    | nil => exact fun u => ⟨u.ciphers, rfl⟩
    | cons e l ih =>
      intro u
      rw [List.foldl_cons]
      split
      · exact ih u
      · obtain ⟨ci, h⟩ := ih (u.setCipher s ((u.cipher s).addCopy e.1 e.2.key))
        exact ⟨ci, h⟩
  unfold Dev.startCipher
  dsimp only
  split
  · obtain ⟨ci, h⟩ := hcopies ((v.setCipher s { Cipher.reset with queue := queue }).reseedMask s).keySlots
      ((v.setCipher s { Cipher.reset with queue := queue }).reseedMask s)
    exact ⟨ci, v.freeTick + 1, h⟩
  · exact ⟨_, v.freeTick + 1, rfl⟩

theorem Dev.fixActive_frame (v : Dev) (b : Nat) : ∃ bays, v.fixActive b = { v with store := { v.store with bays := bays } } := by
  unfold Dev.fixActive
  dsimp only
  split
  · exact ⟨_, rfl⟩
  · split
    · exact ⟨_, rfl⟩
    · exact ⟨v.store.bays, rfl⟩

/-- A spire that is up again. -/
def Dev.spireUpAgain (v : Dev) (s : Nat) : Dev :=
  v.setSpire s { v.spire s with state := .up, keyCopies := v.sec.debug != .open_, idle := 0 }

/-- A spire that is back has its cipher core started and its bays' active ports set. -/
theorem Dev.spireBack_frame (v : Dev) (s : Nat) : ∃ ci ft bays, v.spireBack s =
    { v.spireUpAgain s with ciphers := ci, freeTick := ft, store := { v.store with bays := bays } } := by
  have hactive : ∀ (l : List Nat) (u : Dev), ∃ bays, l.foldl (fun x b => x.fixActive b) u = { u with store := { u.store with bays := bays } } := by
    intro l
    induction l with
    | nil => exact fun u => ⟨u.store.bays, rfl⟩
    | cons b l ih =>
      intro u
      obtain ⟨bays, hfix⟩ := u.fixActive_frame b
      obtain ⟨bays', h⟩ := ih (u.fixActive b)
      exact ⟨bays', by rw [List.foldl_cons, h, hfix]⟩
  obtain ⟨ci, ft, hstart⟩ := (v.spireUpAgain s).startCipher_frame s (v.sec.debug != .open_) []
  obtain ⟨bays, hbays⟩ := hactive (List.range 32) ((v.spireUpAgain s).startCipher s (v.sec.debug != .open_) [])
  exact ⟨ci, ft, bays, hbays.trans (by rw [hstart]; rfl)⟩

/-- Pages of a spire come due only where some page is staged. -/
theorem Dev.dueSpirePages_none {v : Dev} (h : v.regs.pages = []) (n : Nat) : v.dueSpirePages n = v := by
  simp only [Dev.dueSpirePages, h, List.map_nil, List.filter_nil, List.foldl_nil]

end Sys2Proof.Machine

open Sys2Proof Sys2Proof.Machine

/-- Settles O26: each command and event under its guards. -/
theorem parking : Obligations.Parking := by
  intro s sp p w id x
  refine ⟨fun h hsp hmode hdebug hparked hx hup hpartner hports => ?_, fun h hmode => ?_, fun h hsp hx hstate hroles => ?_,
    fun hx hstate hroles hmode => ?_, fun hx hstate hstack hpages => ?_, fun c hx hpeal hunparked hup hcmd => ?_⟩
  · have hnone : (List.range 4).any (fun i => (w.spire i).state == .parked || (w.spire i).state == .unparking) = false := by
      rw [List.any_eq_false]
      intro i hi
      obtain ⟨hp, hu⟩ := hparked i (List.mem_range.mp hi)
      rw [beq_eq_false_iff_ne.mpr hp, beq_eq_false_iff_ne.mpr hu]
      exact Bool.false_ne_true
    subst hx
    have hself : w.spireUp (p.u8 0 % 4) = true := by rw [← hsp, Dev.spireUp, hup]; rfl
    have hother : w.spireUp (partner (p.u8 0 % 4)) = true := by rw [← hsp, Dev.spireUp, hpartner]; rfl
    have hports' : w.otherPortsUp (p.u8 0 % 4) = true := hsp ▸ hports
    have hopen : (w.sec.debug == .open_) = false := beq_eq_false_iff_ne.mpr hdebug
    refine State.next_starts h ?_
    simp only [hmode, bne_self_eq_false, hopen, hnone, hself, hother, hports', Bool.not_true, Bool.or_self, Bool.false_eq_true, if_false]
    rw [hsp]
  · have hother : (w.mode != .service) = true := bne_iff_ne.mpr hmode
    refine State.next_starts h ?_
    simp only [hother, Bool.true_or, if_true]
  · subst hx
    refine State.next_starts h ?_
    simp only [← hsp, hstate, hroles, BEq.rfl, Bool.and_self, if_true]
  · subst hx
    refine State.next_congr ?_
    have hdue : s.dev.unparkDue sp.val = true := by
      unfold Dev.unparkDue
      rw [hmode]
      rfl
    simp only [hstate, hroles, hdue, BEq.rfl, Bool.and_self, if_true]
  · subst hx
    refine State.next_congr ?_
    have hkept : ∀ y, ((s.dev.setSpire sp.val y).spireBack sp.val).regs.pages = [] := fun y => by
      obtain ⟨ci, ft, bays, hback⟩ := (s.dev.setSpire sp.val y).spireBack_frame sp.val
      rw [hback]
      exact hpages
    simp only [hstate, hstack, bne_self_eq_false, Bool.not_true, Bool.not_false, Bool.false_eq_true, if_false]
    exact Dev.dueSpirePages_none (hkept _) _
  · subst hx
    refine State.next_congr ?_
    have hself : s.dev.spireUp sp.val = true := by rw [Dev.spireUp, hup]; rfl
    simp only [hpeal, hunparked, hself, hcmd, Bool.and_self, if_true]
    rfl

end


section
/-! SUPPORT. The service of hosts leaves the rest of the device: `Dev.platform` is that rest, and each operation on queue
pairs, sessions and commands in progress leaves it. -/

namespace Sys2Proof.Machine

/-- The device but for its hosts, its Floder commands, the messages that wait for a DRAIN, its counters, its outputs and the
names it has given out. -/
def Dev.platform (v : Dev) : Dev :=
  { v with
    hosts := .reset
    floder := .reset
    chip := { v.chip with drain := .reset }
    pmon := .reset
    out := []
    nextId := 0 }

/-- A fold of an operation that leaves the platform leaves it. -/
theorem foldl_platform {α : Type} {f : Dev → α → Dev} (h : ∀ (x : Dev) a, (f x a).platform = x.platform) (l : List α) (v : Dev) :
    (l.foldl f v).platform = v.platform :=
  foldl_pi (β := Dev) (·.platform) f h l v

/-- What a platform says of the parts that it keeps. -/
theorem Dev.chip_of_platform {v w : Dev} (h : w.platform = v.platform) : w.chip = { v.chip with drain := w.chip.drain } := by
  have hchip : ({ w.chip with drain := Drain.reset } : Chip) = { v.chip with drain := Drain.reset } := congrArg Dev.chip h
  have hback := congrArg (fun x : Chip => { x with drain := w.chip.drain }) hchip
  exact hback

section
variable (v : Dev)

@[simp] theorem Dev.adjSession_platform (sn : Nat) (f : Session → Session) : (v.adjSession sn f).platform = v.platform := rfl

@[simp] theorem Dev.setSession_platform (sn : Nat) (x : Session) : (v.setSession sn x).platform = v.platform := rfl

@[simp] theorem Dev.adjQp_platform (n : Nat) (f : Qp → Qp) : (v.adjQp n f).platform = v.platform := rfl

@[simp] theorem Dev.setQp_platform (n : Nat) (x : Qp) : (v.setQp n x).platform = v.platform := rfl

@[simp] theorem Dev.setEg_platform (n k : Nat) (x : Egress) : (v.setEg n k x).platform = v.platform := rfl

@[simp] theorem Dev.setPort_platform (n : Nat) (x : NetPort) : (v.setPort n x).platform = v.platform := rfl

@[simp] theorem Dev.uncharge_platform (claim n : Nat) : (v.uncharge claim n).platform = v.platform := rfl

@[simp] theorem Dev.build_platform (sn : Nat) (e : Entry) (qp tally from_ : Option Nat) : (v.build sn e qp tally from_).platform = v.platform :=
  rfl

@[simp] theorem Dev.answer_platform (sn : Nat) (d : Delivered) (st : Byte) (x : ExtInfo) (off len : Nat) :
    (v.answer sn d st x off len).platform = v.platform := rfl

@[simp] theorem Dev.dropQp_platform (qp : Nat) : (v.dropQp qp).platform = v.platform := rfl

@[simp] theorem Dev.count_platform (region cls idx ev n : Nat) : (v.count region cls idx ev n).platform = v.platform := by
  obtain ⟨p, hp⟩ := v.count_frame region cls idx ev n
  rw [hp]
  rfl

@[simp] theorem Dev.countPort_platform (n ev x : Nat) : (v.countPort n ev x).platform = v.platform := v.count_platform ..

@[simp] theorem Dev.countKeep_platform (cls ev n : Nat) : (v.countKeep cls ev n).platform = v.platform := by
  obtain ⟨p, hp⟩ := v.countKeep_frame cls ev n
  rw [hp]
  rfl

@[simp] theorem Dev.finish_platform (id : Nat) (st : Byte) (r0 r1 r2 : Nat) (data : List Byte) :
    (v.finish id st r0 r1 r2 data).platform = v.platform := by
  rw [Dev.finish_frame]
  rfl

@[simp] theorem Dev.finishOpt_platform (cmd : Option Nat) (st : Byte) (r0 r1 r2 : Nat) : (v.finishOpt cmd st r0 r1 r2).platform = v.platform := by
  cases cmd with
  | none => rfl
  | some id => exact v.finish_platform ..

@[simp] theorem Dev.answerRecord_platform (sn : Nat) (d : Delivered) (r : Record) : (v.answerRecord sn d r).platform = v.platform := by
  unfold Dev.answerRecord
  dsimp only
  rw [Dev.build_platform]
  split
  · split
    · exact v.count_platform ..
    · rfl
  · rfl

@[simp] theorem Dev.releaseDups_platform (sn : Nat) (t : BitVec 32) : (v.releaseDups sn t).platform = v.platform := by
  refine (foldl_platform (fun x e => ?_) _ _).trans rfl
  split
  · exact x.answerRecord_platform ..
  · rfl

@[simp] theorem Dev.dropTally_platform (sn : Nat) (t : BitVec 32) : (v.dropTally sn t).platform = v.platform :=
  Dev.releaseDups_platform ..

@[simp] theorem Dev.endGrant_platform (sn tag : Nat) : (v.endGrant sn tag).platform = v.platform := by
  unfold Dev.endGrant
  cases v.hosts.grants.find? (fun g => g.session == sn && g.tag == tag) <;> rfl

@[simp] theorem Dev.dropCtx_platform (c : Ctx) : (v.dropCtx c).platform = v.platform := by
  have hgrant : ∀ w : Dev, (match c.grantTag with | some t => w.endGrant c.session t | none => w).platform = w.platform := fun w => by
    split
    · exact w.endGrant_platform ..
    · rfl
  have hcredit : ∀ w : Dev, (if c.credit = 0 then w else w.countKeep 0x10 0x002 c.credit).platform = w.platform := fun w => by
    split
    · rfl
    · exact w.countKeep_platform ..
  refine (hgrant _).trans ((hcredit _).trans ?_)
  split
  · rfl
  · split <;> rfl

@[simp] theorem Dev.discardCtx_platform (c : Ctx) : (v.discardCtx c).platform = v.platform := by
  unfold Dev.discardCtx
  split
  · exact (Dev.dropTally_platform ..).trans (v.dropCtx_platform c)
  · exact v.dropCtx_platform c

@[simp] theorem Dev.discardInbox_platform (q : Nat) : (v.discardInbox q).platform = v.platform :=
  foldl_platform Dev.discardCtx_platform _ v

@[simp] theorem Dev.abortReads_platform (q : Nat) : (v.abortReads q).platform = v.platform :=
  foldl_platform (fun x (r : ReadCtx) => x.answer_platform ..) _ _

@[simp] theorem Dev.unqueue_platform (n : Nat) : (v.unqueue n).platform = v.platform := by
  unfold Dev.unqueue
  split
  · rfl
  · dsimp only
    split <;> rfl

@[simp] theorem Dev.enqueue_platform (n k : Nat) (f : Frame) : (v.enqueue n k f).platform = v.platform := by
  unfold Dev.enqueue
  split
  · rfl
  · exact v.countPort_platform ..

@[simp] theorem Dev.launchN_platform (m n : Nat) : (Dev.launchN m v n).platform = v.platform := by
  induction m generalizing v with
  | zero => rfl
  | succ m ih =>
    unfold Dev.launchN
    split
    · rfl
    · split
      · rfl
      · split
        · exact (ih _).trans (Dev.enqueue_platform ..)
        · rfl

@[simp] theorem Dev.launchQp_platform (n : Nat) : (v.launchQp n).platform = v.platform := by
  unfold Dev.launchQp
  split
  · rfl
  · split
    · exact v.launchN_platform ..
    · rfl

@[simp] theorem Dev.post_platform (n : Nat) (ws : List Wire) : (v.post n ws).platform = v.platform := Dev.launchQp_platform ..

@[simp] theorem Dev.reissue_platform (sn : Nat) : (v.reissue sn).platform = v.platform := by
  unfold Dev.reissue
  split
  · rfl
  · split
    · rfl
    · exact Dev.post_platform ..

@[simp] theorem Dev.revokeWindow_platform (w : Nat) (cmd : Option Nat) : (v.revokeWindow w cmd).platform = v.platform := by
  unfold Dev.revokeWindow
  dsimp only
  split
  · rfl
  · split <;> rfl

@[simp] theorem Dev.notice_platform (sn : Nat) (code : Byte) (arg : Nat) : (v.notice sn code arg).platform = v.platform := by
  unfold Dev.notice
  split
  · rfl
  · dsimp only
    split
    · rfl
    · exact Dev.count_platform ..

@[simp] theorem Dev.releaseQp_platform (q : Nat) : (v.releaseQp q).platform = v.platform := by
  cases hq : v.qp q with
  | none => rw [Dev.releaseQp, hq]
  | some x =>
    obtain ⟨ws, h⟩ := Dev.releaseQp_eq hq
    rw [h]
    refine (foldl_platform (fun y w => y.revokeWindow_platform w none) _ _).trans ((Dev.reissue_platform ..).trans ?_)
    rw [Dev.adjSession_platform, Dev.dropQp_platform, Dev.unqueue_platform, Dev.abortReads_platform, Dev.discardInbox_platform]

@[simp] theorem Dev.holdPath_platform (q : Nat) : (v.holdPath q).platform = v.platform := by
  have hheld : ∀ (w : Dev) (x : Qp), (((w.adjQp q Qp.heldWrites).discardInbox q).notice x.session 0x04 q).platform = w.platform :=
    fun w x => (Dev.notice_platform ..).trans (Dev.discardInbox_platform ..)
  have hlast : ∀ (w : Dev) (hold sn : Nat), (if hold = 0 then w.releaseQp q else w.reissue sn).platform = w.platform := fun w hold sn => by
    split
    · exact w.releaseQp_platform q
    · exact w.reissue_platform sn
  unfold Dev.holdPath
  split
  · rfl
  · split
    · rfl
    · split
      · rfl
      · exact (hlast _ _ _).trans (hheld _ _)

@[simp] theorem Dev.downPort_platform (n k : Nat) : (v.downPort n k).platform = v.platform :=
  (foldl_platform Dev.holdPath_platform _ _).trans (Dev.countPort_platform ..)

@[simp] theorem Dev.stopPorts_platform (s : Nat) : (v.stopPorts s).platform = v.platform :=
  foldl_platform (fun x n => (foldl_platform (fun y k => y.downPort_platform n k) _ _).trans (Dev.setPort_platform ..)) _ _

end

end Sys2Proof.Machine
end


section
/-! SUPPORT. Fault events, and the loss, reset and return of a spire (R26, R97, R344 to R346, R381). -/

namespace Sys2Proof.Machine

/-! ### A fault event -/

/-- A vector is sent or stands pending. -/
theorem Dev.raiseVec_frame (v : Dev) (p : Pf) (n : Nat) : ∃ ep out, v.raiseVec p n = { v with ep := ep, out := out } := by
  unfold Dev.raiseVec
  dsimp only
  split
  · exact ⟨v.ep, _, rfl⟩
  · cases p <;> exact ⟨_, v.out, rfl⟩

theorem Dev.noteFault_frame (v : Dev) (old new : FaultRec) :
    ∃ fc ep out, v.noteFault old new = { v with fcLast := fc, ep := ep, out := out } := by
  have hlast : ∃ fc, (if old.cls != new.cls || (new.captured && !old.captured) then { v with fcLast := new.source } else v) =
      { v with fcLast := fc } := by
    split
    · exact ⟨_, rfl⟩
    · exact ⟨v.fcLast, rfl⟩
  obtain ⟨fc, hfc⟩ := hlast
  unfold Dev.noteFault
  rw [hfc]
  dsimp only
  split
  · obtain ⟨ep, out, h⟩ := ({ v with fcLast := fc } : Dev).raiseVec_frame .pf0 256
    exact ⟨fc, ep, out, h⟩
  · exact ⟨fc, v.ep, v.out, rfl⟩

/-- A fault event changes the records of faults and what tells of them. -/
theorem Dev.faultIn_frame (v : Dev) (f : FaultInfo) (injected : Bool) :
    ∃ fa fc ep out, v.faultIn f injected = { v with faults := fa, fcLast := fc, ep := ep, out := out } := by
  unfold Dev.faultIn
  split
  · exact ⟨v.faults, v.fcLast, v.ep, v.out, rfl⟩
  · dsimp only
    split
    · exact ⟨_, v.fcLast, v.ep, v.out, rfl⟩
    · obtain ⟨fc, ep, out, h⟩ := Dev.noteFault_frame (v := { v with faults := _ }) _ _
      exact ⟨_, fc, ep, out, h⟩

theorem Dev.fault_frame (v : Dev) (type region inst d0 d1 d2 : Nat) :
    ∃ fa fc ep out, v.fault type region inst d0 d1 d2 = { v with faults := fa, fcLast := fc, ep := ep, out := out } :=
  v.faultIn_frame _ _

/-! ### A reset that is done -/

theorem FaultRec.resetDone_source (r : FaultRec) : r.resetDone.source = r.source := by
  unfold FaultRec.resetDone
  split
  · split <;> rfl
  · rfl

/-- A record whose reset is done is SEVERE only where it has recovered. -/
theorem FaultRec.resetDone_recovered (r : FaultRec) (h : r.resetDone.cls = 3) : r.resetDone.recovered = true := by
  unfold FaultRec.resetDone at h ⊢
  split
  · rename_i hcls
    rw [if_pos hcls] at h
    split
    · rfl
    · rename_i hbase
      rw [if_neg hbase] at h
      exact absurd h hbase
  · rename_i hcls
    rw [if_neg hcls] at h
    exact absurd h hcls

/-- One record of a reset that is done. -/
def Dev.resetDoneOne (covers : BitVec 32 → Bool) (x : Dev) (e : Nat × FaultRec) : Dev :=
  if e.2.cls == 3 && covers e.2.source then ({ x with faults := Tab.set x.faults e.1 e.2.resetDone }).noteFault e.2 e.2.resetDone else x

theorem Dev.resetsDone_eq (v : Dev) (covers : BitVec 32 → Bool) : v.resetsDone covers = v.faults.foldl (Dev.resetDoneOne covers) v := rfl

theorem Dev.resetDoneOne_frame (covers : BitVec 32 → Bool) (x : Dev) (e : Nat × FaultRec) : ∃ fc ep out,
    Dev.resetDoneOne covers x e = { x with
      faults := if e.2.cls == 3 && covers e.2.source then Tab.set x.faults e.1 e.2.resetDone else x.faults
      fcLast := fc
      ep := ep
      out := out } := by
  unfold Dev.resetDoneOne
  split
  · exact Dev.noteFault_frame (v := { x with faults := Tab.set x.faults e.1 e.2.resetDone }) _ _
  · exact ⟨x.fcLast, x.ep, x.out, rfl⟩

theorem foldl_resetDoneOne_frame (covers : BitVec 32 → Bool) (l : List (Nat × FaultRec)) (v : Dev) : ∃ fa fc ep out,
    l.foldl (Dev.resetDoneOne covers) v = { v with faults := fa, fcLast := fc, ep := ep, out := out } := by
  induction l generalizing v with
  | nil => exact ⟨v.faults, v.fcLast, v.ep, v.out, rfl⟩
  | cons e l ih =>
    obtain ⟨fc, ep, out, h⟩ := Dev.resetDoneOne_frame covers v e
    obtain ⟨fa', fc', ep', out', h'⟩ := ih (Dev.resetDoneOne covers v e)
    exact ⟨fa', fc', ep', out', by rw [List.foldl_cons, h', h]⟩

theorem Dev.resetsDone_frame (v : Dev) (covers : BitVec 32 → Bool) : ∃ fa fc ep out,
    v.resetsDone covers = { v with faults := fa, fcLast := fc, ep := ep, out := out } :=
  foldl_resetDoneOne_frame covers v.faults v

/-- A record after a reset is one that stood there and was not visited, or one that the reset is done with. -/
theorem foldl_resetDoneOne_get (covers : BitVec 32 → Bool) (l : List (Nat × FaultRec)) (v : Dev) {key : Nat} {r : FaultRec}
    (h : Tab.get (l.foldl (Dev.resetDoneOne covers) v).faults key = some r) :
    (Tab.get v.faults key = some r ∧ ∀ e ∈ l, e.1 = key → (e.2.cls == 3 && covers e.2.source) = false) ∨ ∃ r0 : FaultRec, r = r0.resetDone := by
  induction l generalizing v with
  | nil => exact .inl ⟨h, fun e he => absurd he List.not_mem_nil⟩
  | cons e l ih =>
    rcases ih _ h with ⟨hget, hrest⟩ | hdone
    · obtain ⟨fc, ep, out, hone⟩ := Dev.resetDoneOne_frame covers v e
      rw [hone] at hget
      dsimp only at hget
      cases hcond : e.2.cls == 3 && covers e.2.source with
      | false =>
        rw [hcond, if_neg Bool.false_ne_true] at hget
        refine .inl ⟨hget, fun x hx hkey => ?_⟩
        rcases List.mem_cons.mp hx with rfl | hx
        · exact hcond
        · exact hrest x hx hkey
      | true =>
        rw [hcond, if_pos rfl] at hget
        by_cases hkey : key = e.1
        · subst hkey
          rw [Tab.get_set] at hget
          cases hget
          exact .inr ⟨_, rfl⟩
        · rw [Tab.get_set_ne _ _ hkey] at hget
          refine .inl ⟨hget, fun x hx hx' => ?_⟩
          rcases List.mem_cons.mp hx with rfl | hx
          · exact absurd hx'.symm hkey
          · exact hrest x hx hx'
    · exact .inr hdone

/-- The SEVERE records that a reset covers have recovered. -/
theorem Dev.resetsDone_recovered (v : Dev) (covers : BitVec 32 → Bool) {key : Nat} {r : FaultRec}
    (h : Tab.get (v.resetsDone covers).faults key = some r) (hcovers : covers r.source = true) (hcls : r.cls = 3) : r.recovered = true := by
  rw [Dev.resetsDone_eq] at h
  rcases foldl_resetDoneOne_get covers v.faults v h with ⟨hget, hrest⟩ | ⟨r0, rfl⟩
  · have hnot := hrest _ (Tab.mem_of_get hget) rfl
    rw [hcovers, hcls, Bool.and_true] at hnot
    cases hnot
  · exact r0.resetDone_recovered hcls

/-! ### A spire that stops -/

/-- What reads the platform only is the same of two devices of one platform. -/
theorem Dev.of_platform {α : Type} {v w : Dev} (h : w.platform = v.platform) (π : Dev → α) (hπ : ∀ u : Dev, π u.platform = π u) : π w = π v := by
  rw [← hπ w, h, hπ v]

theorem Dev.spire_of_platform {v w : Dev} (h : w.platform = v.platform) (s : Nat) : w.spire s = v.spire s :=
  Dev.of_platform h (·.spire s) fun _ => rfl

@[simp] theorem Dev.resetCounters_platform (v : Dev) (region : Nat) (blocks : List Nat) :
    (v.resetCounters region blocks).platform = v.platform :=
  foldl_platform (fun x id => x.finish_platform id stAborted 0 0 0 []) _ _

/-- What stands of a spire that stops. -/
def SpireRec.stopped (x : SpireRec) (st : SpireState) : SpireRec :=
  { SpireRec.reset with state := st, rolesAway := x.rolesAway, resetCmd := x.resetCmd, lost := true }

theorem Dev.stopSpire_platform (v : Dev) (s : Nat) (st : SpireState) : (v.stopSpire s st).platform =
    (((v.setSpire s ((v.spire s).stopped st)).setCipher s .reset).restoreRegs (spireBase s) 0xC00000).platform :=
  Dev.stopPorts_platform _ s

theorem Dev.stopSpire_spire (v : Dev) (s : Nat) (st : SpireState) : (v.stopSpire s st).spire s = (v.spire s).stopped st :=
  (Dev.spire_of_platform (v.stopSpire_platform s st) s).trans (v.spire_setSpire s _)

theorem Dev.stopSpire_clk (v : Dev) (s : Nat) (st : SpireState) : (v.stopSpire s st).clk = v.clk :=
  Dev.of_platform (v.stopSpire_platform s st) Dev.clk fun _ => rfl

/-- A spire lost has stopped, its lease is taken and the loss is recorded. -/
theorem execSpireLoss_up {s : State} {sp : Spire} {cause : BitVec 32} (hmode : s.dev.mode ≠ .held) (hup : (s.dev.spire sp.val).state = .up) :
    ∃ t bridge, exec (.spireLoss sp cause) s = .next t ∧ t.pending = s.pending ∧
      t.dev = (({ (s.dev.stopSpire sp.val .down).regionLease sp.val with freeTick := t.dev.freeTick }).fault 0x020 sp.val 0 cause.toNat bridge
        (s.dev.clk.bell % 2 ^ 32)) ∧ (t.dev.spire sp.val).state = .down := by
  have hdown : ((s.dev.spire sp.val).state == .down) = false := by rw [hup]; rfl
  have hmissing : ((s.dev.spire sp.val).state == .missing) = false := by rw [hup]; rfl
  have hspire : ((s.dev.stopSpire sp.val .down).regionLease sp.val).spire sp.val = (s.dev.spire sp.val).stopped .down :=
    s.dev.stopSpire_spire sp.val .down
  have hclk : ((s.dev.stopSpire sp.val .down).regionLease sp.val).clk = s.dev.clk := s.dev.stopSpire_clk sp.val .down
  have hexec : exec (.spireLoss sp cause) s = .next (s.withDev (((s.dev.stopSpire sp.val .down).regionLease sp.val).free32.2.fault 0x020 sp.val 0
      cause.toNat ((s.dev.stopSpire sp.val .down).regionLease sp.val).free32.1.toNat
      (((s.dev.stopSpire sp.val .down).regionLease sp.val).clk.bell % 2 ^ 32))) :=
    State.next_congr (by simp only [hdown, hmissing, beq_eq_false_iff_ne.mpr hmode, Bool.or_self, Bool.false_eq_true, if_false]; rfl)
  rw [hclk] at hexec
  generalize (s.dev.stopSpire sp.val .down).regionLease sp.val = w at hexec hspire hclk ⊢
  obtain ⟨fa, fc, ep, out, hfault⟩ := w.free32.2.fault_frame 0x020 sp.val 0 cause.toNat w.free32.1.toNat (s.dev.clk.bell % 2 ^ 32)
  have htick : (w.free32.2.fault 0x020 sp.val 0 cause.toNat w.free32.1.toNat (s.dev.clk.bell % 2 ^ 32)).freeTick = w.freeTick + 1 := by
    rw [hfault]
    rfl
  refine ⟨_, w.free32.1.toNat, hexec, rfl, ?_, ?_⟩
  · rw [State.withDev_dev, htick]
    rfl
  · rw [State.withDev_dev, hfault]
    exact congrArg SpireRec.state hspire

/-- A spire whose reset has started. -/
theorem Dev.startRegionReset_spire (v : Dev) (s : Nat) : (v.startRegionReset s).spire s =
    { (v.spire s).stopped .resetting with boot := some ⟨2, 0, none, v.now⟩ } := by
  have hkept : (((v.stopSpire s .resetting).regionLease s).resetCounters s ((regionBlocks s).map (·.2))).spire s = (v.spire s).stopped .resetting :=
    (Dev.spire_of_platform (Dev.resetCounters_platform ..) s).trans (v.stopSpire_spire s .resetting)
  unfold Dev.startRegionReset
  dsimp only
  rw [Dev.spire_setSpire, hkept]

theorem Dev.startRegionReset_recov (v : Dev) (s : Nat) : LeaseRef.region (Fin.ofNat 4 s) ∈ (v.startRegionReset s).recov.map Prod.fst := by
  have hkept : (v.startRegionReset s).recov = ((v.stopSpire s .resetting).regionLease s).recov :=
    Dev.of_platform (Dev.resetCounters_platform ((v.stopSpire s .resetting).regionLease s) s ((regionBlocks s).map Prod.snd)) Dev.recov fun _ => rfl
  rw [hkept]
  exact List.mem_map.mpr ⟨_, List.mem_append_right _ List.mem_cons_self, rfl⟩

/-! ### A spire that returns -/

theorem Dev.spireBack_spire (v : Dev) (s : Nat) :
    (v.spireBack s).spire s = { v.spire s with state := .up, keyCopies := v.sec.debug != .open_, idle := 0 } := by
  obtain ⟨ci, ft, bays, hback⟩ := v.spireBack_frame s
  rw [hback]
  exact v.spire_setSpire s _

/-- The device once a spire's boot is complete, before the faults of its region are closed. -/
def Dev.rebooted (v : Dev) (s : Nat) : Dev :=
  [2 * s, 2 * s + 1].foldl (fun y i => y.setPort i { y.port i with faulted := false })
    (((v.setSpire s { v.spire s with remirror := true, resetCmd := none, boot := none }).spireBack s).sliceBack s)

theorem Dev.rebooted_spire (v : Dev) (s : Nat) : (v.rebooted s).spire s =
    { v.spire s with remirror := true, resetCmd := none, boot := none, state := .up, keyCopies := v.sec.debug != .open_, idle := 0 } := by
  have hback := Dev.spireBack_spire (v.setSpire s { v.spire s with remirror := true, resetCmd := none, boot := none }) s
  rw [Dev.spire_setSpire] at hback
  unfold Dev.rebooted
  generalize (v.setSpire s { v.spire s with remirror := true, resetCmd := none, boot := none }).spireBack s = w at hback ⊢
  have hports := foldl_platform (f := fun (y : Dev) i => y.setPort i { y.port i with faulted := false }) (fun y i => y.setPort_platform i _)
    [2 * s, 2 * s + 1] (w.sliceBack s)
  exact (Dev.spire_of_platform hports s).trans hback

/-- A spire whose boot is complete is up, its memory not mirrored and its roles still away. -/
theorem execRegionBootComplete_booted {s : State} {sp : Spire} {x : SpireRec} {b : RegionBoot} (hx : s.dev.spire sp.val = x)
    (hstate : x.state = .resetting) (hroles : x.rolesAway = true) (hlost : x.lost = false) (hboot : x.boot = some b) (hstage : b.stage = 6) :
    ∃ t, exec (.regionBootComplete sp) s = .next t ∧ t.pending = s.pending ∧ (t.dev.spire sp.val).state = .up ∧
      (t.dev.spire sp.val).remirror = true ∧ (t.dev.spire sp.val).rolesAway = true ∧ (t.dev.spire sp.val).resetCmd = none ∧
      (∀ key r, Tab.get t.dev.faults key = some r → srcRegion r.source = sp.val → r.cls = 3 → r.recovered = true) := by
  subst hx
  have hcond : ¬((s.dev.spire sp.val).state != .resetting || !(s.dev.spire sp.val).rolesAway || (s.dev.spire sp.val).lost ||
      !(match (s.dev.spire sp.val).boot with | some b => b.stage == 6 | none => false)) = true := by
    rw [hstate, hroles, hlost, hboot]
    simp only [hstage, BEq.rfl, bne_self_eq_false, Bool.not_true, Bool.or_self, Bool.false_eq_true, not_false_eq_true]
  have hspire := s.dev.rebooted_spire sp.val
  generalize hw : s.dev.rebooted sp.val = w at hspire
  obtain ⟨fa, fc, ep, out, hdone⟩ := w.resetsDone_frame (fun src => srcRegion src == sp.val)
  have hkept : ((w.resetsDone (fun src => srcRegion src == sp.val)).finishOpt (s.dev.spire sp.val).resetCmd stOk 0 0 0).spire sp.val =
      w.spire sp.val := by
    refine (Dev.spire_of_platform (Dev.finishOpt_platform ..) _).trans ?_
    rw [hdone]
    rfl
  have hfaults : ((w.resetsDone (fun src => srcRegion src == sp.val)).finishOpt (s.dev.spire sp.val).resetCmd stOk 0 0 0).faults =
      (w.resetsDone (fun src => srcRegion src == sp.val)).faults := Dev.of_platform (Dev.finishOpt_platform ..) Dev.faults fun _ => rfl
  refine ⟨s.withDev ((w.resetsDone (fun src => srcRegion src == sp.val)).finishOpt (s.dev.spire sp.val).resetCmd stOk 0 0 0),
    State.next_congr ((if_neg hcond).trans (by rw [← hw]; rfl)), rfl, ?_, ?_, ?_, ?_, fun key r hget hregion hcls => ?_⟩
  · rw [State.withDev_dev, hkept, hspire]
  · rw [State.withDev_dev, hkept, hspire]
  · rw [State.withDev_dev, hkept, hspire]
    exact hroles
  · rw [State.withDev_dev, hkept, hspire]
  · rw [State.withDev_dev, hfaults] at hget
    exact w.resetsDone_recovered _ hget (beq_iff_eq.mpr hregion) hcls

end Sys2Proof.Machine
end


section
/-! SUPPORT. Parts repaired, the service's notices and completions, and the events of a spire (R26, R55, R97, R344, R381). -/

namespace Sys2Proof.Machine

section
variable (v : Dev)

@[simp] theorem Dev.noticeAll_platform (code : Byte) (arg : Nat) : (v.noticeAll code arg).platform = v.platform :=
  foldl_platform (fun x n => x.notice_platform n code arg) _ v

@[simp] theorem Dev.completeTallied_platform (sn : Nat) (op : Byte) (d : Delivered) (c : Completion) :
    (v.completeTallied sn op d c).platform = v.platform :=
  Dev.releaseDups_platform ..

@[simp] theorem Dev.completeCtx_platform (c : Ctx) (st : Byte) (settled : Bool) (off len grains : Nat) :
    (v.completeCtx c st settled off len grains).platform = v.platform := by
  unfold Dev.completeCtx
  dsimp only
  split
  · exact (Dev.completeTallied_platform ..).trans (v.dropCtx_platform _)
  · exact (Dev.build_platform ..).trans (v.dropCtx_platform _)

/-- The exposure follows the parts that are not repaired; no other part of the chip does. -/
theorem Dev.fixExposure_chip : ∃ x dr, (v.fixExposure).chip = { v.chip with exposure := x, drain := dr } := by
  have hplatform : ∀ {u w : Dev}, w.platform = u.platform → ∀ {x : Exposure}, u.chip = { v.chip with exposure := x } →
      ∃ x dr, w.chip = { v.chip with exposure := x, drain := dr } := fun {u w} hw {x} hu =>
    ⟨x, w.chip.drain, (Dev.chip_of_platform hw).trans (by rw [hu])⟩
  have hmark : ∀ b : Bool, ((if b then v.markExposed (fun g => g.held) true else v).chip) = v.chip := fun b => by
    cases b <;> rfl
  unfold Dev.fixExposure
  dsimp only
  generalize hu : (if (v.exposureMask / 16 &&& v.chip.exposure.cause / 16 != v.exposureMask / 16) = true then
    v.markExposed (fun g => g.held) true else v) = u
  have hchip : u.chip = v.chip := hu ▸ hmark _
  rw [← hchip] at hplatform ⊢
  split
  · exact hplatform (Dev.noticeAll_platform ..) rfl
  · split
    · exact ⟨_, _, rfl⟩
    · split
      · exact hplatform ((foldl_platform (fun y c => y.completeCtx_platform ..) _ _).trans (Dev.noticeAll_platform ..)) rfl
      · exact ⟨u.chip.exposure, u.chip.drain, rfl⟩

/-- A part repaired is gone from the parts that are not, and no spire changes. -/
theorem Dev.partRepaired_chip (p : Part) : (v.partRepaired p).chip.unrepaired = v.chip.unrepaired.filter (fun x => x != p) ∧
    (v.partRepaired p).chip.spires = v.chip.spires := by
  unfold Dev.partRepaired
  split
  · obtain ⟨x, dr, h⟩ := Dev.fixExposure_chip (({ v with chip := { v.chip with
      unrepaired := v.chip.unrepaired.filter (fun x => x != p) } } : Dev).modeEvent .repaired)
    dsimp only
    rw [h]
    exact ⟨rfl, rfl⟩
  · rename_i hnot
    refine ⟨(List.filter_eq_self.mpr fun x hx => bne_iff_ne.mpr ?_).symm, rfl⟩
    rintro rfl
    exact hnot (List.elem_eq_true_of_mem hx)

end

theorem foldl_partRepaired_chip (l : List Part) (v : Dev) :
    (∀ p, p ∈ (l.foldl Dev.partRepaired v).chip.unrepaired ↔ p ∈ v.chip.unrepaired ∧ p ∉ l) ∧
    (l.foldl Dev.partRepaired v).chip.spires = v.chip.spires := by
  induction l generalizing v with
  | nil => exact ⟨fun p => ⟨fun h => ⟨h, List.not_mem_nil⟩, And.left⟩, rfl⟩
  | cons q l ih =>
    obtain ⟨hmem, hspires⟩ := ih (v.partRepaired q)
    obtain ⟨hunrepaired, hkept⟩ := v.partRepaired_chip q
    refine ⟨fun p => ?_, hspires.trans hkept⟩
    rw [List.foldl_cons, hmem p, hunrepaired, List.mem_filter, bne_iff_ne, List.mem_cons, not_or, and_assoc]

/-- The parts of a spire's memory banks. -/
def Part.bankOf (s : Spire) (p : Part) : Bool :=
  match p with
  | .bank t _ => t == s
  | _ => false

/-- A memory mirrored again has no bank to repair. -/
theorem execRemirrorComplete_mirrored {s : State} {sp : Spire} {x : SpireRec} (hx : s.dev.spire sp.val = x) (hremirror : x.remirror = true)
    (hup : x.state = .up) (hstack : s.dev.stackUp (partner sp.val) = true) : exec (.remirrorComplete sp) s = .next (s.withDev
      ((s.dev.chip.unrepaired.filter (Part.bankOf sp)).foldl Dev.partRepaired
        ((s.dev.remirror sp.val).setSpire sp.val { x with remirror := false }))) := by
  subst hx
  have hself : s.dev.spireUp sp.val = true := by rw [Dev.spireUp, hup]; rfl
  refine State.next_congr ?_
  simp only [hremirror, hself, hstack, Bool.and_self, if_true]
  rfl

end Sys2Proof.Machine

open Sys2Proof Sys2Proof.Machine

/-- Settles O25: each event under its guards; a stopped spire keeps its record through what its stop takes away. -/
theorem spireEvents : Obligations.SpireEvents := by
  intro s sp p w id x
  refine ⟨fun cause hmode hup => execSpireLoss_up hmode hup, fun h hsp => ?_, fun hdue hstate => ?_,
    fun b hx hstate hroles hlost hboot hstage => execRegionBootComplete_booted hx hstate hroles hlost hboot hstage, fun b hx hboot hstage => ?_,
    fun hx hremirror hup hstack => ?_, fun hx hremirror hup hstack hnone => ?_, fun hx hpeal hroles hremirror hunparked hup hcopies => ?_,
    fun hx hremirror => ?_, fun hx hup hidle henabled hlong => ?_, fun hx hp1 => ?_⟩
  · have hunhold : (w.unhold (fun src => srcRegion src == sp.val)).spire sp.val = w.spire sp.val := rfl
    have hspire := (w.unhold (fun src => srcRegion src == sp.val)).startRegionReset_spire sp.val
    have hrecov := (w.unhold (fun src => srcRegion src == sp.val)).startRegionReset_recov sp.val
    refine ⟨((w.unhold (fun src => srcRegion src == sp.val)).startRegionReset sp.val).setSpire sp.val
      { ((w.unhold (fun src => srcRegion src == sp.val)).startRegionReset sp.val).spire sp.val with resetCmd := some id },
      State.next_starts h (by rw [← hsp]), ?_, ?_, ?_, ?_, ?_⟩
    · rw [Dev.spire_setSpire, hspire]
      rfl
    · rw [Dev.spire_setSpire]
    · rw [Dev.spire_setSpire, hspire]
      rfl
    · rw [Dev.spire_setSpire, hspire]
      rfl
    · have hself : Fin.ofNat 4 sp.val = sp := Fin.ext (Nat.mod_eq_of_lt sp.isLt)
      rw [hself] at hrecov
      exact hrecov
  · exact State.next_congr (by simp only [hdue, bne_iff_ne.mpr hstate, Bool.and_self, if_true])
  · subst hx
    exact State.next_same (if_pos (by simp only [hboot, beq_eq_false_iff_ne.mpr hstage, Bool.not_false, Bool.or_true]))
  · obtain ⟨hmem, hspires⟩ := foldl_partRepaired_chip (s.dev.chip.unrepaired.filter (Part.bankOf sp))
      ((s.dev.remirror sp.val).setSpire sp.val { x with remirror := false })
    refine ⟨_, execRemirrorComplete_mirrored hx hremirror hup hstack, rfl, ?_, fun a ha => ?_⟩
    · have hkept : ∀ u y : Dev, u.chip.spires = y.chip.spires → u.spire sp.val = y.spire sp.val := fun u y h => by
        rw [Dev.spire, h]
        rfl
      rw [State.withDev_dev, hkept _ _ hspires, Dev.spire_setSpire]
    · obtain ⟨hin, hout⟩ := (hmem _).mp ha
      exact hout (List.mem_filter.mpr ⟨hin, beq_iff_eq.mpr rfl⟩)
  · have hempty : s.dev.chip.unrepaired.filter (Part.bankOf sp) = [] := List.filter_eq_nil_iff.mpr fun q hq hbank => by
      cases q with
      | bank t a => exact hnone a (beq_iff_eq.mp hbank ▸ hq)
      | _ => cases hbank
    rw [execRemirrorComplete_mirrored hx hremirror hup hstack, hempty]
    rfl
  · subst hx
    have hself : s.dev.spireUp sp.val = true := by rw [Dev.spireUp, hup]; rfl
    exact State.next_congr (by simp only [hpeal, hroles, hremirror, hunparked, hself, hcopies, Bool.not_false, Bool.and_self, if_true])
  · subst hx
    exact State.next_same (if_neg (by simp only [hremirror, Bool.not_true, Bool.and_false, Bool.false_and, Bool.false_eq_true, not_false_eq_true]))
  · subst hx
    have hself : s.dev.spireUp sp.val = true := by rw [Dev.spireUp, hup]; rfl
    exact State.next_congr (if_pos (by simp only [henabled, hself, hidle, hlong, decide_true, Bool.and_self]))
  · subst hx
    exact State.next_congr (if_pos hp1)

end


section
/-! SUPPORT. The timed events of a port (R293, R297, R301, R304). -/

namespace Sys2Proof.Machine

/-- A queue pair of a port whose policing has returned to METER mode. -/
theorem mem_setPolicer_off {v : Dev} {n : Nat} {e : Nat × Qp} (he : e ∈ v.hosts.qps) (hport : e.2.port.val = n) :
    (e.1, { e.2 with tpIn := e.2.profile.pbs * 65536 }) ∈ (v.setPolicer n false).hosts.qps := by
  refine List.mem_map.mpr ⟨e, he, ?_⟩
  rw [if_pos (beq_iff_eq.mpr hport)]
  rfl

theorem mem_setPolicer_other {v : Dev} {n : Nat} {on : Bool} {e : Nat × Qp} (he : e ∈ v.hosts.qps) (hport : e.2.port.val ≠ n) :
    e ∈ (v.setPolicer n on).hosts.qps := by
  refine List.mem_map.mpr ⟨e, he, ?_⟩
  rw [if_neg (fun h => hport (beq_iff_eq.mp h))]

/-- The gate of an output by its list at a bell. -/
theorem Dev.syncGate_frame (v : Dev) (n k bell : Nat) (e : Egress) : ∃ i d, v.syncGate n k bell e = { e with entry := i, left := d } := by
  unfold Dev.syncGate
  split
  · split
    · exact ⟨none, 0, rfl⟩
    · exact ⟨_, _, rfl⟩
  · exact ⟨none, 0, rfl⟩

theorem Dev.setEg_setEg (v : Dev) (n k : Nat) (e f : Egress) : (v.setEg n k e).setEg n k f = v.setEg n k f := by
  simp only [Dev.setEg, Tab.set_set]

/-- Frames that a new gate list never lets go leave their queue and are counted. -/
theorem Dev.dropStranded_frame (v : Dev) (n k : Nat) (e : Egress) : ∃ q p, (∀ f ∈ q, f ∈ e.queue) ∧
    (v.setEg n k e).dropStranded n k = { v.setEg n k { e with queue := q } with pmon := p } := by
  unfold Dev.dropStranded
  rw [Dev.eg_setEg]
  dsimp only
  split
  · exact ⟨e.queue, v.pmon, fun f hf => hf, rfl⟩
  · obtain ⟨p, hp⟩ := ((v.setEg n k e).setEg n k { e with queue := e.queue.filter ((v.setEg n k e).gateAdmits n k) }).count_frame (portSpire n) 0x01
      (n % 2) 0x015 (e.queue.length - (e.queue.filter ((v.setEg n k e).gateAdmits n k)).length)
    exact ⟨_, p, fun f hf => (List.mem_filter.mp hf).1, hp.trans (by rw [Dev.setEg_setEg])⟩

/-- A gate list that is due takes effect: its page, its version, the frames it strands and the gate of the bell. -/
theorem execGateListSwitch_due {s : State} {port : Port} {sub : Sub} {d : Nat} (hpeal : s.dev.atPeal = true)
    (hdue : (s.dev.page (subBase port.val sub.val + 0x1000)).due = some d) (hbell : s.dev.atBell d = true) :
    ∃ (re : RegFile) (e : Egress) (p : Pmon), exec (.gateListSwitch port sub) s = .next (s.withDev
        { s.dev.setEg port.val sub.val e with regs := re, pmon := p }) ∧
      e.gateVer = (s.dev.eg port.val sub.val).gateVer + 1 ∧ ∀ f ∈ e.queue, f ∈ (s.dev.eg port.val sub.val).queue := by
  obtain ⟨q, p, hq, hdrop⟩ := (s.dev.applyPage (subBase port.val sub.val + 0x1000)).dropStranded_frame port.val sub.val
    { s.dev.eg port.val sub.val with gateVer := (s.dev.eg port.val sub.val).gateVer + 1 }
  have hswitch := (show s.dev.switchGates port.val sub.val = ((s.dev.applyPage (subBase port.val sub.val + 0x1000)).setEg port.val sub.val
      { s.dev.eg port.val sub.val with gateVer := (s.dev.eg port.val sub.val).gateVer + 1 }).dropStranded port.val sub.val by
    unfold Dev.switchGates
    simp only [hdue, hbell, if_true]
    rfl).trans hdrop
  obtain ⟨i, l, hsync⟩ := (s.dev.switchGates port.val sub.val).syncGate_frame port.val sub.val 0
    { s.dev.eg port.val sub.val with gateVer := (s.dev.eg port.val sub.val).gateVer + 1, queue := q }
  refine ⟨(s.dev.applyPage (subBase port.val sub.val + 0x1000)).regs, { s.dev.eg port.val sub.val with
    gateVer := (s.dev.eg port.val sub.val).gateVer + 1, queue := q, entry := i, left := l }, p, State.next_congr ?_, rfl, hq⟩
  refine (if_pos hpeal).trans ?_
  have heg : (s.dev.switchGates port.val sub.val).eg port.val sub.val =
      { s.dev.eg port.val sub.val with gateVer := (s.dev.eg port.val sub.val).gateVer + 1, queue := q } := by
    rw [hswitch]
    exact Dev.eg_setEg _ port.val sub.val _
  dsimp only
  rw [heg, hsync, hswitch]
  refine Eq.trans ?_ (congrArg (fun u : Dev => { u with pmon := p }) (Dev.setEg_setEg (s.dev.applyPage (subBase port.val sub.val + 0x1000))
    port.val sub.val { s.dev.eg port.val sub.val with gateVer := (s.dev.eg port.val sub.val).gateVer + 1, queue := q } _))
  rfl

end Sys2Proof.Machine

open Sys2Proof Sys2Proof.Machine

/-- Settles O37: each event under its guards. -/
theorem portTiming : Obligations.PortTiming := by
  intro s port sub quanta q
  refine ⟨fun hpeal hpolicer hbound hforce => ?_, fun h => ?_, fun i m d t hen hsegs => ?_, fun hen => ?_, fun hpeal => ?_,
    fun d hpeal hdue hbell => ?_, fun hlink hfrozen => ?_, fun hlink => ?_, fun hsent hbell hbytes => ?_, fun hsent => ?_⟩
  · refine ⟨s.dev.setPolicer port.val false, State.next_congr (if_pos ?_), ?_, fun e he hport => mem_setPolicer_off he (congrArg Fin.val hport),
      fun e he hport => mem_setPolicer_other he (fun h => hport (Fin.ext h)), fun m hm => ?_, rfl, rfl, rfl, rfl, rfl⟩
    · simp only [hpeal, hpolicer, hbound, hforce, decide_true, Bool.not_false, Bool.and_self]
    · exact congrArg NetPort.policer (Dev.port_setPort s.dev port.val _)
    · exact Dev.port_setPort_ne s.dev _ hm
  · refine State.next_same (if_neg ?_)
    rcases h with h | h | h
    · simp only [h, Bool.not_true, Bool.and_false, Bool.false_eq_true, not_false_eq_true]
    · simp only [Nat.not_le.mpr h, decide_false, Bool.and_false, Bool.false_and, Bool.false_eq_true, not_false_eq_true]
    · simp only [h, Bool.false_and, Bool.false_eq_true, not_false_eq_true]
  · exact State.next_congr (by simp only [Dev.syncGate, hen, hsegs, if_true])
  · exact State.next_congr (by simp only [Dev.syncGate, hen, Bool.false_eq_true, if_false])
  · exact State.next_same (if_neg (by rw [hpeal]; exact Bool.false_ne_true))
  · obtain ⟨re, e, p, hexec, hver, hqueue⟩ := execGateListSwitch_due hpeal hdue hbell
    have heg : ({ s.dev.setEg port.val sub.val e with regs := re, pmon := p } : Dev).eg port.val sub.val = e := s.dev.eg_setEg ..
    exact ⟨_, hexec, by rw [heg, hver], by rw [heg]; exact hqueue, rfl, rfl, rfl, rfl, rfl, rfl⟩
  · exact State.next_congr (if_pos (by simp only [hlink, hfrozen, Bool.not_false, Bool.and_self]))
  · exact State.next_same (if_neg (by simp only [hlink, Bool.false_and, Bool.false_eq_true, not_false_eq_true]))
  · exact State.next_congr (if_pos (by simp only [hsent, hbell, hbytes, decide_true, Bool.and_self]))
  · exact State.next_same (if_neg (by simp only [hsent, Bool.false_and, Bool.false_eq_true, not_false_eq_true]))

end


section
/-! SUPPORT. Hot-swap channels: what a gate that goes off and a trip leave (R352, R356 to R366). -/

namespace Sys2Proof.Machine

/-- A bay's channel whose ramp is complete. -/
def Channel.powered (x : Channel) (now : Nat) : Channel := { x with state := .on, onSince := now, brk := [], pwrgd := true, pwrgdFor := 0 }

/-- A channel's gate off: its record, the power of its bay and the assay of its module. -/
theorem Dev.chanOff_frame (v : Dev) (c : Nat) (st : ChanState) : ∃ bays hums, v.chanOff c st =
    { v.setChan c ((v.chan c).gateOff v.now st) with store := { v.store with bays := bays, hums := hums } } := by
  have hpower : ∀ u : Dev, ∃ bays, u.syncPower c = { u with store := { u.store with bays := bays } } := fun u => by
    unfold Dev.syncPower
    split
    · exact ⟨u.store.bays, rfl⟩
    · exact ⟨_, rfl⟩
  have hassay : ∀ u : Dev, ∃ hums, u.stopAssay c = { u with store := { u.store with hums := hums } } := fun u => by
    unfold Dev.stopAssay
    split
    · exact ⟨_, rfl⟩
    · exact ⟨u.store.hums, rfl⟩
  obtain ⟨bays, hbays⟩ := hpower (v.setChan c ((v.chan c).gateOff v.now st))
  obtain ⟨hums, hhums⟩ := hassay ((v.setChan c ((v.chan c).gateOff v.now st)).syncPower c)
  exact ⟨bays, hums, hhums.trans (by rw [hbays]; rfl)⟩

/-- What a trip leaves of its channel. -/
def Dev.tripped (v : Dev) (c cause point : Nat) : Channel :=
  { (v.chan c).gateOff v.now (if min 15 ((v.chan c).tripCount + 1) ≤ v.chanCfg c 0x004 30 28 then .tripped else .lockedOff) with
    tripCount := min 15 ((v.chan c).tripCount + 1)
    lastCause := cause
    lastPoint := if cause = 1 then point else (v.chan c).lastPoint
    retryAt := if min 15 ((v.chan c).tripCount + 1) ≤ v.chanCfg c 0x004 30 28 then
      some (v.clk.elapsed + max 1 (v.chanCfg c 0x004 27 20) * 15625) else none }

theorem Dev.fault_chan (v : Dev) (type region inst d0 d1 d2 c : Nat) : (v.fault type region inst d0 d1 d2).chan c = v.chan c := by
  obtain ⟨fa, fc, ep, out, h⟩ := v.fault_frame type region inst d0 d1 d2
  rw [h]
  rfl

theorem Dev.chanOff_chan (v : Dev) (c : Nat) (st : ChanState) : (v.chanOff c st).chan c = (v.chan c).gateOff v.now st := by
  obtain ⟨bays, hums, h⟩ := v.chanOff_frame c st
  rw [h]
  exact v.chan_setChan c _

theorem Dev.chanOff_chan_ne (v : Dev) {c d : Nat} (st : ChanState) (hd : d ≠ c) : (v.chanOff c st).chan d = v.chan d := by
  obtain ⟨bays, hums, h⟩ := v.chanOff_frame c st
  rw [h]
  exact v.chan_setChan_ne _ hd

/-- A trip leaves its channel so, and changes no other. -/
theorem Dev.trip_chans (v : Dev) (c cause point : Nat) (current : Int) : (v.trip c cause point current).chan c = v.tripped c cause point ∧
    ∀ d, d ≠ c → (v.trip c cause point current).chan d = v.chan d := by
  have hfault : ∀ (again : Prop) [Decidable again] (u : Dev) (n d : Nat),
      (if again then u else u.fault 0x071 (chanRegion c) c c n 0).chan d = u.chan d := fun again _ u n d => by
    split
    · rfl
    · exact u.fault_chan ..
  unfold Dev.trip
  simp only [decide_eq_true_eq, hfault, Dev.fault_chan]
  refine ⟨?_, fun d hd => ?_⟩
  · rw [Dev.chan_setChan, Dev.chanOff_chan]
    rfl
  · rw [Dev.chan_setChan_ne _ _ hd, Dev.chanOff_chan_ne _ _ hd]

section
variable {s : State} {c : Chan} {x : Channel}

/-- A channel that ramps or is on, measured above its limit. -/
theorem execFastTrip_high {current : Int} {cause : Nat} (hx : s.dev.chan c.val = x) (hon : x.gateOn = true)
    (hcause : (if x.state == .ramp then 3 else 2) = cause) (hmeasured : s.dev.measured c.val = true)
    (hhigh : s.dev.fastLimit c.val < current.natAbs) :
    exec (.fastTrip c current) s = .next (s.withDev <| s.dev.trip c.val cause 0 current) := by
  subst hx hcause
  exact State.next_congr (if_pos (by simp only [hon, hmeasured, hhigh, decide_true, Bool.true_or, Bool.and_self]))

/-- A hold-up module's channel whose pass transistor has failed stays shorted. -/
theorem execPassTransistorFault_hum (hx : s.dev.chan c.val = x)
    (hstate : x.state = .off ∨ x.state = .wait ∨ x.state = .tripped ∨ x.state = .lockedOff) (hmeasured : s.dev.measured c.val = true)
    (hfor : 4 ≤ x.shortFor) (hhum : 32 ≤ c.val) : ∃ t, exec (.passTransistorFault c) s = .next t ∧ t.pending = s.pending ∧
      (t.dev.chan c.val).state = .shorted ∧ t.dev.regs = s.dev.regs ∧ t.dev.hosts = s.dev.hosts ∧ t.dev.chip = s.dev.chip := by
  subst hx
  have hoff : ((s.dev.chan c.val).state == .off || (s.dev.chan c.val).state == .wait || (s.dev.chan c.val).state == .tripped ||
      (s.dev.chan c.val).state == .lockedOff) = true := by
    rcases hstate with h | h | h | h <;> rw [h] <;> rfl
  have hhum' : isHum c.val = true := decide_eq_true hhum
  obtain ⟨bays, hums, hchan⟩ := s.dev.chanOff_frame c.val .shorted
  obtain ⟨fa, fc, ep, out, hfault⟩ := ((s.dev.chanOff c.val .shorted).setChan c.val
    { (s.dev.chan c.val).gateOff s.dev.now .shorted with shortFor := 0 }).fault_frame 0x075 (chanRegion c.val) c.val c.val
      (BitVec.ofInt 32 (s.dev.chan c.val).current).toNat 0
  refine ⟨s.withDev (((s.dev.chanOff c.val .shorted).setChan c.val { (s.dev.chan c.val).gateOff s.dev.now .shorted with shortFor := 0 }).fault
    0x075 (chanRegion c.val) c.val c.val (BitVec.ofInt 32 (s.dev.chan c.val).current).toNat 0), State.next_congr ?_, rfl, ?_, ?_⟩
  · simp only [hoff, hmeasured, hfor, hhum', decide_true, Bool.and_self, if_true]
  · rw [State.withDev_dev, Dev.fault_chan, Dev.chan_setChan]
    rfl
  · rw [State.withDev_dev, hfault, hchan]
    exact ⟨rfl, rfl, rfl⟩

end

end Sys2Proof.Machine

open Sys2Proof Sys2Proof.Machine

/-- Settles O28: each event in the state that takes it. -/
theorem channelStart : Obligations.ChannelStart := by
  intro s b h c x
  refine ⟨fun hsampling hx hseen hpresent hfor => ?_, fun hsampling hx hseen hpresent hfor => ?_, fun d hx hfrom hpresent hmeasured hbell => ?_,
    fun hx hstate hramp hturn => ?_, fun hx hstate hramp hturn => ?_, fun hramp => ⟨?_, ?_⟩, fun hx hstate hfull hhum => ?_,
    fun hx hstate hfull hbay => ?_, fun hx hrun hstate hgood hoff hfor hcfg => ?_, fun hx hfor => ?_⟩
  · subst hx
    exact State.next_congr (if_pos (by simp only [hsampling, hseen, hpresent, Dev.debounce, hfor, decide_true, Bool.not_false, Bool.and_self]))
  · subst hx
    exact State.next_congr (if_pos (by simp only [hsampling, hseen, hpresent, Dev.debounce, hfor, decide_true, Bool.not_false, Bool.and_self]))
  · subst hx
    have hat : s.dev.atBell (d + s.dev.chanCfg b.val 0x00C 31 16 * pealBells) = true := by
      rw [Dev.atBell, decide_eq_true (show d + s.dev.chanCfg b.val 0x00C 31 16 * pealBells ≤ s.dev.now from hbell), Bool.true_or]
    exact State.next_congr (by simp only [hfrom, hpresent, hmeasured, hat, Bool.and_self, if_true, Dev.now])
  · subst hx
    exact State.next_congr (by simp only [hstate, BEq.rfl, if_true, Dev.startRamp, hramp, hturn, Bool.and_self])
  · subst hx
    exact State.next_congr (by simp only [hstate, BEq.rfl, if_true, Dev.startRamp, hramp, hturn, Bool.and_self])
  · exact State.next_same (by simp only [Dev.startRamp, hramp, Bool.false_and, Bool.false_eq_true, if_false, ite_self])
  · exact State.next_same (by simp only [Dev.startRamp, hramp, Bool.false_and, Bool.false_eq_true, if_false, ite_self])
  · subst hx
    have hhum' : isHum c.val = true := decide_eq_true hhum
    exact State.next_congr (by simp only [hstate, hfull, BEq.rfl, decide_true, Bool.and_self, if_true, Dev.syncPower, hhum', Bool.not_true, Dev.now])
  · subst hx
    have hhum : isHum c.val = false := decide_eq_false (Nat.not_le.mpr hbay)
    have hexec : exec (.rampComplete c) s = .next (s.withDev ((s.dev.setChan c.val ((s.dev.chan c.val).powered s.dev.clk.elapsed)).syncPower c.val)) :=
      State.next_congr (by simp only [hstate, hfull, BEq.rfl, decide_true, Bool.and_self, if_true, hhum, Bool.not_false, Dev.now]; rfl)
    rw [Dev.syncPower, hhum, if_neg Bool.false_ne_true, Dev.chan_setChan] at hexec
    exact ⟨_, hexec, rfl, s.dev.chan_setChan c.val _, congrArg BayRec.powerGood (Tab.getD_set ..), rfl, rfl, rfl⟩
  · subst hx
    exact State.next_congr (if_pos (by simp only [hrun, hstate, hgood, hoff, Nat.max_le.mpr ⟨hfor, hcfg⟩, BEq.rfl, decide_true, Bool.not_false,
      Bool.and_self]))
  · subst hx
    have hnot : ¬ max 3052 (s.dev.chanCfg b.val 0x014 15 0) ≤ (s.dev.chan b.val).pwrgdFor := fun hmax =>
      absurd (Nat.le_trans (Nat.le_max_left ..) hmax) (Nat.not_le.mpr hfor)
    exact State.next_same (if_neg (by simp only [hnot, decide_false, Bool.and_false, Bool.false_eq_true, not_false_eq_true]))

end

section
open Sys2Proof Sys2Proof.Machine

/-- Settles O29: the trips of each state of a channel, and what a trip leaves. -/
theorem channelTrips : Obligations.ChannelTrips := by
  refine ⟨fun s c point current x => ⟨fun hx hstate hmeasured hhigh => ?_, fun hx hstate hmeasured hhigh => ?_,
    fun hx hstate hmeasured hset hhigh => ?_, fun hx hstate hfull hone hfor => ?_, fun hmeasured => ⟨?_, ?_⟩, fun hx hstate hbell => ?_,
    fun hx hstate hmeasured hfor hhum => execPassTransistorFault_hum hx hstate hmeasured hfor hhum⟩, fun v c cause point current hc => ?_⟩
  · exact execFastTrip_high hx (by rw [Channel.gateOn, hstate]; rfl) (by rw [hstate]; rfl) hmeasured hhigh
  · exact execFastTrip_high hx (by rw [Channel.gateOn, hstate]; rfl) (by rw [hstate]; rfl) hmeasured hhigh
  · subst hx
    exact State.next_congr (if_pos (by simp only [hstate, hmeasured, bne_iff_ne.mpr hset, hhigh, BEq.rfl, decide_true, Bool.and_self]))
  · subst hx
    exact State.next_congr (if_pos (by simp only [hstate, hfull, Nat.max_le.mpr ⟨hone, hfor⟩, BEq.rfl, decide_true, Bool.and_self]))
  · exact State.next_same (if_neg (by simp only [hmeasured, Bool.and_false, Bool.false_and, Bool.false_eq_true, not_false_eq_true]))
  · exact State.next_same (if_neg (by simp only [hmeasured, Bool.and_false, Bool.false_and, Bool.false_eq_true, not_false_eq_true]))
  · subst hx
    have hat : s.dev.atBell ((s.dev.chan c.val).onSince + s.dev.cfgBits 0x8004 31 16 * pealBells) = true := hbell
    exact State.next_congr (if_pos (by rw [hstate, hat]; rfl))
  · obtain ⟨htripped, hother⟩ := v.trip_chans c cause point current
    refine ⟨?_, ?_, ?_, ?_, fun hagain => ⟨?_, ?_⟩, fun hlast => ⟨?_, ?_⟩, hother⟩
    all_goals rw [htripped]
    · exact rfl
    · exact rfl
    · exact rfl
    · exact rfl
    · exact if_pos hagain
    · exact if_pos hagain
    · exact if_neg (Nat.not_le.mpr hlast)
    · exact if_neg (Nat.not_le.mpr hlast)

end


section
/-! SUPPORT. Energy credit: allotments share out no more than is free (R146 to R150), and the assays (R142 to R145). -/

namespace Sys2Proof.Machine

theorem div_add_div_le (a b c : Nat) : a / c + b / c ≤ (a + b) / c := by
  rcases Nat.eq_zero_or_pos c with rfl | hc
  · simp only [Nat.div_zero, Nat.add_zero, Nat.le_refl]
  · rw [Nat.le_div_iff_mul_le hc, Nat.add_mul]
    exact Nat.add_le_add (Nat.div_mul_le_self a c) (Nat.div_mul_le_self b c)

/-- Shares of a whole by weight, each rounded down, come to no more than the whole. -/
theorem sum_shares_le (rest want a b c d : Nat) (h : a + b + c + d = want) :
    rest * a / want + rest * b / want + rest * c / want + rest * d / want ≤ rest := by
  have hsum : rest * a / want + rest * b / want + rest * c / want + rest * d / want ≤ rest * want / want := by
    calc rest * a / want + rest * b / want + rest * c / want + rest * d / want
        ≤ (rest * a + rest * b) / want + rest * c / want + rest * d / want := 
          Nat.add_le_add_right (Nat.add_le_add_right (div_add_div_le ..) _) _
      _ ≤ (rest * a + rest * b + rest * c) / want + rest * d / want := Nat.add_le_add_right (div_add_div_le ..) _
      _ ≤ (rest * a + rest * b + rest * c + rest * d) / want := div_add_div_le ..
      _ = rest * want / want := by rw [← h, Nat.mul_add, Nat.mul_add, Nat.mul_add]
  exact Nat.le_trans hsum (Nat.div_le_of_le_mul (Nat.le_of_eq (Nat.mul_comm ..)))

/-- What is given, and what is given beside it within a bound. -/
theorem capped_sum_le {g1 g2 g3 g4 w1 w2 w3 w4 s1 s2 s3 s4 free : Nat} (hg : g1 + g2 + g3 + g4 ≤ free)
    (hs : s1 + s2 + s3 + s4 ≤ free - (g1 + g2 + g3 + g4)) :
    g1 + min w1 s1 + (g2 + min w2 s2) + (g3 + min w3 s3) + (g4 + min w4 s4) ≤ free := by
  omega

/-- The allotments of four homes come to no more than the free credit. -/
theorem allotments_sum_le (free a b c d : Nat) : ∃ x y z w, allotments free [a, b, c, d] = [x, y, z, w] ∧ x + y + z + w ≤ free := by
  refine ⟨_, _, _, _, rfl, ?_⟩
  simp only [List.map_cons, List.map_nil, List.foldl_cons, List.foldl_nil, List.zip_cons_cons, List.zip_nil_right, Nat.zero_add]
  have hshares := sum_shares_le (free - (min a (free / 4) + min b (free / 4) + min c (free / 4) + min d (free / 4)))
    (a - min a (free / 4) + (b - min b (free / 4)) + (c - min c (free / 4)) + (d - min d (free / 4))) _ _ _ _ rfl
  have hquarter : ∀ n : Nat, min n (free / 4) ≤ free / 4 := fun n => Nat.min_le_right ..
  have ha := hquarter a
  have hb := hquarter b
  have hc := hquarter c
  have hd := hquarter d
  have hfree : 4 * (free / 4) ≤ free := Nat.mul_div_le ..
  split
  · omega
  · exact capped_sum_le (by omega) hshares

/-- The allotments that the Keeps compute. -/
def Dev.nextAllot (v : Dev) : Tab Nat :=
  (List.range 4).map (fun i => (i, (allotments (v.limitNow - v.outGrains) ((List.range 4).map v.demand)).getD i 0))

theorem Dev.nextAllot_sum_le (v : Dev) : Tab.getD v.nextAllot 0 0 + Tab.getD v.nextAllot 1 0 + Tab.getD v.nextAllot 2 0 +
    Tab.getD v.nextAllot 3 0 ≤ v.limitNow - v.outGrains := by
  obtain ⟨x, y, z, w, hallot, hsum⟩ := allotments_sum_le (v.limitNow - v.outGrains) (v.demand 0) (v.demand 1) (v.demand 2) (v.demand 3)
  have hnext : v.nextAllot = [(0, x), (1, y), (2, z), (3, w)] := by
    unfold Dev.nextAllot
    rw [show (List.range 4).map v.demand = [v.demand 0, v.demand 1, v.demand 2, v.demand 3] from rfl, hallot]
    rfl
  rw [hnext]
  exact hsum

/-- The credit of a device whose exposure the limit covers. -/
def Dev.credited (v : Dev) : Dev :=
  { v with store := { v.store with credit :=
    { v.store.credit with limit := v.limitNow, out := v.outGrains, deficit := false, next := v.nextAllot } } }

theorem execCreditCompute_covered {s : State} (hmode : s.dev.mode ≠ .held) (hhold : s.dev.chip.keeps.holdOut = false)
    (hout : s.dev.outGrains ≤ s.dev.limitNow) : exec .creditCompute s = .next (s.withDev (s.dev.reachNs 448).credited) := by
  have hheld : ¬((s.dev.reachNs 448).mode == .held || (s.dev.reachNs 448).chip.keeps.holdOut) = true := by
    rw [show ((s.dev.reachNs 448).mode == Mode.held) = false from beq_eq_false_iff_ne.mpr hmode,
      show (s.dev.reachNs 448).chip.keeps.holdOut = false from hhold]
    exact Bool.false_ne_true
  have hlimit : ¬(s.dev.reachNs 448).limitNow < (s.dev.reachNs 448).outGrains := Nat.not_lt.mpr hout
  refine State.next_congr ((if_neg hheld).trans ((if_neg hlimit).trans ?_))
  simp only [hlimit, decide_false]
  rfl

end Sys2Proof.Machine

open Sys2Proof Sys2Proof.Machine

/-- Settles O31: the assay by its phases; the credit by the bound on its allotments. -/
theorem energyCredit : Obligations.EnergyCredit := by
  intro s h u
  refine ⟨fun hu hwanted => ?_, fun hwanted => ?_, fun x hu hx hassay hinput hhealthy hidle hcut hend hout hup hvault hfenced => ?_,
    fun x mv uj n cap hu hx hassay hserial hvout hmv hecap hcap hmin => ?_, fun x hu hx hvout => ?_, fun hmode hhold hns => ?_,
    fun hmode hhold hout hns => ?_⟩
  · subst hu
    exact State.next_congr (if_pos hwanted)
  · exact State.next_same (if_neg (by rw [hwanted]; exact Bool.false_ne_true))
  · subst hu hx
    exact State.next_congr (if_pos (by simp only [hassay, hinput, hhealthy, hidle, hcut, hend, Nat.lt_trans hcut hend, hout, hup, bne_iff_ne.mpr hvault,
      bne_iff_ne.mpr hfenced, BEq.rfl, decide_true, Bool.not_false, Bool.and_self]))
  · subst hu hx
    have hden : mv * mv - s.dev.vAssayEnd * s.dev.vAssayEnd ≠ 0 := by
      have := Nat.mul_self_lt_mul_self hmv
      omega
    have hassayCap : s.dev.assayCap mv uj (s.dev.chan (32 + h.val)).energyOut = (cap, s.dev) := by
      rw [hcap]
      exact if_neg hden
    refine State.next_congr ?_
    simp only [hassay, hserial, Nat.not_lt.mpr hvout, if_false, hassayCap, hecap, hmin, decide_true, Bool.and_self, if_true]
    rfl
  · subst hu hx
    refine State.next_same ?_
    dsimp only
    split
    · exact if_pos hvout
    · rfl
  · have hheld : ((s.dev.reachNs 448).mode == .held || (s.dev.reachNs 448).chip.keeps.holdOut) = true := by
      rw [show (s.dev.reachNs 448).chip.keeps.holdOut = true from hhold, Bool.or_true]
    refine State.next_congr ((if_pos hheld).trans ?_)
    rw [Dev.reachNs, show max s.dev.clk.ns (min 448 511) = 448 by omega]
  · have hns' : (s.dev.reachNs 448).clk.ns = 448 := by
      show max s.dev.clk.ns (min 448 511) = 448
      omega
    exact ⟨_, execCreditCompute_covered hmode hhold hout, rfl, rfl, rfl, rfl, (s.dev.reachNs 448).nextAllot_sum_le, hns', rfl, rfl, rfl, rfl⟩

end


section
/-! SUPPORT. Counters and snapshots (R434 to R444). -/

namespace Sys2Proof.Machine

theorem b2n_mul_eq_ite (b : Bool) (n : Nat) : b2n b * n = if b = true then n else 0 := by
  cases b with
  | true => exact Nat.one_mul n
  | false => exact Nat.zero_mul n

/-- The words of a running counter and of its shadow. -/
theorem Dev.pmonWord_counter {v : Dev} {off r b o : Nat} {c : Counter} (hat : pmonAt off = some (r, b, o)) (ho : 0x40 ≤ o)
    (heven : o % 8 = 0) (hc : v.counter (counterKey r b ((o - 0x40) % 0x40 / 8)) = c) : v.pmonWord off = some (if o < 0x80
      then (c.value.setWidth 32, some (BitVec.ofNat 32 ((if c.ovf then 2 ^ 31 else 0) + c.value.toNat / 2 ^ 32)))
      else (c.shadow.setWidth 32, some (BitVec.ofNat 32 ((if c.shadowOvf then 2 ^ 31 else 0) + c.shadow.toNat / 2 ^ 32)))) := by
  subst hc
  have hword : ¬ o < 0x20 := by omega
  simp only [Dev.pmonWord, hat, hword, if_false, heven, if_true, counterLo, counterHi, b2n_mul_eq_ite]
  split <;> rfl

end Sys2Proof.Machine

open Sys2Proof Sys2Proof.Machine

/-- Settles O23: the commands by the counter they name; the work at the bell by what is due. -/
theorem countersAndSnapshots : Obligations.CountersAndSnapshots := by
  refine ⟨fun s p w id => ⟨fun b key h hparam hok => ?_, fun b key h hparam hbad => ?_, fun b key h hparam => ?_, fun h => ?_,
    fun off value r b o hmode hat ho hkeep => ?_, fun r b k c ev t hsnap hk hc hnext hcmds hbell => ?_, fun hdue hcmds => ?_,
    fun seq b rest hwrites hon => ?_⟩, fun v off r b o c hat ho heven hc => Dev.pmonWord_counter hat ho heven hc⟩
  · exact State.next_starts h (by simp only [hparam, hok, if_true]; rfl)
  · exact State.next_starts h (by simp only [hparam, hbad, Bool.false_eq_true, if_false])
  · exact State.next_starts h (by simp only [hparam, b2n_mul_eq_ite])
  · exact State.next_starts h rfl
  · refine State.next_congr ((if_neg (fun h => hmode (beq_iff_eq.mp h))).trans ?_)
    simp only [Dev.writePmon, hat, ho, if_true, hkeep, Bool.false_eq_true, if_false]
    rfl
  · subst hc
    have hat : s.dev.atBell (t + 1) = true := by
      rw [Dev.atBell, decide_eq_true (show t + 1 ≤ s.dev.now from hbell), Bool.true_or]
    refine State.next_congr ?_
    simp only [hsnap, Bool.false_eq_true, if_false, hk, if_true, Dev.applySelection, hnext, hat, hcmds, List.foldl_nil]
  · have htake : exec .snapshotCopy s = .next (s.withDev s.dev.takeSnapshot) := State.next_congr (if_pos hdue)
    unfold Dev.takeSnapshot at htake
    dsimp only at htake
    rw [hcmds, List.foldl_nil] at htake
    refine ⟨_, htake, rfl, rfl, rfl, fun key c hmem hvalid => List.mem_map.mpr ⟨(key, c), hmem, if_pos hvalid⟩, rfl⟩
  · exact State.next_congr (by simp only [hwrites, hon, if_true])

end

section
/-! SUPPORT. Key slots: copies, and a key blob that is loaded (R310 to R316). -/

namespace Sys2Proof.Machine

theorem Dev.sendCopies_frame (v : Dev) (slot : Nat) (key : List Byte) : ∃ ci, v.sendCopies slot key = { v with ciphers := ci } := by
  unfold Dev.sendCopies
  generalize [0, 1, 2, 3] = l
  induction l generalizing v with
  | nil => exact ⟨v.ciphers, rfl⟩
  | cons n l ih =>
    rw [List.foldl_cons]
    split
    · obtain ⟨ci, h⟩ := ih (v.setCipher n ((v.cipher n).addCopy slot key))
      exact ⟨ci, h⟩
    · exact ih v

/-- A slot that a key blob has filled. -/
def Dev.loadedSlot (w : Dev) (n : Nat) (b key : List Byte) : KeySlot :=
  { state := .loaded, generation := ((w.keySlot n).generation + 1) % 2 ^ 32, claim := field b 2 2, conn := bit (field b 4 1) 2
    decrypt := bit (field b 4 1) 1, encrypt := bit (field b 4 1) 0, keyId := BitVec.ofNat 64 (field b 8 8)
    limit := BitVec.ofNat 64 (field b 16 8), epoch := BitVec.ofNat 32 (field b 24 4), key := key
    version := (w.keySlot n).version, usable := false, revokeCmds := [], notified := 0 }

/-- The device once a key blob has filled a slot, before its command completes. -/
def Dev.keyLoaded (w : Dev) (n : Nat) (b key : List Byte) : Dev :=
  ((w.sendCopies n key).setKeySlot n (w.loadedSlot n b key)).queueUpdate .keySlot n .keyUsable none

/-- A key blob for an empty slot, of a key without a lease record, is loaded where it unwraps. -/
theorem execKeyLoad_new {s : State} {p : Packet} {w : Dev} {id : Nat} (h : Starts s.dev 0x0301 p w id) (hlife : w.sec.lifecycle = .provisioned)
    (hdebug : w.sec.debug ≠ .open_) (hslot : p.u16 0 ≤ 8191) (hempty : (w.keySlot (p.u16 0)).state = .empty)
    (hform : blobFormOk w (p.bytes 104) = true) (hlease : w.leaseOf (BitVec.ofNat 64 (field (p.bytes 104) 8 8)) = none) :
    ∃ r2, exec (.keyLoad p) s = .next (s.withDev <| (match w.unwrapBlob (p.bytes 104) with
      | none => w.fail id stAuthFail
      | some key => (w.keyLoaded (p.u16 0) (p.bytes 104) key).finishOk id (((w.keySlot (p.u16 0)).generation + 1) % 2 ^ 32) 0 r2).skipHeads
        p.src) := by
  have hlife' : (w.sec.lifecycle != .provisioned) = false := by rw [hlife]; rfl
  have hopen : (w.sec.debug == .open_) = false := beq_eq_false_iff_ne.mpr hdebug
  have hempty' : ((w.keySlot (p.u16 0)).state != .empty) = false := by rw [hempty]; rfl
  have hslot' : decide (8191 < p.u16 0) = false := decide_eq_false (Nat.not_lt.mpr hslot)
  cases hkey : w.unwrapBlob (p.bytes 104) with
  | none =>
    refine ⟨0, State.next_starts h ?_⟩
    simp only [hlife', hopen, hempty', hslot', hform, hkey, Bool.not_true, Bool.or_self, Bool.false_eq_true, if_false]
  | some key =>
    obtain ⟨ci, hci⟩ := w.sendCopies_frame (p.u16 0) key
    have hnone : ∀ k, ((w.sendCopies (p.u16 0) key).setKeySlot (p.u16 0) k).leaseOf (BitVec.ofNat 64 (field (p.bytes 104) 8 8)) = none :=
      fun k => by
        rw [hci]
        exact hlease
    have hnone' : (w.keyLoaded (p.u16 0) (p.bytes 104) key).leaseOf (BitVec.ofNat 64 (field (p.bytes 104) 8 8)) = none :=
      hnone (w.loadedSlot (p.u16 0) (p.bytes 104) key)
    refine ⟨b2n ((w.keyLoaded (p.u16 0) (p.bytes 104) key).mayEncrypt (p.u16 0)), State.next_starts h ?_⟩
    simp only [hlife', hopen, hempty', hslot', hform, hkey, hnone, Bool.not_true, Bool.or_self, Bool.false_eq_true, if_false]
    unfold Dev.keyLoaded Dev.loadedSlot at hnone' ⊢
    rw [hnone']

/-- The spire of a core that has failed. -/
def SpireRec.coreFailed (x : SpireRec) (core : Fin 12) : SpireRec :=
  { x with cores := x.cores ||| BitVec.ofNat 12 (2 ^ core.val), gangLead := leadOf (x.cores ||| BitVec.ofNat 12 (2 ^ core.val)) }

/-- The device with a core out. -/
def Dev.withCoreOut (v : Dev) (sp : Spire) (core : Fin 12) : Dev :=
  v.setSpire sp.val ((v.spire sp.val).coreFailed core)

/-- The device once the fault of a core is recorded. -/
def Dev.coreFaulted (v : Dev) (sp : Spire) (core : Fin 12) : Dev :=
  (v.withCoreOut sp core).free32.2.faultIn
    ⟨srcOf 0x010 sp.val (0x60 * 64 + core.val), some 2, 0xFFFF, 0, 0, 0x60, BitVec.ofNat 32 core.val, (v.withCoreOut sp core).free32.1⟩ false

/-- A core that fails is out, and the fault is recorded; below five cores the whole complex is. -/
theorem execCipherCoreFault_sound {s : State} {sp : Spire} {core : Fin 12} (hcore : (s.dev.spire sp.val).cores.getLsbD core.val = false) :
    ∃ t, exec (.cipherCoreFault sp core) s = .next t ∧
      t.pending = s.pending ∧ (t.dev.spire sp.val).cores = (s.dev.spire sp.val).cores ||| BitVec.ofNat 12 (2 ^ core.val) ∧
      (t.dev.spire sp.val).gangLead = leadOf ((s.dev.spire sp.val).cores ||| BitVec.ofNat 12 (2 ^ core.val)) ∧
      t.dev.hosts = s.dev.hosts ∧ t.dev.store = s.dev.store ∧ t.dev.keySlots = s.dev.keySlots ∧ t.dev.leases = s.dev.leases ∧
      t.dev.regs = s.dev.regs := by
  obtain ⟨u, hexec, fa, fc, ep, out, ft, hu⟩ : ∃ u, exec (.cipherCoreFault sp core) s = .next (s.withDev u) ∧ ∃ fa fc ep out ft,
      u = { s.dev.setSpire sp.val ((s.dev.spire sp.val).coreFailed core) with faults := fa, fcLast := fc, ep := ep, out := out, freeTick := ft } := by
    obtain ⟨fa, fc, ep, out, hfault⟩ := (s.dev.withCoreOut sp core).free32.2.faultIn_frame
      ⟨srcOf 0x010 sp.val (0x60 * 64 + core.val), some 2, 0xFFFF, 0, 0, 0x60, BitVec.ofNat 32 core.val, (s.dev.withCoreOut sp core).free32.1⟩ false
    by_cases hfew : ((List.range 12).filter fun c => !((s.dev.spire sp.val).cores ||| BitVec.ofNat 12 (2 ^ core.val)).getLsbD c).length < 5
    · obtain ⟨fa', fc', ep', out', hfault'⟩ := (s.dev.coreFaulted sp core).free32.2.fault_frame 0x011 sp.val 0x60
        (s.dev.coreFaulted sp core).free32.1.toNat 0 0
      refine ⟨_, State.next_congr ((if_neg (by rw [hcore]; exact Bool.false_ne_true)).trans (if_pos hfew)), fa', fc', ep', out',
        (s.dev.coreFaulted sp core).free32.2.freeTick,
        hfault'.trans ?_⟩
      rw [Dev.coreFaulted, hfault]
      rfl
    · exact ⟨_, State.next_congr ((if_neg (by rw [hcore]; exact Bool.false_ne_true)).trans (if_neg hfew)), fa, fc, ep, out, _, hfault⟩
  have hspire : u.spire sp.val = (s.dev.spire sp.val).coreFailed core := by
    rw [hu]
    exact s.dev.spire_setSpire sp.val _
  refine ⟨_, hexec, rfl, ?_, ?_, ?_⟩
  · rw [State.withDev_dev, hspire]
    rfl
  · rw [State.withDev_dev, hspire]
    rfl
  · rw [State.withDev_dev, hu]
    exact ⟨rfl, rfl, rfl, rfl, rfl⟩

section
variable {s : State} {p : Packet} {w : Dev} {id : Nat}

/-- The revocation of a loaded slot that no session is to be told of. -/
theorem execKeyRevoke_loaded (h : Starts s.dev 0x0302 p w id) {k : KeySlot} (hk : w.keySlot (p.u16 0 % 8192) = k) (hstate : k.state = .loaded)
    (hupdates : ∀ u ∈ w.hosts.updates, u.table ≠ .keySlot) (hsessions : ∀ e ∈ w.hosts.sessions, e.2.claim ≠ k.claim) :
    exec (.keyRevoke p) s = .next (s.withDev <| ((w.setKeySlot (p.u16 0 % 8192)
      { k with revokeCmds := k.revokeCmds ++ [id], notified := 0 }).queueUpdate .keySlot (p.u16 0 % 8192) .keyRevoke none).skipHeads p.src) := by
  have hpending : w.hosts.updates.any (fun u => u.table == .keySlot && u.key == p.u16 0 % 8192 && u.act == .keyRevoke) = false :=
    List.any_eq_false.mpr fun u hu => by
      rw [beq_eq_false_iff_ne.mpr (hupdates u hu), Bool.false_and, Bool.false_and]
      exact Bool.false_ne_true
  have hnone : w.hosts.sessions.filter (fun e => e.2.claim == k.claim) = [] :=
    List.filter_eq_nil_iff.mpr fun e he hclaim => hsessions e he (beq_iff_eq.mp hclaim)
  have hloaded : (k.state == .empty) = false ∧ (k.state == .revoking) = false := by rw [hstate]; exact ⟨rfl, rfl⟩
  refine State.next_starts h ?_
  simp only [hk, hloaded.1, hloaded.2, hpending, hnone, Bool.or_self, Bool.false_eq_true, if_false, List.map_nil, List.length_nil,
    Dev.noticeEach, List.foldl_nil]

end

end Sys2Proof.Machine

open Sys2Proof Sys2Proof.Machine

/-- Settles O17: each command by its checks, in their order. -/
theorem keyCommands : Obligations.KeyCommands := by
  refine ⟨fun s p w id => ⟨fun h hlife => ?_, fun h hempty => ?_, fun h k => execKeyRevoke_loaded h, fun h k hk => ?_, fun h => ⟨_, State.next_starts h rfl⟩,
    fun h x hx hpaths hunbind => ?_, fun h x d k hx hpaths hbind hd hprotect hk hstate hconn hclaim => ?_, fun h hx => ?_⟩,
    fun s p w id => execKeyLoad_new⟩
  · refine State.next_starts h ?_
    simp only [bne_iff_ne.mpr hlife, Bool.true_or, if_true]
  · refine State.next_starts h ?_
    simp only [hempty, BEq.rfl, if_true]
  · subst hk
    refine State.next_starts h ?_
    cases hstate : (w.keySlot (p.u16 0 % 8192)).state <;> simp only [hstate] <;> rfl
  · refine State.next_starts h ?_
    simp only [hx, hpaths, hunbind, Bool.false_eq_true, if_false, if_true]
  · subst hk
    refine State.next_starts h ?_
    simp only [hx, hpaths, hbind, hd, hprotect, hstate, hconn, hclaim, BEq.rfl, Bool.and_self, Bool.false_eq_true, if_false, if_true]
  · refine State.next_starts h ?_
    simp only [hx]

/-- Settles O18: each event under its guards. -/
theorem keyEvents : Obligations.KeyEvents := by
  intro s sp slot
  refine ⟨fun hstate hholders => ?_, fun hstate => ?_, fun n l r hstate henc hepoch hup hnone hlease hnext hl => ?_, fun hstate ok => ?_,
    fun k test hsound hsource => ?_, fun hmode hroot hA hB hbell => ?_, fun h => ?_, fun core hcore => ?_⟩
  · exact State.next_congr (if_pos (by rw [hstate, hholders]; rfl))
  · exact State.next_same (if_neg (by rw [beq_eq_false_iff_ne.mpr hstate]; exact Bool.false_ne_true))
  · subst hl
    have hself : s.dev.spireUp sp.val = true := by rw [Dev.spireUp, hup]; rfl
    have hencrypts : s.dev.slotEncrypts (s.dev.keySlot slot) = true := by
      rw [Dev.slotEncrypts, henc, Bool.true_or, Bool.true_and]
      exact decide_eq_true hepoch
    refine State.next_congr ?_
    simp only [hstate, henc, hencrypts, hself, hnone, Dev.takeLease, hlease, hnext, bne_self_eq_false, Bool.not_true, Bool.and_self, Bool.or_self,
      Bool.false_eq_true, if_false, if_true]
    rfl
  · refine State.next_same (if_pos ?_)
    rw [bne_iff_ne.mpr hstate]
    rfl
  · refine State.next_congr ((if_pos (by rw [hsound, hsource]; rfl)).trans ?_)
    cases k <;> rfl
  · have hat : s.dev.atBell (s.dev.chip.rng.fedAt + 125 * pealBells) = true := by
      rw [Dev.atBell, decide_eq_true (show s.dev.chip.rng.fedAt + 125 * pealBells ≤ s.dev.now from hbell), Bool.true_or]
    exact State.next_congr (if_pos (by simp only [bne_iff_ne.mpr hmode, hroot, hA, hB, hat, Bool.not_false, Bool.and_self]))
  · refine State.next_same (if_neg ?_)
    rcases h with h | h
    · simp only [h, Bool.not_true, Bool.and_false, Bool.false_and, Bool.false_eq_true, not_false_eq_true]
    · simp only [h, Bool.not_true, Bool.and_false, Bool.false_and, Bool.false_eq_true, not_false_eq_true]
  · exact execCipherCoreFault_sound hcore

end



section
/-! SUPPORT. The writing of a ring's reply (R398). -/
namespace Sys2Proof.Machine

/-- A vector raised changes the endpoint and what is put out only, and takes back nothing put out. -/
theorem Dev.raiseVec_out (v : Dev) (p : Pf) (n : Nat) :
    ∃ ep out, v.raiseVec p n = { v with ep := ep, out := v.out ++ out } := by
  unfold Dev.raiseVec
  dsimp only
  split
  · exact ⟨v.ep, _, rfl⟩
  · cases p <;> exact ⟨_, [], by rw [List.append_nil]; rfl⟩

/-- A ring that signals counts anew; what stands in its place keeps its other parts. -/
theorem Dev.ringSignal_setRing (w : Dev) (r : Nat) (y : Ring) :
    ∃ (ep : Endpoint) (out : List Out) (z : Ring), z.n = y.n ∧ (w.setRing r y).ringSignal r =
      { w.setRing r z with ep := ep, out := w.out ++ out } := by
  obtain ⟨ep, out, h⟩ := Dev.raiseVec_out ((w.setRing r y).setRing r { (w.setRing r y).ring r with counted := 0, firstAt := none }) .pf0 r
  have hring : (w.setRing r y).ring r = y := Tab.getD_set ..
  rw [hring] at h
  refine ⟨ep, out, { y with counted := 0, firstAt := none }, rfl, ?_⟩
  rw [Dev.ringSignal, hring, h]
  simp only [Dev.setRing, Tab.set_set]

/-- What a ring puts out for a reply: its data and its status slot with its phase. -/
def Dev.replyOuts (v : Dev) (r : Nat) (x : Reply) : List Out :=
  (if x.data.isEmpty then [] else [.dataOut x.ptr x.data]) ++
    [.reply r (BitVec.ofNat 64 (v.stBase r + 32 * ((v.ring r).n % v.ringEntries r))) (x.bytes ((v.ring r).n / v.ringEntries r % 2 == 0))]

/-- A reply of a ring takes the next status slot, is put out behind its data, and may signal the ring. -/
theorem Dev.writeRingReply_frame (v : Dev) (r : Nat) (x : Reply) :
    ∃ (ep : Endpoint) (out : List Out) (z : Ring), z.n = (v.ring r).n + 1 ∧ v.writeRingReply r x =
      { v.setRing r z with ep := ep, out := v.out ++ v.replyOuts r x ++ out } := by
  have hput : Dev.emit (if x.data.isEmpty then v else v.emit (.dataOut x.ptr x.data)) (.reply r
      (BitVec.ofNat 64 (v.stBase r + 32 * ((v.ring r).n % v.ringEntries r))) (x.bytes ((v.ring r).n / v.ringEntries r % 2 == 0))) =
      { v with out := v.out ++ v.replyOuts r x } := by
    unfold Dev.replyOuts
    split
    · rfl
    · simp only [Dev.emit, List.append_assoc]
  unfold Dev.writeRingReply
  dsimp only
  rw [hput]
  generalize hy : (if x.noInt then ({ v.ring r with n := (v.ring r).n + 1 } : Ring) else
    { v.ring r with n := (v.ring r).n + 1, counted := (v.ring r).counted + 1, firstAt := some ((v.ring r).firstAt.getD v.mono) }) = y
  have hn : y.n = (v.ring r).n + 1 := by
    rw [← hy]
    split <;> rfl
  split
  · obtain ⟨ep, out, z, hz, h⟩ := Dev.ringSignal_setRing { v with out := v.out ++ v.replyOuts r x } r y
    exact ⟨ep, out, z, hz.trans hn, h⟩
  · exact ⟨v.ep, [], y, hn, by rw [List.append_nil]; rfl⟩

/-- The device with a reply taken from those that wait. -/
def Dev.withoutReply (v : Dev) (x : Reply) : Dev :=
  { v with floder := { v.floder with replies := dropFirst (fun y => y == x) v.floder.replies } }

end Sys2Proof.Machine

open Sys2Proof Sys2Proof.Machine

/-- Settles O35: the reply found is taken from its queue and written on the way of its source. -/
theorem repliesAreWritten : Obligations.RepliesAreWritten := by
  intro s r x
  refine ⟨fun hfind hsrc => ?_, fun src hnone => ?_, fun hfind hsrc hmay => ?_, fun hfind hsrc hmay => ?_⟩
  · exact State.next_congr (by simp only [hfind, hsrc] <;> rfl)
  · exact State.next_same (by simp only [hnone])
  · exact State.next_same (by simp only [hfind, hsrc, hmay] <;> rfl)
  · obtain ⟨ep, out, z, hz, hwrite⟩ := (s.dev.withoutReply x).writeRingReply_frame r.val x
    have hput : ∀ o, o ∈ s.dev.replyOuts r.val x → o ∈ s.dev.out ++ s.dev.replyOuts r.val x ++ out := fun o ho =>
      List.mem_append_left _ (List.mem_append_right _ ho)
    have hexec : exec (.floderReplyWrite (.ring r)) s =
        .next (s.withDev (((s.dev.withoutReply x).writeRingReply r.val x).skipHeads (.ring r))) :=
      State.next_congr (by simp only [hfind, hsrc, hmay, Bool.not_true, Bool.false_eq_true, if_false] <;> rfl)
    rw [hwrite] at hexec
    refine ⟨_, hexec, ?_, fun hdata => ?_, (congrArg Ring.n (Tab.getD_set ..)).trans hz, rfl, rfl, rfl, rfl, rfl⟩
    · exact hput _ (List.mem_append_right _ (List.mem_singleton_self _))
    · refine hput _ (List.mem_append_left _ ?_)
      rw [if_neg (by rwa [List.isEmpty_iff])]
      exact List.mem_singleton_self _
end

section
open Sys2Proof Sys2Proof.Machine

/-- Settles O45: a session command that starts is judged by its fields and by the session it names. -/
theorem sessionCommands : Obligations.SessionCommands := by
  intro s p w id
  refine ⟨fun h hbad => ?_, fun h hn hc hlow hhigh hzero hclaim hnew => ?_, fun h hbad => ?_, fun h x hx hopen hctx hwin => ?_,
    fun h hnone => ?_, fun h x hx hanchor => ?_, fun h x a hx hanchor => ?_⟩
  · refine State.next_starts h (if_neg fun hall => ?_)
    simp only [Bool.and_eq_true, decide_eq_true_eq, Option.isNone_iff_eq_none] at hall
    obtain ⟨⟨⟨⟨⟨⟨hn, -⟩, hhigh⟩, hlow⟩, -⟩, hclaim⟩, hnew⟩ := hall
    rcases hbad with hbad | hbad | hbad | hbad | hbad
    · omega
    · omega
    · omega
    · rw [hbad] at hclaim
      exact Bool.false_ne_true hclaim
    · exact hbad hnew
  · exact ⟨_, State.next_starts h (if_pos (by simp only [hn, hc, hlow, hhigh, hzero, hclaim, hnew, decide_true, Option.isNone_none, Bool.and_self])),
      rfl, rfl, rfl, rfl, rfl, rfl, rfl, rfl, rfl, rfl, rfl, rfl, rfl, rfl⟩
  · refine State.next_starts h ?_
    cases hx : w.session (p.u16 0 % 8192) with
    | none => simp only [hx]
    | some x => simp only [hx, hbad x hx, if_true]
  · have hwindows : w.hosts.windows.filter (fun e => e.2.session == p.u16 0 % 8192) = [] :=
      List.filter_eq_nil_iff.mpr fun e he heq => hwin e he (eq_of_beq heq)
    refine State.next_starts h ?_
    simp only [hx, hopen, hctx, Option.isSome_none, Bool.false_eq_true, if_false, List.filterMap_nil, List.filter_nil, List.foldl_nil]
    rw [show (w.setSession (p.u16 0 % 8192) _).hosts.windows = w.hosts.windows from rfl, hwindows, ← hctx]
    rfl
  · exact State.next_starts h (by simp only [hnone])
  · exact State.next_starts h (by simp only [hx, hanchor, Option.isSome_none, Bool.false_eq_true, if_false, Nat.mul_zero, Nat.add_zero])
  · exact State.next_starts h (by simp only [hx, hanchor, Option.isSome_some, if_true])

end

section
/-! SUPPORT. Unexpected immediates (R257). -/
namespace Sys2Proof.Machine

/-- The immediates of a session that have not aged. -/
def Dev.freshUnexp (v : Dev) (x : Session) : List Unexp :=
  x.unexpected.filter fun u => !(v.atBell (max (u.arrived + 1) (u.arrived + v.spireCfg (v.anchor x) 6 0x40008 15 0 * pealBells)))

theorem execUnexpAged_of_session {s : State} {sn : Nat} {x : Session} (hx : s.dev.session sn = some x) :
    exec (.unexpAged sn) s = .next (s.withDev (if x.unexpected.length - (s.dev.freshUnexp x).length = 0 then s.dev else
      (s.dev.setSession sn { x with unexpected := s.dev.freshUnexp x }).count (s.dev.anchor x) 0x08 0 0x005
        (x.unexpected.length - (s.dev.freshUnexp x).length))) :=
  State.next_congr (by simp only [hx] <;> rfl)

theorem Dev.session_adjSession_ne (v : Dev) {sn m : Nat} (f : Session → Session) (hm : m ≠ sn) : (v.adjSession sn f).session m = v.session m :=
  (Tab.get_adjust ..).trans (if_neg hm)

end Sys2Proof.Machine

open Sys2Proof Sys2Proof.Machine

/-- Settles O49: what a wait for a tag meets, and the filters that age contexts, immediates and spent ones. -/
theorem tagWaits : Obligations.TagWaits := by
  intro s p w id sn tag x v tagw mask fields
  have hfields : fields → (decide (8191 < p.u16 0) || p.u16 2 != 0 || !(allZero (slice p.params 16 32))) = false := fun ⟨hsn, hres, hzero⟩ => by
    simp only [Nat.not_lt.mpr hsn, hres, hzero, decide_false, bne_self_eq_false, Bool.not_true, Bool.or_self]
  refine ⟨fun h hbad => ?_, fun h hf hx hmgmt => ?_, fun u rest h hf hx hmgmt hopen hun hhit => ?_, fun h hf hx hmgmt hopen hun hroom hlife => ?_,
    fun h hf hx hmgmt hopen hun hroom hlife => ?_, fun c t hss hctx hkind hdue => ?_, fun hnone => ?_, ?_, fun hx => ?_⟩
  · refine State.next_starts h ?_
    by_cases hform : (decide (8191 < p.u16 0) || p.u16 2 != 0 || !(allZero (slice p.params 16 32))) = true
    · exact if_pos hform
    · refine (if_neg hform).trans ?_
      have hnone : w.session (p.u16 0) = none := by
        simp only [Bool.or_eq_true, decide_eq_true_eq, bne_iff_ne, not_or] at hform
        obtain ⟨⟨hsn, hres⟩, -⟩ := hform
        exact (hbad.resolve_left hsn).resolve_left hres
      simp only [hnone]
  · exact State.next_starts h (by simp only [hfields hf, hx, hmgmt, Bool.false_eq_true, if_false, Bool.not_false, if_true])
  · have hfind : x.unexpected.find? (fun y => (y.imm ^^^ tagw) &&& ~~~mask == 0) = some u := by
      rw [hun]
      exact List.find?_cons_of_pos (beq_iff_eq.mpr hhit)
    have hdrop : dropFirst (fun y : Unexp => (y.imm ^^^ tagw) &&& ~~~mask == 0) x.unexpected = rest := by
      rw [hun]
      exact if_pos (beq_iff_eq.mpr hhit)
    exact State.next_starts h (by simp only [hfields hf, hx, hmgmt, hopen, Bool.false_eq_true, if_false, Bool.not_true, Option.isSome_none,
      show x.unexpected.find? (fun y => (y.imm ^^^ BitVec.ofNat 32 (p.u32 4)) &&& ~~~BitVec.ofNat 32 (p.u32 8) == 0) = some u from hfind,
      show dropFirst (fun y : Unexp => (y.imm ^^^ BitVec.ofNat 32 (p.u32 4)) &&& ~~~BitVec.ofNat 32 (p.u32 8) == 0) x.unexpected = rest from hdrop])
  · exact State.next_starts h (by simp only [hfields hf, hx, hmgmt, hopen, hun, Nat.not_le.mpr hroom, hlife, Bool.false_eq_true, if_false,
      Bool.not_true, Option.isSome_none, List.find?_nil] <;> rfl)
  · exact State.next_starts h (by simp only [hfields hf, hx, hmgmt, hopen, hun, Nat.not_le.mpr hroom, hlife, Bool.false_eq_true, if_false,
      Bool.not_true, Option.isSome_none, List.find?_nil, if_true])
  · refine State.next_congr ((if_pos ?_).trans ?_)
    · simp only [show s.dev.hosts.sessions = _ from hss, List.any_cons, hctx, hkind, show s.dev.atBell t = true from hdue, beq_self_eq_true, Bool.and_self,
        Bool.true_or]
    · simp only [show s.dev.hosts.sessions = _ from hss, List.map_cons, List.map_nil, List.filter_cons, List.filter_nil, hctx, hkind,
        show s.dev.atBell t = true from hdue, beq_self_eq_true, Bool.and_self, Bool.not_true, Bool.false_eq_true, if_false] <;> rfl
  · refine State.next_same (if_neg fun hany => ?_)
    obtain ⟨e, he, hdue⟩ := List.any_eq_true.mp hany
    rw [hnone e he] at hdue
    exact Bool.false_ne_true hdue
  · refine ⟨_, rfl, rfl, fun y hy => ⟨_, (Dev.session_adjSession ..).trans (congrArg (Option.map _) hy), rfl, rfl, fun e => ?_⟩, fun m hm => ?_⟩
    · simp only [List.mem_filter, Bool.not_eq_true', Bool.and_eq_false_iff, beq_eq_false_iff_ne, decide_eq_false_iff_not, Classical.not_and_iff_not_or_not]
      rfl
    · exact Dev.session_adjSession_ne s.dev _ hm
  · have hexec := execUnexpAged_of_session (s := s) hx
    by_cases hgone : x.unexpected.length - (s.dev.freshUnexp x).length = 0
    · refine ⟨s, hexec.trans (State.next_same (if_pos hgone)), rfl, x, hx, ?_, rfl, rfl⟩
      exact (List.Sublist.eq_of_length_le List.filter_sublist (Nat.sub_eq_zero_iff_le.mp hgone)).symm
    · refine ⟨_, hexec.trans (State.next_congr (if_neg hgone)), rfl, { x with unexpected := s.dev.freshUnexp x }, ?_, rfl, rfl, rfl⟩
      exact (congrArg (fun h : Hosts => Tab.get h.sessions sn) (Dev.count_hosts ..)).trans (Dev.session_setSession ..)
end



section
/-! SUPPORT. What a fault event leaves in its record (R377 to R380). -/
namespace Sys2Proof.Machine

/-- The counting of a window moves the window and what it raises only. -/
theorem FaultRec.counted_frame (r : FaultRec) (n esc w stamp : Nat) : ∃ ws wo wc ri es eb ho, r.counted n esc w stamp =
    { r with winStart := ws, winOpenBell := wo, winCount := wc, rising := ri, escalations := es, escBell := eb, heldOut := ho } := by
  unfold FaultRec.counted
  split
  · by_cases hzero : r.winCount = 0
    · exact ⟨stamp, n, satAdd 0xFFFF r.winCount 1, r.rising, r.escalations, r.escBell, r.heldOut, by simp only [hzero, if_true]⟩
    · exact ⟨r.winStart, r.winOpenBell, satAdd 0xFFFF r.winCount 1, r.rising, r.escalations, r.escBell, r.heldOut, by simp only [hzero, if_false]⟩
  · dsimp only
    generalize hopen : (if (r.winCount == 0 || decide (r.winOpenBell + max (w * pealBells) 1 ≤ n)) = true then
      ({ r with winStart := stamp, winOpenBell := n, winCount := 0 } : FaultRec) else r) = q
    obtain ⟨ws, wo, wc, hq⟩ : ∃ ws wo wc, q = { r with winStart := ws, winOpenBell := wo, winCount := wc } := by
      rw [← hopen]
      split
      · exact ⟨_, _, _, rfl⟩
      · exact ⟨r.winStart, r.winOpenBell, r.winCount, rfl⟩
    rw [hq]
    split
    · split
      · exact ⟨_, _, _, _, _, _, _, rfl⟩
      · split
        · exact ⟨_, _, _, _, _, _, _, rfl⟩
        · exact ⟨_, _, _, _, _, _, _, rfl⟩
    · exact ⟨_, _, _, _, _, _, _, rfl⟩

/-- The record an event fills or marks, before it is classed. -/
def FaultRec.taken (r : FaultRec) (e : FaultEv) : FaultRec :=
  if !r.captured then
    { r with captured := true, master := e.info.master, access := e.info.access, firstStamp := e.stamp, address := e.info.address,
             detail0 := e.info.detail0, detail1 := e.info.detail1, detail2 := e.info.detail2, firstStep := e.step, injected := e.injected }
  else { r with overflow := true }

/-- The record an event is counted in. -/
def FaultRec.met (r : FaultRec) (e : FaultEv) : FaultRec :=
  { r.taken e with count := satAdd 0xFFFF (r.taken e).count 1, lastStamp := e.stamp, lastStep := e.step, recovered := false }

/-- A record under the class of an event of its source, and whether the source is to react. -/
def FaultRec.classed (r : FaultRec) (own : Nat) (first : Bool) : FaultRec :=
  if r.cls < own then { r with cls := own, escalations := satAdd 0xFFFF r.escalations 1, react := true }
  else if r.cls = 3 then if r.heldOut || r.resetDue then r else { r with react := true }
  else if first && decide (2 ≤ r.cls) then { r with react := true }
  else r

theorem FaultRec.event_eq (r : FaultRec) (e : FaultEv) (n : Nat) (esc w : Nat → Nat) : r.event e n esc w =
    ((r.met e).classed ((e.info.cls).getD r.base) (!r.captured)).counted n (esc ((r.met e).classed ((e.info.cls).getD r.base) (!r.captured)).cls)
      (w ((r.met e).classed ((e.info.cls).getD r.base) (!r.captured)).cls) e.stamp := rfl

/-- The class of an event raises that of the record, and never lowers it. -/
theorem FaultRec.classed_frame (r : FaultRec) (own : Nat) (first : Bool) :
    ∃ cls es re, own ≤ cls ∧ r.cls ≤ cls ∧ r.classed own first = { r with cls := cls, escalations := es, react := re } := by
  unfold FaultRec.classed
  split
  next hlow => exact ⟨own, satAdd 0xFFFF r.escalations 1, true, Nat.le_refl _, Nat.le_of_lt hlow, rfl⟩
  next hlow =>
    have hown : own ≤ r.cls := Nat.not_lt.mp hlow
    split
    · split
      · exact ⟨r.cls, r.escalations, r.react, hown, Nat.le_refl _, rfl⟩
      · exact ⟨r.cls, r.escalations, true, hown, Nat.le_refl _, rfl⟩
    · split
      · exact ⟨r.cls, r.escalations, true, hown, Nat.le_refl _, rfl⟩
      · exact ⟨r.cls, r.escalations, r.react, hown, Nat.le_refl _, rfl⟩

/-- An event classes the record it is counted in no lower than its own class and than the record's, and moves the count of
the window. -/
theorem FaultRec.event_frame (r : FaultRec) (e : FaultEv) (n : Nat) (esc w : Nat → Nat) :
    ∃ cls re ws wo wc ri es eb ho, (e.info.cls).getD r.base ≤ cls ∧ (r.met e).cls ≤ cls ∧ r.event e n esc w = { r.met e with
      cls := cls, react := re, winStart := ws, winOpenBell := wo, winCount := wc, rising := ri, escalations := es, escBell := eb, heldOut := ho } := by
  obtain ⟨cls, es, re, hown, hcls, hclassed⟩ := (r.met e).classed_frame ((e.info.cls).getD r.base) (!r.captured)
  rw [FaultRec.event_eq, hclassed]
  obtain ⟨ws, wo, wc, ri, es', eb, ho, hcounted⟩ := FaultRec.counted_frame { r.met e with cls := cls, escalations := es, react := re } n (esc cls) (w cls) e.stamp
  exact ⟨cls, re, ws, wo, wc, ri, es', eb, ho, hown, hcls, hcounted⟩

/-- The class of a record is not what an event fills in. -/
theorem FaultRec.met_cls (r : FaultRec) (e : FaultEv) : (r.met e).cls = r.cls := by
  unfold FaultRec.met FaultRec.taken
  split <;> rfl

theorem FaultRec.met_source (r : FaultRec) (e : FaultEv) : (r.met e).source = r.source := by
  unfold FaultRec.met FaultRec.taken
  split <;> rfl

theorem FaultRec.met_captured (r : FaultRec) (e : FaultEv) : (r.met e).captured = true := by
  unfold FaultRec.met FaultRec.taken
  split
  · rfl
  next h => exact Bool.not_eq_false _ ▸ (Bool.not_eq_true' _ ▸ h)

theorem FaultRec.met_count (r : FaultRec) (e : FaultEv) : (r.met e).count = min 0xFFFF (r.count + 1) := by
  unfold FaultRec.met FaultRec.taken
  split <;> rfl

/-- An event at a record that holds none fills it. -/
theorem FaultRec.met_of_clear (r : FaultRec) (e : FaultEv) (h : r.captured = false) :
    (r.met e).master = e.info.master ∧ (r.met e).access = e.info.access ∧ (r.met e).address = e.info.address ∧
      (r.met e).detail0 = e.info.detail0 ∧ (r.met e).detail1 = e.info.detail1 ∧ (r.met e).detail2 = e.info.detail2 ∧
      (r.met e).firstStamp = e.stamp ∧ (r.met e).overflow = r.overflow := by
  unfold FaultRec.met FaultRec.taken
  rw [h]
  exact ⟨rfl, rfl, rfl, rfl, rfl, rfl, rfl, rfl⟩

/-- An event at a record that holds one marks it. -/
theorem FaultRec.met_of_captured (r : FaultRec) (e : FaultEv) (h : r.captured = true) :
    (r.met e).overflow = true ∧ (r.met e).detail0 = r.detail0 ∧ (r.met e).firstStamp = r.firstStamp := by
  unfold FaultRec.met FaultRec.taken
  rw [h]
  exact ⟨rfl, rfl, rfl⟩

/-- A cell of a source is tried again: its recovery lease is taken at most. -/
theorem Dev.cellRetry_frame (v : Dev) (src : BitVec 32) : ∃ re, v.cellRetry src = { v with recov := re } := by
  unfold Dev.cellRetry
  dsimp only
  split
  · exact ⟨_, rfl⟩
  · exact ⟨v.recov, rfl⟩

/-- A fault event at a source whose record none is clearing leaves the event in the record. -/
theorem Dev.faultIn_record {v : Dev} {f : FaultInfo} {r : FaultRec} (hrec : v.faultRec f.source = some r) (hclear : r.clearing = none)
    (injected : Bool) : ∃ fc ep out, v.faultIn f injected = { v with
      faults := Tab.set v.faults f.source.toNat { r.event ⟨f, v.stamp, v.step16, injected⟩ v.now v.escN v.escW with
        recent := r.recent ++ [⟨f, v.stamp, v.step16, injected⟩] }, fcLast := fc, ep := ep, out := out } := by
  unfold Dev.faultIn
  simp only [hrec, hclear, Option.isSome_none, Bool.false_and, Bool.false_eq_true, if_false]
  obtain ⟨fc, ep, out, h⟩ := Dev.noteFault_frame { v with
      faults := Tab.set v.faults f.source.toNat { r.event ⟨f, v.stamp, v.step16, injected⟩ v.now v.escN v.escW with
        recent := r.recent ++ [⟨f, v.stamp, v.step16, injected⟩] } } r (r.event ⟨f, v.stamp, v.step16, injected⟩ v.now v.escN v.escW)
  exact ⟨fc, ep, out, h⟩

end Sys2Proof.Machine

open Sys2Proof Sys2Proof.Machine

/-- Settles O24: the commands by the record of their source; an event by the frame of the record it leaves. -/
theorem faultRecords : Obligations.FaultRecords := by
  refine ⟨fun s p w id r => ⟨fun h hrec => ?_, fun h hrec => ?_, fun h hrec hcls hclear => ?_, fun h hrec hcls => ?_, fun l h hsrc hl hlen => ?_,
    fun h hsrc hopen => ?_, fun h hsrc hdebug hblank => ?_⟩, fun s f r hmode h2 h4 hrec hclear => ?_⟩
  · exact State.next_starts h (by simp only [hrec])
  · exact State.next_starts h (by simp only [hrec])
  · have hfatal : (decide (r.cls = 4) || decide (r.cls = 3) && !r.recovered) = false := by
      rcases hcls with hlow | ⟨hthree, hrecovered⟩
      · simp only [Nat.ne_of_lt hlow, Nat.ne_of_lt (Nat.lt_succ_of_lt hlow), decide_false, Bool.false_and, Bool.or_self]
      · simp only [hthree, hrecovered, Nat.reduceEqDiff, decide_false, Bool.not_true, Bool.and_false, Bool.or_self]
    exact State.next_starts h (by simp only [hrec, hfatal, hclear, Option.isSome_none, Bool.false_eq_true, if_false])
  · have hfatal : (decide (r.cls = 4) || decide (r.cls = 3) && !r.recovered) = true := by
      rcases hcls with hfour | ⟨hthree, hrecovered⟩
      · simp only [hfour, decide_true, Bool.true_or]
      · simp only [hthree, hrecovered, decide_true, Bool.not_false, Bool.and_self, Bool.or_true]
    exact State.next_starts h (by simp only [hrec, hfatal, if_true])
  · refine State.next_starts h ?_
    simp only [Option.isNone_iff_eq_none, Option.isSome_iff_ne_none.mp hsrc, if_false]
    rw [← hl, List.take_of_length_le hlen, List.drop_eq_nil_of_le hlen]
    rfl
  · refine State.next_starts h ?_
    have hrefused : (w.sec.debug != .open_ && w.sec.lifecycle != .blank) = false := by
      rcases hopen with hopen | hblank
      · rw [hopen]; rfl
      · rw [hblank, bne_self_eq_false, Bool.and_false]
    simp only [Option.isNone_iff_eq_none, Option.isSome_iff_ne_none.mp hsrc, hrefused, Bool.false_eq_true, if_false]
  · refine State.next_starts h ?_
    simp only [Option.isNone_iff_eq_none, Option.isSome_iff_ne_none.mp hsrc, if_false, bne_iff_ne.mpr hdebug, bne_iff_ne.mpr hblank, Bool.and_self, if_true]
  · obtain ⟨fc, ep, out, hfault⟩ := Dev.faultIn_record hrec hclear false
    obtain ⟨re, hretry⟩ := (s.dev.faultIn f false).cellRetry_frame f.source
    obtain ⟨cls, react, ws, wo, wc, ri, es, eb, ho, hown, hcls, hevent⟩ :=
      r.event_frame ⟨f, s.dev.stamp, s.dev.step16, false⟩ s.dev.now s.dev.escN s.dev.escW
    rw [FaultRec.met_cls] at hcls
    have hexec : exec (.faultEvent f) s = .next (s.withDev { s.dev.faultIn f false with recov := re }) := by
      refine State.next_congr ((if_neg fun hheld => hmode (eq_of_beq hheld)).trans ?_)
      rw [Dev.eventLoss, hretry]
      simp only [h2, h4, decide_false, Bool.or_self, Bool.false_and, Bool.false_eq_true, if_false]
    rw [hfault, hevent] at hexec
    let e : FaultEv := ⟨f, s.dev.stamp, s.dev.step16, false⟩
    exact ⟨_, _, hexec, rfl, Tab.get_set .., r.met_captured e, r.met_count e, rfl, rfl, hown, hcls, r.met_source e,
      r.met_of_clear e, r.met_of_captured e, rfl, rfl, rfl, rfl, rfl, rfl, rfl⟩
end

section
/-! SUPPORT. The judging of a capsule at ingress (R25, R119, R226). -/
namespace Sys2Proof.Machine

/-- The device once a capsule has left the ingress. -/
def Dev.withoutWaiting (v : Dev) (op : Byte) (d : Delivered) : Dev :=
  { v with hosts := { v.hosts with inbox := dropFirst (fun y => y.is op d) v.hosts.inbox } }

/-- What becomes of a CREATE at the ingress, the flow control of its port checked. -/
def Dev.judgedCreate (v u : Dev) (sn : Nat) (x : Session) (m : Waiting) : Dev :=
  if !u.serving then u.answer sn m.msg stBusyMode noExt 0 0
  else if !(capsuleOk .create m.msg.cap (u.plainLen x m.msg)) then
    (if x.tallyStep m.msg.cap.tally == .fresh then u.refuseTallied sn 0x01 m.msg stInvalidField noExt 0
     else u.answer sn m.msg stInvalidField noExt 0 0)
  else if !(v.forwardable x .create m.msg) then v
  else
    match x.tallyStep m.msg.cap.tally with
    | .refuse st => (if st = stStaleTally then u.count (u.anchor x) 0x02 0 0x006 1 else u).answer sn m.msg st noExt 0 0
    | .answered r => u.answerRecord sn m.msg r
    | .wait => { u with hosts := { u.hosts with dups := u.hosts.dups ++ [(sn, m.msg)] } }
    | .fresh => u.queueCapsule sn x .create m

theorem execCreate_judged {s : State} {d : Delivered} {m : Waiting} {x : Session} {sn : Nat} {q : Qp} {u : Dev}
    (hfind : s.dev.hosts.inbox.find? (fun y => y.is 0x01 d) = some m) (hqp : s.dev.qp m.msg.qp = some q) (hsn : q.session = sn)
    (hx : s.dev.session sn = some x) (hu : (s.dev.withoutWaiting 0x01 d).pfcCheck q.port.val = u) :
    exec (.create d) s = .next (s.withDev (s.dev.judgedCreate u sn x m)) := by
  have hqp' : (s.dev.withoutWaiting 0x01 d).qp m.msg.qp = some q := hqp
  have hsession : (s.dev.withoutWaiting 0x01 d).sessionOf m.msg.qp = some sn := by rw [Dev.sessionOf, hqp', Option.map_some, hsn]
  have hx' : (s.dev.withoutWaiting 0x01 d).session sn = some x := hx
  unfold Dev.withoutWaiting at hqp' hsession hx' hu
  refine State.next_congr ?_
  unfold Dev.capsule
  simp only [hfind, hsession, hx', hqp', hu, CmdKind.tallied, Bool.true_and, if_true] <;> rfl

end Sys2Proof.Machine

open Sys2Proof Sys2Proof.Machine

/-- Settles O51: the mode, the fields, the way and the tally, in that order. -/
theorem capsuleChecks : Obligations.CapsuleChecks := by
  intro s d0 m x sn q r u
  refine ⟨fun hnone => State.next_same (by simp only [Dev.capsule, hnone]), fun hfind hqp hsn hx hu => ?_⟩
  rw [execCreate_judged hfind hqp hsn hx hu]
  refine ⟨fun hserving => ?_, fun hserving hform => ⟨fun hfresh => ?_, fun hstale => ?_⟩, fun hserving hform hway => ?_,
    fun hserving hform hway => ⟨fun hclass => ?_, fun hclass => ?_, fun hclass hflight => ?_, fun hclass hrec => ?_⟩⟩
  · exact State.next_congr (by simp only [Dev.judgedCreate, hserving, Bool.not_false, if_true])
  · exact State.next_congr (by simp only [Dev.judgedCreate, hserving, hform, hfresh, Bool.not_true, Bool.false_eq_true, if_false, Bool.not_false, if_true,
      beq_self_eq_true])
  · exact State.next_congr (by simp only [Dev.judgedCreate, hserving, hform, beq_false_of_ne hstale, Bool.not_true, Bool.false_eq_true, if_false,
      Bool.not_false, if_true])
  · exact State.next_same (by simp only [Dev.judgedCreate, hserving, hform, hway, Bool.not_true, Bool.false_eq_true, if_false, Bool.not_false, if_true])
  · have hstep : x.tallyStep m.msg.cap.tally = .refuse stStaleTally := by simp only [Session.tallyStep, hclass]
    exact State.next_congr (by simp only [Dev.judgedCreate, hserving, hform, hway, hstep, Bool.not_true, Bool.false_eq_true, if_false, if_true])
  · have hstep : x.tallyStep m.msg.cap.tally = .refuse stTallyAhead := by simp only [Session.tallyStep, hclass]
    have hother : stTallyAhead ≠ stStaleTally := by decide
    exact State.next_congr (by simp only [Dev.judgedCreate, hserving, hform, hway, hstep, hother, Bool.not_true, Bool.false_eq_true, if_false])
  · have hstep : x.tallyStep m.msg.cap.tally = .wait := by simp only [Session.tallyStep, hclass, hflight]
    exact State.next_congr (by simp only [Dev.judgedCreate, hserving, hform, hway, hstep, Bool.not_true, Bool.false_eq_true, if_false])
  · have hstep : x.tallyStep m.msg.cap.tally = .answered r := by simp only [Session.tallyStep, hclass, hrec]
    exact State.next_congr (by simp only [Dev.judgedCreate, hserving, hform, hway, hstep, Bool.not_true, Bool.false_eq_true, if_false])
end



section
/-! SUPPORT. What the hold of a path leaves of the queue pairs, the ports and the paths (R236, R239). -/
namespace Sys2Proof.Machine

/-! ### Sessions whose paths only fall -/

/-- Every path of `y` is one of `x`, on the same queue pair, and is live only where that one was. -/
structure Session.Calms (x y : Session) : Prop where
  all : ∀ p ∈ y.paths, ∃ p' ∈ x.paths, p'.qp = p.qp ∧ (p.state = .live → p'.state = .live)
  first : ∀ m p, y.pathOf m = some p → ∃ p', x.pathOf m = some p' ∧ (p.state = .live → p'.state = .live)

theorem Session.Calms.of_paths {x y : Session} (h : y.paths = x.paths) : x.Calms y where
  all p hp := ⟨p, h ▸ hp, rfl, id⟩
  first m p hp := ⟨p, by rwa [Session.pathOf, ← h], id⟩

theorem Session.Calms.trans {x y z : Session} (h : x.Calms y) (k : y.Calms z) : x.Calms z where
  all p hp := by
    obtain ⟨p', hp', hqp, hlive⟩ := k.all p hp
    obtain ⟨p'', hp'', hqp', hlive'⟩ := h.all p' hp'
    exact ⟨p'', hp'', hqp'.trans hqp, hlive' ∘ hlive⟩
  first m p hp := by
    obtain ⟨p', hp', hlive⟩ := k.first m p hp
    obtain ⟨p'', hp'', hlive'⟩ := h.first m p' hp'
    exact ⟨p'', hp'', hlive' ∘ hlive⟩

/-- A change of the paths of one queue pair that makes none of them live. -/
theorem Session.adjPath_calms (s : Session) (q : Nat) {f : Path → Path} (hqp : ∀ p, (f p).qp = p.qp)
    (hlive : ∀ p, (f p).state = .live → p.state = .live) : s.Calms (s.adjPath q f) where
  all p hp := by
    obtain ⟨p', hp', rfl⟩ := List.mem_map.mp hp
    refine ⟨p', hp', ?_⟩
    split
    · exact ⟨(hqp p').symm, hlive p'⟩
    · exact ⟨rfl, id⟩
  first m p hp := by
    have hcomp : ((fun p => p.qp == m) ∘ fun x => if (x.qp == q) = true then f x else x) = fun p : Path => p.qp == m := by
      funext p
      dsimp only [Function.comp]
      split
      · rw [hqp]
      · rfl
    rw [Session.pathOf, Session.adjPath, updAll, List.find?_map, hcomp] at hp
    obtain ⟨p', hp', rfl⟩ := Option.map_eq_some_iff.mp hp
    refine ⟨p', hp', ?_⟩
    split
    · exact hlive p'
    · exact id

/-- The hint of notifications moves to another path, and no path's state changes. -/
theorem Session.moveNotify_calms (s : Session) (us : List Unacked) : s.Calms (s.moveNotify us) := by
  unfold Session.moveNotify
  split
  · exact s.adjPath_calms _ (fun _ => rfl) fun _ => id
  · exact .of_paths rfl

theorem Session.lostPath_calms (s : Session) (q : Nat) : s.Calms (s.lostPath q) where
  all p hp := ⟨p, (List.mem_filter.mp hp).1, rfl, id⟩
  first m p hp := by
    refine ⟨p, ?_, id⟩
    have hm : p.qp = m := eq_of_beq (List.find?_some (p := fun p : Path => p.qp == m) hp)
    have hq : p.qp ≠ q := bne_iff_ne.mp (List.mem_filter.mp (List.mem_of_find?_eq_some hp)).2
    rw [Session.pathOf, Session.lostPath, List.find?_filter] at hp
    rw [Session.pathOf, ← hp]
    congr 1
    funext r
    by_cases hr : r.qp = m
    · simp only [hr, beq_self_eq_true, bne_iff_ne.mpr (hm ▸ hq), and_self, decide_true]
    · simp only [beq_false_of_ne hr, Bool.false_eq_true, and_false, decide_false]

/-! ### The relation, and one lemma an operation -/

/-- `w` has the queue pairs of `v` on the ports where they were, its ports, and paths live only where they were; under `c` a queue
empty on port `n`, subport `k` stays so. -/
structure Dev.Hush (c : Prop) (n k : Nat) (v w : Dev) : Prop where
  qps : ∀ m q', w.qp m = some q' → ∃ q, v.qp m = some q ∧ q'.port = q.port ∧ q'.sub = q.sub ∧ q'.session = q.session
  ports : w.hosts.ports = v.hosts.ports
  sessions : ∀ sn x, w.session sn = some x → ∃ y, v.session sn = some y ∧ y.Calms x
  queue : c → (v.eg n k).queue = [] → (w.eg n k).queue = []

namespace Dev.Hush

variable {c : Prop} {n k : Nat} {u v w : Dev}

theorem refl (v : Dev) : Dev.Hush c n k v v where
  qps _ q h := ⟨q, h, rfl, rfl, rfl⟩
  ports := rfl
  sessions _ x h := ⟨x, h, .of_paths rfl⟩
  queue _ := id

theorem trans (h : Dev.Hush c n k u v) (g : Dev.Hush c n k v w) : Dev.Hush c n k u w where
  qps m q hq := by
    obtain ⟨q', hq', hport, hsub, hsession⟩ := g.qps m q hq
    obtain ⟨q'', hq'', hport', hsub', hsession'⟩ := h.qps m q' hq'
    exact ⟨q'', hq'', hport.trans hport', hsub.trans hsub', hsession.trans hsession'⟩
  ports := g.ports.trans h.ports
  sessions sn x hx := by
    obtain ⟨y, hy, hcalms⟩ := g.sessions sn x hx
    obtain ⟨z, hz, hcalms'⟩ := h.sessions sn y hy
    exact ⟨z, hz, hcalms'.trans hcalms⟩
  queue hc := g.queue hc ∘ h.queue hc

theorem foldl {α : Type} {f : Dev → α → Dev} (h : ∀ (v : Dev) a, Dev.Hush c n k v (f v a)) (l : List α) (v : Dev) :
    Dev.Hush c n k v (l.foldl f v) := by
  induction l generalizing v with
  | nil => exact refl v
  | cons a l ih => exact (h v a).trans (ih (f v a))

/-- An operation that leaves the queue pairs, the ports and the queues alone. -/
theorem of_sessions (hqps : w.hosts.qps = v.hosts.qps) (hports : w.hosts.ports = v.hosts.ports) (hegress : w.hosts.egress = v.hosts.egress)
    (hsessions : ∀ sn x, w.session sn = some x → ∃ y, v.session sn = some y ∧ y.Calms x) : Dev.Hush c n k v w where
  qps m q hq := ⟨q, (congrArg (Tab.get · m) hqps).symm.trans hq, rfl, rfl, rfl⟩
  ports := hports
  sessions := hsessions
  queue _ h := (congrArg (fun t => (Tab.getD t (egKey n k) Egress.reset).queue) hegress).trans h

theorem of_eq (hqps : w.hosts.qps = v.hosts.qps) (hports : w.hosts.ports = v.hosts.ports) (hegress : w.hosts.egress = v.hosts.egress)
    (hsessions : w.hosts.sessions = v.hosts.sessions) : Dev.Hush c n k v w :=
  of_sessions hqps hports hegress fun sn x hx => ⟨x, (congrArg (Tab.get · sn) hsessions).symm.trans hx, .of_paths rfl⟩

/-- A path that is not live does not become so. -/
theorem pathState (h : Dev.Hush c n k v w) {m : Nat} (hlive : w.pathState m = some .live) : v.pathState m = some .live := by
  unfold Dev.pathState Dev.sessionOf at hlive ⊢
  cases hq : w.qp m with
  | none =>
    rw [hq] at hlive
    cases hlive
  | some q =>
    obtain ⟨q', hq', -, -, hsession⟩ := h.qps m q hq
    rw [hq, Option.map_some] at hlive
    rw [hq', Option.map_some, ← hsession]
    dsimp only at hlive ⊢
    obtain ⟨p, hp, hstate⟩ := Option.map_eq_some_iff.mp hlive
    obtain ⟨x, hx, hpath⟩ := Option.bind_eq_some_iff.mp hp
    obtain ⟨y, hy, hcalms⟩ := h.sessions _ x hx
    obtain ⟨p', hp', hlive'⟩ := hcalms.first m p hpath
    rw [hy, Option.bind_some, hp', Option.map_some, hlive' hstate]

end Dev.Hush

section
variable {c : Prop} {n k : Nat} (v : Dev)

theorem Dev.adjSession_hush (sn : Nat) {f : Session → Session} (h : ∀ x : Session, x.Calms (f x)) : Dev.Hush c n k v (v.adjSession sn f) := by
  refine .of_sessions rfl rfl rfl fun m x hx => ?_
  rw [Dev.session, Dev.adjSession, Tab.get_adjust] at hx
  split at hx
  · obtain ⟨y, hy, rfl⟩ := Option.map_eq_some_iff.mp hx
    exact ⟨y, hy, h y⟩
  · exact ⟨x, hx, .of_paths rfl⟩

theorem Dev.setSession_hush {v : Dev} {sn : Nat} {s x : Session} (hs : v.session sn = some s) (h : s.Calms x) :
    Dev.Hush c n k v (v.setSession sn x) := by
  refine .of_sessions rfl rfl rfl fun m y hy => ?_
  by_cases hm : m = sn
  · subst hm
    rw [Dev.session_setSession] at hy
    cases hy
    exact ⟨s, hs, h⟩
  · rw [Dev.session_setSession_ne v x hm] at hy
    exact ⟨y, hy, .of_paths rfl⟩

theorem Dev.count_hush (region cls idx ev a : Nat) : Dev.Hush c n k v (v.count region cls idx ev a) := by
  obtain ⟨p, h⟩ := v.count_frame region cls idx ev a
  rw [h]
  exact .of_eq rfl rfl rfl rfl

theorem Dev.countKeep_hush (cls ev a : Nat) : Dev.Hush c n k v (v.countKeep cls ev a) := by
  have key : ∀ (w : Dev) (i : KeepId) (r : Nat), Dev.Hush c n k w (if w.keepSound i then w.count r cls 0 ev a else w) := by
    intro w i r
    split
    · exact w.count_hush ..
    · exact .refl w
  exact (key v .A 4).trans (key _ .B 5)

theorem Dev.build_hush (sn : Nat) (e : Entry) (qp tally from_ : Option Nat) : Dev.Hush c n k v (v.build sn e qp tally from_) :=
  v.adjSession_hush sn fun _ => .of_paths rfl

theorem Dev.answerRecord_hush (sn : Nat) (d : Delivered) (r : Record) : Dev.Hush c n k v (v.answerRecord sn d r) := by
  refine Dev.Hush.trans ?_ (Dev.build_hush ..)
  cases v.session sn with
  | none => exact .refl v
  | some s =>
    dsimp only
    split
    · exact v.count_hush ..
    · exact .refl v

theorem Dev.dropTally_hush (sn : Nat) (t : BitVec 32) : Dev.Hush c n k v (v.dropTally sn t) := by
  refine (v.adjSession_hush sn (f := fun s => { s with tallies := Tab.del s.tallies t.toNat }) fun _ => .of_paths rfl).trans ?_
  unfold Dev.dropTally Dev.releaseDups
  refine Dev.Hush.trans ?_ (.foldl (fun w e => ?_) _ _)
  · exact .of_eq rfl rfl rfl rfl
  split
  · exact w.answerRecord_hush ..
  · exact w.build_hush ..

theorem Dev.endGrant_hush (sn tag : Nat) : Dev.Hush c n k v (v.endGrant sn tag) := by
  have key : ∀ (w : Dev) (f : Session → Session) (l : List Grant), (∀ x, (f x).paths = x.paths) → Dev.Hush c n k v w →
      Dev.Hush c n k v { w.adjSession sn f with hosts := { (w.adjSession sn f).hosts with grants := l } } := fun w f l hf hw =>
    (hw.trans (w.adjSession_hush sn fun x => .of_paths (hf x))).trans (.of_eq rfl rfl rfl rfl)
  refine key _ _ _ (fun _ => rfl) ?_
  split
  · exact .refl v
  · exact .of_eq rfl rfl rfl rfl

theorem Dev.dropCtx_hush (x : Ctx) : Dev.Hush c n k v (v.dropCtx x) := by
  have hend : ∀ w : Dev, Dev.Hush c n k w (match x.grantTag with | some t => w.endGrant x.session t | none => w) := by
    intro w
    split
    · exact w.endGrant_hush ..
    · exact .refl w
  have hcredit : ∀ w : Dev, Dev.Hush c n k w (if x.credit = 0 then w else w.countKeep 0x10 0x002 x.credit) := by
    intro w
    split
    · exact .refl w
    · exact w.countKeep_hush ..
  refine Dev.Hush.trans (Dev.Hush.trans ?_ (hcredit _)) (hend _)
  split
  · exact .of_eq rfl rfl rfl rfl
  · split <;> exact .of_eq rfl rfl rfl rfl

theorem Dev.discardCtx_hush (x : Ctx) : Dev.Hush c n k v (v.discardCtx x) := by
  unfold Dev.discardCtx
  split
  · exact (v.dropCtx_hush x).trans (Dev.dropTally_hush ..)
  · exact v.dropCtx_hush x

theorem Dev.discardInbox_hush (q : Nat) : Dev.Hush c n k v (v.discardInbox q) :=
  (Dev.Hush.foldl Dev.discardCtx_hush _ v).trans (.of_eq rfl rfl rfl rfl)

theorem Dev.abortReads_hush (q : Nat) : Dev.Hush c n k v (v.abortReads q) :=
  Dev.Hush.trans (v := { v with hosts := { v.hosts with reads := v.hosts.reads.filter (fun r => r.qp != q) } })
    (.of_eq rfl rfl rfl rfl) (.foldl (fun w r => w.build_hush ..) _ _)

theorem Dev.revokeWindow_hush (w : Nat) (cmd : Option Nat) : Dev.Hush c n k v (v.revokeWindow w cmd) := by
  unfold Dev.revokeWindow
  dsimp only
  split
  · exact .refl v
  · split
    · exact .of_eq rfl rfl rfl rfl
    · exact .refl v

theorem Dev.notice_hush (sn : Nat) (code : Byte) (arg : Nat) : Dev.Hush c n k v (v.notice sn code arg) := by
  unfold Dev.notice
  split
  · exact .refl v
  next s hs =>
    dsimp only
    split
    · exact Dev.setSession_hush hs (.of_paths rfl)
    · exact Dev.Hush.trans (Dev.setSession_hush (x := { s with noticeNum := (s.noticeNum + 1) % 2 ^ 32, noticeLost := s.noticeLost + 1 }) hs
        (.of_paths rfl)) (Dev.count_hush ..)

/-- A queue of a port that keeps no more than it held where it held nothing. -/
theorem Dev.setEg_hush (m i : Nat) (e : Egress) (h : c → egKey n k = egKey m i → (v.eg m i).queue = [] → e.queue = []) :
    Dev.Hush c n k v (v.setEg m i e) :=
  { Dev.Hush.refl (c := c) (n := n) (k := k) v with
    queue := fun hc hempty => by
      by_cases hkey : egKey n k = egKey m i
      · simp only [Dev.eg, Dev.setEg, hkey, Tab.getD_set] at hempty ⊢
        exact h hc hkey hempty
      · simp only [Dev.eg, Dev.setEg, Tab.getD_set_ne _ _ _ hkey] at hempty ⊢
        exact hempty }

theorem Dev.unqueue_hush (m : Nat) : Dev.Hush c n k v (v.unqueue m) := by
  unfold Dev.unqueue
  split
  · exact .refl v
  · dsimp only
    split
    · exact v.setEg_hush _ _ _ fun _ _ hempty => by rw [hempty, List.map_nil]
    · exact .refl v

theorem Dev.enqueue_hush (m i : Nat) (f : Frame) (h : c → egKey n k ≠ egKey m i) : Dev.Hush c n k v (v.enqueue m i f) := by
  unfold Dev.enqueue
  split
  · exact v.setEg_hush _ _ _ fun hc hkey => absurd hkey (h hc)
  · exact v.count_hush ..

/-- A change of one queue pair that leaves its port and its session. -/
theorem Dev.adjQp_hush (m : Nat) {f : Qp → Qp} (h : ∀ q, (f q).port = q.port ∧ (f q).sub = q.sub ∧ (f q).session = q.session) :
    Dev.Hush c n k v (v.adjQp m f) :=
  { Dev.Hush.refl (c := c) (n := n) (k := k) v with
    qps := fun i q hq => by
      rw [Dev.qp, Dev.adjQp, Tab.get_adjust] at hq
      split at hq
      · obtain ⟨q', hq', rfl⟩ := Option.map_eq_some_iff.mp hq
        exact ⟨q', hq', h q'⟩
      · exact ⟨q, hq, rfl, rfl, rfl⟩ }

theorem Dev.setQp_hush {v : Dev} {m : Nat} {q x : Qp} (hq : v.qp m = some q) (h : x.port = q.port ∧ x.sub = q.sub ∧ x.session = q.session) :
    Dev.Hush c n k v (v.setQp m x) :=
  { Dev.Hush.refl (c := c) (n := n) (k := k) v with
    qps := fun i y hy => by
      by_cases hi : i = m
      · subst hi
        rw [Dev.qp_setQp] at hy
        cases hy
        exact ⟨q, hq, h⟩
      · rw [Dev.qp_setQp_ne v x hi] at hy
        exact ⟨y, hy, rfl, rfl, rfl⟩ }

/-- What a queue pair sends joins the queue of its own port. -/
theorem Dev.launchN_hush (l : Nat) (m : Nat) (h : c → ∀ q, v.qp m = some q → egKey n k ≠ egKey q.port.val q.sub.val) :
    Dev.Hush c n k v (Dev.launchN l v m) := by
  induction l generalizing v with
  | zero => exact .refl v
  | succ l ih =>
    unfold Dev.launchN
    split
    · exact .refl v
    next q hq =>
      split
      · exact .refl v
      next f rest _ =>
        split
        · have hset : Dev.Hush c n k v (v.setQp m (q.launched f v.mono)) := Dev.setQp_hush hq ⟨rfl, rfl, rfl⟩
          have hlaunch : Dev.Hush c n k v (v.launch m q f) := hset.trans (Dev.enqueue_hush _ _ _ _ fun hc => h hc q hq)
          refine hlaunch.trans (ih _ fun hc q' hq' => ?_)
          obtain ⟨q'', hq'', hport, hsub, -⟩ := hlaunch.qps m q' hq'
          rw [hport, hsub]
          exact h hc q'' hq''
        · exact .refl v

theorem Dev.post_hush (m : Nat) (ws : List Wire) (h : c → ∀ q, v.qp m = some q → egKey n k ≠ egKey q.port.val q.sub.val) :
    Dev.Hush c n k v (v.post m ws) := by
  have hadj : Dev.Hush c n k v (v.adjQp m (fun q => { q with waiting := q.waiting ++ ws.map (q.request m) })) :=
    v.adjQp_hush m fun _ => ⟨rfl, rfl, rfl⟩
  refine hadj.trans ?_
  rw [Dev.post]
  unfold Dev.launchQp
  split
  · exact .refl _
  · split
    · refine Dev.launchN_hush _ _ _ fun hc q' hq' => ?_
      obtain ⟨q'', hq'', hport, hsub, -⟩ := hadj.qps m q' hq'
      rw [hport, hsub]
      exact h hc q'' hq''
    · exact .refl _

theorem Path.wrote_state (p : Path) (now : Nat) (is : List Issued) : (p.wrote now is).state = p.state := by
  unfold Path.wrote
  split <;> rfl

/-- The lower of two paths, by their numbers. -/
def Path.lower (acc : Option Path) (p : Path) : Option Path :=
  match acc with
  | none => some p
  | some b => if p.idx < b.idx then some p else some b

theorem Path.foldl_lower_mem (l : List Path) (acc : Option Path) {p : Path} (h : l.foldl Path.lower acc = some p) : acc = some p ∨ p ∈ l := by
  induction l generalizing acc with
  | nil => exact .inl h
  | cons a l ih =>
    rcases ih _ h with hacc | hl
    · unfold Path.lower at hacc
      split at hacc
      · exact .inr (Option.some.inj hacc ▸ List.mem_cons_self)
      · split at hacc
        · exact .inr (Option.some.inj hacc ▸ List.mem_cons_self)
        · exact .inl hacc
    · exact .inr (List.mem_cons_of_mem _ hl)

theorem Session.lowestLive_mem {s : Session} {p : Path} (h : s.lowestLive = some p) : p ∈ s.livePaths :=
  (Path.foldl_lower_mem s.livePaths none h).resolve_left (fun hnone => by cases hnone)

/-- What a session sends again joins the queue of a live path. -/
theorem Dev.reissue_hush (sn : Nat) (h : c → ∀ s, v.session sn = some s → ∀ p ∈ s.livePaths, ∀ q, v.qp p.qp = some q →
    egKey n k ≠ egKey q.port.val q.sub.val) : Dev.Hush c n k v (v.reissue sn) := by
  unfold Dev.reissue
  split
  · exact .refl v
  next s hs =>
    split
    · exact .refl v
    next p hp =>
      refine Dev.Hush.trans (Dev.setSession_hush hs (x := Session.adjPath _ _ _) ?_)
        (Dev.post_hush _ _ _ fun hc => h hc s hs p (Session.lowestLive_mem hp))
      refine Session.Calms.trans ?_ (Session.adjPath_calms _ _ (fun r => r.wrote_qp _ _) fun r hr => ?_)
      · exact .of_paths rfl
      · rwa [Path.wrote_state] at hr

theorem Dev.dropQp_hush (q : Nat) : Dev.Hush c n k v (v.dropQp q) :=
  { Dev.Hush.refl (c := c) (n := n) (k := k) v with
    qps := fun m x hx => by
      rw [Dev.qp, Dev.dropQp, Tab.get_del] at hx
      split at hx
      · cases hx
      · exact ⟨x, hx, rfl, rfl, rfl⟩ }

/-- The queue pairs of an excluded port among the paths of a session are all one. -/
def Dev.OneOn (v : Dev) (n k : Nat) (q : Nat) (sn : Nat) : Prop :=
  ∀ s, v.session sn = some s → ∀ p ∈ s.paths, ∀ x, v.qp p.qp = some x → egKey n k = egKey x.port.val x.sub.val → p.qp = q

theorem Dev.Hush.oneOn {v w : Dev} (h : Dev.Hush c n k v w) {q sn : Nat} (hone : v.OneOn n k q sn) : w.OneOn n k q sn := by
  intro s hs p hp x hx hkey
  obtain ⟨y, hy, hcalms⟩ := h.sessions sn s hs
  obtain ⟨p', hp', hqp, -⟩ := hcalms.all p hp
  obtain ⟨x', hx', hport, hsub, -⟩ := h.qps p.qp x hx
  exact hqp ▸ hone y hy p' hp' x' (hqp ▸ hx') (by rw [← hport, ← hsub]; exact hkey)

theorem Dev.releaseQp_hush (q : Nat) (hone : c → ∀ x, v.qp q = some x → v.OneOn n k q x.session) : Dev.Hush c n k v (v.releaseQp q) := by
  cases hq : v.qp q with
  | none =>
    rw [Dev.releaseQp, hq]
    exact .refl v
  | some x =>
    obtain ⟨ws, h⟩ := Dev.releaseQp_eq hq
    rw [h]
    have hdrop : Dev.Hush c n k v ((((v.discardInbox q).abortReads q).unqueue q).dropQp q) :=
      (((v.discardInbox_hush q).trans (Dev.abortReads_hush _ q)).trans (Dev.unqueue_hush _ q)).trans (Dev.dropQp_hush _ q)
    have hlost := hdrop.trans (Dev.adjSession_hush _ x.session fun s => s.lostPath_calms q)
    refine (hlost.trans (Dev.reissue_hush _ _ fun hc s hs p hp y hy hkey => ?_)).trans (.foldl (fun y w => y.revokeWindow_hush w none) _ _)
    have hsame := hlost.oneOn (hone hc x hq) s hs p (List.mem_filter.mp hp).1 y hy hkey
    rw [hsame] at hy
    exact Option.some_ne_none y (hy.symm.trans ((Tab.get_del ..).trans (if_pos rfl)))

/-- No path of a session on a queue pair is live. -/
def Dev.Held (v : Dev) (q sn : Nat) : Prop := ∀ s, v.session sn = some s → ∀ p ∈ s.paths, p.qp = q → p.state ≠ .live

theorem Dev.Hush.held {v w : Dev} (h : Dev.Hush c n k v w) {q sn : Nat} (hheld : v.Held q sn) : w.Held q sn := by
  intro s hs p hp hqp hlive
  obtain ⟨y, hy, hcalms⟩ := h.sessions sn s hs
  obtain ⟨p', hp', hqp', hlive'⟩ := hcalms.all p hp
  exact hheld y hy p' hp' (hqp'.trans hqp) (hlive' hlive)

/-- The paths of a session on a queue pair held, and its hint of notifications moved to another path. -/
def Session.held (s : Session) (q t : Nat) (us : List Unacked) : Session :=
  (s.adjPath q (fun p => { p with state := .held, heldAt := t, notifyUnacked := false })).moveNotify us

theorem Session.held_calms (s : Session) (q t : Nat) (us : List Unacked) : s.Calms (s.held q t us) :=
  (s.adjPath_calms q (f := fun p => { p with state := .held, heldAt := t, notifyUnacked := false }) (fun _ => rfl)
    fun _ h => PathState.noConfusion (show PathState.held = .live from h)).trans (Session.moveNotify_calms _ us)

theorem Session.held_not_live {s : Session} {q t : Nat} {us : List Unacked} {p : Path} (hp : p ∈ (s.held q t us).paths) (hq : p.qp = q) :
    p.state ≠ .live := by
  obtain ⟨p', hp', hqp, hlive⟩ := (Session.moveNotify_calms _ us).all p hp
  obtain ⟨r, -, rfl⟩ := List.mem_map.mp hp'
  intro h
  have hlive' := hlive h
  split at hlive'
  · cases hlive'
  next hne =>
    rw [if_neg hne] at hqp
    exact hne (beq_iff_eq.mpr (hqp.trans hq))

/-- The device with a path held and its session told, before what it had in doubt is sent again. -/
def Dev.heldPath (v : Dev) (q : Nat) (x : Qp) : Dev :=
  (((v.adjSession x.session (fun s => s.held q v.clk.aging x.unacked)).adjQp q Qp.heldWrites).discardInbox q).notice x.session 0x04 q

theorem Dev.heldPath_hush (q : Nat) (x : Qp) : Dev.Hush c n k v (v.heldPath q x) :=
  (((v.adjSession_hush x.session fun s => s.held_calms q _ _).trans (Dev.adjQp_hush _ q (f := Qp.heldWrites) fun _ => ⟨rfl, rfl, rfl⟩)).trans
    (Dev.discardInbox_hush _ q)).trans (Dev.notice_hush _ _ _ _)

theorem Dev.heldPath_held (q : Nat) (x : Qp) : (v.heldPath q x).Held q x.session := by
  have hadj : (v.adjSession x.session (fun s => s.held q v.clk.aging x.unacked)).Held q x.session := by
    intro s hs p hp
    rw [Dev.session_adjSession] at hs
    obtain ⟨y, -, rfl⟩ := Option.map_eq_some_iff.mp hs
    exact Session.held_not_live hp
  exact (((Dev.adjQp_hush _ q (f := Qp.heldWrites) fun _ => ⟨rfl, rfl, rfl⟩).trans (Dev.discardInbox_hush (c := True) (n := 0) (k := 0) _ q)).trans
    (Dev.notice_hush _ _ _ _)).held hadj

/-- How long the session of a queue pair waits for a held path. -/
def Dev.holdTime (v : Dev) (sn : Nat) : Nat :=
  match v.session sn with
  | some s => s.pathHold
  | none => 0

theorem Dev.holdPath_of_path {v : Dev} {q : Nat} {x : Qp} {p : Path} (hq : v.qp q = some x) (hp : (v.session x.session).bind (·.pathOf q) = some p)
    (hheld : p.state ≠ .held) : v.holdPath q =
      if (v.heldPath q x).holdTime x.session = 0 then (v.heldPath q x).releaseQp q else (v.heldPath q x).reissue x.session := by
  simp only [Dev.holdPath, hq, hp, beq_false_of_ne hheld, Bool.false_eq_true, if_false]
  rfl

/-- A path to hold is one that is there and is not held. -/
theorem Dev.holdPath_cases (q : Nat) : (v.holdPath q = v ∧ v.pathState q ≠ some .live) ∨ ∃ x p s, v.qp q = some x ∧ v.session x.session = some s ∧
    s.pathOf q = some p ∧ (v.holdPath q = (v.heldPath q x).releaseQp q ∨ v.holdPath q = (v.heldPath q x).reissue x.session) := by
  cases hq : v.qp q with
  | none => exact .inl ⟨by simp only [Dev.holdPath, hq], by simp only [Dev.pathState, Dev.sessionOf, hq, Option.map_none]; exact nofun⟩
  | some x =>
    cases hp : (v.session x.session).bind (·.pathOf q) with
    | none => exact .inl ⟨by simp only [Dev.holdPath, hq, hp], by simp only [Dev.pathState, Dev.sessionOf, hq, Option.map_some, hp, Option.map_none]; exact nofun⟩
    | some p =>
      obtain ⟨s, hs, hpath⟩ := Option.bind_eq_some_iff.mp hp
      by_cases hheld : p.state = .held
      · refine .inl ⟨by simp only [Dev.holdPath, hq, hp, hheld, beq_self_eq_true, if_true], ?_⟩
        simp only [Dev.pathState, Dev.sessionOf, hq, Option.map_some, hp, hheld]
        exact nofun
      · refine .inr ⟨x, p, s, rfl, hs, hpath, ?_⟩
        rw [Dev.holdPath_of_path hq hp hheld]
        split
        · exact .inl rfl
        · exact .inr rfl

/-- Where a session has a path on a queue pair, its paths of an excluded port are all on that one. -/
def Dev.AloneOn (v : Dev) (n k : Nat) (q : Nat) : Prop :=
  ∀ x s p, v.qp q = some x → v.session x.session = some s → s.pathOf q = some p → v.OneOn n k q x.session

theorem Dev.Hush.aloneOn {v w : Dev} (h : Dev.Hush c n k v w) {q : Nat} (halone : v.AloneOn n k q) : w.AloneOn n k q := by
  intro x s p hx hs hp
  obtain ⟨x', hx', -, -, hsession⟩ := h.qps q x hx
  rw [hsession] at hs ⊢
  obtain ⟨y, hy, hcalms⟩ := h.sessions _ s hs
  obtain ⟨p', hp', -⟩ := hcalms.first q p hp
  exact h.oneOn (halone x' y p' hx' hy hp')

theorem Dev.holdPath_hush_heldPath {x : Qp} {q : Nat} (hone : c → v.OneOn n k q x.session) (hqp : v.qp q = some x)
    (h : v.holdPath q = (v.heldPath q x).releaseQp q ∨ v.holdPath q = (v.heldPath q x).reissue x.session) :
    Dev.Hush c n k (v.heldPath q x) (v.holdPath q) := by
  have hheld : Dev.Hush c n k v (v.heldPath q x) := v.heldPath_hush q x
  rcases h with h | h
  · rw [h]
    refine Dev.releaseQp_hush _ q fun hc y hy => ?_
    obtain ⟨y', hy', -, -, hsession⟩ := hheld.qps q y hy
    rw [hsession, Option.some.inj (hy'.symm.trans hqp)]
    exact hheld.oneOn (hone hc)
  · rw [h]
    refine Dev.reissue_hush _ _ fun hc s hs p hp y hy hkey => ?_
    obtain ⟨hmem, hlive⟩ := List.mem_filter.mp hp
    exact v.heldPath_held q x s hs p hmem (hheld.oneOn (hone hc) s hs p hmem y hy hkey) (eq_of_beq hlive)

theorem Dev.holdPath_hush (q : Nat) (halone : c → v.AloneOn n k q) : Dev.Hush c n k v (v.holdPath q) := by
  rcases v.holdPath_cases q with ⟨h, -⟩ | ⟨x, p, s, hx, hs, hp, h⟩
  · rw [h]
    exact .refl v
  · exact (v.heldPath_hush q x).trans (v.holdPath_hush_heldPath (fun hc => halone hc x s p hx hs hp) hx h)

/-- A path held is not live. -/
theorem Dev.holdPath_not_live (q : Nat) : (v.holdPath q).pathState q ≠ some .live := by
  rcases v.holdPath_cases q with ⟨h, hlive⟩ | ⟨x, p, s, hx, -, -, h⟩
  · rwa [h]
  · intro hlive
    have hbefore := (v.holdPath_hush_heldPath (c := False) (n := 0) (k := 0) False.elim hx h).pathState hlive
    unfold Dev.pathState Dev.sessionOf at hbefore
    cases hy : (v.heldPath q x).qp q with
    | none =>
      rw [hy] at hbefore
      cases hbefore
    | some y =>
      obtain ⟨y', hy', -, -, hsession⟩ := (v.heldPath_hush (c := False) (n := 0) (k := 0) q x).qps q y hy
      rw [hy, Option.map_some, hsession, Option.some.inj (hy'.symm.trans hx)] at hbefore
      obtain ⟨r, hr, hstate⟩ := Option.map_eq_some_iff.mp hbefore
      obtain ⟨z, hz, hpath⟩ := Option.bind_eq_some_iff.mp hr
      exact v.heldPath_held q x z hz r (List.mem_of_find?_eq_some hpath) (eq_of_beq (List.find?_some (p := fun r : Path => r.qp == q) hpath)) hstate

/-- The paths of the queue pairs listed are held, one after another. -/
theorem Dev.foldl_holdPath_hush (l : List Nat) (halone : c → ∀ q ∈ l, v.AloneOn n k q) :
    Dev.Hush c n k v (l.foldl (fun x q => x.holdPath q) v) := by
  induction l generalizing v with
  | nil => exact .refl v
  | cons q l ih =>
    have hstep := v.holdPath_hush (c := c) (n := n) (k := k) q fun hc => halone hc q List.mem_cons_self
    exact hstep.trans (ih _ fun hc r hr => hstep.aloneOn (halone hc r (List.mem_cons_of_mem _ hr)))

theorem Dev.foldl_holdPath_not_live {l : List Nat} {q : Nat} (hq : q ∈ l) : (l.foldl (fun x q => x.holdPath q) v).pathState q ≠ some .live := by
  induction l generalizing v with
  | nil => cases hq
  | cons a l ih =>
    rcases List.mem_cons.mp hq with rfl | hq
    · exact fun hlive => v.holdPath_not_live q
        ((Dev.foldl_holdPath_hush (c := False) (n := 0) (k := 0) _ l False.elim).pathState hlive)
    · exact ih _ hq

end

/-! ### A port that goes down -/

/-- A port with its queue flushed and the frames counted. -/
def Dev.flushedPort (v : Dev) (n k : Nat) : Dev :=
  ((v.setEg n k { v.eg n k with queue := [] }).setPort n { v.port n with flushes := (v.port n).flushes + (v.eg n k).queue.length }).countPort n
    0x016 (v.eg n k).queue.length

theorem Dev.flushedPort_hosts (v : Dev) (n k : Nat) : (v.flushedPort n k).hosts = ((v.setEg n k { v.eg n k with queue := [] }).setPort n
    { v.port n with flushes := (v.port n).flushes + (v.eg n k).queue.length }).hosts :=
  Dev.count_hosts ..

theorem Dev.flushedPort_qpsOn (v : Dev) (n k : Nat) : (v.flushedPort n k).qpsOn n k = v.qpsOn n k := by
  simp only [Dev.qpsOn, Dev.flushedPort_hosts]
  rfl

theorem Dev.downPort_eq (v : Dev) (n k : Nat) : v.downPort n k = (v.qpsOn n k).foldl (fun x q => x.holdPath q) (v.flushedPort n k) := by
  rw [← Dev.flushedPort_qpsOn]
  rfl

theorem Dev.downPort_port (v : Dev) (n k : Nat) :
    (v.downPort n k).port n = { v.port n with flushes := (v.port n).flushes + (v.eg n k).queue.length } := by
  rw [Dev.downPort_eq, Dev.port, (Dev.foldl_holdPath_hush (c := False) (n := 0) (k := 0) _ (v.qpsOn n k) False.elim).ports, Dev.flushedPort_hosts]
  exact Dev.port_setPort ..

/-- A queue pair of a port is one of those the port carries. -/
theorem Dev.mem_qpsOn {v : Dev} {n k m : Nat} {q : Qp} (hq : v.qp m = some q) (hport : q.port.val = n) (hsub : q.sub.val = k) : m ∈ v.qpsOn n k :=
  List.mem_map.mpr ⟨(m, q), List.mem_filter.mpr ⟨Tab.mem_of_get hq, by rw [hport, hsub, beq_self_eq_true, beq_self_eq_true, Bool.and_self]⟩, rfl⟩

/-- Of a session at most one path goes out through a port. -/
def Dev.OnePathOn (v : Dev) (n k : Nat) : Prop :=
  ∀ e ∈ v.hosts.sessions, ∀ a ∈ e.2.paths, ∀ b ∈ e.2.paths, a.qp ∈ v.qpsOn n k → b.qp ∈ v.qpsOn n k → a = b

theorem Dev.OnePathOn.aloneOn {v : Dev} {n k : Nat} (h : v.OnePathOn n k) (hk : k < 4) {q : Nat} (hq : q ∈ v.qpsOn n k) : v.AloneOn n k q := by
  intro x s p hx hs hp s' hs' r hr y hy hkey
  obtain rfl : s' = s := Option.some.inj (hs'.symm.trans hs)
  have hpq : p.qp = q := eq_of_beq (List.find?_some (p := fun r : Path => r.qp == q) hp)
  have hon : r.qp ∈ v.qpsOn n k := by
    have := y.sub.isLt
    unfold egKey at hkey
    exact Dev.mem_qpsOn hy (by omega) (by omega)
  rw [← hpq, h _ (Tab.mem_of_get hs) r hr p (List.mem_of_find?_eq_some hp) hon (hpq ▸ hq)]

/-- Where no session has two paths out through a port, nothing joins its queue again. -/
theorem Dev.downPort_queue {v : Dev} {n k : Nat} (hk : k < 4) (h : v.OnePathOn n k) : ((v.downPort n k).eg n k).queue = [] := by
  have hflushed : ((v.flushedPort n k).eg n k).queue = [] := by
    rw [Dev.eg, Dev.flushedPort_hosts]
    exact congrArg Egress.queue (Dev.eg_setEg ..)
  have hone : ∀ q ∈ v.qpsOn n k, (v.flushedPort n k).AloneOn n k q := by
    intro q hq
    have halone := h.aloneOn hk hq
    unfold Dev.AloneOn Dev.OneOn Dev.qp Dev.session at halone ⊢
    rw [Dev.flushedPort_hosts]
    exact halone
  rw [Dev.downPort_eq]
  exact (Dev.foldl_holdPath_hush (c := True) _ _ fun _ => hone).queue trivial hflushed

end Sys2Proof.Machine

open Sys2Proof Sys2Proof.Machine

/-- Settles O42: the flush and the hold of a port's paths, and the conditions of the other events. -/
theorem linkEvents : Obligations.LinkEvents := by
  intro s port sub qp sn x p v n lost down
  refine ⟨fun hup hsub => ⟨?_, fun hone => ?_, ?_, ?_, fun q hq => ?_⟩, fun hno => ?_, fun hsub hspire hmode => ?_, fun hno => ?_,
    fun hon hlink => ?_, fun hqp hx hp hstate hdue => ?_, fun hqp hx hp hno => ?_⟩
  · exact State.next_congr (if_pos (Bool.and_eq_true _ _ ▸ ⟨hup, decide_eq_true hsub⟩))
  · exact Dev.downPort_queue (v := v.setPort n _) sub.isLt hone
  · exact (congrArg NetPort.flushes (Dev.downPort_port ..)).trans (by rw [Dev.port_setPort]; rfl)
  · exact (congrArg NetPort.linkUp (Dev.downPort_port ..)).trans (by rw [Dev.port_setPort])
  · rw [show down = _ from Dev.downPort_eq ..]
    exact Dev.foldl_holdPath_not_live _ hq
  · refine State.next_same (if_neg fun h => ?_)
    obtain ⟨hup, hsub⟩ := Bool.and_eq_true _ _ ▸ h
    rcases hno with hdown | hbeyond
    · exact Bool.false_ne_true (hdown.symm.trans hup)
    · exact Nat.not_lt.mpr hbeyond (of_decide_eq_true hsub)
  · exact State.next_congr (if_pos (by
      rw [decide_eq_true (show sub.val < subCount (s.dev.port port.val).breakout from hsub), show s.dev.spireUp (portSpire port.val) = true from hspire,
        bne_iff_ne.mpr (show s.dev.mode ≠ .held from hmode), Bool.and_self, Bool.and_self]))
  · refine State.next_same (if_neg fun h => ?_)
    simp only [Bool.and_eq_true, decide_eq_true_eq, bne_iff_ne] at h
    obtain ⟨⟨hsub, hspire⟩, hmode⟩ := h
    rcases hno with hbeyond | hdown | hheld
    · exact Nat.not_lt.mpr hbeyond hsub
    · exact Bool.false_ne_true (hdown.symm.trans hspire)
    · exact hmode hheld
  · exact if_pos (by rw [hon, hlink, Bool.and_self])
  · refine State.next_congr ?_
    simp only [show s.dev.sessionOf qp = some sn from hqp, Option.bind_some, show s.dev.session sn = some x from hx, hp]
    exact if_pos (by rw [hstate, decide_eq_true (show _ ≤ s.dev.clk.aging from hdue)]; rfl)
  · refine State.next_same ?_
    simp only [show s.dev.sessionOf qp = some sn from hqp, Option.bind_some, show s.dev.session sn = some x from hx, hp]
    refine if_neg fun h => ?_
    simp only [Bool.and_eq_true, decide_eq_true_eq, beq_iff_eq] at h
    rcases hno with hlive | hearly
    · exact hlive h.1
    · exact Nat.not_le.mpr hearly h.2
end



section
open Sys2Proof Sys2Proof.Machine

/-- Settles O50: the commands by their fields and their queue, the events by the element that ran. -/
theorem maintenanceQueues : Obligations.MaintenanceQueues := by
  refine ⟨fun s p w id c => ⟨fun h hdepth => ?_, fun h hlow hhigh hfree => ?_, fun h hnone => ?_, fun h hc hone hwait hroom => ?_, fun h hc => ?_,
    fun h hnone => ?_, fun h hc hstate helements hwaiters => ?_⟩, fun s p w id q c t st => ⟨fun h hsrc => ?_, fun h hsrc ht hreached => ?_,
    fun h hsrc ht hreached hlim => ?_, fun h hsrc ht hreached hlim => ?_, fun n k d i hc hwait hcmd hdue => ?_, fun hc hwait => ?_,
    fun hc hdone => ?_, fun hc hdone hbad => ?_, fun hc hother => ?_, fun x => ?_⟩⟩
  · refine State.next_starts h (if_pos ?_)
    simpa only [Bool.or_eq_true, decide_eq_true_eq] using hdepth
  · have hfind : (List.range 256).find? (fun i => (w.chain (p.u8 0 % 4 * 256 + i)).isNone) = some 0 :=
      List.find?_cons_of_pos (by rw [hfree]; rfl)
    refine State.next_starts h ?_
    dsimp only
    generalize p.u8 0 % 4 * 256 = base at hfind ⊢
    generalize (List.range 256).find? (fun i => (w.chain (base + i)).isNone) = o at hfind ⊢
    subst hfind
    refine if_neg ?_
    simp only [hlow, Nat.not_lt.mpr hhigh, decide_false, Bool.or_self, Bool.false_eq_true, not_false_eq_true]
  · exact State.next_starts h (by simp only [hnone])
  · refine State.next_starts h ?_
    have hall : ([readPacket p.src (slice p.data 0 64)].all (w.waitTargetOk (p.u16 0) c)) = true := by
      simp only [List.all_cons, List.all_nil, Dev.waitTargetOk, hwait, if_false, Bool.and_self]
    have hput : [readPacket p.src (slice p.data 0 64)].take (c.depth - c.elements.length - b2n c.running.isSome) = [readPacket p.src (slice p.data 0 64)] :=
      List.take_of_length_le (by rw [List.length_singleton]; omega)
    have hes : (List.range (p.u8 2)).map (fun i => readPacket p.src (slice p.data (64 * i) 64)) = [readPacket p.src (slice p.data 0 64)] := by
      rw [hone]
      rfl
    have hcount : (decide (p.u8 2 = 0) || decide (64 < p.u8 2)) = false := by
      rw [hone]
      rfl
    simp only [hc, hes, hcount, hall, hput, Bool.not_true, Bool.or_self, Bool.false_eq_true, if_false, List.length_singleton]
  · exact State.next_starts h (by simp only [hc])
  · exact State.next_starts h (by simp only [hnone])
  · refine State.next_starts h ?_
    have hown : (if c.state == .waiting then (w.chainCmd (Fin.ofNat 1024 (p.u16 0))).toList else []) = [] :=
      if_neg (by rw [beq_false_of_ne hstate]; exact Bool.false_ne_true)
    simp only [hc, hown, helements, List.foldl_nil, List.length_nil, Nat.add_zero]
    rw [List.filter_eq_nil_iff.mpr ?_]
    · rfl
    · intro e he
      rw [hwaiters e he]
      exact Bool.false_ne_true
  · refine State.next_starts h ?_
    cases hp : p.src with
    | chain q => exact absurd hp (hsrc q)
    | _ => rfl
  · rw [← hsrc]
    exact State.next_starts h (by simp only [hsrc, ht, hreached, if_true])
  · rw [← hsrc]
    exact State.next_starts h (by simp only [hsrc, ht, hreached, hlim, Bool.false_eq_true, if_false, if_true])
  · rw [← hsrc]
    exact State.next_starts h (by simp only [hsrc, ht, hreached, hlim, Bool.false_eq_true, if_false])
  · exact State.next_congr (by simp only [show s.dev.chain q.val = some c from hc, Option.bind_some, hwait, show s.dev.chainCmd q = some i from hcmd,
      show s.dev.atBell d = true from hdue, if_true])
  · exact State.next_same (by simp only [show s.dev.chain q.val = some c from hc, Option.bind_some, hwait])
  · exact State.next_congr (by simp only [show s.dev.chain q.val = some c from hc, hdone, beq_self_eq_true, if_true])
  · exact State.next_congr (by simp only [show s.dev.chain q.val = some c from hc, hdone, beq_self_eq_true, if_true, hbad, if_false])
  · exact State.next_same (by simp only [show s.dev.chain q.val = some c from hc, beq_false_of_ne hother, Bool.false_eq_true, if_false])
  · exact ⟨rfl, by simp only [countReached, BitVec.sub_self, BitVec.toNat_zero, Nat.two_pow_pos, decide_true, Bool.or_true]⟩
end



section
/-! SUPPORT. The grains of an append, made and held (R28, R41, R44). -/
namespace Sys2Proof.Machine

/-! ### Held grains -/

/-- A grain gathered into a stripe is marked with it, and no grain leaves the buffer. -/
theorem Dev.gather_grain (v : Dev) (g : Grain) {y : Grain} (hy : y ∈ v.store.grains) :
    ∃ t, { y with stripe := t } ∈ (v.gather g).store.grains := by
  have key : ∀ (l : List Grain) (id : Nat), y ∈ l → ∃ t, { y with stripe := t } ∈ updFirst (fun y => y.id == g.id) (fun y => { y with stripe := some id }) l := by
    intro l id hl
    induction l with
    | nil => cases hl
    | cons a l ih =>
      unfold updFirst
      split
      · rcases List.mem_cons.mp hl with rfl | hl
        · exact ⟨some id, List.mem_cons_self⟩
        · exact ⟨y.stripe, List.mem_cons_of_mem _ hl⟩
      · rcases List.mem_cons.mp hl with rfl | hl
        · exact ⟨y.stripe, List.mem_cons_self⟩
        · obtain ⟨t, ht⟩ := ih hl
          exact ⟨t, List.mem_cons_of_mem _ ht⟩
  unfold Dev.gather
  dsimp only
  split
  · exact key _ _ hy
  · exact key _ _ hy

theorem Dev.gatherAll_grain (v : Dev) (gs : List Grain) {y : Grain} (hy : y ∈ v.store.grains) :
    ∃ t, { y with stripe := t } ∈ (v.gatherAll gs).store.grains := by
  unfold Dev.gatherAll
  generalize sortBy (fun x : Grain => x.seq) gs = l
  induction l generalizing v y with
  | nil => exact ⟨y.stripe, hy⟩
  | cons g l ih =>
    obtain ⟨t, ht⟩ := v.gather_grain g hy
    exact ih (v.gather g) (y := { y with stripe := t }) ht

theorem Dev.count_store (v : Dev) (region cls idx ev n : Nat) : (v.count region cls idx ev n).store = v.store := by
  obtain ⟨p, hp⟩ := v.count_frame region cls idx ev n
  rw [hp]

/-- What follows the gathering of an append's grains leaves the platform. -/
theorem Dev.markHeld_append_platform {v : Dev} {c : Ctx} (hk : c.kind = .append) : (v.markHeld c).platform = (v.appendHeld c).platform := by
  have hfinish : ∀ (y : Dev) (b : Bool) (f : Ctx → Ctx) (d : Ctx) (off len n : Nat),
      (if b = true then y.adjCtx c.id f else y.completeCtx d stOk false off len n).platform = y.platform := fun y b f d off len n => by
    split
    · rfl
    · exact y.completeCtx_platform ..
  cases htag : c.grantTag with
  | none =>
    simp only [Dev.markHeld, hk, htag]
    exact hfinish ..
  | some t =>
    simp only [Dev.markHeld, hk, htag]
    exact (hfinish ..).trans (Dev.endGrant_platform ..)

/-- A grain of an append that is held stands in the buffer, held from now on. -/
theorem Dev.markHeld_append_grain {v : Dev} {c : Ctx} (hk : c.kind = .append) {y : Grain} (hy : y ∈ v.store.grains) (hctx : y.ctx = c.id) :
    ∃ t, { y with held := true, dirtyAt := v.now, stripe := t } ∈ (v.markHeld c).store.grains := by
  have hstore : ∀ {a b : Dev}, a.platform = b.platform → a.store = b.store := fun h => Dev.of_platform h (·.store) fun _ => rfl
  have hheld : { y with held := true, dirtyAt := v.now } ∈ v.heldGrains c := List.mem_map.mpr ⟨y, hy, if_pos hctx⟩
  rw [hstore (Dev.markHeld_append_platform hk), Dev.appendHeld]
  refine Dev.gatherAll_grain _ _ (y := { y with held := true, dirtyAt := v.now }) ?_
  rw [Dev.chainDone, Dev.count_store, Dev.count_store, Dev.count_store]
  exact hheld

/-! ### Grains made -/

/-- The grains of an append under two copies. -/
theorem Dev.makeGrains_two {v : Dev} {c : Ctx} (hprimary : c.noPrimary = false) {y : Grain} (hy : y ∈ v.makeGrains c true) :
    y.ctx = c.id ∧ y.spire = c.arrival ∧ y.primary.isSome = true ∧ y.mirror = y.primary ∧ y.held = false ∧
      y.claim = c.claim ∧ y.key = c.msg.cap.key ∧ y.profK = c.desc.k ∧ y.profM = c.desc.m ∧ y.profVer = c.claimVer := by
  obtain ⟨j, -, rfl⟩ := List.mem_map.mp hy
  rw [hprimary]
  exact ⟨rfl, rfl, rfl, rfl, rfl, rfl, rfl, rfl, rfl, rfl⟩

theorem Dev.makeGrains_length (v : Dev) (c : Ctx) (two : Bool) : (v.makeGrains c two).length = c.grains := by
  rw [Dev.makeGrains, List.length_map, List.length_range]

/-- The device once the grains of an append are stored. -/
def Dev.grainsStored (v : Dev) (c : Ctx) (two : Bool) : Dev :=
  ((({ v.serveCipher c.arrival.val 1 c.grains with
    nextId := (v.serveCipher c.arrival.val 1 c.grains).nextId + c.grains
    store := { (v.serveCipher c.arrival.val 1 c.grains).store with
      grains := (v.serveCipher c.arrival.val 1 c.grains).store.grains ++ v.makeGrains c two } } : Dev).adjCtx c.id
        (fun y => { y with phase := .stored, waited := v.earlierUnheld c })).count c.arrival.val 0x06 0 0x001 c.grains)

theorem Dev.ctx_adjCtx {v : Dev} {id : Nat} {c : Ctx} (hc : v.ctx id = some c) {f : Ctx → Ctx} (hf : ∀ x, (f x).id = x.id) :
    (v.adjCtx id f).ctx id = some (f c) := by
  rw [Dev.ctx, Dev.adjCtx, find?_updFirst (fun x hx => by rw [hf]; exact hx), ← Dev.ctx, hc, Option.map_some]

end Sys2Proof.Machine

open Sys2Proof Sys2Proof.Machine

/-- Settles O54: each event by its guard and its effect. -/
theorem commandEvents : Obligations.CommandEvents := by
  intro s id sn tag qp imm c g x f v
  refine ⟨fun hf hgone => ?_, fun hleft hf => ?_, fun hc hphase hdue => ⟨fun hfew => ?_, fun hroom => ?_⟩,
    fun hc hphase hspire hcipher hslice hreach htwo hfrozen => ?_, fun hc hno => ?_, fun hc hk hphase hearlier hwait => ⟨?_, fun y hy hctx => ?_⟩,
    fun hc hno => ?_, fun hsn hg hc hphase himm => ⟨fun hlen => ?_, fun hlen => ?_⟩, fun hg hstate hdue hc => ?_, fun hnone => ?_,
    fun r hx hr hends => ?_, fun r hx hr hearly => ?_⟩
  · have hany : s.dev.store.grains.any (fun y => f.grains.contains y.id) = false :=
      List.any_eq_false.mpr fun y hy => by rw [List.contains_iff_mem]; exact hgone y hy
    refine State.next_congr ?_
    simp only [show s.dev.hosts.flushes.find? (fun y => y.id == id) = some f from hf, hany, Bool.false_eq_true, if_false]
    cases f.lost <;> rfl
  · obtain ⟨y, hy, hmem⟩ := hleft
    have hany : s.dev.store.grains.any (fun y => f.grains.contains y.id) = true :=
      List.any_eq_true.mpr ⟨y, hy, List.contains_iff_mem.mpr hmem⟩
    exact State.next_same (by simp only [show s.dev.hosts.flushes.find? (fun y => y.id == id) = some f from hf, hany, if_true])
  · exact State.next_congr (by simp only [show s.dev.ctx id = some c from hc, hphase, show s.dev.atBell _ = true from hdue, beq_self_eq_true, Bool.and_self, if_true,
      Dev.refuseWait, hfew] <;> rfl)
  · exact State.next_congr (by simp only [show s.dev.ctx id = some c from hc, hphase, show s.dev.atBell _ = true from hdue, beq_self_eq_true, Bool.and_self, if_true,
      Dev.refuseWait, Nat.not_lt.mpr hroom, if_false] <;> rfl)
  · have hid : c.id = id := eq_of_beq (List.find?_some (p := fun c : Ctx => c.id == id) hc)
    have hprimary : c.noPrimary = false := by
      simp only [Dev.twoCopies, Bool.and_eq_true, Bool.not_eq_true'] at htwo
      exact htwo.2
    obtain ⟨pm, hpm⟩ : ∃ pm, s.dev.grainsStored c true = { ({ s.dev.serveCipher c.arrival.val 1 c.grains with
        nextId := (s.dev.serveCipher c.arrival.val 1 c.grains).nextId + c.grains
        store := { (s.dev.serveCipher c.arrival.val 1 c.grains).store with
          grains := (s.dev.serveCipher c.arrival.val 1 c.grains).store.grains ++ s.dev.makeGrains c true } } : Dev).adjCtx c.id
            (fun y => { y with phase := .stored, waited := s.dev.earlierUnheld c }) with pmon := pm } := Dev.count_frame ..
    refine ⟨s.dev.grainsStored c true, s.dev.makeGrains c true, ?_, ?_, s.dev.makeGrains_length c true, fun y hy => Dev.makeGrains_two hprimary hy,
      ⟨{ c with phase := .stored, waited := s.dev.earlierUnheld c }, ?_, rfl, rfl⟩, ?_, ?_⟩
    · refine State.next_congr ?_
      simp only [show s.dev.ctx id = some c from hc, hphase, show s.dev.spireUp _ = true from hspire, show s.dev.cipherUp _ = true from hcipher,
        show s.dev.sliceUp _ = true from hslice, show s.dev.reaches _ _ = true from hreach, show s.dev.twoCopies c = true from htwo,
        show s.dev.chip.frozenIn = false from hfrozen, beq_self_eq_true, Bool.and_self, Bool.true_or, Bool.not_false, Bool.or_true, if_true]
      rw [← hid]
      rfl
    · rw [hpm]
      rfl
    · rw [hpm, ← hid]
      exact Dev.ctx_adjCtx (f := fun y => { y with phase := .stored, waited := s.dev.earlierUnheld c }) (hid ▸ hc) fun _ => rfl
    · rw [hpm]
      rfl
    · rw [hpm]
      rfl
  · refine State.next_same ?_
    simp only [show s.dev.ctx id = some c from hc]
    refine if_neg fun h => ?_
    simp only [Bool.and_eq_true, beq_iff_eq, Bool.or_eq_true, bne_iff_ne] at h
    obtain ⟨⟨⟨⟨⟨hphase, -⟩, hcipher⟩, hslice, -⟩, htwo⟩, -⟩ := h
    rcases hno with hother | hdown | hdown | ⟨hone, hservice⟩
    · exact hother hphase
    · exact Bool.false_ne_true (hdown.symm.trans hslice)
    · exact Bool.false_ne_true (hdown.symm.trans hcipher)
    · exact htwo.elim (fun h => Bool.false_ne_true (hone.symm.trans h)) (· hservice)
  · refine State.next_congr ?_
    have hdue : (!c.waited || decide (s.dev.lastHeldOf c + 64 ≤ s.dev.mono)) = true := by
      rcases hwait with hnot | hlate
      · rw [hnot]; rfl
      · rw [decide_eq_true hlate, Bool.or_true]
    simp only [Dev.holdIfDue, show s.dev.ctx id = some c from hc, Dev.holdable, hphase, show s.dev.earlierUnheld c = false from hearlier, hdue, beq_self_eq_true,
      Bool.not_false, Bool.and_self, if_true] <;> rfl
  · have hid : c.id = id := eq_of_beq (List.find?_some (p := fun c : Ctx => c.id == id) hc)
    obtain ⟨t, ht⟩ := Dev.markHeld_append_grain hk hy (hctx.trans hid.symm)
    exact ⟨_, ht, rfl, rfl, rfl, rfl, rfl⟩
  · refine State.next_same ?_
    simp only [Dev.holdIfDue, show s.dev.ctx id = some c from hc]
    refine if_neg fun h => ?_
    simp only [Dev.holdable, Bool.and_eq_true, beq_iff_eq, Bool.not_eq_true', Bool.or_eq_true, decide_eq_true_eq] at h
    obtain ⟨⟨hstored, hearlier⟩, hdue⟩ := h
    rcases hno with hother | hunheld | ⟨hwaited, hearly⟩
    · exact hother hstored
    · exact Bool.false_ne_true (hearlier.symm.trans hunheld)
    · exact hdue.elim (fun h => Bool.false_ne_true (h.symm.trans hwaited)) (Nat.not_le.mpr hearly)
  · exact State.next_congr (by simp only [show s.dev.sessionOf qp = some sn from hsn, show s.dev.hosts.grants.find? _ = some g from hg,
      show s.dev.ctx g.ctx = some c from hc, hphase, himm, bne_self_eq_false, Bool.or_self, Bool.false_eq_true, if_false, hlen, ne_eq, not_false_eq_true,
      if_true] <;> rfl)
  · refine ⟨{ c with staged := some (memReadBytes s.dev.winMem (winAddr g.window g.offset) g.length), msg := { c.msg with at_ := g.sigAt } }, ?_,
      rfl, rfl, rfl, rfl⟩
    exact State.next_congr (by simp only [show s.dev.sessionOf qp = some sn from hsn, show s.dev.hosts.grants.find? _ = some g from hg,
      show s.dev.ctx g.ctx = some c from hc, hphase, himm, bne_self_eq_false, Bool.or_self, Bool.false_eq_true, if_false, hlen, ne_eq, not_true_eq_false] <;> rfl)
  · exact State.next_congr (by simp only [show s.dev.hosts.grants.find? _ = some g from hg, hstate, show s.dev.atBell _ = true from hdue,
      show s.dev.ctx g.ctx = some c from hc, beq_self_eq_true, Bool.and_self, if_true] <;> rfl)
  · exact State.next_same (by simp only [show s.dev.hosts.grants.find? _ = none from hnone])
  · exact State.next_congr (by simp only [show s.dev.session sn = some x from hx, Option.bind_some, hr, show r.ends ≤ s.dev.clk.aging from hends, if_true] <;> rfl)
  · exact State.next_same (by simp only [show s.dev.session sn = some x from hx, Option.bind_some, hr, Nat.not_le.mpr (show s.dev.clk.aging < r.ends from hearly),
      if_false])
end



section
/-! SUPPORT. A ring entry is 64 B only where the reply a completion carries is at most 32 B (R121): a longer one makes a longer
packet. -/

namespace Sys2Proof.Machine

/-- A completion that waits for its ring entry and carries a reply of 40 B. -/
def longReply : Built :=
  ⟨.completion ⟨0, 0, false, 0, 0, 0, 0, 0, 0, 0, 0, 0, 0, 0, 0, zeros 40⟩, none, none, false, none, false⟩

/-- The path the entry leaves on. -/
def replyPath : Path := ⟨0, 5, .live, 0, 0x77, 1, 0, 0, none, false, 0, false⟩

/-- The session of the entry, with a ring of 4096 free slots. -/
def replySession : Session :=
  ⟨1, 0, 0x99, 100, 1, 0, [], some 0, 0x1000, 4096, 0, 0, false, none, [longReply], [], 0, 0, 0, [], [], [], [replyPath], none, none⟩

/-- The queue pair of the path, with nothing in flight. -/
def replyQp : Qp :=
  ⟨3, 0, 0, false, 0, 4096, 3, 10, 10, 10, false, none, 20, [], [], 65536, none, 0, none, 0, 0, none, 0, 0, ⟨false, 100, 200, 1000, 1000, 100, 200, 1000, 1000⟩, 0, 0, 0, 0, none, 0⟩

/-- A device in SERVICE with that session on port 0. -/
def longReplyDev : Dev := { Dev.reset with
  chip := { Chip.reset with
    mode := { Chip.reset.mode with mode := .service }
    frozenIn := false
    spires := [(0, { SpireRec.reset with state := .up })] }
  hosts := { Dev.reset.hosts with
    ports := [(0, { NetPort.reset with linkUp := 1 })]
    sessions := [(3, replySession)]
    qps := [(5, replyQp)] } }

/-- The sizes of what the queue pair has in flight once the entry is written. -/
def bytesInFlight (v : Dev) : List Nat :=
  match exec (.ringEntryWrite 3) ⟨[], v⟩ with
  | .next t => (t.dev.qp 5).elim [] fun z => z.unacked.map (·.bytes)
  | _ => []

theorem bytesInFlight_longReply : bytesInFlight longReplyDev = [72] := by decide +kernel

end Sys2Proof.Machine

open Sys2Proof Sys2Proof.Machine

/-- Refutes O44: the entry of `longReplyDev` carries a reply of 40 B, so that its packet has 72 B and not the 64 B of a ring
entry. -/
theorem not_completionRing : ¬ Obligations.CompletionRing := by
  intro h
  obtain ⟨u, -, hrun, -, -, -, -, ⟨z, k, hz, hk, -, hbytes, -⟩, -⟩ :=
    (h.2.1 ⟨[], longReplyDev⟩ 3 replySession longReply [] replyPath replyQp).1 (by decide +kernel) (by decide +kernel) rfl (by decide +kernel)
      (by decide +kernel) (by decide +kernel) (by decide +kernel) rfl (by decide +kernel)
  have hsizes : z.unacked.map (·.bytes) = [72] := by
    rw [← bytesInFlight_longReply, bytesInFlight, hrun]
    exact (congrArg (fun o : Option Qp => o.elim [] fun z => z.unacked.map (·.bytes)) hz).symm
  have hmem : k.bytes ∈ z.unacked.map (·.bytes) := List.mem_map_of_mem hk
  rw [hsizes, hbytes] at hmem
  exact absurd hmem (by decide)

end



section
/-! SUPPORT. A bay command that times out and is sent again on its port (R198). -/
namespace Sys2Proof.Machine

/-- A fault event takes back nothing put out. -/
theorem Dev.mem_out_faultIn {v : Dev} {o : Out} (h : o ∈ v.out) (f : FaultInfo) (injected : Bool) : o ∈ (v.faultIn f injected).out := by
  have hnote : ∀ (w : Dev) (a b : FaultRec), o ∈ w.out → o ∈ (w.noteFault a b).out := by
    intro w a b hw
    have hraise : ∀ y : Dev, y.out = w.out → o ∈ (if a.cls != b.cls then y.raiseVec .pf0 256 else y).out := by
      intro y hy
      split
      · obtain ⟨ep, out, hvec⟩ := y.raiseVec_out .pf0 256
        rw [hvec]
        exact List.mem_append_left _ (hy ▸ hw)
      · exact hy ▸ hw
    unfold Dev.noteFault
    exact hraise _ (by split <;> rfl)
  unfold Dev.faultIn
  split
  · exact h
  · dsimp only
    split
    · exact h
    · exact hnote _ _ _ h

/-- A bay command sent again. -/
def BayOp.resent (o : BayOp) (p : BayPort) (cid now : Nat) (switched : Bool) : BayOp :=
  { o with port := p, cid := cid, sent := true, issued := now, switched := switched, lease := o.lease.map (fun l => (p, l.2)) }

theorem Dev.op_resendOp {w : Dev} {o x : BayOp} (h : w.op o.id = some x) (p : BayPort) (switched : Bool) :
    (w.resendOp o p switched).op o.id = some (o.resent p (w.freeCid o.bay) w.now switched) :=
  (find?_updFirst (p := fun x : BayOp => x.id == o.id) (f := fun _ => o.resent p (w.freeCid o.bay) w.now switched)
    (fun _ _ => beq_self_eq_true _) _).trans (congrArg (Option.map _) h)

/-- The device once a command sent is leased, in quarantine and aborted. -/
def Dev.abortedOp (v : Dev) (o : BayOp) (lease : BayPort × Nat) : Dev :=
  ({ v.adjOp o.id (fun x => { x with lease := some lease }) with
    store := { (v.adjOp o.id (fun x => { x with lease := some lease })).store with
      quar := v.store.quar ++ [(⟨o.bay, o.port, o.cid, v.now⟩ : Quarantine)] } } : Dev).emit (.bayAbort o.bay o.port o.cid)

/-- A write of a stripe that times out while sent is put in quarantine and aborted, and its lease is taken. -/
theorem Dev.takeTimeout_frame {v : Dev} {o : BayOp} {t pos : Nat} (hsent : o.sent = true) (huse : o.use = .settle t pos) (lease : BayPort × Nat) :
    ∃ fa fc ep out pm bays, .bayAbort o.bay o.port o.cid ∈ out ∧ v.takeTimeout o lease = { v with
      store := { v.store with
        ops := updFirst (fun x => x.id == o.id) (fun x => { x with lease := some lease }) v.store.ops
        quar := v.store.quar ++ [(⟨o.bay, o.port, o.cid, v.now⟩ : Quarantine)]
        bays := bays }
      faults := fa, fcLast := fc, ep := ep, out := out, pmon := pm } := by
  obtain ⟨pm, hcount⟩ := (v.abortedOp o lease).count_frame (baySpire o.bay o.port) 0x05 (bayGroup o.bay o.port) 0x004 1
  have habort : .bayAbort o.bay o.port o.cid ∈ (v.abortedOp o lease).out := List.mem_append_right _ (List.mem_singleton_self _)
  generalize hinst : (o.bay * 2 + match o.port with | .A => 0 | .B => 1) = inst
  have hmem := Dev.mem_out_faultIn (v := { v.abortedOp o lease with pmon := pm }) habort
    ⟨srcOf 0x040 (baySpire o.bay o.port) inst, none, 0xFFFF, BitVec.ofNat 8 5, BitVec.ofNat 64 o.lba, BitVec.ofNat 32 o.cid, BitVec.ofNat 32 o.lba,
      BitVec.ofNat 32 0⟩ false
  obtain ⟨fa, fc, ep, out, hfault⟩ := Dev.faultIn_frame { v.abortedOp o lease with pmon := pm }
    ⟨srcOf 0x040 (baySpire o.bay o.port) inst, none, 0xFFFF, BitVec.ofNat 8 5, BitVec.ofNat 64 o.lba, BitVec.ofNat 32 o.cid, BitVec.ofNat 32 o.lba,
      BitVec.ofNat 32 0⟩ false
  obtain ⟨bays, hactive⟩ := Dev.fixActive_frame
    { v.abortedOp o lease with pmon := pm, faults := fa, fcLast := fc, ep := ep, out := out } o.bay
  rw [hfault] at hmem
  refine ⟨fa, fc, ep, out, pm, bays, hmem, ?_⟩
  have htake : v.takeTimeout o lease = (((v.abortedOp o lease).count (baySpire o.bay o.port) 0x05 (bayGroup o.bay o.port) 0x004 1).faultAt 0x040
      (baySpire o.bay o.port) inst 5 o.lba o.cid o.lba 0).fixActive o.bay := by
    unfold Dev.takeTimeout
    simp only [hsent, huse, if_true]
    rw [← hinst]
    rfl
  rw [htake, hcount, Dev.faultAt, hfault, hactive]
  rfl

end Sys2Proof.Machine

open Sys2Proof Sys2Proof.Machine

/-- Settles O58: each event by the command, the lease or the read it names. -/
theorem bayCommandEvents : Obligations.BayCommandEvents := by
  intro s op id cid o b q r imgs st c t p first n v
  refine ⟨fun ho hcmd hsent hreach huse => ?_, fun ho hcmd hsent hreach huse => ?_, fun ho hno => ?_, fun hnone => ?_, fun ho hno => ?_,
    fun ho hdue hsent hlease huse hcap hswitched hretries => ?_, fun pt due ho hlease hdue => ?_, fun sp blk cell due hfind hdue => ?_,
    fun sp blk due hfind hdue => ?_, fun hr hrun hlate => ?_, fun hr hrun => ?_, fun hq => ?_, fun hnone => ?_, ⟨_, rfl, rfl, fun y => ?_⟩⟩
  · exact State.next_congr (by simp only [show s.dev.op op = some o from ho, BayOp.isWrite, hcmd, hsent, show s.dev.dataReaches o = true from hreach,
      bne_self_eq_false, Bool.not_true, Bool.or_self, Bool.false_eq_true, if_false, Dev.opRead, huse] <;> rfl)
  · exact State.next_congr (by simp only [show s.dev.op op = some o from ho, BayOp.isWrite, hcmd, hsent, show s.dev.dataReaches o = true from hreach,
      bne_self_eq_false, Bool.not_true, Bool.or_self, Bool.false_eq_true, if_false, Dev.opEnds, huse] <;> rfl)
  · have hkept : (o.isWrite || !o.sent || !s.dev.dataReaches o) = true := by
      rcases hno with hcmd | hsent | hreach
      · rw [BayOp.isWrite, bne_iff_ne.mpr hcmd, Bool.true_or, Bool.true_or]
      · rw [hsent, Bool.not_false, Bool.or_true, Bool.true_or]
      · rw [show s.dev.dataReaches o = false from hreach, Bool.not_false, Bool.or_true]
    exact ⟨State.next_same (by simp only [show s.dev.op op = some o from ho, hkept, if_true]),
      State.next_same (by simp only [show s.dev.op op = some o from ho, hkept, if_true])⟩
  · have hnone' : s.dev.op op = none := hnone
    exact ⟨State.next_same (by simp only [hnone']), State.next_same (by simp only [hnone']),
      State.next_same (by simp only [hnone', Option.bind_none])⟩
  · refine State.next_same ?_
    simp only [show s.dev.op op = some o from ho]
    refine if_pos ?_
    rcases hno with hearly | ⟨hsent, hruns⟩
    · rw [show s.dev.atBell _ = false from hearly, Bool.not_false, Bool.or_true]
    · rw [hsent, show s.dev.stalled o = false from hruns]
      rfl
  · obtain ⟨fa, fc, ep, out, pm, bays, hout, htake⟩ := Dev.takeTimeout_frame (v := s.dev) hsent huse (o.port, s.dev.now + s.dev.leaseCap o)
    have hid : o.id = op := eq_of_beq (List.find?_some (p := fun x : BayOp => x.id == op) ho)
    have hlive : decide (s.dev.now < s.dev.now + s.dev.leaseCap o) = true := decide_eq_true (Nat.lt_add_of_pos_right hcap)
    have hexec : exec (.ioTimeout op) s = .next (s.withDev (((s.dev.takeTimeout o (o.port, s.dev.now + s.dev.leaseCap o)).resendOp
        { o with lease := some (o.port, s.dev.now + s.dev.leaseCap o), retries := o.retries + 1 } o.port false).pump o.bay)) :=
      State.next_congr (by simp only [show s.dev.op op = some o from ho, hsent, show s.dev.atBell (o.issued + max 1 (s.dev.ioTimeout o)) = true from hdue, hlease, hlive, hswitched,
        show o.retries < s.dev.sameRetries o from hretries, Bool.true_or, Bool.not_true, Bool.or_self, Bool.false_eq_true, if_false, Bool.not_false,
        decide_true, Bool.and_self, if_true] <;> rfl)
    refine ⟨_, hexec, ?_, ?_, ?_⟩
    · rw [htake]
      exact List.mem_append_left _ hout
    · rw [htake]
      exact List.mem_append_right _ (List.mem_singleton_self _)
    · have hleased : (s.dev.takeTimeout o (o.port, s.dev.now + s.dev.leaseCap o)).op o.id = some { o with lease := some (o.port, s.dev.now + s.dev.leaseCap o) } := by
        rw [htake]
        exact (find?_updFirst (p := fun x : BayOp => x.id == o.id) (f := fun x : BayOp => { x with lease := some (o.port, s.dev.now + s.dev.leaseCap o) })
          (fun _ h => h) _).trans (congrArg (Option.map _) (hid ▸ ho))
      have hnow : (s.dev.takeTimeout o (o.port, s.dev.now + s.dev.leaseCap o)).now = s.dev.now := by
        rw [htake]
        rfl
      have hop := Dev.op_resendOp (o := { o with lease := some (o.port, s.dev.now + s.dev.leaseCap o), retries := o.retries + 1 }) hleased o.port false
      rw [hnow] at hop
      generalize Dev.freeCid _ _ = free at hop
      rw [← hid]
      exact ⟨_, hop, rfl, rfl, rfl, rfl⟩
  · exact State.next_congr (by simp only [show s.dev.op op = some o from ho, Option.bind_some, hlease, show s.dev.atBell due = true from hdue, if_true,
      Dev.passLease] <;> rfl)
  · exact State.next_congr (by simp only [show s.dev.recov.find? _ = _ from hfind, show s.dev.atBell due = true from hdue, if_true, Dev.passLease] <;> rfl)
  · exact State.next_congr (by simp only [show s.dev.recov.find? _ = _ from hfind, show s.dev.atBell due = true from hdue, if_true, Dev.passLease] <;> rfl)
  · refine State.next_congr ?_
    simp only [show s.dev.readCtx id = some r from hr]
    refine if_pos ?_
    rw [hrun, Bool.true_and]
    exact decide_eq_true (Nat.le_trans hlate (Nat.le_add_right _ _))
  · exact State.next_same (by simp only [show s.dev.readCtx id = some r from hr, hrun, Option.isSome_none, Bool.false_and, Bool.false_eq_true, if_false])
  · exact State.next_congr (by simp only [show s.dev.store.quar.find? _ = some q from hq] <;> rfl)
  · exact State.next_same (by simp only [show s.dev.store.quar.find? _ = none from hnone])
  · simp only [List.mem_filter, Bool.not_eq_true', Bool.and_eq_false_iff, beq_eq_false_iff_ne, Classical.not_and_iff_not_or_not, Bool.not_eq_true, or_assoc]
    rfl
end



section
/-! SUPPORT. Doorbells, and a ring that enters ERROR (R396, R399, R400). -/
namespace Sys2Proof.Machine

section
variable {v : Dev} {addr : Nat} {go : Dev}

theorem Dev.doorbell_reached (h : v.reachable .pf0 = true) (hfrozen : v.ep.frozen = false) : v.doorbell addr go = go := by
  have hlink : v.ep.link = true := by
    simp only [Dev.reachable, Bool.and_eq_true] at h
    exact h.1.1.1
  simp only [Dev.doorbell, hlink, h, hfrozen, Bool.not_true, Bool.false_eq_true, if_false]

theorem Dev.doorbell_linkless (h : v.ep.link = false) : v.doorbell addr go = v := by
  simp only [Dev.doorbell, h, Bool.not_false, if_true]

theorem Dev.doorbell_unreachable (hlink : v.ep.link = true) (h : v.reachable .pf0 = false) : v.doorbell addr go = v.answerUr .pf0 addr := by
  simp only [Dev.doorbell, hlink, h, Bool.not_true, Bool.false_eq_true, if_false, Bool.not_false, if_true]

/-- A doorbell that would change nothing leaves the device of a function that is reached. -/
theorem Dev.doorbell_idle (h : v.reachable .pf0 = true) (hgo : go = v) : v.doorbell addr go = v := by
  have hlink : v.ep.link = true := by
    simp only [Dev.reachable, Bool.and_eq_true] at h
    exact h.1.1.1
  simp only [Dev.doorbell, hlink, h, hgo, Bool.not_true, Bool.false_eq_true, if_false, ite_self]

end

/-- A vector raised is sent, or stands pending. -/
theorem Dev.raiseVec_raised (v : Dev) (n : Nat) : Out.msix .pf0 n ∈ (v.raiseVec .pf0 n).out ∨ n ∈ (v.raiseVec .pf0 n).ep.pf0.pba := by
  unfold Dev.raiseVec
  dsimp only
  split
  · exact .inl (List.mem_append_right _ (List.mem_singleton_self _))
  · refine .inr ?_
    show n ∈ (if (v.func .pf0).pba.contains n then (v.func .pf0).pba else (v.func .pf0).pba ++ [n])
    split
    next h => exact List.contains_iff_mem.mp h
    · exact List.mem_append_right _ (List.mem_singleton_self _)

/-- A ring in error. -/
def Ring.failed (x : Ring) (code : Nat) : Ring :=
  { x with state := .error, errCode := code, fetches := [], slots := [], counted := 0, firstAt := none }

/-- A ring that enters ERROR changes the rings, the commands and the replies, and its vector. -/
theorem Dev.ringError_frame (v : Dev) (r code : Nat) : ∃ ep out, v.ringError r code =
    { (v.orphanRing r).setRing r ((v.ring r).failed code) with ep := ep, out := out } :=
  Dev.raiseVec_frame ..

end Sys2Proof.Machine

open Sys2Proof Sys2Proof.Machine

/-- Settles O34: the doorbells by what the function lets through, the other events by the state of the ring. -/
theorem ringCommands : Obligations.RingCommands := by
  refine ⟨fun s r value slots x => ⟨fun hreach hfrozen hx hrun hbeyond => ⟨?_, ?_⟩, fun hreach hfrozen hx hrun hin => ?_,
    fun hreach hfrozen hx hrun hin => ?_, fun hlink => ⟨State.next_same (Dev.doorbell_linkless hlink), State.next_same (Dev.doorbell_linkless hlink)⟩,
    fun hlink hreach => ⟨State.next_congr (Dev.doorbell_unreachable hlink hreach), State.next_congr (Dev.doorbell_unreachable hlink hreach)⟩,
    fun hreach hx hstop => State.next_same (Dev.doorbell_idle hreach ?_), fun hx hstop => ⟨?_, ?_⟩, fun hx hrun hdue => ?_, fun hx hrun => ?_,
    fun hx hdrain hcmds => ?_⟩, fun v r code => ?_⟩
  · exact State.next_congr ((Dev.doorbell_reached hreach hfrozen).trans (by simp only [Dev.sqTail, show s.dev.ring r.val = x from hx, hrun, bne_self_eq_false,
      Bool.false_eq_true, if_false, show s.dev.ringEntries r.val ≤ value.toNat from hbeyond, if_true]))
  · exact State.next_congr ((Dev.doorbell_reached hreach hfrozen).trans (by simp only [Dev.stHeadWrite, show s.dev.ring r.val = x from hx, hrun, bne_self_eq_false,
      Bool.false_eq_true, if_false, show s.dev.ringEntries r.val ≤ value.toNat from hbeyond, if_true]))
  · exact State.next_congr ((Dev.doorbell_reached hreach hfrozen).trans (by simp only [Dev.sqTail, show s.dev.ring r.val = x from hx, hrun, bne_self_eq_false,
      Bool.false_eq_true, if_false, Nat.not_le.mpr (show value.toNat < s.dev.ringEntries r.val from hin), Fin.ofNat_val_eq_self] <;> rfl))
  · exact State.next_congr ((Dev.doorbell_reached hreach hfrozen).trans (by simp only [Dev.stHeadWrite, show s.dev.ring r.val = x from hx, hrun, bne_self_eq_false,
      Bool.false_eq_true, if_false, Nat.not_le.mpr (show value.toNat < s.dev.ringEntries r.val from hin), Fin.ofNat_val_eq_self] <;> rfl))
  · simp only [Dev.sqTail, show s.dev.ring r.val = x from hx, bne_iff_ne.mpr hstop, if_true]
  · exact State.next_same (if_neg (by rw [show s.dev.ring r.val = x from hx, beq_false_of_ne hstop]; exact Bool.false_ne_true))
  · exact State.next_same (if_neg (by rw [show s.dev.ring r.val = x from hx, beq_false_of_ne hstop, Bool.and_false]; exact Bool.false_ne_true))
  · subst hx
    exact State.next_congr (if_pos (by rw [hdue, hrun]; rfl))
  · subst hx
    exact State.next_congr (if_pos (by rw [hrun]; rfl))
  · subst hx
    exact State.next_congr (if_pos (by rw [hdrain, show s.dev.floder.cmds = [] from hcmds]; rfl))
  · obtain ⟨ep, out, hvec⟩ := Dev.ringError_frame v r.val code
    refine ⟨?_, ?_, ?_, ?_, fun q hq => ?_, Dev.raiseVec_raised .., fun x hx hsrc => ?_, ?_, ?_, ?_, ?_⟩
    · rw [hvec]
      exact congrArg Ring.state (Tab.getD_set ..)
    · rw [hvec]
      exact congrArg Ring.errCode (Tab.getD_set ..)
    · rw [hvec]
      exact congrArg Ring.slots (Tab.getD_set ..)
    · rw [hvec]
      exact congrArg Ring.fetches (Tab.getD_set ..)
    · rw [hvec]
      exact Tab.getD_set_ne _ _ _ hq
    · rw [hvec] at hx
      have hmine := (List.mem_filter.mp hx).2
      rw [hsrc] at hmine
      simp only [beq_self_eq_true, Bool.not_true, Bool.false_eq_true] at hmine
    all_goals
      rw [hvec]
      rfl
end



section
/-! SUPPORT. What the reads, the vectors and the rings of the endpoint leave alone (R424 to R429). -/
namespace Sys2Proof.Machine

/-- The device without what requests of the endpoint, its vectors and the commands of its rings move. -/
def Dev.offline (v : Dev) : Dev :=
  { v with
    floder := Dev.reset.floder
    hosts := Dev.reset.hosts
    faults := []
    fcLast := 0
    out := []
    freeTick := 0
    nextId := 0
    ep := { v.ep with
      pf0 := { v.ep.pf0 with tags := [], pba := [] }
      pf1 := { v.ep.pf1 with pba := [] } } }

section
variable (v : Dev)

theorem Dev.raiseVec_offline (p : Pf) (n : Nat) : (v.raiseVec p n).offline = v.offline := by
  unfold Dev.raiseVec
  dsimp only
  split
  · rfl
  · cases p <;> rfl

theorem Dev.faultIn_offline (f : FaultInfo) (injected : Bool) : (v.faultIn f injected).offline = v.offline := by
  have hnote : ∀ (w : Dev) (a b : FaultRec), (w.noteFault a b).offline = w.offline := by
    intro w a b
    have hraise : ∀ y : Dev, y.offline = w.offline → (if a.cls != b.cls then y.raiseVec .pf0 256 else y).offline = w.offline := by
      intro y hy
      split
      · exact (y.raiseVec_offline .pf0 256).trans hy
      · exact hy
    unfold Dev.noteFault
    exact hraise _ (by split <;> rfl)
  unfold Dev.faultIn
  split
  · rfl
  · dsimp only
    split
    · rfl
    · exact hnote _ _ _

theorem Dev.fault_offline (type region inst d0 d1 d2 : Nat) : (v.fault type region inst d0 d1 d2).offline = v.offline := v.faultIn_offline _ _

theorem Dev.finish_offline (id : Nat) (st : Byte) (r0 r1 r2 : Nat) (data : List Byte) : (v.finish id st r0 r1 r2 data).offline = v.offline := by
  rw [v.finish_frame id st r0 r1 r2 data]
  rfl

theorem Dev.abortData_offline (c : Nat) : (v.abortData c).offline = v.offline := by
  unfold Dev.abortData
  split
  · exact v.finish_offline ..
  · rfl

theorem Dev.readEnds_offline (r : EpRead) : (v.readEnds r).offline = v.offline := by
  unfold Dev.readEnds
  split
  · exact v.abortData_offline _
  · rfl

theorem Dev.ringError_offline (r code : Nat) : (v.ringError r code).offline = v.offline :=
  (Dev.raiseVec_offline ..).trans rfl

theorem Dev.readFaults_offline (r : EpRead) : (v.readFaults r).offline = v.offline := by
  unfold Dev.readFaults
  dsimp only
  split
  · split
    · exact (Dev.ringError_offline ..).trans (v.readEnds_offline r)
    · exact v.readEnds_offline r
  · exact v.readEnds_offline r

theorem Dev.epRead_offline {what : ReadFor} {w : Dev} (h : v.epRead what = some w) : w.offline = v.offline := by
  unfold Dev.epRead at h
  dsimp only at h
  split at h
  · cases h
    rfl
  · cases h

theorem Dev.takeHead_offline (op : Nat) (p : Packet) : (v.takeHead op p).1.offline = v.offline := by
  unfold Dev.takeHead
  split
  · rfl
  · rfl
  · split
    · rfl
    · split <;> rfl
  · rfl

theorem Dev.startData_offline {op : Nat} {p : Packet} {w : Dev} (h : v.startData op p = some w) : w.offline = v.offline := by
  unfold Dev.startData at h
  dsimp only at h
  split at h
  · cases h
  next y hread =>
    cases h
    exact (y.takeHead_offline op p).trans ((Dev.epRead_offline _ hread).trans rfl)

theorem Dev.floderStart_offline {op : Nat} {p : Packet} {w : Dev} {id : Nat} {st : Option Byte} (h : v.floderStart op p = some (w, id, st)) :
    w.offline = v.offline := by
  unfold Dev.floderStart at h
  dsimp only at h
  split at h
  · split at h
    · cases h
    · cases h
      rfl
  · split at h
    · cases h
      exact (v.takeHead_offline op p)
    · cases h

theorem Dev.skipUnlisted_offline (n : Nat) (src : Source) : (Dev.skipUnlisted n v src).offline = v.offline := by
  induction n generalizing v with
  | zero => rfl
  | succ n ih =>
    unfold Dev.skipUnlisted
    split
    · rfl
    · split
      · split
        · split
          · rfl
          next w hdata => exact (ih w).trans (v.startData_offline hdata)
        · rfl
      · split
        · rfl
        · split
          · rfl
          next w id st hstart => exact (ih _).trans ((Dev.finish_offline ..).trans (v.floderStart_offline hstart))

theorem Dev.skipHeads_offline (src : Source) : (v.skipHeads src).offline = v.offline := v.skipUnlisted_offline _ src

theorem Dev.issueFetches_offline (r : Nat) : (v.issueFetches r).offline = v.offline := by
  refine foldl_pi (β := Dev) (·.offline) _ (fun x f => ?_) _ _
  dsimp only
  split
  · rfl
  next y hread => exact (Dev.epRead_offline x hread ▸ rfl)

theorem Dev.epResume_offline : v.epResume.offline = v.offline :=
  foldl_pi (α := Nat × Ring) (β := Dev) (·.offline) _ (fun x e => (Dev.skipHeads_offline _ _).trans (x.issueFetches_offline e.1)) _ _

theorem Dev.epResume_ringless {v : Dev} (h : v.floder.rings = []) : v.epResume = v := by
  rw [Dev.epResume, h]
  rfl

/-- The vectors that a function sends at last change its vectors and what is put out. -/
theorem Dev.flushVectors_frame (pf : Pf) : ∃ ep out, v.flushVectors pf = { v with ep := ep, out := out } := by
  unfold Dev.flushVectors
  dsimp only
  split
  · cases pf <;> exact ⟨_, _, rfl⟩
  · exact ⟨v.ep, v.out, rfl⟩

theorem Dev.flushVectors_offline (pf : Pf) : (v.flushVectors pf).offline = v.offline := by
  unfold Dev.flushVectors
  dsimp only
  split
  · cases pf <;> rfl
  · rfl

/-- A function without pending vectors sends none. -/
theorem Dev.flushVectors_none {v : Dev} {pf : Pf} (h : (v.func pf).pba = []) : v.flushVectors pf = v := by
  unfold Dev.flushVectors
  dsimp only
  split
  · have hkept : (v.func pf).pba.filter (fun n => (v.func pf).masked n) = (v.func pf).pba := by rw [h]; rfl
    have hsent : (v.func pf).pba.filter (fun n => !(v.func pf).masked n) = [] := by rw [h]; rfl
    rw [hkept, hsent]
    cases pf <;> exact congrArg (fun out => ({ v with out := out } : Dev)) (List.append_nil _)
  · rfl

theorem Dev.linkLost_frame (cause : Nat) : ∃ fa fc ep out ft, v.linkLost cause =
    { v with faults := fa, fcLast := fc, ep := ep, out := out, freeTick := ft } := by
  obtain ⟨fa, fc, ep, out, h⟩ := Dev.fault_frame { v.free32.2 with ep := { v.free32.2.ep with link := false, speed := 0, width := 0 } } 0x0E0
    v.free32.2.epRegion 0 v.free32.1.toNat cause 0
  exact ⟨fa, fc, ep, out, v.free32.2.freeTick, h⟩

/-- The rings given up take their commands, their replies and their registers with them. -/
theorem Dev.dropRings_frame : ∃ (fl : Floder) (ch : Tab ChainQ), v.dropRings =
    ({ v with floder := { fl with rings := [] }, hosts := { v.hosts with chains := ch } } : Dev).clearRegs 0xC00000 0x100000 := by
  have horphan : ∀ (l : List Nat) (w : Dev), ∃ fl, l.foldl (fun x r => x.orphanRing r) w = { w with floder := fl } := by
    intro l
    induction l with
    | nil => exact fun w => ⟨w.floder, rfl⟩
    | cons r l ih =>
      intro w
      obtain ⟨fl, h⟩ := ih (w.orphanRing r)
      exact ⟨fl, h⟩
  have habort : ∀ (l : List Nat) (w : Dev), ∃ fl ch, l.foldl (fun x c => x.abortData c) w =
      { w with floder := fl, hosts := { w.hosts with chains := ch } } := by
    intro l
    induction l with
    | nil => exact fun w => ⟨w.floder, w.hosts.chains, rfl⟩
    | cons c l ih =>
      intro w
      obtain ⟨fl, ch, hc⟩ : ∃ fl ch, w.abortData c = { w with floder := fl, hosts := { w.hosts with chains := ch } } := by
        unfold Dev.abortData
        split
        · exact ⟨_, _, w.finish_frame ..⟩
        · exact ⟨w.floder, w.hosts.chains, rfl⟩
      obtain ⟨fl', ch', h⟩ := ih (w.abortData c)
      rw [hc] at h
      exact ⟨fl', ch', by rw [List.foldl_cons, hc, h]⟩
  obtain ⟨fl, hfl⟩ := horphan (v.floder.rings.map (·.1)) v
  obtain ⟨fl', ch, habort'⟩ := habort ((v.floder.cmds.filter (fun c => c.data == .reading)).map (·.id)) { v with floder := fl }
  refine ⟨fl', ch, ?_⟩
  unfold Dev.dropRings
  dsimp only
  rw [hfl, habort']

end

/-- What a filter on keys lets go is gone. -/
theorem Tab.get_filter_of_not {α : Type} (t : Tab α) (f : Nat → Bool) {o : Nat} (h : f o = false) :
    Tab.get (t.filter (fun e => f e.1)) o = none := by
  induction t with
  | nil => rfl
  | cons e t ih =>
    obtain ⟨k, x⟩ := e
    by_cases hk : k = o
    · rw [List.filter_cons_of_neg (by rw [hk, h]; exact Bool.false_ne_true), ih]
    · cases hf : f k
      · rw [List.filter_cons_of_neg (by rw [hf]; exact Bool.false_ne_true), ih]
      · rw [List.filter_cons_of_pos (p := fun e : Nat × α => f e.1) hf]
        simp only [Tab.get, hk, if_false]
        exact ih

theorem Dev.cfg_clearRegs_in (v : Dev) {lo n o : Nat} (hlo : lo ≤ o) (hhi : o < lo + n) : (v.clearRegs lo n).cfg o = cfgReset o := by
  have hget := Tab.get_filter_of_not v.regs.active (fun o => decide (o < lo) || decide (lo + n ≤ o)) (o := o)
    (by simp only [Nat.not_lt.mpr hlo, Nat.not_le.mpr hhi, decide_false, Bool.or_self])
  exact congrArg (·.getD (cfgReset o)) hget

theorem Dev.cfg_clearRegs_out (v : Dev) {lo n o : Nat} (h : o < lo ∨ lo + n ≤ o) : (v.clearRegs lo n).cfg o = v.cfg o := by
  have hget := Tab.get_filter v.regs.active (fun o => decide (o < lo) || decide (lo + n ≤ o)) (o := o)
    (by simpa only [Bool.or_eq_true, decide_eq_true_eq] using h)
  exact congrArg (·.getD (cfgReset o)) hget

theorem Dev.link_of_reachable {v : Dev} {pf : Pf} (h : v.reachable pf = true) : v.ep.link = true := by
  simp only [Dev.reachable, Bool.and_eq_true] at h
  exact h.1.1.1

theorem Dev.flr_of_reachable {v : Dev} (h : v.reachable .pf0 = true) : v.ep.pf0.flr = none := by
  simp only [Dev.reachable, Bool.and_eq_true, Option.isNone_iff_eq_none] at h
  exact h.2

theorem bit_zero_of_getLsbD {w : Word} {b : Bool} (h : w.getLsbD 0 = b) : bit w.toNat 0 = b := by
  rw [← h, BitVec.getLsbD, Nat.testBit_zero, bit, Nat.pow_zero, Nat.div_one]
  by_cases hodd : w.toNat % 2 = 1
  · rw [hodd]; rfl
  · rw [decide_eq_false hodd, beq_false_of_ne hodd]

/-- The device frozen by an uncorrectable error. -/
def Dev.frozenBy (v : Dev) (c : FreezeCause) : Dev :=
  { v with
    ep := { v.ep with frozen := true, releaseReq := false, freezeBell := v.now, cause := if v.ep.frozen = true then v.ep.cause else freezeCode c }
    pmon := { v.pmon with snap := { v.pmon.snap with pendingWrites := [] } } }

/-- The device with its link up at a speed and width. -/
def Dev.linkedUp (v : Dev) (a b : Fin 16) : Dev :=
  { v with ep := { v.ep with link := true, speed := a.val, width := b.val, keepB := v.ep.keepB || !v.keepSound .A } }

/-- The device with its link over the other Keep. -/
def Dev.failedOver (v : Dev) : Dev :=
  { v with ep := { v.ep with link := true, keepB := true, failing := none, driving := false, failovers := (v.ep.failovers + 1) % 256 } }

/-- The device after the fault of a failover since a bell, its vectors sent. -/
def Dev.failoverTold (v : Dev) (b : Nat) : Dev :=
  (((v.fault 0x0E6 v.epRegion 0 (v.now - b) 0 0).raiseVec .pf0 258).flushVectors .pf0).flushVectors .pf1

theorem Dev.failoverTold_frame (v : Dev) (b : Nat) : ∃ fa fc ep out, v.failoverTold b = { v with faults := fa, fcLast := fc, ep := ep, out := out } := by
  obtain ⟨fa, fc, ep, out, h⟩ := v.fault_frame 0x0E6 v.epRegion 0 (v.now - b) 0 0
  obtain ⟨ep', out', h'⟩ := Dev.raiseVec_frame { v with faults := fa, fcLast := fc, ep := ep, out := out } .pf0 258
  obtain ⟨ep2, out2, h2⟩ := Dev.flushVectors_frame { v with faults := fa, fcLast := fc, ep := ep', out := out' } .pf0
  obtain ⟨ep3, out3, h3⟩ := Dev.flushVectors_frame { v with faults := fa, fcLast := fc, ep := ep2, out := out2 } .pf1
  exact ⟨fa, fc, ep3, out3, by rw [Dev.failoverTold, h, h', h2, h3]⟩

/-- The device with the functions of its endpoint reset. -/
def Dev.endpointReset (v : Dev) : Dev :=
  { v with
    ep := { v.ep with pf0 := Func.reset, pf1 := Func.reset, ignored := false, releaseReq := false }
    pmon := { v.pmon with snap := { v.pmon.snap with pendingWrites := [] } } }

/-- The device with the tag of a read put in quarantine. -/
def Dev.quarantined (v : Dev) (pf : Pf) (tag : BitVec 14) : Dev :=
  (v.retireTag pf tag.toNat).setFunc pf { (v.retireTag pf tag.toNat).func pf with
    quarantine := ((v.retireTag pf tag.toNat).func pf).quarantine ++ [(tag.toNat, v.now)] }

/-- The device once a read has timed out. -/
def Dev.timedOut (v : Dev) (pf : Pf) (tag : BitVec 14) (r : EpRead) : Dev :=
  (((v.quarantined pf tag).readFaults r).fault 0x0E3 (v.quarantined pf tag).epRegion (pfNo pf) tag.toNat ((v.ringOfRead r).getD 0)
    (v.readAddress r % 2 ^ 32)).epResume

end Sys2Proof.Machine

open Sys2Proof Sys2Proof.Machine

/-- Settles O36: each event by its guard; what it leaves by the frames of the vectors, the reads and the rings. -/
theorem endpointEvents : Obligations.EndpointEvents := by
  refine ⟨fun s a b c h value => ⟨fun hmode hlink hfailing hp3 => ?_, fun hlink => ?_, fun hlink hc hrings => ?_, fun hreach hflr hbit hfrozen hbell => ?_,
    fun hreach hbit => ?_, fun n hfailing hdriving hlate => ?_, fun n hfailing hdriving hrings => ?_⟩,
    fun s pf tag st f why => ⟨fun hf htags hquar => ?_, fun cmd since hf htags hfrozen hrings => ?_, fun hf htags => ?_, fun r hf hr hlate => ?_,
      fun since hf hquar hlate hrings => ?_, fun hf hflr => ?_, fun hf hflr => ⟨?_, ?_, ?_⟩, fun hf hflr hlink hpba hrings => ?_, fun hf hflr hlink => ?_,
      fun n hf hflr htags => ?_, fun n hf hflr htags => ?_, fun kind hmode hlink => ?_⟩⟩
  · have hlate : (s.dev.mode != .held && (s.dev.mode != .boot || decide (4 ≤ s.dev.chip.boot.stage))) = true := by
      rcases hmode with h | h | h <;> rw [h] <;> rfl
    have hoff := ((s.dev.linkedUp a b).flushVectors_offline .pf0 |> (Dev.flushVectors_offline _ .pf1).trans)
    obtain ⟨ep, out, hflush⟩ := (s.dev.linkedUp a b).flushVectors_frame .pf0
    obtain ⟨ep', out', hflush'⟩ := ((s.dev.linkedUp a b).flushVectors .pf0).flushVectors_frame .pf1
    refine ⟨((s.dev.linkedUp a b).flushVectors .pf0).flushVectors .pf1, State.next_congr (if_pos ?_), congrArg (·.ep.link) hoff, congrArg (·.ep.speed) hoff,
      congrArg (·.ep.width) hoff, ?_, ?_, ?_, ?_, ?_⟩
    · rw [hlate, show s.dev.ep.link = false from hlink, show s.dev.ep.failing = none from hfailing, show s.dev.sec.p3 = false from hp3]
      rfl
    all_goals
      rw [hflush', hflush]
      rfl
  · exact State.next_same (if_neg (by rw [show s.dev.ep.link = true from hlink, Bool.not_true, Bool.and_false, Bool.false_and, Bool.false_and]; exact Bool.false_ne_true))
  · have hexec : exec (.epAerUncorrectable c h) s = .next (s.withDev ((s.dev.frozenBy c).fault 0x0E1 (s.dev.frozenBy c).epRegion 0 (freezeCode c) h.toNat
        (s.dev.ep.pf0.tags.length + s.dev.ep.pf1.tags.length))) := by
      refine State.next_congr ((if_neg (by rw [show s.dev.ep.link = true from hlink]; exact Bool.false_ne_true)).trans ?_)
      simp only [show s.dev.floder.rings = [] from hrings, hc, if_false, List.filter_nil, List.map_nil, List.foldl_nil] <;> rfl
    exact hexec
  · have hlink := Dev.link_of_reachable hreach
    refine State.next_congr ?_
    simp only [show s.dev.ep.link = true from hlink, show s.dev.reachable .pf0 = true from hreach, Bool.not_true, Bool.and_false, Bool.false_eq_true, if_false,
      if_true, Dev.releaseFreeze, bit_zero_of_getLsbD hbit, show s.dev.ep.pf1.flr = none from hflr, Dev.flr_of_reachable hreach, Option.isNone_none,
      Bool.and_self, show s.dev.ep.frozen = true from hfrozen, bne_iff_ne.mpr (show s.dev.ep.freezeBell ≠ s.dev.now from hbell), Bool.or_true] <;> rfl
  · have hlink := Dev.link_of_reachable hreach
    refine State.next_same ?_
    simp only [show s.dev.ep.link = true from hlink, show s.dev.reachable .pf0 = true from hreach, Bool.not_true, Bool.and_false, Bool.false_eq_true, if_false,
      if_true, Dev.releaseFreeze, bit_zero_of_getLsbD hbit, Bool.not_false]
  · have hdue : s.dev.atBell (n + 1) = true := by rw [Dev.atBell, decide_eq_true (show n + 1 ≤ s.dev.now from hlate), Bool.true_or]
    exact State.next_congr (by simp only [show s.dev.ep.failing = some n from hfailing, hdue, show s.dev.ep.driving = false from hdriving, Bool.not_false,
      Bool.and_self, if_true] <;> rfl)
  · have hoff : (s.dev.failedOver.failoverTold n).offline = s.dev.failedOver.offline :=
      (Dev.flushVectors_offline _ _).trans ((Dev.flushVectors_offline _ _).trans ((Dev.raiseVec_offline ..).trans (Dev.fault_offline ..)))
    obtain ⟨fa, fc, ep, out, hfl⟩ := s.dev.failedOver.failoverTold_frame n
    have hexec : exec .epFailoverComplete s = .next (s.withDev (s.dev.failedOver.failoverTold n)) := by
      refine State.next_congr ?_
      simp only [show s.dev.ep.failing = some n from hfailing, show s.dev.ep.driving = true from hdriving, if_true]
      refine Eq.trans ?_ (Dev.epResume_ringless (v := s.dev.failedOver.failoverTold n) ?_)
      · rfl
      · rw [hfl]
        exact hrings
    refine ⟨_, hexec, rfl, congrArg (·.ep.link) hoff, congrArg (·.ep.keepB) hoff, congrArg (·.ep.failing) hoff, congrArg (·.ep.driving) hoff,
      congrArg (·.ep.failovers) hoff, ?_, ?_, ?_, ?_⟩
    all_goals
      rw [State.withDev_dev, hfl]
      rfl
  · subst hf
    exact State.next_congr (by simp only [htags, hquar, List.find?_nil] <;> rfl)
  · have hfunc : s.dev.func .pf0 = f := hf
    have hfind : f.tags.find? (fun r => r.tag == tag.toNat) = some ⟨tag.toNat, since, .data cmd, false⟩ := by
      rw [htags]
      exact List.find?_cons_of_pos (beq_self_eq_true _)
    refine State.next_congr ?_
    have hlive : ¬ s.dev.ep.frozen = true := Bool.eq_false_iff.mp hfrozen
    simp only [hfunc, hfind, Bool.false_or, if_neg hlive, bne_self_eq_false, Bool.false_eq_true, if_false]
    have hretire : s.dev.retireTag .pf0 tag.toNat = s.dev.setFunc .pf0 { f with tags := [] } := by
      rw [Dev.retireTag, hfunc, htags]
      simp only [List.filter_cons, bne_self_eq_false, Bool.false_eq_true, if_false, List.filter_nil]
    rw [hretire]
    refine (Dev.epResume_ringless ?_).trans ?_
    · exact hrings
    · have hmap : s.dev.floder.cmds.map (fun x => if (decide (x.id = cmd) && decide (x.data = .reading)) = true then { x with data := .ready } else x) =
          s.dev.floder.cmds.map (fun x => if x.id = cmd ∧ x.data = .reading then { x with data := .ready } else x) :=
        List.map_congr_left fun x _ => ite_iff_congr (by simp only [Bool.and_eq_true, decide_eq_true_eq]) rfl rfl
      exact congrArg (fun l => ({ s.dev with
        ep := { s.dev.ep with pf0 := { f with tags := [] } }
        floder := { s.dev.floder with cmds := l } } : Dev)) hmap
  · subst hf
    exact State.next_same (by simp only [htags, List.find?_nil])
  · subst hf
    have hdue : s.dev.atBell (r.since + s.dev.cto) = true := by rw [Dev.atBell, decide_eq_true (show _ ≤ s.dev.now from hlate), Bool.true_or]
    have hoff : (s.dev.timedOut pf tag r).offline = (s.dev.quarantined pf tag).offline :=
      (Dev.epResume_offline _).trans ((Dev.fault_offline ..).trans (Dev.readFaults_offline ..))
    have hquar : (s.dev.quarantined pf tag).store = s.dev.store ∧ (s.dev.quarantined pf tag).chip = s.dev.chip ∧
        (s.dev.quarantined pf tag).regs = s.dev.regs := by cases pf <;> exact ⟨rfl, rfl, rfl⟩
    obtain ⟨hstore, hchip, hregs⟩ := hquar
    refine ⟨_, State.next_congr (u := s.dev.timedOut pf tag r) ?_, rfl, ?_, (congrArg Dev.store hoff).trans hstore, (congrArg Dev.chip hoff).trans hchip,
      (congrArg Dev.regs hoff).trans hregs⟩
    · simp only [hr, hdue, Bool.not_true, Bool.false_eq_true, if_false] <;> rfl
    · cases pf
      · rw [show ((s.withDev (s.dev.timedOut .pf0 tag r)).dev.func .pf0).quarantine = _ from congrArg (·.ep.pf0.quarantine) hoff]
        exact List.mem_append_right _ (List.mem_singleton_self _)
      · rw [show ((s.withDev (s.dev.timedOut .pf1 tag r)).dev.func .pf1).quarantine = _ from congrArg (·.ep.pf1.quarantine) hoff]
        exact List.mem_append_right _ (List.mem_singleton_self _)
  · subst hf
    have hdue : s.dev.atBell (since + 4 * s.dev.cto) = true := by
      rw [Dev.atBell, decide_eq_true (show _ ≤ s.dev.now from hlate), Bool.true_or]
    refine State.next_congr ((Dev.epResume_ringless ?_).trans ?_)
    · cases pf <;> exact hrings
    · rw [hquar, List.filter_cons_of_neg (by simp only [beq_self_eq_true, hdue, Bool.and_self, Bool.not_true, Bool.false_eq_true, not_false_eq_true])]
      rfl
  · subst hf
    exact State.next_congr (if_neg (by rw [hflr]; exact Bool.false_ne_true))
  · subst hf
    exact State.next_same (if_pos hflr)
  · subst hf
    exact State.next_same (if_pos (by rw [hflr, Bool.true_or]))
  · subst hf
    exact State.next_same (if_pos (by rw [hflr, Bool.or_true]))
  · subst hf
    refine State.next_congr ((if_neg (by rw [hflr, show s.dev.ep.link = true from hlink]; exact Bool.false_ne_true)).trans ?_)
    rw [Dev.flushVectors_none (by cases pf <;> exact hpba)]
    exact Dev.epResume_ringless (by cases pf <;> exact hrings)
  · subst hf
    exact State.next_congr (if_neg (by rw [hflr, show s.dev.ep.link = true from hlink]; exact Bool.false_ne_true))
  · subst hf
    refine State.next_congr ?_
    simp only [hflr, htags, List.isEmpty_nil, Bool.true_or, if_true, List.map_nil, List.append_nil]
  · subst hf
    obtain ⟨fl, ch, hdrop⟩ := s.dev.dropRings_frame
    have hexec : exec (.flrComplete .pf0) s = .next (s.withDev (s.dev.dropRings.setFunc .pf0 { Func.reset with quarantine := (s.dev.func .pf0).quarantine })) := by
      refine State.next_congr ?_
      simp only [hflr, htags, List.isEmpty_nil, Bool.true_or, if_true, List.map_nil, List.append_nil]
    rw [hdrop] at hexec
    exact ⟨_, hexec, rfl, rfl, rfl, fun o hlo hhi => Dev.cfg_clearRegs_in _ hlo hhi, fun o ho => Dev.cfg_clearRegs_out _ ho⟩
  · obtain ⟨fl, ch, hdrop⟩ := s.dev.dropRings_frame
    have hexec : exec (.epReset kind) s = .next (s.withDev s.dev.dropRings.endpointReset) := by
      refine State.next_congr ((if_neg fun h => hmode (eq_of_beq h)).trans (if_neg ?_))
      rw [hdrop]
      exact fun h => Bool.false_ne_true (hlink.symm.trans h)
    rw [hdrop] at hexec
    exact ⟨_, hexec, rfl, rfl, rfl, rfl, rfl, rfl, rfl, rfl⟩

end



section
/-! SUPPORT. The way of a request packet (R219, R222, R223). -/
namespace Sys2Proof.Machine

section
variable {s : State} {p : ReqPacket} {q q1 : Qp} {w2 : Dev}

/-- What becomes of a packet that the policer passes. -/
def Dev.passedPacket (v w2 : Dev) (p : ReqPacket) (q : Qp) : Dev :=
  match q.psnClass p.psn with
  | .duplicate => w2.offPsn p.qp q .duplicate
  | .ahead => w2.offPsn p.qp q .ahead
  | .inOrder =>
    let send := match p.op with | .send => true | .sendImm _ => true | _ => false
    let len := match v.session q.session with | some x => v.plainLen x p.message | none => p.message.msgLen
    let capsule := p.first && (!p.last || decide (64 ≤ len))
    let drainWait := v.mode == .drain && v.chip.drain.purpose == .shutdown
    if !send then (w2.nextPsn p.qp).respond p.qp (.nakInvalid p.psn)
    else if capsule && !drainWait && w2.noSlot p.qp then
      (w2.respond p.qp (.rnrNak p.psn (v.spireCfg q.home.val 6 0x30010 12 8))).countPort q.port.val 0x01A 1
    else
      let v3 := w2.nextPsn p.qp
      (if p.last then v3.deliver q.session p else v3).pfcCheck q.port.val

theorem execRequestPacket_policed (hready : s.dev.qpReady p.qp = true) (hq : s.dev.qp p.qp = some q)
    (hq1 : (s.dev.packetSeen p.qp q p.cost p.ce).qp p.qp = some q1) : exec (.requestPacket p) s = .next (s.withDev
      (if ((s.dev.packetSeen p.qp q p.cost p.ce).policed p.qp q1 p.cost p.bytes).2 = true then
        s.dev.passedPacket ((s.dev.packetSeen p.qp q p.cost p.ce).policed p.qp q1 p.cost p.bytes).1 p q
      else ((s.dev.packetSeen p.qp q p.cost p.ce).policed p.qp q1 p.cost p.bytes).1)) := by
  refine State.next_congr ?_
  simp only [hready, Bool.not_true, Bool.false_eq_true, if_false, hq, hq1, Option.getD_some]
  generalize (s.dev.packetSeen p.qp q p.cost p.ce).policed p.qp q1 p.cost p.bytes = r
  obtain ⟨w2, b⟩ := r
  cases b <;> rfl

theorem execRequestPacket_passed (hready : s.dev.qpReady p.qp = true) (hq : s.dev.qp p.qp = some q)
    (hq1 : (s.dev.packetSeen p.qp q p.cost p.ce).qp p.qp = some q1)
    (hpass : ((s.dev.packetSeen p.qp q p.cost p.ce).policed p.qp q1 p.cost p.bytes).2 = true) : exec (.requestPacket p) s = .next (s.withDev
      (s.dev.passedPacket ((s.dev.packetSeen p.qp q p.cost p.ce).policed p.qp q1 p.cost p.bytes).1 p q)) := by
  rw [execRequestPacket_policed hready hq hq1, if_pos hpass]

end

end Sys2Proof.Machine

open Sys2Proof Sys2Proof.Machine

/-- Settles O40: the policer first, then the class of the PSN, then what a packet in order asks for. -/
theorem requestPackets : Obligations.RequestPackets := by
  refine ⟨fun s p q q1 => ⟨fun hidle => ?_, fun hready hq hq1 hdrop => ?_, fun hready hq hq1 hpass hpsn hold => ?_,
    fun hready hq hq1 hpass hpsn hnew hnak => ?_, fun hready hq hq1 hpass hpsn hnew hnak => ?_,
    fun hready hq hq1 hpass hpsn hop hfirst hlast hmode hslot => ?_, fun hready hq hq1 hpass hpsn himm hsend => ?_⟩,
    fun s p q q1 w2 hready hq hq1 hpass hpsn hop hslot => ?_⟩
  · exact State.next_same (by simp only [show s.dev.qpReady p.qp = false from hidle, Bool.not_false, if_true])
  · rw [execRequestPacket_policed hready hq hq1, if_neg (Bool.eq_false_iff.mp hdrop)]
  · rw [execRequestPacket_passed hready hq hq1 hpass]
    refine State.next_congr ?_
    simp only [Dev.passedPacket, Qp.psnClass, hpsn, hold, if_false, if_true, Dev.offPsn]
  · rw [execRequestPacket_passed hready hq hq1 hpass]
    refine State.next_congr ?_
    simp only [Dev.passedPacket, Qp.psnClass, hpsn, hnew, hnak, if_false, Bool.false_eq_true, Dev.offPsn]
  · rw [execRequestPacket_passed hready hq hq1 hpass]
    refine State.next_congr ?_
    simp only [Dev.passedPacket, Qp.psnClass, hpsn, hnew, hnak, if_false, if_true, Bool.false_eq_true, Dev.offPsn]
  · rw [execRequestPacket_passed hready hq hq1 hpass]
    refine State.next_congr ?_
    have hdrain : (s.dev.mode == .drain) = false := beq_false_of_ne hmode
    simp only [Dev.passedPacket, Qp.psnClass, hpsn, hop, hfirst, hlast, hdrain, hslot, if_true, Bool.not_true, Bool.not_false, Bool.true_or, Bool.true_and,
      Bool.false_and, Bool.false_eq_true, if_false, Bool.and_self] <;> rfl
  · rw [execRequestPacket_passed hready hq hq1 hpass]
    refine State.next_congr ?_
    simp only [Dev.passedPacket, Qp.psnClass, hpsn, if_true]
    cases hop : p.op with
    | send => exact absurd hop hsend
    | sendImm i => exact absurd hop (himm i)
    | _ => rfl
  · rw [execRequestPacket_passed hready hq hq1 (by rw [show Dev.policed _ _ _ _ _ = (w2, true) from hpass]), show Dev.policed _ _ _ _ _ = (w2, true) from hpass]
    refine State.next_congr ?_
    simp only [Dev.passedPacket, Qp.psnClass, hpsn, hop, hslot, if_true, Bool.not_true, Bool.and_false, Bool.false_eq_true, if_false] <;> rfl
end



section
/-! SUPPORT. The judgement of a connection request, and the queue pair it is given (R221, R225). -/
namespace Sys2Proof.Machine

/-- What a port hears changes nothing that a connection request is judged by. -/
theorem Dev.rejectCode_received (v : Dev) (n len : Nat) (r : CmReq) : (v.received n len).rejectCode r = v.rejectCode r := by
  obtain ⟨sp, p, h⟩ := v.received_frame n len
  rw [h]
  rfl

section
variable {v : Dev} {r : CmReq} {x : Session}

/-- The checks of a request before its session is looked up. -/
structure Dev.Judges (v : Dev) (r : CmReq) : Prop where
  open_ : v.chip.drain.offReady = false
  service : r.serviceId = 0x5856
  rc : r.rc = true
  mtu : 1024 ≤ r.mtu

theorem Dev.Judges.badKind (h : v.Judges r) : (r.serviceId != 0x5856 || !r.rc || decide (r.mtu < 1024)) = false := by
  obtain ⟨-, hservice, hrc, hmtu⟩ := h
  simp only [hservice, hrc, Nat.not_lt.mpr hmtu, bne_self_eq_false, Bool.not_true, decide_false, Bool.or_self]

/-- The judgement of a request of a session that exists. -/
def Dev.joinCode (v : Dev) (r : CmReq) (s : Session) : Option Byte :=
  let home := portSpire r.port.val
  let enabled := match v.claimDesc s.claim with | some d => d.enable | none => false
  let held := if (v.heldOn s home).isSome then 1 else 0
  if s.cookie != r.cookie then some 0x01
  else if !enabled then some 0x08
  else if s.maxPaths ≤ s.paths.length - held then some 0x02
  else if s.paths.any (fun p => p.state != .held && v.pathHome p == home) then some 0x03
  else if 16384 ≤ v.hosts.qps.length - held || 4096 ≤ v.homedOn home - held then some 0x04
  else if !(Machine.ringOk r.ringVa r.ringEntries)
      || (!s.paths.isEmpty && (s.ringVa != r.ringVa || s.ringEntries != r.ringEntries.toNat)) then some 0x06
  else none

theorem Dev.rejectCode_formed (h : v.Judges r) (hjoin : joinOk r = true) :
    v.rejectCode r = match v.session (joinSession r) with | none => some 0x01 | some s => v.joinCode r s := by
  unfold Dev.rejectCode
  simp only [h.open_, h.badKind, hjoin, Bool.false_eq_true, if_false, Bool.not_true]
  rfl

/-- A request with the right cookie, for an enabled claim, that finds no held path at its home. -/
theorem Dev.joinCode_enabled {d : ClaimDesc} (hcookie : x.cookie = r.cookie) (hd : v.claimDesc x.claim = some d) (hen : d.enable = true)
    (hheld : v.heldOn x (portSpire r.port.val) = none) : v.joinCode r x =
      if x.maxPaths ≤ x.paths.length then some 0x02
      else if x.paths.any (fun p => p.state != .held && v.pathHome p == portSpire r.port.val) then some 0x03
      else if 16384 ≤ v.hosts.qps.length || 4096 ≤ v.homedOn (portSpire r.port.val) then some 0x04
      else if !(Machine.ringOk r.ringVa r.ringEntries)
          || (!x.paths.isEmpty && (x.ringVa != r.ringVa || x.ringEntries != r.ringEntries.toNat)) then some 0x06
      else none := by
  unfold Dev.joinCode
  simp only [hcookie, hd, hen, hheld, bne_self_eq_false, Bool.not_true, Bool.false_eq_true, if_false, Option.isSome_none, Nat.sub_zero]

/-- The path given to a request that finds no held path (R225). -/
def Dev.joinedPath (v : Dev) (r : CmReq) (x : Session) : Path :=
  ⟨x.freeIndex.getD 0, Tab.freeKey v.hosts.qps, .pending, 0, r.ringRkey, r.notifyCount.toNat, r.notifyStrokes.toNat, 0, none, false,
    0, false⟩

/-- The session of a request that finds no held path, with the path it is given. -/
def Dev.joinedSession (v : Dev) (r : CmReq) (x : Session) : Session :=
  { x with
    anchor := some (x.anchor.getD (Fin.ofNat 4 (portSpire r.port.val)))
    ringVa := if x.paths.isEmpty then r.ringVa else x.ringVa
    ringEntries := if x.paths.isEmpty then r.ringEntries.toNat else x.ringEntries
    consumed := if x.paths.isEmpty then x.nextSeq else x.consumed
    consumerBusy := !x.paths.isEmpty && x.consumerBusy
    paths := x.paths ++ [v.joinedPath r x] }

/-- The device with the queue pair and the path of a request, before its answer is queued. -/
def Dev.joinedDev (v : Dev) (r : CmReq) (x : Session) : Dev :=
  ((v.setSession (joinSession r) (v.joinedSession r x)).setQp (Tab.freeKey v.hosts.qps) (v.newQp r)).bound r.port.val

/-- R293: the change of mode a bind asks for leaves the line rate of every port. -/
theorem Dev.bound_frame (v : Dev) (n : Nat) : ∃ ps,
    v.bound n = { v with hosts := { v.hosts with ports := ps } } ∧ ∀ m, ((v.bound n).port m).breakout = (v.port m).breakout := by
  unfold Dev.bound
  split
  · refine ⟨_, rfl, fun m => ?_⟩
    by_cases h : m = n
    · rw [h, Dev.port_setPort]
    · rw [Dev.port_setPort_ne _ _ h]
  · exact ⟨v.hosts.ports, rfl, fun _ => rfl⟩

theorem Dev.gateAdmits_congr {w : Dev} (hregs : w.regs = v.regs) (hports : ∀ m, (w.port m).breakout = (v.port m).breakout) (n k : Nat)
    (f : Frame) : w.gateAdmits n k f = v.gateAdmits n k f := by
  have hcfg : ∀ o hi lo, w.cfgBits o hi lo = v.cfgBits o hi lo := fun o hi lo => by
    unfold Dev.cfgBits Dev.cfg
    rw [hregs]
  have hcfg' : ∀ o, w.cfg o = v.cfg o := fun o => by
    unfold Dev.cfg
    rw [hregs]
  unfold Dev.gateAdmits Dev.gateEn Dev.gateSegs Dev.gateList Dev.gateDefault
  simp only [hcfg, hcfg', hports]

/-- A frame the gates of its port let in is queued. -/
theorem Dev.mem_queue_enqueue (n k : Nat) (f : Frame) (h : v.gateAdmits n k f = true) : f ∈ ((v.enqueue n k f).eg n k).queue := by
  unfold Dev.enqueue
  rw [if_pos h, Dev.eg_setEg]
  exact List.mem_append_right _ (List.mem_singleton_self f)

theorem Dev.qp_bound (v : Dev) (n m : Nat) : (v.bound n).qp m = v.qp m := by
  obtain ⟨ps, h, -⟩ := v.bound_frame n
  rw [h]
  rfl

/-- A new queue pair is the one of its request. -/
theorem Dev.qp_joinedDev (v : Dev) (r : CmReq) (x : Session) :
    (v.joinedDev r x).qp (Tab.freeKey v.hosts.qps) = some (v.newQp r) := by
  unfold Dev.joinedDev
  rw [Dev.qp_bound, Dev.qp_setQp]

/-- The answer to a request that passes every check. -/
def Dev.joinAnswer (v : Dev) (r : CmReq) (x : Session) : Wire :=
  .rep (Tab.freeKey v.hosts.qps) (repBytes (Tab.freeKey v.hosts.qps) (portSpire r.port.val)
    ((v.joinedDev r x).anchor (v.joinedSession r x)) (x.freeIndex.getD 0) x.floor x.nextSeq)

theorem portSpire_fin (n : Fin 8) : (Fin.ofNat 4 (portSpire n.val) : Spire).val = portSpire n.val :=
  Nat.mod_eq_of_lt (Nat.div_lt_of_lt_mul (Nat.lt_of_lt_of_le n.isLt (by decide)))

/-- R225: a request that passes every check and replaces no held path. -/
theorem execCmReq_joins {s : State} {w : Dev} (hon : s.dev.transportOn = true) (hlink : s.dev.linkUp r.port.val r.sub.val = true)
    (hw : s.dev.receivedCm r.port.val r.ipv6 = w) (hcode : w.rejectCode r = none) (hx : w.session (joinSession r) = some x)
    (hheld : w.heldOn x (portSpire r.port.val) = none) :
    exec (.cmReq r) s = .next (s.withDev <| (w.joinedDev r x).sendLocal r.port.val r.sub.val r.ipv6 (w.joinAnswer r x)) := by
  have hsend : ∀ wire, (w.joinedDev r x).sendAbout (Tab.freeKey w.hosts.qps) wire
      = (w.joinedDev r x).sendLocal r.port.val r.sub.val r.ipv6 wire := fun wire => by
    unfold Dev.sendAbout
    rw [Dev.qp_joinedDev]
    rfl
  refine State.next_congr ((if_neg (by rw [hon, hlink]; exact Bool.false_ne_true)).trans ?_)
  simp only [hw, hcode, hx, portSpire_fin, hheld]
  exact hsend _

end

end Sys2Proof.Machine

open Sys2Proof Sys2Proof.Machine

/-- Settles O39: the exclusive chain of reject codes, the path a request is given, and the frames that end one. -/
theorem connectionManagement : Obligations.ConnectionManagement := by
  refine ⟨fun s r qp len port sub a => ⟨fun c hon hlink hcode => ?_, fun hoff => ⟨?_, ?_, ?_⟩, fun sn hon hsn hpend => ?_, fun hpend => ⟨?_, ?_⟩,
    fun hpend => ?_, fun q hon hq => ?_, fun hon hlink hown => ?_, fun hon hlink hown => ?_, fun hlink hfrozen => ?_⟩,
    fun v r x d => ⟨fun hoff => ?_, fun hon hkind => ?_, fun hon hservice hrc hmtu hbad => ?_, fun hon hservice hrc hmtu hjoin => ?_⟩,
    fun s r x hon hlink hcode hx hheld => ?_⟩
  · refine State.next_congr ((if_neg (by rw [hon, hlink]; exact Bool.false_ne_true)).trans ?_)
    simp only [Dev.receivedCm, Dev.rejectCode_received, show s.dev.rejectCode r = some c from hcode]
    rfl
  · exact State.next_same (if_pos (by rw [hoff, Bool.false_and]; rfl))
  · exact State.next_same (if_neg (by rw [hoff, Bool.false_and]; exact Bool.false_ne_true))
  · refine State.next_same ?_
    cases hq : s.dev.qp qp with
    | none => simp only [hq]
    | some q => simp only [hq, show s.dev.transportOn = false from hoff, Bool.false_eq_true, if_false]
  · exact State.next_congr ((if_pos (by rw [hon, hpend]; rfl)).trans (by simp only [show s.dev.sessionOf qp = some sn from hsn]))
  · exact State.next_same (if_neg (by rw [beq_false_of_ne hpend, Bool.and_false]; exact Bool.false_ne_true))
  · exact State.next_same (if_neg (by rw [beq_false_of_ne hpend]; exact Bool.false_ne_true))
  · exact State.next_congr (if_pos (by rw [hpend]; rfl))
  · exact State.next_congr (by simp only [show s.dev.qp qp = some q from hq, show s.dev.transportOn = true from hon, if_true, Dev.receivedAbout, Dev.receivedCm])
  · exact State.next_congr ((if_pos (by rw [hon, hlink]; rfl)).trans (if_pos (beq_iff_eq.mpr hown)))
  · exact State.next_congr ((if_pos (by rw [hon, hlink]; rfl)).trans (if_neg fun h => hown (eq_of_beq h)))
  · refine State.next_congr (if_pos ?_)
    rw [hfrozen, Bool.not_false, Bool.and_true]
    exact List.any_eq_true.mpr ⟨sub.val, List.mem_range.mpr sub.isLt, hlink⟩
  · exact if_pos hoff
  · refine (if_neg (by rw [hon]; exact Bool.false_ne_true)).trans (if_pos ?_)
    simp only [Bool.or_eq_true, bne_iff_ne, Bool.not_eq_true', decide_eq_true_eq]
    rcases hkind with h | h | h
    · exact .inl (.inl h)
    · exact .inl (.inr h)
    · exact .inr h
  · have hformed : v.Judges r := ⟨hon, hservice, hrc, hmtu⟩
    refine (if_neg (by rw [hon]; exact Bool.false_ne_true)).trans ((if_neg (by rw [hformed.badKind]; exact Bool.false_ne_true)).trans (if_pos ?_))
    rw [Bool.not_eq_true', Bool.eq_false_iff]
    intro h
    simp only [joinOk, Bool.and_eq_true, decide_eq_true_eq, beq_iff_eq] at h
    obtain ⟨⟨⟨⟨⟨⟨hlen, hmagic⟩, hversion⟩, hword⟩, h10⟩, h36⟩, htail⟩ := h
    rcases hbad with h | h | h | h | h | h | h
    · exact Nat.not_lt.mpr hlen h
    · exact h hmagic
    · exact h hversion
    · exact h hword
    · exact h h10
    · exact h h36
    · exact Bool.false_ne_true (h.symm.trans htail)
  · rw [Dev.rejectCode_formed ⟨hon, hservice, hrc, hmtu⟩ hjoin]
    refine ⟨fun hnone => by rw [show v.session (joinSession r) = none from hnone], fun hx => ?_⟩
    rw [show v.session (joinSession r) = some x from hx]
    refine ⟨fun hcookie => if_pos (bne_iff_ne.mpr hcookie), fun hcookie hclaim => ?_, fun hcookie hd hen hheld hfull => ?_,
      fun hcookie hd hen hheld hroom hany => ?_⟩
    · have hoff : (!match v.claimDesc x.claim with | some d => d.enable | none => false) = true := by
        rcases hclaim with hnone | ⟨hd, hen⟩
        · rw [hnone]; rfl
        · rw [hd]; exact (Bool.not_eq_true' _).mpr hen
      exact (if_neg (by rw [hcookie, bne_self_eq_false]; exact Bool.false_ne_true)).trans (if_pos hoff)
    · refine Eq.trans (b := v.joinCode r x) rfl ?_
      rw [Dev.joinCode_enabled hcookie hd hen hheld]
      exact if_pos hfull
    · obtain ⟨p, hp, hstate, hhome⟩ := hany
      refine Eq.trans (b := v.joinCode r x) rfl ?_
      rw [Dev.joinCode_enabled hcookie hd hen hheld]
      exact (if_neg (Nat.not_le.mpr hroom)).trans (if_pos (List.any_eq_true.mpr ⟨p, hp, Bool.and_eq_true _ _ ▸ ⟨bne_iff_ne.mpr hstate, beq_iff_eq.mpr hhome⟩⟩))
  · obtain ⟨sp, pm, hrec⟩ := s.dev.received_frame r.port.val (cmLen r.ipv6)
    have hexec := execCmReq_joins hon hlink hrec (hrec ▸ (Dev.rejectCode_received ..).trans hcode) hx hheld
    generalize hw : ({ s.dev with chip := { s.dev.chip with spires := sp }, pmon := pm } : Dev) = w at hexec
    obtain ⟨ps, hbound, hrate⟩ := ((w.setSession (joinSession r) (w.joinedSession r x)).setQp (Tab.freeKey w.hosts.qps) (w.newQp r)).bound_frame r.port.val
    obtain ⟨eg, pm', henq⟩ := (w.joinedDev r x).enqueue_frame r.port.val r.sub.val
      ((w.joinedDev r x).localFrame r.port.val r.sub.val r.ipv6 (w.joinAnswer r x))
    refine ⟨_, w.joinedPath r x, (w.joinedDev r x).anchor (w.joinedSession r x), hexec, ?_, rfl, rfl, rfl, ⟨w.joinedSession r x, ?_, rfl, rfl, rfl, ?_⟩,
      ⟨w.newQp r, ?_, rfl, rfl, rfl, rfl, rfl⟩, fun f hf hadmits => ?_, ?_⟩
    · subst hw
      rfl
    · rw [Dev.sendLocal, henq]
      unfold Dev.joinedDev
      rw [hbound]
      exact Dev.session_setSession ..
    · intro hfresh
      simp only [Dev.joinedSession, hfresh, List.isEmpty_nil, if_true, and_self]
    · rw [Dev.sendLocal, henq]
      exact Dev.qp_joinedDev ..
    · have hlocal : ∀ wire, (w.joinedDev r x).localFrame r.port.val r.sub.val r.ipv6 wire = s.dev.localFrame r.port.val r.sub.val r.ipv6 wire :=
        fun wire => by
          unfold Dev.joinedDev
          rw [hbound]
          subst hw
          rfl
      have hframe : f = (w.joinedDev r x).localFrame r.port.val r.sub.val r.ipv6 (w.joinAnswer r x) := by
        rw [hf, hlocal]
        subst hw
        rfl
      rw [hframe]
      refine Dev.mem_queue_enqueue _ _ _ ?_
      rw [← hframe]
      refine (Dev.gateAdmits_congr ?_ ?_ _ _ f).trans hadmits
      · unfold Dev.joinedDev
        rw [hbound]
        subst hw
        rfl
      · intro m
        refine (hrate m).trans ?_
        subst hw
        rfl
    · rw [Dev.sendLocal, henq]
      unfold Dev.joinedDev
      rw [hbound]
      subst hw
      exact ⟨rfl, rfl, rfl, rfl, rfl, rfl⟩
end



section
/-! SUPPORT. What a completed write leaves on a drive (R172, R177). -/
namespace Sys2Proof.Machine

section
variable (v : Dev) (bay row : Nat)

/-- Images written one after the other from a grain of a row on. -/
def Dev.putImages (g : Nat) (imgs : List (List Byte)) : Dev :=
  (imgs.zip (List.range imgs.length)).foldl (fun x (e : List Byte × Nat) => x.writeDrive bay row (g + e.2) e.1) v

theorem Dev.driveGrain_writeDrive (g : Nat) (img : List Byte) : (v.writeDrive bay row g img).driveGrain bay row g = img :=
  Tab.getD_set ..

theorem Dev.driveGrain_writeDrive_ne {g h : Nat} (img : List Byte) (hne : g ≠ h) :
    (v.writeDrive bay row h img).driveGrain bay row g = v.driveGrain bay row g := by
  refine Tab.getD_set_ne _ _ _ fun hkey => hne ?_
  unfold driveKey at hkey
  exact Nat.add_left_cancel hkey

/-- Each image is where it was put. -/
theorem Dev.driveGrain_putImages (g : Nat) (imgs : List (List Byte)) {i : Nat} {img : List Byte} (h : imgs[i]? = some img) :
    (v.putImages bay row g imgs).driveGrain bay row (g + i) = img := by
  induction imgs using snocInduction with
  | nil => exact absurd h (by simp only [List.getElem?_nil, reduceCtorEq, not_false_eq_true])
  | append_singleton imgs x ih =>
    have hput : v.putImages bay row g (imgs ++ [x]) = (v.putImages bay row g imgs).writeDrive bay row (g + imgs.length) x := by
      unfold Dev.putImages
      rw [List.length_append, List.length_singleton, List.range_succ, List.zip_append List.length_range.symm, List.foldl_append]
      rfl
    rw [hput]
    by_cases hi : i = imgs.length
    · rw [hi, List.getElem?_concat_length] at h
      rw [hi, Dev.driveGrain_writeDrive]
      exact Option.some.inj h
    · have hlt : i < (imgs ++ [x]).length := (List.getElem?_eq_some_iff.mp h).1
      rw [List.length_append, List.length_singleton] at hlt
      rw [Dev.driveGrain_writeDrive_ne _ _ _ _ (fun e => hi (Nat.add_left_cancel e))]
      exact ih (by rwa [List.getElem?_append_left (by omega)] at h)

theorem slotLba_row {pos : Nat} (hpos : pos < 16) : (slotLba row + pos - 4194304) / 16 = row ∧ (slotLba row + pos - 4194304) % 16 = pos := by
  unfold slotLba
  omega

theorem Dev.putBlocks_write {o : BayOp} (hcmd : o.cmd = .write) (hlba : o.lba = slotLba row) :
    v.putBlocks o = v.putImages o.bay row 0 o.blocks := by
  have hrow := slotLba_row row (pos := 0) (by decide)
  have hge : ¬ o.lba < 4194304 := by
    rw [hlba]
    unfold slotLba
    omega
  rw [Nat.add_zero, ← hlba] at hrow
  unfold Dev.putBlocks
  dsimp only
  rw [if_neg hge, hcmd, hrow.1, hrow.2]
  rfl

theorem Dev.putBlocks_zeroes {o : BayOp} {pos : Nat} (hcmd : o.cmd = .zeroes) (hlba : o.lba = slotLba row + pos) (hpos : pos < 16) :
    v.putBlocks o = v.putImages o.bay row pos (List.replicate o.count (zeros 4160)) := by
  have hrow := slotLba_row row hpos
  have hge : ¬ o.lba < 4194304 := by
    rw [hlba]
    unfold slotLba
    omega
  rw [← hlba] at hrow
  unfold Dev.putBlocks
  dsimp only
  rw [if_neg hge, hcmd, hrow.1, hrow.2]
  rfl

end

end Sys2Proof.Machine
end

section
/-! SUPPORT. What the publication of a stripe leaves of the buffer (R158, R189). -/
namespace Sys2Proof.Machine

section
variable (v : Dev)

/-- The grains, the stripes that wait for them, the vault and whether the layout is in use. -/
def Dev.buffer : List Grain × List Pending × Vault × Bool :=
  (v.store.grains, v.store.pend, v.chip.vault, v.store.layout.used)

theorem foldl_buffer {α : Type} {f : Dev → α → Dev} (h : ∀ (x : Dev) a, (f x a).buffer = x.buffer) (l : List α) (v : Dev) :
    (l.foldl f v).buffer = v.buffer :=
  foldl_pi (β := Dev) (·.buffer) f h l v

theorem Dev.buffer_of_platform {v w : Dev} (h : w.platform = v.platform) : w.buffer = v.buffer := by
  have hstore : w.store = v.store := show w.platform.store = v.platform.store from congrArg Dev.store h
  have hvault : w.chip.vault = v.chip.vault := show w.platform.chip.vault = v.platform.chip.vault from congrArg (fun x : Dev => x.chip.vault) h
  unfold Dev.buffer
  rw [hstore, hvault]

@[simp] theorem Dev.issueOp_buffer (b : Nat) (p : BayPort) (lba count : Nat) (cmd : BayCmd) (use : OpUse) (blocks : List (List Byte)) :
    (v.issueOp b p lba count cmd use blocks).2.buffer = v.buffer := by
  obtain ⟨ops, moved, pm, out, n, h⟩ := v.issueOp_issues b p lba count cmd use blocks
  rw [h]
  rfl

@[simp] theorem Dev.copyBlock_buffer (b : JournalBlock) (n : Nat) : (v.copyBlock b n).buffer = v.buffer := by
  unfold Dev.copyBlock
  split
  · exact v.issueOp_buffer ..
  · rfl

@[simp] theorem Dev.journal_buffer (r : JournalRec) : (v.journal r).2.buffer = v.buffer :=
  (foldl_buffer (fun x n => x.copyBlock_buffer _ n) _ _).trans rfl

@[simp] theorem Dev.writeRemovals_buffer : v.writeRemovals.buffer = v.buffer :=
  foldl_buffer (f := fun x (e : Extent) =>
      ((x.journal (.extent e.claim e.key none e.len)).2).adjExt e.claim e.key (fun y => { y with journaled := true }))
    (fun x e => (x.journal_buffer (.extent e.claim e.key none e.len)).trans rfl) _ v

@[simp] theorem Dev.deallocSlot_buffer (bay row : Nat) : (v.deallocSlot bay row).buffer = v.buffer := by
  unfold Dev.deallocSlot
  dsimp only
  split
  · exact (Dev.issueOp_buffer ..).trans rfl
  · rfl

@[simp] theorem Dev.release_buffer (t : Stripe) : (v.release t).buffer = v.buffer :=
  ((foldl_buffer (fun x (p : Nat × Nat) => x.deallocSlot_buffer p.1 p.2) _ _).trans (Dev.journal_buffer ..)).trans rfl

@[simp] theorem Dev.reap_buffer : v.reap.buffer = v.buffer := by
  unfold Dev.reap
  split
  · exact (Dev.writeRemovals_buffer _).trans (foldl_buffer Dev.release_buffer _ _)
  · rfl

@[simp] theorem Dev.freeStripe_buffer (id : Nat) : (v.freeStripe id).buffer = v.buffer := by
  unfold Dev.freeStripe
  dsimp only
  split
  · refine (Dev.reap_buffer _).trans ?_
    split
    · exact (foldl_buffer (f := fun x j => x.dropJob j) (fun _ _ => rfl) _ _).trans rfl
    · exact (foldl_buffer (f := fun x j => x.dropJob j) (fun _ _ => rfl) _ _).trans rfl
  · rfl

@[simp] theorem Dev.freeEmpty_buffer : v.freeEmpty.buffer = v.buffer :=
  (Dev.writeRemovals_buffer _).trans (foldl_buffer (fun x t => x.freeStripe_buffer _) _ _)

/-- The publication of a stripe puts the layout in use. -/
theorem Dev.publish_buffer (r : StripeRec) (rs : List RunGrain) (k : Nat) (ver : BitVec 8) :
    (v.publish r rs k ver).buffer = (v.store.grains, v.store.pend, v.chip.vault, true) := by
  unfold Dev.publish
  dsimp only
  refine (Dev.freeEmpty_buffer _).trans ?_
  split
  · rfl
  · rfl

@[simp] theorem Dev.settledWaiters_buffer : v.settledWaiters.buffer = v.buffer :=
  foldl_buffer (fun _ _ => Dev.buffer_of_platform (Dev.completeCtx_platform ..)) _ _

end

section
variable {v : Dev} {id : Nat} {p : Pending} {r : StripeRec}

/-- A stripe whose writes or whose record are not complete stays as it is. -/
theorem Dev.cleanStripe_waits
    (hp : v.store.pend.find? (fun y => match y.rec_ with | some x => x.id == id | none => false) = some p)
    (h : p.writes ≠ [] ∨ p.journal = none ∨ ∃ j, p.journal = some j ∧ v.journaled j = false) : v.cleanStripe id = v := by
  unfold Dev.cleanStripe
  split
  · rfl
  rename_i p' hp'
  have hpp : p' = p := Option.some.inj (hp'.symm.trans hp)
  subst hpp
  split
  · rename_i r seq hr hwrites hseq
    refine if_neg fun hdone => ?_
    rcases h with h | h | ⟨j, hj, hopen⟩
    · exact h hwrites
    · exact absurd (h.symm.trans hseq) (by simp only [reduceCtorEq, not_false_eq_true])
    · obtain rfl : j = seq := Option.some.inj (hj.symm.trans hseq)
      exact Bool.false_ne_true (hopen.symm.trans hdone)
  · rfl

/-- R158, R189: the copies of the grains of a stripe that is settled and journaled are freed. -/
theorem Dev.cleanStripe_buffer {j : Nat}
    (hp : v.store.pend.find? (fun y => match y.rec_ with | some x => x.id == id | none => false) = some p)
    (hr : p.rec_ = some r) (hwrites : p.writes = []) (hj : p.journal = some j) (hdone : v.journaled j = true) :
    (v.cleanStripe id).buffer = (v.store.grains.filter (fun g => !p.grains.contains g.id), v.store.pend.filter (fun x => x.id != p.id),
      { v.chip.vault with settled := v.chip.vault.settled + p.grains.length }, true) := by
  generalize hv1 : ({ v with store := { v.store with
          pend := v.store.pend.filter (fun x => x.id != p.id)
          grains := v.store.grains.filter (fun g => !p.grains.contains g.id) } } : Dev) = v1
  unfold Dev.cleanStripe
  split
  · rename_i hnone
    exact absurd (hnone.symm.trans hp) (by simp only [reduceCtorEq, not_false_eq_true])
  rename_i p' hp'
  have hpp : p' = p := Option.some.inj (hp'.symm.trans hp)
  subst hpp
  have hcount : (((v1.countKeep 0x10 0x002 p'.grains.length).count p'.spire.val 0x03 0 0x002 p'.grains.length).chainDone p'.spire.val).platform
      = v1.platform :=
    (Dev.count_platform ..).trans ((Dev.count_platform ..).trans (v1.countKeep_platform ..))
  rw [hr, hwrites, hj]
  dsimp only
  rw [if_pos hdone, hv1]
  refine (Dev.writeRemovals_buffer _).trans ((Dev.settledWaiters_buffer _).trans ((Dev.publish_buffer ..).trans ?_))
  generalize ((v1.countKeep 0x10 0x002 p'.grains.length).count p'.spire.val 0x03 0 0x002 p'.grains.length).chainDone p'.spire.val = v2 at hcount ⊢
  have hstore : v2.store = v1.store := show v2.platform.store = v1.platform.store from congrArg Dev.store hcount
  have hvault : v2.chip.vault = v1.chip.vault := show v2.platform.chip.vault = v1.platform.chip.vault from
    congrArg (fun x : Dev => x.chip.vault) hcount
  dsimp only
  rw [hstore, hvault]
  subst hv1
  rfl

end

end Sys2Proof.Machine
end

section
/-! SUPPORT. Checkpoints, and the jobs of a stripe (R184, R193 to R195). -/
namespace Sys2Proof.Machine

/-- The journal when the record of a checkpoint is complete. -/
def Journal.checkpointed (j : Journal) (seq upTo : Nat) : Journal :=
  let kept := (updFirst (fun (b : JournalBlock) => b.seq == seq) (fun b => { b with complete := true }) j.blocks).filter
    (fun x => !x.complete || decide (upTo ≤ x.seq))
  { j with blocks := kept, checkSeq := upTo, ringBlocks := kept.length }

theorem mem_updFirst_of_not {α : Type} {p : α → Bool} {f : α → α} {l : List α} {y : α} (h : y ∈ l) (hp : p y = false) :
    y ∈ updFirst p f l := by
  induction l with
  | nil => exact h
  | cons x l ih =>
    unfold updFirst
    split
    · rename_i hx
      rcases List.mem_cons.mp h with rfl | h
      · exact absurd (hp.symm.trans hx) Bool.false_ne_true
      · exact List.mem_cons_of_mem _ h
    · rcases List.mem_cons.mp h with rfl | h
      · exact List.mem_cons_self
      · exact List.mem_cons_of_mem _ (ih h)

theorem exists_mem_updFirst {α : Type} {p : α → Bool} {f : α → α} {l : List α} {y : α} (h : y ∈ l) (hp : p y = true) :
    ∃ x ∈ l, f x ∈ updFirst p f l := by
  induction l with
  | nil => exact absurd h List.not_mem_nil
  | cons x l ih =>
    unfold updFirst
    split
    · exact ⟨x, List.mem_cons_self, List.mem_cons_self⟩
    · rename_i hx
      rcases List.mem_cons.mp h with rfl | h
      · exact absurd hp hx
      · obtain ⟨z, hz, hfz⟩ := ih h
        exact ⟨z, List.mem_cons_of_mem _ hz, List.mem_cons_of_mem _ hfz⟩

section
variable {v : Dev} {id : Nat} {kind : JobKind} {j : Job} {t : Stripe}

/-- No job of a stripe that is done takes no effect. -/
theorem Dev.finishJob_idle
    (h : v.stripe id = none ∨ v.store.jobs.find? (fun y => y.stripe == id && y.kind == kind && v.jobDone y) = none) :
    v.finishJob id kind = v := by
  unfold Dev.finishJob
  split
  · rename_i hj ht
    rcases h with h | h
    · exact absurd (h.symm.trans ht) (by simp only [reduceCtorEq, not_false_eq_true])
    · exact absurd (h.symm.trans hj) (by simp only [reduceCtorEq, not_false_eq_true])
  · rfl

theorem Dev.finishJob_done (ht : v.stripe id = some t)
    (hj : v.store.jobs.find? (fun y => y.stripe == id && y.kind == kind && v.jobDone y) = some j) :
    v.finishJob id kind = v.jobPublish j t := by
  unfold Dev.finishJob
  rw [hj, ht]

theorem Dev.checkStale_frame (v : Dev) (b : Option Nat) : ∃ bays, v.checkStale b = { v with store := { v.store with bays := bays } } := by
  unfold Dev.checkStale
  split
  · exact ⟨v.store.bays, rfl⟩
  · split
    · exact ⟨_, rfl⟩
    · exact ⟨v.store.bays, rfl⟩

theorem placeOf_relocated (r : StripeRec) (l : List Reloc) (b pos row : Nat) (ver : BitVec 8) (n : Nat) :
    StripeRec.placeOf { r with relocs := l.filter (fun x => x.position != pos) ++ [⟨b, pos, row⟩], version := ver, unplaced := n } pos
      = some (b, row) := by
  have hnone : (l.filter (fun x : Reloc => x.position != pos)).find? (fun x => x.position == pos) = none :=
    List.find?_eq_none.mpr fun x hx h => bne_iff_ne.mp (List.mem_filter.mp hx).2 (beq_iff_eq.mp h)
  unfold StripeRec.placeOf
  dsimp only
  rw [List.find?_append, hnone, Option.none_or, List.find?_singleton, if_pos (beq_self_eq_true pos)]

/-- R193, R194: a position rebuilt is at its target, and its job is over. -/
theorem Dev.showRebuilt_spec {b row pos : Nat} {moves : Bool} (ht : v.stripe id = some t) (htarget : j.target = some (b, row, moves)) :
    (∀ y ∈ (v.showRebuilt j t.rec_ pos).store.jobs, y.id ≠ j.id) ∧ (id, pos) ∉ (v.showRebuilt j t.rec_ pos).store.rebuilds ∧
    (moves = true → ∃ y ∈ (v.showRebuilt j t.rec_ pos).store.stripes, y.rec_.id = id ∧ y.rec_.placeOf pos = some (b, row) ∧
      y.rec_.version = t.rec_.version + 1) := by
  have hid := Dev.stripe_id ht
  obtain ⟨p, hcount⟩ := (v.dropJob j.id).count_frame (t.rec_.id / 2 ^ 46) 0x04 0 0x003 1
  unfold Dev.showRebuilt
  rw [htarget]
  dsimp only
  rw [hcount]
  have hjobs : ∀ y ∈ (v.dropJob j.id).store.jobs, y.id ≠ j.id := fun y hy => bne_iff_ne.mp (List.mem_filter.mp hy).2
  have hrebuilds : (id, pos) ∉ (v.dropJob j.id).store.rebuilds.filter (fun e => e != (t.rec_.id, pos)) := fun h =>
    bne_iff_ne.mp (List.mem_filter.mp h).2 (by rw [hid])
  cases moves with
  | false => exact ⟨hjobs, hrebuilds, fun h => absurd h Bool.false_ne_true⟩
  | true =>
    simp only [if_true]
    generalize hr1 : ({ t.rec_ with
      relocs := t.rec_.relocs.filter (fun x => x.position != pos) ++ [⟨b, pos, row⟩]
      version := t.rec_.version + 1
      unplaced := t.rec_.unplaced - b2n (t.rec_.placeOf pos).isNone } : StripeRec) = r1
    generalize hu : ({ v.dropJob j.id with
      pmon := p
      store := { (v.dropJob j.id).store with
        stripes := updFirst (fun x => x.rec_.id == t.rec_.id) (fun x => { x with rec_ := r1 }) (v.dropJob j.id).store.stripes
        rebuilds := (v.dropJob j.id).store.rebuilds.filter (fun e => e != (t.rec_.id, pos)) } } : Dev) = u
    obtain ⟨bays, hstale⟩ := u.checkStale_frame ((t.rec_.placeOf pos).map (·.1))
    obtain ⟨x, -, hx⟩ := exists_mem_updFirst (p := fun x : Stripe => x.rec_.id == t.rec_.id) (f := fun x => { x with rec_ := r1 })
      (List.mem_of_find?_eq_some ht) (beq_self_eq_true _)
    rw [hstale]
    subst hu
    refine ⟨hjobs, hrebuilds, fun _ => ⟨_, hx, ?_, ?_, ?_⟩⟩
    · subst hr1
      exact hid
    · subst hr1
      exact placeOf_relocated ..
    · subst hr1
      rfl

theorem Dev.kind_of_picked
    (hj : v.store.jobs.find? (fun y => y.stripe == id && y.kind == kind && v.jobDone y) = some j) : j.kind = kind := by
  have h := List.find?_some hj
  simp only [Bool.and_eq_true, beq_iff_eq] at h
  exact h.1.2

end

end Sys2Proof.Machine
end

section
open Sys2Proof Sys2Proof.Machine

/-- Settles O57: what each completion of the settle path, the rebuild, the compaction and the reclaim leaves. -/
theorem settleAndSpace : Obligations.SettleAndSpace := by
  unfold Obligations.SettleAndSpace
  refine ⟨fun s op id seq status o pid pos row i img p r b => ⟨fun hop => ?_, fun hop hcmd => ?_, fun hop hcmd hsent huse hst => ?_,
    fun hop hcmd hsent huse => ?_, fun hcmd hlba himg hlen => ?_, fun hcmd hlba hi hpos => ?_, fun hb hleft => ?_, fun hb hleft hrec => ?_,
    fun n hb hleft hrec => ?_, fun hb => ?_, fun hring hchecking hdone => ?_, fun n hchecking hpages => ?_, fun y a hy huse => ?_, fun h => ?_,
    fun j hp hr hwrites hj hdone => ?_, fun hp h => ?_⟩,
    fun s sp id pos claim key t j e => ⟨fun h => ?_, fun h => ?_, fun h => ?_, fun b row moves ht hj htarget => ?_, fun ht hj => ?_, fun ht hj => ?_,
      fun hdone => ?_, fun he hdel hjr hgrains hall => ?_, fun he h => ?_⟩⟩
  · exact State.next_same (by simp only [hop])
  · refine State.next_same ?_
    simp only [hop]
    refine if_pos ?_
    rcases hcmd with hcmd | hcmd
    · rw [BayOp.isWrite, hcmd]
      rfl
    · rw [hcmd, Bool.not_false, Bool.or_true]
  · refine State.next_congr ?_
    simp only [hop]
    refine (if_neg (by rw [BayOp.isWrite, bne_iff_ne.mpr hcmd, hsent]; decide)).trans ?_
    rw [if_neg hst, Dev.opEnds, huse]
  · refine State.next_congr ?_
    simp only [hop]
    refine (if_neg (by rw [BayOp.isWrite, hcmd, hsent]; decide)).trans ?_
    rw [if_pos trivial, Dev.opWritten, huse, if_pos hcmd]
  · rw [Dev.putBlocks_write _ row hcmd hlba, ← Nat.zero_add i]
    exact Dev.driveGrain_putImages _ _ _ _ _ himg
  · rw [Dev.putBlocks_zeroes _ row hcmd hlba (by omega)]
    exact Dev.driveGrain_putImages _ _ _ _ _ (by rw [List.getElem?_replicate, if_pos hi])
  · refine State.next_same ?_
    simp only [hb]
    exact if_pos (by rwa [Bool.not_eq_true', List.isEmpty_eq_false_iff])
  · refine State.next_congr ?_
    simp only [hb, hleft, List.isEmpty_nil, Bool.not_true, Bool.false_eq_true, if_false]
  · refine ⟨{ s.dev with store := { s.dev.store with journal := s.dev.store.journal.checkpointed seq n } }, State.next_congr ?_, rfl,
      fun y hy => ?_, fun y hy hopen hseq => ?_, rfl, rfl, rfl, rfl⟩
    · simp only [hb, hleft, hrec, List.isEmpty_nil, Bool.not_true, Bool.false_eq_true, if_false]
      rfl
    · have hkept := (List.mem_filter.mp hy).2
      rwa [Bool.or_eq_true, Bool.not_eq_true', decide_eq_true_eq] at hkept
    · exact List.mem_filter.mpr ⟨mem_updFirst_of_not hy (beq_eq_false_iff_ne.mpr hseq), by rw [hopen]; rfl⟩
  · exact State.next_same (by simp only [hb])
  · have hbusy : (s.dev.store.journal.checking.isSome || s.dev.store.journal.blocks.any
        (fun b => !b.complete && (match b.rec_ with | .checkpoint _ => true | _ => false))) = false := by
      rw [show s.dev.store.journal.checking = none from hchecking, Option.isSome_none, Bool.false_or, List.any_eq_false]
      intro y hy
      rw [show y.complete = true from hdone y hy, Bool.not_true, Bool.false_and]
      exact Bool.false_ne_true
    exact State.next_congr (if_pos (Bool.and_eq_true _ _ ▸ ⟨decide_eq_true hring, (Bool.not_eq_true' _).mpr hbusy⟩))
  · unfold Dev.checkpointStep
    simp only [show s.dev.store.journal.checking = some n from hchecking]
    refine if_neg fun hany => ?_
    obtain ⟨y, hy, huse⟩ := List.any_eq_true.mp hany
    split at huse
    · rename_i a ha
      exact hpages y hy a ha
    · exact Bool.false_ne_true huse
  · unfold Dev.checkpointStep
    split
    · rfl
    · exact if_pos (List.any_eq_true.mpr ⟨y, hy, by rw [huse]⟩)
  · refine State.next_same (if_neg fun hif => ?_)
    obtain ⟨hring, hbusy⟩ := (Bool.and_eq_true _ _).mp hif
    rcases h with h | h
    · exact Nat.not_le.mpr h (of_decide_eq_true hring)
    · rw [show s.dev.store.journal.checking.isSome = true from h, Bool.true_or] at hbusy
      exact Bool.false_ne_true hbusy
  · have hbuffer := Dev.cleanStripe_buffer hp hr hwrites hj hdone
    refine ⟨s.dev.cleanStripe id, rfl, fun g => ?_, fun y hy => ?_, ?_, congrArg (·.2.2.2) hbuffer⟩
    · rw [show (s.dev.cleanStripe id).store.grains = _ from congrArg (·.1) hbuffer, List.mem_filter, Bool.not_eq_true',
        ← Bool.not_eq_true, List.contains_iff_mem]
    · rw [show (s.dev.cleanStripe id).store.pend = _ from congrArg (·.2.1) hbuffer] at hy
      exact bne_iff_ne.mp (List.mem_filter.mp hy).2
    · exact congrArg (fun x => x.2.2.1.settled) hbuffer
  · exact State.next_same (Dev.cleanStripe_waits hp h)
  · exact State.next_same (Dev.finishJob_idle h)
  · exact State.next_same (Dev.finishJob_idle h)
  · exact State.next_same (Dev.finishJob_idle h)
  · have hkind := Dev.kind_of_picked hj
    obtain ⟨hjobs, hrebuilds, hmoved⟩ := Dev.showRebuilt_spec ht htarget
    refine ⟨s.dev.showRebuilt j t.rec_ pos, State.next_congr ((Dev.finishJob_done ht hj).trans ?_), hrebuilds, hjobs, hmoved⟩
    rw [Dev.jobPublish, hkind]
  · refine State.next_congr ((Dev.finishJob_done ht hj).trans ?_)
    rw [Dev.jobPublish, Dev.kind_of_picked hj]
    rfl
  · refine State.next_congr ((Dev.finishJob_done ht hj).trans ?_)
    rw [Dev.jobPublish, Dev.kind_of_picked hj]
    rfl
  · unfold Dev.jobDone at hdone
    rw [Bool.and_eq_true, Bool.and_eq_true, Bool.and_eq_true, Bool.not_eq_true', List.all_eq_true] at hdone
    obtain ⟨⟨⟨hwriting, hbusy⟩, hjournal⟩, -⟩ := hdone
    exact ⟨hwriting, hbusy, hjournal⟩
  · refine State.next_congr ?_
    simp only [he]
    refine if_pos ?_
    have hwaits : (s.dev.store.journal.blocks.any (fun b => !b.complete && (match b.rec_ with
        | .extent c k none _ => c == claim && k == key
        | _ => false))) = false := by
      rw [List.any_eq_false]
      intro y hy
      rw [show y.complete = true from hall y hy, Bool.not_true, Bool.false_and]
      exact Bool.false_ne_true
    rw [Bool.and_eq_true, Bool.and_eq_true, Bool.and_eq_true]
    exact ⟨⟨⟨beq_iff_eq.mpr hdel, hjr⟩, (Bool.not_eq_true' _).mpr hwaits⟩, (Bool.not_eq_true' _).mpr hgrains⟩
  · refine State.next_same ?_
    simp only [he]
    refine if_neg fun hif => ?_
    rw [Bool.and_eq_true, Bool.and_eq_true, Bool.and_eq_true] at hif
    obtain ⟨⟨⟨hdel, -⟩, -⟩, hgrains⟩ := hif
    rcases h with h | h
    · exact h (beq_iff_eq.mp hdel)
    · rw [show s.dev.hasGrains claim key = true from h] at hgrains
      exact Bool.false_ne_true hgrains
end



section
/-! SUPPORT. Reads that latch, requests the endpoint serves, and the levels of the JTAG port (R339, R343, R419 to R447). -/
namespace Sys2Proof.Machine

section
variable {v : Dev} {off : Nat} {lo hi : Word}

theorem Dev.readReg_plain {r : Requester} (h : v.readWord r off = some (lo, none)) : v.readReg r off = some (lo, v) := by
  unfold Dev.readReg
  rw [h]

/-- R443: the low word of the time stamp stands at 0x900C. -/
theorem Dev.readWord_bellNow (v : Dev) (r : Requester) :
    v.readWord r 0x900C = some (BitVec.ofNat 32 v.stamp, some (BitVec.ofNat 32 (v.stamp / 2 ^ 32))) := by
  have hhi : isHiWord 0x900C = false := by decide
  unfold Dev.readWord
  rw [hhi]
  exact (if_neg Bool.false_ne_true).trans (if_pos rfl)

/-- R443, R447: a read of a low word latches the high one. -/
theorem Dev.readReg_latched {r : Requester} (h : v.readWord r off = some (lo, some hi)) :
    v.readReg r off = some (lo, { v with regs := { v.regs with latches := Tab.set v.regs.latches (latchKey r (off + 4)) hi } }) := by
  unfold Dev.readReg
  rw [h]

theorem Dev.readFor_pf0 {addr : Nat} {w : Dev} (h : v.readReg .pf0 off = some (lo, w)) :
    v.readFor .pf0 off false addr = w.emit (.regData .pf0 off lo) := by
  unfold Dev.readFor pfRequester
  simp only [h, Bool.not_false, if_true]

/-- What a read of the low word of the time stamp leaves. -/
theorem Dev.readFor_bellNow (v : Dev) (addr : Nat) : v.readFor .pf0 0x900C false addr = { v with
    regs := { v.regs with latches := Tab.set v.regs.latches (latchKey .pf0 0x9010) (BitVec.ofNat 32 ((v.clk.bell * 512 + v.clk.ns) / 2 ^ 32)) }
    out := v.out ++ [.regData .pf0 0x900C (BitVec.ofNat 32 (v.clk.bell * 512 + v.clk.ns))] } := by
  rw [Dev.readFor_pf0 (Dev.readReg_latched (Dev.readWord_bellNow ..))]
  rfl

theorem Dev.busRead_pf0 (hreach : v.reachable .pf0 = true) (hfrozen : v.ep.frozen = false) :
    v.busRead .pf0 off = v.readFor .pf0 off false off := by
  unfold Dev.busRead
  refine (if_neg ?_).trans (if_pos ?_)
  · rw [Dev.link_of_reachable hreach]
    exact Bool.false_ne_true
  · rw [hreach, hfrozen]
    rfl

theorem Dev.busRead_linkless (hlink : v.ep.link = false) : v.busRead .pf0 off = v := by
  unfold Dev.busRead
  exact if_pos (by rw [hlink]; rfl)

/-- R423, R425: a function that does not answer, or is frozen, returns UR. -/
theorem Dev.busRead_refused (hlink : v.ep.link = true) (h : v.reachable .pf0 = false ∨ v.ep.frozen = true) :
    v.busRead .pf0 off = v.answerUr .pf0 off := by
  unfold Dev.busRead
  refine (if_neg ?_).trans (if_neg ?_)
  · rw [hlink]
    exact Bool.false_ne_true
  · rw [Bool.and_eq_true]
    rintro ⟨hreach, hfrozen⟩
    rcases h with h | h
    · exact Bool.false_ne_true (h.symm.trans hreach)
    · rw [h] at hfrozen
      exact Bool.false_ne_true hfrozen

/-- R339: the port is as CLOSED in P3. -/
theorem Dev.portLevel_closed (h : v.sec.debug = .closed ∨ v.sec.p3 = true) : v.portLevel = .closed := by
  unfold Dev.portLevel
  rcases h with h | h
  · rw [h, ite_self]
  · exact if_pos h

theorem Dev.portLevel_up (h : v.sec.p3 = false) : v.portLevel = v.sec.debug := by
  unfold Dev.portLevel
  exact if_neg (by rw [h]; exact Bool.false_ne_true)

theorem Dev.portLevel_ne_open (h : v.sec.debug ≠ .open_ ∨ v.sec.p3 = true) : v.portLevel ≠ .open_ := by
  unfold Dev.portLevel
  split
  · exact fun hc => DebugLevel.noConfusion hc
  · rename_i hp3
    exact h.resolve_right hp3

end

/-- What becomes of a request whose function answers. -/
def Dev.epServe (v : Dev) (r : MemReq) : Dev :=
  let a := r.offset.toNat
  let page := r.pf = .pf0 && r.bar = 0 && 0x800000 ≤ a && a < 0x801000
  let rom := r.pf = .pf0 && r.bar = 6 && !r.write && a < 0x100000
  if v.ep.frozen && !page && !rom then (if r.write then v else v.answerUr r.pf a)
  else if rom then v.emit (.romData a ((List.range (min r.length 4096)).map (fun i => v.romByte (a + i))))
  else if r.bar = 0 then v.bar0Request r
  else if r.bar = 2 then v.bar2Request r
  else v.answerUr r.pf a

section
variable {s : State} {r : MemReq}

theorem execEpMemoryRequest_reached (hreach : s.dev.reachable r.pf = true) (hgood : (r.write && r.poisoned) = false) :
    exec (.epMemoryRequest r) s = .next (s.withDev <| s.dev.epServe r) := by
  refine State.next_congr ((if_neg ?_).trans ((if_neg ?_).trans (if_neg ?_)))
  · rw [Dev.link_of_reachable hreach]
    exact Bool.false_ne_true
  · rw [hgood]
    exact Bool.false_ne_true
  · rw [hreach]
    exact Bool.false_ne_true

theorem execEpMemoryRequest_dropped (h : s.dev.ep.link = false ∨ (r.write && r.poisoned) = true) :
    exec (.epMemoryRequest r) s = .next s := by
  refine State.next_same ?_
  by_cases hlink : s.dev.ep.link = false
  · exact if_pos ((Bool.not_eq_true' _).mpr hlink)
  · refine (if_neg ?_).trans (if_pos (h.resolve_left hlink))
    rw [Bool.not_eq_true']
    exact hlink

theorem execEpMemoryRequest_unreachable (hlink : s.dev.ep.link = true) (hgood : (r.write && r.poisoned) = false)
    (hreach : s.dev.reachable r.pf = false) :
    exec (.epMemoryRequest r) s = .next (s.withDev <| s.dev.answerUr r.pf r.offset.toNat) := by
  refine State.next_congr ((if_neg ?_).trans ((if_neg ?_).trans (if_pos ((Bool.not_eq_true' _).mpr hreach))))
  · rw [hlink]
    exact Bool.false_ne_true
  · rw [hgood]
    exact Bool.false_ne_true

end

section
variable {v : Dev} {r : MemReq}

/-- R419: the expansion ROM answers in every state of the function. -/
theorem Dev.epServe_rom (hpf : r.pf = .pf0) (hbar : r.bar = 6) (hwrite : r.write = false) (hoff : r.offset.toNat < 0x100000) :
    v.epServe r = v.emit (.romData r.offset.toNat ((List.range (min r.length 4096)).map (fun i => v.romByte (r.offset.toNat + i)))) := by
  have hrom : (decide (r.pf = .pf0) && decide (r.bar = 6) && !r.write && decide (r.offset.toNat < 0x100000)) = true := by
    rw [decide_eq_true hpf, decide_eq_true hbar, hwrite, decide_eq_true hoff]
    rfl
  unfold Dev.epServe
  dsimp only
  rw [hrom, Bool.not_true, Bool.and_false, if_neg Bool.false_ne_true, if_pos rfl]

/-- A request of BAR 0 while the function is not frozen. -/
theorem Dev.epServe_bar0 (hfrozen : v.ep.frozen = false) (hbar : r.bar = 0) : v.epServe r = v.bar0Request r := by
  have hrom : (decide (r.pf = .pf0) && decide (r.bar = 6) && !r.write && decide (r.offset.toNat < 0x100000)) = false := by
    rw [hbar, decide_eq_false (p := (0 : Nat) = 6) (by decide), Bool.and_false, Bool.false_and, Bool.false_and]
  unfold Dev.epServe
  dsimp only
  rw [hrom, hfrozen, Bool.false_and, Bool.false_and, if_neg Bool.false_ne_true, if_neg Bool.false_ne_true, if_pos hbar]

/-- R425: a frozen function drops a doorbell. -/
theorem Dev.epServe_frozen (hfrozen : v.ep.frozen = true) (hbar : r.bar = 2) (hwrite : r.write = true) : v.epServe r = v := by
  have hrom : (decide (r.pf = .pf0) && decide (r.bar = 6) && !r.write && decide (r.offset.toNat < 0x100000)) = false := by
    rw [hwrite, Bool.not_true, Bool.and_false, Bool.false_and]
  have hpage : (decide (r.pf = .pf0) && decide (r.bar = 0) && decide (0x800000 ≤ r.offset.toNat) && decide (r.offset.toNat < 0x801000)) = false := by
    rw [hbar, decide_eq_false (p := (2 : Nat) = 0) (by decide), Bool.and_false, Bool.false_and, Bool.false_and]
  unfold Dev.epServe
  dsimp only
  rw [hrom, hpage, hfrozen]
  exact (if_pos rfl).trans (if_pos hwrite)

/-- A read of one word of the registers of PF0. -/
theorem Dev.bar0Request_word (hpf : r.pf = .pf0) (hwrite : r.write = false) (hlen : r.length = 4) (halign : r.offset.toNat % 4 = 0)
    (hoff : r.offset.toNat < 0x4000000) : v.bar0Request r = v.readFor .pf0 r.offset.toNat r.bad r.offset.toNat := by
  have hnat : naturalReq r = true := by
    unfold naturalReq
    rw [hlen, halign, hwrite]
    rfl
  unfold Dev.bar0Request
  simp only [hpf, hnat, hlen, hwrite, Bool.not_true, Bool.false_or, decide_eq_true_eq, if_neg (Nat.not_le.mpr hoff), Bool.false_eq_true, if_false]
  simp only [Nat.div_self (show 0 < 4 by decide), List.range_one, List.foldl_cons, List.foldl_nil, Nat.mul_zero, Nat.add_zero, Nat.zero_add]

/-- A request of two bytes is not natural. -/
theorem Dev.bar0Request_unnatural (hlen : r.length = 2) : v.bar0Request r = v.answerUr r.pf r.offset.toNat := by
  have hnat : naturalReq r = false := by
    unfold naturalReq
    rw [hlen]
    rfl
  unfold Dev.bar0Request
  dsimp only
  rw [hnat]
  exact if_pos rfl

end

section
variable {s : State} {off : BitVec 26}

/-- What the port answers. -/
def State.jtag (s : State) (o : Out) : Host.Outcome State Fault Refusal := .next (s.withDev { s.dev with out := s.dev.out ++ [o] })

theorem jtagGate_vault {α : Type} {v : Dev} {x y z : α} (hm : v.mode = .vault) (ok : Bool) :
    (if v.mode == .vault then x else if ok then y else z) = x :=
  if_pos (beq_iff_eq.mpr hm)

theorem jtagGate_refused {α : Type} {v : Dev} {x y z : α} (hm : v.mode ≠ .vault) {ok : Bool} (hok : ok = false) :
    (if v.mode == .vault then x else if ok then y else z) = z :=
  (if_neg fun h => hm (beq_iff_eq.mp h)).trans (if_neg (by rw [hok]; exact Bool.false_ne_true))

theorem jtagGate_open {α : Type} {v : Dev} {x y z : α} (hm : v.mode ≠ .vault) {ok : Bool} (hok : ok = true) :
    (if v.mode == .vault then x else if ok then y else z) = y :=
  (if_neg fun h => hm (beq_iff_eq.mp h)).trans (if_pos hok)

end

end Sys2Proof.Machine

open Sys2Proof Sys2Proof.Machine

/-- Settles O33: what each read answers and latches, which requests are served, and what the port answers at each level. -/
theorem registerReadsAndJtag : Obligations.RegisterReadsAndJtag := by
  refine ⟨fun s off lo hi => ⟨fun hreach hfrozen => ?_, fun hlink => ?_, fun hlink h => ?_, fun r b o hreach hfrozen hat h40 h8 hread => ?_⟩,
    fun s r lo => ⟨fun hlink => ?_, fun hwrite hpois => ?_, fun hlink hwrite hreach => ?_, fun hreach hpf hbar hwrite hoff hlen => ?_,
      fun hreach hfrozen hpf hbar hwrite hlen halign hbad hoff hread => ?_, fun hreach hfrozen hpf hbar hwrite hlen => ?_,
      fun hreach hfrozen hbar hpf hwrite => ?_⟩,
    fun s off sp hbm a b w => ⟨rfl, rfl, fun hm => ⟨?_, ?_, ?_⟩, fun hm hlvl => ⟨?_, ?_, ?_, ?_⟩, fun hm hlvl => ⟨?_, ?_, ?_⟩,
      fun x hm hp3 hopen hread => ?_, fun r hm hp3 hobs hrec => ?_⟩⟩
  · exact State.next_congr ((Dev.busRead_pf0 hreach hfrozen).trans (Dev.readFor_bellNow ..))
  · exact State.next_same (Dev.busRead_linkless hlink)
  · exact State.next_congr (Dev.busRead_refused hlink h)
  · refine State.next_congr ?_
    simp only [hat]
    refine (if_pos ?_).trans ((Dev.busRead_pf0 hreach hfrozen).trans (Dev.readFor_pf0 (Dev.readReg_latched hread)))
    rw [decide_eq_true h40, decide_eq_true h8]
    rfl
  · exact execEpMemoryRequest_dropped (.inl hlink)
  · exact execEpMemoryRequest_dropped (.inr (by rw [hwrite, hpois]; rfl))
  · exact execEpMemoryRequest_unreachable hlink (by rw [hwrite]; rfl) hreach
  · rw [execEpMemoryRequest_reached (hpf ▸ hreach) (by rw [hwrite]; rfl), Dev.epServe_rom hpf hbar hwrite hoff, Nat.min_eq_left hlen]
    rfl
  · rw [execEpMemoryRequest_reached (hpf ▸ hreach) (by rw [hwrite]; rfl), Dev.epServe_bar0 hfrozen hbar,
      Dev.bar0Request_word hpf hwrite hlen halign hoff, hbad, Dev.readFor_pf0 (Dev.readReg_plain hread)]
    rfl
  · rw [execEpMemoryRequest_reached (hpf ▸ hreach) (by rw [hwrite]; rfl), Dev.epServe_bar0 hfrozen hbar, Dev.bar0Request_unnatural hlen, hpf]
  · cases hpois : r.poisoned with
    | true => exact execEpMemoryRequest_dropped (.inr (by rw [hwrite, hpois]; rfl))
    | false => rw [execEpMemoryRequest_reached (hpf ▸ hreach) (by rw [hpois, Bool.and_false]), Dev.epServe_frozen hfrozen hbar hwrite]
  · exact State.next_congr (jtagGate_vault hm _)
  · exact State.next_congr (jtagGate_vault hm _)
  · exact State.next_congr (jtagGate_vault hm _)
  · exact State.next_congr (jtagGate_refused hm (beq_eq_false_iff_ne.mpr (Dev.portLevel_ne_open hlvl)))
  · exact State.next_congr (jtagGate_refused hm (beq_eq_false_iff_ne.mpr (Dev.portLevel_ne_open hlvl)))
  · exact State.next_congr (jtagGate_refused hm (beq_eq_false_iff_ne.mpr (Dev.portLevel_ne_open hlvl)))
  · exact State.next_congr (jtagGate_refused hm (beq_eq_false_iff_ne.mpr (Dev.portLevel_ne_open hlvl)))
  · exact State.next_congr (jtagGate_refused hm (by rw [Dev.portLevel_closed hlvl]; rfl))
  · exact State.next_congr (jtagGate_refused hm (by rw [Dev.portLevel_closed hlvl]; rfl))
  · exact State.next_congr (jtagGate_refused hm (by rw [Dev.portLevel_closed hlvl]; rfl))
  · refine State.next_congr ((jtagGate_open hm (by rw [Dev.portLevel_up hp3, hopen]; rfl)).trans ?_)
    simp only [Dev.readReg_plain (v := s.dev) hread]
    rfl
  · refine State.next_congr ((jtagGate_open hm (by rw [Dev.portLevel_up hp3, hobs]; rfl)).trans ?_)
    simp only [show s.dev.faultRec w = some r from hrec]
    rfl
end



section
/-! SUPPORT. A bay that serves, and a bay whose port comes or goes (R185, R187, R190). -/
namespace Sys2Proof.Machine

section
variable (v : Dev) (b : Nat)

theorem Dev.pump_of_idle (h : v.store.ops = []) : v.pump b = v := by
  unfold Dev.pump
  rw [h]
  rfl

theorem Dev.bay_fixActive : ∃ a, (v.fixActive b).bay b = { v.bay b with activeB := a } := by
  unfold Dev.fixActive
  dsimp only
  split
  · exact ⟨true, v.bay_setBay b _⟩
  · split
    · exact ⟨false, v.bay_setBay b _⟩
    · exact ⟨(v.bay b).activeB, rfl⟩

/-- The queues of a drive: its bay's depths and what is sent to it. -/
theorem Dev.createQueues_frame : ∃ i j out, v.createQueues b =
    { v.setBay b { v.bay b with ioA := i, ioB := j } with out := out } :=
  ⟨_, _, _, rfl⟩

theorem foldl_issues {α : Type} {f : Dev → α → Dev} (h : ∀ (x : Dev) a, x.Issues (f x a)) (l : List α) (v : Dev) : v.Issues (l.foldl f v) := by
  induction l generalizing v with
  | nil => exact .refl v
  | cons a l ih => exact (h v a).trans (ih (f v a))

theorem Dev.copyBlock_issues (k : JournalBlock) (n : Nat) : v.Issues (v.copyBlock k n) := by
  unfold Dev.copyBlock
  split
  · exact Dev.issueOp_issues ..
  · exact .refl v

theorem Dev.replaceJournal_issues : ∃ j, Dev.Issues { v with store := { v.store with journal := j } } (v.replaceJournal b) := by
  unfold Dev.replaceJournal
  dsimp only
  split
  · exact ⟨v.store.journal, .refl v⟩
  · split
    · exact ⟨v.store.journal, .refl v⟩
    · exact ⟨_, foldl_issues (fun x k => x.copyBlock_issues k _) _ _⟩

theorem Dev.joinJournal_issues : ∃ j, Dev.Issues { v with store := { v.store with journal := j } } (v.joinJournal b) := by
  unfold Dev.joinJournal
  dsimp only
  split
  · exact ⟨v.store.journal, foldl_issues (fun x k => x.copyBlock_issues k b) _ _⟩
  · split
    · split
      · exact v.replaceJournal_issues _
      · exact ⟨v.store.journal, .refl v⟩
    · exact ⟨v.store.journal, .refl v⟩

/-- What the service of a bay leaves of the device, and what its record then says. -/
structure Dev.Served (v : Dev) (b : Nat) (l : Label) (w : Dev) : Prop where
  state : (w.bay b).state = .serving
  label : (w.bay b).label = some l
  generation : (w.bay b).generation = l.generation
  lbas : (w.bay b).lbas = (v.bay b).lbas
  single : (w.bay b).single = (v.bay b).single
  stale : (w.bay b).stale = (v.bay b).stale
  grains : w.store.grains = v.store.grains
  chip : w.chip = v.chip
  hosts : w.hosts = v.hosts

variable {v b}

theorem Dev.Served.issues {l : Label} {w u : Dev} (h : v.Served b l w) (hu : w.Issues u) : v.Served b l u := by
  obtain ⟨ops, moved, p, out, n, rfl⟩ := hu
  exact ⟨h.state, h.label, h.generation, h.lbas, h.single, h.stale, h.grains, h.chip, h.hosts⟩

theorem Dev.Served.withLayout {l : Label} {w : Dev} (h : v.Served b l w) (y : Layout) (j : Journal) :
    v.Served b l { w with store := { w.store with layout := y, journal := j } } :=
  ⟨h.state, h.label, h.generation, h.lbas, h.single, h.stale, h.grains, h.chip, h.hosts⟩

theorem Dev.Served.joinJournal {l : Label} {w : Dev} (h : v.Served b l w) : v.Served b l (w.joinJournal b) := by
  obtain ⟨j, hj⟩ := w.joinJournal_issues b
  exact (h.withLayout w.store.layout j).issues hj

theorem Dev.serveBay_served (v : Dev) (b : Nat) (l : Label) : v.Served b l (v.serveBay b l) := by
  obtain ⟨fa, fc, ep, out, hdone⟩ := v.resetsDone_frame
    (fun src => src == srcOf 0x041 7 b || src == srcOf 0x050 7 b || src == srcOf 0x051 7 b || src == srcOf 0x052 7 b)
  unfold Dev.serveBay
  dsimp only
  rw [hdone]
  generalize hw : ({ v with faults := fa, fcLast := fc, ep := ep, out := out } : Dev) = w
  have hserved : v.Served b l (((w.setBay b { w.bay b with state := .serving, label := some l, generation := l.generation }).fixActive b).createQueues b) := by
    obtain ⟨a, ha⟩ := (w.setBay b { w.bay b with state := .serving, label := some l, generation := l.generation }).bay_fixActive b
    obtain ⟨bays, hfix⟩ := (w.setBay b { w.bay b with state := .serving, label := some l, generation := l.generation }).fixActive_frame b
    obtain ⟨i, j, out', hqueues⟩ := ((w.setBay b { w.bay b with state := .serving, label := some l, generation := l.generation }).fixActive b).createQueues_frame b
    rw [Dev.bay_setBay] at ha
    rw [ha] at hqueues
    have hbay := congrArg (fun x => x.bay b) hqueues
    dsimp only at hbay
    rw [show ∀ x : Dev, ({ x with out := out' } : Dev).bay b = x.bay b from fun _ => rfl, Dev.bay_setBay] at hbay
    subst hw
    exact ⟨by rw [hbay], by rw [hbay], by rw [hbay], by rw [hbay]; rfl, by rw [hbay]; rfl, by rw [hbay]; rfl,
      by rw [hqueues, hfix]; rfl, by rw [hqueues, hfix]; rfl, by rw [hqueues, hfix]; rfl⟩
  refine Dev.Served.joinJournal ?_
  split
  · exact hserved
  · exact hserved.withLayout _ _

/-- The label of a drive just adopted. -/
def Dev.adoptedLabel (w : Dev) (b : Nat) : Label :=
  ⟨Config.shelfIdentity, b, (w.bay b).generation + 1, w.store.layout.rows, w.store.layout.spareRows, w.store.journal.bays⟩

/-- The device whose bay a drive just adopted joins. -/
def Dev.formatted (w : Dev) (b : Nat) : Dev :=
  let lo := driveKey b 0 0
  let hi := driveKey (b + 1) 0 0
  let moved := (w.positionsOn b).filter (fun e => !w.store.rebuilds.contains e)
  let v1 := { w with store := { w.store with
    drives := w.store.drives.filter (fun e => decide (e.1 < lo) || decide (hi ≤ e.1))
    rebuilds := w.store.rebuilds ++ moved } }
  (v1.setBay b { w.bay b with stale := false }).emit (.bayFormat b)

/-- A drive adopted: its old contents and the positions on it are given up, and its bay serves under the next generation. -/
def Dev.adopted (w : Dev) (b : Nat) : Dev :=
  (((w.formatted b).serveBay b (w.adoptedLabel b)).issueWrite b 0 [[]] (.label (w.adoptedLabel b))).2

theorem Dev.stale_formatted (w : Dev) (b : Nat) : ((w.formatted b).bay b).stale = false :=
  congrArg BayRec.stale (Dev.bay_setBay ..)

theorem Dev.adopted_served (w : Dev) (b : Nat) : (w.formatted b).Served b (w.adoptedLabel b) (w.adopted b) :=
  ((w.formatted b).serveBay_served b (w.adoptedLabel b)).issues (Dev.issueOp_issues ..)

/-- Where no bay serves, no label is written again. -/
theorem Dev.foldl_relabel_idle {f : Dev → Nat → Dev} {l : List Nat} {v : Dev} (h : ∀ b ∈ l, f v b = v) : l.foldl f v = v := by
  induction l with
  | nil => rfl
  | cons b l ih =>
    rw [List.foldl_cons, h b List.mem_cons_self]
    exact ih fun c hc => h c (List.mem_cons_of_mem b hc)

/-- A port that comes or goes on a bay without commands: the bay's record, and which port it uses. -/
def Dev.portChanged (v : Dev) (b : Nat) (x : BayRec) : Dev := ((v.setBay b x).fixActive b).pump b

theorem Dev.bay_portChanged (v : Dev) (b : Nat) (x : BayRec) (hops : v.store.ops = []) : ∃ a, (v.portChanged b x).bay b = { x with activeB := a } := by
  obtain ⟨bays, hfix⟩ := (v.setBay b x).fixActive_frame b
  obtain ⟨a, ha⟩ := (v.setBay b x).bay_fixActive b
  rw [Dev.bay_setBay] at ha
  refine ⟨a, ?_⟩
  unfold Dev.portChanged
  rw [Dev.pump_of_idle _ _ (by rw [hfix]; exact hops), ha]

theorem Dev.dropBayPort_idle {n : Bay} (hops : v.store.ops = []) (hserv : (v.bay n.val).state ≠ .serving) :
    v.dropBayPort n .B = v.portChanged n.val { v.bay n.val with upB := false } := by
  obtain ⟨bays, hfix⟩ := (v.setBay n.val { v.bay n.val with upB := false }).fixActive_frame n.val
  have hmine : (((v.setBay n.val { v.bay n.val with upB := false }).fixActive n.val).store.ops.filter (fun o => o.bay == n.val && o.port == .B)) = [] := by
    rw [hfix, show (v.setBay n.val { v.bay n.val with upB := false }).store.ops = [] from hops]
    rfl
  unfold Dev.dropBayPort
  dsimp only
  rw [hmine, beq_eq_false_iff_ne.mpr hserv, Bool.false_and]
  rfl

theorem serving_of_fails {run holds : Bool} {st : BayState} (h : (run && st == .serving && holds) = true) : st = .serving := by
  rw [Bool.and_eq_true, Bool.and_eq_true] at h
  exact beq_iff_eq.mp h.1.2

theorem Dev.noteDrive_frame (v : Dev) (b : Nat) (i : DriveInfo) : ∃ bays, v.noteDrive b i = { v with store := { v.store with bays := bays } } := by
  obtain ⟨bays, h⟩ := Dev.fixActive_frame (v.setBay b { v.bay b with
    label := i.label, lbas := i.lbas, single := !i.dual, fit := driveFits i, queues := i.queues, depth := i.depth
    upA := (v.bay b).upA && i.anaA, upB := (v.bay b).upB && i.anaB }) b
  exact ⟨bays, h⟩

theorem Dev.bay_noteDrive (v : Dev) (b : Nat) (i : DriveInfo) : ((v.noteDrive b i).bay b).lbas = i.lbas ∧ ((v.noteDrive b i).bay b).single = !i.dual := by
  obtain ⟨a, h⟩ := Dev.bay_fixActive (v.setBay b { v.bay b with
    label := i.label, lbas := i.lbas, single := !i.dual, fit := driveFits i, queues := i.queues, depth := i.depth
    upA := (v.bay b).upA && i.anaA, upB := (v.bay b).upB && i.anaB }) b
  rw [Dev.bay_setBay] at h
  exact ⟨congrArg BayRec.lbas h, congrArg BayRec.single h⟩

/-- A bay that leaves service with no command and no journal copy on it is in its new state. -/
theorem Dev.bayLeaves_idle (st : BayState) (hops : v.store.ops = []) (hjr : v.store.journal.bays.contains b = false) :
    v.bayLeaves b st = v.setBay b { v.bay b with state := st, ioA := 0, ioB := 0 } := by
  have hreplace : ∀ x : BayRec, (v.setBay b x).replaceJournal b = v.setBay b x := fun x => by
    unfold Dev.replaceJournal
    exact if_pos ((Bool.not_eq_true' _).mpr hjr)
  have hend : ∀ x : BayRec, (v.setBay b x).endBayOps b = v.setBay b x := fun x => by
    unfold Dev.endBayOps
    rw [show (v.setBay b x).store.ops = [] from hops]
    rfl
  unfold Dev.bayLeaves
  dsimp only
  rw [hreplace, ite_self, hend]

end

end Sys2Proof.Machine
end

section
open Sys2Proof Sys2Proof.Machine

/-- Settles O22: what each shelf command and each event of a bay and of its ports answers and leaves. -/
theorem shelfAndBays : Obligations.ShelfAndBays := by
  unfold Obligations.ShelfAndBays
  refine ⟨fun s p w id => ⟨fun hst hused hrows hspare h8 h9 h10 h89 h810 h910 hnone => ?_, fun hst h => ?_, fun b x hst hb hx hfor hset hlbas hfit => ?_,
    fun b x hst hb hx h => ?_, fun b x hst hb hx hfor hsan => ?_, fun b x hst hb hx => ?_⟩,
    fun s b info l st lba => ⟨fun hrun habs hpg hrel => ?_, fun habs => ?_, fun hrun hen hl hmeets hcur => ?_, fun hrun hen hret h => ?_, fun hen => ?_,
      fun hrun hserv hA hB => ?_, fun hserv => ⟨?_, ?_⟩, fun hops hjr => ?_, fun hrun hfail hl hmeets hcur => ?_, fun h => ?_, ?_,
      fun hops hserv => ?_, fun hpeal hup hleased => ?_, fun h => ?_⟩⟩
  · refine State.next_starts hst ((if_neg ?_).trans ?_)
    · rw [hused, decide_eq_false (Nat.not_lt.mpr hrows), decide_eq_false (Nat.not_lt.mpr hspare), beq_eq_false_iff_ne.mpr h89,
        beq_eq_false_iff_ne.mpr h810, beq_eq_false_iff_ne.mpr h910]
      simp only [List.any_cons, List.any_nil, decide_eq_false (Nat.not_lt.mpr (Nat.le_of_lt_succ h8)),
        decide_eq_false (Nat.not_lt.mpr (Nat.le_of_lt_succ h9)), decide_eq_false (Nat.not_lt.mpr (Nat.le_of_lt_succ h10)), Bool.or_self]
      exact Bool.false_ne_true
    · refine congrArg (·.finishOk id 0 0 0) (Dev.foldl_relabel_idle fun b hb => ?_)
      split
      · rename_i hserv _
        exact absurd hserv (hnone b (List.mem_range.mp hb))
      · rfl
  · refine State.next_starts hst (if_pos ?_)
    rcases h with h | h | h | h
    · rw [h]
      rfl
    · rw [decide_eq_true h, Bool.or_true]
      rfl
    · rw [decide_eq_true h]
      simp only [Bool.or_true, Bool.true_or]
    · rw [beq_iff_eq.mpr h]
      simp only [Bool.or_true, Bool.true_or]
  · subst hb hx
    refine ⟨w.adopted (p.u8 0 % 32), State.next_starts hst (if_neg ?_), ?_⟩
    · rw [hfor, hset, hfit, decide_eq_false (Nat.not_lt.mpr hlbas)]
      decide
    · have hserved := w.adopted_served (p.u8 0 % 32)
      exact ⟨hserved.state, hserved.generation, hserved.stale.trans (w.stale_formatted _), hserved.chip, hserved.hosts⟩
  · subst hb hx
    refine State.next_starts hst (if_pos ?_)
    rcases h with h | h
    · rw [bne_iff_ne.mpr h]
      rfl
    · rw [h, Bool.not_false, Bool.or_true]
  · subst hb hx
    refine State.next_starts hst (if_neg ?_)
    rw [hfor, hsan]
    decide
  · subst hb hx
    exact State.next_starts hst rfl
  · exact State.next_congr (if_pos (by rw [hrun, habs, hpg, hrel]; rfl))
  · refine State.next_same (if_neg fun h => habs ?_)
    rw [Bool.and_eq_true, Bool.and_eq_true, Bool.and_eq_true] at h
    exact beq_iff_eq.mp h.1.1.2
  · have hserved := (s.dev.noteDrive b.val info).serveBay_served b.val l
    obtain ⟨bays, hnote⟩ := s.dev.noteDrive_frame b.val info
    obtain ⟨hlbas, hsingle⟩ := s.dev.bay_noteDrive b.val info
    refine ⟨_, State.next_congr ((if_pos (by rw [hrun, hen]; rfl)).trans ?_), hserved.state, hserved.label, hserved.generation,
      hserved.lbas.trans hlbas, hserved.single.trans hsingle, hserved.grains.trans (by rw [hnote]), ?_⟩
    · simp only [hl]
      exact if_pos (by rw [hcur, hmeets]; rfl)
    · rw [hserved.hosts, hnote]
  · refine State.next_congr ((if_pos (by rw [hrun, hen]; rfl)).trans ?_)
    have hagain : (s.dev.sec.lifecycle == .retired && (s.dev.bay b.val).sanitize != some 0) = false := by
      rw [show (s.dev.sec.lifecycle == .retired) = false from beq_eq_false_iff_ne.mpr hret, Bool.false_and]
    rw [hagain]
    simp only [Bool.false_eq_true, if_false]
    split
    · rfl
    · rename_i y hy
      refine if_neg fun hif => ?_
      rw [Bool.and_eq_true] at hif
      obtain ⟨hcur, hmeets⟩ := hif
      rcases h with h | h | ⟨z, hz, hold⟩
      · exact absurd (h.symm.trans hy) (by simp only [reduceCtorEq, not_false_eq_true])
      · exact Bool.false_ne_true (h.symm.trans hmeets)
      · obtain rfl : z = y := Option.some.inj (hz.symm.trans hy)
        exact Bool.false_ne_true (hold.symm.trans hcur)
  · refine State.next_same (if_neg fun h => hen ?_)
    rw [Bool.and_eq_true] at h
    exact beq_iff_eq.mp h.2
  · refine State.next_congr ((if_pos ?_).trans (if_pos ?_))
    · simp only [show s.dev.baysRun = true from hrun, show (s.dev.bay b.val).state = .serving from hserv, show (s.dev.bay b.val).upA = false from hA,
        show (s.dev.bay b.val).upB = false from hB]
      rfl
    · rw [hrun, hserv]
      rfl
  · exact State.next_same (if_neg fun h => hserv (serving_of_fails h))
  · exact State.next_same (if_neg fun h => hserv (serving_of_fails h))
  · rw [Dev.bayLeaves_idle _ hops hjr, Dev.bay_setBay]
  · refine State.next_congr ?_
    simp only [hl]
    exact if_pos (by rw [hrun, hfail, hcur, hmeets]; rfl)
  · refine State.next_same ?_
    split
    · rename_i y hy
      refine if_neg fun hif => ?_
      rcases h with h | h
      · exact absurd (h.symm.trans hy) (by simp only [reduceCtorEq, not_false_eq_true])
      · rw [h, Bool.and_false] at hif
        exact Bool.false_ne_true hif
    · rfl
  · refine ⟨_, rfl, fun hops hserv => ?_⟩
    obtain ⟨a, ha⟩ := s.dev.bay_portChanged b.val { s.dev.bay b.val with upA := true } hops
    simp only [show ((s.dev.bay b.val).state == .serving) = false from beq_eq_false_iff_ne.mpr hserv, Bool.false_eq_true, if_false, if_true]
    exact ⟨(congrArg BayRec.upA ha).trans rfl, (congrArg BayRec.upB ha).trans rfl, (congrArg BayRec.state ha).trans rfl⟩
  · obtain ⟨a, ha⟩ := s.dev.bay_portChanged b.val { s.dev.bay b.val with upB := false } hops
    exact ⟨_, State.next_congr (Dev.dropBayPort_idle hops hserv), (congrArg BayRec.upB ha).trans rfl, (congrArg BayRec.upA ha).trans rfl, (congrArg BayRec.state ha).trans rfl⟩
  · exact State.next_congr (if_pos (by rw [hpeal, hup, hleased]; rfl))
  · refine State.next_same (if_neg fun hif => ?_)
    rw [Bool.and_eq_true, Bool.and_eq_true, Bool.not_eq_true'] at hif
    obtain ⟨⟨hpeal, hup⟩, hleased⟩ := hif
    rcases h with h | h | h
    · exact Bool.false_ne_true (h.symm.trans hpeal)
    · exact Bool.false_ne_true (h.symm.trans hup)
    · exact Bool.false_ne_true (hleased.symm.trans h)
end



section
/-! SUPPORT. Queries, and what the commands that ask for a mode or touch the lifecycle do. -/
namespace Sys2Proof.Machine

/-- The modes in which the block runs without a DRAIN. -/
theorem Dev.inMode_running (v : Dev) :
    v.inMode [.survey, .service, .degraded] = true ↔ v.mode = .survey ∨ v.mode = .service ∨ v.mode = .degraded := by
  simp only [Dev.inMode, List.contains_eq_mem, List.mem_cons, List.not_mem_nil, or_false, decide_eq_true_eq]

end Sys2Proof.Machine

open Sys2Proof Sys2Proof.Machine

/-- Settles O13: each command, where it may start, does what its rules say. -/
theorem securityAndModeCommands : Obligations.SecurityAndModeCommands := by
  refine ⟨fun s p w id => ⟨fun hst => ?_, fun hst => ?_, fun hst => ?_, fun hst => ?_, fun hst => ?_⟩,
    fun s p w id => ⟨fun hst h0 => ?_, fun hst h1 => ?_, fun hst h => ?_, fun hst => ?_, fun hst => ?_, fun hst => ?_, fun hst => ?_⟩,
    fun s p w id => ⟨fun hst hblank hdebug => ?_, fun hst hblank => ?_, fun hst hprov hfails hmode => ?_, fun hst => ?_, fun hst l hl h => ?_,
      fun hst h2 hfails hprov => ?_⟩⟩
  · exact State.next_starts hst rfl
  · exact State.next_starts hst rfl
  · exact State.next_starts hst rfl
  · exact State.next_starts hst rfl
  · exact State.next_starts hst rfl
  · refine State.next_starts hst ((if_pos h0).trans (ite_iff_congr ?_ rfl rfl))
    simp only [Bool.and_eq_true, beq_iff_eq]
  · refine State.next_starts hst ((if_neg (by rw [h1]; decide)).trans ((if_pos h1).trans (ite_iff_congr ?_ rfl rfl)))
    simp only [Bool.and_eq_true, beq_iff_eq, Bool.not_eq_true']
  · exact State.next_starts hst ((if_neg (by omega)).trans (if_neg (by omega)))
  · exact State.next_starts hst rfl
  · refine State.next_starts hst (ite_iff_congr w.inMode_running rfl rfl)
  · refine State.next_starts hst (ite_iff_congr ?_ rfl rfl)
    simp only [Bool.and_eq_true, beq_iff_eq]
  · refine State.next_starts hst ?_
    by_cases hvalid : w.otherImage.staged = true ∧ imageValid w.otherImage.bytes w.sec.floor = true
    · have hfit : (!w.otherImage.staged || !(imageValid w.otherImage.bytes w.sec.floor)) = false := by
        rw [hvalid.1, hvalid.2]
        rfl
      refine ((if_neg (by rw [hfit]; exact Bool.false_ne_true)).trans ?_).trans (if_pos hvalid).symm
      by_cases hrun : w.inMode [.survey, .service, .degraded] = true
      · exact (if_neg (by rw [hrun]; exact Bool.false_ne_true)).trans (if_pos (w.inMode_running.mp hrun)).symm
      · exact (if_pos ((Bool.not_eq_true' _).mpr (Bool.eq_false_iff.mpr hrun))).trans (if_neg fun h => hrun (w.inMode_running.mpr h)).symm
    · refine (if_pos ?_).trans (if_neg hvalid).symm
      rw [Bool.or_eq_true, Bool.not_eq_true', Bool.not_eq_true', ← Bool.not_eq_true, ← Bool.not_eq_true]
      exact Classical.not_and_iff_not_or_not.mp hvalid
  · refine State.next_starts hst ((if_neg ?_).trans ?_)
    · rw [hblank, beq_eq_false_iff_ne.mpr hdebug]
      decide
    · rfl
  · exact State.next_starts hst (if_pos (by rw [bne_iff_ne.mpr hblank]; rfl))
  · refine State.next_starts hst ((if_neg ?_).trans ?_)
    · rw [hprov, decide_eq_false (Nat.not_le.mpr hfails)]
      decide
    · cases hsigned : w.signedOk 0xFF (p.bytes 96) with
      | false => rfl
      | true => exact if_neg fun h => hmode (beq_iff_eq.mp h)
  · exact State.next_starts hst rfl
  · refine State.next_starts hst ?_
    simp only [hl]
    rcases h with h | ⟨hfails, hprov⟩
    · exact if_pos (bne_iff_ne.mpr h)
    · split
      · rfl
      · exact (if_neg (Nat.not_le.mpr hfails)).trans (if_pos (bne_iff_ne.mpr hprov))
  · refine State.next_starts hst ?_
    rw [h2]
    refine (if_neg (by decide)).trans ((if_neg (Nat.not_le.mpr hfails)).trans ((if_neg (by rw [hprov]; decide)).trans (ite_iff_congr ?_ rfl rfl)))
    rw [Bool.and_eq_true, bne_iff_ne]
end



section
/-! SUPPORT. The servo at a peal boundary, and what a bell boundary does to the clock (R61, R66, R67). -/
namespace Sys2Proof.Machine

section
variable (v : Dev)

/-- Only the servo, the length of the peal and a free choice differ, and the measurement is still noted. -/
def Dev.Steered (v w : Dev) : Prop := ∃ (x : Servo) (len tick : Nat), w = { v with
      clk := { v.clk with pealLen := len }
      chip := { v.chip with servo := x }
      freeTick := tick } ∧ x.measured = v.chip.servo.measured ∧ (len = v.clk.pealLen ∨ (7813 ≤ len ∧ len ≤ 23437))

variable {v} in
theorem Dev.Steered.trans {w u : Dev} (h : v.Steered w) (k : w.Steered u) : v.Steered u := by
  obtain ⟨x, len, tick, rfl, hx, hlen⟩ := h
  obtain ⟨y, len', tick', rfl, hy, hlen'⟩ := k
  refine ⟨y, len', tick', rfl, hy.trans hx, ?_⟩
  rcases hlen' with h | h
  · exact h.symm ▸ hlen
  · exact .inr h

theorem Dev.setServo_steered (x : Servo) (h : x.measured = v.chip.servo.measured) : v.Steered (v.setServo x) :=
  ⟨x, v.clk.pealLen, v.freeTick, rfl, h, .inl rfl⟩

theorem Dev.slew_steered (off : Int) : v.Steered (v.slew off) :=
  ⟨_, v.clk.pealLen, _, rfl, rfl, .inl rfl⟩

/-- R68: a step keeps its peal within bounds. -/
theorem Dev.planStep_steered (off : Int) (ref : Option Nat) : v.Steered (v.planStep off ref) := by
  refine ⟨_, _, _, rfl, rfl, ?_⟩
  split
  · exact .inl rfl
  · exact .inr (stepPeal_bounds _)

variable {v} in
theorem Dev.Steered.slew {w : Dev} (h : v.Steered w) (off : Int) : v.Steered (w.slew off) := h.trans (w.slew_steered off)

variable {v} in
theorem Dev.Steered.setServo {w : Dev} {x : Servo} (h : v.Steered w) (hx : x.measured = w.chip.servo.measured) : v.Steered (w.setServo x) :=
  h.trans (w.setServo_steered x hx)

theorem Servo.measured_ite {c : Prop} [Decidable c] {x y : Servo} {m : Option Nat} (hx : x.measured = m) (hy : y.measured = m) :
    (if c then x else y).measured = m := by
  split
  · exact hx
  · exact hy

theorem Dev.servoPeal_steered : v.Steered v.servoPeal := by
  unfold Dev.servoPeal
  dsimp only
  split
  · exact v.setServo_steered _ rfl
  split
  · exact v.setServo_steered _ rfl
  split
  · exact v.setServo_steered _ (by split <;> rfl)
  · split
    · exact v.setServo_steered _ rfl
    split
    · exact (v.setServo_steered _ rfl).trans (Dev.planStep_steered ..)
    split
    · exact v.setServo_steered _ rfl
    · refine Dev.Steered.setServo (Dev.Steered.slew (Dev.setServo_steered _ _ ?_) _) ?_
      · rfl
      · exact Servo.measured_ite rfl rfl
  · refine Dev.Steered.setServo (Dev.Steered.slew (Dev.setServo_steered _ _ ?_) _) ?_
    · rfl
    · exact Servo.measured_ite rfl rfl
  · exact v.setServo_steered _ rfl

/-- The ciphers of the spires and a free choice, the state of the modules and the snapshots. -/
def Dev.pealed (v : Dev) : Dev :=
  { v with
    ciphers := []
    freeTick := 0
    pmon := .reset
    store := { v.store with hums := [] } }

theorem Dev.cipherPeal_pealed : v.cipherPeal.pealed = v.pealed :=
  foldl_pi (β := Dev) (·.pealed) _ (fun x a => by split <;> rfl) _ v

theorem Dev.humPeal_pealed (h : Nat) : (v.humPeal h).pealed = v.pealed := rfl

theorem Dev.askSnapshot_pealed (buf : Bool) (cmd : Option Nat) : (v.askSnapshot buf cmd).pealed = v.pealed := rfl

end

/-- What the peal boundary does after the servo. -/
def Dev.afterServo (v : Dev) : Dev :=
  let v3 := ({ v with chip := { v.chip with syncOut := true, rng := v.chip.rng.peal v.now } }).emit .bellSync
  let v4 := ((v3.cipherPeal).humPeal 0).humPeal 1
  let n := v4.cfgBits 0x400000C 23 0
  if n != 0 && v4.clk.peals % n == 0 then v4.askSnapshot true none else v4

theorem Dev.afterServo_pealed (v : Dev) : v.afterServo.pealed =
    (({ v with chip := { v.chip with syncOut := true, rng := v.chip.rng.peal v.now } }).emit .bellSync).pealed := by
  unfold Dev.afterServo
  dsimp only
  generalize ({ v with chip := { v.chip with syncOut := true, rng := v.chip.rng.peal v.now } } : Dev).emit .bellSync = w
  have hpeal : ((w.cipherPeal.humPeal 0).humPeal 1).pealed = w.pealed :=
    (Dev.humPeal_pealed _ 1).trans ((Dev.humPeal_pealed _ 0).trans w.cipherPeal_pealed)
  split
  · exact (Dev.askSnapshot_pealed _ true none).trans hpeal
  · exact hpeal

section
variable {v : Dev}

/-- The end of the peal that a step changed. -/
def Dev.stepped (v : Dev) (t : Nat) (ref : Option Nat) : Dev :=
  let v1 := { v with clk := { v.clk with bell := match ref with
                | some r => r / 512 + v.now - t
                | none => v.clk.bell } }
  v1.setServo { v.chip.servo with
    stepDue := none
    stepCount := v.chip.servo.stepCount + 1
    epochPtp := v.chip.servo.epochPtp || ref.isSome }

/-- R66: outside VAULT a peal ends when its bells are over. -/
theorem Dev.tick_bellInPeal (hm : v.mode ≠ .vault) :
    v.tick.clk.bellInPeal = if v.clk.bellInPeal + 1 < v.clk.pealLen then v.clk.bellInPeal + 1 else 0 := by
  have hhold : ∀ planned, (v.mode == .vault && planned) = false := fun planned => by
    rw [beq_eq_false_iff_ne.mpr hm, Bool.false_and]
  unfold Dev.tick
  dsimp only
  rw [hhold]
  unfold Clock.tick
  simp only [Bool.false_eq_true, if_false, decide_eq_true_eq]
  by_cases h : v.clk.bellInPeal + 1 < v.clk.pealLen
  · rw [if_pos h, if_neg (Nat.not_le.mpr h)]
  · rw [if_neg h, if_pos (Nat.not_lt.mp h)]

theorem Dev.clockIn_sync (hm : v.mode ≠ .held) (hp3 : v.sec.p3 = false) (hsync : v.srcSync = true) :
    ¬ (!(v.clockIn && v.srcSync)) = true := by
  rw [Dev.clockIn, bne_iff_ne.mpr hm, hp3, hsync]
  decide

/-- Where no IEEE 1588 time is asked for, none counts. -/
theorem Dev.notPtp (hptp : v.srcPtp = false) :
    ¬ (match v.chip.servo.fed with | some (_, t) => v.srcPtp && v.recent t | none => false) = true := by
  split
  · rw [hptp, Bool.false_and]
    exact Bool.false_ne_true
  · exact Bool.false_ne_true

end

end Sys2Proof.Machine

open Sys2Proof Sys2Proof.Machine

/-- Settles O12: the boundaries of bells and peals, and the events of the servo. -/
theorem timeEvents : Obligations.TimeEvents := by
  intro s m b t ref
  refine ⟨fun hm => ?_, fun hm hp3 => ?_, fun hm hp3 => ?_, ⟨rfl, rfl, rfl, rfl, rfl, rfl, rfl, fun e he => ?_, fun hm => ?_⟩, fun h => ?_,
    fun hm hb hmeas hp3 => ?_, fun hm hb hmeas hp3 => ?_, fun hm hbell hdue => ?_, fun h => ?_, fun hst hlost hbell => ?_, fun h => ?_,
    fun hst hvalid => ?_, fun hst hbell => ?_, fun hst => ⟨?_, ?_⟩,
    fun hm hp3 hsync hptp => ⟨fun hlast => ?_, fun hlast hfar hnear => ?_, fun hlast hoff => ?_⟩, fun hsync => ?_,
    fun hm hp3 hptp hsub hlink hdom => ?_, fun hptp => ?_⟩
  · exact State.next_same (if_pos (beq_iff_eq.mpr hm))
  · exact State.next_congr ((if_neg fun h => hm (beq_iff_eq.mp h)).trans (if_neg (by rw [hp3]; exact Bool.false_ne_true)))
  · exact State.next_congr ((if_neg fun h => hm (beq_iff_eq.mp h)).trans (if_pos hp3))
  · obtain ⟨f, hf, rfl⟩ := List.mem_map.mp he
    refine ⟨f, hf, ?_⟩
    split
    · exact ⟨rfl, rfl⟩
    · exact ⟨rfl, rfl⟩
  · exact Dev.tick_bellInPeal hm
  · refine State.next_same (if_pos ?_)
    rw [Bool.or_eq_true, Bool.or_eq_true, beq_iff_eq, bne_iff_ne, beq_iff_eq, or_assoc]
    exact h
  · refine State.next_congr ((if_neg ?_).trans (if_pos hp3))
    rw [Bool.or_eq_true, Bool.or_eq_true, beq_iff_eq, bne_iff_ne, beq_iff_eq]
    exact fun h => h.elim (fun h => h.elim hm fun h => h hb) hmeas
  · generalize hw : (s.dev.setServo { s.dev.chip.servo with measured := some s.dev.now }).servoPeal = w
    obtain ⟨x, len, tick, hservo, hx, hlen⟩ := (s.dev.setServo { s.dev.chip.servo with measured := some s.dev.now }).servoPeal_steered
    rw [hw] at hservo
    have hchip : w.afterServo.chip = { w.chip with syncOut := true, rng := w.chip.rng.peal w.now } :=
      by
      have h := congrArg Dev.chip w.afterServo_pealed
      exact h
    have hclk : w.afterServo.clk = w.clk := by
      have h := congrArg Dev.clk w.afterServo_pealed
      exact h
    have hout : w.afterServo.out = w.out ++ [.bellSync] := by
      have h := congrArg Dev.out w.afterServo_pealed
      exact h
    refine ⟨w.afterServo, State.next_congr ((if_neg ?_).trans ((if_neg (fun h => Bool.false_ne_true (hp3.symm.trans h))).trans ?_)), ?_, ?_, ?_, ?_, ?_, ?_, ?_⟩
    · rw [Bool.or_eq_true, Bool.or_eq_true, beq_iff_eq, bne_iff_ne, beq_iff_eq]
      exact fun h => h.elim (fun h => h.elim hm fun h => h hb) hmeas
    · subst hw
      rfl
    · rw [hchip, hservo]
      exact hx
    · rw [hchip]
    · rw [hout]
      exact List.mem_append_right _ (List.mem_singleton_self _)
    · rw [hchip, hservo]
      rfl
    · rw [Dev.mode, hchip, hservo]
      rfl
    · rw [hclk, hservo]
      rfl
    · rw [hclk, hservo]
      exact hlen
  · refine ⟨s.dev.stepped t ref, State.next_congr ?_, rfl, rfl, rfl, rfl, rfl, rfl, rfl, rfl⟩
    simp only [show s.dev.chip.servo.stepDue = some ⟨some t, b, ref⟩ from hdue]
    refine if_neg ?_
    rw [show (s.dev.mode == .vault) = false from beq_eq_false_iff_ne.mpr hm, hbell]
    exact Bool.false_ne_true
  · refine State.next_same ?_
    dsimp only
    split
    · rename_i hdue
      refine if_pos ?_
      rcases h with h | h
      · rw [show s.dev.mode = .vault from h]
        rfl
      · exact absurd (h.symm.trans hdue) (by simp only [reduceCtorEq, not_false_eq_true])
    · rfl
  · refine State.next_congr ?_
    simp only [show s.dev.chip.servo.lostSince = some t from hlost]
    exact if_pos (by rw [show s.dev.chip.servo.state = .locked from hst, hbell]; rfl)
  · refine State.next_same ?_
    dsimp only
    split
    · rename_i t' ht
      refine if_neg fun hif => ?_
      rw [Bool.and_eq_true, beq_iff_eq] at hif
      rcases h with h | h
      · exact h hif.1
      · exact absurd (h.symm.trans ht) (by simp only [reduceCtorEq, not_false_eq_true])
    · rfl
  · exact State.next_congr (if_pos (by rw [show s.dev.chip.servo.state = .holdover from hst, show s.dev.chip.servo.refValid = true from hvalid]; rfl))
  · exact ⟨_, State.next_congr (if_pos (by rw [show s.dev.chip.servo.state = .holdover from hst]; exact hbell)), rfl, rfl, rfl⟩
  · refine State.next_same (if_neg fun hif => ?_)
    rw [Bool.and_eq_true, beq_iff_eq] at hif
    exact hst hif.1
  · refine State.next_same (if_neg fun hif => ?_)
    rw [Bool.and_eq_true, beq_iff_eq] at hif
    exact hst hif.1
  · exact State.next_congr ((if_neg (Dev.clockIn_sync hm hp3 hsync)).trans ((if_pos (by rw [hlast])).trans (congrArg s.dev.setServo (if_neg (Dev.notPtp hptp)))))
  · refine State.next_congr ((if_neg (Dev.clockIn_sync hm hp3 hsync)).trans ((if_pos ?_).trans (congrArg s.dev.setServo (if_neg (Dev.notPtp hptp)))))
    simp only [show s.dev.chip.servo.lastSync = some t from hlast]
    rw [Bool.and_eq_true, Bool.or_eq_true, decide_eq_true_eq, decide_eq_true_eq, decide_eq_true_eq]
    exact ⟨hfar, hnear⟩
  · refine State.next_congr ((if_neg (Dev.clockIn_sync hm hp3 hsync)).trans (if_neg ?_))
    simp only [show s.dev.chip.servo.lastSync = some t from hlast]
    rw [Bool.and_eq_true, Bool.or_eq_true, decide_eq_true_eq, decide_eq_true_eq, decide_eq_true_eq]
    omega
  · exact State.next_same (if_pos (by rw [hsync, Bool.and_false]; rfl))
  · refine State.next_congr (if_pos ?_)
    rw [Dev.clockIn, show (s.dev.mode != .held) = true from bne_iff_ne.mpr hm, hp3, hptp, hsub, hlink, hdom]
    simp
  · refine State.next_same (if_neg ?_)
    rw [hptp, Bool.and_false, Bool.false_and, Bool.false_and, Bool.false_and]
    exact Bool.false_ne_true
end



section
/-! SUPPORT. The stages of a boot: one that passes, one that fails (R88 to R91, R97). -/
namespace Sys2Proof.Machine

section
variable {b : Boot} {stage : Nat}

/-- A part whose failures in a row come to a number. -/
def Boot.markRun (b : Boot) (stage n run : Nat) : Boot :=
  let c := { b with partRuns := Tab.set b.partRuns stage (n, run) }
  if 4 ≤ run && (b.spireMissing == 0 && b.keepMissing == 0) then
    if stage = 0 && n < 2 then { c with keepMissing := BitVec.ofNat 2 (2 ^ n) }
    else if (stage = 2 || stage = 3) && n < 4 then { c with spireMissing := BitVec.ofNat 4 (2 ^ n) }
    else c
  else c

theorem Boot.markPart_some (n : Nat) : b.markPart stage (some n) = b.markRun stage n (match Tab.get b.partRuns stage with
      | some (m, r) => if m = n then r + 1 else 1
      | none => 1) := rfl

theorem Boot.markRun_image (n run : Nat) : (b.markRun stage n run).image = b.image ∧ (b.markRun stage n run).stage = b.stage := by
  unfold Boot.markRun
  dsimp only
  split
  · split
    · exact ⟨rfl, rfl⟩
    · split
      · exact ⟨rfl, rfl⟩
      · exact ⟨rfl, rfl⟩
  · exact ⟨rfl, rfl⟩

/-- Marking a part leaves the image and the stage. -/
theorem Boot.markPart_image (part : Option Nat) : (b.markPart stage part).image = b.image ∧ (b.markPart stage part).stage = b.stage := by
  cases part with
  | none => exact ⟨rfl, rfl⟩
  | some n => exact Boot.markRun_image ..

/-- R91: the fourth failure in a row marks a spire missing. -/
theorem Boot.markPart_spire {n r : Nat} (hstage : stage = 2 ∨ stage = 3) (hn : n < 4) (hr : 3 ≤ r) (hruns : Tab.get b.partRuns stage = some (n, r))
    (hsm : b.spireMissing = 0) (hkm : b.keepMissing = 0) :
    (b.markPart stage (some n)).spireMissing = BitVec.ofNat 4 (2 ^ n) ∧ (b.markPart stage (some n)).keepMissing = 0 := by
  have hkeep : ¬ (decide (stage = 0) && decide (n < 2)) = true := by
    rw [Bool.and_eq_true, decide_eq_true_eq]
    omega
  have hspire : ((decide (stage = 2) || decide (stage = 3)) && decide (n < 4)) = true := by
    rw [Bool.and_eq_true, Bool.or_eq_true, decide_eq_true_eq, decide_eq_true_eq, decide_eq_true_eq]
    exact ⟨hstage, hn⟩
  have hrun : (decide (4 ≤ r + 1) && (b.spireMissing == 0 && b.keepMissing == 0)) = true := by
    rw [hsm, hkm, decide_eq_true (Nat.succ_le_succ hr)]
    rfl
  have hmark : b.markPart stage (some n) = b.markRun stage n (r + 1) := by
    rw [Boot.markPart_some, hruns]
    exact congrArg (b.markRun stage n) (if_pos rfl)
  rw [hmark, Boot.markRun, if_pos hrun, if_neg hkeep, if_pos hspire]
  exact ⟨rfl, hkm⟩

end

section
variable {v : Dev}

theorem Dev.not_boot_of_disobeys (h : v.obeysReset = false) : v.mode ≠ .boot := by
  intro hm
  rw [Dev.obeysReset, Dev.inMode, hm] at h
  exact absurd h (by decide)

theorem Dev.runs_of_obeys (h : v.obeysReset = true) (hm : v.mode ≠ .boot) : v.inMode [.survey, .service, .degraded, .drain] = true := by
  simp only [Dev.obeysReset, Dev.inMode, List.contains_eq_mem, List.mem_cons, List.not_mem_nil, or_false, decide_eq_true_eq] at h ⊢
  exact h.resolve_left hm

theorem Dev.inTime_of {stage since : Nat} (h : stage = 5 → v.clk.elapsed ≤ since + 125 * 15625) : v.inTime stage since = true := by
  unfold Dev.inTime
  by_cases h5 : stage = 5
  · rw [decide_eq_true (show v.now ≤ since + 125 * pealBells from h h5), Bool.or_true]
  · rw [bne_iff_ne.mpr h5, Bool.true_or]

theorem Dev.booting_of_boot (hm : v.mode = .boot) : v.booting = true := by
  unfold Dev.booting
  rw [hm]
  rfl

/-- R88: a stage of the device's boot that passes before the last one. -/
def Dev.nextStage (v : Dev) : Dev :=
  (v.adjBoot (fun x => { x with partRuns := Tab.del x.partRuns v.chip.boot.stage })).adjBoot (fun x => { x with stage := x.stage + 1, since := v.now })

theorem Dev.chipPass_next (hm : v.mode = .boot) (hdue : v.chip.boot.backoffDue = none) (hstage : v.chip.boot.stage < 5)
    (himage : v.chip.boot.stage = 1 → v.imagePasses = true) : v.chipPass =
      if v.chip.boot.stage = 0 then
        { v.nextStage.readFuses with chip := { v.nextStage.chip with
          rng := ⟨!bit v.chip.boot.keepMissing.toNat 0, !bit v.chip.boot.keepMissing.toNat 1, true, v.now⟩ } }
      else if v.chip.boot.stage = 1 then
        { v.nextStage with sec := { v.sec with loadedVer := v.nextStage.activeImage.version, loadedSvn := v.nextStage.activeImage.svn } }
      else v.nextStage := by
  unfold Dev.chipPass
  dsimp only
  rw [if_neg, if_neg, if_neg (Nat.ne_of_lt hstage)]
  · rfl
  · rw [Bool.and_eq_true, decide_eq_true_eq, Bool.not_eq_true', ← Bool.not_eq_true]
    exact fun h => h.2 (himage h.1)
  · rw [Dev.booting_of_boot hm, hdue, Dev.inTime, bne_iff_ne.mpr (Nat.ne_of_lt hstage), decide_eq_false (Nat.not_lt.mpr (Nat.le_of_lt hstage)), Bool.true_or]
    decide

theorem Dev.chipPass_stays (h : v.chip.boot.stage = 5 ∧ v.chip.boot.since + 125 * 15625 < v.clk.elapsed ∨
    v.chip.boot.stage = 1 ∧ v.imagePasses = false) : v.chipPass = v := by
  unfold Dev.chipPass
  dsimp only
  rcases h with ⟨hstage, htime⟩ | ⟨hstage, himage⟩
  · refine if_pos ?_
    rw [hstage, Dev.inTime, decide_eq_false (show ¬ v.now ≤ v.chip.boot.since + 125 * pealBells from Nat.not_le.mpr htime)]
    exact Bool.or_true _
  · split
    · rfl
    · exact if_pos (by rw [hstage, himage]; rfl)

/-- R88: the last stage asks for SURVEY. -/
theorem Dev.chipPass_last (hm : v.mode = .boot) (hdue : v.chip.boot.backoffDue = none) (hstage : v.chip.boot.stage = 5)
    (htime : v.clk.elapsed ≤ v.chip.boot.since + 125 * 15625) :
    v.chipPass = (v.adjBoot (fun x => { x with partRuns := Tab.del x.partRuns v.chip.boot.stage })).modeEvent .bootDone := by
  unfold Dev.chipPass
  dsimp only
  refine (if_neg ?_).trans ((if_neg ?_).trans (if_pos hstage))
  · rw [Dev.booting_of_boot hm, hdue, hstage, Dev.inTime, decide_eq_true (show v.now ≤ v.chip.boot.since + 125 * pealBells from htime)]
    decide
  · rw [hstage]
    exact Bool.false_ne_true

/-- What a failure of a stage records (R89 to R91). -/
def Dev.failedBoot (v : Dev) (code : Byte) (part : Option Nat) : Boot :=
  let b := v.chip.boot
  let c := { b.markPart b.stage part with
    failures := b.failures + 1, failStage := b.stage, failCode := code, backoffExp := min 10 b.failures, since := v.now
    backoffDue := if v.noBackoff then none else some (v.retryBell (b.failures + 1)) }
  if b.stage = 0 then c
  else if b.imageFails = 0 then { c with imageFails := 1 }
  else { c with imageFails := 0, image := !b.image, stage := 1 }

theorem Dev.chipFail_boot (code : Byte) (part : Option Nat) (hm : v.mode = .boot) (hdue : v.chip.boot.backoffDue = none)
    (hstage : v.chip.boot.stage ≤ 5) (hdone : .bootDone ∉ v.chip.mode.events) :
    v.chipFail code part = { v with chip := { v.chip with boot := v.failedBoot code part } } := by
  unfold Dev.chipFail
  dsimp only
  refine if_neg ?_
  have hevents : v.chip.mode.events.contains .bootDone = false := by
    rw [← Bool.not_eq_true, List.contains_iff_mem]
    exact hdone
  rw [Dev.booting_of_boot hm, hdue, decide_eq_false (Nat.not_lt.mpr hstage), hevents]
  decide

/-- The image and the stage after a failure: the second one counted against an image selects the other (R90). -/
theorem Dev.failedBoot_image (code : Byte) (part : Option Nat) :
    (v.failedBoot code part).image = (if v.chip.boot.stage = 0 ∨ v.chip.boot.imageFails = 0 then v.chip.boot.image else !v.chip.boot.image) ∧
    (v.failedBoot code part).stage = (if v.chip.boot.stage = 0 ∨ v.chip.boot.imageFails = 0 then v.chip.boot.stage else 1) := by
  obtain ⟨himage, hstage⟩ := Boot.markPart_image (b := v.chip.boot) (stage := v.chip.boot.stage) part
  unfold Dev.failedBoot
  dsimp only
  by_cases h0 : v.chip.boot.stage = 0
  · have h : v.chip.boot.stage = 0 ∨ v.chip.boot.imageFails = 0 := .inl h0
    rw [if_pos h, if_pos h, if_pos h0]
    exact ⟨himage, hstage⟩
  by_cases hf : v.chip.boot.imageFails = 0
  · have h : v.chip.boot.stage = 0 ∨ v.chip.boot.imageFails = 0 := .inr hf
    rw [if_pos h, if_pos h, if_neg h0, if_pos hf]
    exact ⟨himage, hstage⟩
  · have h : ¬ (v.chip.boot.stage = 0 ∨ v.chip.boot.imageFails = 0) := not_or.mpr ⟨h0, hf⟩
    rw [if_neg h, if_neg h, if_neg h0, if_neg hf]
    exact ⟨rfl, rfl⟩

theorem Dev.failedBoot_records (code : Byte) (part : Option Nat) :
    (v.failedBoot code part).failCode = code ∧ (v.failedBoot code part).failStage = v.chip.boot.stage ∧
    (v.failedBoot code part).failures = v.chip.boot.failures + 1 ∧ (v.failedBoot code part).backoffExp = min 10 v.chip.boot.failures ∧
    (v.failedBoot code part).backoffDue = (if v.noBackoff then none else some (v.retryBell (v.chip.boot.failures + 1))) ∧
    (v.failedBoot code part).spireMissing = (v.chip.boot.markPart v.chip.boot.stage part).spireMissing ∧
    (v.failedBoot code part).keepMissing = (v.chip.boot.markPart v.chip.boot.stage part).keepMissing := by
  unfold Dev.failedBoot
  dsimp only
  split
  · exact ⟨rfl, rfl, rfl, rfl, rfl, rfl, rfl⟩
  split
  · exact ⟨rfl, rfl, rfl, rfl, rfl, rfl, rfl⟩
  · exact ⟨rfl, rfl, rfl, rfl, rfl, rfl, rfl⟩

end

end Sys2Proof.Machine

open Sys2Proof Sys2Proof.Machine

/-- Settles O14: power and the reset pin, the stages of a boot, and the SMBus. -/
theorem powerAndBoot : Obligations.PowerAndBoot := by
  refine ⟨fun s n straps => ⟨fun hm => ?_, fun hm => ?_, fun hm => ?_, fun hob h1 h2 => ?_, fun hob => ⟨?_, ?_⟩, fun hob hm => ?_, fun hm => ?_,
      fun hob hm hp3 hphase => ?_, fun hm hphase hin => ?_⟩,
    fun s => ⟨fun hm hdue hstage himage => ?_, fun hm hdue hstage himage => ?_, fun hm hdue hstage htime => ?_, fun hstage htime => ?_,
      fun code part hm hdue hstage hvault hfenced hdone => ?_, fun code n r hm hdue hstage hn hr hdone hruns hsm hkm => ?_, fun d hdue hbell => ?_,
      fun n x hst hx hstage => ⟨fun hdue htime => ?_, fun code part hdue => ?_, fun d hdue hbell => ?_⟩⟩,
    fun s => ⟨fun hm => ?_, fun hp3 => ?_, fun code data hp3 => ?_⟩⟩
  · exact State.next_congr (if_neg (by rw [hm]; decide))
  · exact State.next_same (if_pos (bne_iff_ne.mpr hm))
  · exact State.next_congr (if_neg fun h => hm (beq_iff_eq.mp h))
  · exact State.next_congr (if_pos (by rw [hob, decide_eq_true h1, decide_eq_true h2]; rfl))
  · exact State.next_same (if_neg (by rw [hob]; exact Bool.false_ne_true))
  · exact State.next_same ((if_neg fun h => Dev.not_boot_of_disobeys hob (beq_iff_eq.mp h)).trans (if_neg (by rw [hob]; exact Bool.false_ne_true)))
  · exact State.next_congr ((if_neg fun h => hm (beq_iff_eq.mp h)).trans (if_pos hob))
  · exact State.next_congr (if_pos (beq_iff_eq.mpr hm))
  · refine State.next_congr ?_
    unfold Dev.inputLoss
    refine (if_neg ?_).trans (if_pos ?_)
    · rw [beq_eq_false_iff_ne.mpr hm, hp3]
      exact Bool.false_ne_true
    · rw [Dev.runs_of_obeys hob hm, hphase]
      rfl
  · exact State.next_congr (if_pos (by rw [hm, hphase, hin]; rfl))
  · have hpass := Dev.chipPass_next hm hdue hstage himage
    refine ⟨s.withDev s.dev.chipPass, rfl, rfl, ?_⟩
    dsimp only [State.withDev]
    rw [hpass]
    by_cases h0 : s.dev.chip.boot.stage = 0
    · rw [if_pos h0]
      exact ⟨rfl, rfl, rfl, rfl, fun _ => by simp only [bit_toNat] <;> rfl, fun h => absurd h0 h, fun h => absurd (h0.symm.trans h) (by decide), fun _ => rfl,
        fun h => absurd h (by rw [h0]; decide), rfl, rfl, rfl, rfl⟩
    by_cases h1 : s.dev.chip.boot.stage = 1
    · rw [if_neg h0, if_pos h1]
      exact ⟨rfl, rfl, rfl, rfl, fun h => absurd h h0, fun _ => rfl, fun _ => rfl, fun h => absurd h h0, fun h => absurd h (by rw [h1]; decide),
        rfl, rfl, rfl, rfl⟩
    · rw [if_neg h0, if_neg h1]
      exact ⟨rfl, rfl, rfl, rfl, fun h => absurd h h0, fun _ => rfl, fun h => absurd h h1, fun h => absurd h h0, fun _ => rfl, rfl, rfl, rfl, rfl⟩
  · exact State.next_same (Dev.chipPass_stays (.inr ⟨hstage, himage⟩))
  · exact State.next_congr (Dev.chipPass_last hm hdue hstage htime)
  · exact State.next_same (Dev.chipPass_stays (.inl ⟨hstage, htime⟩))
  · have hfail := Dev.chipFail_boot code part hm hdue hstage hdone
    obtain ⟨himage, hst⟩ := s.dev.failedBoot_image code part
    obtain ⟨hcode, hfs, hfails, hexp, hbo, -, -⟩ := s.dev.failedBoot_records code part
    have hback : s.dev.noBackoff = false := by
      rw [Dev.noBackoff, hvault, hfenced]
      rfl
    rw [hback] at hbo
    exact ⟨_, State.next_congr hfail, rfl, hcode, hfs, hfails, hexp, hbo, himage, hst, rfl, rfl, rfl, rfl⟩
  · have hfail := Dev.chipFail_boot code (some n) hm hdue (by omega) hdone
    obtain ⟨-, -, -, -, -, hspire, hkeep⟩ := s.dev.failedBoot_records code (some n)
    obtain ⟨hms, hmk⟩ := Boot.markPart_spire hstage hn hr hruns hsm hkm
    exact ⟨_, State.next_congr hfail, hspire.trans hms, hkeep.trans hmk⟩
  · refine State.next_congr ?_
    dsimp only
    simp only [show s.dev.chip.boot.backoffDue = some d from hdue]
    exact if_pos hbell
  · refine State.next_congr ?_
    unfold Dev.regionPass
    simp only [hx]
    exact if_pos (by rw [hst, hdue, decide_eq_true hstage, Dev.inTime_of htime]; rfl)
  · refine State.next_congr ?_
    unfold Dev.regionFail
    simp only [hx]
    exact if_pos (by rw [hst, hdue, decide_eq_true hstage]; rfl)
  · refine State.next_congr ?_
    dsimp only
    simp only [hx, hdue]
    exact if_pos hbell
  · exact congrArg (fun o => Host.Outcome.next (s.withDev { s.dev with out := s.dev.out ++ [.smbus o] })) (if_pos (by rw [bne_iff_ne.mpr hm]; rfl))
  · exact State.next_congr (if_pos (by rw [hp3]; rfl))
  · exact State.next_same (if_neg (by rw [hp3]; exact Bool.false_ne_true))
end



section
/-! SUPPORT. What the work of the store leaves: the chip, the clock and whether the journal is open stay, and no Floder
command is added. `Dev.Stores` says so, with a rule for each operation on bays, journal, jobs, reads and scans. -/
namespace Sys2Proof.Machine

/-- The chip, the clock and the journal's being open stay; a Floder command in progress was in progress. -/
def Dev.Stores (v w : Dev) : Prop :=
  w.chip = v.chip ∧ w.clk = v.clk ∧ w.store.journal.isOpen = v.store.journal.isOpen ∧ ∀ c ∈ w.floder.cmds, c ∈ v.floder.cmds

theorem Dev.Stores.refl (v : Dev) : v.Stores v := ⟨rfl, rfl, rfl, fun _ h => h⟩

theorem Dev.Stores.trans {v w u : Dev} (h : v.Stores w) (k : w.Stores u) : v.Stores u := by
  obtain ⟨hchip, hclk, hopen, hcmds⟩ := h
  obtain ⟨kchip, kclk, kopen, kcmds⟩ := k
  exact ⟨kchip.trans hchip, kclk.trans hclk, kopen.trans hopen, fun c hc => hcmds c (kcmds c hc)⟩

theorem foldl_stores {α : Type} {f : Dev → α → Dev} (h : ∀ (x : Dev) a, x.Stores (f x a)) (l : List α) (v : Dev) : v.Stores (l.foldl f v) := by
  induction l generalizing v with
  | nil => exact .refl v
  | cons a l ih => exact (h v a).trans (ih (f v a))

theorem Dev.Issues.stores {v w : Dev} (h : v.Issues w) : v.Stores w := by
  obtain ⟨ops, moved, p, out, n, rfl⟩ := h
  exact .refl v

section
variable (v : Dev)

/-! ### Bays, journal and jobs -/

theorem Dev.count_stores (region cls idx ev n : Nat) : v.Stores (v.count region cls idx ev n) := by
  obtain ⟨p, h⟩ := v.count_frame region cls idx ev n
  rw [h]
  exact .refl v

theorem Dev.faultIn_stores (f : FaultInfo) (injected : Bool) : v.Stores (v.faultIn f injected) := by
  obtain ⟨fa, fc, ep, out, h⟩ := v.faultIn_frame f injected
  rw [h]
  exact .refl v

theorem Dev.fault_stores (type region inst d0 d1 d2 : Nat) : v.Stores (v.fault type region inst d0 d1 d2) := v.faultIn_stores ..

theorem Dev.setBay_stores (b : Nat) (x : BayRec) : v.Stores (v.setBay b x) := .refl v

theorem Dev.adjRead_stores (id : Nat) (f : ReadCtx → ReadCtx) : v.Stores (v.adjRead id f) := .refl v

theorem Dev.adjJob_stores (id : Nat) (f : Job → Job) : v.Stores (v.adjJob id f) := .refl v

theorem Dev.setScrub_stores (s : Nat) (x : Scrub) : v.Stores (v.setScrub s x) := .refl v

theorem Dev.setCipher_stores (s : Nat) (c : Cipher) : v.Stores (v.setCipher s c) := .refl v

theorem Dev.dropJob_stores (id : Nat) : v.Stores (v.dropJob id) := .refl v

theorem Dev.fixActive_stores (b : Nat) : v.Stores (v.fixActive b) := by
  obtain ⟨bays, h⟩ := v.fixActive_frame b
  rw [h]
  exact .refl v

theorem Dev.fixTimer_stores (id : Nat) : v.Stores (v.fixTimer id) := by
  unfold Dev.fixTimer
  split
  · exact .refl v
  · split
    · exact v.adjRead_stores ..
    · exact v.adjRead_stores ..
    · exact .refl v

theorem Dev.dropOp_stores (id : Nat) : v.Stores (v.dropOp id) := by
  have hops : ∀ (l : List BayOp) (b : Nat), v.Stores (({ v with store := { v.store with ops := l } } : Dev).fixActive b) := fun l b =>
    Dev.Stores.trans (v := v) (.refl v) (Dev.fixActive_stores { v with store := { v.store with ops := l } } b)
  have hleft : ∀ (w : Dev) (c : Nat) (f : ReadCtx → ReadCtx), v.Stores w → v.Stores ((w.adjRead c f).fixTimer c) := fun w c f h =>
    (h.trans (w.adjRead_stores c f)).trans (Dev.fixTimer_stores ..)
  unfold Dev.dropOp
  split
  · exact .refl v
  · dsimp only
    split
    · exact hleft _ _ _ (hops ..)
    · exact hleft _ _ _ (hops ..)
    · exact hops ..

theorem Dev.journal_stores (r : JournalRec) : v.Stores (v.journal r).2 :=
  Dev.Stores.trans (v := v) (.refl v) (foldl_stores (fun x n => (x.copyBlock_issues _ n).stores) _ _)

theorem Dev.checkpointStep_stores : v.Stores v.checkpointStep := by
  unfold Dev.checkpointStep
  split
  · exact .refl v
  · split
    · exact .refl v
    · exact Dev.Stores.trans (v := v) (.refl v) (Dev.journal_stores ..)

theorem Dev.copyFailed_stores (seq bay : Nat) : v.Stores (v.copyFailed seq bay) := by
  unfold Dev.copyFailed
  split
  · split
    · exact (v.copyBlock_issues ..).stores
    · exact .refl v
  · exact .refl v

theorem Dev.newStripe_stores {s claim m grains : Nat} {r : StripeRec} {w : Dev} (h : v.newStripe s claim m grains = some (r, w)) : v.Stores w := by
  obtain ⟨-, -, -, -, -, -, -, seq, rfl⟩ := Dev.newStripe_spec h
  exact .refl v

theorem Dev.issueStripe_stores (r : StripeRec) (imgs : List (List Byte)) (use : Nat → OpUse) : v.Stores (v.issueStripe r imgs use).2 :=
  (v.issueStripe_written r imgs use).issues.stores

theorem Dev.formStripes_stores (id : Nat) (t : Stripe) (n : Nat) (l : List (RunGrain × List Byte)) {w : Dev} (h : v.formStripes id t n l = some w) :
    v.Stores w := by
  induction n generalizing v l with
  | zero =>
    unfold Dev.formStripes at h
    exact Option.some.inj h ▸ .refl v
  | succ n ih =>
    cases l with
    | nil => exact Option.some.inj h ▸ .refl v
    | cons a l =>
      unfold Dev.formStripes at h
      dsimp only at h
      split at h
      · exact absurd h (by simp only [reduceCtorEq, not_false_eq_true])
      · rename_i r v1 hnew
        exact ((v.newStripe_stores hnew).trans (v1.adjJob_stores ..)).trans (ih _ _ h)

theorem Dev.jobWrite_stores (j : Job) (t : Stripe) : v.Stores (v.jobWrite j t) := by
  unfold Dev.jobWrite
  dsimp only
  split
  · split
    · exact v.dropJob_stores _
    · exact (v.adjJob_stores _ _).trans (Dev.issueSeam_spec ..).1.stores
  · exact v.dropJob_stores _
  · split
    · exact v.dropJob_stores _
    · split
      · exact v.dropJob_stores _
      · rename_i v1 hform
        exact ((v.formStripes_stores _ _ _ _ hform).trans (v1.adjJob_stores ..)).trans (foldl_stores (fun x n => x.issueStripe_stores ..) _ _)

theorem Dev.jobJournal_stores (j : Job) (r : StripeRec) : v.Stores (v.jobJournal j r) := by
  unfold Dev.jobJournal
  dsimp only
  split
  · exact (v.journal_stores _).trans (Dev.adjJob_stores ..)
  · exact foldl_stores (fun x (n : NewStripe) => (x.journal_stores _).trans (Dev.adjJob_stores ..)) _ _

theorem Dev.offerCipher_stores (s level n : Nat) (w : CipherWork) : v.Stores (v.offerCipher s level n w).2 := by
  unfold Dev.offerCipher
  dsimp only
  split
  · exact .refl v
  · split
    · exact .refl v
    · split
      · exact .refl v
      · exact .refl v

theorem Dev.issueRead_stores (b : Nat) (p : BayPort) (lba count : Nat) (use : OpUse) : v.Stores (v.issueRead b p lba count use).2 :=
  (v.issueOp_issues ..).stores

theorem Dev.jobStep_stores (id : Nat) : v.Stores (v.jobStep id) := by
  unfold Dev.jobStep
  split
  · exact .refl v
  split
  · exact .refl v
  split
  · exact v.dropJob_stores _
  dsimp only
  split
  · split
    · exact v.jobJournal_stores ..
    · exact .refl v
  split
  · exact v.dropJob_stores _
  split
  · split
    · exact (v.offerCipher_stores ..).trans (Dev.jobWrite_stores ..)
    · exact v.offerCipher_stores ..
  · refine foldl_stores (fun x e => ?_) _ _
    split
    · exact x.issueRead_stores ..
    · exact .refl x

theorem Dev.jobGot_stores (id pos first count : Nat) (imgs : List (List Byte)) : v.Stores (v.jobGot id pos first count imgs) :=
  (v.adjJob_stores ..).trans (Dev.jobStep_stores ..)

theorem Dev.jobServed_stores (id : Nat) : v.Stores (v.jobServed id) := by
  unfold Dev.jobServed
  split
  · exact .refl v
  split
  · exact v.dropJob_stores _
  split
  · exact .refl v
  · exact v.jobWrite_stores ..

theorem Dev.gather_stores (g : Grain) : v.Stores (v.gather g) := by
  unfold Dev.gather
  dsimp only
  split
  · exact .refl v
  · exact .refl v

theorem Dev.gatherAll_stores (gs : List Grain) : v.Stores (v.gatherAll gs) := foldl_stores Dev.gather_stores _ _

theorem Dev.failStripe_stores (pid : Nat) : v.Stores (v.failStripe pid) :=
  Dev.Stores.trans (v := v) (.refl v) (Dev.gatherAll_stores ..)

theorem Dev.writesDone_stores (pid : Nat) : v.Stores (v.writesDone pid) := by
  unfold Dev.writesDone
  split
  · exact .refl v
  split
  · exact ((v.journal_stores _).trans (.refl _)).trans (Dev.count_stores ..)
  · exact .refl v

theorem Dev.settleWritten_stores (pid op : Nat) : v.Stores (v.settleWritten pid op) := by
  unfold Dev.settleWritten
  split
  · exact .refl v
  · exact Dev.Stores.trans (v := v) (.refl v) (Dev.writesDone_stores ..)

theorem Dev.putBlocks_stores (o : BayOp) : v.Stores (v.putBlocks o) := by
  unfold Dev.putBlocks
  dsimp only
  split
  · exact .refl v
  · exact foldl_stores (f := fun x (e : List Byte × Nat) => x.writeDrive o.bay ((o.lba - 4194304) / 16) ((o.lba - 4194304) % 16 + e.2) e.1)
      (fun x _ => .refl x) _ _

/-- A command of a bay that is written. -/
theorem Dev.opWritten_stores (o : BayOp) : v.Stores (v.opWritten o) := by
  have hput : v.Stores (if o.cmd = .write then (v.putBlocks o).countBay o.bay o.port 0x002 (o.count * 4096) else v.putBlocks o) := by
    split
    · exact (v.putBlocks_stores o).trans (Dev.count_stores ..)
    · exact v.putBlocks_stores o
  unfold Dev.opWritten
  dsimp only
  split
  · exact hput.trans (Dev.settleWritten_stores ..)
  · exact hput.trans (.refl _)
  · exact hput.trans (.refl _)
  · exact hput.trans (.refl _)
  · exact hput.trans (Dev.checkpointStep_stores _)
  · exact hput.trans (Dev.jobStep_stores ..)
  · exact hput

/-! ### Reads, scrub and scans -/

theorem Dev.answer_stores (sn : Nat) (d : Delivered) (st : Byte) (x : ExtInfo) (off len : Nat) : v.Stores (v.answer sn d st x off len) := .refl v

theorem Dev.enqueue_stores (n k : Nat) (f : Frame) : v.Stores (v.enqueue n k f) := by
  obtain ⟨eg, p, h⟩ := v.enqueue_frame n k f
  rw [h]
  exact .refl v

theorem Dev.launch_stores (n : Nat) (q : Qp) (f : Frame) : v.Stores (v.launch n q f) :=
  Dev.Stores.trans (w := v.setQp n _) (.refl v) (Dev.enqueue_stores ..)

theorem Dev.launchN_stores (m n : Nat) : v.Stores (Dev.launchN m v n) := by
  induction m generalizing v with
  | zero => exact .refl v
  | succ m ih =>
    unfold Dev.launchN
    split
    · exact .refl v
    split
    · exact .refl v
    split
    · exact (v.launch_stores ..).trans (ih _)
    · exact .refl v

theorem Dev.post_stores (n : Nat) (ws : List Wire) : v.Stores (v.post n ws) := by
  unfold Dev.post Dev.launchQp
  split
  · exact .refl v
  split
  · exact Dev.Stores.trans (v := v) (.refl v) (Dev.launchN_stores ..)
  · exact .refl v

theorem Dev.postData_stores (n : Nat) (rkey : BitVec 32) (va : BitVec 64) (bs : List Byte) : v.Stores (v.postData n rkey va bs) := by
  unfold Dev.postData
  split
  · exact .refl v
  · exact v.post_stores ..

theorem Dev.protectData_stores (q sn : Nat) (data : List Byte) : v.Stores (v.protectData q sn data).2 := by
  unfold Dev.protectData
  split
  · split
    · exact .refl v
    · exact .refl v
  · exact .refl v

theorem Dev.chainDone_stores (s : Nat) : v.Stores (v.chainDone s) := v.count_stores ..

theorem Dev.adjSession_stores (sn : Nat) (f : Session → Session) : v.Stores (v.adjSession sn f) := .refl v

theorem Dev.finishRead_stores (r : ReadCtx) (st : Byte) : v.Stores (v.finishRead r st) := by
  have hgone : v.Stores { v with hosts := { v.hosts with reads := v.hosts.reads.filter (fun x => x.id != r.id) } } := .refl v
  unfold Dev.finishRead
  generalize ({ v with hosts := { v.hosts with reads := v.hosts.reads.filter (fun x => x.id != r.id) } } : Dev) = u at hgone ⊢
  dsimp only
  split
  · exact hgone.trans (u.answer_stores ..)
  split
  · exact .refl v
  · have hprot := u.protectData_stores r.qp r.session (rangeBytes r.parts r.extOffset r.length)
    generalize u.protectData r.qp r.session (rangeBytes r.parts r.extOffset r.length) = e at hprot ⊢
    exact (((hgone.trans hprot).trans (Dev.postData_stores ..)).trans (Dev.adjSession_stores ..)).trans (Dev.chainDone_stores ..)

theorem Dev.endRead_stores (r : ReadCtx) (st : Byte) : v.Stores (v.endRead r st) :=
  (foldl_stores Dev.dropOp_stores _ _).trans (Dev.finishRead_stores ..)

theorem Dev.rangeLost_stores (claim : Nat) (key : BitVec 128) (stripe off : Nat) : v.Stores (v.rangeLost claim key stripe off) :=
  Dev.Stores.trans (v := v) (.refl v) (Dev.fault_stores ..)

theorem Dev.pageMissed_stores (id key c : Nat) : v.Stores (v.pageMissed id key c) := by
  unfold Dev.pageMissed
  split
  · exact .refl v
  unfold Dev.readPage
  dsimp only
  split
  · exact (v.rangeLost_stores ..).trans (Dev.endRead_stores ..)
  · exact (v.issueRead_stores ..).trans (Dev.adjRead_stores ..)

theorem Dev.needsRepair_stores (type : Nat) (rc : StripeRec) (pos g : Nat) : v.Stores (v.needsRepair type rc pos g) := by
  unfold Dev.needsRepair
  dsimp only
  split
  · exact .refl v
  · exact (v.setScrub_stores ..).trans (Dev.faultIn_stores ..)

theorem Dev.reconstruct_stores (rc : StripeRec) (claim : Nat) (key : BitVec 128) (off sp pos g : Nat) (was : Bool) (others : List Nat)
    (unread : List Nat → List Nat) (attempt : List Nat → Option (List Byte)) :
    v.Stores (v.reconstruct rc claim key off sp pos g was others unread attempt).1 := by
  have hcount := v.count_stores sp 0x04 0 0x002 1
  have hrepair : v.Stores (if was then (v.count sp 0x04 0 0x002 1).needsRepair 0x051 rc pos g else v.count sp 0x04 0 0x002 1) := by
    split
    · exact hcount.trans (Dev.needsRepair_stores ..)
    · exact hcount
  unfold Dev.reconstruct
  dsimp only
  split
  · exact v.rangeLost_stores ..
  split
  · exact .refl v
  split
  · exact hrepair
  split
  · exact .refl v
  split
  · exact hrepair
  · exact hcount.trans (Dev.rangeLost_stores ..)

theorem Dev.resolvePart_stores (r : ReadCtx) (p : ReadPart) : v.Stores (v.resolvePart r p).1 := by
  unfold Dev.resolvePart
  split
  · exact .refl v
  · exact .refl v
  rename_i t pos g _ _
  split
  · exact .refl v
  rename_i rc _
  lift_lets
  intro sp key img readable others have_ unread try_ again
  have hagain : ∀ (x : Dev) (was : Bool), x.Stores (again x was).1 := fun x was => x.reconstruct_stores ..
  have hread := (v.count_stores sp 0x06 0 0x002 1).trans (Dev.count_stores _ sp 0x07 0 0x001 1)
  clear_value again try_ unread have_ others readable img key sp
  split
  · split
    · exact .refl v
    · exact hagain ..
  · exact hagain ..
  · dsimp only
    split
    · exact hread
    · exact (hread.trans (Dev.count_stores ..)).trans (Dev.needsRepair_stores ..)
    · exact ((hread.trans (Dev.count_stores ..)).trans (Dev.count_stores ..)).trans (hagain ..)
    · split
      · exact .refl v
      split
      · exact (hread.trans (Dev.count_stores ..)).trans (Dev.fault_stores ..)
      · exact (hread.trans (Dev.count_stores ..)).trans (hagain ..)

theorem Dev.resolveParts_stores (r : ReadCtx) (l : List ReadPart) : v.Stores (v.resolveParts r l).1 := by
  induction l generalizing v with
  | nil => exact .refl v
  | cons p l ih =>
    have hpart := v.resolvePart_stores r p
    unfold Dev.resolveParts
    split
    · rename_i v1 st h
      rw [h] at hpart
      exact hpart
    · rename_i v1 x h
      rw [h] at hpart
      exact hpart.trans (ih v1)
    · rename_i v1 ws h
      rw [h] at hpart
      exact hpart.trans (ih v1)

theorem Dev.resolveRead_stores (id : Nat) : v.Stores (v.resolveRead id) := by
  unfold Dev.resolveRead
  split
  · exact .refl v
  rename_i r _
  split
  · exact .refl v
  have hparts := v.resolveParts_stores r r.parts
  split
  · rename_i v1 ps st need h
    rw [h] at hparts
    exact hparts.trans (Dev.endRead_stores ..)
  · rename_i v1 ps need h
    rw [h] at hparts
    dsimp only
    split
    · exact (Dev.Stores.trans hparts (v1.adjRead_stores ..)).trans (Dev.endRead_stores ..)
    · refine (Dev.Stores.trans hparts (v1.adjRead_stores ..)).trans (foldl_stores (fun x e => ?_) _ _)
      split
      · exact .refl x
      · exact (x.issueRead_stores ..).trans (Dev.adjRead_stores ..)

theorem Dev.progressRead_stores (id : Nat) : v.Stores (v.progressRead id) := by
  unfold Dev.progressRead
  split
  · exact .refl v
  split
  · exact .refl v
  dsimp only
  split
  · exact (v.offerCipher_stores ..).trans (Dev.resolveRead_stores ..)
  · exact v.offerCipher_stores ..

/-- A Floder command that completes is in progress no more. -/
theorem Dev.finish_stores (id : Nat) (st : Byte) (r0 r1 r2 : Nat) (data : List Byte) : v.Stores (v.finish id st r0 r1 r2 data) := by
  unfold Dev.finish
  split
  · exact .refl v
  · dsimp only
    split
    · exact ⟨rfl, rfl, rfl, fun c hc => (List.mem_filter.mp hc).1⟩
    · exact ⟨rfl, rfl, rfl, fun c hc => (List.mem_filter.mp hc).1⟩

theorem Dev.scanDone_stores (x : Scan) : v.Stores (v.scanDone x).2 := by
  unfold Dev.scanDone
  split
  · exact .refl v
  · exact .refl v

theorem Dev.cutScan_stores (s : Nat) (tag : BitVec 16) (st : Byte) : v.Stores (v.cutScan s tag st) := by
  unfold Dev.cutScan
  split
  · exact .refl v
  · rename_i x _
    have hgone : v.Stores { v with store := { v.store with
      scans := v.store.scans.filter (fun y => !(y.spire.val == s && y.tag == tag))
      ops := v.store.ops.filter (fun o => o.use != OpUse.scan x.spire tag) } } := .refl v
    exact (hgone.trans (Dev.scanDone_stores ..)).trans (Dev.finish_stores ..)

/-- A command of a bay that ends without its result. -/
theorem Dev.opEnds_stores (o : BayOp) : v.Stores (v.opEnds o) := by
  unfold Dev.opEnds
  split
  · exact (v.adjRead_stores ..).trans (Dev.progressRead_stores ..)
  · exact v.pageMissed_stores ..
  · exact v.failStripe_stores ..
  · exact v.cutScan_stores ..
  · exact v.copyFailed_stores ..
  · exact v.checkpointStep_stores
  · exact v.jobGot_stores ..
  · exact .refl v
  · exact v.dropJob_stores _
  · exact .refl v

theorem Dev.opUnresolved_stores (o : BayOp) : v.Stores (v.opUnresolved o) := (v.dropOp_stores _).trans (Dev.opEnds_stores ..)

/-- The commands of a bay end unresolved. -/
theorem Dev.endBayOps_stores (b : Nat) : v.Stores (v.endBayOps b) := by
  refine foldl_stores (fun x (o : BayOp) => ?_) _ _
  split
  · exact x.opUnresolved_stores _
  · exact .refl x

theorem Dev.replaceJournal_stores (b : Nat) : v.Stores (v.replaceJournal b) := by
  unfold Dev.replaceJournal
  dsimp only
  split
  · exact .refl v
  split
  · exact .refl v
  · exact Dev.Stores.trans (v := v) (.refl v) (foldl_stores (fun x k => (x.copyBlock_issues k _).stores) _ _)

/-- A bay that leaves service. -/
theorem Dev.bayLeaves_stores (b : Nat) (st : BayState) : v.Stores (v.bayLeaves b st) := by
  unfold Dev.bayLeaves
  dsimp only
  split
  · exact ((v.setBay_stores b _).trans (Dev.replaceJournal_stores ..)).trans (Dev.endBayOps_stores ..)
  · exact (v.setBay_stores b _).trans (Dev.endBayOps_stores ..)

theorem Dev.chanOff_stores (c : Nat) (st : ChanState) : v.Stores (v.chanOff c st) := by
  obtain ⟨bays, hums, h⟩ := v.chanOff_frame c st
  rw [h]
  exact .refl v

theorem Dev.modeOff_stores (c : Nat) : v.Stores (v.modeOff c) := by
  unfold Dev.modeOff
  lift_lets
  intro x v1
  have hoff : v.Stores v1 := by
    unfold v1
    split
    · exact v.chanOff_stores ..
    · exact .refl v
  clear_value v1
  dsimp only
  split
  · exact hoff
  split
  · exact hoff.trans (Dev.bayLeaves_stores ..)
  · exact hoff

/-- The bays of the board with every gate off. -/
def Dev.gatesDown (v : Dev) : Dev :=
  let off (b : BayRec) : BayRec :=
    if b.state == .serving || b.state == .enumerating || b.state == .foreign then { b with state := .absent, ioA := 0, ioB := 0 } else b
  { v with store := { v.store with bays := v.store.bays.map (fun (e : Nat × BayRec) => (e.1, off e.2)) } }

theorem Dev.bayGatesOff_eq : v.bayGatesOff = (List.range 32).foldl (fun x c => (x.endBayOps c).modeOff c) v.gatesDown := rfl

theorem Dev.bayGatesOff_stores : v.Stores v.bayGatesOff := by
  have hdown : v.Stores v.gatesDown := .refl v
  rw [Dev.bayGatesOff_eq]
  exact hdown.trans (foldl_stores (fun x c => (x.endBayOps_stores c).trans (Dev.modeOff_stores ..)) _ _)

end

end Sys2Proof.Machine
end



section
/-! SUPPORT. The end of a shutdown, the other image, and a Sanitize that ends (R103, R107, R108, R338, R340). -/
namespace Sys2Proof.Machine

section
variable (v : Dev)

theorem Dev.allWritten_stores : v.Stores v.allWritten :=
  foldl_stores (fun x (o : BayOp) => (x.dropOp_stores o.id).trans (Dev.opWritten_stores ..)) _ _

theorem Dev.startImage_stores : ∃ at_, Dev.Stores { v with chip := { v.chip with imageAt := at_ } } v.startImage :=
  ⟨_, Dev.Stores.trans (v := { v with chip := { v.chip with imageAt := _ } }) (.refl _)
    (foldl_stores (fun x b => (x.issueOp_issues ..).stores) _ _)⟩

theorem Dev.writeMarker_stores (clean : Bool) (stamp : Nat) (step : BitVec 16) (settled energy : Nat) :
    Dev.Stores { v with chip := { v.chip with markerSeq := v.chip.markerSeq + 1 } } (v.writeMarker clean stamp step settled energy) :=
  foldl_stores (fun x b => (x.issueOp_issues ..).stores) _ _

/-- The shutdown's last device before its command completes. -/
def Dev.shutDown (v : Dev) : Dev :=
  ((v.closeJournal.startImage.allWritten.journalDone.writeImage.flushBays).writeMarker true v.chip.drain.startStamp v.chip.drain.startStep
    v.chip.drain.settled 0).allWritten.offReady

theorem Dev.shutdownEnd_stores : v.shutDown.Stores v.shutdownEnd := by
  unfold Dev.shutdownEnd
  dsimp only
  split
  · exact Dev.finish_stores ..
  · exact .refl _

/-- R103: after the last records the journal is closed, the record image and the marker are written, and the block is off. -/
theorem Dev.shutDown_spec : v.shutDown.chip.drain.offReady = true ∧ v.shutDown.mode = v.mode ∧ v.shutDown.chip.markerSeq = v.chip.markerSeq + 1 ∧
    v.shutDown.store.journal.isOpen = false ∧ v.shutDown.chip.recordImage ≠ none ∧ v.shutDown.clk.ages = false := by
  unfold Dev.shutDown
  obtain ⟨hchip0, -, -, -⟩ := v.journal_stores .close
  have hclose : v.closeJournal.chip = v.chip := hchip0
  have hopen : v.closeJournal.store.journal.isOpen = false := rfl
  generalize v.closeJournal = u0 at hclose hopen ⊢
  obtain ⟨at_, hchip1, -, hopen1, -⟩ := u0.startImage_stores
  generalize u0.startImage = u1 at hchip1 hopen1 ⊢
  obtain ⟨hchip2, -, hopen2, -⟩ := u1.allWritten_stores
  generalize u1.allWritten = u2 at hchip2 hopen2 ⊢
  obtain ⟨hchip3, -, hopen3, -⟩ := u2.journalDone.writeImage.flushBays.writeMarker_stores true v.chip.drain.startStamp v.chip.drain.startStep
    v.chip.drain.settled 0
  generalize u2.journalDone.writeImage.flushBays.writeMarker true v.chip.drain.startStamp v.chip.drain.startStep v.chip.drain.settled 0 = u3
    at hchip3 hopen3 ⊢
  obtain ⟨hchip4, -, hopen4, -⟩ := u3.allWritten_stores
  generalize u3.allWritten = u4 at hchip4 hopen4 ⊢
  obtain ⟨hchip5, hclk5, hopen5, -⟩ := Dev.bayGatesOff_stores { u4 with
    chip := { u4.chip with drain := { u4.chip.drain with offReady := true } }
    clk := { u4.clk with ages := false } }
  have hseq : u4.chip.markerSeq = v.chip.markerSeq + 1 := by
    rw [hchip4, hchip3]
    exact (congrArg (·.markerSeq + 1) (hchip2.trans hchip1)).trans (show u0.chip.markerSeq + 1 = v.chip.markerSeq + 1 by rw [hclose])
  have hmode : u4.chip.mode = v.chip.mode := by
    rw [hchip4, hchip3]
    exact (congrArg Chip.mode (hchip2.trans hchip1)).trans (show u0.chip.mode = v.chip.mode by rw [hclose])
  have himage : u4.chip.recordImage ≠ none := by
    rw [hchip4, hchip3]
    exact Option.some_ne_none _
  have hshut : u4.store.journal.isOpen = false := (hopen4.trans hopen3).trans (hopen2.trans (hopen1.trans hopen))
  unfold Dev.offReady Dev.mode
  rw [hchip5, hclk5, hopen5]
  exact ⟨rfl, congrArg ModeState.mode hmode, hseq, hshut, himage, rfl⟩

/-- A device off by a shutdown. -/
theorem Dev.shutdownEnd_spec : v.shutdownEnd.chip.drain.offReady = true ∧ v.shutdownEnd.mode = v.mode ∧
    v.shutdownEnd.chip.markerSeq = v.chip.markerSeq + 1 ∧ v.shutdownEnd.store.journal.isOpen = false ∧ v.shutdownEnd.chip.recordImage ≠ none ∧
    v.shutdownEnd.clk.ages = false := by
  obtain ⟨hchip, hclk, hopen, -⟩ := v.shutdownEnd_stores
  rw [Dev.mode, hchip, hclk, hopen]
  exact v.shutDown_spec

theorem Dev.writeChunk_first (old d : List Byte) : v.writeChunk old 0 d = (d ++ old.drop d.length, v) := by
  unfold Dev.writeChunk
  simp only [Nat.zero_sub, if_true, List.append_nil, List.take_zero, List.nil_append, Nat.zero_add]

/-- The device when bay `n` has answered its Sanitize with `status`, before the command that asked is completed. -/
def Dev.sanitized (v : Dev) (n : Nat) (status : BitVec 32) : Dev :=
  let x := v.bay n
  let y : BayRec := { x with sanitizing := none, sanitize := some status, label := if status = 0 then none else x.label }
  let v1 := v.setBay n y
  let v2 := if status = 0 then
      (if x.state == .serving then { v1 with store := { v1.store with bays := Tab.set v1.store.bays n { y with state := .foreign } } } else v1)
    else v1
  if status = 0 then
    { v2 with store := { v2.store with
      drives := v2.store.drives.filter (fun e => decide (e.1 < driveKey n 0 0) || decide (driveKey (n + 1) 0 0 ≤ e.1)) } }
  else v2

variable (n : Nat) (status : BitVec 32)

theorem Dev.sanitized_frame : (v.sanitized n status).floder = v.floder ∧ (v.sanitized n status).chip = v.chip ∧
    (v.sanitized n status).store.grains = v.store.grains := by
  unfold Dev.sanitized
  dsimp only
  split
  · split <;> exact ⟨rfl, rfl, rfl⟩
  · exact ⟨rfl, rfl, rfl⟩

theorem Dev.sanitized_bay : ((v.sanitized n status).bay n).sanitizing = none ∧ ((v.sanitized n status).bay n).sanitize = some status ∧
    (status = 0 → ((v.sanitized n status).bay n).label = none ∧ ((v.sanitized n status).bay n).state ≠ .serving) ∧
    (status ≠ 0 → ((v.sanitized n status).bay n).label = (v.bay n).label ∧ ((v.sanitized n status).bay n).state = (v.bay n).state) := by
  unfold Dev.sanitized Dev.bay Dev.setBay
  by_cases h : status = 0
  · simp only [h, if_true]
    split
    · simp only [Tab.getD_set]
      exact ⟨trivial, trivial, fun _ => ⟨trivial, BayState.noConfusion⟩, fun hne => (hne rfl).elim⟩
    · rename_i hserve
      simp only [Tab.getD_set]
      exact ⟨trivial, trivial, fun _ => ⟨trivial, fun hs => hserve (beq_iff_eq.mpr hs)⟩, fun hne => (hne rfl).elim⟩
  · simp only [h, if_false, Tab.getD_set]
    exact ⟨trivial, trivial, fun hs => hs.elim, fun _ => ⟨trivial, trivial⟩⟩

theorem Dev.sanitized_other {a : Nat} (h : a ≠ n) : (v.sanitized n status).bay a = v.bay a := by
  unfold Dev.sanitized Dev.bay Dev.setBay
  dsimp only
  split
  · split
    · simp only [Tab.getD_set_ne _ _ _ h]
    · exact Tab.getD_set_ne _ _ _ h
  · exact Tab.getD_set_ne _ _ _ h

/-- R335: a Sanitize that succeeded leaves no word of the drive. -/
theorem Dev.sanitized_drives (h : status = 0) :
    ∀ e ∈ (v.sanitized n status).store.drives, e.1 < driveKey n 0 0 ∨ driveKey (n + 1) 0 0 ≤ e.1 := by
  unfold Dev.sanitized
  simp only [h, if_true]
  intro e he
  simpa only [Bool.or_eq_true, decide_eq_true_eq] using (List.mem_filter.mp he).2

theorem Dev.finishOk_frame (id r0 r1 r2 : Nat) : (v.finishOk id r0 r1 r2).store = v.store ∧ (v.finishOk id r0 r1 r2).chip = v.chip := by
  unfold Dev.finishOk
  rw [Dev.finish_frame]
  exact ⟨rfl, rfl⟩

end

end Sys2Proof.Machine
end

section
open Sys2Proof Sys2Proof.Machine

/-- Settles O16: the events of a DRAIN and of an activation, a Sanitize that ends, a debug level, and the image commands. -/
theorem drainActivationImages : Obligations.DrainActivationImages := by
  refine ⟨fun s => ⟨fun d w n hw hn hm hpurpose hbell => ?_, fun hm hoff hpurpose hdr => ?_, fun hm hoff hpurpose hretire hdr => ⟨?_, ?_⟩,
      fun hm hdr hretire => ?_, fun hact hpeal hm => ?_, fun d hact hpeal hat hm hns => ?_, fun d hact h => ?_, fun bell t id hact hcmd => ?_,
      fun d id hact hcmd hpeal => ?_, fun d hact hpeal => ?_⟩,
    fun s b status id c => ⟨fun hsan hcmd hop => ?_, fun hsan => ?_, fun l hm hnext hl hdebug => ?_, fun l hm hnext hl hdebug => ?_,
      fun hm hnext hdebug hlife => ?_⟩,
    fun s p w id => ⟨fun hst hfloor hact hoth => ?_, fun hst hfloor => ?_, fun hst hact h0 hlast hlen => ?_, fun hst hact h0 hlast hlen body hbody => ?_,
      fun hst h => ?_⟩⟩
  · refine State.next_congr ?_
    simp only [hw, hn]
    exact if_pos (by rw [hm, hpurpose, hbell]; rfl)
  · refine State.next_congr ((if_neg ?_).trans ?_)
    · rw [hm, hoff, Bool.false_and]
      decide
    · simp only [show s.dev.chip.drain.purpose = .debug from hpurpose]
      exact if_pos hdr
  · refine State.next_congr ((if_neg ?_).trans ?_)
    · rw [hm, hoff, Bool.false_and]
      decide
    · simp only [show s.dev.chip.drain.purpose = .shutdown from hpurpose]
      exact (if_neg (by rw [hretire]; exact Bool.false_ne_true)).trans (if_pos hdr)
  · obtain ⟨hend, hmode, hseq, hopen, himage, hages⟩ := s.dev.shutdownEnd_spec
    exact ⟨hend, hmode.trans hm, hseq, hopen, himage, hages⟩
  · refine State.next_same ?_
    by_cases hout : (s.dev.mode != .drain || (s.dev.chip.drain.offReady && !(s.dev.chip.drain.retire && s.dev.sec.lifecycle == .provisioned))) = true
    · exact if_pos hout
    · refine (if_neg hout).trans ?_
      cases hp : s.dev.chip.drain.purpose
      case shutdown =>
        simp only [hp]
        exact (if_neg (by rw [hretire]; exact Bool.false_ne_true)).trans (if_neg (by rw [hdr]; exact Bool.false_ne_true))
      case debug =>
        simp only [hp]
        exact if_neg (by rw [hdr]; exact Bool.false_ne_true)
      all_goals simp only [hp]
  · refine State.next_congr (if_pos ?_)
    rw [show s.dev.sec.act = .scheduled from hact, show s.dev.atPeal = true from hpeal, s.dev.inMode_running.mpr hm]
    rfl
  · refine State.next_congr ?_
    have hlate : b2n (decide (448 ≤ s.dev.clk.ns)) = 0 := by
      rw [decide_eq_false (Nat.not_le.mpr hns)]
      rfl
    simp only [show s.dev.sec.act = .draining d from hact, hlate]
    refine if_pos ?_
    simp only [Bool.and_eq_true, Bool.or_eq_true, beq_iff_eq]
    exact ⟨⟨hpeal, hat⟩, hm⟩
  · refine State.next_same ?_
    simp only [show s.dev.sec.act = .draining d from hact]
    refine if_neg fun hswap => ?_
    simp only [Bool.and_eq_true, Bool.or_eq_true, beq_iff_eq] at hswap
    obtain ⟨⟨hnear, hat⟩, -⟩ := hswap
    obtain hlow | hhigh | hno := h
    · omega
    · omega
    · exact Bool.false_ne_true (hno.symm.trans hat)
  · refine State.next_congr ?_
    simp only [Dev.endSwap, Dev.endActivation, show s.dev.sec.act = .swapping bell t from hact, show s.dev.sec.actCmd = some id from hcmd, b2n,
      pealBells]
  · refine State.next_congr ?_
    simp only [Dev.endActivation, show s.dev.sec.act = .draining d from hact, show s.dev.sec.actCmd = some id from hcmd]
    exact if_pos hpeal
  · refine State.next_same ?_
    simp only [show s.dev.sec.act = .draining d from hact]
    exact if_neg (Nat.not_le.mpr hpeal)
  · obtain ⟨hfloder, hchip, hgrains⟩ := s.dev.sanitized_frame b.val status
    obtain ⟨hfree, hkept, hok, hbad⟩ := s.dev.sanitized_bay b.val status
    obtain ⟨hstore, hchipEnd⟩ := (s.dev.sanitized b.val status).finishOk_frame id status.toNat 0 0
    have hbay : ∀ a, ((s.dev.sanitized b.val status).finishOk id status.toNat 0 0).bay a = (s.dev.sanitized b.val status).bay a :=
      fun a => congrArg (fun st : Store => Tab.getD st.bays a BayRec.reset) hstore
    refine ⟨s.withDev ((s.dev.sanitized b.val status).finishOk id status.toNat 0 0), State.next_congr ?_, rfl, ?_⟩
    · have hfound : (s.dev.sanitized b.val status).floder.cmds.find? (fun c => c.id == id) = some c := by rw [hfloder]; exact hcmd
      simp only [show (s.dev.bay b.val).sanitizing = some id from hsan]
      generalize hw : s.dev.sanitized b.val status = w at hfound ⊢
      unfold Dev.sanitized at hw
      dsimp only at hw ⊢
      rw [hw, hfound]
      exact if_pos (by rw [hop]; rfl)
    · simp only [State.withDev]
      rw [hbay, hstore, hchipEnd]
      exact ⟨hfree, hkept, fun hz => ⟨(hok hz).1, (hok hz).2, s.dev.sanitized_drives b.val status hz⟩, hbad,
        fun a _ hne => (hbay a).trans (s.dev.sanitized_other b.val status hne), hgrains, hchip⟩
  · refine State.next_same ?_
    simp only [show (s.dev.bay b.val).sanitizing = none from hsan]
  · refine State.next_congr ((if_neg ?_).trans ?_)
    · rw [beq_iff_eq]
      exact hm
    · unfold Dev.debugBell Dev.applyDebug
      simp only [show s.dev.sec.nextDebug = some l from hnext, Option.some_beq_some, beq_eq_false_iff_ne.mpr hl,
        beq_eq_false_iff_ne.mpr (show s.dev.sec.debug ≠ .open_ from hdebug), Bool.false_and, Bool.false_eq_true, if_false]
  · refine State.next_congr ((if_neg ?_).trans ?_)
    · rw [beq_iff_eq]
      exact hm
    · unfold Dev.debugBell Dev.applyDebug
      simp only [show s.dev.sec.nextDebug = some l from hnext, Option.some_beq_some, beq_eq_false_iff_ne.mpr hl,
        show s.dev.sec.debug = .open_ from hdebug, Bool.false_and, Bool.false_eq_true, if_false, beq_self_eq_true, if_true]
  · refine State.next_congr ((if_neg ?_).trans ?_)
    · rw [beq_iff_eq]
      exact hm
    · unfold Dev.debugBell Dev.applyDebug
      simp only [show s.dev.sec.nextDebug = some .open_ from hnext, beq_eq_false_iff_ne.mpr (show s.dev.sec.lifecycle ≠ .provisioned from hlife),
        beq_eq_false_iff_ne.mpr (show s.dev.sec.debug ≠ .open_ from hdebug), Bool.and_false, Bool.false_and, Bool.false_eq_true, if_false,
        beq_self_eq_true, if_true]
  · refine State.next_starts hst (if_neg ?_)
    simp only [Bool.or_eq_true, decide_eq_true_eq]
    omega
  · refine State.next_starts hst (if_pos ?_)
    simp only [Bool.or_eq_true, decide_eq_true_eq]
    exact .inl (.inl hfloor)
  · refine State.next_starts hst ((if_neg ?_).trans ?_)
    · rw [hact, h0]
      simp only [Packet.bytes, length_slice]
      simp only [bne_self_eq_false, Bool.false_or, Bool.or_eq_true, decide_eq_true_eq]
      omega
    · simp only [h0, Dev.writeChunk_first, length_slice, Packet.bytes, if_true, hlast, Bool.false_eq_true, if_false]
  · refine State.next_starts hst ((if_neg ?_).trans ?_)
    · rw [hact, h0]
      simp only [Packet.bytes, length_slice]
      simp only [bne_self_eq_false, Bool.false_or, Bool.or_eq_true, decide_eq_true_eq]
      omega
    · subst hbody
      simp only [h0, Dev.writeChunk_first, length_slice, Packet.bytes, if_true, hlast] <;> rfl
  · refine State.next_starts hst (if_pos ?_)
    simp only [Bool.or_eq_true, decide_eq_true_eq]
    exact .inl (.inr h)
end



section
/-! SUPPORT. A Keep that is isolated, and a scrub read served when a cipher bank is back (R17, R19, R96). -/
namespace Sys2Proof.Machine

section
variable (v : Dev)

/-! ### The Keep pair -/

/-- R16, R18: both Keeps are bad exactly when each is gone or flagged. -/
theorem Dev.bothKeepsBad_iff : v.bothKeepsBad = true ↔ ∀ j, v.keepSound j = false ∨ (v.keep j).flag = true := by
  unfold Dev.bothKeepsBad
  simp only [Bool.and_eq_true, Bool.or_eq_true, Bool.not_eq_true']
  exact ⟨fun ⟨ha, hb⟩ j => by cases j with | A => exact ha | B => exact hb, fun h => ⟨h .A, h .B⟩⟩

theorem Dev.reachNs_stroke (stroke : Fin 8) (h : v.clk.ns ≤ 64 * stroke.val) :
    v.reachNs (64 * stroke.val) = { v with clk := { v.clk with ns := 64 * stroke.val } } := by
  unfold Dev.reachNs
  rw [Nat.min_eq_left (by omega), Nat.max_eq_right h]

/-- R18: a miscompare that no flag, or both, explain is a fault that names the flags. -/
theorem Dev.fault_miscompare (fa fb : Bool) (n : Nat) : (if fa == fb then v.fault 0x022 7 0 n (b2n fa + 2 * b2n fb) 0 else v) =
    if fa = fb then v.fault 0x022 7 0 n (if fa then 3 else 0) 0 else v := by
  cases fa <;> cases fb <;> rfl

theorem Dev.fixExposure_ep : v.fixExposure.ep = v.ep := by
  have hmark : ∀ b : Bool, (if b then v.markExposed (fun g => g.held) true else v).ep = v.ep := fun b => by
    cases b <;> rfl
  unfold Dev.fixExposure
  dsimp only
  generalize hu : (if (v.exposureMask / 16 &&& v.chip.exposure.cause / 16 != v.exposureMask / 16) = true then
    v.markExposed (fun g => g.held) true else v) = u
  have hep : u.ep = v.ep := hu ▸ hmark _
  rw [← hep]
  split
  · exact (congrArg Dev.ep (Dev.noticeAll_platform ..)).trans rfl
  · split
    · rfl
    · split
      · exact (congrArg Dev.ep ((foldl_platform (fun y c => y.completeCtx_platform ..) _ _).trans (Dev.noticeAll_platform ..))).trans rfl
      · rfl

/-- R17, R345: a part that fails is one of the parts that are not repaired; neither Keep nor the endpoint changes. -/
theorem Dev.partFails_spec (p : Part) : p ∈ (v.partFails p).chip.unrepaired ∧ (v.partFails p).chip.keeps = v.chip.keeps ∧
    (v.partFails p).mode = v.mode ∧ (v.partFails p).ep = v.ep := by
  unfold Dev.partFails
  dsimp only
  generalize hu : (({ v with chip := { v.chip with
    unrepaired := if v.chip.unrepaired.contains p then v.chip.unrepaired else v.chip.unrepaired ++ [p] } } : Dev).modeEvent .partFault) = u
  have hkept : u.chip.keeps = v.chip.keeps ∧ u.mode = v.mode ∧ u.ep = v.ep := hu ▸ ⟨rfl, rfl, rfl⟩
  have hmem : p ∈ u.chip.unrepaired := by
    subst hu
    dsimp only [Dev.modeEvent]
    split
    · exact List.mem_of_elem_eq_true ‹_›
    · exact List.mem_append_right _ List.mem_cons_self
  obtain ⟨hkeeps, hmode, hep⟩ := hkept
  obtain ⟨x, dr, hchip⟩ := u.fixExposure_chip
  rw [Dev.mode, hchip, u.fixExposure_ep]
  exact ⟨hmem, hkeeps, hmode, hep⟩

theorem Dev.setKeep_frame (k : KeepId) (r : KeepRec) : (v.setKeep k r).mode = v.mode ∧ (v.setKeep k r).ep = v.ep ∧ (v.setKeep k r).clk = v.clk := by
  cases k <;> exact ⟨rfl, rfl, rfl⟩

/-- The device of an isolation before the part is marked faulty: with Keep A the endpoint begins to pass to Keep B (R20). -/
def Dev.keepOut (v : Dev) (k : KeepId) : Dev :=
  let w := v.setKeep k { v.keep k with isolated := true }
  if k = .A && !w.ep.keepB then { w with ep := { w.ep with link := false, failing := some w.now } } else w

theorem Dev.keepOut_spec (k : KeepId) : ((v.keepOut k).keep k).isolated = true ∧ (v.keepOut k).keep (otherKeep k) = v.keep (otherKeep k) ∧
    (v.keepOut k).mode = v.mode ∧
    (k = .A → v.ep.keepB = false → (v.keepOut k).ep.link = false ∧ (v.keepOut k).ep.failing = some v.clk.elapsed) ∧
    (k = .B → (v.keepOut k).ep.failing = v.ep.failing) := by
  cases k with
  | A =>
    have hfail : v.ep.keepB = false → (v.keepOut .A).ep.link = false ∧ (v.keepOut .A).ep.failing = some v.clk.elapsed := fun h => by
      unfold Dev.keepOut
      rw [if_pos (by simp only [(v.setKeep_frame .A _).2.1, h, decide_true, Bool.not_false, Bool.and_self])]
      exact ⟨rfl, rfl⟩
    have hkeep : (v.keepOut .A).chip = (v.setKeep .A { v.keep .A with isolated := true }).chip := by
      unfold Dev.keepOut
      dsimp only
      split <;> rfl
    unfold Dev.keep Dev.mode
    rw [hkeep]
    exact ⟨rfl, rfl, rfl, fun _ => hfail, KeepId.noConfusion⟩
  | B => exact ⟨rfl, rfl, rfl, KeepId.noConfusion, fun _ => rfl⟩

theorem Dev.isolateKeep_of_sound {k : KeepId} (h : v.keepSound k = true) : v.isolateKeep k = (v.keepOut k).partFails (.keep k) := by
  unfold Dev.keepSound at h
  obtain ⟨hin, hthere⟩ := Bool.and_eq_true_iff.mp h
  unfold Dev.isolateKeep
  exact if_neg (by rw [(Bool.not_eq_true' _).mp hin, (Bool.not_eq_true' _).mp hthere]; exact Bool.false_ne_true)

/-! ### A bank whose reset is over -/

theorem Dev.scrubGrain_stores (r : StripeRec) (seams : List (List (List Byte))) (key : List Byte) (g : RunGrain) (i : Nat) :
    v.Stores (v.scrubGrain r seams key g i).2 := by
  unfold Dev.scrubGrain
  dsimp only
  split
  · exact .refl v
  · exact v.needsRepair_stores ..
  · split
    · exact v.needsRepair_stores ..
    · exact v.rangeLost_stores ..

end

/-- A loop that carries a value beside the device leaves what each of its steps leaves. -/
theorem foldl_snd_stores {α β : Type} {f : β × Dev → α → β × Dev} (h : ∀ (x : β × Dev) a, x.2.Stores (f x a).2) (l : List α) (x : β × Dev) :
    x.2.Stores (l.foldl f x).2 := by
  induction l generalizing x with
  | nil => exact .refl _
  | cons a l ih => exact (h x a).trans (ih (f x a))

section
variable (v : Dev)

theorem Dev.scrubStripe_stores (t : Stripe) (seams : List (List (List Byte))) (key : List Byte) : v.Stores (v.scrubStripe t seams key) := by
  unfold Dev.scrubStripe
  dsimp only
  refine (foldl_snd_stores (fun (a : List (List Byte) × Dev) i => ?_) (List.range t.runs.length) ([], v)).trans (foldl_stores (fun x g => ?_) _ _)
  · split
    · split
      · exact .refl _
      · exact (a.2.count_stores ..).trans (Dev.scrubGrain_stores ..)
    · exact .refl _
  · split
    · exact .refl _
    · refine (foldl_snd_stores (fun (a : List (List Byte) × Dev) i => ?_) _ (_, x)).trans (foldl_stores (fun z j => z.needsRepair_stores ..) _ _)
      split
      · split
        · exact .refl _
        · exact a.2.scrubGrain_stores ..
      · exact .refl _

theorem Dev.endPass_stores (s : Nat) : v.Stores (v.endPass s) := by
  unfold Dev.endPass
  dsimp only
  split <;> exact v.setScrub_stores ..

theorem Dev.scrubServed_stores (n stripe : Nat) (seams : List (List (List Byte))) : v.Stores (v.scrubServed n stripe seams) := by
  unfold Dev.scrubServed
  split
  · exact v.endPass_stores n
  · split
    · exact (v.scrubStripe_stores ..).trans (Dev.endPass_stores ..)
    · exact v.endPass_stores n

theorem Dev.cipherBack_stores (s : Nat) : v.Stores (v.cipherBack s) := by
  have hdrain : v.Stores (v.drainCipher s).2 := v.setCipher_stores ..
  refine hdrain.trans (foldl_stores (fun x w => ?_) _ _)
  split
  · exact x.resolveRead_stores _
  · exact x.jobServed_stores _
  · exact x.scrubServed_stores ..

theorem Dev.resetsDone_stores (covers : BitVec 32 → Bool) : v.Stores (v.resetsDone covers) := by
  obtain ⟨fa, fc, ep, out, h⟩ := v.resetsDone_frame covers
  rw [h]
  exact .refl v

end

theorem Dev.Stores.cmdsOf_nil {v w : Dev} {op : Nat} (h : v.Stores w) (hnone : v.cmdsOf op = []) : w.cmdsOf op = [] := by
  obtain ⟨-, -, -, hcmds⟩ := h
  refine List.filter_eq_nil_iff.mpr fun c hc => List.filter_eq_nil_iff.mp hnone c (hcmds c hc)

/-- A block reset that no BLOCK_RESET command waits for completes none. -/
theorem Dev.finishes_none {v : Dev} (src : BitVec 32) (h : v.cmdsOf 0x0104 = []) :
    (v.cmdsOf 0x0104).foldl (fun y c => if c.p.u32 0 = src.toNat then y.finishOk c.id 0 0 0 else y) v = v := by
  rw [h]
  rfl

theorem Dev.blockResetting_of_mem {v : Dev} {src : BitVec 32} (hr : srcRegion src < 4) (h : srcInst src ∈ (v.spire (srcRegion src)).resets) :
    v.blockResetting src = true := by
  unfold Dev.blockResetting
  rw [decide_eq_true hr, List.contains_iff_mem.mpr h]
  rfl

end Sys2Proof.Machine
end

section
open Sys2Proof Sys2Proof.Machine

/-- Settles O27: the Keep pair, its isolation, and block resets. -/
theorem keepsAndBlocks : Obligations.KeepsAndBlocks := by
  refine ⟨fun s k n stroke => ⟨fun hm hsound => ?_, fun u => u.bothKeepsBad_iff, fun hm ha hb hns w hw => ?_, fun hns => ?_,
      fun hk ho hclear hflag hhold => ?_, fun ho => ?_⟩,
    fun v k hsound => ?_, fun s p w id src => ⟨fun hst hsrc hty hcls => ?_, fun hst hty => ?_, fun r b hrec hlevel hcls hdue hr => ?_,
      fun r hty hr hlt hmem h20 h90 h60 h10 h11 hcmds => ?_, fun r hty hr hlt h60 hmem hcmds => ?_, fun hty ok => ?_⟩⟩
  · refine State.next_congr (if_neg ?_)
    rw [beq_eq_false_iff_ne.mpr hm, hsound]
    exact Bool.false_ne_true
  · subst hw
    refine State.next_congr ?_
    dsimp only
    rw [s.dev.reachNs_stroke stroke hns]
    refine (if_neg ?_).trans ?_
    · show ¬(s.dev.mode == .held || !true || !s.dev.keepSound .A || !s.dev.keepSound .B) = true
      rw [beq_eq_false_iff_ne.mpr hm, ha, hb]
      exact Bool.false_ne_true
    · exact Dev.fault_miscompare ..
  · refine State.next_congr ((if_pos ?_).trans (s.dev.reachNs_stroke stroke hns))
    rw [Bool.not_false, Bool.or_true, Bool.true_or, Bool.true_or]
  · refine State.next_congr (if_pos ?_)
    unfold Dev.isolateDue
    rw [hk, ho, hclear, hflag, hhold]
    rfl
  · refine State.next_same (if_neg ?_)
    unfold Dev.isolateDue
    rw [ho, Bool.and_false, Bool.false_and, Bool.false_and]
    exact Bool.false_ne_true
  · rw [v.isolateKeep_of_sound hsound]
    obtain ⟨hout, hother, hmode, hfail, hkept⟩ := v.keepOut_spec k
    obtain ⟨hmem, hkeeps, hmode', hep⟩ := (v.keepOut k).partFails_spec (.keep k)
    have hkeep : ∀ j, ((v.keepOut k).partFails (.keep k)).keep j = (v.keepOut k).keep j := fun j => by
      unfold Dev.keep
      rw [hkeeps]
    rw [hkeep, hkeep, hmode', hep]
    exact ⟨hout, hother, hmem, hmode, hfail, hkept⟩
  · subst hsrc
    refine State.next_starts hst (if_pos ?_)
    rw [decide_eq_true hty, hcls]
    rfl
  · refine State.next_starts hst (if_neg ?_)
    rw [decide_eq_false hty]
    exact Bool.false_ne_true
  · refine State.next_congr ?_
    simp only [show Tab.get s.dev.faults src.toNat = some r from hrec, hlevel]
    refine if_pos ?_
    rw [decide_eq_true hcls, hdue, decide_eq_true hr]
    rfl
  · subst hr
    refine State.next_congr ((if_neg ?_).trans ?_)
    · rw [decide_eq_false (not_not_intro hty), Dev.blockResetting_of_mem hlt hmem]
      exact Bool.false_ne_true
    · simp only [hlt, h20, h90, h60, h10, h11, decide_true, decide_false, Bool.and_true, Bool.true_and, Bool.and_false, Bool.false_and, Bool.or_self,
        Bool.false_eq_true, if_true, if_false]
      exact Dev.finishes_none _ (Dev.Stores.cmdsOf_nil (v := s.dev.setSpire (srcRegion src) _) (Dev.resetsDone_stores ..) hcmds)
  · subst hr
    refine State.next_congr ((if_neg ?_).trans ?_)
    · rw [decide_eq_false (not_not_intro hty), Dev.blockResetting_of_mem hlt hmem]
      exact Bool.false_ne_true
    · simp only [hlt, h60, decide_true, Bool.true_and, Bool.and_false, Bool.or_self, Bool.false_eq_true, if_true, if_false, Nat.reduceEqDiff,
        decide_false]
      exact Dev.finishes_none _ (Dev.Stores.cmdsOf_nil (v := s.dev.setSpire (srcRegion src) _) ((Dev.cipherBack_stores ..).trans (Dev.resetsDone_stores ..)) hcmds)
  · refine State.next_same (if_pos ?_)
    rw [decide_eq_true hty, Bool.true_or]
end



section
/-! SUPPORT. A hot-swap sample leaves the input's record as it wrote it; a module that loses its seat (R142, R351, R367). -/
namespace Sys2Proof.Machine

section
variable (v : Dev)

/-! ### What a sample of the channels leaves of the input -/

theorem Dev.Stores.input {v w : Dev} (h : v.Stores w) : w.chip.input = v.chip.input := congrArg Chip.input h.1

theorem Dev.partFails_input (p : Part) : (v.partFails p).chip.input = v.chip.input := by
  unfold Dev.partFails
  dsimp only
  generalize hu : (({ v with chip := { v.chip with
    unrepaired := if v.chip.unrepaired.contains p then v.chip.unrepaired else v.chip.unrepaired ++ [p] } } : Dev).modeEvent .partFault) = u
  have hinput : u.chip.input = v.chip.input := hu ▸ rfl
  obtain ⟨x, dr, hchip⟩ := u.fixExposure_chip
  rw [hchip]
  exact hinput

theorem Dev.setChan_input (c : Nat) (x : Channel) : (v.setChan c x).chip.input = v.chip.input := rfl

theorem Dev.setHum_input (h : Nat) (x : HumState) : (v.setHum h x).chip.input = v.chip.input := rfl

theorem Dev.chanOff_input (c : Nat) (st : ChanState) : (v.chanOff c st).chip.input = v.chip.input := (v.chanOff_stores c st).input

theorem Dev.fault_input (type region inst d0 d1 d2 : Nat) : (v.fault type region inst d0 d1 d2).chip.input = v.chip.input :=
  (v.fault_stores ..).input

theorem Dev.bayLeaves_input (b : Nat) (st : BayState) : (v.bayLeaves b st).chip.input = v.chip.input := (v.bayLeaves_stores b st).input

theorem Dev.loseSeat_input (c : Nat) : (v.loseSeat c).chip.input = v.chip.input := by
  unfold Dev.loseSeat
  grind [Dev.setChan_input, Dev.bayLeaves_input, Dev.chanOff_input, Dev.partFails_input]

theorem Dev.obeyEnable_input (c : Nat) : (v.obeyEnable c).chip.input = v.chip.input := by
  unfold Dev.obeyEnable
  grind [Dev.setChan_input, Dev.chanOff_input]

theorem Dev.trip_input (c cause point : Nat) (current : Int) : (v.trip c cause point current).chip.input = v.chip.input := by
  unfold Dev.trip
  grind [Dev.setChan_input, Dev.chanOff_input, Dev.fault_input]

theorem Dev.sampleChan_input (c : Nat) (m : Option ChanSample) : (v.sampleChan c m).chip.input = v.chip.input := by
  unfold Dev.sampleChan
  grind [Dev.obeyEnable_input, Dev.trip_input, Dev.setHum_input, Dev.fault_input, Dev.setChan_input, Dev.loseSeat_input, Dev.chanOff_input]

theorem Dev.sampleTemp_input (n : Nat) (t : Int) : (v.sampleTemp n t).chip.input = v.chip.input := by
  unfold Dev.sampleTemp
  dsimp only
  split
  · exact (Dev.fault_input ..).trans rfl
  · rfl

theorem Dev.countKeep_stores (cls ev n : Nat) : v.Stores (v.countKeep cls ev n) := by
  have hone : ∀ (b : Bool) (u : Dev) (k : Nat), u.Stores (if b then u.count k cls 0 ev n else u) := fun b u k => by
    cases b
    · exact .refl u
    · exact u.count_stores ..
  exact (hone _ v 4).trans (hone _ _ 5)

end

theorem foldl_input {α : Type} {f : Dev → α → Dev} (h : ∀ (x : Dev) a, (f x a).chip.input = x.chip.input) (l : List α) (v : Dev) :
    (l.foldl f v).chip.input = v.chip.input := by
  induction l generalizing v with
  | nil => rfl
  | cons a l ih => exact (ih (f v a)).trans (h v a)

section
variable (v : Dev)

/-- R142: the input's record after a sample. -/
theorem Dev.takeSample_input (m : Sample) :
    (v.takeSample m).chip.input = ⟨m.pwrgood, m.vsnsMv, if m.pwrgood && decide (v.cfgBits 0x301C 31 16 ≤ m.vsnsMv) then min 244 (v.chip.input.run + 1) else 0,
      m.pwrgood && decide (v.cfgBits 0x301C 31 16 ≤ m.vsnsMv), v.chip.input.samples + 1, some v.now⟩ := by
  unfold Dev.takeSample
  dsimp only
  refine (foldl_input (fun x e => ?_) _ _).trans ((foldl_input (fun x h => (Dev.setHum_input ..).trans (Dev.setChan_input ..)) _ _).trans
    ((foldl_input (fun x c => x.sampleChan_input ..) _ _).trans ((Dev.countKeep_stores ..).input.trans rfl)))
  split
  · exact x.sampleTemp_input ..
  · rfl

theorem Dev.sampleFalls_of_not (h : v.sampling = false ∨ v.clk.elapsed % 64 ≠ 0 ∨ 64 ≤ v.clk.ns ∨ v.chip.input.sampledAt = some v.clk.elapsed) :
    v.sampleFalls = false := by
  unfold Dev.sampleFalls
  obtain h | h | h | h := h
  · rw [h, Bool.false_and, Bool.false_and, Bool.false_and]
  · rw [show (v.now % 64 == 0) = false from beq_eq_false_iff_ne.mpr h, Bool.and_false, Bool.false_and, Bool.false_and]
  · have hstroke : v.stroke ≠ 0 := by
      unfold Dev.stroke
      omega
    rw [beq_eq_false_iff_ne.mpr hstroke, Bool.and_false, Bool.false_and]
  · rw [show v.chip.input.sampledAt = some v.now from h, bne_self_eq_false, Bool.and_false]

/-! ### A module that loses its seat -/

theorem Dev.loseSeat_hum {c : Nat} (h : isHum c = true) : ∃ chans bays hums, v.loseSeat c =
      { v with chans := chans, store := { v.store with bays := bays, hums := hums } } ∧
    ((v.loseSeat c).chan c).present = false ∧ ((v.loseSeat c).chan c).ready = none ∧ ((v.loseSeat c).chan c).gateOn = false := by
  unfold Dev.loseSeat
  simp only [h, if_true, Dev.chan_setChan]
  split
  · obtain ⟨bays, hums, hoff⟩ := v.chanOff_frame c .wait
    rw [Dev.chanOff_chan]
    exact ⟨_, bays, hums, by rw [hoff]; rfl, trivial, trivial, rfl⟩
  · rename_i hgate
    rw [Bool.or_eq_true, not_or] at hgate
    exact ⟨_, v.store.bays, v.store.hums, rfl, trivial, trivial, Bool.eq_false_iff.mpr hgate.2⟩

theorem Dev.mapFaults_none (f : Nat × FaultRec → Nat × FaultRec) (h : v.faults = []) : ({ v with faults := v.faults.map f } : Dev) = v := by
  rw [h, List.map_nil, ← h]

/-- R370: the code of a channel released while no fault is recorded, by its ENABLE. -/
theorem Dev.enabled_code (c : Nat) : (if v.enabled c then ChanState.wait else .off).code = if v.enabled c then 1 else 0 := by
  split <;> rfl

end

end Sys2Proof.Machine
end

section
open Sys2Proof Sys2Proof.Machine

/-- Settles O30: samples, removal and identity of channels and modules, and the two channel commands. -/
theorem channelCommands : Obligations.ChannelCommands := by
  refine ⟨fun s b h x m => ⟨fun hs hx hseen hgone => ?_, fun hs => ?_, fun serial hon hmeas => ?_, fun hon hmeas => ?_, fun n t0 t1 hs hn h0 h1 => ?_,
      fun n t0 t1 hn h0 => ?_, fun hfalls hm hv => ?_, fun hfalls hm hv hvault => ?_, fun hnot => ?_⟩,
    fun s p w id c => ⟨fun hst hc hdue => ?_, fun hst hc hdue => ?_, fun hst hbig => ?_, fun hst hc hlocked hfaults => ?_, fun hst hc hon => ?_⟩⟩
  · subst hx
    refine State.next_congr (if_pos ?_)
    rw [show s.dev.sampling = true from hs, show (s.dev.chan b.val).seen = false from hseen, Bool.true_and, Bool.not_false, Bool.true_and,
      decide_eq_true_eq]
    exact hgone
  · obtain ⟨chans, bays, hums, hseat, hpresent, hready, hgate⟩ := s.dev.loseSeat_hum (c := 32 + h.val) (decide_eq_true (Nat.le_add_right 32 h.val))
    refine ⟨_, State.next_congr (if_pos hs), rfl, ?_⟩
    rw [State.withDev_dev, Dev.chan_setChan]
    refine ⟨rfl, hpresent, hready, hgate, ?_, ?_, ?_⟩ <;> (rw [hseat]; rfl)
  · refine State.next_congr (if_pos ?_)
    rw [show (s.dev.chan (32 + h.val)).state = .on from hon, show s.dev.measured (32 + h.val) = true from hmeas]
    rfl
  · refine State.next_congr (if_pos ?_)
    rw [show (s.dev.chan (32 + h.val)).state = .on from hon, show s.dev.measured (32 + h.val) = true from hmeas]
    rfl
  · refine State.next_congr (if_pos ?_)
    rw [if_pos hn, show s.dev.sampling = true from hs, decide_eq_true hn, decide_eq_true h0, decide_eq_true h1]
    rfl
  · refine State.next_same (if_neg ?_)
    rw [if_pos hn, decide_eq_false (Int.not_le.mpr h0), Bool.and_false, Bool.false_and]
    exact Bool.false_ne_true
  · obtain ⟨hmem, hclk, hmode, -, hregs, -, -⟩ := s.dev.takeSample_keeps m
    have hvault : (s.dev.takeSample m).mode ≠ .vault := fun hv => hm (hmode.symm.trans hv)
    refine ⟨_, State.next_congr ((if_neg ?_).trans ?_), rfl, ?_⟩
    · rw [hfalls]
      exact Bool.false_ne_true
    · dsimp only
      rw [if_neg (Nat.not_lt.mpr hv)]
      refine if_neg ?_
      rw [beq_eq_false_iff_ne.mpr hvault]
      exact Bool.false_ne_true
    · rw [State.withDev_dev, s.dev.takeSample_input m]
      refine ⟨rfl, rfl, ite_iff_congr ?_ rfl rfl, rfl, rfl, hclk, hmode, hmem, hregs⟩
      rw [Bool.and_eq_true, decide_eq_true_eq]
  · refine State.next_congr ((if_neg ?_).trans ?_)
    · rw [hfalls]
      exact Bool.false_ne_true
    · dsimp only
      rw [if_pos hv]
      refine if_neg ?_
      rw [beq_eq_false_iff_ne.mpr hvault]
      exact Bool.false_ne_true
  · refine State.next_same (if_pos ?_)
    rw [s.dev.sampleFalls_of_not hnot]
    rfl
  · refine State.next_starts hst ?_
    simp only [hc]
    refine if_neg ?_
    rw [show w.page (chanPage c) = w.page (0x10000 + 0x1000 * c) from rfl, hdue]
    exact Bool.false_ne_true
  · refine State.next_starts hst ?_
    simp only [hc]
    exact if_pos hdue
  · refine State.next_starts hst ?_
    have hc : chanParam p 2 = none := if_neg fun h => absurd (of_decide_eq_true (Bool.and_eq_true_iff.mp h).1) (Nat.not_lt.mpr hbig)
    simp only [hc]
  · refine State.next_starts hst ?_
    simp only [hc, hlocked]
    refine (if_neg Bool.false_ne_true).trans ?_
    rw [Dev.mapFaults_none _ _ (show (w.setChan c _).faults = [] from hfaults), w.enabled_code c]
    rfl
  · refine State.next_starts hst ?_
    simp only [hc]
    refine if_pos ?_
    rw [hon]
    rfl
end
